-- ==== Sys2Proof/Word.lean ====
section
/-! DEFINITION. Words, bytes and the one sparse table in which every numbered thing of the module is held.
A table is a list of (number, value) pairs in one canonical form: numbers strictly rising, and no entry equal to the
value that an unlisted number stands for. -/

namespace Sys2Proof

/-- One byte of a packet, a frame or a memory. -/
abbrev Byte := BitVec 8

/-- A bit pattern that stands for an IEEE 754 binary32 value. -/
abbrev F32 := BitVec 32

/-- A bit pattern that stands for an IEEE 754 binary16 value. -/
abbrev F16 := BitVec 16

/-- A sparse table: what an unlisted number stands for is given at each use. -/
abbrev Tab (α : Type) := List (Nat × α)

/-- The value at number `k`, where `d` is what an unlisted number stands for. -/
def Tab.get {α : Type} (d : α) : Tab α → Nat → α
  | [], _ => d
  | (a, v) :: rest, k => if a = k then v else Tab.get d rest k

/-- Drop every entry at number `k`. -/
def Tab.drop {α : Type} : Tab α → Nat → Tab α
  | [], _ => []
  | (a, v) :: rest, k => if a = k then Tab.drop rest k else (a, v) :: Tab.drop rest k

/-- Put `v` at number `k` before the first larger number. -/
def Tab.put {α : Type} : Tab α → Nat → α → Tab α
  | [], k, v => [(k, v)]
  | (a, w) :: rest, k, v => if a < k then (a, w) :: Tab.put rest k v else (k, v) :: (a, w) :: rest

/-- Write `v` at number `k`; writing what an unlisted number stands for removes the entry. -/
def Tab.set {α : Type} [DecidableEq α] (d : α) (t : Tab α) (k : Nat) (v : α) : Tab α :=
  if v = d then Tab.drop t k else Tab.put (Tab.drop t k) k v

/-- Change the value at number `k` by `f`. -/
def Tab.upd {α : Type} [DecidableEq α] (d : α) (t : Tab α) (k : Nat) (f : α → α) : Tab α :=
  Tab.set d t k (f (Tab.get d t k))

/-- Change every listed value; an entry that becomes what an unlisted number stands for is dropped. -/
def Tab.alter {α : Type} [DecidableEq α] (d : α) (f : α → α) (t : Tab α) : Tab α :=
  (List.map (fun e => (e.1, f e.2)) t).filter (fun e => decide (e.2 ≠ d))

/-- Every number of the table lies above `lo`, the numbers rise strictly, and no entry equals `d`. -/
def Tab.above {α : Type} [DecidableEq α] (d : α) : Nat → Tab α → Bool
  | _, [] => true
  | lo, (a, v) :: rest => decide (lo < a) && decide (v ≠ d) && Tab.above d a rest

/-- The canonical form of a table. -/
def Tab.wf {α : Type} [DecidableEq α] (d : α) : Tab α → Bool
  | [] => true
  | (a, v) :: rest => decide (v ≠ d) && Tab.above d a rest

/-- Bits `[hi:lo]` of a number, as the manual's field maps write them. -/
def bits (w hi lo : Nat) : Nat := (w >>> lo) % 2 ^ (hi + 1 - lo)

/-- A field placed at bit `lo` of a word. -/
def field (v lo : Nat) : Nat := v <<< lo

/-- 1 for true, 0 for false. -/
def flag (b : Bool) : Nat := if b then 1 else 0

/-- `n` bytes of a number, most significant byte first. -/
def be : Nat → Nat → List Byte
  | 0, _ => []
  | n + 1, v => BitVec.ofNat 8 (v >>> (8 * n)) :: be n v

/-- The number that bytes spell, most significant byte first. -/
def ofBytes (bs : List Byte) : Nat := bs.foldl (fun a b => a * 256 + b.toNat) 0

/-- The largest value of an unsigned field of `n` bits; a saturating count stops there. -/
def top (n : Nat) : Nat := 2 ^ n - 1

/-- A count that saturates at `n` bits. -/
def satAdd (n a b : Nat) : Nat := min (a + b) (top n)

/-- A two's complement reading of `n` bits. -/
def signed (n v : Nat) : Int := if v % 2 ^ n < 2 ^ (n - 1) then (v % 2 ^ n : Nat) else (v % 2 ^ n : Nat) - (2 ^ n : Nat)

/-- A two's complement field of `n` bits. -/
def unsigned (n : Nat) (v : Int) : Nat := (v % (2 ^ n : Nat)).toNat

end Sys2Proof
end

