-- ==== Sys2Proof/Machine/Data.lean ====
section
/-! DEFINITION. The data that commands carry and that several parts of the state hold: model images as their container
spells them (05_array_upkeep_and_images.md), result and log records, packets, stream frames, pack payloads. -/

namespace Sys2Proof.Machine

open Sys2Proof

/-! ## Status codes, Table 11.9 -/

/-- The status codes of Table 11.9 (R411). -/
inductive Status where
  | ok | accepted | budget | warming | degraded | poisoned
  | busy | noSession | badOpcode | badParam | notPermitted | noResource | orphaned | watchdog
  | imageInvalid | signatureFail | rollback | storeFail
  deriving DecidableEq, Repr

/-- The number of a status, Table 11.9. -/
def Status.code : Status → Nat
  | .ok => 0x0000 | .accepted => 0x0001 | .budget => 0x0002 | .warming => 0x0003 | .degraded => 0x0004
  | .poisoned => 0x0005 | .busy => 0x0010 | .noSession => 0x0011 | .badOpcode => 0x0012 | .badParam => 0x0013
  | .notPermitted => 0x0014 | .noResource => 0x0015 | .orphaned => 0x0016 | .watchdog => 0x0017
  | .imageInvalid => 0x0020 | .signatureFail => 0x0021 | .rollback => 0x0022 | .storeFail => 0x0023

/-! ## Memory places, Tables 6.1 and 6.6 -/

/-- The memories that bytes lie in. -/
inductive Space where
  | engine   -- 64 KiB per engine, byte `65536 * engine + offset`
  | core     -- 512 KiB per core
  | cluster  -- 4 MiB per cluster
  | base     -- 56 MiB general part
  | board    -- 128 GiB
  deriving DecidableEq, Repr

/-- A run of bytes in one memory, at a byte number counted over the whole memory. -/
structure Region where
  space : Space
  at_ : Nat
  len : Nat
  deriving DecidableEq, Repr

/-! ## Model images, R201 to R205 -/

/-- A plane file, Table 3.1. Scales and column sums stand at index `256 * group + column`. -/
structure PlaneFile where
  setting : BitVec 32 := 0
  mask : BitVec 32 := 0
  codebook : List Int := []
  defGain : Tab F16 := []
  defOff : Tab F16 := []
  scales : Tab F16 := []
  colSums : Tab Int := []
  deriving DecidableEq, Repr

/-- The codes of one array block: row `r`, column `c` at index `256 * r + c`, 0 where not listed. -/
structure ArrayBlock where
  codes : Tab Nat := []
  file : PlaneFile := {}
  deriving DecidableEq, Repr

/-- A placement map entry, Table 5.14. -/
structure Placement where
  block : Nat
  home : Nat
  loc : BitVec 32 := 0
  off : Nat := 0
  reservedZero : Bool := true
  deriving DecidableEq, Repr

/-- A digital weight block, Table 4.3: header word, codebook entries, codes. -/
structure DigBlock where
  header : BitVec 32
  entries : List Nat := []
  off : Nat := 0
  /-- the codes in the tile order of R120 -/
  codes : List Byte := []
  deriving DecidableEq, Repr

/-- A member description, Table 5.13. -/
structure MemberDesc where
  kind : Nat := 0
  flags : Nat := 0
  layers : Nat := 1
  width : Nat := 256
  p : Nat := 16
  tokenW : Nat := 256
  d : Nat := 1
  streams : Nat := 1
  refStream : Nat := 0
  heads : Nat := 1
  maxN : Nat := 1
  window : Nat := 0
  globalCtx : Nat := 0
  stateBytes : Nat := 0
  arrayW : Nat := 0
  digBytes : Nat := 0
  minCtx : Nat := 0
  interval : Nat := 1
  lookback : Nat := 1
  after : Nat := 0
  schedule : Nat := 0
  period : Nat := 0
  allow : Nat := 0
  reservedZero : Bool := true
  deriving DecidableEq, Repr

/-- The kind of an output head, Table 1.4. -/
inductive HeadKind where
  | cls (k : Nat)
  | anomaly
  | life (components : Nat)
  deriving DecidableEq, Repr

/-- An advisory rule, Table 1.5. Thresholds are binary32. -/
structure Rule where
  member : Nat := 0
  head : Nat := 0
  element : Nat := 0
  above : Bool := true
  assertAt : F32 := 0
  releaseAt : F32 := 0
  assertCount : Nat := 1
  releaseCount : Nat := 1
  minHold : Nat := 0
  mask : BitVec 4 := 0
  notify : Bool := false
  permit : BitVec 2 := 0
  deriving DecidableEq, Repr

/-- A watch trigger, Table 1.3 and R573. -/
structure Trigger where
  head : Nat := 0
  element : Nat := 0
  above : Bool := true
  threshold : F32 := 0
  count : Nat := 1
  ctx : Nat := 1
  deriving DecidableEq, Repr

/-- A front-end event detector's condition, R386. -/
inductive DetCond where
  | above (t : Int)
  | below (t : Int)
  | diff (t : Int)
  | band (window : Nat) (t : Int)
  deriving DecidableEq, Repr

/-- A front-end event detector, R386. -/
structure Detector where
  input : Nat := 0
  cond : DetCond := .above 0
  count : Nat := 1
  holdoff : Nat := 0
  ctx : Nat := 1
  deriving DecidableEq, Repr

/-- One FIR stage of an input, Table 10.5: coefficients, decimation factor, right shift of the sum. -/
structure FirStage where
  taps : List Int := [1]
  factor : Nat := 1
  shift : Nat := 0
  deriving DecidableEq, Repr

/-- The feature map of an input, Table 10.5. -/
inductive FeatureMap where
  | raw
  | fft (bins : Nat)
  | bands (n : Nat)
  | stats (n : Nat)
  deriving DecidableEq, Repr

/-- A front-end input declared by the image's tokenisation section. The gain is `gainM * 2 ^ -gainE`. -/
structure Input where
  rate : Nat
  width : Nat
  ds : Nat := 1
  stages : List FirStage := []
  feature : FeatureMap := .raw
  gainM : Int := 1
  gainE : Nat := 0
  offset : Int := 0
  deriving DecidableEq, Repr

/-- A counter that the image declares for its watch context or its inspect contexts, R263. -/
structure CtrDecl where
  member : Nat := 0
  id : Nat := 0
  home : Nat := 0
  exported : Bool := false
  token : Bool := false
  deriving DecidableEq, Repr

/-- A producer and consumer pair that the image declares, R275. -/
structure PairDecl where
  member : Nat := 0
  produced : Nat := 0
  consumed : Nat := 0
  deriving DecidableEq, Repr

/-- A thread's program, section type 0x0008; `ctx` is the context that binds the thread, 255 any inspect context. -/
structure Program where
  thread : Nat
  ctx : Nat := 0
  records : List (BitVec 256) := []
  deriving DecidableEq, Repr

/-- A ring's descriptor list, section type 0x0009; `ctx` as in `Program`. -/
structure RingList where
  ring : Nat
  ctx : Nat := 0
  descs : List (BitVec 512) := []
  deriving DecidableEq, Repr

/-- The number formats of Table 4.1. -/
inductive Fmt where
  | int8 | uint8 | int4 | uint4 | int16 | int32 | e4m3 | e5m2 | bf16 | fp16 | binary32 | code4 | code8
  deriving DecidableEq, Repr

/-- The places of Table 4.1. -/
inductive Place where
  | tokens | panelInput | panelWeight | panelAcc | digitalWeight | macWeight | macInput | macAcc | engineOut | coreOut
  | vector | vectorHalf | state | tails | groupScale | multiplier | head
  deriving DecidableEq, Repr

/-- A step that reads a requantisation point: its thread, its record's place in the program, the channel of the point that is
its first element. -/
structure Reader where
  thread : Nat
  record : Nat
  chan : Nat := 0
  deriving DecidableEq, Repr

/-- A requantisation point, section type 0x0006 and R131 to R137. `fmt` is the OUTFMT code of its outputs (Table 7.11). -/
structure ReqPoint where
  member : Nat := 0
  point : Nat := 0
  core : Nat := 0
  coreKind : Bool := false
  fmt : Nat := 0
  zout : Nat := 0
  channels : Nat := 1
  adapt : Bool := false
  readers : List Reader := []
  deriving DecidableEq, Repr

/-- What a file that the image places in core SRAM holds (Table 4.4, R126, Table 1.1). -/
inductive FileKind where
  | requant | dequant | sign | gain
  deriving DecidableEq, Repr

/-- A file that the image places in the SRAM of a core. -/
structure CoreFile where
  core : Nat
  off : Nat
  kind : FileKind
  bytes : List Byte := []
  deriving DecidableEq, Repr

/-- The constants of one layer, which PARAM of a vector step names (Table 7.8): the state size N, A of channel `i` and
state index `n` at `N * i + n`, empty where the layer has no recurrence, D by channel (R155), epsilon (R157), and the taps of
a convolution, `width` per channel. -/
structure LayerConst where
  n : Nat := 1
  a : List F32 := []
  d : List F32 := []
  eps : F32 := 0x3727C5AC
  width : Nat := 1
  taps : List F32 := []
  /-- format of the convolution's tail (Table 4.1), with the point that counts its conversions and, for an integer tail, the
  multipliers into and out of it by channel -/
  tail : Fmt := .binary32
  tailPoint : Nat := 0
  tailMults : List F32 := []
  tailDeq : List F32 := []
  deriving DecidableEq, Repr

/-- The layer constants of a member, section type 0x0007. -/
structure Constants where
  layers : List LayerConst := []
  replaySpan : Nat := 0
  deriving DecidableEq, Repr

/-- A Filet configuration for one region, section type 0x000A. -/
structure FiletCfg where
  region : Nat := 0
  cells : Nat := 0
  blocks : Nat := 0
  bytes : Nat := 0
  deriving DecidableEq, Repr

/-- A custom Filet function, R377: an elementwise map by 8-bit lookup or a short causal convolution. -/
structure FiletFn where
  region : Nat := 0
  member : Nat := 0
  inCtr : Nat := 0
  outCtr : Nat := 0
  src : Nat := 0
  dst : Nat := 0
  elems : Nat := 0
  wide : Bool := false
  /-- 256 entries of an elementwise map, by the top byte of the element; empty for a convolution -/
  lut : List Int := []
  taps : List Int := [1]
  shift : Nat := 0
  deriving DecidableEq, Repr

/-- A section table entry, Table 5.11; `digestOk` says whether the section's bytes have the SHA3-256 digest it names. -/
structure Section where
  type : Nat
  member : Nat
  offset : Nat
  length : Nat
  digestOk : Bool := true
  reservedZero : Bool := true
  deriving DecidableEq, Repr

/-- The quotas and working buffers that the image declares for a context of a member, Table 8.4. -/
structure Quota where
  threads : Nat := 0
  counters : Nat := 0
  rings : Nat := 0
  bytes : Nat := 0
  power : Nat := 0
  deriving DecidableEq, Repr

/-- One member of an image with its sections. -/
structure Member where
  desc : MemberDesc := {}
  placement : List Placement := []
  blocks : List ArrayBlock := []
  digital : List DigBlock := []
  points : List ReqPoint := []
  consts : Constants := {}
  quota : Quota := {}
  /-- the operators that its description of R18 names are those of Table 1.1, hidden widths within its limits -/
  opsInFamily : Bool := true
  /-- formats that the image declares, by place (Table 4.1) -/
  formats : List (Place × Fmt) := []
  files : List CoreFile := []
  slots : Nat := 2
  iterTokens : Nat := 4096
  drawW : Nat := 0
  state : List Region := []
  deriving DecidableEq, Repr

/-- A model image: its container as R201 to R204 lay it out, with the facts that only the crypto unit and the read-back
can find (`sigOk`, `anchor`, `readOk`) as flags. `layoutOk` says that its described sections have the lengths of what they
hold. -/
structure Image where
  magic : Nat := 0x5350494D
  format : Nat := 1
  level : Nat := 1
  hdrlen : Nat := 256
  noiseVer : Nat := 1
  secver : Nat := 0
  imageId : Nat := 0
  imageArea : Nat := 0
  length : Nat := 0
  signed : Nat := 0
  reservedZero : Bool := true
  layoutOk : Bool := true
  readOk : Bool := true
  digestOk : Bool := true
  trailerOk : Bool := true
  sigOk : Bool := true
  anchor : Nat := 0
  tokenDigest : Nat := 0
  measure : Nat := 0
  sections : List Section := []
  watch : Option Member := none
  inspect : Option Member := none
  heads : List (Nat × HeadKind) := []
  rules : List Rule := []
  triggers : List Trigger := []
  detectors : List Detector := []
  inputs : List Input := []
  refInput : Nat := 0
  programs : List Program := []
  rings : List RingList := []
  counters : List CtrDecl := []
  pairs : List PairDecl := []
  filet : List FiletCfg := []
  feCells : Nat := 0
  feBlocks : Nat := 0
  feMulRate : Nat := 0
  functions : List FiletFn := []
  deriving DecidableEq, Repr

/-- A firmware container as FIRMWARE_VALIDATION_DONE and the boot code find it, Table 14.2 and R493. -/
structure Firmware where
  magic : Nat := 0x53504657
  format : Nat := 1
  level : Nat := 1
  fwver : Nat := 0
  secver : Nat := 0
  reservedZero : Bool := true
  readOk : Bool := true
  digestOk : Bool := true
  sigOk : Bool := true
  measure : Nat := 0
  deriving DecidableEq, Repr

/-! ## Results, R413 -/

/-- One head section of a result record: head, poisoned byte, values. -/
structure HeadSection where
  head : Nat
  poisoned : Bool := false
  values : List F32 := []
  deriving DecidableEq, Repr

/-- A result record, Tables 11.10 and 11.11. The flags are kept apart and spelled by `ResultRec.qflags`. -/
structure ResultRec where
  resno : Nat := 0
  sfirst : Nat := 0
  slast : Nat := 0
  cover : Nat := 0
  ctx : Nat := 0
  member : Nat := 0
  cls : Nat := 0
  qflags : BitVec 16 := 0
  rkind : Nat := 0
  pos : Nat := 0
  pass : Nat := 0
  tokens : Nat := 0
  imgStamp : Nat := 0
  heads : List HeadSection := []
  deriving DecidableEq, Repr

/-- What the heads of a member give at one token: values and poison by head.
The arithmetic that gives the values runs in the thread programs; where the programs leave them is the image's affair. -/
structure TokenOut where
  values : List (List F32) := []
  poisoned : List Bool := []
  deriving DecidableEq, Repr

/-! ## The log, R457 -/

/-- A log record, Table 12.8, without its CRC. -/
structure LogRec where
  lseq : Nat := 0
  commit : Nat := 0
  tick : Nat := 0
  sidx : Option Nat := none
  poc : Nat := 0
  loc : Nat := 0
  bunit : Nat := 0
  ctx : Nat := 0xFF
  code : Nat := 0
  tbit : Option (Nat × Nat) := none
  gasp : Bool := false
  summary : Bool := false
  rep : Nat := 1
  detail : List Nat := []
  deriving DecidableEq, Repr

/-! ## Packets, R402 and R403 -/

/-- A TLV parameter: TYPE and value. -/
abbrev Tlv := Nat × List Byte

/-- A command packet once its header and TLVs are read from the decrypted payload. -/
structure Packet where
  opcode : Nat
  ctx : Nat := 0xFFFF
  seq : Nat
  /-- 0 where every TLV reads as R403 states; otherwise one more than the offset of the first that does not. -/
  badAt : Nat := 0
  plen : Nat := 0
  tlvs : List Tlv := []
  offs : List Nat := []
  deriving DecidableEq, Repr

/-- A reply, Tables 11.5 and 11.6. -/
structure Reply where
  opcode : Nat
  ctx : Nat := 0xFFFF
  seq : Nat
  status : Status
  detail : Nat := 0
  commit : Nat
  tlvs : List Tlv := []
  deriving DecidableEq, Repr

/-- A notify, Table 11.12. -/
structure Notify where
  opcode : Nat
  ctx : Nat := 0xFFFF
  nseq : Nat
  loss : Bool := false
  status : Status := .ok
  detail : Nat := 0
  commit : Nat
  tlvs : List Tlv := []
  deriving DecidableEq, Repr

/-- A client's certificate chain and what the crypto unit finds of it, R399. -/
structure Chain where
  anchor : Option Nat := none
  serials : List (List Byte) := []
  sigsOk : Bool := true
  usageOk : Bool := true
  count : Nat := 1
  deriving DecidableEq, Repr

/-! ## Streams, R360 and R365 -/

/-- The SOURCE of a stream slot, Table 10.9. -/
inductive Source where
  | frame (family udp addr streamId : Nat)
  | sv (dmac appid confRev element : Nat) (svid : List Byte)
  deriving DecidableEq, Repr

/-- The envelope that a datagram or frame arrives in at a port, R357. -/
structure Envelope where
  ethertype : Nat := 0x0800
  vid : Option Nat := none
  v4 : Bool := true
  ipOptions : Bool := false
  fragment : Bool := false
  checksum : Nat := 0
  udp : Nat := 39520
  addr : Nat := 0
  toUs : Bool := true
  length : Nat := 0
  deriving DecidableEq, Repr

/-- A stream frame, Table 10.3. `crcOk` and `lenOk` are what its CRC-32C and the datagram length give; `ue` marks
samples that lie in a retention word read with an uncorrectable error (R375). -/
structure StreamFrame where
  env : Envelope := {}
  magic : Nat := 0x5354524D
  ver : Nat := 1
  flags : Nat := 0
  streamId : Nat := 0
  sidx : Nat := 0
  fmt : Nat := 0x10
  reserved : Nat := 0
  samples : List Int := []
  count : Nat := 0
  seq : Nat := 0
  tstamp : Nat := 0
  crcOk : Bool := true
  lenOk : Bool := true
  ue : Bool := false
  deriving DecidableEq, Repr

/-- One ASDU of a sampled-values frame, Table 10.4: per dataset element its value and its quality word. -/
structure Asdu where
  svid : List Byte := []
  confRev : Nat := 0
  smpCnt : Nat := 0
  smpRate : Option Nat := none
  elements : List (Int × BitVec 32) := []
  deriving DecidableEq, Repr

/-- A sampled-values frame. -/
structure SvFrame where
  env : Envelope := { ethertype := 0x88BA }
  dmac : Nat := 0
  appid : Nat := 0x4000
  simulate : Bool := false
  security : Bool := false
  asdus : List Asdu := []
  deriving DecidableEq, Repr

/-! ## Pack frames, Tables 9.4 to 9.8 -/

/-- A pack frame header, Table 9.4, as it arrives on a port; `poison` says that the CRC was sent as for poisoned data
(Table 12.2). -/
structure PackHdr where
  ver : Nat := 1
  src : Nat := 0
  dst : Nat := 0
  len : Nat := 0
  lseq : Nat := 0
  ack : Nat := 0
  ctx : Nat := 0
  addr : Nat := 0
  last : Bool := true
  hops : Nat := 0
  poison : Bool := false
  deriving DecidableEq, Repr

/-- An exchange header of a class 6 message, R322. -/
structure ExHdr where
  epoch : Nat := 0
  pass : Nat := 0
  layer : Nat := 0
  deriving DecidableEq, Repr

/-- The state that a HANDOVER message carries, Table 9.8. -/
structure HandoverMsg where
  period : Nat := 0
  cover : Nat := 0
  ripos : Nat := 0
  catchUp : Bool := false
  carried : Bool := true
  cup : Nat := 0
  state : List Byte := []
  rules : List (Bool × Nat × Nat) := []
  scales : List (Int × Nat × Nat) := []
  poisoned : Bool := false
  deriving DecidableEq, Repr

/-- One unit's entry of a SNAPSHOT message. -/
structure UnitStat where
  unit : Nat
  clips : Nat := 0
  total : Nat := 0
  peak : Nat := 0
  ovf : Bool := false
  deriving DecidableEq, Repr

/-- One unit's entry of a SCALE_SET message. -/
structure UnitScale where
  unit : Nat
  exp : Int := 0
  downrun : Nat := 0
  satrun : Nat := 0
  deriving DecidableEq, Repr

/-- The payload of a pack frame or the contents of a whole exchange message. -/
inductive PackBody where
  | idle
  | hello (packId pos size port epoch imageId level : Nat)
  | nak (expected : Nat)
  | credit (credits : List Nat)
  | write (data : List Byte)
  | signal (id delta : Nat) (fenced : Bool) (wsent : Nat)
  | writeDone (n : Nat)
  | token (sidx flagCode : Nat) (bytes : List Byte)
  | tokenAck (sidx : Nat)
  | memberHb (epoch pos flags : Nat) (ports : List Nat) (answer : Nat) (held : Option Nat) (rsent : Nat)
  | leadHb (epoch lead fill source : Nat) (standby : Option Nat) (live : Nat) (linkMap : List Nat) (size run : Nat)
      (issued : List Nat)
  | leadClaim (epoch pos : Nat)
  | release (id value : Nat)
  | advisory (pos : Nat) (outputs : BitVec 4) (aseq sidx : Nat)
  | passStart (pass epoch first last p0 n : Nat) (both : Bool)
  | passDone (pass pos status tokens rseq : Nat)
  | swapReady (imageId pos : Nat)
  | swapAt (imageId period : Nat)
  | swapCommit (imageId period : Nat)
  | tally (pos : Nat) (entries : List (Nat × Nat × Nat))
  | handoverPrep (period sidx from_ to_ : Nat) (isAck : Bool)
  | scanPrefix (ex : ExHdr) (fromSlot : Nat) (hole : Bool) (pairs : List (F32 × F32))
  | scanSuffix (ex : ExHdr) (fromSlot : Nat) (hole : Bool) (pairs : List (F32 × F32))
  | scanColumn (ex : ExHdr) (fromSlot : Nat) (hole : Bool) (pairs : List (F32 × F32))
  | halo (ex : ExHdr) (fromSlot : Nat) (bytes : List Byte)
  | handover (ex : ExHdr) (msg : HandoverMsg)
  | snapshot (ex : ExHdr) (units : List UnitStat)
  | scaleSet (ex : ExHdr) (units : List UnitScale)
  | result (ex : ExHdr) (rseq : Nat) (rec : ResultRec)
  | resend (ex : ExHdr) (type first last : Nat)
  deriving DecidableEq, Repr

/-- The class of a frame by what it carries, Tables 9.5 and 9.6. -/
def PackBody.cls : PackBody → Nat
  | .idle | .hello .. | .nak _ | .credit _ => 0
  | .write _ => 1
  | .signal .. => 2
  | .writeDone _ => 3
  | .token .. | .tokenAck _ => 4
  | .memberHb .. | .leadHb .. | .leadClaim .. | .release .. | .advisory .. | .passStart .. | .passDone ..
  | .swapReady .. | .swapAt .. | .swapCommit .. | .tally .. | .handoverPrep .. => 5
  | .scanPrefix .. | .scanSuffix .. | .scanColumn .. | .halo .. | .handover .. | .snapshot .. | .scaleSet ..
  | .result .. | .resend .. => 6

/-- The type of a frame within its class, Table 9.5 (a token record goes as TOKEN, its further bytes as TOKEN_CONT). -/
def PackBody.type : PackBody → Nat
  | .idle => 1 | .hello .. => 2 | .nak _ => 3 | .credit _ => 4
  | .write _ => 1 | .signal .. => 1 | .writeDone _ => 1 | .token .. => 1 | .tokenAck _ => 3
  | .memberHb .. => 1 | .leadHb .. => 2 | .leadClaim .. => 3 | .release .. => 4 | .advisory .. => 5
  | .passStart .. => 6 | .passDone .. => 7 | .swapReady .. => 8 | .swapAt .. => 9 | .swapCommit .. => 10
  | .tally .. => 11 | .handoverPrep .. => 12
  | .scanPrefix .. => 1 | .scanSuffix .. => 2 | .scanColumn .. => 3 | .halo .. => 4 | .handover .. => 5
  | .snapshot .. => 6 | .scaleSet .. => 7 | .result .. => 8 | .resend .. => 9

/-! ## What hardware finds while a step runs -/

/-- The two feeds, R512. -/
inductive FeedId where
  | main | backup
  deriving DecidableEq, Repr

/-- The power domains of Table 2.6. -/
inductive Dom where
  | coreGroup (g : Nat)
  | clusterCommon (c : Nat)
  | chargePump (s : Nat)
  | shepherd
  | memCtl (i : Nat)
  | packPorts | streamIngress | commandPorts | storeCtl | crypto | baseSram | alwaysOn
  deriving DecidableEq, Repr

/-- The PLLs of Table 2.5. -/
inductive Pll where
  | arith (s : Nat)
  | network (s : Nat)
  | baseNet | shepherd
  | phy (i : Nat)
  deriving DecidableEq, Repr

/-- The number of a base-die PLL: 0 network, 1 Shepherd, 2 to 5 the PHYs of channel groups 0 to 3. -/
def Pll.base? : Pll → Option Nat
  | .baseNet => some 0
  | .shepherd => some 1
  | .phy i => if i < 4 then some (2 + i) else none
  | _ => none

/-- What BUDGET_CLOCK_STEP measures: the module's input power and what the package takes of it, 0.1 W, and the draw estimates
that the energy meters give for contexts (R303, R305). -/
structure PowerReading where
  draw : Nat := 0
  pkg : Nat := 0
  estimates : List (Nat × Nat) := []
  deriving DecidableEq, Repr

/-- A VECTOR_OP: the thread that issues it, and whether its values belong to a token in a gap (R131). -/
structure VectorIssue where
  thread : Nat := 0
  gap : Bool := false
  deriving DecidableEq, Repr

/-- Where a descriptor starts: the channel, and whether its word in the descriptor RAM decoded as uncorrectable (R224, R233). -/
structure ChannelPick where
  channel : Nat := 0
  bad : Bool := false
  deriving DecidableEq, Repr

/-- A firmware container that Kennel received: its bytes, and the verdicts on what they hold (R493, R567). -/
structure FwReceived where
  bytes : List Byte := []
  fw : Firmware := {}
  deriving DecidableEq, Repr

/-- What a digital level read of a plane finds: the conductances of the cells that have moved since they were last written
or read, by `272 * row + column`, 0.001 % of the window above G_min; and, where a boot check waited for its temperature, the
drift measure that the reference reading taken with it gives (R169, R175, R499). -/
structure LevelRead where
  found : Tab Int := []
  drift : Option Nat := none
  deriving DecidableEq, Repr

/-- What the start-up steps of Table 14.1 find in the hardware and in the store. -/
structure BootFacts where
  mainMv : Nat := 48000
  backupMv : Nat := 0
  holdupMj : Nat := 4920
  tcxoOk : Bool := true
  bootPllsOk : Bool := true
  copy0Ok : Bool := true
  copy1Ok : Bool := true
  retainOk : Bool := true
  gaspCrcOk : Bool := true
  bankOk : List Bool := [true, true]
  /-- Signature and array codes of the active image: at a cold start found at step 7, at a warm restart after Ready (R491, R496). -/
  imageSigOk : Bool := true
  codesOk : Bool := true
  otherOk : Bool := true
  /-- Drift measure found by the reference reading of a physical plane, 0.001 % of the window (R169). -/
  drift : Tab Nat := []
  /-- Cells that have moved, by physical plane number: what the array check and the blank check find (R498). -/
  reads : List (Nat × LevelRead) := []
  deriving DecidableEq, Repr

/-- The outcome of decoding a beat or a word, Table 12.1 (the SRAM classes are 0, 1 corrected, 3 uncorrectable,
4 poison pattern). -/
structure EccFinding where
  space : Space
  addr : Nat
  cls : Nat
  device : Nat := 0
  deriving DecidableEq, Repr

/-- What a plane's final verify finds: cells that moved during the relax wait, the cells that each further fine pulse moved
with the conductances they then have, and what is measured of the plane: default corrections and reference levels by row
group (R161, R172). -/
structure VerifyFacts where
  found : Tab Int := []
  pulses : List (Tab Int) := []
  gains : List F16 := []
  offs : List F16 := []
  levels : List F32 := []
  deriving DecidableEq, Repr

/-- What pass 1 of a pack member leaves for its share, by layer (R341): the decays of each token in order and the final state,
both by channel and state index; states after token R - 1; final tails and caches. -/
structure Pass1Facts where
  decays : List (List (List F32)) := []
  finals : List (List F32) := []
  marks : List (List F32) := []
  tails : List (List Byte) := []
  poisoned : Bool := false
  deriving DecidableEq, Repr

/-- What a replay leaves, by layer (R345, R346): the decays of each token of its span and its last local state, from a zero
state; tails and caches; and the head sections of the records of the span, by their place among the slot's records. -/
structure ReplayFacts where
  decays : List (List (List F32)) := []
  finals : List (List F32) := []
  tails : List (List Byte) := []
  heads : List (Nat × List HeadSection) := []
  poisoned : Bool := false
  deriving DecidableEq, Repr

/-- The features of one input at one token, where the image's feature map is not the raw one. -/
structure TokenFacts where
  ue : Bool := false
  deriving DecidableEq, Repr

end Sys2Proof.Machine
end

