-- ==== Sys2Proof/Syntax.lean ====
section
/-! DEFINITION. The commands of the block: one constructor per row of spec/opcode_table.json, in the table's order.
The table gives its rows no operands; those here are what a rule says the row acts on (a thread, a ring, a session, a
frame) and what hardware finds while the step runs (voltages, temperatures, converter codes, check outcomes).
A command of a session names the session only: its parameters lie in the packet that PROTECTED_RECORD queued. -/

namespace Sys2Proof

open Sys2Proof.Machine

/-- The commands of the Septesh SP7264 block, R1 to R573. -/
inductive Instr where
  /-- COLD_START, R489. -/
  | coldStart (b : BootFacts)
  /-- WARM_RESTART, R491. -/
  | warmRestart (b : BootFacts)
  /-- LOCKSTEP_MISMATCH, R58. -/
  | lockstepMismatch
  /-- SHEPHERD_WATCHDOG_EXPIRE, R490. -/
  | shepherdWatchdogExpire
  /-- FEED_OUT, R514. -/
  | feedOut (f : FeedId)
  /-- FEED_AVAILABLE, R514. -/
  | feedAvailable (f : FeedId)
  /-- MAIN_RETURN_QUALIFIED, R517. -/
  | mainReturnQualified
  /-- LAST_GASP_END, R522. -/
  | lastGaspEnd
  /-- HOLDUP_MEASURE, R520. -/
  | holdupMeasure (mj : Nat)
  /-- CONVERTER_FAULT, R523. -/
  | converterFault
  /-- TCXO_FAIL, R525. -/
  | tcxoFail
  /-- PLL_LOCK, R64. -/
  | pllLock (p : Pll)
  /-- PLL_LOCK_TIMEOUT, R526. -/
  | pllLockTimeout (p : Pll)
  /-- THERMAL_SAMPLE, R529. -/
  | thermalSample (temps : List Int)
  /-- THROTTLE_STEP_DOWN, R530. -/
  | throttleStepDown (stack : Nat)
  /-- THROTTLE_STEP_UP, R530. -/
  | throttleStepUp (stack : Nat)
  /-- TRIP_RECOVERY, R531. -/
  | tripRecovery
  /-- BUDGET_CLOCK_STEP, R305. -/
  | budgetClockStep (reading : PowerReading)
  /-- REST_ENTER, R68. -/
  | restEnter
  /-- DOMAIN_POWER_UP_DONE, R72. -/
  | domainPowerUpDone (d : Dom) (crcOk : Bool)
  /-- DOMAIN_GATE, R67. -/
  | domainGate (d : Dom)
  /-- ENGINE_CLOCK_GATE, R51. -/
  | engineClockGate (engine : Nat)
  /-- PANEL_MATVEC, R92. -/
  | panelMatvec (thread : Nat) (dev : List (List Int))
  /-- DIGITAL_MATMUL, R147. -/
  | digitalMatmul (thread : Nat)
  /-- VECTOR_OP, R153. -/
  | vectorOp (issue : VectorIssue)
  /-- ROTATE, R125. -/
  | rotate (thread : Nat)
  /-- REQUANT, R128. -/
  | requant (thread : Nat) (gap : Bool)
  /-- SHUTTLE_SUBMIT, R223. -/
  | shuttleSubmit (thread : Nat)
  /-- SHUTTLE_SUBMIT_UNSTALL, R223. -/
  | shuttleSubmitUnstall (thread : Nat)
  /-- COUNTER_SIGNAL, R257. -/
  | counterSignal (thread : Nat)
  /-- COUNTER_WAIT, R258. -/
  | counterWait (thread : Nat)
  /-- FENCE, R268. -/
  | fence (thread : Nat)
  /-- BARRIER_ARRIVE, R272. -/
  | barrierArrive (thread : Nat)
  /-- UNIT_BUSY_STALL_END, R84. -/
  | unitBusyStallEnd (thread : Nat)
  /-- PLANE_FILE_LOAD_DONE, R83. -/
  | planeFileLoadDone (engine : Nat)
  /-- CODEBOOK_LOAD_DONE, R121. -/
  | codebookLoadDone (engine slot : Nat)
  /-- STEP_COMPLETE, R251. -/
  | stepComplete (thread : Nat) (tok : Option TokenOut)
  /-- READING_CLOSE, R98. -/
  | readingClose (engine plane group : Nat)
  /-- COUNTER_SIGNAL_APPLY, R260. -/
  | counterSignalApply (k : Nat)
  /-- BARRIER_RELEASE_RECEIPT, R272. -/
  | barrierReleaseReceipt (k : Nat)
  /-- WAITER_WAKE, R265. -/
  | waiterWake (thread : Nat)
  /-- COMPARE_REGISTRATION_RETRY, R266. -/
  | compareRegistrationRetry (k : Nat)
  /-- WATCHDOG_EXPIRE, R277. -/
  | watchdogExpire (ctx : Nat)
  /-- DESCRIPTOR_START, R224. -/
  | descriptorStart (ring : Nat) (pick : ChannelPick)
  /-- CHUNK_DONE, R224. -/
  | chunkDone (channel : Nat) (found : List EccFinding)
  /-- DESCRIPTOR_COMPLETE, R227. -/
  | descriptorComplete (channel : Nat)
  /-- PERIOD_RELEASE, R286. -/
  | periodRelease
  /-- MANDATORY_COMPLETION, R287. -/
  | mandatoryCompletion
  /-- ITERATION_RELEASE, R288. -/
  | iterationRelease (ctx : Nat)
  /-- INSPECT_PASS_START, R38. -/
  | inspectPassStart (ctx : Nat)
  /-- STREAM_FRAME, R365. -/
  | streamFrame (port : Nat) (f : StreamFrame)
  /-- SAMPLED_VALUES_FRAME, R367. -/
  | sampledValuesFrame (port : Nat) (f : SvFrame)
  /-- ARP_REQUEST, R358. -/
  | arpRequest (port addr : Nat)
  /-- NEIGHBOR_DISCOVERY, R358. -/
  | neighborDiscovery (port addr : Nat)
  /-- ECHO_REQUEST, R358. -/
  | echoRequest (port : Nat) (v6 : Bool) (addr : Nat) (data : List Byte)
  /-- SPILL_MOVE, R372. -/
  | spillMove (slot : Nat)
  /-- SILENT_TIMEOUT, R387. -/
  | silentTimeout (slot : Nat)
  /-- RATE_CHECK, R387. -/
  | rateCheck
  /-- TOKEN_FORM, R380. -/
  | tokenForm (facts : TokenFacts)
  /-- FILET_FUNCTION_RUN, R377. -/
  | filetFunctionRun (k : Nat)
  /-- HANDSHAKE_RECORD, R394. -/
  | handshakeRecord (port addr msg session hsid frag frags : Nat) (data : List Byte)
  /-- OPEN, R397. -/
  | openMsg (hsid : Nat) (chain : Chain)
  /-- CONFIRM, R398. -/
  | confirm (hsid : Nat) (sigOk : Bool)
  /-- HANDSHAKE_TIMEOUT, R401. -/
  | handshakeTimeout (hsid : Nat)
  /-- PROTECTED_RECORD, R395. -/
  | protectedRecord (port addr session recno : Nat) (tagOk : Bool) (payload : List Byte)
  /-- SESSION_IDLE_TIMEOUT, R401. -/
  | sessionIdleTimeout (sid : Nat)
  /-- NOTIFY_RESEND, R421. -/
  | notifyResend (sid : Nat)
  /-- PRP_SUPERVISION, R393. -/
  | prpSupervision
  /-- KEEPALIVE, R401. -/
  | keepalive (sid : Nat)
  /-- CLOSE, R401. -/
  | close (sid : Nat)
  /-- NOTIFY_ACK, R421. -/
  | notifyAck (sid : Nat)
  /-- BULK, R407. -/
  | bulk (sid : Nat)
  /-- SESSION_INFO, R408. -/
  | sessionInfo (sid : Nat)
  /-- MODULE_INFO, R4. -/
  | moduleInfo (sid : Nat)
  /-- STATUS, R408. -/
  | status (sid : Nat)
  /-- UNIT_READ, R408. -/
  | unitRead (sid : Nat)
  /-- THERMAL, R529. -/
  | thermal (sid : Nat)
  /-- FPCOUNT, R152. -/
  | fpcount (sid : Nat)
  /-- CLIP_READ, R135. -/
  | clipRead (sid : Nat)
  /-- IMG_BEGIN, R467. -/
  | imgBegin (sid : Nat)
  /-- IMG_END, R205. -/
  | imgEnd (sid : Nat)
  /-- IMAGE_VALIDATION_DONE, R205. -/
  | imageValidationDone (img : Image)
  /-- IMG_ABORT, R408. -/
  | imgAbort (sid : Nat)
  /-- IMG_INFO, R408. -/
  | imgInfo (sid : Nat)
  /-- SWAP, R191. -/
  | swap (sid : Nat)
  /-- SWAP_STEP4_DONE, R193. -/
  | swapStep4Done
  /-- SWAP_BOUNDARY, R194. -/
  | swapBoundary
  /-- SWAP_STATUS, R408. -/
  | swapStatus (sid : Nat)
  /-- MEMBER_READ, R408. -/
  | memberRead (sid : Nat)
  /-- SLOT_SET, R360. -/
  | slotSet (sid : Nat)
  /-- SLOT_READ, R361. -/
  | slotRead (sid : Nat)
  /-- SLOT_FREE, R360. -/
  | slotFree (sid : Nat)
  /-- PORT_SET, R358. -/
  | portSet (sid : Nat)
  /-- PORT_READ, R408. -/
  | portRead (sid : Nat)
  /-- STREAM_STATUS, R388. -/
  | streamStatus (sid : Nat)
  /-- STREAM_CLEAR, R389. -/
  | streamClear (sid : Nat)
  /-- CTX_START, R297. -/
  | ctxStart (sid : Nat)
  /-- CTX_STOP, R297. -/
  | ctxStop (sid : Nat)
  /-- CTX_RESET, R297. -/
  | ctxReset (sid : Nat)
  /-- CTX_READ, R408. -/
  | ctxRead (sid : Nat)
  /-- CTX_SET, R426. -/
  | ctxSet (sid : Nat)
  /-- QUOTA_SET, R300. -/
  | quotaSet (sid : Nat)
  /-- QUOTA_READ, R408. -/
  | quotaRead (sid : Nat)
  /-- RUN, R409. -/
  | run (sid : Nat)
  /-- RUN_CANCEL, R410. -/
  | runCancel (sid : Nat)
  /-- RESULT_READ, R415. -/
  | resultRead (sid : Nat)
  /-- RESULT_SUB, R420. -/
  | resultSub (sid : Nat)
  /-- RESULT_UNSUB, R408. -/
  | resultUnsub (sid : Nat)
  /-- ADVISORY_READ, R548. -/
  | advisoryRead (sid : Nat)
  /-- EVENT_SUB, R418. -/
  | eventSub (sid : Nat)
  /-- EVENT_UNSUB, R408. -/
  | eventUnsub (sid : Nat)
  /-- CTR_SIGNAL, R274. -/
  | ctrSignal (sid : Nat)
  /-- CTR_READ, R281. -/
  | ctrRead (sid : Nat)
  /-- CTR_SUB, R274. -/
  | ctrSub (sid : Nat)
  /-- CTR_UNSUB, R408. -/
  | ctrUnsub (sid : Nat)
  /-- BIND, R264. -/
  | bind (sid : Nat)
  /-- CTR_CLEAR, R281. -/
  | ctrClear (sid : Nat)
  /-- CTR_LIST, R408. -/
  | ctrList (sid : Nat)
  /-- BUDGET_SET, R304. -/
  | budgetSet (sid : Nat)
  /-- POWER_READ, R408. -/
  | powerRead (sid : Nat)
  /-- PACK_CONFIG, R311. -/
  | packConfig (sid : Nat)
  /-- PACK_READ, R315. -/
  | packRead (sid : Nat)
  /-- TROUBLE_READ, R452. -/
  | troubleRead (sid : Nat)
  /-- TROUBLE_CLEAR, R452. -/
  | troubleClear (sid : Nat)
  /-- LOG_READ, R461. -/
  | logRead (sid : Nat)
  /-- UPKEEP_READ, R408. -/
  | upkeepRead (sid : Nat)
  /-- PLANE_READ, R408. -/
  | planeRead (sid : Nat)
  /-- REPLAN, R182. -/
  | replan (sid : Nat)
  /-- SWEEP, R174. -/
  | sweep (sid : Nat)
  /-- RETIRE, R448. -/
  | retire (sid : Nat)
  /-- CHECKPOINT, R507. -/
  | checkpoint (sid : Nat)
  /-- CHECKPOINT_STORED, R507. -/
  | checkpointStored (stored : Bool)
  /-- CONFIG_CHECKPOINT_TIMER, R507. -/
  | configCheckpointTimer
  /-- ATTEST, R506. -/
  | attest (sid : Nat)
  /-- IDENTITY_READ, R501. -/
  | identityRead (sid : Nat)
  /-- ANCHOR_READ, R408. -/
  | anchorRead (sid : Nat)
  /-- ANCHOR_ADD, R502. -/
  | anchorAdd (sid : Nat)
  /-- ANCHOR_REMOVE, R503. -/
  | anchorRemove (sid : Nat)
  /-- DENY_ADD, R503. -/
  | denyAdd (sid : Nat)
  /-- FW_BEGIN, R493. -/
  | fwBegin (sid : Nat)
  /-- FW_END, R493. -/
  | fwEnd (sid : Nat)
  /-- FIRMWARE_VALIDATION_DONE, R493. -/
  | firmwareValidationDone (fw : Firmware)
  /-- FW_ACTIVATE, R493. -/
  | fwActivate (sid : Nat)
  /-- RESTART, R507. -/
  | restart (sid : Nat)
  /-- OPTION_READ, R408. -/
  | optionRead (sid : Nat)
  /-- OPTION_SET, R485. -/
  | optionSet (sid : Nat)
  /-- OPTION_WRITE_DONE, R486. -/
  | optionWriteDone (pulses : Nat)
  /-- SERVICE_PORT, R556. -/
  | servicePort (sid : Nat)
  /-- LINK_TRAINED, R318. -/
  | linkTrained (port : Nat)
  /-- HELLO, R318. -/
  | helloFrame (port : Nat) (h : PackHdr) (packId pos size peer epoch imageId level : Nat)
  /-- IDLE, R320. -/
  | idleFrame (port : Nat) (h : PackHdr)
  /-- IDLE_SEND, R320. -/
  | idleSend (port : Nat)
  /-- NAK, R326. -/
  | nakFrame (port : Nat) (h : PackHdr) (expected : Nat)
  /-- CREDIT, R325. -/
  | creditFrame (port : Nat) (h : PackHdr) (credits : List Nat)
  /-- CREDIT_RETURN, R325. -/
  | creditReturn (port : Nat)
  /-- LINK_CRC_TIMEOUT, R326. -/
  | linkCrcTimeout (port : Nat)
  /-- WRITE, R328. -/
  | writeFrame (port : Nat) (h : PackHdr) (data : List Byte)
  /-- WRITE_DONE, R328. -/
  | writeDone (port : Nat) (h : PackHdr) (n : Nat)
  /-- REMOTE_WRITE_TIMEOUT, R328. -/
  | remoteWriteTimeout (channel : Nat)
  /-- SIGNAL, R331. -/
  | signalFrame (port : Nat) (h : PackHdr) (id delta : Nat) (fenced : Bool) (wsent : Nat)
  /-- TOKEN, R333. -/
  | tokenFrame (port : Nat) (h : PackHdr) (sidx flagCode : Nat) (bytes : List Byte)
  /-- TOKEN_ACK, R333. -/
  | tokenAck (port : Nat) (h : PackHdr) (sidx : Nat)
  /-- MEMBER_HB, R313. -/
  | memberHb (port : Nat) (h : PackHdr) (epoch pos flags : Nat) (ports : List Nat) (answer : Nat) (held : Option Nat) (rsent : Nat)
  /-- MEMBER_HB_SEND, R313. -/
  | memberHbSend
  /-- MEMBER_TIMEOUT, R354. -/
  | memberTimeout (pos : Nat)
  /-- LEAD_HB, R312. -/
  | leadHb (port : Nat) (h : PackHdr) (epoch lead fill source : Nat) (standby : Option Nat) (live : Nat) (linkMap : List Nat) (size run : Nat) (issued : List Nat)
  /-- LEAD_HB_SEND, R312. -/
  | leadHbSend
  /-- LEAD_LOSS_TIMEOUT, R313. -/
  | leadLossTimeout
  /-- CLAIM_DELAY_EXPIRE, R313. -/
  | claimDelayExpire
  /-- LEAD_CLAIM, R313. -/
  | leadClaim (port : Nat) (h : PackHdr) (epoch pos : Nat)
  /-- CLAIM_QUORUM_TIMEOUT, R313. -/
  | claimQuorumTimeout
  /-- CLAIM_REPEAT, R313. -/
  | claimRepeat
  /-- DETACH_TIMEOUT, R314. -/
  | detachTimeout
  /-- RELEASE, R349. -/
  | releaseFrame (port : Nat) (h : PackHdr) (id value : Nat)
  /-- ADVISORY, R338. -/
  | advisoryFrame (port : Nat) (h : PackHdr) (pos : Nat) (outputs : BitVec 4) (aseq sidx : Nat)
  /-- PASS_START, R339. -/
  | passStart (port : Nat) (h : PackHdr) (pass epoch first last p0 n : Nat) (both : Bool)
  /-- PASS1_COMPLETE, R341. -/
  | pass1Complete (slot : Nat) (f : Pass1Facts)
  /-- PASS_DONE, R339. -/
  | passDone (port : Nat) (h : PackHdr) (pass pos status tokens rseq : Nat)
  /-- SCAN_PREFIX, R343. -/
  | scanPrefix (port : Nat) (h : PackHdr) (ex : ExHdr) (fromSlot : Nat) (hole : Bool) (pairs : List (F32 × F32))
  /-- SCAN_SUFFIX, R343. -/
  | scanSuffix (port : Nat) (h : PackHdr) (ex : ExHdr) (fromSlot : Nat) (hole : Bool) (pairs : List (F32 × F32))
  /-- SCAN_COLUMN, R343. -/
  | scanColumn (port : Nat) (h : PackHdr) (ex : ExHdr) (fromSlot : Nat) (hole : Bool) (pairs : List (F32 × F32))
  /-- HALO, R344. -/
  | haloMsg (port : Nat) (h : PackHdr) (ex : ExHdr) (fromSlot : Nat) (bytes : List Byte)
  /-- REPLAY_COMPLETE, R346. -/
  | replayComplete (slot : Nat) (f : ReplayFacts)
  /-- RESEND, R323. -/
  | resendMsg (port : Nat) (h : PackHdr) (ex : ExHdr) (type first last : Nat)
  /-- EXCHANGE_STALL_TIMEOUT, R323. -/
  | exchangeStallTimeout (k : Nat)
  /-- SNAPSHOT, R352. -/
  | snapshotMsg (port : Nat) (h : PackHdr) (ex : ExHdr) (units : List UnitStat)
  /-- SCALE_SET, R352. -/
  | scaleSet (port : Nat) (h : PackHdr) (ex : ExHdr) (units : List UnitScale)
  /-- RESULT, R415. -/
  | resultMsg (port : Nat) (h : PackHdr) (ex : ExHdr) (rseq : Nat) (r : ResultRec)
  /-- HANDOVER_PREP, R335. -/
  | handoverPrep (port : Nat) (h : PackHdr) (period sidx fromPos toPos : Nat) (isAck : Bool)
  /-- HANDOVER, R335. -/
  | handoverMsg (port : Nat) (h : PackHdr) (ex : ExHdr) (m : HandoverMsg)
  /-- SWAP_READY, R353. -/
  | swapReady (port : Nat) (h : PackHdr) (imageId pos : Nat)
  /-- SWAP_AT, R353. -/
  | swapAt (port : Nat) (h : PackHdr) (imageId period : Nat)
  /-- SWAP_COMMIT, R353. -/
  | swapCommit (port : Nat) (h : PackHdr) (imageId period : Nat)
  /-- TALLY, R350. -/
  | tallyFrame (port : Nat) (h : PackHdr) (pos : Nat) (entries : List (Nat × Nat × Nat))
  /-- UPKEEP_START, R186. -/
  | upkeepStart (engine : Nat)
  /-- AWAY_COPY_DONE, R183. -/
  | awayCopyDone (engine : Nat)
  /-- ERASE_DONE, R162. -/
  | eraseDone (engine : Nat) (moved : List (Tab Int)) (pulses : Nat)
  /-- PROGRAM_PASS_DONE, R161. -/
  | programPassDone (engine : Nat) (pulses : List (Tab Int))
  /-- RELAX_WAIT_EXPIRE, R161. -/
  | relaxWaitExpire (engine : Nat)
  /-- FINAL_VERIFY_DONE, R172. -/
  | finalVerifyDone (engine : Nat) (f : VerifyFacts)
  /-- DIGITAL_LEVEL_READ_DONE, R175. -/
  | digitalLevelReadDone (engine : Nat) (r : LevelRead)
  /-- SWEEP_DUE, R174. -/
  | sweepDue (engine plane : Nat)
  /-- PANEL_RETURN, R185. -/
  | panelReturn (engine : Nat)
  /-- UPKEEP_TABLE_WRITE, R188. -/
  | upkeepTableWrite
  /-- PATROL_SCRUB_READ, R440. -/
  | patrolScrubRead (f : EccFinding)
  /-- SCRUB_PASS_END, R440. -/
  | scrubPassEnd
  /-- SCRUB_DEADLINE, R440. -/
  | scrubDeadline
  /-- WEIGHT_REFETCH_DONE, R445. -/
  | weightRefetchDone (goldenOk : Bool)
  /-- STORE_PROGRAM_DONE, R470. -/
  | storeProgramDone (block : Nat) (verified : Bool)
  /-- STORE_ERASE_DONE, R478. -/
  | storeEraseDone (unit phys : Nat) (verified : Bool) (pulses : Nat)
  /-- STORE_READ, R468. -/
  | storeRead (block bitErrors : Nat)
  /-- STORE_PATROL_READ, R482. -/
  | storePatrolRead (block bitErrors : Nat)
  /-- LOG_PAGE_WRITE, R458. -/
  | logPageWrite
  /-- LOG_RATE_SECOND_END, R460. -/
  | logRateSecondEnd
  /-- TROUBLE_LEVEL_REASSERT, R452. -/
  | troubleLevelReassert
  /-- OUTPUT_SENSE_MISMATCH, R544. -/
  | outputSenseMismatch (n : Nat)
  /-- OUTPUT_OVERCURRENT, R545. -/
  | outputOvercurrent (n : Nat)
  /-- HEALTH_SENSE_MISMATCH, R548. -/
  | healthSenseMismatch
  /-- INPUT_SAMPLE, R546. -/
  | inputSample (mv : List Int)
  /-- KENNEL_HELP, R564. -/
  | kennelHelp
  /-- KENNEL_INFO, R564. -/
  | kennelInfo
  /-- KENNEL_UNLOCK, R559. -/
  | kennelUnlock
  /-- KENNEL_CHALLENGE_RESPONSE, R559. -/
  | kennelChallengeResponse (chain : Chain) (sigOk : Bool)
  /-- KENNEL_CHALLENGE_EXPIRE, R559. -/
  | kennelChallengeExpire
  /-- KENNEL_LOCKOUT_EXPIRE, R559. -/
  | kennelLockoutExpire
  /-- KENNEL_LOCK, R558. -/
  | kennelLock
  /-- KENNEL_IDLE_TIMEOUT, R558. -/
  | kennelIdleTimeout
  /-- KENNEL_STATUS, R564. -/
  | kennelStatus
  /-- KENNEL_LOG, R564. -/
  | kennelLog (first count : Option Nat)
  /-- KENNEL_CTX, R564. -/
  | kennelCtx (n : Option Nat)
  /-- KENNEL_WAITS, R564. -/
  | kennelWaits (n : Nat)
  /-- KENNEL_CTR, R564. -/
  | kennelCtr (n id : Nat)
  /-- KENNEL_CTRP, R564. -/
  | kennelCtrp (phys : Nat)
  /-- KENNEL_THREAD, R564. -/
  | kennelThread (loc : BitVec 32)
  /-- KENNEL_RING, R564. -/
  | kennelRing (loc : BitVec 32)
  /-- KENNEL_PLANES, R564. -/
  | kennelPlanes (loc : BitVec 32)
  /-- KENNEL_WEAR, R564. -/
  | kennelWear (stack : Option Nat)
  /-- KENNEL_PACK, R564. -/
  | kennelPack
  /-- KENNEL_STORE, R564. -/
  | kennelStore
  /-- KENNEL_STREAM, R564. -/
  | kennelStream (slot : Nat)
  /-- KENNEL_UPKEEP, R564. -/
  | kennelUpkeep
  /-- KENNEL_RAW, R565. -/
  | kennelRaw (block arg : Nat)
  /-- KENNEL_CTX_START, R563. -/
  | kennelCtxStart (n : Nat)
  /-- KENNEL_CTX_STOP, R563. -/
  | kennelCtxStop (n : Nat)
  /-- KENNEL_CTX_RESET, R563. -/
  | kennelCtxReset (n : Nat)
  /-- KENNEL_SERVICE_ON, R557. -/
  | kennelServiceOn
  /-- KENNEL_SERVICE_OFF, R558. -/
  | kennelServiceOff
  /-- KENNEL_ANCHOR_LIST, R564. -/
  | kennelAnchorList
  /-- KENNEL_ANCHOR_ADD, R564. -/
  | kennelAnchorAdd (kind : Nat) (role : Option Nat) (cert : List Byte)
  /-- KENNEL_ANCHOR_REMOVE, R560. -/
  | kennelAnchorRemove (index : Nat)
  /-- KENNEL_PACK_SET, R564. -/
  | kennelPackSet (packId size pos source : Nat) (standby : Option Nat)
  /-- KENNEL_PORT_SET, R564. -/
  | kennelPortSet (port : Nat) (args : List Tlv)
  /-- KENNEL_OPTION_SET, R564. -/
  | kennelOptionSet (off : Nat) (value : List Byte)
  /-- KENNEL_TROUBLE_CLEAR, R564. -/
  | kennelTroubleClear (word : Nat) (mask : BitVec 32)
  /-- KENNEL_RETIRE, R564. -/
  | kennelRetire (kind addr : Nat)
  /-- KENNEL_RESTART, R564. -/
  | kennelRestart (kind : Nat)
  /-- KENNEL_LOCK_SET, R504. -/
  | kennelLockSet (confirmed : Bool)
  /-- KENNEL_BOOTLOG, R567. -/
  | kennelBootlog
  /-- KENNEL_FWLOAD, R567. -/
  | kennelFwload (bank : Nat) (received : FwReceived)
  /-- KENNEL_BOOTBANK, R567. -/
  | kennelBootbank (bank : Nat)
  /-- KENNEL_BOOTFALL, R567. -/
  | kennelBootfall (v : Nat)
  /-- FEED_EXCURSION, R514. -/
  | feedExcursion (f : FeedId) (mv : Int)
  /-- PACK_FRAME_CRC_FAIL, R326. -/
  | packFrameCrcFail (port : Nat)
  /-- KENNEL_UNKNOWN_COMMAND, R564. -/
  | kennelUnknownCommand
  /-- SERVICE_LINE_CHARACTER, R561. -/
  | serviceLineCharacter (n : Nat)
  deriving DecidableEq, Repr

end Sys2Proof
end

