-- ==== Sys2Proof/Config.lean ====
section
/-! DEFINITION. The free values: what the spec leaves to the implementation or leaves unstated, each an opaque constant
with no body, so that a claim holds whatever it is. -/

namespace Sys2Proof

/-- CHUNK of an image or firmware transfer (R407, Table 11.8 give no value). Assumption 4. -/
opaque Config.chunkSize : Nat

/-- Random numbers drawn by the crypto unit: nonces, session salts, challenges (R397, R559). Assumption 5. -/
opaque Config.random : Nat → Nat

/-- SHA3-256 of bytes, as a number (R397, R505): the hash is defined outside the spec. Assumption 6. -/
opaque Config.sha3 : List Byte → Nat

/-- An ML-DSA-65 signature by the identity key over a digest (R506). Assumption 6. -/
opaque Config.sign : Nat → List Byte

/-- The ML-KEM-768 ciphertext that answers an encapsulation key (R397). Assumption 6. -/
opaque Config.kemCipher : List Byte → Nat → List Byte

/-- The ML-KEM-768 shared secret of an encapsulation key and the randomness of its ciphertext (R398). Assumption 6. -/
opaque Config.kemSecret : List Byte → Nat → List Byte

/-- AES-256-GCM: the ciphertext and tag of a text under a key, a nonce and additional data (R395). Assumption 6. -/
opaque Config.gcm : List Byte → List Byte → List Byte → List Byte → List Byte

/-- The identity certificate chain of sectors 24 to 27 (R501). Assumption 6. -/
opaque Config.identityChain : List Byte

/-- The result that a vector compare writes (R153 names the operation, no rule gives its result). Assumption 7. -/
opaque Config.compareResult : F32 → F32 → F32

/-- The choice that the minimum (false) or maximum (true) makes where one operand is a NaN (true: the NaN) or both are zeros
(true: the first): R153 names the operation, no rule gives these results. Assumption 13. -/
opaque Config.minMax : Bool → F32 → F32 → Bool

/-- The integer that a panel forms from a corrected sum that is not finite (R90, R95 give none). Assumption 14. -/
opaque Config.nonFinite : F32 → Int

/-- Error of an approximate vector operation, in units in the last place (R153 bounds it). Assumption 8. -/
opaque Config.ulpError : Nat → F32 → Nat

/-- Feature maps other than raw samples, in the image's own fixed-point formats (Table 10.5). Assumption 9. -/
opaque Config.feature : Machine.FeatureMap → List Int → List Int

/-- Energy of a detector's band over a window (R386 does not define the band). Assumption 9. -/
opaque Config.bandEnergy : Nat → List Int → Int

/-- The measurement of the boot code ROM, measurement 0 of Table 14.4: the ROM's contents are not in the spec. Assumption 10. -/
opaque Config.romDigest : Nat

/-- The CODE of log records that Table 12.7 and the bit rule give none: 0 the fallback of R494, 1 no bank passes (R495), 2 a
remote write outside the buffers (R328), 3 to 6 Kennel's unlock, failed response, lockout and other commands (R559, R563).
Assumption 31. -/
opaque Config.bootCode : Nat → Nat

/-- Map block and page of the newest full copy of the store's map, as ARG of a map-root record holds them (Table 13.7): where
full copies lie is not in the spec. Assumption 32. -/
opaque Config.mapRoot : Nat → Nat

/-- Bank of its channel group, 0 to 15, in which a board-memory address lies (Table 12.3 names banks of 2 GiB, no rule gives
the address bits). Assumption 29. -/
opaque Config.bankOf : Nat → Nat

/-- Whether a reader sees what stood before a write that no fence of its writer has covered yet (R268, R269). Assumption 83. -/
opaque Config.stale : Nat → Bool

/-- Whether an interrupted program of an upper page destroys its lower page (R472 says that it can). Assumption 82. -/
opaque Config.pageLost : Nat → Bool

/-- Which of two writes in flight to one byte ends there (R229): true for the later chunk. Assumption 11. -/
opaque Config.laterWins : Nat → Bool

/-- The declared draw of upkeep work, 0.1 W (R303, R310 give no figure). Assumption 12. -/
opaque Config.upkeepDraw : Nat → Nat

/-- The draw that a power-up adds, 0.1 W (R71 gives no figure). Assumption 12. -/
opaque Config.powerUpDraw : Nat → Nat

end Sys2Proof
end

