-- ==== Sys2Proof/Machine/Numbers.lean ====
section
/-! DEFINITION. Arithmetic of 03_array_panels.md and 04_numbers.md: exact rationals, IEEE 754 rounding to binary32, FP16,
BF16 and FP8, integer rounding with ties to even and ties away, the functions the vector unit bounds in ULP. -/

namespace Sys2Proof.Machine

open Sys2Proof

/-! ## Exact rationals -/

/-- An exact rational `num / den`; `den` is positive in every use. -/
structure Q where
  num : Int
  den : Nat
  deriving DecidableEq, Repr

/-- An integer. -/
def qInt (i : Int) : Q := ⟨i, 1⟩
/-- Sum. -/
def qAdd (a b : Q) : Q := if a.den = b.den then ⟨a.num + b.num, a.den⟩ else ⟨a.num * b.den + b.num * a.den, a.den * b.den⟩
/-- Product. -/
def qMul (a b : Q) : Q := ⟨a.num * b.num, a.den * b.den⟩
/-- Negation. -/
def qNeg (a : Q) : Q := ⟨-a.num, a.den⟩
/-- Difference. -/
def qSub (a b : Q) : Q := qAdd a (qNeg b)
/-- Quotient, where `b` is not zero. -/
def qDiv (a b : Q) : Q := if b.num < 0 then ⟨-(a.num * b.den), a.den * b.num.natAbs⟩ else ⟨a.num * b.den, a.den * b.num.natAbs⟩
/-- `a < b`. -/
def qLt (a b : Q) : Bool := decide (a.num * b.den < b.num * a.den)
/-- `a * 2 ^ e`. -/
def qShift (a : Q) (e : Int) : Q := if e < 0 then ⟨a.num, a.den * 2 ^ e.natAbs⟩ else ⟨a.num * 2 ^ e.natAbs, a.den⟩

/-- Rounding of `n / d` to the nearest natural, ties to even. -/
def rneNat (n d : Nat) : Nat :=
  let q := n / d
  let r := 2 * (n % d)
  if r > d then q + 1 else if r = d then (if q % 2 = 1 then q + 1 else q) else q

/-- Nearest integer, ties to even (R95, R128). -/
def rne (a : Q) : Int := if a.num < 0 then -(rneNat a.num.natAbs a.den : Nat) else (rneNat a.num.natAbs a.den : Nat)

/-- Nearest integer, ties away from zero (R129). -/
def rna (a : Q) : Int :=
  let m := (2 * a.num.natAbs + a.den) / (2 * a.den)
  if a.num < 0 then -(m : Nat) else (m : Nat)

/-- Clamp to a range. -/
def clampInt (lo hi v : Int) : Int := if v < lo then lo else if hi < v then hi else v

/-! ## Floating point values -/

/-- A floating-point value: a sign with an exact magnitude, an infinity or a NaN. -/
inductive Fv where
  | fin (neg : Bool) (num den : Nat)
  | inf (neg : Bool)
  | nan (neg : Bool) (signaling : Bool)
  deriving DecidableEq, Repr

/-- `m * 2 ^ e` as numerator and denominator. -/
def scaled (neg : Bool) (m : Nat) (e : Int) : Fv := if e < 0 then .fin neg m (2 ^ e.natAbs) else .fin neg (m * 2 ^ e.natAbs) 1

/-- The value of an IEEE 754 pattern with `eb` exponent bits and `mb` mantissa bits. -/
def decodeF (eb mb w : Nat) : Fv :=
  let neg := w.testBit (eb + mb)
  let ex := bits w (eb + mb - 1) mb
  let man := w % 2 ^ mb
  let bias : Int := 2 ^ (eb - 1) - 1
  if ex = 2 ^ eb - 1 then (if man = 0 then .inf neg else .nan neg (!man.testBit (mb - 1)))
  else if ex = 0 then scaled neg man (1 - bias - mb)
  else scaled neg (man + 2 ^ mb) (ex - bias - mb)

/-- The exponent of a positive `n / d`: the largest `e` with `2 ^ e ≤ n / d`. -/
def expOf (n d : Nat) : Int :=
  let e : Int := (n.log2 : Int) - d.log2
  let ge : Bool := if e < 0 then decide (d ≤ n * 2 ^ e.natAbs) else decide (d * 2 ^ e.natAbs ≤ n)
  if ge then e else e - 1

/-- The pattern, without sign, of a positive magnitude rounded to nearest with ties to even; a magnitude that overflows
gives a pattern at or above that of infinity. -/
def roundMag (eb mb n d : Nat) : Nat :=
  if n = 0 then 0
  else
    let bias : Int := 2 ^ (eb - 1) - 1
    let e := max (expOf n d) (1 - bias)
    let q := e - mb
    let m := if q < 0 then rneNat (n * 2 ^ q.natAbs) d else rneNat n (d * 2 ^ q.natAbs)
    ((e + bias - 1) * 2 ^ mb + m).toNat

/-- The pattern of infinity. -/
def infPat (eb mb : Nat) : Nat := (2 ^ eb - 1) * 2 ^ mb

/-- A result with the exceptions that the core counts (R152). -/
structure FpR where
  v : F32
  inv : Bool := false
  ovf : Bool := false
  dz : Bool := false
  deriving DecidableEq, Repr

/-- The sign bit of binary32. -/
def sign32 (neg : Bool) : Nat := if neg then 2 ^ 31 else 0

/-- The value of a binary32 pattern. -/
def val32 (x : F32) : Fv := decodeF 8 23 x.toNat

/-- An exact magnitude rounded once to binary32 (R152). -/
def round32 (neg : Bool) (n d : Nat) : FpR :=
  let p := roundMag 8 23 n d
  if infPat 8 23 ≤ p then { v := BitVec.ofNat 32 (sign32 neg + infPat 8 23), ovf := true }
  else { v := BitVec.ofNat 32 (sign32 neg + p) }

/-- An exact rational rounded once to binary32; a zero is positive. -/
def q32 (a : Q) : FpR := round32 (decide (a.num < 0)) a.num.natAbs a.den

/-- The quiet NaN of R152. -/
def nan32 (neg : Bool) : F32 := if neg then 0xFFC00000#32 else 0x7FC00000#32
/-- An infinity. -/
def inf32 (neg : Bool) : F32 := if neg then 0xFF800000#32 else 0x7F800000#32
/-- A zero. -/
def zero32 (neg : Bool) : F32 := if neg then 0x80000000#32 else 0#32
/-- 1.0. -/
def one32 : F32 := 0x3F800000#32

/-- An invalid operation: the quiet NaN, counted. -/
def invalidR : FpR := { v := nan32 false, inv := true }

/-- The result of an operation with a NaN operand: a quiet NaN that keeps the first NaN's sign. -/
def nanOf (a b : Fv) : FpR :=
  match a, b with
  | .nan s q, .nan _ q' => { v := nan32 s, inv := q || q' }
  | .nan s q, _ => { v := nan32 s, inv := q }
  | _, .nan s q => { v := nan32 s, inv := q }
  | _, _ => { v := nan32 false }

/-- The value is a NaN. -/
def Fv.isNan : Fv → Bool
  | .nan _ _ => true
  | _ => false

/-- A finite value as a rational. -/
def Fv.q : Fv → Q
  | .fin s n d => ⟨if s then -(n : Int) else n, d⟩
  | _ => ⟨0, 1⟩

/-- The value is finite. -/
def Fv.isFin : Fv → Bool
  | .fin .. => true
  | _ => false

/-- The sign. -/
def Fv.neg : Fv → Bool
  | .fin s _ _ => s
  | .inf s => s
  | .nan s _ => s

/-- Opposite sign. -/
def Fv.opp : Fv → Fv
  | .fin s n d => .fin (!s) n d
  | .inf s => .inf (!s)
  | .nan s q => .nan s q

/-- A binary32 pattern is finite. -/
def finite32 (x : F32) : Bool := (val32 x).isFin

/-- The value of a binary32 pattern, 0 where it is not finite. -/
def q32of (x : F32) : Q := (val32 x).q

/-- Exact sum rounded by `rd`; an exact zero sum is positive unless both are negative. -/
def addV (rd : Bool → Nat → Nat → FpR) (a b : Fv) : FpR :=
  match a, b with
  | .fin s n d, .fin s' n' d' =>
    let x := qAdd (Fv.fin s n d).q (Fv.fin s' n' d').q
    if x.num = 0 then { v := zero32 (s && s') } else rd (decide (x.num < 0)) x.num.natAbs x.den
  | .inf s, .inf s' => if s = s' then { v := inf32 s } else invalidR
  | .inf s, .fin .. => { v := inf32 s }
  | .fin .., .inf s => { v := inf32 s }
  | a, b => nanOf a b

/-- Exact product as a value; `none` where the operation is invalid. -/
def mulV (a b : Fv) : Option Fv :=
  match a, b with
  | .fin s n d, .fin s' n' d' => some (.fin (xor s s') (n * n') (d * d'))
  | .inf s, .inf s' => some (.inf (xor s s'))
  | .inf s, .fin s' n _ => if n = 0 then none else some (.inf (xor s s'))
  | .fin s n _, .inf s' => if n = 0 then none else some (.inf (xor s s'))
  | .nan s q, _ => some (.nan s q)
  | _, .nan s q => some (.nan s q)

/-- A value rounded to binary32. -/
def ofV (a : Fv) : FpR :=
  match a with
  | .fin s n d => if n = 0 then { v := zero32 s } else round32 s n d
  | .inf s => { v := inf32 s }
  | .nan s q => { v := nan32 s, inv := q }

/-- Addition (R153). -/
def fadd (a b : F32) : FpR := addV round32 (val32 a) (val32 b)
/-- Subtraction. -/
def fsub (a b : F32) : FpR := addV round32 (val32 a) (val32 b).opp
/-- Multiplication. -/
def fmul (a b : F32) : FpR := match mulV (val32 a) (val32 b) with | some v => ofV v | none => invalidR
/-- Fused multiply-add: `a * b + c` rounded once. -/
def fma (a b c : F32) : FpR :=
  match mulV (val32 a) (val32 b) with
  | some v => addV round32 v (val32 c)
  | none => invalidR
/-- Division. -/
def fdiv (a b : F32) : FpR :=
  match val32 a, val32 b with
  | .fin s n d, .fin s' n' d' =>
    if n' = 0 then (if n = 0 then invalidR else { v := inf32 (xor s s'), dz := true })
    else if n = 0 then { v := zero32 (xor s s') } else round32 (xor s s') (n * d') (d * n')
  | .inf s, .fin s' _ _ => { v := inf32 (xor s s') }
  | .fin s _ _, .inf s' => { v := zero32 (xor s s') }
  | .inf _, .inf _ => invalidR
  | x, y => nanOf x y

/-- The integer square root of `n`, bit by bit from bit `k - 1`. -/
def isqrt (n : Nat) : Nat → Nat → Nat
  | 0, r => r
  | k + 1, r => if (r + 2 ^ k) * (r + 2 ^ k) ≤ n then isqrt n k (r + 2 ^ k) else isqrt n k r

/-- Square root of a positive `n / d` as a rational below it by less than one part in `2 ^ 80`. -/
def qSqrt (n d : Nat) : Q :=
  let m := n * d * 2 ^ 320
  ⟨isqrt m (m.log2 / 2 + 1) 0, d * 2 ^ 160⟩

/-- Square root (R153). -/
def fsqrt (a : F32) : FpR :=
  match val32 a with
  | .fin s n d => if n = 0 then { v := zero32 s } else if s then invalidR else q32 (qSqrt n d)
  | .inf s => if s then invalidR else { v := inf32 false }
  | .nan s q => { v := nan32 s, inv := q }

/-- Absolute value; a NaN is quieted. -/
def fabs (a : F32) : FpR := match val32 a with | .nan _ q => { v := nan32 false, inv := q } | _ => { v := a &&& 0x7FFFFFFF#32 }
/-- Negation; a NaN is quieted. -/
def fneg (a : F32) : FpR := match val32 a with | .nan s q => { v := nan32 s, inv := q } | _ => { v := a ^^^ 0x80000000#32 }

/-- `a < b` for values that are no NaN. -/
def ltV (a b : Fv) : Bool :=
  match a, b with
  | .fin .., .fin .. => qLt a.q b.q
  | .inf s, .inf s' => s && !s'
  | .inf s, _ => s
  | _, .inf s => !s
  | _, _ => false

/-- `a < b` on binary32; false where one is a NaN. -/
def flt (a b : F32) : Bool := !(val32 a).isNan && !(val32 b).isNan && ltV (val32 a) (val32 b)

/-- The quiet NaN in place of any other NaN, its sign kept (R152). -/
def canon (x : F32) : F32 := match val32 x with | .nan s _ => nan32 s | _ => x

/-- Minimum (false) or maximum (true) where no operand is the smaller: of two zeros one, of a NaN and a value the quiet NaN
or the value. Which, the spec does not state (assumption 13). -/
def minMaxOpen (top : Bool) (a b : F32) : FpR :=
  match val32 a, val32 b with
  | .nan s q, .nan _ q' => { v := nan32 s, inv := q || q' }
  | .nan s q, _ => { v := if Config.minMax top a b then nan32 s else b, inv := q }
  | _, .nan s q => { v := if Config.minMax top a b then nan32 s else a, inv := q }
  | _, _ => { v := if Config.minMax top a b then a else b }

/-- Minimum. -/
def fmin (a b : F32) : FpR :=
  if flt a b then { v := a } else if flt b a then { v := b } else minMaxOpen false a b
/-- Maximum. -/
def fmax (a b : F32) : FpR :=
  if flt a b then { v := b } else if flt b a then { v := a } else minMaxOpen true a b

/-- The larger of two head values: a NaN makes the maximum NaN (R154). That NaN is always 0x7FC0_0000, and of two zeros the
first stands: R152 allows a NaN of either sign and no rule orders the zeros (DESIGN CHOICE, assumption 72). -/
def headMax (a b : F32) : F32 :=
  if (val32 a).isNan || (val32 b).isNan then nan32 false else if flt a b then b else a

/-! ## Other formats -/

/-- The value of an FP16 pattern. -/
def val16 (x : F16) : Fv := decodeF 5 10 x.toNat

/-- An exact rational as FP16, ties to even; overflow gives the largest finite. -/
def q16 (a : Q) : F16 :=
  let p := min (roundMag 5 10 a.num.natAbs a.den) (infPat 5 10 - 1)
  BitVec.ofNat 16 ((if a.num < 0 then 2 ^ 15 else 0) + p)

/-- The value of a BF16 pattern. -/
def valBf (x : Nat) : Fv := decodeF 8 7 x

/-- The value of an E5M2 pattern. -/
def valE5 (x : Nat) : Fv := decodeF 5 2 x

/-- The value of an E4M3 pattern, Table 4.2: no infinity; all ones is a NaN. -/
def valE4 (x : Nat) : Fv :=
  let neg := x.testBit 7
  let ex := bits x 6 3
  let man := x % 8
  if ex = 15 ∧ man = 7 then .nan neg false
  else if ex = 0 then scaled neg man (-9)
  else scaled neg (man + 8) (ex - 10)

/-- Binary32 to BF16 (R117). -/
def toBf (x : F32) : Nat :=
  match val32 x with
  | .fin s n d => (if s then 2 ^ 15 else 0) + min (roundMag 8 7 n d) (infPat 8 7)
  | .inf s => (if s then 2 ^ 15 else 0) + infPat 8 7
  | .nan s _ => if s then 0xFFC0 else 0x7FC0

/-- Binary32 to FP8 with a flag for a clip (R117). -/
def toFp8 (e5 : Bool) (x : F32) : Nat × Bool :=
  let big := if e5 then 0x7B else 0x7E
  let pat := fun (n d : Nat) => if e5 then roundMag 5 2 n d else roundMag 4 3 n d
  let sg := fun (s : Bool) => if s then 0x80 else 0
  match val32 x with
  | .fin s n d => let p := pat n d; if p > big then (sg s + big, true) else (sg s + p, false)
  | .inf s => (sg s + big, true)
  | .nan s _ => (sg s + (if e5 then 0x7E else 0x7F), false)

/-- A BF16 pattern as binary32: its upper 16 bits (R116). -/
def ofBf (x : Nat) : F32 := BitVec.ofNat 32 (x * 65536)

/-- An exact value rounded once to BF16, as its binary32 pattern. -/
def roundBf (neg : Bool) (n d : Nat) : FpR :=
  let p := roundMag 8 7 n d
  if infPat 8 7 ≤ p then { v := inf32 neg, ovf := true }
  else { v := BitVec.ofNat 32 ((p + (if neg then 2 ^ 15 else 0)) * 65536) }

/-- BF16 operations of Table 4.8: rounded once to BF16 (R153). -/
def bfOp (op : Nat) (a b c : F32) : FpR :=
  let rd := fun (v : Fv) => match v with
    | .fin s n d => if n = 0 then ({ v := zero32 s } : FpR) else roundBf s n d
    | w => ofV w
  match op with
  | 0x01 => addV roundBf (val32 a) (val32 b)
  | 0x03 => match mulV (val32 a) (val32 b) with | some v => rd v | none => invalidR
  | 0x04 => match mulV (val32 a) (val32 b) with | some v => addV roundBf v (val32 c) | none => invalidR
  | 0x05 => fmin a b
  | _ => fmax a b

/-! ## Functions that the vector unit bounds in ULP -/

/-- Fraction bits of the fixed-point reference. -/
def fx : Nat := 200

/-- ln 2 in fixed point: `2 * atanh (1/3)`. -/
def lnSeries (z2n z2d : Nat) : Nat → Nat → Nat → Nat
  | 0, _, _ => 0
  | k + 1, i, t => t / (2 * i + 1) + lnSeries z2n z2d k (i + 1) (t * z2n / z2d)

/-- `ln (n / d)` for `1 ≤ n / d ≤ 2`, in fixed point. -/
def lnFix (n d : Nat) : Nat :=
  let zn := n - d
  let zd := n + d
  2 * lnSeries (zn * zn) (zd * zd) 70 0 (zn * 2 ^ fx / zd)

/-- ln 2 in fixed point. -/
def ln2 : Nat := lnFix 2 1

/-- `Σ r^i / i!` in fixed point. -/
def expSeries (r : Nat) : Nat → Nat → Nat → Nat
  | 0, _, _ => 0
  | k + 1, i, t => t + expSeries r k (i + 1) (t * r / 2 ^ fx / (i + 1))

/-- `exp x` for a fixed-point `x`, as a rational. -/
def expFix (x : Int) : Q :=
  let k := x / (ln2 : Int)
  let r := (x - k * ln2).toNat
  qShift ⟨(expSeries r 60 0 (2 ^ fx) : Nat), 2 ^ fx⟩ k

/-- A rational in fixed point, rounded down. -/
def qFix (a : Q) : Int := (a.num * 2 ^ fx) / (a.den : Int)

/-- `exp` of a rational; outside ±256 it is 0 or beyond binary32. -/
def qExp (a : Q) : Q :=
  if qLt a (qInt (-256)) then ⟨0, 1⟩ else if qLt (qInt 256) a then ⟨2 ^ 300, 1⟩ else expFix (qFix a)

/-- The natural logarithm of a positive rational. -/
def qLn (n d : Nat) : Q :=
  let e := expOf n d
  let m : Nat := if e < 0 then lnFix (n * 2 ^ e.natAbs) d else lnFix n (d * 2 ^ e.natAbs)
  ⟨e * (ln2 : Int) + (m : Int), 2 ^ fx⟩

/-- One unit in the last place of binary32 at a rational. -/
def ulp32 (a : Q) : Q :=
  if a.num = 0 then qShift (qInt 1) (-149) else qShift (qInt 1) (max (expOf a.num.natAbs a.den) (-126) - 23)

/-- A binary32 value that lies within `bound` of the exact one: which, the spec leaves open (R153, assumption 8); where the
value drawn rounds to one beyond the bound, the correctly rounded one. -/
def approx (op : Nat) (x : F32) (exact bound : Q) : FpR :=
  let k : Int := (Config.ulpError op x % (2 ^ 33 + 1) : Nat) - 2 ^ 32
  let r := q32 (qAdd exact (qMul bound ⟨k, 2 ^ 32⟩))
  let d := qSub (q32of r.v) exact
  if r.ovf || qLt bound d || qLt bound (qNeg d) then q32 exact else r

/-- `n` units in the last place of the exact value. -/
def ulps (n : Int) (a : Q) : Q := qMul (qInt n) (ulp32 a)

/-- 2 units in the last place, or 2^-24 where that is larger. -/
def looseBound (a : Q) : Q :=
  let u := ulps 2 a
  let f := qShift (qInt 1) (-24)
  if qLt u f then f else u

/-- The functions of one operand that R153 bounds: 0x12 reciprocal, 0x13 reciprocal square root, 0x18 exp, 0x19 exp2,
0x1A log, 0x1B log2, 0x1C sigmoid, 0x1D tanh, 0x1E SiLU, 0x1F softplus. Infinities give the limits, zeros and negative
operands the IEEE 754 results. -/
def unary (op : Nat) (x : F32) : FpR :=
  match val32 x with
  | .nan s q => { v := nan32 s, inv := q }
  | .inf s =>
    match op with
    | 0x12 => { v := zero32 s }
    | 0x13 => if s then invalidR else { v := zero32 false }
    | 0x18 | 0x19 | 0x1F => { v := if s then zero32 false else inf32 false }
    | 0x1A | 0x1B => if s then invalidR else { v := inf32 false }
    | 0x1C => { v := if s then zero32 false else one32 }
    | 0x1D => { v := if s then 0xBF800000#32 else one32 }
    | _ => { v := if s then zero32 true else inf32 false }
  | .fin s n d =>
    let a := (Fv.fin s n d).q
    match op with
    | 0x12 => if n = 0 then { v := inf32 s, dz := true } else
        let e := qDiv (qInt 1) a; approx op x e (ulps 1 e)
    | 0x13 => if n = 0 then { v := inf32 s, dz := true } else if s then invalidR else
        let e := qDiv (qInt 1) (qSqrt n d); approx op x e (ulps 1 e)
    | 0x18 => let e := qExp a; approx op x e (ulps 2 e)
    | 0x19 => let e := qExp (qMul a ⟨(ln2 : Nat), 2 ^ fx⟩); approx op x e (ulps 2 e)
    | 0x1A => if n = 0 then { v := inf32 true, dz := true } else if s then invalidR else
        let e := qLn n d; approx op x e (ulps 2 e)
    | 0x1B => if n = 0 then { v := inf32 true, dz := true } else if s then invalidR else
        let e := qDiv (qLn n d) ⟨(ln2 : Nat), 2 ^ fx⟩; approx op x e (ulps 2 e)
    | 0x1C => let t := qExp (qNeg a); let e := qDiv (qInt 1) (qAdd (qInt 1) t); approx op x e (looseBound e)
    | 0x1D => let t := qExp (qMul (qInt 2) a); let e := qDiv (qSub t (qInt 1)) (qAdd t (qInt 1)); approx op x e (looseBound e)
    | 0x1E => let t := qExp (qNeg a); let e := qDiv a (qAdd (qInt 1) t); approx op x e (looseBound e)
    | _ =>
        let t := qExp a
        let u := qAdd (qInt 1) t
        let e := if qLt (qInt 256) a then a else qLn u.num.natAbs u.den
        approx op x e (looseBound e)

/-! ## Scale adaptation, R137 -/

/-- F[e]: 2^(e/8) rounded to binary32, for e from −16 to +16 (R137). -/
def factorF (e : Int) : F32 :=
  let k := e / 8
  let r := (e - 8 * k).toNat
  (q32 (qShift (expFix ((ln2 * r / 8 : Nat) : Int)) k)).v

end Sys2Proof.Machine
end

