-- ==== Sys2Proof/Machine/Parts.lean ====
section
/-! DEFINITION. The parts of the state, one structure for each unit or ledger the spec names. Each field's comment gives
its width, the rule that names it, and its reset value (`-` where the reset value is that of the part's own use). -/

namespace Sys2Proof.Machine

open Sys2Proof

/-! ## Life of the module: 14_power_up_and_trust.md -/

/-- The operating states of R68, R487, R488, R521 and R531. -/
inductive Phase where
  | unpowered   -- no feed, R489
  | halted      -- reset taken, the restart named in `due` follows
  | bootHeld    -- stays in the boot state, R484, R495, R523, R525, R526
  | boot        -- start-up steps 5 to 9: the command ports answer, R487
  | ready       -- R488
  | rest        -- R68
  | lastGasp    -- R521
  | tripped     -- Rest after a trip, R531
  deriving DecidableEq, Repr

/-- Why the module stays in the boot state. -/
inductive HoldCause where
  | none | noOption | noBank | converter | tcxo | pll
  deriving DecidableEq, Repr

/-- The restart that follows a reset. -/
inductive RestartKind where
  | warm | cold
  deriving DecidableEq, Repr

/-- The module's life: power-up, stamps, local time. -/
structure Life where
  /-- 8 states · R487 · unpowered -/
  phase : Phase := .unpowered
  /-- cause · R495 · none -/
  cause : HoldCause := .none
  /-- restart owed · R58 · none -/
  due : Option RestartKind := none
  /-- 32 · R490 · 0 -/
  poc : Nat := 0
  /-- 2 · R490 · 0 -/
  startKind : Nat := 0
  /-- 64 · R423 · 0 -/
  commit : Nat := 0
  /-- 64 · R424 · 0 -/
  storedStamp : Nat := 0
  /-- 64, µs · R524 · 0 -/
  now : Nat := 0
  /-- 64, µs, the model's own clock that no start resets · R282 · 0 -/
  clock : Nat := 0
  /-- 1 · R493 · 0 -/
  bank : Nat := 0
  /-- 32 · R506 · 0 -/
  fwver : Nat := 0
  /-- 1 · R506 · 0 -/
  usedFall : Bool := false
  /-- 1 · R506 · 0 -/
  unlockedOnce : Bool := false
  /-- 1 · R525 · 1 -/
  tcxoOk : Bool := true
  /-- 1, Shepherd runs; 0, it is held in reset · R58 · 0 -/
  shepherdUp : Bool := false
  /-- digests, measurements 0 to 4 · R505 · 0 -/
  measures : List Nat := [0, 0, 0, 0, 0]
  /-- times of converter faults · R523 · none -/
  convFaults : List Nat := []
  /-- times of trips · R531 · none -/
  trips : List Nat := []
  /-- 1, three trips within the hour · R531 · 0 -/
  tripLatched : Bool := false
  /-- retention checks pass · R434 · 1 -/
  retainOk : Bool := true
  deriving DecidableEq, Repr

/-! ## Supplies: 15_supplies_clocks_heat.md -/

/-- One feed, R514. -/
structure Feed where
  /-- mV, last sample · R514 · 0 -/
  mv : Int := 0
  /-- 1 · R514 · 1 -/
  out : Bool := true
  /-- 1 · R514 · 0 -/
  avail : Bool := false
  /-- 1, the out qualification runs · R514 · 0 -/
  outTimer : Bool := false
  /-- 1, the availability qualification runs · R514 · 0 -/
  availTimer : Bool := false
  deriving DecidableEq, Repr

/-- Feeds, budgets and hold-up. -/
structure Supply where
  /-- feed state · R514 · - -/
  main : Feed := {}
  /-- feed state · R514 · - -/
  backup : Feed := {}
  /-- feed in use · R515 · none -/
  active : Option FeedId := none
  /-- 1, the return window qualification runs · R517 · 0 -/
  returnTimer : Bool := false
  /-- s · R518 · 2 -/
  returnNeed : Nat := 2
  /-- local time of the last return · R518 · none -/
  lastReturn : Option Nat := none
  /-- 16, W · R304 · 410 -/
  mainBudget : Nat := 410
  /-- 16, W · R304 · 240 -/
  backupBudget : Nat := 240
  /-- mJ · R520 · 4920 -/
  holdupMj : Nat := 4920
  /-- 0.1 W, last measurement · R303 · 0 -/
  draw : Nat := 0
  /-- 1, a cut whose excess is still being met · R305 · 0 -/
  cutting : Bool := false
  /-- contexts whose issue is stopped · R305 · none -/
  stopped : List Nat := []
  /-- 0.1 W, shared draw · R303 · 0 -/
  sharedDraw : Nat := 0
  /-- power-ups held: domain and the context that asked, oldest first · R71 · none -/
  waiting : List (Dom × Nat) := []
  deriving DecidableEq, Repr

/-- Clocks and PLLs of one compute stack, R64 to R66 and R526. -/
structure StackClk where
  /-- 1 · R65 · 0 -/
  arithLocked : Bool := false
  /-- 1 · R65 · 0 -/
  netLocked : Bool := false
  /-- 1 · R65 · 0 -/
  running : Bool := false
  /-- 4, units of 75 MHz · R305 · 8 -/
  budgetStep : Nat := 8
  /-- 4, units of 75 MHz · R530 · 8 -/
  thermStep : Nat := 8
  /-- 2 · R526 · 0 -/
  arithTries : Nat := 0
  /-- 2 · R526 · 0 -/
  netTries : Nat := 0
  /-- 1 · R526 · 0 -/
  dead : Bool := false
  deriving DecidableEq, Repr

/-- A PLL of the base die, R64 and R526. -/
structure BasePll where
  /-- 1 · R64 · 0 -/
  running : Bool := false
  /-- 1 · R64 · 0 -/
  locked : Bool := false
  /-- 2, failures to lock in a row · R526 · 0 -/
  tries : Nat := 0
  deriving DecidableEq, Repr

/-- The state of a power domain. -/
inductive DomState where
  | off | waking | on
  deriving DecidableEq, Repr

/-! ## Panels and engines: 03_array_panels.md, 04_numbers.md -/

/-- A reading in the making or closed, R98. Reference codes are summed over four columns, so means are quarters. -/
structure Reading where
  /-- qualifying evaluations · R98 · 0 -/
  n : Nat := 0
  /-- sum of S · R98 · 0 -/
  sumS : Nat := 0
  /-- sum of the high reference codes · R98 · 0 -/
  sumH : Nat := 0
  /-- sum of the low reference codes · R98 · 0 -/
  sumL : Nat := 0
  /-- readings with their 1,024 evaluations that await their close: sums of S, of the high and of the low codes · R98 · none -/
  due : List (Nat × Nat × Nat) := []
  /-- the last closed ā, binary32, newest first · R98 · none -/
  gains : List F32 := []
  /-- the last closed ō, binary32, newest first · R98 · none -/
  offs : List F32 := []
  /-- readings closed since default · R99 · 0 -/
  closed : Nat := 0
  /-- mean shift of the reference columns in the latest closed reading, units of v, binary32 · R168 · 0 -/
  level : F32 := 0
  /-- local time of the latest close · R99 · none -/
  closedAt : Option Nat := none
  /-- 0.1 °C at the latest close · R99 · 0 -/
  closedTemp : Int := 0
  deriving DecidableEq, Repr

/-- A clip record, Table 4.6. -/
structure ClipRec where
  /-- 32 · R132 · 0 -/
  clips : Nat := 0
  /-- 32 · R132 · 0 -/
  total : Nat := 0
  /-- 16 · R132 · 0 -/
  peak : Nat := 0
  /-- 6 · R132 · 0 -/
  exp : Int := 0
  /-- 5 · R132 · 0 -/
  downrun : Nat := 0
  /-- 3 · R132 · 0 -/
  satrun : Nat := 0
  /-- 1 · R132 · image -/
  adapt : Bool := false
  /-- 1 · R132 · 0 -/
  ovf : Bool := false
  /-- 2 · R132 · image -/
  kind : Nat := 0
  deriving DecidableEq, Repr

/-- A load of a plane file into the shadow bank, R83. -/
structure PlaneLoad where
  plane : Nat
  fromCore : Bool := false
  addr : Nat := 0
  deriving DecidableEq, Repr

/-- One engine. -/
structure Engine where
  /-- logical plane · R79 · none -/
  active : Option Nat := none
  /-- plane file · R79 · empty -/
  activeFile : PlaneFile := {}
  /-- logical plane · R79 · none -/
  shadow : Option Nat := none
  /-- plane file · R79 · empty -/
  shadowFile : PlaneFile := {}
  /-- 1, the active file was loaded with poison · R442 · 0 -/
  activePoison : Bool := false
  /-- 1, the shadow file was loaded with poison · R442 · 0 -/
  shadowPoison : Bool := false
  /-- load under way · R83 · none -/
  load : Option PlaneLoad := none
  /-- 256 × INT32 · R92 · 0 -/
  accs : Tab Int := []
  /-- 1, the accumulators were formed from poisoned data · R442 · 0 -/
  accPoison : Bool := false
  /-- 32 × binary32 · R123 · 1.0 -/
  factors : Tab F32 := []
  /-- 4 × 256 × 16 · R121 · 0 -/
  codebooks : Tab (List Nat) := []
  /-- slots being loaded · R121 · none -/
  cbLoading : List Nat := []
  /-- 1 · R51 · 0 -/
  clockOn : Bool := false
  /-- 17 × 5, logical plane to physical plane where not the identity · R75 · identity -/
  planeMap : Tab Nat := []
  /-- 256 × 128, KIND 2 records by column · R134 · 0 -/
  clips : Tab ClipRec := []
  /-- snapshot of the columns' last interval · R134, R135 · 0 -/
  clipSnap : Tab ClipRec := []
  /-- readings by `32 * logical plane + group` · R98 · default -/
  readings : Tab Reading := []
  /-- COND by logical plane · R81 · 0 -/
  cond : Tab Nat := []
  /-- homes fetched for emulated steps: thread, logical plane, bytes, poison · R220 · none -/
  fetched : List (Nat × Nat × List Byte × Bool) := []
  deriving DecidableEq, Repr

/-! ## Threads: 07_threads_and_counters.md -/

/-- Thread states, Table 7.1. -/
inductive TState where
  | free | ready | running | sleeping | stalled | boundary | faulted
  deriving DecidableEq, Repr

/-- What a thread's step in progress waits for. -/
inductive TWait where
  | none
  | counter          -- a compare at a counter's home
  | packFence        -- tier-6 writes still out, R330
  | planeFile        -- R84
  | codebook         -- R121
  | fetch            -- the block's home on its way from the away region, R220
  | unit_            -- a unit another step occupies
  | ring             -- R223
  | mirror           -- a pack barrier's release, R349
  deriving DecidableEq, Repr

/-- A write of a step that other readers may not see yet (R268): where it went, and the bytes with their poison that stood
there. -/
structure Unseen where
  space : Space
  at_ : Nat
  old : List (Byte × Bool)
  deriving DecidableEq, Repr

/-- One hardware thread, Table 7.2 and what its step needs. -/
structure Thread where
  /-- 3 · R249 · 0 -/
  state : TState := .free
  /-- 6 · R249 · 0 -/
  ctx : Nat := 0
  /-- 11 · R249 · 0 -/
  pc : Nat := 0
  /-- 11 · R249 · 0 -/
  base : Nat := 0
  /-- 11 · R249 · 0 -/
  last : Nat := 0
  /-- 1, the image gives it a program · R247 · 0 -/
  prog : Bool := false
  /-- 12 · R249 · 0 -/
  waitId : Nat := 0
  /-- 2 · R249 · 0 -/
  wstat : Nat := 0
  /-- 1 · R249 · 0 -/
  catchUp : Bool := false
  /-- 32 · R249 · 0 -/
  iter : Nat := 0
  /-- 64 signed, expected value of its wait · R259 · 0 -/
  expect : Int := 0
  /-- what it waits for · R246 · none -/
  waits : TWait := .none
  /-- 1, the step in progress has done its work · R251 · 0 -/
  done : Bool := false
  /-- 1, the step in progress is an emulated panel step · R151 · 0 -/
  emulated : Bool := false
  /-- writes that no fence has covered, oldest first: what stood there before · R268 · none -/
  unseen : List Unseen := []
  /-- the writes that its pack fence waits for: `64 * context + destination`, issued up to here · R330 · none -/
  fence : List (Nat × Nat) := []
  /-- 2, worst class code of its panel steps this iteration · R110 · 0 -/
  cls : Nat := 0
  /-- 1, a step of this iteration used an exponent other than 0 · R145 · 0 -/
  adapted : Bool := false
  /-- 1, it read a poisoned word this iteration · R442 · 0 -/
  poison : Bool := false
  /-- order in which it became ready · R248 · 0 -/
  since : Nat := 0
  deriving DecidableEq, Repr

/-- One core. -/
structure Core where
  /-- 2048 × 256 · R247 · 0 -/
  stepRam : Tab (BitVec 256) := []
  /-- 32 · R152 · 0 -/
  invalids : Nat := 0
  /-- 32 · R152 · 0 -/
  overflows : Nat := 0
  /-- 32 · R152 · 0 -/
  divZeros : Nat := 0
  /-- 128 each, by `2^28 * context + 65536 * point + channel` · R131 · 0 -/
  clips : Tab ClipRec := []
  /-- snapshot of the last interval, same numbers · R135 · 0 -/
  snapshot : Tab ClipRec := []
  /-- engine slot that the spare replaces · R53 · none -/
  spareFor : Option Nat := none
  deriving DecidableEq, Repr

/-! ## Shuttles: 06_tiers_and_shuttles.md -/

/-- One descriptor ring, Table 6.4. -/
structure Ring where
  /-- 2 · R222 · 3 -/
  state : Nat := 3
  /-- 6 · R222 · 0 -/
  ctx : Nat := 0
  /-- 11 · R222 · 0 -/
  len : Nat := 0
  /-- 10 · R222 · 0 -/
  head : Nat := 0
  /-- 11 · R222 · 0 -/
  elig : Nat := 0
  /-- 3 · R222 · 0 -/
  inflight : Nat := 0
  /-- 4 · R222 · 0 -/
  err : Nat := 0
  /-- 40 · R223 · 0 -/
  sbase : Nat := 0
  /-- 40 · R223 · 0 -/
  dbase : Nat := 0
  /-- skipped descriptors, counted from HEAD over the eligible ones · R255 · none -/
  skipped : List Bool := []
  /-- 512 each · R230 · image -/
  descs : List (BitVec 512) := []
  deriving DecidableEq, Repr

/-- A descriptor in flight on a channel, R224. -/
structure Flight where
  ring : Nat
  desc : BitVec 512
  /-- 40 · R223 · - -/
  sbase : Nat := 0
  /-- 40 · R223 · - -/
  dbase : Nat := 0
  /-- bytes moved · R224 · 0 -/
  moved : Nat := 0
  /-- 1, the context it started under · R278 · - -/
  ctx : Nat := 0
  /-- order of start within its ring · R224 · - -/
  order : Nat := 0
  /-- 1, moves nothing · R255 · 0 -/
  skip : Bool := false
  /-- tier-6 writes not acknowledged · R328 · 0 -/
  outstanding : Nat := 0
  /-- WSENT of its context and destination before its first write · R330 · 0 -/
  wfrom : Nat := 0
  /-- 1, poisoned bytes were carried · R442 · 0 -/
  poison : Bool := false
  /-- history slots read so far · R234 · none -/
  histRead : List (Nat × Nat) := []
  /-- its destination bytes that another flight wrote meanwhile · R229 · none -/
  rivals : List (Space × Nat × Nat) := []
  deriving DecidableEq, Repr

/-! ## Counters: 07_threads_and_counters.md -/

/-- Who waits at a counter's home, R265 and Table 7.19. -/
inductive Waiter where
  | thread (t : Nat)
  | member (pos : Nat)
  | firmware
  deriving DecidableEq, Repr

/-- A registered compare. -/
structure Compare where
  who : Waiter
  expect : Nat
  deriving DecidableEq, Repr

/-- An armed threshold, R274. -/
structure Threshold where
  sid : Nat
  subId : Nat
  level : Nat
  deriving DecidableEq, Repr

/-- One physical counter, Table 7.20. -/
structure Counter where
  /-- 64 · R257 · 0 -/
  value : Nat := 0
  /-- registered compares in order · R281 · none -/
  waiters : List Compare := []
  /-- 16 · R281 · 0 -/
  lastSig : Nat := 0
  /-- 32 · R281 · 0 -/
  lastDelta : Nat := 0
  /-- 6 · R281 · 0 -/
  owner : Nat := 0
  /-- 12 · R281 · 0 -/
  localId : Nat := 0
  /-- 1 · R281 · 0 -/
  bound : Bool := false
  /-- 1 · R281 · 0 -/
  exported : Bool := false
  /-- 1 · R257 · 0 -/
  sat : Bool := false
  /-- 1 · R279 · 0 -/
  orphaned : Bool := false
  /-- 1 · R331 · 0 -/
  overtaken : Bool := false
  /-- 1 · R261 · 0 -/
  misuse : Bool := false
  /-- armed thresholds · R274 · none -/
  thresholds : List Threshold := []
  /-- barrier arrivals this module's threads have signalled · R350 · 0 -/
  tally : Nat := 0
  deriving DecidableEq, Repr

/-- A signal on its way to a counter's home, R260. -/
structure Signal where
  who : Nat
  ctx : Nat
  id : Nat
  delta : Nat
  /-- ring and TAG of a descriptor that signals · R233 · none -/
  from_ : Option (Nat × Nat) := none
  deriving DecidableEq, Repr

/-- A barrier release on its way to a cluster, R272. -/
structure ReleaseMsg where
  cluster : Nat
  phys : Nat
  value : Nat
  deriving DecidableEq, Repr

/-- Counters and the sync controllers. -/
structure Sync where
  /-- 16,384 counters · R256 · free -/
  counters : Tab Counter := []
  /-- translation tables by `4096 * context + id`: physical number plus one · R262 · not valid -/
  table : Tab Nat := []
  /-- exported ids, same numbers · R262 · 0 -/
  exports : Tab Nat := []
  /-- signals on their way, oldest first · R260 · none -/
  signals : List Signal := []
  /-- barrier releases on their way · R272 · none -/
  releases : List ReleaseMsg := []
  /-- registrations that wait for a table entry · R266 · none -/
  blocked : List (Nat × Compare) := []
  /-- compares per home, out of 1,024 · R266 · 0 -/
  used : Tab Nat := []
  /-- wake lines: by `64 * cluster + line` the compare it stands for, `2^64 * phys + expected` plus one · R265 · free -/
  lines : Tab Nat := []
  /-- threads whose wake line has fired, oldest first · R265 · none -/
  woken : List Nat := []
  /-- contexts that have logged COMPARE_FULL this run · R266 · none -/
  fullLogged : List Nat := []
  /-- 16, next threshold subscription id · R274 · 0 -/
  nextSub : Nat := 0
  deriving DecidableEq, Repr

/-! ## Contexts: 08_periods_and_budgets.md -/

/-- Context states, Table 8.2. -/
inductive CState where
  | free | stopped | waiting | running | shed | faulted
  deriving DecidableEq, Repr

/-- A pass that runs, R35 and R38. Tokens are counted by append number. -/
structure Pass where
  /-- 32 · R413 · - -/
  no : Nat := 0
  /-- first token, append number · R35 · - -/
  first : Nat := 0
  /-- last token, append number, none when nothing of the range is held · R35 · - -/
  last : Option Nat := none
  /-- next token to read · R35 · - -/
  next : Nat := 0
  /-- tokens read · R36 · 0 -/
  cover : Nat := 0
  /-- first token of the open segment · R40 · - -/
  segFirst : Nat := 0
  /-- tokens read in the open segment · R40 · 0 -/
  segTokens : Nat := 0
  /-- head values gathered over the open segment · R40 · none -/
  gather : List HeadSection := []
  /-- quality flags gathered · R413 · 0 -/
  flags : BitVec 16 := 0
  /-- worst class · R110 · 0 -/
  cls : Nat := 0
  /-- session and SEQ of the RUN that asked for it · R409 · none -/
  askedBy : Option (Nat × Nat) := none
  /-- 1, end at the next iteration boundary · R410 · 0 -/
  cancel : Bool := false
  /-- sample indices the range was named by · R409 · - -/
  sfirst : Nat := 0
  /-- sample indices the range was named by · R409 · - -/
  slast : Nat := 0
  deriving DecidableEq, Repr

/-- A pending pass, R38; tokens are append numbers, or token numbers of the run of s0 for a RUN. -/
structure PendPass where
  /-- 32 · R413 · - -/
  no : Nat := 0
  first : Nat := 0
  last : Nat := 0
  run : Nat := 0
  askedBy : Option (Nat × Nat) := none
  sfirst : Nat := 0
  slast : Nat := 0
  deriving DecidableEq, Repr

/-- One context, Tables 8.1 to 8.4. -/
structure Ctx where
  /-- 3 · R296 · 0 -/
  state : CState := .free
  /-- 8 · R294 · 128 -/
  prio : Nat := 128
  /-- 1 · R296 · 0 -/
  catchUp : Bool := false
  /-- 7 · R296 · 0 -/
  cup : Nat := 0
  /-- local times of automatic restarts · R299 · none -/
  autoRst : List Nat := []
  /-- 1 · R296 · 0 -/
  held : Bool := false
  /-- 1 · R296 · 0 -/
  shedQ : Bool := false
  /-- 32 · R296 · 0 -/
  late : Nat := 0
  /-- 32, ms · R277 · 500 -/
  wdog : Nat := 500
  /-- local time from which the watchdog runs; while Shed, the time it had run · R277, R307 · 0 -/
  alive : Nat := 0
  /-- 32, tokens · R285 · image -/
  pt : Nat := 1
  /-- 32, tokens · R285 · image -/
  allow : Nat := 0
  /-- 32, tokens · R31 · image -/
  rint : Nat := 1
  /-- 32, K · R34 · image -/
  sched : Nat := 0
  /-- pending PT · R426 · none -/
  pendPt : Option Nat := none
  /-- pending ALLOW · R426 · none -/
  pendAllow : Option Nat := none
  /-- pending report interval · R426 · none -/
  pendRint : Option Nat := none
  /-- quotas · R300 · 0 -/
  quota : Quota := {}
  /-- working buffers allocated, bytes · R300 · 0 -/
  buffers : Nat := 0
  /-- 0.1 W · R303 · 0 -/
  estimate : Nat := 0
  /-- log code of the fault · R278 · 0 -/
  cause : Nat := 0
  /-- 1, stop at the next boundary and who asked · R297 · none -/
  stopReq : Option (List (Nat × Nat)) := none
  /-- 1, three automatic restarts within 60 s: Faulted until a start command · R299 · 0 -/
  latched : Bool := false
  /-- 1, an automatic restart failure has been logged for this fault · R299 · 0 -/
  failLogged : Bool := false
  /-- tokens counted towards K · R573 · 0 -/
  schedCount : Nat := 0
  /-- running pass · R38 · none -/
  pass : Option Pass := none
  /-- pending pass · R38 · none -/
  pend : Option PendPass := none
  /-- 32, last pass number · R413 · 0 -/
  passNo : Nat := 0
  /-- 64, last result number · R414 · 0 -/
  resno : Nat := 0
  /-- 1, the state the context carries is poisoned · R443 · 0 -/
  poisoned : Bool := false
  /-- 1, an iteration is in progress · R297 · 0 -/
  inIter : Bool := false
  /-- 1, issue stopped or shed after the step in progress · R307 · 0 -/
  quiet : Bool := false
  /-- 1, membership was 5 or more at the last close of an interval · R144 · 0 -/
  large : Bool := false
  /-- 1, that close set the exponents to 0 · R144 · 0 -/
  crossed : Bool := false
  deriving DecidableEq, Repr

/-- The watch context's schedule and results in the making, R285 to R291 and R31. -/
structure Watch where
  /-- period in progress, or the next to release · R285 · 0 -/
  period : Nat := 0
  /-- first token of that period, token number of s0 · R285 · 0 -/
  first : Nat := 0
  /-- length of the period released last, 0 once its boundary has passed · R285 · 0 -/
  len : Nat := 0
  /-- deadline: token number that must not yet be held · R286 · 0 -/
  deadline : Nat := 0
  /-- 1, a period is released and its mandatory part runs · R286 · 0 -/
  mandatory : Bool := false
  /-- 1, its mandatory part is complete and its boundary has not passed · R288 · 0 -/
  deferrable : Bool := false
  /-- tokens of an older run of s0 still to be served: last token number, run · R381, R509 · none -/
  short : Option (Nat × Nat) := none
  /-- 1, the next release rebases the schedule · R290, R299, R307 · 0 -/
  rebase : Bool := false
  /-- coverage, tokens absorbed · R32 · 0 -/
  cover : Nat := 0
  /-- 1, the state was restored · R41 · 0 -/
  restored : Bool := false
  /-- token from which report intervals are counted · R287 · 0 -/
  riFirst : Nat := 0
  /-- tokens of the open interval that lie before it, from a restored or handed-over state · R507 · 0 -/
  riOff : Nat := 0
  /-- tokens absorbed in the open report interval · R31 · 0 -/
  riCount : Nat := 0
  /-- first sample of the first token absorbed in the open report interval · R32 · 0 -/
  riSidx : Nat := 0
  /-- head values gathered over the open interval · R31 · none -/
  gather : List HeadSection := []
  /-- flags gathered over the open interval · R413 · 0 -/
  flags : BitVec 16 := 0
  /-- worst class of the open interval · R110 · 0 -/
  cls : Nat := 0
  /-- records that await the mandatory completion · R287 · none -/
  ready : List ResultRec := []
  /-- token outputs not yet evaluated in this period · R30 · 0 -/
  evaluated : Nat := 0
  /-- 1, the next record carries GAP · R291 · 0 -/
  owesGap : Bool := false
  /-- first sample of the next record where a gap precedes it · R291 · none -/
  gapFrom : Option Nat := none
  /-- 1, the next records carry CATCHUP · R288 · 0 -/
  owesCatch : Bool := false
  /-- reference sample index of the last token absorbed · R507 · none -/
  lastSidx : Option Nat := none
  /-- consecutive counts and armed flags of the watch triggers: count, armed · R573 · 0, 1 -/
  trig : Tab (Nat × Bool) := []
  /-- 1, restart the state from zero at the next iteration boundary · R443 · 0 -/
  zeroDue : Bool := false
  deriving DecidableEq, Repr

/-- The state of one advisory rule, R572. -/
structure RuleState where
  /-- 1 · R572 · 0 -/
  asserted : Bool := false
  /-- 8 · R572 · 0 -/
  upCount : Nat := 0
  /-- 8 · R572 · 0 -/
  downCount : Nat := 0
  /-- 17 · R572 · 0 -/
  hold : Nat := 0
  deriving DecidableEq, Repr

/-! ## Ingress and history: 10_stream_ingress.md, 06_tiers_and_shuttles.md -/

/-- The parameters of a stream slot, Table 10.2. -/
structure SlotCfg where
  /-- 1 · R360 · unconfigured -/
  kind : Nat := 0
  /-- 4 · R360 · - -/
  ports : Nat := 0
  /-- source · R361 · - -/
  source : Source := .frame 0 0 0 0
  /-- 8 · R360 · - -/
  format : Nat := 0x10
  /-- 5 · R360 · 0 -/
  shift : Nat := 0
  /-- 32 · R360 · - -/
  nomrate : Nat := 1
  /-- 17 · R360 · NOMRATE -/
  wrap : Nat := 2
  /-- 6 · R360 · 63 -/
  input : Nat := 63
  /-- 17 · R360 · 1024 -/
  rw : Nat := 1024
  /-- 1 · R360 · 0 -/
  startArr : Bool := false
  deriving DecidableEq, Repr

/-- One stream slot with its ring, status and counters. -/
structure Slot where
  /-- parameters · R360 · none -/
  cfg : Option SlotCfg := none
  /-- samples present and unread, by sample index: value and marks (1 TROUBLE, 2 uncorrectable) · R370 · none -/
  ring : Tab (Int × Nat) := []
  /-- samples moved to the spill share · R372 · 0 -/
  spilled : Nat := 0
  /-- oldest unread index · R370 · none -/
  unread : Option Nat := none
  /-- highest index received plus one · R389 · none -/
  high : Option Nat := none
  /-- last sample read · R380 · 0 -/
  lastRead : Int := 0
  /-- filter history: the samples read last, each with 1 where it was filled · R380, R386 · none -/
  firTail : List (Int × Bool) := []
  /-- extended sample count of sampled values: last smpCnt and its 64-bit index · R367 · none -/
  svIndex : Option (Nat × Nat) := none
  /-- 2 · R388 · 0 -/
  port : Nat := 0
  /-- 1 · R388 · 0 -/
  disc : Bool := false
  /-- 1 · R388 · 0 -/
  gap : Bool := false
  /-- 1 · R388 · 0 -/
  late : Bool := false
  /-- 1 · R388 · 0 -/
  dup : Bool := false
  /-- 1 · R388 · 0 -/
  rate : Bool := false
  /-- 1 · R388 · 0 -/
  ovf : Bool := false
  /-- 1 · R388 · 0 -/
  frame : Bool := false
  /-- 1 · R388 · 0 -/
  qual : Bool := false
  /-- 1 · R388 · 0 -/
  silent : Bool := false
  /-- 64 · R389 · 0 -/
  highIdx : Nat := 0
  /-- 32 · R389 · 0 -/
  frames : Nat := 0
  /-- 32 · R389 · 0 -/
  badFrames : Nat := 0
  /-- 32 · R389 · 0 -/
  reorder : Nat := 0
  /-- 32 · R389 · 0 -/
  lateSmp : Nat := 0
  /-- 32 · R389 · 0 -/
  dupSmp : Nat := 0
  /-- 32 · R389 · 0 -/
  filled : Nat := 0
  /-- 32 · R389 · 0 -/
  ovfSmp : Nat := 0
  /-- 32 · R389 · 0 -/
  clamp : Nat := 0
  /-- 32 signed · R389 · 0 -/
  ratePpm : Int := 0
  /-- samples received in the present second · R387 · 0 -/
  rateCount : Nat := 0
  /-- 1, RATE persists · R387 · 0 -/
  rateBad : Bool := false
  /-- 1, no valid frame for 100 ms, or none yet · R370 · 1 -/
  quiet : Bool := true
  deriving DecidableEq, Repr

/-- A port's settings, PORT_SET and Table 13.9. -/
structure PortCfg where
  /-- 32 · R358 · 0 -/
  ipv4 : Nat := 0
  /-- 8 · R358 · 0 -/
  pfx4 : Nat := 0
  /-- 128 · R358 · 0 -/
  ipv6 : Nat := 0
  /-- 8 · R358 · 0 -/
  pfx6 : Nat := 0
  /-- 16 · R358 · 1500 -/
  mtu : Nat := 1500
  /-- 16 · R358 · 0 -/
  vid : Nat := 0
  /-- 16 · R358 · 0: the port's default -/
  udp : Nat := 0
  /-- 8 multicast groups of 128 · R358 · 0 -/
  groups : List Nat := []
  deriving DecidableEq, Repr

/-- Counts of one fibre port. -/
structure PortCount where
  /-- frames dropped and counted · R357 · 0 -/
  dropped : Nat := 0
  /-- 1, link up · R408 · 0 -/
  link : Bool := false
  deriving DecidableEq, Repr

/-- Stream ingress as a whole. -/
structure Ingress where
  /-- 32 slots · R360 · unconfigured -/
  slots : Tab Slot := []
  /-- 1 · R364 · 0 -/
  running : Bool := false
  /-- 64 · R364 · none -/
  s0 : Option Nat := none
  /-- next token number of s0 · R364 · 0 -/
  nextToken : Nat := 0
  /-- number of the present run of s0 · R409 · 0 -/
  run : Nat := 0
  /-- detectors: consecutive samples, samples of hold-off left, last sample · R386 · 0 -/
  dets : Tab (Nat × Nat × List Int) := []
  /-- counts of the four stream and two command ports · R357 · 0 -/
  ports : Tab PortCount := []
  /-- front-end regions loaded and their configuration good · R378 · 1 -/
  feOk : Bool := true
  deriving DecidableEq, Repr

/-- One history slot. -/
structure HistSlot where
  /-- 64 · R212 · 0 -/
  sidx : Nat := 0
  /-- 4 · R212 · 0 -/
  flags : Nat := 0
  /-- 1, a token has been appended to the slot · R214 · 0 -/
  written : Bool := false
  /-- run of s0 · R409 · 0 -/
  run : Nat := 0
  /-- append number · R214 · 0 -/
  no : Nat := 0
  /-- token number within the run · R28 · 0 -/
  token : Nat := 0
  deriving DecidableEq, Repr

/-- The history, R211 to R214. -/
structure History where
  /-- slots C · R25 · 0 -/
  cap : Nat := 0
  /-- W · R29 · 0 -/
  width : Nat := 0
  /-- base address · R209 · 0 -/
  base : Nat := 0
  /-- slots that hold a token · R211 · none -/
  slots : Tab HistSlot := []
  /-- next slot to write · R211 · 0 -/
  write : Nat := 0
  /-- next append number · R214 · 0 -/
  appended : Nat := 0
  /-- first sample index of an index group · R212 · 0 -/
  groups : Tab Nat := []
  /-- 1, the next append starts a new index group · R213 · 0 -/
  newGroup : Bool := false
  deriving DecidableEq, Repr

/-! ## Sessions: 11_command_packets.md -/

/-- The keys and salts of a session, R398. -/
structure SessionKeys where
  /-- 256, client to module · R398 · - -/
  inKey : List Byte := []
  /-- 256, module to client · R398 · - -/
  outKey : List Byte := []
  /-- 32 · R398 · - -/
  inSalt : List Byte := []
  /-- 32 · R398 · - -/
  outSalt : List Byte := []
  deriving DecidableEq, Repr

/-- An open session. -/
structure Session where
  /-- 2, 0 O to 3 S · R400 · 0 -/
  role : Nat := 0
  /-- anchor index · R503 · 0 -/
  anchor : Nat := 0
  /-- serial numbers of the chain · R503 · none -/
  serials : List (List Byte) := []
  /-- 32, next SEQ to execute · R404 · 1 -/
  nextSeq : Nat := 1
  /-- command ring: packets that wait · R404 · none -/
  ring : List Packet := []
  /-- bulk ring: transfer number, offset, data · R407 · none -/
  bulk : List (Nat × Nat × List Byte) := []
  /-- last 64 replies, newest first · R405 · none -/
  replies : List Reply := []
  /-- 32, next notify sequence · R421 · 1 -/
  nextNotify : Nat := 1
  /-- notify ring, oldest first · R421 · none -/
  notifies : List Notify := []
  /-- 32 · R421 · 0 -/
  nlost : Nat := 0
  /-- 1, the next notify carries LOSS · R421 · 0 -/
  lossDue : Bool := false
  /-- 64, highest RECNO accepted · R395 · 0 -/
  rxHigh : Nat := 0
  /-- RECNOs seen in the window · R395 · none -/
  rxSeen : List Nat := []
  /-- 64, next RECNO to send · R395 · 1 -/
  txNext : Nat := 1
  /-- port of the last valid record · R392 · 0 -/
  port : Nat := 0
  /-- source address · R396 · 0 -/
  addr : Nat := 0
  /-- contexts whose results it takes · R420 · none -/
  results : List Nat := []
  /-- 96, event mask · R418 · none -/
  events : Option Nat := none
  /-- 1, advisories too · R418 · 0 -/
  advisories : Bool := false
  /-- keys and salts of both directions · R398 · - -/
  keys : SessionKeys := {}
  deriving DecidableEq, Repr

/-- A handshake in progress, R397. -/
structure Handshake where
  hsid : Nat
  addr : Nat := 0
  port : Nat := 0
  /-- fragments received: message number, fragment, bytes · R394 · - -/
  parts : List (Nat × Nat × List Byte) := []
  frags : Nat := 1
  /-- session number assigned, once ACCEPT is sent · R394 · none -/
  session : Option Nat := none
  chain : Chain := {}
  /-- role of the anchor · R400 · 0 -/
  role : Nat := 0
  /-- keys of the session that it opens · R398 · none -/
  keys : SessionKeys := {}
  deriving DecidableEq, Repr

/-- Sessions as a whole. -/
structure Comms where
  /-- 128 sessions · R401 · none -/
  sessions : Tab (Option Session) := []
  /-- up to 8 · R401 · none -/
  handshakes : List Handshake := []
  /-- counts of records dropped · R395 · 0 -/
  dropped : Nat := 0
  /-- addresses answered with a refusal in this second · R396 · none -/
  refusedTo : List Nat := []
  /-- 1, PRP mode in force · R392 · 1 -/
  prp : Bool := true
  deriving DecidableEq, Repr

/-! ## Outputs -/

/-- What leaves the module, in order. -/
inductive Out where
  | reply (sid recno port : Nat) (r : Reply)
  | notify (sid recno port : Nat) (n : Notify)
  | refusal (port addr session : Nat)
  | accept (port addr hsid session : Nat) (message : List Byte)
  | arpReply (port addr : Nat)
  | neighborReply (port addr : Nat)
  | echoReply (port : Nat) (v6 : Bool) (addr : Nat) (data : List Byte)
  | supervision (port : Nat)
  | join (port : Nat) (groups : List Nat)
  | frame (port : Nat) (h : PackHdr) (b : PackBody)
  | kennel (stamp : Nat) (lines : List (List (String × Nat))) (status : Status) (lost : Bool)
  | challenge (nonce : Nat) (lost : Bool)
  | trigger (ctx sfirst slast : Nat)
  deriving DecidableEq, Repr

/-! ## Images, results, advisories -/

/-- An image slot of the store, R190 and Table 13.7. -/
structure ImgSlot where
  /-- 0 empty, 1 active, 2 loaded, 3 loading · R205 · 0 -/
  state : Nat := 0
  /-- the container · R201 · none -/
  image : Option Image := none
  /-- bytes written so far, by offset · R407 · none -/
  bytes : Tab Byte := []
  deriving DecidableEq, Repr

/-- A transfer in progress (image or firmware), R407. -/
structure Xfer where
  no : Nat
  length : Nat
  chunk : Nat
  /-- chunk numbers that have arrived · R407 · none -/
  got : Tab Nat := []
  /-- session and SEQ of the end command once accepted · R418 · none -/
  ending : Option (Nat × Nat) := none
  /-- 256, SHA3-256 that the end command named · R205 · 0 -/
  digest : Nat := 0
  /-- 1, a write of it found no spare · R471 · 0 -/
  failed : Bool := false
  deriving DecidableEq, Repr

/-- A model swap in progress, R191. -/
structure Swap where
  /-- step of R191 · R191 · 1 -/
  phase : Nat := 1
  done : Nat := 0
  total : Nat := 0
  askedBy : Option (Nat × Nat) := none
  slot : Nat := 0
  /-- panels that the swap rewrites, engine numbers in order · R191 · - -/
  panels : List Nat := []
  /-- panels still to rewrite · R191 · - -/
  todo : List Nat := []
  /-- watch period of the pack swap · R353 · none -/
  atPeriod : Option Nat := none
  /-- µs of local time at which step 4 was complete · R193 · none -/
  doneAt : Option Nat := none
  /-- 1, a period of the watch context has been released since · R193 · 0 -/
  released : Bool := false
  deriving DecidableEq, Repr

/-- Images and swaps. -/
structure Images where
  /-- slots 0 and 1 · R190 · empty -/
  slot0 : ImgSlot := {}
  /-- slots 0 and 1 · R190 · empty -/
  slot1 : ImgSlot := {}
  /-- slot in force · R190 · none -/
  active : Option Nat := none
  /-- 64, stamp at which it became active · R413 · 0 -/
  stamp : Nat := 0
  /-- 1, the image checks passed · R496 · 1 -/
  good : Bool := true
  /-- 1, only the array codes failed · R496 · 0 -/
  codesBad : Bool := false
  /-- transfer · R407 · none -/
  xfer : Option Xfer := none
  /-- 32, last transfer number · R407 · 0 -/
  lastXfer : Nat := 0
  /-- swap in progress · R191 · none -/
  swap : Option Swap := none
  /-- firmware in the banks: state 0 empty, 1 valid, 2 loading · R493 · bank 0 valid -/
  bank0 : Nat × Firmware := (1, {})
  /-- as bank 0 · R493 · empty -/
  bank1 : Nat × Firmware := (0, {})
  /-- firmware transfer · R493 · none -/
  fwXfer : Option Xfer := none
  /-- bytes of a firmware transfer · R493 · none -/
  fwBytes : Tab Byte := []
  deriving DecidableEq, Repr

/-- J4 and the advisory rules: 16_connectors_and_mechanics.md. The commanded outputs and the commanded contact follow
from the rest of the state (`State.outputs`, `State.healthy`), so they are held once. -/
structure Io where
  /-- 16 rule states · R572 · released -/
  rules : Tab RuleState := []
  /-- 4, held off after an overcurrent · R545 · 0 -/
  cutOff : BitVec 4 := 0
  /-- outputs whose sensed state is held at a value of its own, with that value · R544 · none -/
  stuck : List (Nat × Bool) := []
  /-- a health contact sensed at a value of its own · R548 · none -/
  hStuck : Option Bool := none
  /-- 4, debounced inputs · R546 · 0 -/
  inputs : BitVec 4 := 0
  /-- 4, last undebounced readings · R546 · 0 -/
  raw : BitVec 4 := 0
  /-- samples for which a reading has differed from the debounced one, 4 of them · R546 · 0 -/
  runs : List Nat := [0, 0, 0, 0]
  /-- advisory outputs of other members by position · R338 · 0 -/
  packOutputs : Tab (BitVec 4) := []
  /-- ASEQ last applied, by position · R321 · 0 -/
  packSeq : Tab Nat := []
  /-- 32, own ASEQ · R321 · 0 -/
  aseq : Nat := 0
  deriving DecidableEq, Repr

/-! ## Troubles and the log: 12_keeping_data_whole.md -/

/-- What a log record reports: code, source, context and detail bytes. -/
structure LogEv where
  code : Nat
  loc : Nat := 0
  bunit : Nat := 0
  ctx : Nat := 0xFF
  detail : List Nat := []
  deriving DecidableEq, Repr

/-- Trouble words and the log. -/
structure Logs where
  /-- 32 · R453 · 0 -/
  word0 : BitVec 32 := 0
  /-- 32 · R454 · 0 -/
  word1 : BitVec 32 := 0
  /-- 32 · R455 · 0 -/
  word2 : BitVec 32 := 0
  /-- 64, next LSEQ · R457 · 1 -/
  nextLseq : Nat := 1
  /-- staged records, oldest first · R458 · none -/
  staged : List LogRec := []
  /-- records in the log area, oldest first · R458 · none -/
  stored : List LogRec := []
  /-- last-gasp records found in sectors 16 to 23 · R459 · none -/
  gasp : List LogRec := []
  /-- records this second by code and location: written · R460 · 0 -/
  written : Tab Nat := []
  /-- further occurrences this second · R460 · 0 -/
  suppressed : Tab Nat := []
  deriving DecidableEq, Repr

/-! ## Memory upkeep: 12_keeping_data_whole.md -/

/-- Board memory and SRAM: codes, poison, retirement. -/
structure Memory where
  /-- 2,304 × 64 KiB · R207 · 0 -/
  engine : Tab Byte := []
  /-- 256 × 512 KiB · R207 · 0 -/
  core : Tab Byte := []
  /-- 32 × 4 MiB · R207 · 0 -/
  cluster : Tab Byte := []
  /-- 56 MiB · R208 · 0 -/
  base : Tab Byte := []
  /-- 128 GiB · R209 · 0 -/
  board : Tab Byte := []
  /-- poisoned 64-bit words by `5 * word + space` · R439 · none -/
  poison : Tab Bool := []
  /-- vacant 64 B lines of SRAM by `5 * line + space` · R217 · none -/
  vacant : Tab Bool := []
  /-- valid-bit map, 4 KiB blocks whose bit is clear · R217 · all set -/
  invalid : Tab Bool := []
  /-- up to 64 blocks · R435 · none -/
  poisonList : List Nat := []
  /-- erased device of each group, device plus one · R431 · none -/
  erased : Tab Nat := []
  /-- corrected symbols of a device in this second, by `10 * group + device` · R431 · 0 -/
  corrected : Tab Nat := []
  /-- blocks with corrections of a device in this scrub pass, by `10 * group + device` · R431 · none -/
  scrubBlocks : Tab (List Nat) := []
  /-- remapped pages: spare number plus one · R449 · none -/
  remap : Tab Nat := []
  /-- 13, next spare page · R449 · 0 -/
  spares : Nat := 0
  /-- retired banks, `32 * group + bank`: retired by command · R448 · none -/
  banks : List Nat := []
  /-- retired banks laid out of the map · R450 · 0 -/
  banksOut : Nat := 0
  /-- retired SRAM banks by unit: offset plus one · R451 · none -/
  sramBanks : Tab Nat := []
  /-- findings of the scrub pass by class · R440 · 0 -/
  findings : List Nat := [0, 0, 0, 0, 0, 0]
  /-- 1, the scrub pass is late · R440 · 0 -/
  scrubLate : Bool := false
  /-- refetches under way, oldest first: in board memory, page; else SRAM word by its poison key · R445 · none -/
  refetch : List (Bool × Nat) := []
  /-- 1, the golden copy is bad · R447 · 0 -/
  goldenBad : Bool := false
  /-- contexts whose present period consumes a bad block · R445 · none -/
  tainted : List Nat := []
  deriving DecidableEq, Repr

/-! ## Array upkeep: 05_array_upkeep_and_images.md -/

/-- A plane entry, Table 5.7, with the levels and corrections that upkeep keeps. -/
structure PlaneEnt where
  /-- 3 · R188 · 1: in use -/
  state : Nat := 0
  /-- 5 · R188 · 31 -/
  lplane : Nat := 31
  /-- 11 · R188 · 0 -/
  erases : Nat := 0
  /-- 7 · R188 · 0 -/
  touchups : Nat := 0
  /-- 8 · R188 · 0 -/
  meanPulse : Nat := 0
  /-- 8, °C · R188 · 0 -/
  tprog : Int := 0
  /-- 16, 0.001 % · R188 · 0 -/
  drift : Nat := 0
  /-- 30, s at 55 °C, in ps here (assumption 30) · R188 · 0 -/
  te : Nat := 0
  /-- 16, h, as of the local time in `sweepBase` · R188 · 0 -/
  sweepH : Nat := 0
  /-- local time from which further hours count · R174 · 0 -/
  sweepBase : Nat := 0
  /-- 4 · R188 · 0 -/
  fails : Nat := 0
  /-- 2 · R188 · 3 -/
  sweepRes : Nat := 3
  /-- default gains, FP16 by row group · R100 · 0 -/
  gains : List F16 := []
  /-- default offsets, FP16 by row group · R100 · 0 -/
  offs : List F16 := []
  /-- reference levels at the last program or touch-up, units of v, by row group · R168 · none -/
  levels : List F32 := []
  /-- local time of the last degraded reading · R173 · none -/
  degradedAt : Option Nat := none
  /-- 1, the plane is past the WEAR warning · R177 · 0 -/
  worn : Bool := false
  deriving DecidableEq, Repr

/-- The cells of a physical plane, by `272 * row + column`: 256 weight, 8 reference, 8 check columns of 1,024 rows (R76). -/
structure Cells where
  /-- level last programmed plus one, 0 for an erased cell · R77 · 0 -/
  level : Tab Nat := []
  /-- conductance above G_min, 0.001 % of the window · R78 · -2000 -/
  g : Tab Int := []
  deriving DecidableEq, Repr

/-- A copy in the away region, R183 and R210. -/
structure AwayCopy where
  /-- image slot · R210 · - -/
  slot : Nat
  /-- engine that the image names · R203 · - -/
  engine : Nat
  /-- logical plane that the image names · R203 · - -/
  plane : Nat
  /-- board address · R209 · - -/
  at_ : Nat
  /-- bytes: codes, then plane file · R210 · - -/
  len : Nat
  deriving DecidableEq, Repr

/-- A panel word, Table 5.8. -/
structure Panel where
  /-- 3 · R188 · 0, 1 for slot 8 -/
  pstate : Nat := 0
  /-- 1 · R188 · 0 -/
  plane16 : Bool := false
  /-- 2 · R188 · 0 -/
  awayWhy : Nat := 0
  /-- 4 · R188 · 15 -/
  replaces : Nat := 15
  /-- 1 · R188 · 0 -/
  replanned : Bool := false
  deriving DecidableEq, Repr

/-- What upkeep does to a plane. -/
inductive UpOp where
  | erase | program | touchUp | levelRead
  deriving DecidableEq, Repr

/-- Why upkeep does it, Table 5.4; `partner` is the recovery of a disturbed partner (Table 5.9). -/
inductive UpWhy where
  | recovery | partner | spare | swap | replan | overdue | degraded | touchUp | sweep
  deriving DecidableEq, Repr

/-- A piece of pending work. -/
structure Work where
  prio : Nat
  engine : Nat
  plane : Nat
  op : UpOp
  why : UpWhy
  /-- retry of R162 · R162 · 0 -/
  retry : Bool := false
  /-- 1, its codes are those of the image that a swap brings · R191 · 0 -/
  newImage : Bool := false
  deriving DecidableEq, Repr

/-- The stage of an operation on a plane, R161. -/
inductive UpStage where
  | copying | erasing
  | waiting    -- erased, the program waits for the temperature of R103
  | pulsing | relaxing | verifying | reading
  deriving DecidableEq, Repr

/-- An operation in progress on a panel, R165. -/
structure OpRun where
  work : Work
  stage : UpStage
  /-- pulses so far · R161 · 0 -/
  pulses : Nat := 0
  /-- pulses of the coarse pass · R161 · 0 -/
  coarse : Nat := 0
  /-- pulses after which a weight cell first passed verify · R164 · none -/
  passed : Tab Nat := []
  deriving DecidableEq, Repr

/-- An upkeep journal record, Table 5.5, without its CRC. -/
structure JRec where
  kind : Nat
  status : Nat := 0
  loc : Nat := 0
  seq : Nat := 0
  poc : Nat := 0
  arg : Nat := 0
  deriving DecidableEq, Repr

/-- A REPLAN in progress, R182. -/
structure Replan where
  /-- the retired panel · R182 · - -/
  engine : Nat
  /-- free planes, engine and plane, for the blocks of logical planes 0 to 15 · R182 · - -/
  targets : List (Nat × Nat)
  /-- targets not yet programmed · R182 · - -/
  left : List (Nat × Nat)
  askedBy : Option (Nat × Nat) := none
  deriving DecidableEq, Repr

/-- Array upkeep as a whole. -/
structure Upkeep where
  /-- 39,168 × 128, by `17 * engine + physical plane` · R188 · as shipped -/
  planes : Tab PlaneEnt := []
  /-- 2,304 × 32, by engine · R188 · as shipped -/
  panels : Tab Panel := []
  /-- cells of every physical plane, same numbers · R76 · erased -/
  cells : Tab Cells := []
  /-- planes operated on since their panel went away · R185 · none -/
  operated : List Nat := []
  /-- copies in the away region · R183 · none -/
  copies : List AwayCopy := []
  /-- pending work, oldest first · R186 · none -/
  queue : List Work := []
  /-- operations in progress by engine · R165 · none -/
  ops : Tab (Option OpRun) := []
  /-- journal, oldest first · R187 · none -/
  journal : List JRec := []
  /-- 64, next SEQ · R187 · 1 -/
  nextSeq : Nat := 1
  /-- 64, newest journal SEQ the stored tables cover · R188 · 0 -/
  stored : Nat := 0
  /-- planes and panels as the store holds them · R188 · as shipped -/
  storedPlanes : Tab PlaneEnt := []
  /-- planes and panels as the store holds them · R188 · as shipped -/
  storedPanels : Tab Panel := []
  /-- placement changes as the store holds them · R188 · none -/
  storedPlacement : Tab Nat := []
  /-- panels on which a swap begun and not committed has started work, with the tables · R199 · none -/
  swapOpen : Option (List Nat) := none
  /-- 1, tables changed since they were stored · R188 · 0 -/
  dirty : Bool := false
  /-- replan in progress · R182 · none -/
  replan : Option Replan := none
  /-- placement changes made by REPLAN: block to engine and plane, by `16 * retired engine + logical plane`,
  `17 * engine + plane` plus one · R182 · none -/
  placement : Tab Nat := []
  /-- residency homes of retired panels in use · R210 · 0 -/
  residency : List Nat := []
  /-- sweep requests that completion is owed to: engine, session, SEQ · R174 · none -/
  sweepAsked : List (Nat × Nat × Nat) := []
  /-- clusters whose boot check is postponed · R499 · none -/
  postponed : List Nat := []
  deriving DecidableEq, Repr

/-! ## Store: 13_store.md -/

/-- A store record, Table 13.6, without its CRC. -/
structure SRec where
  kind : Nat
  unit : Nat := 0
  phys : Nat := 0
  logical : Nat := 0xFFFF
  seq : Nat := 0
  poc : Nat := 0
  arg : Nat := 0
  deriving DecidableEq, Repr

/-- Pages of a main block, R472. -/
structure PageSet where
  /-- 7, pages programmed since the erase, in the order of R472 · R472 · 0 -/
  count : Nat := 0
  /-- 1, written in 1-bit mode: lower pages only · R466 · 0 -/
  oneBit : Bool := false
  /-- lower pages that an interrupted program destroyed · R472 · none -/
  lost : List Nat := []
  deriving DecidableEq, Repr

/-- The store controller. -/
structure Store where
  /-- store journal, oldest first · R478 · none -/
  journal : List SRec := []
  /-- 64, next SEQ of the journal · R477 · 0 -/
  nextSeq : Nat := 0
  /-- area records, oldest first · R463 · none -/
  area : List SRec := []
  /-- logical blocks that moved: main block · R465 · as shipped -/
  map : Tab Nat := []
  /-- retired main blocks · R471 · none -/
  retired : List Nat := []
  /-- reserved logical blocks given up · R471 · none -/
  givenUp : List Nat := []
  /-- 8 bits count to the next full copy: map records written · R465 · 0 -/
  mapRecs : Nat := 0
  /-- erase counts: main blocks by number, sectors and option copies by `65536 * unit + number` · R480 · 0 -/
  erases : Tab Nat := []
  /-- pages of a main block, by block · R472 · none programmed -/
  pages : Tab PageSet := []
  /-- main blocks awaiting a refresh · R482 · none -/
  refresh : List Nat := []
  /-- refreshes since power-up · R482 · 0 -/
  refreshes : Nat := 0
  /-- local time of the last full read · R482 · 0 -/
  lastFull : Nat := 0
  /-- blocks read in this weekly pass · R482 · 0 -/
  patrol : Nat := 0
  deriving DecidableEq, Repr

/-- The fields of an option copy that commands, Shepherd or the boot state read or write, Table 13.9. The manual says only that the
factory writes SERIAL, UID and the MAC address: as shipped, SERIAL is the empty text here and the other two are 0 (DESIGN CHOICE,
assumption 1). -/
structure OptCopy where
  /-- 32 · R485 · 0 -/
  seq : Nat := 0
  /-- 128, the code SP7264-D1 · R485 · factory -/
  order : List Byte := [0x53, 0x50, 0x37, 0x32, 0x36, 0x34, 0x2D, 0x44, 0x31]
  /-- 128 · R485 · the factory's; empty in this model (DESIGN CHOICE, assumption 1) -/
  serial : List Byte := []
  /-- 16 · R485 · 1 -/
  level : Nat := 1
  /-- 16 · R485 · factory -/
  stepping : Nat := 0
  /-- 96 · R485 · factory -/
  mac : Nat := 0
  /-- 128 · R485 · factory -/
  uid : Nat := 0
  /-- 512 · R485 · factory -/
  idKey : Nat := 0
  /-- 8 · R485 · 0 -/
  bootBank : Nat := 0
  /-- 8 · R485 · 1 -/
  bootFall : Nat := 1
  /-- 32 · R485 · 0 -/
  fwCtr : Nat := 0
  /-- 32 · R485 · 0 -/
  imgCtr : Nat := 0
  /-- 64 · R485 · 0 -/
  packId : Nat := 0
  /-- 8 · R485 · 1 -/
  psize : Nat := 1
  /-- 8 · R485 · 0 -/
  ppos : Nat := 0
  /-- 8 · R485 · 0 -/
  psource : Nat := 0
  /-- 8 · R485 · 0xFF -/
  pstandby : Nat := 0xFF
  /-- 16 · R485 · 410 -/
  mainBud : Nat := 410
  /-- 16 · R485 · 240 -/
  backBud : Nat := 240
  /-- 8 · R485 · 1 -/
  svcEn : Nat := 1
  /-- 8 · R485 · 0 -/
  lock : Nat := 0
  /-- 8 · R485 · 0 -/
  portMode : Nat := 0
  /-- six entries: S0 to S3, C0, C1 · R485 · 0 -/
  ports : Tab PortCfg := []
  /-- 64 × 16 signed, 0.01 K · R485 · factory -/
  tsens : Tab Int := []
  /-- 32 × 16 · R485 · factory -/
  pllTrim : Tab Nat := []
  /-- 4 × 64 · R485 · factory -/
  pumpTrim : Tab Nat := []
  /-- 2,304 × FP16 · R485 · factory -/
  refRatio : Tab F16 := []
  deriving DecidableEq, Repr

/-- The option area, R483 to R486. -/
structure Options where
  /-- option copy 0 · R483 · as shipped -/
  copy0 : OptCopy := {}
  /-- option copy 1 · R483 · as shipped -/
  copy1 : OptCopy := {}
  /-- option shadows · R483 · as shipped -/
  shadow : OptCopy := {}
  /-- values loaded at reset, on which the module runs · R486 · as shipped -/
  loaded : OptCopy := {}
  /-- copy last written, or the winner · R486 · 0 -/
  newest : Nat := 0
  /-- a write in progress: copy and values · R486 · none -/
  writing : Option (Nat × OptCopy) := none
  /-- 1, a further write is merged into the next · R486 · 0 -/
  again : Bool := false
  /-- 1, the invalid copy is to be rewritten after boot · R484 · 0 -/
  rewrite : Bool := false
  deriving DecidableEq, Repr

/-- A trust anchor, R502. -/
structure Anchor where
  index : Nat
  kind : Nat
  role : Nat := 0
  cert : List Byte := []
  deriving DecidableEq, Repr

/-- Trust area. -/
structure Trust where
  /-- anchors in index order · R502 · Iandihan's image root -/
  anchors : List Anchor := [{ index := 0, kind := 1 }]
  /-- firmware anchors in force since the last boot · R502 · none -/
  fwAnchors : List Anchor := []
  /-- up to 256 serial numbers · R502 · none -/
  deny : List (List Byte) := []
  deriving DecidableEq, Repr

/-! ## Checkpoints: 14_power_up_and_trust.md -/

/-- The configuration that a checkpoint holds of one context. -/
structure CtxCfg where
  started : Bool := false
  stopped : Bool := false
  prio : Nat := 128
  wdog : Nat := 500
  pt : Nat := 1
  allow : Nat := 0
  rint : Nat := 1
  sched : Nat := 0
  quota : Quota := {}
  deriving DecidableEq, Repr

/-- A checkpoint or last-gasp set, Table 14.6. -/
structure Ckpt where
  stamp : Nat := 0
  poc : Nat := 0
  imageId : Nat := 0
  sidx : Option Nat := none
  /-- stream slots · R507 · - -/
  slots : List (Nat × SlotCfg) := []
  /-- contexts · R507 · - -/
  ctxs : List (Nat × CtxCfg) := []
  /-- budgets in force · R507 · - -/
  mainBudget : Nat := 410
  /-- budgets in force · R507 · - -/
  backupBudget : Nat := 240
  /-- watch state bytes, in the image's regions · R507 · - -/
  state : List Byte := []
  /-- advisory rule states · R507 · - -/
  rules : Tab RuleState := []
  /-- report-interval position: tokens into the open interval · R507 · 0 -/
  ri : Nat := 0
  /-- coverage · R507 · 0 -/
  cover : Nat := 0
  /-- exponents, DOWNRUN and SATRUN by core and record, `2^32 * core + record` · R507 · 0 -/
  scales : Tab (Int × Nat × Nat) := []
  deriving DecidableEq, Repr

/-- Checkpoints as a whole. -/
structure Ckpts where
  /-- checkpoint in force · R507 · none -/
  inForce : Option Ckpt := none
  /-- checkpoint set in force · R507 · 0 -/
  set : Nat := 0
  /-- checkpoint in staging, complete and being written · R507 · none -/
  staging : Option Ckpt := none
  /-- last-gasp set · R476 · none -/
  gasp : Option Ckpt := none
  /-- CHECKPOINT commands that await completion · R507 · none -/
  asked : List (Nat × Nat) := []
  /-- restart that follows the write · R507 · none -/
  restart : Option RestartKind := none
  /-- 1, a checkpoint is due at the next clean boundary · R442 · 0 -/
  due : Bool := false
  /-- 1, configuration changed, the 10 s timer runs · R507 · 0 -/
  timer : Bool := false
  deriving DecidableEq, Repr

/-! ## Kennel: 17_kennel_and_field_service.md -/

/-- Kennel states, R557. -/
inductive KState where
  | locked | unlocked | service
  deriving DecidableEq, Repr

/-- Kennel. -/
structure Kennel where
  /-- 3 states · R557 · Locked -/
  state : KState := .locked
  /-- newest challenge, not yet answered: nonce, and 1 until 5 min are over · R559 · none -/
  challenge : Option (Nat × Bool) := none
  /-- failed responses · R559 · 0 -/
  fails : Nat := 0
  /-- 1, unlock refused · R559 · 0 -/
  lockout : Bool := false
  /-- characters held · R561 · 0 -/
  held : Nat := 0
  /-- 1, the next line is ! LOST · R561 · 0 -/
  lost : Bool := false
  /-- 1, an answer is owed once the option write is stored · R567 · 0 -/
  owes : Bool := false
  deriving DecidableEq, Repr

/-! ## Packs: 09_stretches_and_packs.md -/

/-- One pack port, Table 9.3, with its replay buffer and credits. -/
structure PackPort where
  /-- 3 · R319 · 0 -/
  state : Nat := 0
  /-- 6 · R319 · 0 -/
  peer : Nat := 0
  /-- 2 · R319 · 0 -/
  peerPort : Nat := 0
  /-- 8 · R319 · 0 -/
  downs : Nat := 0
  /-- 13 · R319 · 0 -/
  replays : Nat := 0
  /-- 16, next LSEQ to send · R320 · 0 -/
  txSeq : Nat := 0
  /-- 16, LSEQ expected · R326 · 0 -/
  rxSeq : Nat := 0
  /-- replay buffer, oldest first: frame, times replayed · R326 · none -/
  replay : List (PackHdr × PackBody × Nat) := []
  /-- credits held per class · R325 · full buffers -/
  credits : Tab Nat := []
  /-- credits to return per class · R325 · 0 -/
  owed : Tab Nat := []
  /-- frames that wait for credits · R324 · none -/
  queue : List (PackHdr × PackBody) := []
  /-- frames dropped and counted · R320 · 0 -/
  dropped : Nat := 0
  /-- 128, IMAGEID of the peer's HELLO · R355 · 0 -/
  imageId : Nat := 0
  deriving DecidableEq, Repr

/-- A pass of the pack on this member, R339 to R348. Values of a slot and layer stand at `65536 * slot + layer`. -/
structure PackPass where
  /-- 6 · R339 · - -/
  ctx : Nat
  /-- 32 · R339 · - -/
  pass : Nat
  /-- 32, epoch of its PASS_START · R339 · - -/
  epoch : Nat
  /-- 64, first sample of the range · R339 · - -/
  first : Nat
  /-- 64, last sample of the range · R339 · - -/
  last : Nat
  /-- 6, position of slot 0 · R340 · - -/
  p0 : Nat
  /-- 7, number of slots · R340 · - -/
  n : Nat
  /-- 1, the filling module serves slots 0 and n - 1 · R340 · 0 -/
  both : Bool := false
  /-- slots that this member serves and whose share holds tokens, in order · R340 · - -/
  mine : List Nat := []
  /-- slot whose pass 1 runs · R341 · none -/
  cur : Option Nat := none
  /-- tokens of the share by slot · R341 · 0 -/
  shares : Tab Nat := []
  /-- last sample of the replay span by slot · R342 · 0 -/
  spans : Tab Nat := []
  /-- holes · R340 · none -/
  holes : List Nat := []
  /-- combine pairs of own shares · R341 · none -/
  pairs : Tab (List (F32 × F32)) := []
  /-- states recorded after token R - 1 · R341 · none -/
  marks : Tab (List F32) := []
  /-- own final tails and caches · R341 · none -/
  tails : Tab (Option (List Byte)) := []
  /-- prefixes Lx received · R343 · none -/
  prefixes : Tab (List (F32 × F32)) := []
  /-- suffixes received, of the next live slot to the right · R343 · none -/
  suffixes : Tab (List (F32 × F32)) := []
  /-- column values E received, by row · R343 · none -/
  columns : Tab (List (F32 × F32)) := []
  /-- halos received · R344 · none -/
  halos : Tab (Option (List Byte)) := []
  /-- messages of the present epoch sent, `4 * (65536 * slot + layer) + type` · R343 · none -/
  outs : List Nat := []
  /-- slots whose pass 1 is done · R341 · none -/
  pass1 : List Nat := []
  /-- slots whose replay is done · R346 · none -/
  replayed : List Nat := []
  /-- slots that poison has reached; those that a message of this epoch poisoned count from 65536 · R444 · none -/
  poisoned : List Nat := []
  /-- records that wait for the check of their slot · R346 · none -/
  records : List (Nat × ResultRec) := []
  /-- tokens processed · R339 · 0 -/
  tokens : Nat := 0
  /-- 1, a horizon check failed · R346 · 0 -/
  degraded : Bool := false
  /-- 1, PASS_DONE is sent · R339 · 0 -/
  told : Bool := false
  /-- positions that reported PASS_DONE with the RSEQ of their last record, at the lead · R339 · none -/
  done : List (Nat × Nat) := []
  /-- 1, this member started it as lead · R339 · 0 -/
  coord : Bool := false
  /-- newest record of the range, which the lead keeps back to mark it final: position, RSEQ, record · R339 · none -/
  back : Option (Nat × Nat × ResultRec) := none
  deriving DecidableEq, Repr

/-- A handover in progress, R335. -/
structure HandoverRun where
  /-- 64, period j + 1 · R335 · - -/
  period : Nat
  /-- 64, its first sample · R335 · - -/
  sidx : Nat
  /-- 6 · R335 · - -/
  from_ : Nat
  /-- 6 · R335 · - -/
  to_ : Nat
  /-- 1, acknowledged in time · R335 · 0 -/
  acked : Bool := false
  /-- 1, the next module has moved its ring to slot 0 · R334 · 0 -/
  placed : Bool := false
  deriving DecidableEq, Repr

/-- An exchange message sent and still held, or a result not yet shown issued. -/
structure Sent where
  dst : Nat
  type : Nat
  layer : Nat
  body : PackBody
  ctx : Nat
  deriving DecidableEq, Repr

/-- Membership and pack work. -/
structure Pack where
  /-- 32 · R312 · 0 -/
  epoch : Nat := 0
  /-- 64 · R315 · 0 -/
  live : Nat := 0
  /-- 6 · R315 · 0 -/
  lead : Nat := 0
  /-- 1, a lead with quorum is known · R314 · 0 -/
  hasLead : Bool := false
  /-- 6 · R315 · 0 -/
  fill : Nat := 0
  /-- 6 · R315 · option -/
  source : Nat := 0
  /-- 8 · R332 · option -/
  standby : Nat := 0xFF
  /-- 1 · R314 · 0 -/
  detached : Bool := false
  /-- 1, admitted · R355 · 0 -/
  admitted : Bool := false
  /-- four ports · R319 · off -/
  ports : Tab PackPort := []
  /-- 4 per position · R319 · 0 -/
  linkMap : Tab Nat := []
  /-- newest held SIDX by position, plus one · R321 · none -/
  heldBy : Tab Nat := []
  /-- election delay runs · R313 · 0 -/
  electing : Bool := false
  /-- claim sent and its answers · R313 · none -/
  claim : Option (Nat × List Nat) := none
  /-- lowest claim seen · R313 · none -/
  lowestClaim : Option Nat := none
  /-- 2, RUN byte · R321 · 0 -/
  run : Nat := 0
  /-- writes issued by `64 * context + destination` · R331 · 0 -/
  wsent : Tab Nat := []
  /-- writes issued since the last pack fence, same numbers · R331 · 0 -/
  unfenced : Tab Nat := []
  /-- writes completed by `64 * context + source` · R331 · 0 -/
  wdone : Tab Nat := []
  /-- writes that WRITE_DONE has covered or a timeout has failed, same numbers · R330 · 0 -/
  wacked : Tab Nat := []
  /-- frames that have arrived of messages not yet whole: sender, message, offsets · R322 · none -/
  parts : List (Nat × PackBody × List Nat) := []
  /-- release mirrors by `4096 * context + id` · R349 · 0 -/
  mirrors : Tab Nat := []
  /-- waiters on mirrors: thread, context, id, value · R349 · none -/
  mirrorWait : List (Nat × Nat × Nat × Nat) := []
  /-- tallies by `4096 * context + id` · R350 · 0 -/
  tallies : Tab Nat := []
  /-- tallies received by a new lead, `2^18 * position + 4096 * context + id` · R350 · 0 -/
  tallyFrom : Tab Nat := []
  /-- forwarded records not yet acknowledged, oldest first: sidx, flags, bytes · R333 · none -/
  forwarded : List (Nat × Nat × List Byte) := []
  /-- passes in progress · R339 · none -/
  passes : List PackPass := []
  /-- messages sent and held · R323 · none -/
  sent : List Sent := []
  /-- 32, own RSEQ · R322 · 0 -/
  rseq : Nat := 0
  /-- newest RSEQ received, by position · R415 · 0 -/
  rseen : Tab Nat := []
  /-- newest RSEQ issued, by position · R415 · 0 -/
  issued : Tab Nat := []
  /-- own records not shown issued: RSEQ and record · R415 · none -/
  kept : List (Nat × ResultRec) := []
  /-- snapshots received at the lead by context, each with its sender's position · R352 · none -/
  snaps : Tab (List (Nat × List UnitStat)) := []
  /-- contexts whose exponents the lead has to send with the next pass · R142, R352 · none -/
  scaleSend : List Nat := []
  /-- exponents to set for a context's next pass · R352 · none -/
  scaleDue : Tab (List UnitScale) := []
  /-- members ready to swap · R353 · none -/
  swapReady : List Nat := []
  /-- handover in progress · R335 · none -/
  handover : Option HandoverRun := none
  /-- pending passes known to the lead, by context · R339 · none -/
  leadPass : Tab Nat := []
  /-- period, first sample and next position of the last HANDOVER_PREP known · R335, R353 · none -/
  prepAt : Option (Nat × Nat × Nat) := none
  /-- position from which this member has taken the filling role, while the membership does not name it yet · R335 · none -/
  took : Option Nat := none
  /-- position to which this member has given the filling role, while the membership does not name it yet · R335 · none -/
  gave : Option Nat := none
  /-- contexts of which a tier-6 write has failed · R330 · none -/
  failedWrites : List Nat := []
  deriving DecidableEq, Repr

end Sys2Proof.Machine
end

