-- ==== Sys2Proof/Machine/Flags.lean ====
section
/-! DEFINITION. The words and flag computations that the spec's tables give: location words, state words, quality flags,
the health byte, log and result records as bytes, CRC-32C. -/

namespace Sys2Proof.Machine

open Sys2Proof

/-- A word from its fields: value and lowest bit. -/
def word : List (Nat × Nat) → Nat
  | [] => 0
  | (v, lo) :: rest => field v lo + word rest

/-! ## Location words, R63, Table 2.4 -/

/-- The location word of a compute stack. -/
def locStack (s : Nat) : Nat := word [(1, 29), (s % 4, 27)]

/-- The location word of a global cluster. -/
def locCluster (g : Nat) : Nat := word [(2, 29), (g / 8 % 4, 27), (g % 8, 24)]

/-- The location word of a core group by `2 * global cluster + group`. -/
def locGroup (i : Nat) : Nat := word [(3, 29), (i / 16 % 4, 27), (i / 2 % 8, 24), (i % 2, 23)]

/-- The location word of a global core; GROUP is CORE[2]. -/
def locCore (k : Nat) : Nat := word [(4, 29), (k / 64 % 4, 27), (k / 8 % 8, 24), (k / 4 % 2, 23), (k % 8, 20)]

/-- The location word of an engine numbered `9 * global core + slot`. -/
def locEngine (e : Nat) : Nat := locCore (e / 9) + word [(1, 29), (e % 9, 16)]

/-- The location word of a plane of an engine. -/
def locPlane (e p : Nat) : Nat := locCore (e / 9) + word [(2, 29), (e % 9, 16), (p % 32, 11)]

/-- LEVEL of a location word. -/
def locLevel (w : Nat) : Nat := bits w 31 29

/-- The global cluster a location word names. -/
def locToCluster (w : Nat) : Nat := 8 * bits w 28 27 + bits w 26 24

/-- The global core a location word names. -/
def locToCore (w : Nat) : Nat := 8 * locToCluster w + bits w 22 20

/-- The engine number a location word names. -/
def locToEngine (w : Nat) : Nat := 9 * locToCore w + bits w 19 16

/-- The plane a location word names. -/
def locToPlane (w : Nat) : Nat := bits w 15 11

/-- A location word is well formed at a level: fields below that level are zero and the slot and plane exist. -/
def locOk (w level : Nat) : Bool :=
  match level with
  | 0 => w == 0
  | 1 => w == locStack (bits w 28 27)
  | 2 => w == locCluster (locToCluster w)
  | 3 => w == locGroup (2 * locToCluster w + bits w 23 23)
  | 4 => w == locCore (locToCore w)
  | 5 => bits w 19 16 ≤ 8 && w == locEngine (locToEngine w)
  | 6 => bits w 19 16 ≤ 8 && locToPlane w ≤ 16 && w == locPlane (locToEngine w) (locToPlane w)
  | _ => false

/-! ## State words -/

/-- State codes, Table 7.1. -/
def TState.code : TState → Nat
  | .free => 0 | .ready => 1 | .running => 2 | .sleeping => 3 | .stalled => 4 | .boundary => 5 | .faulted => 6

/-- State codes, Table 8.2. -/
def CState.code : CState → Nat
  | .free => 0 | .stopped => 1 | .waiting => 2 | .running => 3 | .shed => 4 | .faulted => 5

/-- The index of the thread's next record (R247): that of its step in progress plus one, after an END record and at Boundary
BASE; `isEnd` says that the record at `pc` has END. -/
def Thread.next (t : Thread) (isEnd : Bool) : Nat :=
  match t.state with
  | .running | .sleeping => if isEnd then t.base else t.pc + 1
  | .boundary => t.base
  | _ => t.pc

/-- The thread state word, Table 7.2. -/
def Thread.word (t : Thread) (isEnd : Bool) : Nat :=
  Machine.word [(t.state.code, 125), (t.ctx, 119), (t.next isEnd, 108), (t.base, 97), (t.last, 86),
    (if t.state = .sleeping then t.waitId else 0, 74), (t.wstat, 72), (flag t.catchUp, 71), (t.iter % 2 ^ 32, 32)]

/-- The head descriptor waits on its fence: eligible, FENCE set, an earlier one not complete (R226). -/
def Ring.fenceWait (r : Ring) : Bool :=
  r.state == 1 && decide (0 < r.elig ∧ 0 < r.inflight) && (r.descs.getD r.head 0).getLsbD 509

/-- The ring state word, Table 6.4. -/
def Ring.word (r : Ring) : Nat :=
  Machine.word [(r.state, 62), (r.ctx, 56), (r.len, 45), (r.head, 35), (r.elig, 24), (r.inflight, 21),
    (flag r.fenceWait, 20), (r.err, 16)]

/-- Automatic restarts within the last 60 s of local time (AUTORST, R299). -/
def Ctx.recent (c : Ctx) (now : Nat) : List Nat := c.autoRst.filter (fun t => decide (now < t + 60000000))

/-- The context state word, Table 8.3. -/
def Ctx.word (c : Ctx) (n now : Nat) : Nat :=
  Machine.word [(c.state.code, 61), (flag (decide (n ≠ 0)), 60), (if n = 0 then 255 else c.prio, 52), (flag c.catchUp, 51),
    (c.cup, 44), (min 3 (c.recent now).length, 42), (flag c.held, 41), (flag c.shedQ, 40), (c.late, 0)]

/-- Waiter ids, Table 7.19. -/
def Waiter.id : Waiter → Nat
  | .thread t => t
  | .member p => Machine.word [(3, 13), (p, 0)]
  | .firmware => field 4 13

/-- The counter inspection record, Table 7.20. -/
def Counter.record (c : Counter) (phys : Nat) : Nat :=
  let w := c.waiters.map (fun x => x.who.id)
  Machine.word [(c.value, 192), (min w.length 65535, 176), (w.getD 0 0, 160), (w.getD 1 0, 144), (w.getD 2 0, 128),
    (w.getD 3 0, 112), (c.lastSig, 96), (min c.lastDelta (top 32), 64), (c.owner, 58), (c.localId, 46), (flag c.bound, 45),
    (flag c.exported, 44), (flag c.sat, 43), (flag c.orphaned, 42), (flag c.overtaken, 41), (flag c.misuse, 40),
    (min c.thresholds.length 255, 32), (phys, 18)]

/-- The clip record, Table 4.6. -/
def ClipRec.word (c : ClipRec) : Nat :=
  Machine.word [(c.clips, 96), (c.total, 64), (c.peak, 48), (unsigned 6 c.exp, 42), (c.downrun, 37), (c.satrun, 34),
    (flag c.adapt, 33), (flag c.ovf, 32), (c.kind, 30)]

/-- Hours since the last sweep at a local time (R174). -/
def PlaneEnt.hours (p : PlaneEnt) (now : Nat) : Nat := min 65535 (p.sweepH + (now - p.sweepBase) / 3600000000)

/-- The plane entry, Table 5.7. The effective age is held in microseconds and reported in seconds. -/
def PlaneEnt.word (p : PlaneEnt) (now : Nat) : Nat :=
  Machine.word [(p.state, 125), (p.lplane, 120), (p.erases, 109), (p.touchups, 102), (p.meanPulse, 94),
    (unsigned 8 p.tprog, 86), (p.drift, 70), (min (p.te / 10 ^ 12) (top 30), 40), (p.hours now, 24), (p.fails, 20),
    (p.sweepRes, 18)]

/-- The panel word, Table 5.8. -/
def Panel.word (p : Panel) : Nat :=
  Machine.word [(p.pstate, 29), (flag p.plane16, 28), (p.awayWhy, 26), (p.replaces, 22), (flag p.replanned, 21)]

/-- The port state word, Table 9.3. -/
def PackPort.word (p : PackPort) : Nat :=
  Machine.word [(p.state, 29), (p.peer, 23), (p.peerPort, 21), (min p.downs 255, 13), (min p.replays 8191, 0)]

/-- The plane setting word of a plane file with the condition kept by upkeep, Table 3.2. -/
def settingWord (f : PlaneFile) (cond : Nat) : Nat :=
  f.setting.toNat - field (bits f.setting.toNat 3 2) 2 + field cond 2

/-- The stream status word, Table 10.7. `ref` says that the slot feeds the reference input, `consuming` that a started
context reads it. -/
def Slot.word (s : Slot) (consuming ref : Bool) : Nat :=
  match s.cfg with
  | none => Machine.word [(63, 52)]
  | some c =>
    Machine.word [(if consuming then 2 else 1, 61), (c.kind, 60), (s.port, 58), (c.input, 52), (flag ref, 51),
      (flag s.disc, 40), (flag s.gap, 39), (flag s.late, 38), (flag s.dup, 37), (flag s.rate, 36), (flag s.ovf, 35),
      (flag s.frame, 34), (flag s.qual, 33), (flag s.silent, 32), (min s.ring.length (top 32), 0)]

/-- The stream counters as STREAM_STATUS reports them, Table 10.8 in order: 44 bytes. -/
def Slot.counters (s : Slot) : List Byte :=
  be 8 s.highIdx ++ be 4 s.frames ++ be 4 s.badFrames ++ be 4 s.reorder ++ be 4 s.lateSmp ++ be 4 s.dupSmp
    ++ be 4 s.filled ++ be 4 s.ovfSmp ++ be 4 s.clamp ++ be 4 (unsigned 32 s.ratePpm)

/-- The HEALTH field, Table 16.6. -/
def healthByte (hsense healthy : Bool) (inputs : BitVec 4) : Nat :=
  word [(flag hsense, 5), (flag healthy, 4), (inputs.toNat, 0)]

/-! ## Quality flags, Table 11.11 -/

/-- WARMING, bit 0. -/
def qWarming : BitVec 16 := 0x0001
/-- DEGRADED, bit 1. -/
def qDegraded : BitVec 16 := 0x0002
/-- POISONED, bit 2. -/
def qPoisoned : BitVec 16 := 0x0004
/-- CATCHUP, bit 3. -/
def qCatchup : BitVec 16 := 0x0008
/-- SCALEADAPT, bit 4. -/
def qScale : BitVec 16 := 0x0010
/-- GAP, bit 5. -/
def qGap : BitVec 16 := 0x0020

/-- A flag when its condition holds. -/
def qIf (b : Bool) (q : BitVec 16) : BitVec 16 := if b then q else 0

/-- The status of a reply that returns a record, R412. -/
def ResultRec.status (r : ResultRec) : Status :=
  if r.qflags.getLsbD 2 then .poisoned else if r.qflags.getLsbD 1 then .degraded
  else if r.qflags.getLsbD 0 then .warming else .ok

/-- A head section as bytes, R413. -/
def HeadSection.bytes (h : HeadSection) : List Byte :=
  be 1 h.head ++ be 1 (flag h.poisoned) ++ be 2 h.values.length ++ h.values.flatMap (fun v => be 4 v.toNat)

/-- A result record as bytes, Table 11.10. -/
def ResultRec.bytes (r : ResultRec) : List Byte :=
  let body := r.heads.flatMap HeadSection.bytes
  be 8 r.resno ++ be 8 r.sfirst ++ be 8 r.slast ++ be 8 r.cover ++ be 1 r.ctx ++ be 1 r.member ++ be 1 r.cls
    ++ be 1 r.heads.length ++ be 2 r.qflags.toNat ++ be 1 r.rkind ++ be 1 r.pos ++ be 4 r.pass ++ be 4 r.tokens
    ++ be 4 (64 + body.length) ++ be 4 0 ++ be 8 r.imgStamp ++ body

/-- The length of a result record in bytes. -/
def ResultRec.len (r : ResultRec) : Nat := 64 + (r.heads.map (fun h => 4 + 4 * h.values.length)).sum

/-! ## CRC-32C and the log record -/

/-- One bit of the reflected CRC-32C. -/
def crcBit (c : BitVec 32) : BitVec 32 := if c.getLsbD 0 then (c >>> 1) ^^^ 0x82F63B78#32 else c >>> 1

/-- One byte of CRC-32C. -/
def crcByte (c : BitVec 32) (b : Byte) : BitVec 32 :=
  crcBit (crcBit (crcBit (crcBit (crcBit (crcBit (crcBit (crcBit (c ^^^ b.setWidth 32))))))))

/-- CRC-32C of bytes. -/
def crc32c (bs : List Byte) : BitVec 32 := ~~~ (bs.foldl crcByte 0xFFFFFFFF#32)

/-- A log record as bytes, Table 12.8. -/
def LogRec.bytes (r : LogRec) : List Byte :=
  let tb := match r.tbit with | some (w, b) => Machine.word [(w, 6), (b, 0)] | none => field 3 6
  let body := be 8 r.lseq ++ be 8 r.commit ++ be 8 r.tick ++ be 8 (r.sidx.getD (top 64)) ++ be 4 r.poc ++ be 4 r.loc
    ++ be 1 r.bunit ++ be 1 r.ctx ++ be 2 r.code ++ be 1 tb ++ be 1 (Machine.word [(flag r.gasp, 0), (flag r.summary, 1)])
    ++ be 2 r.rep ++ (r.detail.flatMap (be 1) ++ List.replicate 12 0).take 12
  body ++ be 4 (crc32c body).toNat

end Sys2Proof.Machine
end

