-- ==== Sys2Proof/Machine/State.lean ====
section
/-! DEFINITION. The state of the Septesh SP7264 block: every register, ring, ledger and pin the spec gives it, the queue
of commands that wait, and the reasons a step can stop. -/

namespace Sys2Proof.Machine

open Sys2Proof

/-- The whole state. Every part is plain data. -/
structure State where
  /-- commands that wait, first in, first out -/
  pending : List Instr := []
  /-- life of the module -/
  life : Life := {}
  /-- feeds, budgets, hold-up -/
  supply : Supply := {}
  /-- clocks of the four compute stacks, R64 to R66 -/
  clks : Tab StackClk := []
  /-- PLLs of the base die by `Pll.base?`: network, Shepherd, four PHYs, R64 -/
  plls : Tab BasePll := []
  /-- 112 power domains, by `Dom.key`, R67 -/
  doms : Tab DomState := []
  /-- 64 sensors, 0.1 °C, R529 -/
  temps : Tab Int := []
  /-- excluded sensors, R529 -/
  excluded : List Nat := []
  /-- 2,304 engines by `9 * global core + slot`, R63 -/
  engines : Tab Engine := []
  /-- 256 cores, R63 -/
  cores : Tab Core := []
  /-- 4,096 threads by global thread number, R245 -/
  threads : Tab Thread := []
  /-- 2,048 rings, `64 * cluster + ring`, R221 -/
  rings : Tab Ring := []
  /-- 128 shuttle channels, `4 * cluster + channel`: descriptors started and not complete, R224 -/
  channels : Tab (List Flight) := []
  /-- counters and sync controllers -/
  sync : Sync := {}
  /-- 64 contexts, R293 -/
  ctxs : Tab Ctx := []
  /-- the watch context's schedule -/
  watch : Watch := {}
  /-- memories, codes, poison, retirement -/
  mem : Memory := {}
  /-- history -/
  hist : History := {}
  /-- stream ingress and front end -/
  ing : Ingress := {}
  /-- sessions -/
  comms : Comms := {}
  /-- images, firmware banks, swaps -/
  img : Images := {}
  /-- issued result records, oldest first, R414 -/
  results : List ResultRec := []
  /-- J4 and advisory rules -/
  io : Io := {}
  /-- trouble words and log -/
  logs : Logs := {}
  /-- array upkeep -/
  upk : Upkeep := {}
  /-- store controller -/
  store : Store := {}
  /-- option area -/
  opt : Options := {}
  /-- trust area -/
  trust : Trust := {}
  /-- checkpoints -/
  ckpt : Ckpts := {}
  /-- Kennel -/
  kennel : Kennel := {}
  /-- pack -/
  pack : Pack := {}
  /-- what has left the module, oldest first -/
  out : List Out := []
  /-- MODEL's own: draws made from the free values of Config -/
  draws : Nat := 0
  deriving DecidableEq, Repr

/-- Why the block stops with a fault. -/
inductive Fault where
  /-- Raised by a step record whose operands name a byte outside every memory (R208, R253): the image checks keep such records
  out, so a run with a checked image never meets it. Safe. -/
  | outsideMemory (space : Space) (addr : Nat)
  deriving DecidableEq, Repr

/-- Why the block has no meaning to give. -/
inductive Refusal where
  /-- Raised only by an arm of `exec` that has no meaning yet. Safe. -/
  | notModelled (mnemonic : String)
  deriving DecidableEq, Repr

/-- The module as shipped, with no feed: the state before any start (R489); every field at the value its part gives. -/
def State.reset : State := {}

end Sys2Proof.Machine
end

