-- ==== Sys2Proof/Machine/Ops.lean ====
section
/-! DEFINITION. The named operations that every family of commands uses: reading and writing the parts of the state,
commits, log records, trouble bits, notifies and sessions, bytes of memory with poison and vacancy. -/

namespace Sys2Proof.Machine

open Sys2Proof

/-- What a command answers. -/
abbrev Outc := Host.Outcome State Fault Refusal

/-! ## Reading the parts -/

/-- Engine `e`. -/
def State.engine (s : State) (e : Nat) : Engine := Tab.get {} s.engines e
/-- Core `k`. -/
def State.core (s : State) (k : Nat) : Core := Tab.get {} s.cores k
/-- Thread `t`. -/
def State.thread (s : State) (t : Nat) : Thread := Tab.get {} s.threads t
/-- Ring `64 * cluster + r`. -/
def State.ring (s : State) (r : Nat) : Ring := Tab.get {} s.rings r
/-- The descriptors on a channel. -/
def State.channel (s : State) (c : Nat) : List Flight := Tab.get [] s.channels c
/-- Physical counter `p`. -/
def State.counter (s : State) (p : Nat) : Counter := Tab.get {} s.sync.counters p
/-- Context `c`. -/
def State.ctx (s : State) (c : Nat) : Ctx := Tab.get {} s.ctxs c
/-- Stream slot `n`. -/
def State.slot (s : State) (n : Nat) : Slot := Tab.get {} s.ing.slots n
/-- Session `n`, where open. -/
def State.sess (s : State) (n : Nat) : Option Session := Tab.get none s.comms.sessions n
/-- Clock of compute stack `k`. -/
def State.clk (s : State) (k : Nat) : StackClk := Tab.get {} s.clks k
/-- Pack port `p`. -/
def State.pport (s : State) (p : Nat) : PackPort := Tab.get {} s.pack.ports p
/-- Temperature of sensor `i`, 0.1 °C. -/
def State.temp (s : State) (i : Nat) : Int := Tab.get 250 s.temps i
/-- Operation in progress on engine `e`. -/
def State.op (s : State) (e : Nat) : Option OpRun := Tab.get none s.upk.ops e

/-- A panel as shipped: slots 0 to 7 active, slot 8 the spare (R52). -/
def panelShipped (e : Nat) : Panel := if e % 9 = 8 then { pstate := 1 } else {}
/-- The panel word of engine `e`. -/
def State.panel (s : State) (e : Nat) : Panel := Tab.get (panelShipped e) s.upk.panels e
/-- A plane as shipped, `17 * engine + physical plane`: erased; plane 16 spare (R75). -/
def planeShipped (k : Nat) : PlaneEnt := if k % 17 = 16 then { state := 2 } else {}
/-- The plane entry `17 * engine + physical plane`. -/
def State.plane (s : State) (k : Nat) : PlaneEnt := Tab.get (planeShipped k) s.upk.planes k

/-! ## Writing the parts -/

/-- Change engine `e`. -/
def State.updEngine (s : State) (e : Nat) (f : Engine → Engine) : State := { s with engines := Tab.upd {} s.engines e f }
/-- Change core `k`. -/
def State.updCore (s : State) (k : Nat) (f : Core → Core) : State := { s with cores := Tab.upd {} s.cores k f }
/-- Change thread `t`. -/
def State.updThread (s : State) (t : Nat) (f : Thread → Thread) : State := { s with threads := Tab.upd {} s.threads t f }
/-- Change a ring. -/
def State.updRing (s : State) (r : Nat) (f : Ring → Ring) : State := { s with rings := Tab.upd {} s.rings r f }
/-- Set what a channel carries. -/
def State.setChannel (s : State) (c : Nat) (v : List Flight) : State := { s with channels := Tab.set [] s.channels c v }
/-- Change a counter. -/
def State.updCounter (s : State) (p : Nat) (f : Counter → Counter) : State :=
  { s with sync := { s.sync with counters := Tab.upd {} s.sync.counters p f } }
/-- Change a context. -/
def State.updCtx (s : State) (c : Nat) (f : Ctx → Ctx) : State := { s with ctxs := Tab.upd {} s.ctxs c f }
/-- Change a stream slot. -/
def State.updSlot (s : State) (n : Nat) (f : Slot → Slot) : State :=
  { s with ing := { s.ing with slots := Tab.upd {} s.ing.slots n f } }
/-- Set session `n`. -/
def State.setSess (s : State) (n : Nat) (v : Option Session) : State :=
  { s with comms := { s.comms with sessions := Tab.set none s.comms.sessions n v } }
/-- Change session `n` where it is open. -/
def State.updSess (s : State) (n : Nat) (f : Session → Session) : State := s.setSess n ((s.sess n).map f)
/-- Change a stack's clock. -/
def State.updClk (s : State) (k : Nat) (f : StackClk → StackClk) : State := { s with clks := Tab.upd {} s.clks k f }
/-- Change a pack port. -/
def State.updPort (s : State) (p : Nat) (f : PackPort → PackPort) : State :=
  { s with pack := { s.pack with ports := Tab.upd {} s.pack.ports p f } }
/-- Set the operation in progress on an engine. -/
def State.setOp (s : State) (e : Nat) (v : Option OpRun) : State :=
  { s with upk := { s.upk with ops := Tab.set none s.upk.ops e v } }
/-- Change a panel word; the tables then differ from those stored (R188). -/
def State.updPanel (s : State) (e : Nat) (f : Panel → Panel) : State :=
  { s with upk := { s.upk with panels := Tab.upd (panelShipped e) s.upk.panels e f, dirty := true } }
/-- Change a plane entry; the tables then differ from those stored (R188). -/
def State.updPlane (s : State) (k : Nat) (f : PlaneEnt → PlaneEnt) : State :=
  { s with upk := { s.upk with planes := Tab.upd (planeShipped k) s.upk.planes k f, dirty := true } }
/-- Something leaves the module. -/
def State.emit (s : State) (o : Out) : State := { s with out := s.out ++ [o] }
/-- A draw from a free value: the state with the draw counted. -/
def State.draw (s : State) : State := { s with draws := s.draws + 1 }

/-- Run `f` over a list, in order. -/
def State.each {α : Type} (s : State) : List α → (State → α → State) → State
  | [], _ => s
  | n :: ns, f => (f s n).each ns f

/-! ## Life -/

/-- Firmware runs and the command ports answer: boot state, Ready or Rest (R487, R68). -/
def State.fwUp (s : State) : Bool :=
  match s.life.phase with
  | .boot | .ready | .rest => true
  | _ => false

/-- The command and stream ports answer: the firmware runs, or the module lies in Rest after a trip (R531). -/
def State.portsUp (s : State) : Bool := s.fwUp || decide (s.life.phase = .tripped)

/-- The module has been Ready since its last start (R488, R68). -/
def State.isReady (s : State) : Bool :=
  match s.life.phase with
  | .ready | .rest => true
  | _ => false

/-- The always-on domain has power. -/
def State.powered (s : State) : Bool := decide (s.life.phase ≠ .unpowered)

/-- PLLs of the base die as started: they run and have not locked yet. -/
def pllsStarted : Tab BasePll := (List.range 6).map (fun n => (n, { running := true }))

/-- Rest ends (R68): the base-die domains that Rest gates are on again, Shepherd, the memory controllers, the store
controller, the crypto unit and base SRAM, 100 to 104 and 108 to 110 by `Dom.key`, and the PLLs of the base die start (R64). -/
def State.wake (s : State) : State :=
  if s.life.phase = .rest then
    { s with
      life := { s.life with phase := .ready }
      plls := pllsStarted
      doms := [100, 101, 102, 103, 104, 108, 109, 110].foldl (fun t k => Tab.set DomState.off t k .on) s.doms }
  else s

/-- One commit (R423); a stamp whose low 31 bits pass zero goes to the store (R424). -/
def State.commit (s : State) : State :=
  let c := s.life.commit + 1
  { s with life := { s.life with commit := c, storedStamp := if c % 2 ^ 31 = 0 then c else s.life.storedStamp } }

/-! ## Option values, images, members -/

/-- Values loaded at reset (R486). -/
def State.optv (s : State) : OptCopy := s.opt.loaded

/-- Ordering code SP7264-D2 (R2). -/
def OptCopy.isD2 (o : OptCopy) : Bool := (o.order.getD 8 0).toNat == 0x32

/-- The image in force (R496), where one is. -/
def State.image (s : State) : Option Image :=
  if s.img.good || s.img.codesBad then
    match s.img.active with
    | some 0 => s.img.slot0.image
    | some _ => s.img.slot1.image
    | none => none
  else none

/-- Slot `n` of the store's image slots. -/
def State.imgSlot (s : State) (n : Nat) : ImgSlot := if n = 0 then s.img.slot0 else s.img.slot1

/-- Change an image slot. -/
def State.updImgSlot (s : State) (n : Nat) (f : ImgSlot → ImgSlot) : State :=
  { s with img := if n = 0 then { s.img with slot0 := f s.img.slot0 } else { s.img with slot1 := f s.img.slot1 } }

/-- The image slot not in force (R190). -/
def State.inactive (s : State) : Nat := if s.img.active = some 0 then 1 else 0

/-- The member that a context runs (R293). -/
def State.member (s : State) (c : Nat) : Option Member :=
  match s.image with
  | none => none
  | some i => if c = 0 then i.watch else i.inspect

/-- The description that fixes the front end: both members declare the same (R27). -/
def Image.front (i : Image) : MemberDesc :=
  match i.watch with
  | some m => m.desc
  | none => match i.inspect with | some m => m.desc | none => {}

/-- The front end of the image in force. -/
def State.front (s : State) : MemberDesc := match s.image with | some i => i.front | none => {}

/-- Samples of the reference stream that one token covers, D · P (R28). -/
def State.tokenSpan (s : State) : Nat := s.front.d * s.front.p

/-! ## Packs -/

/-- A module with S = 1 is standalone (R311). -/
def State.standalone (s : State) : Bool := decide (s.optv.psize ≤ 1)

/-- The module acts as lead for L commands: standalone, detached, or the lead (R416). -/
def State.isLead (s : State) : Bool :=
  s.standalone || s.pack.detached || (s.pack.hasLead && decide (s.pack.lead = s.optv.ppos))

/-- The watch role, R547. -/
def State.watchRole (s : State) : Bool :=
  s.standalone
  || (s.pack.detached && decide ((s.ctx 0).state ≠ .free ∧ (s.ctx 0).state ≠ .stopped))
  || (!s.pack.detached && s.pack.admitted && decide (s.pack.fill = s.optv.ppos))

/-- A context is started: Waiting, Running or Shed (Table 8.2). -/
def Ctx.started (c : Ctx) : Bool :=
  match c.state with
  | .waiting | .running | .shed => true
  | _ => false

/-! ## J4 -/

/-- OR of the masks of the asserted rules (R45). -/
def State.ruleMask (s : State) : BitVec 4 :=
  match s.image with
  | none => 0
  | some i => (List.range i.rules.length).foldl
      (fun a n => if (Tab.get {} s.io.rules n).asserted then a ||| ((i.rules.getD n {}).mask) else a) 0

/-- Outputs that rules and other members ask for (R45, R338). -/
def State.asked (s : State) : BitVec 4 := s.io.packOutputs.foldl (fun a o => a ||| o.2) s.ruleMask

/-- The commanded advisory outputs (R544, R545). -/
def State.outputs (s : State) : BitVec 4 := if s.isReady then s.asked &&& ~~~ s.io.cutOff else 0

/-- The health contact is commanded closed (R547). -/
def State.healthy (s : State) : Bool :=
  s.isReady &&
    (match s.image with
     | none => false
     | some i =>
       i.watch.isNone
       || (s.watchRole && (decide ((s.ctx 0).state = .waiting) || decide ((s.ctx 0).state = .running)))
       || (!s.standalone && !s.watchRole && s.pack.admitted && !s.pack.detached && s.pack.hasLead))

/-- The sensed health contact (R548). -/
def State.hsense (s : State) : Bool := s.io.hStuck.getD s.healthy

/-- The condition of the OUTPUT level bit (R544, R545, R548). -/
def State.outputBad (s : State) : Bool :=
  s.io.stuck.any (fun p => s.outputs.getLsbD p.1 != p.2)
  || (match s.io.hStuck with | some v => v != s.healthy | none => false)
  || decide (s.io.cutOff ≠ 0)

/-- An output that its rules have released may be asserted again after an overcurrent (R545). -/
def State.releaseCut (s : State) : State := { s with io := { s.io with cutOff := s.io.cutOff &&& s.asked } }

/-! ## History -/

/-- A slot of the history. -/
def State.hslot (s : State) (k : Nat) : HistSlot := Tab.get {} s.hist.slots k

/-- A history slot holds a token. -/
def HistSlot.holds (h : HistSlot) : Bool := h.written && decide (h.flags / 8 % 2 = 0)

/-- The newest token held, where one is (R211). -/
def State.newest (s : State) : Option HistSlot :=
  if s.hist.cap = 0 then none
  else
    let h := s.hslot ((s.hist.write + s.hist.cap - 1) % s.hist.cap)
    if h.holds then some h else none

/-- Newest held reference sample index: the last sample of the newest token (Table 12.8). -/
def State.newestSidx (s : State) : Option Nat := s.newest.map (fun h => h.sidx + s.tokenSpan - 1)

/-! ## Sessions: notifies -/

/-- Where a session's packets leave: both ports in PRP mode (6), else the port of its last valid record (R392, R393). -/
def State.outPort (s : State) (x : Session) : Nat := if s.comms.prp then 6 else x.port

/-- A notify leaves in a record of its own (R418). -/
def State.sendNotify (s : State) (sid : Nat) (n : Notify) : State :=
  match s.sess sid with
  | none => s
  | some x =>
    (s.emit (.notify sid x.txNext (s.outPort x) n)).setSess sid (some { x with txNext := x.txNext + 1 })

/-- A notify enters a session's ring and is sent; a full ring discards and counts it (R421). -/
def State.notify (s : State) (sid opcode ctx : Nat) (st : Status) (detail : Nat) (tlvs : List Tlv) : State :=
  match s.sess sid with
  | none => s
  | some x =>
    if x.notifies.length ≥ 256 then
      s.setSess sid (some { x with nlost := satAdd 32 x.nlost 1, lossDue := true })
    else
      let n : Notify := { opcode := opcode, ctx := ctx, nseq := x.nextNotify, loss := x.lossDue, status := st,
                          detail := detail, commit := s.life.commit, tlvs := tlvs }
      (s.setSess sid (some { x with notifies := x.notifies ++ [n], nextNotify := (x.nextNotify + 1) % 2 ^ 32,
                                    lossDue := false })).sendNotify sid n

/-- The open sessions. -/
def State.sids (s : State) : List Nat := s.comms.sessions.map Prod.fst

/-- The completion notify of an accepted command (R418): CSEQ, then the command's reply TLVs, renumbered after it. -/
def State.complete (s : State) (who : Option (Nat × Nat)) (opcode ctx : Nat) (st : Status) (detail : Nat)
    (tlvs : List Tlv) : State :=
  match who with
  | none => s
  | some (sid, seq) =>
    s.notify sid (opcode + 0x80) ctx st detail ((1, be 4 seq) :: tlvs.map (fun t => (t.1 + 1, t.2)))

/-! ## Log and trouble words, R452 to R460 -/

/-- The key of the rate limit: CODE and LOC (R460). -/
def LogEv.key (e : LogEv) : Nat := e.code * 2 ^ 32 + e.loc

/-- The record of an event at the present commit, Table 12.8. -/
def State.mkLog (s : State) (e : LogEv) (tb : Option (Nat × Nat)) : LogRec :=
  { lseq := s.logs.nextLseq, commit := s.life.commit, tick := s.life.now, sidx := s.newestSidx, poc := s.life.poc,
    loc := e.loc, bunit := e.bunit, ctx := e.ctx, code := e.code, tbit := tb, detail := e.detail }

/-- Stage a record (R458). -/
def State.putLog (s : State) (r : LogRec) : State :=
  { s with logs := { s.logs with staged := s.logs.staged ++ [r], nextLseq := s.logs.nextLseq + 1 } }

/-- A record under the rate limit of R460; each record is a commit. -/
def State.logLimited (s : State) (e : LogEv) (tb : Option (Nat × Nat)) : State :=
  if Tab.get 0 s.logs.written e.key < 16 then
    let s1 := s.commit
    let s2 := s1.putLog (s1.mkLog e tb)
    { s2 with logs := { s2.logs with written := Tab.upd 0 s2.logs.written e.key (· + 1) } }
  else
    { s with logs := { s.logs with suppressed := Tab.upd 0 s.logs.suppressed e.key (· + 1) } }

/-- A log record that sets no trouble bit. -/
def State.log (s : State) (e : LogEv) : State := s.logLimited e none

/-- A trouble word. -/
def Logs.word (l : Logs) (w : Nat) : BitVec 32 := if w = 0 then l.word0 else if w = 1 then l.word1 else l.word2

/-- Replace a trouble word. -/
def Logs.setWord (l : Logs) (w : Nat) (v : BitVec 32) : Logs :=
  if w = 0 then { l with word0 := v } else if w = 1 then { l with word1 := v } else { l with word2 := v }

/-- The twelve bytes of the three trouble words. -/
def Logs.bytes (l : Logs) : List Byte := be 4 l.word0.toNat ++ be 4 l.word1.toNat ++ be 4 l.word2.toNat

/-- EVENT to every session whose mask includes the bit (Table 11.12). -/
def State.eventNotify (s : State) (w b : Nat) (r : LogRec) : State :=
  s.each s.sids fun s sid =>
    match (s.sess sid).bind (·.events) with
    | none => s
    | some m => if m.testBit (32 * (2 - w) + b) then
        s.notify sid 0x09C0 0xFFFF .ok 0 [(1, be 1 w), (2, be 4 (2 ^ b)), (3, r.bytes)] else s

/-- An event of trouble bit `b` of word `w` with a code of Table 12.7: the bit, its record and the notify are one commit. -/
def State.troubleAs (s : State) (w b : Nat) (e : LogEv) : State :=
  if (s.logs.word w).getLsbD b then s.logLimited e (some (w, b))
  else
    let s1 := s.commit
    let r := s1.mkLog e (some (w, b))
    let s2 := s1.putLog r
    let s3 := { s2 with logs := s2.logs.setWord w (s2.logs.word w ||| (1#32 <<< b)) }
    s3.eventNotify w b r

/-- The code of a trouble bit (R452). -/
def bitCode (w b : Nat) : Nat := 0x100 * (w + 1) + b

/-- An event of trouble bit `b` of word `w`, under the code of R452. -/
def State.trouble (s : State) (w b : Nat) (loc bunit ctx : Nat) (detail : List Nat) : State :=
  s.troubleAs w b { code := bitCode w b, loc := loc, bunit := bunit, ctx := ctx, detail := detail }

/-- A trouble event of the module itself, with the source unit of Table 12.8. -/
def State.raise (s : State) (w b bunit : Nat) : State := s.trouble w b 0 bunit 0xFF []

/-! ## Sessions: replies and ends -/

/-- A reply leaves in a record of its own (R402). -/
def State.sendReply (s : State) (sid : Nat) (r : Reply) : State :=
  match s.sess sid with
  | none => s
  | some x =>
    (s.emit (.reply sid x.txNext (s.outPort x) r)).setSess sid (some { x with txNext := x.txNext + 1 })

/-- An asking session and SEQ, forgotten where the session is `sid`. -/
def forgetAsk (sid : Nat) (a : Option (Nat × Nat)) : Option (Nat × Nat) :=
  match a with
  | some (n, q) => if n = sid then none else some (n, q)
  | none => none

/-- What a context owes to a session that ends is owed no more. -/
def Ctx.forget (sid : Nat) (c : Ctx) : Ctx :=
  { c with
    stopReq := c.stopReq.map (fun l => l.filter (fun a => decide (a.1 ≠ sid)))
    pass := c.pass.map (fun p => { p with askedBy := forgetAsk sid p.askedBy })
    pend := c.pend.map (fun p => { p with askedBy := forgetAsk sid p.askedBy }) }

/-- Completions owed to a session that ends are owed no more. -/
def State.forget (s : State) (sid : Nat) : State :=
  { s with
    ctxs := Tab.alter {} (Ctx.forget sid) s.ctxs
    img := { s.img with
      swap := s.img.swap.map (fun w => { w with askedBy := forgetAsk sid w.askedBy })
      xfer := s.img.xfer.map (fun x => { x with ending := x.ending.map (fun a => if a.1 = sid then (128, a.2) else a) })
      fwXfer := s.img.fwXfer.map (fun x => { x with ending := x.ending.map (fun a => if a.1 = sid then (128, a.2) else a) }) }
    upk := { s.upk with
      replan := s.upk.replan.map (fun r => { r with askedBy := forgetAsk sid r.askedBy })
      sweepAsked := s.upk.sweepAsked.filter (fun a => a.2.1 ≠ sid) }
    ckpt := { s.ckpt with asked := s.ckpt.asked.filter (fun a => a.1 ≠ sid) } }

/-- Armed thresholds of a session end with it (R401). -/
def State.dropThresholds (s : State) (sid : Nat) : State :=
  s.each (s.sync.counters.map Prod.fst) fun s p =>
    s.updCounter p (fun c => { c with thresholds := c.thresholds.filter (fun t => t.sid ≠ sid) })

/-- A session ends (R401): its subscriptions, thresholds and pending commands with it; SESSION_END with its cause where
`cause` is not 0 (Table 11.13). -/
def State.endSession (s : State) (sid cause : Nat) : State :=
  match s.sess sid with
  | none => s
  | some _ =>
    let s1 := if cause = 0 then s else s.notify sid 0x00C0 0xFFFF .ok cause []
    ((s1.dropThresholds sid).forget sid).setSess sid none

/-- Every session ends at a restart (R401, R419). -/
def State.endSessions (s : State) (cause : Nat) : State := s.each s.sids (fun s n => s.endSession n cause)

/-! ## Bytes of memory: 06_tiers_and_shuttles.md, 12_keeping_data_whole.md -/

/-- Bytes of each memory, Tables 6.1 and 6.2. -/
def Space.size : Space → Nat
  | .engine => 2304 * 65536
  | .core => 256 * 524288
  | .cluster => 32 * 4194304
  | .base => 0x3800000
  | .board => 2 ^ 37

/-- A number for each memory. -/
def Space.idx : Space → Nat
  | .engine => 0 | .core => 1 | .cluster => 2 | .base => 3 | .board => 4

/-- Bytes that share one poison mark: a 16 B beat of board memory, a 64-bit SRAM word (R439). -/
def Space.grain : Space → Nat
  | .board => 16
  | _ => 8

/-- The bytes of a memory. -/
def Memory.tab (m : Memory) : Space → Tab Byte
  | .engine => m.engine | .core => m.core | .cluster => m.cluster | .base => m.base | .board => m.board

/-- Replace the bytes of a memory. -/
def Memory.setTab (m : Memory) (sp : Space) (t : Tab Byte) : Memory :=
  match sp with
  | .engine => { m with engine := t }
  | .core => { m with core := t }
  | .cluster => { m with cluster := t }
  | .base => { m with base := t }
  | .board => { m with board := t }

/-- The valid bit of a 4 KiB block of board memory is clear (R434, R217). -/
def Memory.clear (m : Memory) (blk : Nat) : Bool := Tab.get false m.invalid blk

/-- One byte of memory: an unlisted byte is zero (R433, R436); a block whose valid bit is clear reads as zeros (R434). -/
def Memory.read (m : Memory) (sp : Space) (a : Nat) : Byte :=
  if sp = .board ∧ m.clear (a / 4096) then 0 else Tab.get 0 (m.tab sp) a

/-- The poison mark of the word or beat that holds a byte. -/
def poisonKey (sp : Space) (a : Nat) : Nat := 5 * (a / sp.grain) + sp.idx

/-- The vacancy bit of the 64 B line that holds a byte of SRAM (R217). -/
def lineKey (sp : Space) (a : Nat) : Nat := 5 * (a / 64) + sp.idx

/-- The byte's SRAM line is vacant. -/
def Memory.vacantAt (m : Memory) (sp : Space) (a : Nat) : Bool :=
  decide (sp ≠ .board) && Tab.get false m.vacant (lineKey sp a)

/-- A read of the byte delivers poison: its word is poisoned, its line vacant (R218), its block on the poison list (R435). -/
def Memory.poisonAt (m : Memory) (sp : Space) (a : Nat) : Bool :=
  if sp = .board then
    !m.clear (a / 4096) && (Tab.get false m.poison (poisonKey sp a) || m.poisonList.contains (a / 4096))
  else Tab.get false m.poison (poisonKey sp a) || Tab.get false m.vacant (lineKey sp a)

/-- Bytes listed in a block, dropped: the first write into a clear block fills the rest with zero (R434). -/
def Memory.freshen (m : Memory) (sp : Space) (a : Nat) : Memory :=
  if sp = .board ∧ m.clear (a / 4096) then
    { m with
      board := m.board.filter (fun e => decide (e.1 / 4096 ≠ a / 4096))
      poison := m.poison.filter (fun e => !(decide (e.1 % 5 = 4) && decide (e.1 / 5 / 256 = a / 4096)))
      invalid := Tab.set false m.invalid (a / 4096) false }
  else if decide (sp ≠ .board) then { m with vacant := Tab.set false m.vacant (lineKey sp a) false }
  else m

/-- Write one byte: a vacant line or clear block becomes valid again (R217). -/
def Memory.write (m : Memory) (sp : Space) (a : Nat) (b : Byte) : Memory :=
  let m1 := m.freshen sp a
  m1.setTab sp (Tab.set 0 (m1.tab sp) a b)

/-- Set the poison mark of the word or beat that holds a byte (R439). -/
def Memory.setPoison (m : Memory) (sp : Space) (a : Nat) (p : Bool) : Memory :=
  { m with poison := Tab.set false m.poison (poisonKey sp a) p }

/-- Bytes `a`, `a + 1`, … of a memory. -/
def Memory.bytes (m : Memory) (sp : Space) (a n : Nat) : List Byte := (List.range n).map (fun i => m.read sp (a + i))

/-- Any of `n` bytes delivers poison. -/
def Memory.anyPoison (m : Memory) (sp : Space) (a n : Nat) : Bool := (List.range n).any (fun i => m.poisonAt sp (a + i))

/-- Any of `n` bytes lies in a vacant line. -/
def Memory.anyVacant (m : Memory) (sp : Space) (a n : Nat) : Bool := (List.range n).any (fun i => m.vacantAt sp (a + i))

/-- Write bytes in order. -/
def Memory.writes (m : Memory) (sp : Space) : Nat → List Byte → Memory
  | _, [] => m
  | a, b :: bs => (m.write sp a b).writes sp (a + 1) bs

/-- Poison marks after a write of `n` bytes at `a`: every word touched is poisoned where the data is; a word written in
full by clean data is clean; a word written in part keeps its mark. -/
def Memory.marks (m : Memory) (sp : Space) (a n : Nat) (poison : Bool) : Memory :=
  if n = 0 then m
  else
    let first := a / sp.grain
    let last := (a + n - 1) / sp.grain
    (List.range (last + 1 - first)).foldl
      (fun m i =>
        let w := first + i
        let full := decide (a ≤ w * sp.grain) && decide ((w + 1) * sp.grain ≤ a + n)
        if poison then m.setPoison sp (w * sp.grain) true
        else if full then m.setPoison sp (w * sp.grain) false else m) m

/-- Blocks of the poison list that a write covers in full leave it (R435). -/
def Memory.unlist (m : Memory) (sp : Space) (a n : Nat) : Memory :=
  if sp = .board then
    { m with poisonList := m.poisonList.filter (fun k => !(decide (a ≤ 4096 * k) && decide (4096 * k + 4096 ≤ a + n))) }
  else m

/-- Write bytes with their poison. -/
def Memory.store (m : Memory) (sp : Space) (a : Nat) (bs : List Byte) (poison : Bool) : Memory :=
  ((m.writes sp a bs).marks sp a bs.length poison).unlist sp a bs.length

/-- Words of `n` bytes from `a` that lie wholly inside. -/
def wholly (g a n w : Nat) : Bool := decide (a ≤ w * g) && decide ((w + 1) * g ≤ a + n)

/-- Zeros over `n` bytes: the bytes, and the marks of the words, lines and blocks they fill (R217, R235, R434). -/
def Memory.zeroFill (m : Memory) (sp : Space) (a n : Nat) : Memory :=
  if n = 0 then m
  else
    let out := fun (x : Nat) => decide (x < a) || decide (a + n ≤ x)
    let m1 := if sp = .board then
        (List.range ((a + n - 1) / 4096 + 1 - a / 4096)).foldl (fun m i => m.freshen sp ((a / 4096 + i) * 4096)) m
      else { m with vacant := m.vacant.filter (fun e =>
        decide (e.1 % 5 ≠ sp.idx) || decide (e.1 / 5 < a / 64) || decide ((a + n - 1) / 64 < e.1 / 5)) }
    ({ (m1.setTab sp ((m1.tab sp).filter (fun e => out e.1))) with
        poison := m1.poison.filter (fun e => decide (e.1 % 5 ≠ sp.idx) || !wholly sp.grain a n (e.1 / 5)) }).unlist sp a n

/-- Change the memories. -/
def State.updMem (s : State) (f : Memory → Memory) : State := { s with mem := f s.mem }

/-- The index entries of a history that is emptied have their reset value again (Table 6.3). -/
def State.clearIndex (s : State) : State :=
  (s.hist.slots.map (fun e => e.1 / 16)).dedup.foldl (fun s j => s.updMem (fun m => m.store .board (16 * j) (List.replicate 16 0) false)) s

/-- Engine or core that a byte of SRAM lies in, as a location word for the log. -/
def Space.loc (sp : Space) (a : Nat) : Nat :=
  match sp with
  | .engine => locEngine (a / 65536)
  | .core => locCore (a / 524288)
  | .cluster => locCluster (a / 4194304)
  | _ => 0

/-- BUNIT of a memory with LOC at LEVEL 0: the controller of a board address (bits [9:8], R236), base SRAM. -/
def Space.bunit (sp : Space) (a : Nat) : Nat :=
  match sp with
  | .board => 2 + a / 256 % 4
  | .base => 11
  | _ => 0

/-- DETAIL of a memory event: address or offset, device or bit, syndrome class. -/
def memDetail (a dev cls : Nat) : List Nat := (be 8 a).map (·.toNat) ++ [dev, cls]

/-- A read found a vacant SRAM line (R218). -/
def State.homeEvent (s : State) (sp : Space) (a ctx : Nat) : State :=
  s.trouble 2 2 (sp.loc a) (sp.bunit a) ctx (memDetail a 0 0)

end Sys2Proof.Machine
end

