-- ==== Sys2Proof/Machine/Domains.lean ====
section
/-! DEFINITION. Power domains, projected draw and the budget in force: 02_engine_to_package.md, 08_periods_and_budgets.md. -/

namespace Sys2Proof.Machine

open Sys2Proof

/-- The 112 domains of Table 2.6 numbered: core groups by `2 * global cluster + group`, then the others in its order. -/
def Dom.key : Dom → Nat
  | .coreGroup g => g
  | .clusterCommon c => 64 + c
  | .chargePump s => 96 + s
  | .shepherd => 100
  | .memCtl i => 101 + i
  | .packPorts => 105
  | .streamIngress => 106
  | .commandPorts => 107
  | .storeCtl => 108
  | .crypto => 109
  | .baseSram => 110
  | .alwaysOn => 111

/-- The domain exists. -/
def Dom.exists? : Dom → Bool
  | .coreGroup g => decide (g < 64)
  | .clusterCommon c => decide (c < 32)
  | .chargePump s => decide (s < 4)
  | .memCtl i => decide (i < 4)
  | _ => true

/-- State of a domain. -/
def State.dom (s : State) (d : Dom) : DomState := Tab.get .off s.doms d.key

/-- Set the state of a domain. -/
def State.setDom (s : State) (d : Dom) (v : DomState) : State := { s with doms := Tab.set .off s.doms d.key v }

/-- The domain is on. -/
def State.domOn (s : State) (d : Dom) : Bool := decide (s.dom d = .on)

/-- Global cluster of a thread. -/
def clusterOf (t : Nat) : Nat := t / 128
/-- Core group of a thread. -/
def groupOf (t : Nat) : Nat := t / 64

/-- The arithmetic clock step in force in a stack: the lower of the budget's and the thermal one, 0 while its PLLs are
stopped (R66, R305). -/
def StackClk.step (c : StackClk) : Nat := if c.running then min c.budgetStep c.thermStep else 0

/-- The budget in force, 0.1 W: never above the 410 W of R73 (R304); while the hold-up energy lies below 4.92 J, capped at
that energy ÷ 12 ms, and never below 60 W (R520). -/
def State.inForce (s : State) : Nat :=
  let b := 10 * min 410 (if s.supply.active = some .backup then s.supply.backupBudget else s.supply.mainBudget)
  if s.supply.holdupMj < 4920 then min b (max 600 (s.supply.holdupMj * 10 / 12)) else b

/-- Contexts that run: Waiting or Running (R306). -/
def Ctx.live (c : Ctx) : Bool :=
  match c.state with
  | .waiting | .running => true
  | _ => false

/-- A draw estimate scaledDraw to a clock step (R303). The manual gives no law; it is taken in proportion (assumption 22). -/
def scaledDraw (est k : Nat) : Nat := est * k / 8

/-- Declared draw of upkeep work of priorities 1 and 2 that is due (R303, R306). -/
def State.upkeepDue (s : State) : Nat :=
  ((s.upk.queue.filter (fun w => decide (w.prio ≤ 2))).map (fun w => Config.upkeepDraw w.engine)).sum
    + ((s.upk.ops.filterMap (fun p => p.2.map (fun r => (p.1, r.work.prio)))).map (fun q => Config.upkeepDraw q.1)).sum

/-- Projected draw at a clock step with the contexts that `keep` admits (R303). -/
def State.projected (s : State) (k : Nat) (keep : Nat → Ctx → Bool) : Nat :=
  s.supply.sharedDraw + s.upkeepDue
    + ((s.ctxs.filter (fun p => keep p.1 p.2)).map (fun p => scaledDraw p.2.estimate k)).sum

/-- The highest clock step of the running stacks; 8 where none runs. -/
def State.topStep (s : State) : Nat :=
  let l := (List.range 4).filter (fun k => (s.clk k).running)
  if l.isEmpty then 8 else l.foldl (fun a k => max a (s.clk k).step) 0

/-- Priority of a context (R294). -/
def State.prioOf (s : State) (c : Nat) : Nat := if c = 0 then 255 else (s.ctx c).prio

/-- Lower in the order of shedding: lower priority first, then the higher number (R306). -/
def State.shedBefore (s : State) (a b : Nat) : Bool :=
  decide (s.prioOf a < s.prioOf b) || (decide (s.prioOf a = s.prioOf b) && decide (b < a))

/-- The first of some contexts in an order. -/
def firstBy (before : Nat → Nat → Bool) : List Nat → Option Nat
  | [] => none
  | a :: rest =>
    match firstBy before rest with
    | none => some a
    | some b => if before b a then some b else some a

/-- Inspect contexts that run. -/
def State.liveInspects (s : State) : List Nat :=
  (s.ctxs.filter (fun p => decide (p.1 ≠ 0) && p.2.live)).map Prod.fst

/-- A power-up that the budget holds until the next schedule boundary: HELD, and the lowest running inspect context of lower
priority is marked to be shed at that boundary (R71, R309). -/
def State.holdPower (s : State) (d : Dom) (ctx : Nat) : State :=
  let s0 := { s with supply := { s.supply with waiting := s.supply.waiting ++ [(d, ctx)] } }
  let s1 := (s0.updCtx ctx (fun c => { c with held := true })).trouble 0 9 0 12 ctx []
  match firstBy s1.shedBefore (s1.liveInspects.filter (fun c => decide (c ≠ ctx))) with
  | none => s1
  | some c => if s1.prioOf c < s1.prioOf ctx then s1.updCtx c (fun x => { x with shedQ := true }) else s1

/-- Start the PLLs of a stack (R65). -/
def State.startPlls (s : State) (k : Nat) : State :=
  s.updClk k (fun c => if c.running || c.dead then c
    else { c with running := true, arithLocked := false, netLocked := false, arithTries := 0, netTries := 0 })

/-- Start a domain's power-up, and that of what it needs before it (R69). -/
def State.wakeDom (s : State) (d : Dom) : State :=
  match d with
  | .coreGroup g =>
    let s1 := s.startPlls (g / 16)
    let s2 := if s1.dom (.clusterCommon (g / 2)) = .off then s1.setDom (.clusterCommon (g / 2)) .waking else s1
    s2.setDom d .waking
  | .clusterCommon c => (s.startPlls (c / 8)).setDom d .waking
  | _ => s.setDom d .waking

/-- The power-up of a domain: the domain, and its cluster's common domain where that is off too (R69). -/
def State.powerUpOf (s : State) (d : Dom) : List Nat :=
  match d with
  | .coreGroup g => if s.dom (.clusterCommon (g / 2)) = .off then [d.key, (Dom.clusterCommon (g / 2)).key] else [d.key]
  | _ => [d.key]

/-- A power-up would take the draw beyond the budget in force, with the power-ups in progress counted (R71). -/
def State.overBudget (s : State) (d : Dom) : Bool :=
  let waking := (s.doms.filter (fun e => decide (e.2 = .waking))).map Prod.fst
  decide (s.inForce < s.projected s.topStep (fun _ c => c.live) + ((waking ++ s.powerUpOf d).map Config.powerUpDraw).sum)

/-- Ask for a domain's power on behalf of a context; a power-up that is held waits for the next schedule boundary (R69, R71,
R309). -/
def State.askPower (s : State) (d : Dom) (ctx : Nat) : State :=
  if s.dom d ≠ .off ∨ s.supply.waiting.any (fun w => decide (w.1 = d)) = true then s
  else if s.overBudget d then s.holdPower d ctx
  else s.wakeDom d

end Sys2Proof.Machine
end

