-- ==== Sys2Proof/Machine/Link.lean ====
section
/-! DEFINITION. Sending on the pack ports: peers and routes, credits, replay, flooding (R317 to R327). Ports A to D are
0 to 3. -/

namespace Sys2Proof.Machine

open Sys2Proof

/-- Peer position of a port in a pack of size `size` (Table 9.2). -/
def peerPos (port p size : Nat) : Nat :=
  match port with
  | 0 => (p + 1) % size
  | 1 => (p + size - 1) % size
  | 2 => (p + 8) % size
  | _ => (p + 8 * size - 8) % size

/-- Peer port (Table 9.2). -/
def peerPort (port : Nat) : Nat := if port % 2 = 0 then port + 1 else port - 1

/-- The port is used at this size (Table 9.2). -/
def portUsed (port size : Nat) : Bool := if port < 2 then decide (2 ≤ size) else decide (9 ≤ size)

/-- Receive buffer of a class in credits of 64 B (Table 9.6). -/
def creditMax (cls : Nat) : Nat :=
  match cls with
  | 1 | 6 => 512
  | 4 => 256
  | 0 => 0
  | _ => 64

/-- Bytes of a combine pair list. -/
def pairBytes (n : Nat) : Nat := 8 * n

/-- Payload bytes of a frame, or of a whole message with its exchange header (Tables 9.5, 9.7, 9.8). -/
def PackBody.bytes : PackBody → Nat
  | .idle => 0 | .hello .. => 40 | .nak _ => 4 | .credit _ => 12
  | .write d => d.length | .signal .. => 16 | .writeDone _ => 4
  | .token _ _ b => 16 + b.length | .tokenAck _ => 8
  | .memberHb .. => 24 | .leadHb .. => 308 | .leadClaim .. => 8 | .release .. => 12 | .advisory .. => 16
  | .passStart .. => 32 | .passDone .. => 20 | .swapReady .. => 20 | .swapAt .. => 24 | .swapCommit .. => 24
  | .tally _ e => 4 + 12 * e.length | .handoverPrep .. => 24
  | .scanPrefix _ _ _ p | .scanSuffix _ _ _ p | .scanColumn _ _ _ p => 20 + pairBytes p.length
  | .halo _ _ b => 20 + b.length
  | .handover _ m => 16 + 28 + m.state.length + 128 + 2 * m.scales.length
  | .snapshot _ u => 20 + 16 * u.length | .scaleSet _ u => 20 + 8 * u.length
  | .result _ _ r => 24 + r.len | .resend .. => 28

/-- A length rounded up to a multiple of 4 (R320). -/
def up4 (n : Nat) : Nat := (n + 3) / 4 * 4

/-- The headers of the frames that carry a message in the order they are sent: a record of class 4 and a message of class 6 go in
payloads of at most 4,096 bytes, each at its offset within the record or message, the last with LAST set (R320, R322, R333). -/
def PackBody.frames (b : PackBody) (h : PackHdr) : List PackHdr :=
  let n := up4 b.bytes
  if (b.cls = 4 ∨ b.cls = 6) ∧ 4096 < n then
    (List.range ((n + 4095) / 4096)).map (fun i =>
      { h with addr := if b.cls = 4 then 4096 * i - 16 else 4096 * i, len := min 4096 (n - 4096 * i), last := decide (n ≤ 4096 * (i + 1)) })
  else [{ h with len := n }]

/-- Credits that a frame of LEN payload bytes costs (R325). -/
def frameCost (len : Nat) : Nat := (20 + len + 63) / 64

/-- Flooded frames (Table 9.7). -/
def PackBody.flooded : PackBody → Bool
  | .leadHb .. | .leadClaim .. | .release .. | .advisory .. | .passStart .. | .swapAt .. | .swapCommit .. => true
  | _ => false

/-- Bytes in a replay buffer. -/
def PackPort.held (p : PackPort) : Nat := (p.replay.map (fun r => 20 + r.1.len)).sum

/-- The port can start a frame: the link is up, credits cover it, the 64 KiB replay buffer has room (R325, R326). -/
def PackPort.canSend (p : PackPort) (h : PackHdr) (b : PackBody) : Bool :=
  decide (p.state = 3) && decide (frameCost h.len ≤ Tab.get (creditMax b.cls) p.credits b.cls)
    && decide (p.held + 20 + h.len ≤ 65536)

/-- Start a frame: number it, hold it for replay, spend its credits (R320, R325, R326). -/
def State.startFrame (s : State) (port : Nat) (h : PackHdr) (b : PackBody) : State :=
  let p := s.pport port
  let h' := { h with lseq := p.txSeq, ack := (p.rxSeq + 65535) % 65536 }
  (s.updPort port (fun p =>
    { p with
      txSeq := (p.txSeq + 1) % 65536
      replay := p.replay ++ [(h', b, 0)]
      credits := Tab.set (creditMax b.cls) p.credits b.cls (Tab.get (creditMax b.cls) p.credits b.cls - frameCost h.len) })).emit
    (.frame port h' b)

/-- Send priority of a class (Table 9.6). -/
def clsPrio (cls : Nat) : Nat :=
  match cls with
  | 0 => 1 | 5 => 2 | 2 => 3 | 3 => 4 | 4 => 5 | 1 => 6 | _ => 7

/-- The first frame of a queue that has the highest priority among those that can start. -/
def pickFrame (p : PackPort) : Option Nat :=
  ((List.range p.queue.length).foldl
    (fun best i =>
      match p.queue[i]? with
      | none => best
      | some (h, b) =>
        if p.canSend h b then
          match best with
          | none => some (clsPrio b.cls, i)
          | some (k, j) => if clsPrio b.cls < k then some (clsPrio b.cls, i) else some (k, j)
        else best) none).map Prod.snd

/-- Start queued frames in the order of Table 9.6 while any can start. -/
def State.drainPort (s : State) (port : Nat) : Nat → State
  | 0 => s
  | n + 1 =>
    let p := s.pport port
    match pickFrame p with
    | none => s
    | some i =>
      match p.queue[i]? with
      | none => s
      | some (h, b) => ((s.updPort port (fun p => { p with queue := p.queue.eraseIdx i })).startFrame port h b).drainPort port n

/-- Queue frames that carry a message on a port, and start those that can start. -/
def State.sendFrames (s : State) (port : Nat) (hs : List PackHdr) (b : PackBody) : State :=
  let s1 := s.updPort port (fun p => { p with queue := p.queue ++ hs.map (fun h => (h, b)) })
  s1.drainPort port (s1.pport port).queue.length

/-- Put a message of this member on a port; link control needs no credits and no sequence number (Table 9.6). -/
def State.sendOn (s : State) (port : Nat) (h : PackHdr) (b : PackBody) : State :=
  if b.cls = 0 then s.emit (.frame port { h with len := b.bytes, ack := ((s.pport port).rxSeq + 65535) % 65536 } b)
  else s.sendFrames port (b.frames h) b

/-- A link of the link map is up at both ends: port A is bit 3 of a position's nibble (Table 9.7). -/
def State.linkUp (s : State) (p port : Nat) : Bool :=
  let q := peerPos port p s.optv.psize
  portUsed port s.optv.psize && s.pack.live.testBit p && s.pack.live.testBit q
    && (Tab.get 0 s.pack.linkMap p).testBit (3 - port) && (Tab.get 0 s.pack.linkMap q).testBit (3 - peerPort port)

/-- Positions at most `k` hops from `dst` over links that are up. -/
def State.near (s : State) (dst : Nat) : Nat → List Nat
  | 0 => [dst]
  | k + 1 =>
    let l := s.near dst k
    l ++ (List.range s.optv.psize).filter
      (fun p => !l.contains p && (List.range 4).any (fun port => s.linkUp p port && l.contains (peerPos port p s.optv.psize)))

/-- Hops from `p` to `dst`, where a route exists. -/
def State.hops (s : State) (p dst : Nat) : Option Nat := (List.range 64).find? (fun k => (s.near dst k).contains p)

/-- The port of the shortest route to `dst`, the first of A, B, C, D where routes tie (R319); a direct peer before any
link map is known. -/
def State.route (s : State) (dst : Nat) : Option Nat :=
  let me := s.optv.ppos
  let up := (List.range 4).filter (fun p => decide ((s.pport p).state = 3))
  let cost := fun p =>
    let q := peerPos p me s.optv.psize
    if q = dst then some 0 else s.hops q dst
  let best := up.foldl (fun a p =>
    match cost p, a with
    | none, a => a
    | some c, none => some (c, p)
    | some c, some (d, q) => if c < d then some (c, p) else some (d, q)) none
  best.map Prod.snd

/-- A header of this member. -/
def State.hdr (s : State) (dst ctx : Nat) : PackHdr := { src := s.optv.ppos, dst := dst, ctx := ctx }

/-- Send a frame or message to a member; without a route it is dropped and counted on port A. -/
def State.packSend (s : State) (dst ctx : Nat) (b : PackBody) : State :=
  match s.route dst with
  | some port => s.sendOn port (s.hdr dst ctx) b
  | none => s.updPort 0 (fun p => { p with dropped := p.dropped + 1 })

/-- Send a frame on every port that is up but one. -/
def State.floodFrom (s : State) (except_ : Option Nat) (h : PackHdr) (b : PackBody) : State :=
  s.each ((List.range 4).filter (fun p => decide ((s.pport p).state = 3) && decide (except_ ≠ some p)))
    (fun s p => s.sendOn p h b)

/-- Flood a frame of this member. -/
def State.flood (s : State) (ctx : Nat) (b : PackBody) : State := s.floodFrom none (s.hdr 0 ctx) b

/-- Live members as a list of positions. -/
def State.livePos (s : State) : List Nat := (List.range s.optv.psize).filter (fun p => s.pack.live.testBit p)

/-- The next live position after `p`, in cyclic order. -/
def State.nextLive (s : State) (p : Nat) : Option Nat :=
  ((List.range s.optv.psize).map (fun i => (p + 1 + i) % s.optv.psize)).find?
    (fun q => decide (q ≠ p) && s.pack.live.testBit q)

/-- Poison travels with a frame (Table 12.2). -/
def State.packSendP (s : State) (dst ctx : Nat) (poison : Bool) (b : PackBody) : State :=
  match s.route dst with
  | some port => s.sendOn port { s.hdr dst ctx with poison := poison } b
  | none => s.updPort 0 (fun p => { p with dropped := p.dropped + 1 })

/-! ## Receiving -/

/-- Frames that an ACK covers leave the replay buffer. -/
def ackDrop (ack : Nat) (l : List (PackHdr × PackBody × Nat)) : List (PackHdr × PackBody × Nat) :=
  match l.findIdx? (fun r => decide (r.1.lseq = ack)) with
  | some i => l.drop (i + 1)
  | none => l

/-- The peer's ACK frees replay buffer (R326). -/
def State.takeAck (s : State) (port ack : Nat) : State :=
  let s1 := s.updPort port (fun p => { p with replay := ackDrop ack p.replay })
  s1.drainPort port (s1.pport port).queue.length

/-- A port is in use. -/
def State.portLive (s : State) (port : Nat) : Bool := decide ((s.pport port).state = 3)

/-- What a receiver does with a frame of classes 1 to 6 before its type is looked at: drop it on a link not in use or
with a wrong VER, answer a frame out of order with NAK, take its ACK and its place in the sequence, owe its credits, and
relay it where it is for another member (R319, R320, R325, R326). -/
inductive Recv where
  | drop (s : State)
  | take (s : State)

/-- Receive a frame of classes 1 to 6. -/
def State.recv (s : State) (port : Nat) (h : PackHdr) (b : PackBody) : Recv :=
  if s.portLive port = false ∨ s.fwUp = false then .drop s
  else if h.ver ≠ 1 then .drop (s.updPort port (fun p => { p with dropped := p.dropped + 1 }))
  else if h.lseq ≠ (s.pport port).rxSeq then .drop (s.sendOn port (s.hdr h.src 0) (.nak (s.pport port).rxSeq))
  else
    let s1 := (s.takeAck port h.ack).updPort port (fun p =>
      { p with rxSeq := (p.rxSeq + 1) % 65536, owed := Tab.upd 0 p.owed b.cls (· + frameCost h.len) })
    if b.flooded then
      let s2 := if s1.route h.src = some port ∨ s1.route h.src = none then
          (if h.hops + 1 < 15 then s1.floodFrom (some port) { h with hops := h.hops + 1 } b
           else s1.updPort port (fun p => { p with dropped := p.dropped + 1 }))
        else s1
      if h.src = s.optv.ppos then .drop s1 else .take s2
    else if h.dst = s.optv.ppos then .take s1
    else if 15 ≤ h.hops + 1 then .drop (s1.updPort port (fun p => { p with dropped := p.dropped + 1 }))
    else match s1.route h.dst with
      | some out => .drop (s1.sendFrames out [{ h with hops := h.hops + 1 }] b)
      | none => .drop (s1.updPort port (fun p => { p with dropped := p.dropped + 1 }))

/-- A frame joins the others of its message: the message is whole once every offset of it is there, each counted once (R322,
R333). A message of one frame is whole at once. -/
def State.gather (s : State) (h : PackHdr) (b : PackBody) : State × Bool :=
  let at_ := (b.frames h).map (fun x => x.addr)
  if at_.length = 1 then (s, true)
  else
    let got := ((s.pack.parts.find? (fun x => decide (x.1 = h.src ∧ x.2.1 = b))).map (fun x => x.2.2)).getD []
    let now := if at_.contains h.addr ∧ got.contains h.addr = false then got ++ [h.addr] else got
    let rest := s.pack.parts.filter (fun x => !decide (x.1 = h.src ∧ x.2.1 = b))
    if now.length = at_.length then ({ s with pack := { s.pack with parts := rest } }, true)
    else ({ s with pack := { s.pack with parts := rest ++ [(h.src, b, now)] } }, false)

/-- Run `f` on the state after the last missing frame of a message is received for this member. -/
def State.onFrame (s : State) (port : Nat) (h : PackHdr) (b : PackBody) (f : State → State) : Outc :=
  match s.recv port h b with
  | .drop t => .next t
  | .take t =>
    let g := t.gather h b
    .next (if g.2 then f g.1 else g.1)

/-- A link goes down (R326): its replay buffer is dropped, counted by class in the record; the frames that wait behind it are
dropped and counted with the port's others (DESIGN CHOICE, assumption 21). -/
def State.linkDown (s : State) (port : Nat) : State :=
  let p := s.pport port
  let counts := (List.range 6).flatMap (fun c => (be 2 ((p.replay.filter (fun r => decide (r.2.1.cls = c + 1))).length)).map (·.toNat))
  (s.updPort port (fun p => { p with state := 4, downs := min 255 (p.downs + 1), replay := [], credits := [], owed := [], queue := [],
                                     dropped := p.dropped + p.queue.length, txSeq := 0, rxSeq := 0 })).trouble 2 11 0 6 0xFF counts

end Sys2Proof.Machine
end

