-- ==== Sys2Proof/Machine/Operands.lean ====
section
/-! DEFINITION. Operand forms: step records (Tables 7.3 to 7.15), shuttle descriptors (Table 6.5), plane files as bytes
(Table 3.1), packets and their TLV parameters (Tables 11.5 and 11.8). -/

namespace Sys2Proof.Machine

open Sys2Proof

/-! ## Step records -/

/-- Bits `[hi:lo]` of a step record. -/
def rf (r : BitVec 256) (hi lo : Nat) : Nat := bits r.toNat hi lo

/-- KIND, Table 7.4. -/
def rKind (r : BitVec 256) : Nat := rf r 255 252
/-- DEFER. -/
def rDefer (r : BitVec 256) : Bool := rf r 251 251 == 1
/-- END. -/
def rEnd (r : BitVec 256) : Bool := rf r 250 250 == 1

/-- An operand reference, Table 7.7. -/
structure Ref where
  space : Nat
  engine : Nat
  offset : Nat
  deriving DecidableEq, Repr

/-- The operand reference in bits `[lo + 23 : lo]`. -/
def rRef (r : BitVec 256) (lo : Nat) : Ref :=
  let w := rf r (lo + 23) lo
  { space := bits w 23 22, engine := bits w 21 19, offset := bits w 18 0 }

/-- A reference of `n` bytes lies in its SRAM. -/
def Ref.ok (x : Ref) (n : Nat) : Bool :=
  n == 0 ||
  match x.space with
  | 0 => decide (x.offset + n ≤ 524288)
  | 1 => decide (x.offset + n ≤ 65536)
  | _ => false

/-- COUNT of a vector step; 0 means 65,536 (Table 7.8). -/
def vCount (r : BitVec 256) : Nat := let c := rf r 239 224; if c = 0 then 65536 else c

/-- What a vector step's ranges need of the layer constants that it names: the state size N, the channels that A gives, the
taps of its convolution, the bytes of a tail element (Table 4.1). -/
structure LayerSize where
  n : Nat := 0
  chans : Nat := 0
  width : Nat := 0
  tail : Nat := 4
  deriving DecidableEq, Repr

/-- Bytes of an element of a convolution tail. -/
def Fmt.tailBytes : Fmt → Nat
  | .int8 | .e4m3 | .e5m2 => 1
  | .int16 => 2
  | _ => 4

/-- The sizes of a layer's constants. -/
def LayerConst.size (l : LayerConst) : LayerSize :=
  { n := if l.a.isEmpty then 0 else l.n, chans := l.a.length / max 1 l.n, width := l.width, tail := l.tail.tailBytes }

/-- Bytes that a vector operation reads at A, B and C and writes at DST, with the layer constants it names; `none` for a
reserved operation, and for a recurrence over channels to which the layer gives no A (R155). -/
def vLens (vop c es : Nat) (k : LayerSize) : Option (Nat × Nat × Nat × Nat) :=
  match vop with
  | 0x01 | 0x02 | 0x03 | 0x05 | 0x06 | 0x07 | 0x10 => some (c * es, c * es, 0, c * es)
  | 0x04 => some (c * es, c * es, c * es, c * es)
  | 0x08 | 0x09 | 0x0A | 0x11 | 0x12 | 0x13 | 0x18 | 0x19 | 0x1A | 0x1B | 0x1C | 0x1D | 0x1E | 0x1F | 0x2A =>
    some (c * es, 0, 0, c * es)
  | 0x20 => some (c, 4 * c, 0, 4 * c)
  | 0x28 => some (4 * c, 0, k.tail * c * (k.width - 1), 4 * c)
  | 0x29 => some (4 * c, 4 * c, 0, 4 * c)
  | 0x2B => if k.n = 0 ∨ k.chans < c then none else some (8 * c, 8 * k.n, 4 * c * k.n, 4 * c)
  | 0x2C => some (8 * c, 8 * c, 0, 8 * c)
  | 0x2D => some (4 * c, 4 * c, 4 * c, 4 * c)
  | _ => none

/-- DTYPE fits VOP (Tables 7.8 and 4.8). -/
def vTypeOk (vop dt : Nat) : Bool :=
  match dt with
  | 0 => vop != 0x20
  | 1 => vop == 0x01 || vop == 0x03 || vop == 0x04 || vop == 0x05 || vop == 0x06
  | 2 => vop == 0x20
  | _ => false

/-- Bytes per element of DTYPE. -/
def vSize (dt : Nat) : Nat := if dt = 1 then 2 else 4

/-- Bytes that a requant output of `c` channels takes (Table 7.11): INT4 and UINT4 go two per byte. -/
def outBytes (fmt c : Nat) : Nat :=
  match fmt with
  | 0 | 1 => c
  | 2 | 3 => (c + 1) / 2
  | _ => 2 * c

/-- Bytes of one input element of a digital matmul mode; INT4 goes two per byte. -/
def xBytes (mode n : Nat) : Nat := if mode = 2 then n / 2 else if mode = 4 then 2 * n else n

/-- KT, NT and B of a digital matmul record with their zero meanings. -/
def mmDims (r : BitVec 256) : Nat × Nat × Nat :=
  let kt := rf r 235 228
  let nt := rf r 227 224
  let b := rf r 223 216
  (if kt = 0 then 256 else kt, if nt = 0 then 16 else nt, if b = 0 then 256 else b)

/-- Entry bytes and count of the codebook that a coded digital matmul names (R118). -/
def cbShape (mode wcode : Nat) : Nat × Nat :=
  (if mode = 4 then 2 else 1, if wcode = 1 then 16 else if wcode = 2 then 256 else 0)

/-- Bytes of one weight tile (R120, R148). -/
def tileBytes (mode wcode : Nat) : Nat := if wcode = 1 then 128 else if wcode = 2 then 256 else if mode = 4 then 512 else 256

/-- Bytes from WADDR that a digital matmul reads: a coded block's header word and codebook stand before its codes
(R118). -/
def wBytes (mode wcode tiles : Nat) : Nat :=
  let cb := cbShape mode wcode
  (if wcode = 0 then 0 else 4 + cb.1 * cb.2) + tileBytes mode wcode * tiles

/-- Row groups of a plane by GSIZE (Table 3.2). -/
def groupsOf (gsize : Nat) : Nat := if gsize = 0 then 32 else if gsize = 1 then 16 else 8
/-- Rows of a row group. -/
def rowsOf (gsize : Nat) : Nat := if gsize = 0 then 32 else if gsize = 1 then 64 else 128

/-- Bytes of the inputs of `rows` rows in a panel format (R92). -/
def panelIn (fmt rows : Nat) : Nat := if fmt < 2 then rows else rows / 2

/-- Bytes of a plane file (Table 3.1). -/
def fileBytes (gsize : Nat) (symonly : Bool) : Nat :=
  let g := groupsOf gsize
  24 + 4 * g + 512 * g + (if symonly then 0 else 512 * g)

/-- R253 on one record: KIND, reserved fields, codes and ranges. `layer` gives the constants that PARAM names, `gsize`
the row-group size and SYMONLY of the plane that a panel step names. -/
def recordOk (r : BitVec 256) (layer : Nat → LayerSize) (gsize : Nat → Nat → Nat × Bool) : Bool :=
  rf r 249 248 == 0 &&
  match rKind r with
  | 0 =>
    let (gs, sym) := gsize (rf r 247 245) (rf r 244 241)
    let n := rf r 235 230
    let fmt := rf r 229 227
    let rows := n * rowsOf gs
    decide (fmt ≤ 3) && rf r 181 0 == 0 && decide (1 ≤ n ∧ rf r 240 236 + n ≤ groupsOf gs)
      && (fmt == 1 || (fmt == 3 && decide (rf r 226 219 ≤ 15)) || rf r 226 219 == 0)
      && !(sym && fmt % 2 == 1)
      && decide (rf r 217 202 + panelIn fmt rows ≤ 65536)
      && decide (rf r 200 182 + fileBytes gs sym ≤ (if rf r 201 201 = 0 then 65536 else 524288))
  | 1 =>
    let (kt, nt, b) := mmDims r
    let mode := rf r 244 242
    let wc := rf r 237 236
    decide (mode ≤ 4) && decide (wc ≤ 2) && rf r 166 0 == 0
      && (mode == 3 || (rf r 241 240 == 0))
      && decide (rf r 215 200 + wBytes mode wc (kt * nt) ≤ 65536)
      && decide (rf r 199 184 + xBytes mode (b * kt * 16) ≤ 65536)
      && decide (rf r 183 168 + 4 * b * nt * 16 ≤ 65536)
  | 2 =>
    let vop := rf r 247 240
    let dt := rf r 223 222
    rf r 109 0 == 0 && vTypeOk vop dt &&
      match vLens vop (vCount r) (vSize dt) (layer (rf r 125 110)) with
      | some (a, b, c, d) =>
        (rRef r 198).ok a && (rRef r 174).ok b && (rRef r 150).ok c && (rRef r 126).ok d
      | none => false
  | 3 =>
    let n := rf r 247 244
    let c := rf r 171 156
    decide (4 ≤ n ∧ n ≤ 8) && decide (c % 2 ^ n = 0 ∧ 0 < c) && rf r 155 0 == 0
      && (rRef r 220).ok (4 * c) && (rRef r 196).ok (4 * c) && (rRef r 172).ok (c / 8)
  | 4 =>
    let whr := rf r 247 247
    let fmt := rf r 243 241
    let c := rf r 147 132
    rf r 131 0 == 0 && (rRef r 172).ok (outBytes fmt c) && (rRef r 148).ok (4 * c)
      && (if whr = 0 then
            decide (fmt ≤ 1) && decide (c ≤ 256) &&
              (if rf r 196 196 = 1 then (rRef r 197).ok (4 * c) else rf r 220 197 == 0)
          else decide (fmt ≤ 4) && rf r 196 196 == 0 && rf r 246 244 == 0 && (rRef r 197).ok (4 * c))
  | 5 => decide (rf r 247 242 ≤ 55) && decide (1 ≤ rf r 241 231 ∧ rf r 241 231 ≤ 1024) && rf r 148 0 == 0
  | 6 => decide (rf r 235 204 ≠ 0) && rf r 195 0 == 0
  | 7 => rf r 170 0 == 0
  | 8 => decide (rf r 247 246 ≤ 1) && rf r 245 0 == 0
  | 9 =>
    decide (rf r 235 220 ≠ 0) && decide (rf r 219 212 ≠ 0)
      && decide (1 ≤ rf r 211 204 ∧ rf r 211 204 ≤ rf r 219 212) && rf r 202 0 == 0
  | _ => false

/-- Counter ids that a record names on its own module. -/
def recordIds (r : BitVec 256) : List Nat :=
  match rKind r with
  | 6 | 7 | 9 => [rf r 247 236]
  | _ => []

/-! ## Descriptors, Table 6.5 -/

/-- Bits `[hi:lo]` of a descriptor. -/
def df (d : BitVec 512) (hi lo : Nat) : Nat := bits d.toNat hi lo

/-- MODE. -/
def dMode (d : BitVec 512) : Nat := df d 511 510
/-- FENCE. -/
def dFence (d : BitVec 512) : Bool := df d 509 509 == 1
/-- HIST. -/
def dHist (d : BitVec 512) : Bool := df d 508 508 == 1
/-- Source and destination tier. -/
def dStier (d : BitVec 512) : Nat := df d 503 500
/-- Destination tier. -/
def dDtier (d : BitVec 512) : Nat := df d 499 496
/-- Source unit. -/
def dSunit (d : BitVec 512) : Nat := df d 495 464
/-- Destination unit. -/
def dDunit (d : BitVec 512) : Nat := df d 463 432
/-- SIZE. -/
def dSize (d : BitVec 512) : Nat := df d 351 328
/-- COUNT. -/
def dCount (d : BitVec 512) : Nat := df d 327 304
/-- Source address with its base (R223). -/
def dSaddr (d : BitVec 512) (base : Nat) : Nat := df d 431 392 + (if df d 505 505 = 1 then base else 0)
/-- Destination address with its base. -/
def dDaddr (d : BitVec 512) (base : Nat) : Nat := df d 391 352 + (if df d 504 504 = 1 then base else 0)
/-- Completion signals: counter id and delta, SIG0 first (R227). -/
def dSigs (d : BitVec 512) : List (Nat × Nat) :=
  (if df d 239 239 = 1 then [(df d 237 226, df d 213 206)] else [])
    ++ (if df d 238 238 = 1 then [(df d 225 214, df d 205 198)] else [])
/-- TAG. -/
def dTag (d : BitVec 512) : Nat := df d 191 160

/-- Start of element `i` from address `a` with a two's complement stride. -/
def elemAt (a stride i : Nat) : Int := (a : Int) + signed 32 stride * i

/-- All elements of an endpoint lie within `lo .. hi - 1`. -/
def within (a size count stride lo hi : Nat) : Bool :=
  let last := elemAt a stride (count - 1)
  decide ((lo : Int) ≤ a ∧ (a : Int) + size ≤ hi ∧ (lo : Int) ≤ last ∧ last + size ≤ hi)

/-- The static checks of R232 on a descriptor of an image ring, without the endpoint ranges. -/
def descOk (d : BitVec 512) : Bool :=
  let sram := decide (dStier d ≤ 3)
  decide (dMode d ≤ 2) && df d 197 192 == 0 && df d 159 0 == 0
    && decide (1 ≤ dSize d) && decide (1 ≤ dCount d) && decide (dSize d * dCount d ≤ 2 ^ 30)
    && decide (dStier d ≤ 4) && decide (dDtier d ≤ 4 ∨ dDtier d = 6)
    && (dSigs d).all (fun p => decide (p.2 ≠ 0))
    && (!dHist d || dStier d == 4)
    && (dMode d != 0 ||
        (let k := if sram then 64 else 256
         df d 431 392 % k == 0 && dSize d % k == 0 && df d 303 272 % k == 0))

/-- The regions of board memory below the image area (Table 6.2). -/
inductive BoardRegion where
  | index | away | staging | spares | firmware | imageAndHistory
  deriving DecidableEq, Repr

/-- The region of a board-memory address (Table 6.2). -/
def regionOf (a : Nat) : BoardRegion :=
  if a < 0x18000000 then .index else if a < 0x168000000 then .away else if a < 0x1C8000000 then .staging
  else if a < 0x1C9000000 then .spares else if a < 0x200000000 then .firmware else .imageAndHistory

/-! ## Plane files as bytes, Table 3.1 -/

/-- Entries `0 .. n - 1` of a table. -/
def entries {α β : Type} (d : α) (t : Tab α) (n : Nat) (f : α → List β) : List β :=
  (List.range n).flatMap (fun i => f (Tab.get d t i))

/-- A table from the entries of a list. -/
def tabOf {α : Type} [DecidableEq α] (d : α) (l : List α) : Tab α :=
  ((List.range l.length).zip l).filter (fun p => decide (p.2 ≠ d))

/-- GSIZE of a plane file. -/
def PlaneFile.gsize (f : PlaneFile) : Nat := bits f.setting.toNat 8 7
/-- Row groups of a plane file. -/
def PlaneFile.groups (f : PlaneFile) : Nat := groupsOf f.gsize
/-- SYMONLY of a plane file. -/
def PlaneFile.symonly (f : PlaneFile) : Bool := f.setting.getLsbD 4
/-- VMAX. -/
def PlaneFile.vmax (f : PlaneFile) : Nat := bits f.setting.toNat 15 9
/-- The converter span divisor. -/
def PlaneFile.rho (f : PlaneFile) : Nat := if bits f.setting.toNat 6 5 = 0 then 2 else if bits f.setting.toNat 6 5 = 1 then 4 else 8

/-- A plane file in the order of Table 3.1, packed. -/
def PlaneFile.bytes (f : PlaneFile) : List Byte :=
  be 4 f.setting.toNat ++ be 4 f.mask.toNat ++ (List.range 16).flatMap (fun i => be 1 (unsigned 8 (f.codebook.getD i 0)))
    ++ (List.range f.groups).flatMap (fun g => be 2 (Tab.get 0 f.defGain g).toNat ++ be 2 (Tab.get 0 f.defOff g).toNat)
    ++ entries 0 f.scales (256 * f.groups) (fun x => be 2 x.toNat)
    ++ (if f.symonly then [] else entries 0 f.colSums (256 * f.groups) (fun x => be 2 (unsigned 16 x)))

/-- `n` fields of `k` bytes from byte `o`. -/
def fieldsAt (bs : List Byte) (o k n : Nat) : List Nat := (List.range n).map (fun i => ofBytes ((bs.drop (o + k * i)).take k))

/-- A plane file from its bytes. -/
def readFile (bs : List Byte) : PlaneFile :=
  let setting := BitVec.ofNat 32 (ofBytes (bs.take 4))
  let g := groupsOf (bits setting.toNat 8 7)
  let pairs := fieldsAt bs 24 2 (2 * g)
  let o := 24 + 4 * g
  { setting := setting
    mask := BitVec.ofNat 32 (ofBytes ((bs.drop 4).take 4))
    codebook := (fieldsAt bs 8 1 16).map (signed 8)
    defGain := tabOf 0 ((List.range g).map (fun i => BitVec.ofNat 16 (pairs.getD (2 * i) 0)))
    defOff := tabOf 0 ((List.range g).map (fun i => BitVec.ofNat 16 (pairs.getD (2 * i + 1) 0)))
    scales := tabOf 0 ((fieldsAt bs o 2 (256 * g)).map (BitVec.ofNat 16))
    colSums := if setting.getLsbD 4 then [] else tabOf 0 ((fieldsAt bs (o + 512 * g) 2 (256 * g)).map (signed 16)) }

/-! ## Packets, R402 and R403 -/

/-- Length of a TLV value with its padding. -/
def padded (n : Nat) : Nat := (n + 3) / 4 * 4

/-- Read TLVs from `bs`, which starts `off` bytes after byte 24; the first that does not read is marked. `fuel` bounds
the count. -/
def readTlvs : Nat → Nat → List Byte → List Tlv × List Nat × Nat
  | 0, _, _ => ([], [], 0)
  | fuel + 1, off, bs =>
    if bs.isEmpty then ([], [], 0)
    else if bs.length < 4 then ([], [], off + 1)
    else
      let ty := ofBytes (bs.take 2)
      let len := ofBytes ((bs.drop 2).take 2)
      let rest := bs.drop 4
      if rest.length < padded len ∨ (rest.drop len).take (padded len - len) ≠ List.replicate (padded len - len) 0 then
        ([], [], off + 1)
      else
        let (ts, os, bad) := readTlvs fuel (off + 4 + padded len) (rest.drop (padded len))
        ((ty, rest.take len) :: ts, off :: os, bad)

/-- The command header: MAGIC, VER, FLAGS with only BULK possible, PLEN of the bytes that follow (Table 11.5). -/
def headerOk (bs : List Byte) : Bool :=
  decide (24 ≤ bs.length) && ofBytes (bs.take 4) == 0x5350434D && ofBytes ((bs.drop 4).take 1) == 1
    && ofBytes ((bs.drop 5).take 1) % 32 == 0 && decide (ofBytes ((bs.drop 5).take 1) / 64 = 0)
    && ofBytes ((bs.drop 16).take 4) == bs.length - 24

/-- The packet is a bulk packet (R407). -/
def isBulk (bs : List Byte) : Bool := ofBytes ((bs.drop 5).take 1) == 0x20

/-- A command packet from its bytes; a nonzero reserved field of the header counts against offset 0 (R16). -/
def readPacket (bs : List Byte) : Packet :=
  let (ts, os, bad) := readTlvs bs.length 0 (bs.drop 24)
  { opcode := ofBytes ((bs.drop 6).take 2), ctx := ofBytes ((bs.drop 8).take 2), seq := ofBytes ((bs.drop 12).take 4),
    badAt := if ofBytes ((bs.drop 10).take 2) ≠ 0 ∨ ofBytes ((bs.drop 20).take 4) ≠ 0 then 1 else bad,
    plen := bs.length - 24, tlvs := ts, offs := os }

/-- A parameter of Table 11.8: its length (none: variable) and whether it is required. -/
structure Param where
  len : Option Nat
  req : Bool := true
  deriving DecidableEq, Repr

/-- A row of Table 11.8: role (0 O, 1 P, 2 E, 3 S), L, C and the parameters. -/
structure CmdRow where
  role : Nat
  lead : Bool := false
  ctx : Bool := false
  params : List Param := []
  deriving DecidableEq, Repr

/-- Required parameter of `n` bytes. -/
def pN (n : Nat) : Param := { len := some n }
/-- Optional parameter of `n` bytes. -/
def pO (n : Nat) : Param := { len := some n, req := false }
/-- Required parameter of variable length. -/
def pV : Param := { len := none }

/-- Table 11.8: the opcodes the module implements. -/
def cmdRow : Nat → Option CmdRow
  | 0x0004 => some { role := 0 }
  | 0x0005 => some { role := 0 }
  | 0x0006 => some { role := 0, params := [pN 4] }
  | 0x0008 => some { role := 0 }
  | 0x0101 => some { role := 0 }
  | 0x0102 => some { role := 0 }
  | 0x0103 => some { role := 0, params := [pN 4, pN 1] }
  | 0x0104 => some { role := 0 }
  | 0x0105 => some { role := 0, params := [pN 4] }
  | 0x0106 => some { role := 0, ctx := true, params := [pN 2, pN 2, pN 2] }
  | 0x0201 => some { role := 2, params := [pN 8] }
  | 0x0202 => some { role := 2, params := [pN 32] }
  | 0x0203 => some { role := 2 }
  | 0x0204 => some { role := 0 }
  | 0x0205 => some { role := 2, lead := true }
  | 0x0206 => some { role := 0 }
  | 0x0207 => some { role := 0, params := [pN 1] }
  | 0x0301 => some { role := 2, params := [pN 1, pN 1, pN 1, pV, pN 1, pO 1, pN 4, pO 4, pN 1, pO 4, pO 1] }
  | 0x0302 => some { role := 0, params := [pN 1] }
  | 0x0303 => some { role := 2, params := [pN 1] }
  | 0x0304 => some { role := 2, params := [pN 1, pO 4, pO 1, pO 16, pO 1, pO 2, pO 2, { len := none, req := false }, pO 2, pO 1] }
  | 0x0305 => some { role := 0, params := [pN 1] }
  | 0x0306 => some { role := 0, params := [pN 1] }
  | 0x0307 => some { role := 1, params := [pN 1, pN 8] }
  | 0x0401 => some { role := 1, lead := true, ctx := true }
  | 0x0402 => some { role := 1, lead := true, ctx := true }
  | 0x0403 => some { role := 1, lead := true, ctx := true }
  | 0x0404 => some { role := 0, ctx := true, params := [pO 1] }
  | 0x0405 => some { role := 2, lead := true, ctx := true, params := [pO 1, pO 4, pO 4, pO 4, pO 4, pO 4] }
  | 0x0406 => some { role := 2, ctx := true, params := [pO 2, pO 2, pO 2, pO 8, pO 2] }
  | 0x0407 => some { role := 0, ctx := true }
  | 0x0408 => some { role := 1, lead := true, ctx := true, params := [pN 8, pN 8] }
  | 0x0409 => some { role := 1, lead := true, ctx := true, params := [pO 1] }
  | 0x0501 => some { role := 0, lead := true, ctx := true, params := [pN 8, pO 4] }
  | 0x0502 => some { role := 0, lead := true, ctx := true, params := [pO 8] }
  | 0x0503 => some { role := 0, ctx := true }
  | 0x0504 => some { role := 0 }
  | 0x0505 => some { role := 0, params := [pN 12, pO 1] }
  | 0x0506 => some { role := 0 }
  | 0x0601 => some { role := 1, ctx := true, params := [pN 2, pN 8] }
  | 0x0602 => some { role := 0, ctx := true, params := [pO 2, pO 2] }
  | 0x0603 => some { role := 1, ctx := true, params := [pN 2, pN 8] }
  | 0x0604 => some { role := 1, params := [pN 2] }
  | 0x0605 => some { role := 2, ctx := true, params := [pN 2, pN 2] }
  | 0x0606 => some { role := 1, ctx := true, params := [pN 2, pN 1] }
  | 0x0607 => some { role := 0, ctx := true }
  | 0x0701 => some { role := 2, params := [pO 2, pO 2] }
  | 0x0702 => some { role := 0 }
  | 0x0801 => some { role := 2, params := [pN 8, pN 1, pN 1, pN 1, pO 1] }
  | 0x0802 => some { role := 0 }
  | 0x0901 => some { role := 0 }
  | 0x0902 => some { role := 1, params := [pN 1, pN 4] }
  | 0x0903 => some { role := 0, params := [pN 8, pO 2] }
  | 0x0A01 => some { role := 0 }
  | 0x0A02 => some { role := 0, params := [pN 4] }
  | 0x0A03 => some { role := 2, params := [pN 4] }
  | 0x0A04 => some { role := 2, params := [pN 4] }
  | 0x0A05 => some { role := 2, params := [pN 1, pN 8] }
  | 0x0A06 => some { role := 2 }
  | 0x0B01 => some { role := 0, params := [pN 32] }
  | 0x0B02 => some { role := 0, params := [pO 4] }
  | 0x0B03 => some { role := 0 }
  | 0x0B04 => some { role := 3, params := [pN 1, pO 1, pV] }
  | 0x0B05 => some { role := 3, params := [pN 1] }
  | 0x0B06 => some { role := 3, params := [pV] }
  | 0x0C01 => some { role := 3, params := [pN 8] }
  | 0x0C02 => some { role := 3, params := [pN 32] }
  | 0x0C03 => some { role := 3, params := [pN 1] }
  | 0x0C04 => some { role := 3, params := [pN 1] }
  | 0x0C05 => some { role := 0 }
  | 0x0C06 => some { role := 3, params := [pN 2, pV] }
  | 0x0C07 => some { role := 3, params := [pN 1] }
  | _ => none

/-- The offset of the first TLV that Table 11.8 does not allow: unknown or repeated TYPE, or a length that does not fit. -/
def firstBad (ps : List Param) : List Tlv → List Nat → List Nat → Option Nat
  | (ty, v) :: ts, off :: os, seen =>
    if ty = 0 ∨ ps.length < ty ∨ seen.contains ty then some off
    else match (ps.getD (ty - 1) pV).len with
      | some n => if v.length = n then firstBad ps ts os (ty :: seen) else some off
      | none => firstBad ps ts os (ty :: seen)
  | _, _, _ => none

/-- A required TLV is missing. -/
def missing (ps : List Param) (ts : List Tlv) : Bool :=
  (List.range ps.length).any (fun i => (ps.getD i pV).req && !ts.any (fun t => t.1 == i + 1))

/-- Why a packet's form is refused with BAD_PARAM, as its DETAIL; `none` where its form is good (R403). -/
def formBad (row : CmdRow) (p : Packet) : Option Nat :=
  if p.badAt ≠ 0 then some (p.badAt - 1)
  else match firstBad row.params p.tlvs p.offs [] with
    | some o => some o
    | none =>
      if missing row.params p.tlvs then some p.plen
      else if (if row.ctx then decide (63 < p.ctx) && !(p.opcode == 0x0602 && p.ctx == 0xFFFF) else p.ctx != 0xFFFF) then some 0
      else none

/-- The value of a parameter, where present. -/
def Packet.val (p : Packet) (ty : Nat) : Option (List Byte) := (p.tlvs.find? (fun t => t.1 == ty)).map Prod.snd
/-- The number a parameter holds, where present. -/
def Packet.num? (p : Packet) (ty : Nat) : Option Nat := (p.val ty).map ofBytes
/-- The number a required parameter holds. -/
def Packet.num (p : Packet) (ty : Nat) : Nat := (p.num? ty).getD 0
/-- The byte offset of a parameter's TLV; PLEN where it is absent. -/
def Packet.off (p : Packet) (ty : Nat) : Nat :=
  match (p.tlvs.zip p.offs).find? (fun t => t.1.1 == ty) with
  | some t => t.2
  | none => p.plen

end Sys2Proof.Machine
end

