-- ==== Sys2Proof/Machine/Counters.lean ====
section
/-! DEFINITION. Sync counters: translation, signals, compares and wake lines, thresholds, orphaning, misuse
(R256 to R281), and the events that carry a signal or a release to its place. -/

namespace Sys2Proof.Machine

open Sys2Proof

/-- The physical counter that a local id of a context names (R262). -/
def State.physOf (s : State) (ctx id : Nat) : Option Nat :=
  match Tab.get 0 s.sync.table (4096 * ctx + id) with
  | 0 => none
  | n + 1 => some n

/-- The id is exported (Table 7.18). -/
def State.exported (s : State) (ctx id : Nat) : Bool := decide (Tab.get 0 s.sync.exports (4096 * ctx + id) ≠ 0)

/-- Bind an id to a counter in the translation table, or clear its entry. -/
def State.setEntry (s : State) (ctx id : Nat) (p : Option Nat) (exp : Bool) : State :=
  { s with sync := { s.sync with
      table := Tab.set 0 s.sync.table (4096 * ctx + id) (match p with | some n => n + 1 | none => 0)
      exports := Tab.set 0 s.sync.exports (4096 * ctx + id) (flag (exp && p.isSome)) } }

/-- Home cluster of a physical counter (R256). -/
def homeOf (p : Nat) : Nat := p / 512

/-- The sync controller of a counter's home has power (R54). -/
def State.homeUp (s : State) (p : Nat) : Bool := s.domOn (.clusterCommon (homeOf p))

/-- The record at a thread's PC. -/
def State.recordOf (s : State) (t : Nat) : BitVec 256 :=
  Tab.get 0 (s.core (t / 16)).stepRam (s.thread t).pc

/-- The inspection record of a counter; a registration that waits for a table entry counts as a waiter (R266, R281). -/
def State.inspect (s : State) (p : Nat) : Nat :=
  let c := s.counter p
  let more : List Compare := (s.sync.blocked.filter (fun b => decide (b.1 = p))).map Prod.snd
  ({ c with waiters := c.waiters ++ more } : Counter).record p

/-- A refused use of a counter (R261). -/
def State.misuse (s : State) (p : Option Nat) (ctx : Nat) : State :=
  (match p with
   | some n => s.updCounter n (fun c => { c with misuse := true })
   | none => s).trouble 2 1 0 0 ctx []

/-- DETAIL of a descriptor error: ring number, TAG, ERR (R233). -/
def descDetail (ring tag err : Nat) : List Nat := (be 4 ring ++ be 4 tag ++ be 4 err).map (·.toNat)

/-- ERR 3 of a descriptor: its signal is refused as misuse and the ring continues (Table 6.7). -/
def State.descErr3 (s : State) (ring tag : Nat) (p : Option Nat) (ctx : Nat) : State :=
  ((match p with
    | some n => s.updCounter n (fun c => { c with misuse := true })
    | none => s).updRing ring (fun r => { r with err := 3 })).troubleAs 2 1
      { code := 0x342, ctx := ctx, detail := descDetail ring tag 3 }

/-! ## Wake lines, R265 -/

/-- What a wake line stands for: a counter and an expected value. -/
def compareKey (p expect : Nat) : Nat := 2 ^ 64 * p + expect + 1

/-- The compare takes a line 0 to 62 of a cluster: the one that already stands for it, or the first free one; when none
is left it shares line 63. -/
def State.takeLine (s : State) (cluster p expect : Nat) : State :=
  let at_ := fun i => Tab.get 0 s.sync.lines (64 * cluster + i)
  if (List.range 63).any (fun i => at_ i == compareKey p expect) then s
  else match (List.range 63).find? (fun i => at_ i == 0) with
    | none => s
    | some i => { s with sync := { s.sync with lines := Tab.set 0 s.sync.lines (64 * cluster + i) (compareKey p expect) } }

/-- Lines of a cluster whose compare has no waiter left there are free again. -/
def State.freeLines (s : State) (p expect : Nat) : State :=
  let still := fun cl => (s.counter p).waiters.any (fun w =>
    w.expect == expect && (match w.who with | .thread t => decide (clusterOf t = cl) | _ => false))
  { s with sync := { s.sync with lines := s.sync.lines.filter (fun e =>
      decide (e.2 ≠ compareKey p expect) || still (e.1 / 64)) } }

/-- A thread's wait has ended: it becomes ready through WAITER_WAKE; a gated core group is powered (R70, R72). -/
def State.wakeThread (s : State) (t wstat : Nat) : State :=
  let s1 := s.updThread t (fun x => { x with wstat := wstat })
  let s2 := { s1 with sync := { s1.sync with woken := s1.sync.woken ++ [t] } }
  s2.askPower (.coreGroup (groupOf t)) (s2.thread t).ctx

/-- The waiter waits at a barrier on this module: its record is a barrier arrive (R272). -/
def State.atBarrier (s : State) (w : Waiter) : Bool :=
  match w with
  | .thread t => rKind (s.recordOf t) == 9
  | _ => false

/-- A compare is met or ended: a plain waiter wakes; waiters at a barrier wake when their cluster has the release. -/
def State.fireOne (s : State) (p : Nat) (w : Compare) : State :=
  match w.who with
  | .thread t =>
    if s.atBarrier w.who then
      let m : ReleaseMsg := { cluster := clusterOf t, phys := p, value := w.expect }
      if s.sync.releases.contains m then s else { s with sync := { s.sync with releases := s.sync.releases ++ [m] } }
    else s.wakeThread t 0
  | _ => s

/-- Fire compares in order. -/
def State.fireAll (s : State) (p : Nat) : List Compare → State
  | [] => s
  | w :: ws => ((s.fireOne p w).freeLines p w.expect).fireAll p ws

/-- Entries of a home's compare table that are in use. -/
def State.usedAt (s : State) (home : Nat) : Nat := Tab.get 0 s.sync.used home

/-- Set the number of entries in use. -/
def State.setUsed (s : State) (home n : Nat) : State := { s with sync := { s.sync with used := Tab.set 0 s.sync.used home n } }

/-- THRESHOLD notify, Table 11.12. -/
def State.thresholdNotify (s : State) (p : Nat) (t : Threshold) (st : Status) : State :=
  let c := s.counter p
  s.notify t.sid 0x06C0 c.owner st 0 [(1, be 2 t.subId), (2, be 2 c.localId), (3, be 8 c.value)]

/-- Notifies of thresholds, in order. -/
def State.thresholdsNotify (s : State) (p : Nat) (st : Status) : List Threshold → State
  | [] => s
  | t :: ts => (s.thresholdNotify p t st).thresholdsNotify p st ts

/-! ## Registering a compare, R258, R265, R266 -/

/-- The home takes a compare into its table: an entry, and a wake line of the waiter's cluster. -/
def State.enterCompare (s : State) (p : Nat) (w : Compare) : State :=
  let s1 := (s.updCounter p (fun c => { c with waiters := c.waiters ++ [w] })).setUsed (homeOf p) (s.usedAt (homeOf p) + 1)
  match w.who with
  | .thread t => s1.takeLine (clusterOf t) p w.expect
  | _ => s1

/-- Register a compare, or let it wait for an entry; the first such wait of a context run is logged (R266). -/
def State.register (s : State) (ctx p : Nat) (w : Compare) : State :=
  if s.usedAt (homeOf p) < 1024 then s.enterCompare p w
  else
    let s1 := { s with sync := { s.sync with blocked := s.sync.blocked ++ [(p, w)] } }
    if s1.sync.fullLogged.contains ctx then s1
    else ({ s1 with sync := { s1.sync with fullLogged := ctx :: s1.sync.fullLogged } }).trouble 2 18
      (locCluster (homeOf p)) 0 ctx []

/-- A thread's registered and waiting compares are withdrawn: it waits no more. -/
def State.withdraw (s : State) (t : Nat) : State :=
  let s1 := s.each (s.sync.counters.map Prod.fst) fun s p =>
    let c := s.counter p
    let gone := c.waiters.filter (fun w => decide (w.who = .thread t))
    if gone.isEmpty then s
    else
      let s1 := (s.updCounter p (fun c => { c with waiters := c.waiters.filter (fun w => decide (w.who ≠ .thread t)) })).setUsed
        (homeOf p) (s.usedAt (homeOf p) - gone.length)
      gone.foldl (fun s w => s.freeLines p w.expect) s1
  { s1 with
    sync := { s1.sync with
      blocked := s1.sync.blocked.filter (fun b => decide (b.2.who ≠ .thread t))
      woken := s1.sync.woken.filter (· ≠ t) }
    pack := { s1.pack with mirrorWait := s1.pack.mirrorWait.filter (fun m => decide (m.1 ≠ t)) } }

/-! ## Pack barriers on the lead, R349 -/

/-- Participants N of the pack barrier that an id of a context serves in the image's programs. -/
def State.packBarrierN (s : State) (ctx id : Nat) : Option Nat :=
  match s.image with
  | none => none
  | some i =>
    (i.programs.filter (fun p => if ctx = 0 then decide (p.ctx = 0) else decide (p.ctx ≠ 0))).findSome? (fun p =>
      p.records.findSome? (fun r =>
        if rKind r = 9 ∧ rf r 203 203 = 1 ∧ rf r 247 236 = id then some (rf r 235 220) else none))

/-- Waiters on a release mirror that its value satisfies wake (R349). -/
def State.raiseMirror (s : State) (ctx id v : Nat) : State :=
  let k := 4096 * ctx + id
  if v ≤ Tab.get 0 s.pack.mirrors k then s
  else
    let s1 := { s with pack := { s.pack with mirrors := Tab.set 0 s.pack.mirrors k v } }
    let met := fun (m : Nat × Nat × Nat × Nat) => decide (m.2.1 = ctx ∧ m.2.2.1 = id ∧ m.2.2.2 ≤ v)
    let ws := (s1.pack.mirrorWait.filter met).map (fun m => m.1)
    let s2 := { s1 with pack := { s1.pack with mirrorWait := s1.pack.mirrorWait.filter (fun m => !met m) } }
    s2.each ws (fun s t => s.wakeThread t 0)

/-- The lead releases a pack barrier whose central counter has reached a multiple of N (R349). -/
def State.releaseBarrier (s : State) (ctx id before now : Nat) : State :=
  match s.packBarrierN ctx id with
  | none => s
  | some n =>
    if s.isLead = false ∨ n = 0 ∨ now / n ≤ before / n then s
    else
      let v := now / n * n
      (if s.standalone then s else s.flood ctx (.release id v)).raiseMirror ctx id v

/-! ## Signals, R257, R260, R261 -/

/-- A signal adds its delta; past the top the value stays there and SAT is set (R257). -/
def Counter.add (c : Counter) (who delta : Nat) : Counter :=
  { c with
    value := min (c.value + delta) (top 64)
    sat := c.sat || decide (top 64 < c.value + delta)
    lastSig := who
    lastDelta := min delta (top 32) }

/-- A signal at the home of a counter that is not orphaned: the value rises, satisfied compares fire, reached thresholds
send their notify and end, and on the lead a pack barrier is released. -/
def State.signalAt (s : State) (p who delta : Nat) : State :=
  let old := s.counter p
  let c := old.add who delta
  let met := c.waiters.filter (fun w => decide (w.expect ≤ c.value))
  let reached := c.thresholds.filter (fun t => decide (t.level ≤ c.value))
  let s1 := s.updCounter p (fun _ =>
    { c with waiters := c.waiters.filter (fun w => decide (c.value < w.expect))
             thresholds := c.thresholds.filter (fun t => decide (c.value < t.level)) })
  let s2 := s1.setUsed (homeOf p) (s.usedAt (homeOf p) - met.length)
  ((s2.fireAll p met).thresholdsNotify p .ok reached).releaseBarrier c.owner c.localId old.value c.value

/-- A signal reaches the home that its id names; an unbound id or an orphaned counter refuses it (Table 7.17). -/
def State.applySignal (s : State) (g : Signal) : State :=
  match s.physOf g.ctx g.id with
  | none =>
    match g.from_ with
    | some (r, tag) => s.descErr3 r tag none g.ctx
    | none => s.misuse none g.ctx
  | some p =>
    if (s.counter p).orphaned then
      match g.from_ with
      | some (r, tag) => s.descErr3 r tag (some p) g.ctx
      | none => s.misuse (some p) g.ctx
    else s.signalAt p g.who g.delta

/-- A signal leaves for its home. -/
def State.sendSignal (s : State) (g : Signal) : State := { s with sync := { s.sync with signals := s.sync.signals ++ [g] } }

/-! ## Orphaning and freeing, R276, R279 -/

/-- Waiters of a counter that becomes orphaned wake with ORPHANED. -/
def State.orphanWake (s : State) (p : Nat) : List Compare → State
  | [] => s
  | w :: ws =>
    ((match w.who with
      | .thread t => s.wakeThread t 1
      | _ => s).freeLines p w.expect).orphanWake p ws

/-- A counter becomes orphaned (R279). -/
def State.orphan (s : State) (p : Nat) : State :=
  let c := s.counter p
  let s1 := s.updCounter p (fun c => { c with waiters := [], thresholds := [], orphaned := true })
  let s2 := s1.setUsed (homeOf p) (s.usedAt (homeOf p) - c.waiters.length)
  (s2.orphanWake p c.waiters).thresholdsNotify p .orphaned c.thresholds

/-- A counter becomes free; a translation entry that names it is cleared. -/
def State.freeCounter (s : State) (p : Nat) : State :=
  let c := s.counter p
  let s1 := if s.physOf c.owner c.localId = some p then s.setEntry c.owner c.localId none false else s
  { s1 with sync := { s1.sync with counters := Tab.set {} s1.sync.counters p {} } }

/-- Counters that a context owns, orphaned ones included. -/
def State.owned (s : State) (ctx : Nat) : List Nat :=
  (s.sync.counters.filter (fun e => e.2.bound && decide (e.2.owner = ctx))).map Prod.fst

/-- Every counter of a context that faults or is reset is orphaned. -/
def State.orphanAll (s : State) (ctx : Nat) : State :=
  s.each ((s.owned ctx).filter (fun p => !(s.counter p).orphaned)) State.orphan

/-- A counter at a normal end of its context: freed where nobody waits on it or it is orphaned, else orphaned and logged
as stray (R276). -/
def State.endCounter (s : State) (ctx p : Nat) : State :=
  let c := s.counter p
  let waits := !c.waiters.isEmpty || !c.thresholds.isEmpty || s.sync.blocked.any (fun b => decide (b.1 = p))
  if c.orphaned ∨ waits = false then s.freeCounter p
  else (s.orphan p).trouble 2 17 (locCluster (homeOf p)) 0 ctx ((be 8 p).map (·.toNat))

/-- Declared pairs of a context that are unbalanced at its end (R275, R276). -/
def State.pairsEnd (s : State) (ctx : Nat) : State :=
  let pairs : List PairDecl := match s.image with
    | none => []
    | some i => i.pairs.filter (fun d => if ctx = 0 then decide (d.member = 0) else decide (d.member ≠ 0))
  let v := fun id => (s.physOf ctx id).map (fun p => (s.counter p).value)
  (pairs.filter (fun d => decide (v d.produced ≠ v d.consumed))).foldl
    (fun s d => s.trouble 2 17 0 0 ctx ((be 2 d.produced ++ be 2 d.consumed).map (·.toNat))) s

/-- The counters of a context at its normal end (R276). -/
def State.endCounters (s : State) (ctx : Nat) : State :=
  let s1 := s.pairsEnd ctx
  s1.each (s1.owned ctx) (fun s p => s.endCounter ctx p)

/-! ## The events -/

/-- COUNTER_SIGNAL_APPLY: the k-th signal on its way reaches its home; signals to one home keep their order, so it is
applied only when no earlier signal on its way is for the same id; at a home whose domain is being powered it waits (R54, R256,
R260). -/
def execCounterSignalApply (k : Nat) (s : State) : Outc :=
  match s.sync.signals[k]? with
  | none => .next s
  | some g =>
    if (s.sync.signals.take k).any (fun e => decide (e.ctx = g.ctx ∧ e.id = g.id)) then .next s
    else if (s.physOf g.ctx g.id).any (fun p => !s.homeUp p) then .next s
    else .next (({ s with sync := { s.sync with signals := s.sync.signals.eraseIdx k } }).applySignal g)

/-- Threads of a cluster that wait at a barrier whose release has come. -/
def State.barrierThreads (s : State) (m : ReleaseMsg) : List Nat :=
  (s.threads.filter (fun e =>
    decide (clusterOf e.1 = m.cluster) && decide (e.2.state = .sleeping) && decide (e.2.waits = .counter)
      && rKind (s.recordOf e.1) == 9 && decide (e.2.expect ≤ (m.value : Int))
      && decide (s.physOf e.2.ctx e.2.waitId = some m.phys)
      && !s.sync.woken.contains e.1
      && !(s.counter m.phys).waiters.any (fun w => decide (w.who = .thread e.1)))).map Prod.fst

/-- BARRIER_RELEASE_RECEIPT: the k-th release reaches its cluster, which fires the compare's wake line (R272). -/
def execBarrierReleaseReceipt (k : Nat) (s : State) : Outc :=
  match s.sync.releases[k]? with
  | none => .next s
  | some m =>
    let s1 := { s with sync := { s.sync with releases := s.sync.releases.eraseIdx k } }
    .next (s1.each (s1.barrierThreads m) (fun s t => s.wakeThread t 0))

/-- COMPARE_REGISTRATION_RETRY: the k-th waiting registration is tried again: met, ended by an orphaned counter, entered
where an entry is free, or left waiting (R266, R258, R279). -/
def execCompareRegistrationRetry (k : Nat) (s : State) : Outc :=
  match s.sync.blocked[k]? with
  | none => .next s
  | some (p, w) =>
    let c := s.counter p
    if s.homeUp p = false then .next s else
    let s1 := { s with sync := { s.sync with blocked := s.sync.blocked.eraseIdx k } }
    if c.orphaned then .next (match w.who with | .thread t => s1.wakeThread t 1 | _ => s1)
    else if w.expect ≤ c.value then .next (match w.who with | .thread t => s1.wakeThread t 0 | _ => s1)
    else if s.usedAt (homeOf p) < 1024 then .next (s1.enterCompare p w)
    else .next s

end Sys2Proof.Machine
end

