-- ==== Sys2Proof/Machine/Contexts.lean ====
section
/-! DEFINITION. Contexts: binding, start, normal end, fault, shed and restore, the draw test, and when ingest runs
(R278, R293 to R310, R364). -/

namespace Sys2Proof.Machine

open Sys2Proof

/-! ## What a context holds -/

/-- Threads bound to a context: a fault frees them (R245), so a Faulted thread is none. -/
def State.threadsOf (s : State) (c : Nat) : List Nat :=
  (s.threads.filter (fun e => decide (e.2.state ≠ .free ∧ e.2.state ≠ .faulted) && decide (e.2.ctx = c))).map Prod.fst

/-- Threads that the context's fault has left Faulted (Table 7.1). -/
def State.faultedOf (s : State) (c : Nat) : List Nat :=
  (s.threads.filter (fun e => decide (e.2.state = .faulted) && decide (e.2.ctx = c))).map Prod.fst

/-- The thread state word of a thread. -/
def State.threadWord (s : State) (t : Nat) : Nat :=
  let x := s.thread t
  x.word ((Tab.get 0 (s.core (t / 16)).stepRam x.pc).getLsbD 250)

/-- Image rings bound to a context. -/
def State.ringsOf (s : State) (c : Nat) : List Nat :=
  (s.rings.filter (fun e => decide (e.2.state ≠ 3) && decide (e.2.ctx = c))).map Prod.fst

/-- The next number in the order in which threads become ready. -/
def State.nextSince (s : State) : Nat := (s.threads.map (fun e => e.2.since)).foldl max 0 + 1

/-- Every thread of the context is at Boundary, Free or Faulted: no period or iteration is in progress (R297). -/
def State.idle (s : State) (c : Nat) : Bool :=
  (s.threadsOf c).all (fun t =>
    match (s.thread t).state with
    | .free | .boundary | .faulted => true
    | _ => false)

/-- A started context is Running while a thread is Ready, Running, Sleeping or Stalled, else Waiting (Table 8.2); its watchdog
runs from then on (R277). -/
def State.refreshCtx (s : State) (c : Nat) : State :=
  s.updCtx c (fun x => if x.live then
      (if s.idle c then { x with state := .waiting }
       else { x with state := .running, alive := if x.state = .running then x.alive else s.life.now })
    else x)

/-- Programs that a context binds. -/
def Image.programsOf (i : Image) (c : Nat) : List Program :=
  i.programs.filter (fun p => decide (p.ctx = c) || (decide (c ≠ 0) && decide (p.ctx = 255)))

/-- Ring lists that a context binds. -/
def Image.ringsFor (i : Image) (c : Nat) : List RingList :=
  i.rings.filter (fun p => decide (p.ctx = c) || (decide (c ≠ 0) && decide (p.ctx = 255)))

/-- Counters that the image declares for a context (R263). -/
def Image.countersOf (i : Image) (c : Nat) : List CtrDecl :=
  i.counters.filter (fun d => decide (d.member = if c = 0 then 0 else 1))

/-! ## Ingest, R364 -/

/-- Ingest runs: standalone and on a detached source while context 0 is started, Shed or Faulted, for an image without a
watch member while an inspect context is started; in a pack on the source while LEAD_HB shows it. -/
def State.ingestWanted (s : State) : Bool :=
  match s.image with
  | none => false
  | some i =>
    let anyInspect := s.ctxs.any (fun e => decide (e.1 ≠ 0) && e.2.started)
    let watchOn := match (s.ctx 0).state with
      | .waiting | .running | .shed | .faulted => true
      | _ => false
    if s.standalone || (s.pack.detached && decide (s.pack.source = s.optv.ppos)) then
      (if i.watch.isSome then watchOn else anyInspect)
    else
      s.pack.hasLead && decide (s.pack.source = s.optv.ppos)
        && (if i.watch.isSome then decide (s.pack.run % 2 = 1) else decide (s.pack.run / 2 % 2 = 1))

/-- Ingest starts or stops as R364 says; a start waits for its s0, with a new index group (R213). -/
def State.syncIngest (s : State) : State :=
  if s.ingestWanted = s.ing.running then s
  else if s.ingestWanted then
    { s with
      ing := { s.ing with running := true, s0 := none, nextToken := 0, run := s.ing.run + 1 }
      hist := { s.hist with newGroup := true } }
  else { s with ing := { s.ing with running := false, s0 := none } }

/-! ## Binding, R245, R222, R263 -/

/-- A thread freed from its context. -/
def Thread.freed (x : Thread) : Thread := { prog := x.prog, base := x.base, last := x.last, pc := x.base }

/-- Free the threads of a context. -/
def State.freeThreads (s : State) (c : Nat) : State :=
  s.each (s.threadsOf c ++ s.faultedOf c) (fun s t => (s.withdraw t).updThread t Thread.freed)

/-- Unbind the rings of a context; descriptors already started go on (R278). -/
def State.unbindRings (s : State) (c : Nat) : State :=
  s.each (s.ringsOf c) (fun s r => s.updRing r (fun x =>
    { x with state := 3, ctx := 0, len := 0, head := 0, elig := 0, skipped := [], sbase := 0, dbase := 0 }))

/-- A free counter of a home cluster. -/
def State.freeAt (s : State) (home : Nat) : Option Nat :=
  ((List.range 512).map (fun i => 512 * home + i)).find? (fun p => !(s.counter p).bound)

/-- Bind one declared counter at value 0 in its home. -/
def State.bindCounter (s : State) (c : Nat) (d : CtrDecl) : Option State :=
  (s.freeAt d.home).map (fun p =>
    ((s.updCounter p (fun _ => { owner := c, localId := d.id, bound := true, exported := d.exported })).setEntry c d.id
      (some p) d.exported).askPower (.clusterCommon d.home) c)

/-- Bind declared counters in order. -/
def State.bindCounters (s : State) (c : Nat) : List CtrDecl → Option State
  | [] => some s
  | d :: ds => (s.bindCounter c d).bind (fun s1 => s1.bindCounters c ds)

/-- Bind one thread: it waits at Boundary for its first release. -/
def State.bindThread (s : State) (c t : Nat) : State :=
  (s.updThread t (fun x => { x.freed with state := .boundary, ctx := c })).askPower (.coreGroup (groupOf t)) c

/-- Bind one ring with its descriptors. -/
def State.bindRing (s : State) (c : Nat) (r : RingList) : State :=
  s.updRing r.ring (fun x => { state := 0, ctx := c, len := r.descs.length, inflight := x.inflight, descs := r.descs })

/-- Bind a context's threads, rings, counters and buffers under its quotas; `none` where one is not to be had. -/
def State.bindCtx (s : State) (c : Nat) (i : Image) (m : Member) : Option State :=
  let s0 := (s.freeThreads c).unbindRings c
  let s1 := { s0 with pack := { s0.pack with failedWrites := s0.pack.failedWrites.filter (· ≠ c) } }
  let q := (s1.ctx c).quota
  let ps := i.programsOf c
  let rs := i.ringsFor c
  let ds := i.countersOf c
  if ps.any (fun p => decide ((s1.thread p.thread).state ≠ .free ∧ (s1.thread p.thread).state ≠ .faulted)) ∨ q.threads < ps.length then none
  else if rs.any (fun r => decide ((s1.ring r.ring).state ≠ 3)) ∨ q.rings < rs.length then none
  else if q.counters < (s1.owned c).length + ds.length ∨ q.bytes < m.quota.bytes then none
  else (s1.bindCounters c ds).map (fun s2 =>
    ((s2.each (ps.map (·.thread)) (fun s t => s.bindThread c t)).each (List.range rs.length)
      (fun s k => match rs[k]? with | some r => s.bindRing c r | none => s)).updCtx c
        (fun x => { x with buffers := m.quota.bytes }))

/-- The recurrent state of a member starts from zero. -/
def State.zeroState (s : State) (m : Member) : State :=
  s.updMem (fun mem => m.state.foldl (fun mem r => mem.zeroFill r.space r.at_ r.len) mem)

/-! ## The draw test and quotas, R300 to R302, R306, R309 -/

/-- The context passes the draw test: with it and every context that runs, the projected draw at 150 MHz stays 10 W
below the budget. -/
def State.drawTest (s : State) (c : Nat) : Bool :=
  decide (s.projected 2 (fun n x => x.live || decide (n = c)) + 100 ≤ s.inForce)

/-- Contexts that hold quotas: every one but Free and Stopped ones (assumption 23). -/
def Ctx.holds (c : Ctx) : Bool := match c.state with | .free | .stopped => false | _ => true

/-- Bytes of the image area less its weight blocks (Table 8.4). -/
def State.bytesTotal (s : State) : Nat :=
  match s.image with
  | none => 0
  | some i => i.imageArea - ([i.watch, i.inspect].filterMap id).foldl (fun a m => a + 32768 * m.desc.arrayW + m.desc.digBytes) 0

/-- Sum of one quota over the other contexts that hold quotas. -/
def State.quotaSum (s : State) (c : Nat) (f : Quota → Nat) : Nat :=
  ((s.ctxs.filter (fun e => decide (e.1 ≠ c) && e.2.holds)).map (fun e => f e.2.quota)).sum

/-- Quotas fit the module totals of Table 8.4 beside those of the other contexts. -/
def State.quotaFits (s : State) (c : Nat) (q : Quota) : Bool :=
  decide (s.quotaSum c (·.threads) + q.threads ≤ 4096)
    && decide (s.quotaSum c (·.counters) + q.counters ≤ 16384)
    && decide (s.quotaSum c (·.rings) + q.rings ≤ 1792)
    && decide (s.quotaSum c (·.bytes) + q.bytes ≤ s.bytesTotal)
    && decide (10 * (s.quotaSum c (·.power) + q.power) ≤ s.inForce)

/-! ## Shed and restore, R307, R308 -/

/-- Shed a context: SHED, and a record of the context and the budget. A watch context owes GAP on its next record. -/
def State.shedCtx (s : State) (c : Nat) : State :=
  let s1 := (s.updCtx c (fun x => { x with state := .shed, shedQ := false, quiet := true, alive := s.life.now - x.alive })).trouble 0 7 0 12 c
    ((be 4 (s.inForce / 10)).map (·.toNat))
  if c = 0 then { s1 with watch := { s1.watch with owesGap := true } } else s1

/-! ## Start, R297, R309 -/

/-- A watch schedule at a start: period 0 begins at token 0 of the run of s0 that ingest brings, or, where ingest runs
already, at the next token to be held. -/
def Watch.atStart (first period : Nat) : Watch := { period := period, first := first, riFirst := first }

/-- Token number of s0 of the next token to be appended here. -/
def State.nextHeld (s : State) : Nat :=
  match s.newest with
  | some h => if h.run = s.ing.run then h.token + 1 else 0
  | none => 0

/-- Every input of the image is fed by a slot of its sample width and nominal rate (R362). -/
def State.inputsFed (s : State) (i : Image) : Bool :=
  (List.range i.inputs.length).all (fun k =>
    match i.inputs[k]? with
    | none => true
    | some x => s.ing.slots.any (fun e =>
        match e.2.cfg with
        | some c => decide (c.input = k ∧ c.nomrate = x.rate) && decide (c.format = if x.width = 16 then 0x10 else 0x18)
        | none => false))

/-- The start would start ingest on this module (R364). -/
def State.startsIngest (s : State) (i : Image) (c : Nat) : Bool :=
  !s.ing.running && decide (c = 0 ∨ i.watch = none)
    && (s.standalone || decide (s.pack.source = s.optv.ppos))

/-- A start command (R297; SIGNATURE_FAIL where the image in the active slot is not in force, R496): the status, and the state it leaves where the status is below 0x0010. -/
def State.startCtx (s : State) (c : Nat) : Status × State :=
  match s.image with
  | none => (if s.img.active.isSome then .signatureFail else .badParam, s)
  | some i =>
    match s.member c with
    | none => (.badParam, s)
    | some m =>
      if (s.ctx c).started then (.busy, s)
      else if s.startsIngest i c = true ∧ s.inputsFed i = false then (.badParam, s)
      else if s.quotaFits c m.quota = false then (.noResource, s)
      else
        let s1 := s.updCtx c (fun x => { x with quota := m.quota, estimate := 10 * m.drawW })
        if m.quota.power * 10 < 10 * m.drawW then (.noResource, s)
        else match s1.bindCtx c i m with
          | none => (.noResource, s)
          | some s2 =>
            let s3 := s2.updCtx c (fun x =>
              { x with state := .waiting, catchUp := false, cup := 0, held := x.held, shedQ := false, late := 0, cause := 0,
                       stopReq := none, failLogged := false, latched := false, schedCount := 0, pass := none, pend := none, poisoned := false,
                       inIter := false, quiet := false, pt := x.pendPt.getD x.pt, allow := x.pendAllow.getD x.allow,
                       rint := x.pendRint.getD x.rint, pendPt := none, pendAllow := none, pendRint := none })
            let s4 := { s3 with sync := { s3.sync with fullLogged := s3.sync.fullLogged.filter (· ≠ c) } }
            let s5 := if c = 0 then { s4.zeroState m with watch := Watch.atStart s4.nextHeld 0 } else s4
            let s6 := s5.syncIngest
            if s6.drawTest c then (.ok, s6) else (.budget, s6.shedCtx c)

/-! ## Normal end, R276, R297 -/

/-- A context that ends takes no further part in a pass of the pack. -/
def State.leavePass (s : State) (c : Nat) : State :=
  { s with pack := { s.pack with passes := s.pack.passes.filter (fun p => decide (p.ctx ≠ c)) } }

/-- A context ends normally and is Stopped: threads and rings free, counters freed or orphaned, changes that awaited a
boundary in force (R426), pass and pending pass gone. -/
def State.endCtx (s : State) (c : Nat) : State :=
  let s1 := ((s.freeThreads c).unbindRings c).endCounters c
  let s2 := s1.updCtx c (fun x =>
    { x with state := .stopped, catchUp := false, cup := 0, held := false, shedQ := false, cause := 0, stopReq := none,
             buffers := 0, pass := none, pend := none, inIter := false, quiet := false, poisoned := false,
             pt := x.pendPt.getD x.pt, allow := x.pendAllow.getD x.allow, rint := x.pendRint.getD x.rint,
             pendPt := none, pendAllow := none, pendRint := none })
  let s3 := if c = 0 then { s2 with watch := {} } else s2.leavePass c
  s3.syncIngest

/-- Completions of the stops that a context owed. -/
def State.stopDone (s : State) (c : Nat) (who : List (Nat × Nat)) : State :=
  who.foldl (fun s a => s.complete (some a) 0x0402 c .ok 0 []) s

/-- A context is Stopped by a stop that takes effect: one commit, then its completions. -/
def State.stopNow (s : State) (c : Nat) : State :=
  let who := (s.ctx c).stopReq.getD []
  ((s.endCtx c).commit).stopDone c who

/-! ## Faults, R278, R298 -/

/-- The RUN of a pass that a fault or reset ends completes with WATCHDOG and the cause. -/
def State.runFailed (s : State) (c : Nat) (who : Option (Nat × Nat)) (no cause : Nat) : State :=
  s.complete who 0x0408 c .watchdog cause [(1, be 4 no)]

/-- RUNs of a context whose passes are ended or discarded by a fault or reset. -/
def State.runsFailed (s : State) (c cause : Nat) : State :=
  let x := s.ctx c
  let s1 := match x.pass with | some p => s.runFailed c p.askedBy p.no cause | none => s
  match x.pend with | some p => s1.runFailed c p.askedBy p.no cause | none => s1

/-- Threads of a context that faults: each becomes Faulted, after a step in progress completes. -/
def State.faultThreads (s : State) (c : Nat) : State :=
  s.each (s.threadsOf c) (fun s t => (s.withdraw t).updThread t (fun x =>
    if x.state = .running then x else { x with state := .faulted, waits := .none }))

/-- The watch schedule at a fault: nothing of the period in progress is issued, and what follows is a gap until the state
restarts (R299, R291). -/
def State.watchLost (s : State) : Watch :=
  { s.watch with
    mandatory := false, deferrable := false, ready := [], gather := [], riCount := 0, flags := 0, cls := 0, evaluated := 0
    owesGap := true
    gapFrom := some (s.watch.gapFrom.getD (s.ing.s0.getD 0 + s.watch.first * s.tokenSpan)) }

/-- What a fault and a reset have in common: threads, rings, counters, the pass, the pending pass. -/
def State.dropCtx (s : State) (c cause : Nat) : State :=
  let s1 := ((s.faultThreads c).unbindRings c).orphanAll c
  let s2 := (s1.runsFailed c cause).leavePass c
  s2.updCtx c (fun x => { x with pass := none, pend := none, inIter := false, catchUp := false, cup := 0, held := false,
                                 shedQ := false, quiet := false })

/-- A context faults (R278) for a cause: trouble bit `b` of word 2 and a record of the cause. A stop that was owed then
takes effect (R297). -/
def State.faultCtx (s : State) (c b code loc : Nat) (detail : List Nat) : State :=
  if (s.ctx c).started then
    let stop := (s.ctx c).stopReq
    let s1 := if c = 0 then { s with watch := s.watchLost } else s
    let s2 := (s1.dropCtx c code).updCtx c (fun x => { x with state := .faulted, cause := code, failLogged := false })
    let s3 := (s2.syncIngest.commit).troubleAs 2 b { code := code, loc := loc, ctx := c, detail := detail }
    match stop with
    | none => s3
    | some _ => s3.stopNow c
  else s

/-- WATCHDOG_EXPIRE: the watchdog of a started context that is not Shed and has a thread neither Free nor at Boundary fires: its
time has passed since a thread of the context last completed a step (R277, R278, R307). -/
def execWatchdogExpire (ctx : Nat) (s : State) : Outc :=
  let x := s.ctx ctx
  if s.isReady = true ∧ x.live = true ∧ s.idle ctx = false ∧ x.alive + 1000 * x.wdog ≤ s.life.now then .next (s.faultCtx ctx 0 0x300 0 []) else .next s

end Sys2Proof.Machine
end

