-- ==== Sys2Proof/Machine/Skips.lean ====
section
/-! DEFINITION. A thread's way from record to record: END, and the records that catch-up skips with the counter effects
they keep (R254, R255); the signal, the arrival and the submit that a record and a skipped record share (R223, R257, R272,
R329, R349). -/

namespace Sys2Proof.Machine

open Sys2Proof

/-- The member that a remote signal goes to: the lead of this member's epoch, or a position (R329). -/
def State.signalDst (s : State) (lead : Bool) (pos : Nat) : Nat :=
  if lead then (if s.isLead then s.optv.ppos else s.pack.lead) else pos

/-- A signal to the same local id on a member; FENCED is 1 where no tier-6 write to it has gone since the context's last
pack fence (R329, R331). -/
def State.remoteSignal (s : State) (t ctx id delta dst : Nat) (fenced : Bool) : State :=
  if dst = s.optv.ppos then s.sendSignal { who := t, ctx := ctx, id := id, delta := delta }
  else s.packSend dst ctx (.signal id delta (fenced || decide (Tab.get 0 s.pack.unfenced (64 * ctx + dst) = 0))
    (Tab.get 0 s.pack.wsent (64 * ctx + dst) % 2 ^ 32))

/-- What a counter signal record does (R257, R260, R329). -/
def State.signalRecord (s : State) (t : Nat) (r : BitVec 256) : State :=
  let ctx := (s.thread t).ctx
  let id := rf r 247 236
  let delta := rf r 235 204
  if rf r 203 203 = 1 then s.remoteSignal t ctx id delta (s.signalDst (rf r 196 196 == 1) (rf r 202 197)) false
  else s.sendSignal { who := t, ctx := ctx, id := id, delta := delta }

/-- The arrival of a barrier arrive record: a signal of 1 to its central counter, counted in the tally of a pack barrier
(R272, R349, R350). -/
def State.arriveRecord (s : State) (t : Nat) (r : BitVec 256) (fenced : Bool) : State :=
  let ctx := (s.thread t).ctx
  let id := rf r 247 236
  if rf r 203 203 = 1 then
    ({ s with pack := { s.pack with tallies := Tab.upd 0 s.pack.tallies (4096 * ctx + id) (· + 1) } }).remoteSignal t ctx id 1
      (s.signalDst true 0) fenced
  else s.sendSignal { who := t, ctx := ctx, id := id, delta := 1 }

/-- The ring that a submit record names: an image ring of the thread's own cluster. -/
def ringNo (t : Nat) (r : BitVec 256) : Nat := 64 * clusterOf t + rf r 247 242

/-- A ring takes `k` more eligible descriptors, marked skipped or not; `none` where they do not fit (R223, R255). -/
def Ring.submit (x : Ring) (k : Nat) (skip : Bool) : Option Ring :=
  if x.len < x.elig + k then none
  else some { x with elig := x.elig + k, skipped := x.skipped ++ List.replicate k skip, state := if x.state = 0 then 1 else x.state }

/-- The thread passes its END record: ITER rises and it waits at Boundary (R254). -/
def State.passEnd (s : State) (t : Nat) : State :=
  s.updThread t (fun x => { x with state := .boundary, iter := (x.iter + 1) % 2 ^ 32, done := false, waits := .none })

/-- A record of the deferrable part is skipped in catch-up: it leaves counters as if it had run (R255). `none` where its
submit does not fit its ring yet. -/
def State.skipRecord (s : State) (t : Nat) (r : BitVec 256) : Option State :=
  match rKind r with
  | 5 => ((s.ring (ringNo t r)).submit (rf r 241 231) true).map (fun x => s.updRing (ringNo t r) (fun _ => x))
  | 6 => some (s.signalRecord t r)
  | 9 => some (s.arriveRecord t r false)
  | _ => some s

/-- Skip records with DEFER set from a thread's PC while CATCH is set. -/
def State.skipFrom (s : State) (t : Nat) : Nat → State
  | 0 => s
  | n + 1 =>
    let r := s.recordOf t
    if (s.thread t).catchUp = true ∧ rDefer r = true then
      match s.skipRecord t r with
      | none => s.updThread t (fun x => { x with state := .stalled, waits := .ring })
      | some s1 =>
        if rEnd r then s1.passEnd t
        else (s1.updThread t (fun x => { x with pc := x.pc + 1 })).skipFrom t n
    else s

/-- A thread is Ready at its PC, and skips what catch-up has it skip. -/
def State.readyAt (s : State) (t : Nat) : State :=
  (s.updThread t (fun x => { x with state := .ready, done := false, waits := .none, since := s.nextSince })).skipFrom t 2048

/-- The thread goes on from the record it has completed; its context's watchdog restarts (R277). -/
def State.proceed (s0 : State) (t : Nat) : State :=
  let s := s0.updCtx (s0.thread t).ctx (fun x => { x with alive := s0.life.now })
  if rEnd (s.recordOf t) then s.passEnd t
  else (s.updThread t (fun x => { x with pc := x.pc + 1 })).readyAt t

end Sys2Proof.Machine
end

