-- ==== Sys2Proof/Machine/Scales.lean ====
section
/-! DEFINITION. Clip statistics and scale adaptation: the close of an interval (R131 to R145). -/

namespace Sys2Proof.Machine

open Sys2Proof

/-- The number in its core of a context's clip record for a channel: every context keeps records of its own (R135, R141). -/
def clipKey (ctx point channel : Nat) : Nat := 2 ^ 28 * ctx + 65536 * point + channel

/-- A context's clip record for a channel of a point. -/
def State.clip (s : State) (ctx core point channel : Nat) : ClipRec :=
  Tab.get {} (s.core core).clips (clipKey ctx point channel)

/-- Change a clip record. -/
def State.updClip (s : State) (ctx core point channel : Nat) (f : ClipRec → ClipRec) : State :=
  s.updCore core (fun c => { c with clips := Tab.upd {} c.clips (clipKey ctx point channel) f })

/-- Count conversions: clips and conversions saturate and set OVF, PEAK keeps the largest magnitude (R131 to R133). -/
def ClipRec.count (c : ClipRec) (clips total peak : Nat) : ClipRec :=
  { c with
    clips := satAdd 32 c.clips clips
    total := satAdd 32 c.total total
    peak := max c.peak (min peak 65535)
    ovf := c.ovf || decide (top 32 < c.clips + clips) || decide (top 32 < c.total + total) }

/-- Members of an image, each with its number: 0 watch, 1 inspect. -/
def Image.members (i : Image) : List (Nat × Member) :=
  (match i.watch with | some m => [(0, m)] | none => []) ++ (match i.inspect with | some m => [(1, m)] | none => [])

/-- The context kind that a program or ring serves: the watch member's for context 0. -/
def kindOf (ctx : Nat) : Nat := if ctx = 0 then 0 else 1

/-- Row-group size and SYMONLY of the plane that a panel step of a core names. -/
def Image.planeKind (i : Image) (core e lp : Nat) : Nat × Bool :=
  match (i.members.findSome? (fun m => (m.2.placement.zip m.2.blocks).findSome? (fun p =>
      if p.1.home = 0 ∧ p.1.loc.toNat = locPlane (9 * core + e) lp then some p.2 else none))) with
  | some b => (b.file.gsize, b.file.symonly)
  | none => (0, false)

/-- The record of the image's programs that a reader is. -/
def Image.readerRec (i : Image) (r : Reader) : Option (BitVec 256) :=
  (i.programs.find? (fun p => p.thread == r.thread)).bind (fun p => p.records[r.record]?)

/-- Rows of a row group of the plane that a panel step among a point's readers names. -/
def Image.readerG (i : Image) (r : Reader) : Option Nat :=
  (i.readerRec r).bind (fun x =>
    if rKind x = 0 then some (rowsOf (i.planeKind (r.thread / 16) (rf x 247 245) (rf x 244 241)).1) else none)

/-- Channels of an adaptation unit of a point: those of a row group of the plane that reads it, one where no panel step
does (R136). -/
def Image.unitSize (i : Image) (p : ReqPoint) : Nat := (p.readers.findSome? i.readerG).getD 1

/-- As the image in force gives it. -/
def State.unitSize (s : State) (p : ReqPoint) : Nat := match s.image with | some i => i.unitSize p | none => 1

/-- The output range of a format (R128, R129). -/
def outRange (fmt : Nat) : Int × Int :=
  match fmt with
  | 0 => (-128, 127) | 1 => (0, 255) | 2 => (-8, 7) | 3 => (0, 15) | _ => (-32768, 32767)

/-- Adaptation units of a point, of `u` channels each. -/
def ReqPoint.nUnits (p : ReqPoint) (u : Nat) : Nat := (p.channels + u - 1) / u

/-- Channels of unit `k`. -/
def ReqPoint.chans (p : ReqPoint) (u k : Nat) : List Nat :=
  (List.range (min u (p.channels - k * u))).map (fun i => k * u + i)

/-- The statistics of a unit, R136. -/
def State.unitStat (s : State) (ctx : Nat) (p : ReqPoint) (n k : Nat) : UnitStat :=
  (p.chans (s.unitSize p) k).foldl (fun u c =>
    let r := s.clip ctx p.core p.point c
    { u with clips := u.clips + r.clips, total := u.total + r.total, peak := max u.peak r.peak, ovf := u.ovf || r.ovf })
    { unit := n }

/-- The scale of a unit in force, read from its first channel (all records of a unit hold the same, R136). -/
def State.unitScale (s : State) (ctx : Nat) (p : ReqPoint) (n k : Nat) : UnitScale :=
  let r := s.clip ctx p.core p.point (k * s.unitSize p)
  { unit := n, exp := r.exp, downrun := r.downrun, satrun := r.satrun }

/-- Set the scale of a unit. -/
def State.setScale (s : State) (ctx : Nat) (p : ReqPoint) (k : Nat) (u : UnitScale) : State :=
  s.each (p.chans (s.unitSize p) k) (fun s c =>
    s.updClip ctx p.core p.point c (fun r => { r with exp := u.exp, downrun := u.downrun, satrun := u.satrun }))

/-- The clip share exceeds 2^-10 (R133). -/
def UnitStat.excess (u : UnitStat) : Bool := decide (u.total < u.clips * 1024)

/-- The quiet condition of R139. -/
def UnitStat.quiet (u : UnitStat) (p : ReqPoint) : Bool :=
  let (lo, hi) := outRange p.fmt
  u.clips == 0 && decide ((2 * u.peak : Int) < max ((p.zout : Int) - lo) (hi - p.zout))

/-- An exponent within its bounds (R140). -/
def expBound (e : Int) : Int := max (-16) (min 16 e)

/-- One update of an adaptive unit at the close of an interval: R138, R139 up to 4 members, R143 from 5 on. -/
def adapted (p : ReqPoint) (large : Bool) (u : UnitStat) (x : UnitScale) : UnitScale :=
  if u.total = 0 then x
  else if large then { x with exp := 0, downrun := 0, satrun := if u.excess then min 4 (x.satrun + 1) else 0 }
  else if u.excess then { x with exp := expBound (x.exp + 1), downrun := 0 }
  else if u.quiet p then
    (if 16 ≤ x.downrun + 1 then { x with exp := expBound (x.exp - 1), downrun := 0 } else { x with downrun := x.downrun + 1 })
  else { x with downrun := 0 }

/-- Events of an update: SCALE_BOUND when e reaches a bound, SCALE_SATURATION when SATRUN reaches 4. -/
def State.scaleEvents (s : State) (p : ReqPoint) (ctx : Nat) (x y : UnitScale) : State :=
  let detail := (be 2 p.point ++ be 4 y.unit).map (·.toNat)
  let s1 := if (y.exp = 16 ∨ y.exp = -16) ∧ x.exp ≠ y.exp then s.trouble 2 5 (locCore p.core) 0 ctx detail else s
  if y.satrun = 4 ∧ x.satrun ≠ 4 then s1.trouble 2 6 (locCore p.core) 0 ctx detail else s1

/-- Adaptive units of a member in the order of its scales section: point, index in the point (R322). -/
def State.units (s : State) (m : Member) : List (ReqPoint × Nat) :=
  (m.points.filter (·.adapt)).flatMap (fun p => (List.range (p.nUnits (s.unitSize p))).map (fun k => (p, k)))

/-- Live members are five or more (R143, R144). -/
def State.isLarge (s : State) : Bool :=
  !s.standalone && !s.pack.detached && decide (5 ≤ s.livePos.length)

/-- The context's adaptation is the lead's: that of an inspect context in a pack (R142). -/
def State.byLead (s : State) (c : Nat) : Bool := decide (c ≠ 0) && !s.standalone && !s.pack.detached

/-- Set every exponent and run of a context to 0 (R144). -/
def State.zeroScales (s : State) (c : Nat) (m : Member) : State :=
  s.each (s.units m) (fun s p => s.setScale c p.1 p.2 { unit := 0 })

/-- Adapt every unit of a context from given statistics; `events` says that their events are this module's to raise. -/
def State.adaptAll (s : State) (c : Nat) (m : Member) (large events : Bool) (stat : State → ReqPoint → Nat → Nat → UnitStat) :
    State :=
  let us := s.units m
  s.each (List.range us.length) (fun s n =>
    match us[n]? with
    | none => s
    | some (p, k) =>
      let x := s.unitScale c p n k
      let y := adapted p large (stat s p n k) x
      let s1 := s.setScale c p k y
      if events then s1.scaleEvents p c x y else s1)

/-- Snapshots of a context's adaptive units, for the lead. -/
def State.snapshotOf (s : State) (c : Nat) (m : Member) : List UnitStat :=
  let us := s.units m
  (List.range us.length).filterMap (fun n => (us[n]?).map (fun p => s.unitStat c p.1 n p.2))

/-- Change a snapshot record. -/
def State.updSnap (s : State) (ctx core point channel : Nat) (f : ClipRec → ClipRec) : State :=
  s.updCore core (fun k => { k with snapshot := Tab.upd {} k.snapshot (clipKey ctx point channel) f })

/-- Step 1: copy the counts of every record of a context into the snapshot. -/
def State.snapCounts (s : State) (c : Nat) (m : Member) : State :=
  s.each m.points (fun s p =>
    s.each (List.range p.channels) (fun s j =>
      let r := s.clip c p.core p.point j
      s.updSnap c p.core p.point j
        (fun o => { o with clips := r.clips, total := r.total, peak := r.peak, ovf := r.ovf })))

/-- Step 3: zero the counts. -/
def State.zeroCounts (s : State) (c : Nat) (m : Member) : State :=
  s.each m.points (fun s p =>
    s.each (List.range p.channels) (fun s j =>
      s.updClip c p.core p.point j (fun r => { r with clips := 0, total := 0, peak := 0, ovf := false })))

/-- Step 4: copy the exponents and runs, ADAPT and KIND. -/
def State.snapScales (s : State) (c : Nat) (m : Member) : State :=
  s.each m.points (fun s p =>
    s.each (List.range p.channels) (fun s j =>
      let r := s.clip c p.core p.point j
      s.updSnap c p.core p.point j (fun o =>
        { o with exp := r.exp, downrun := r.downrun, satrun := r.satrun, adapt := p.adapt, kind := flag p.coreKind })))

/-- Exponents and runs of a context's units from what the lead has sent, by unit number. -/
def State.setUnits (s : State) (c : Nat) (m : Member) (l : List UnitScale) : State :=
  let us := s.units m
  s.each l (fun s x => match us[x.unit]? with | some (p, k) => s.setScale c p k x | none => s)

/-- The same in the interval snapshot (R135). -/
def State.snapUnits (s : State) (c : Nat) (m : Member) (l : List UnitScale) : State :=
  let us := s.units m
  s.each l (fun s x =>
    match us[x.unit]? with
    | some (p, k) => s.each (p.chans (s.unitSize p) k) (fun s j =>
        s.updSnap c p.core p.point j (fun r => { r with exp := x.exp, downrun := x.downrun, satrun := x.satrun }))
    | none => s)

/-- Engines whose panels and digital arrays serve the steps of a context: those of the cores of its threads. -/
def State.clipEngines (s : State) (c : Nat) : List Nat :=
  ((s.threadsOf c).map (· / 16)).dedup.flatMap (fun k => (List.range 9).map (fun e => 9 * k + e))

/-- The KIND 2 records close with the interval of the context whose threads run on their core: into the engine's snapshot, and
zero (R134, R135). -/
def State.closeColumns (s : State) (c : Nat) : State :=
  s.each (s.clipEngines c) (fun s e => s.updEngine e (fun x => { x with clipSnap := x.clips, clips := [] }))

/-- The lead applies the rule once to the sums of the snapshots that it holds of a context's last pass (R142, R143), unless the
exponents have just been set to 0 (R144). It does so when the last live member's snapshot is there, at the latest when the
next pass starts: the spec says only that the exponents go out with that start (DESIGN CHOICE, assumption 73). -/
def State.applySnaps (s : State) (c : Nat) : State :=
  match s.member c, Tab.get [] s.pack.snaps c with
  | some m, l :: ls =>
    let sum := fun (n : Nat) => ((l :: ls).flatMap (fun u => u.2.filter (fun x => decide (x.unit = n)))).foldl (fun (a : UnitStat) x =>
      { a with clips := a.clips + x.clips, total := a.total + x.total, peak := max a.peak x.peak, ovf := a.ovf || x.ovf }) { unit := n }
    let s1 := { s with pack := { s.pack with snaps := Tab.set [] s.pack.snaps c [], scaleSend := (s.pack.scaleSend ++ [c]).dedup } }
    if (s.ctx c).crossed then s1
    else (s1.adaptAll c m s.isLarge true (fun _ _ n _ => sum n)).snapScales c m
  | _, _ => s

/-- A snapshot reaches the lead: of an inspect context it is kept until the rule is applied; of the watch context, which only a
pack of five or more sends, the lead keeps SATRUN and raises the events (R143). -/
def State.noteSnap (s : State) (c pos : Nat) (u : List UnitStat) : State :=
  if c = 0 then
    match s.member 0 with
    | some m => if s.isLarge then s.adaptAll 0 m true true (fun _ _ n _ => (u.find? (fun x => decide (x.unit = n))).getD { unit := n }) else s
    | none => s
  else
    let l := (Tab.get [] s.pack.snaps c).filter (fun x => decide (x.1 ≠ pos)) ++ [(pos, u)]
    let s1 := { s with pack := { s.pack with snaps := Tab.set [] s.pack.snaps c l } }
    if s1.livePos.all (fun q => l.any (fun x => x.1 == q)) then s1.applySnaps c else s1

/-- The snapshot of a closed interval goes to the lead (R142, R143). -/
def State.giveSnap (s : State) (c : Nat) (u : List UnitStat) : State :=
  if s.isLead then s.noteSnap c s.optv.ppos u
  else
    let b : PackBody := .snapshot { epoch := s.pack.epoch, pass := if c = 0 then s.watch.period else (s.ctx c).passNo } u
    let s2 := s.packSend s.pack.lead c b
    { s2 with pack := { s2.pack with
      sent := (s2.pack.sent.filter (fun (x : Sent) => decide (x.type ≠ 6 ∨ x.ctx ≠ c))) ++
        [({ dst := s2.pack.lead, type := 6, layer := 0, body := b, ctx := c } : Sent)] } }

/-- The close on this module, in the order of R135. In a pack, adaptation of an inspect context is the lead's (R142): its units
then stay as they are, until SCALE_SET. A change of membership across 5 zeroes them instead (R144). -/
def State.closeLocal (s : State) (c : Nat) (m : Member) : State :=
  let s1 := s.snapCounts c m
  let s2 :=
    if (s1.ctx c).large ≠ s1.isLarge then (s1.zeroScales c m).updCtx c (fun x => { x with large := s1.isLarge, crossed := true })
    else (if s1.byLead c then s1
          else s1.adaptAll c m s1.isLarge (!s1.isLarge || s1.isLead) (fun s p n k => s.unitStat c p n k)).updCtx c
            (fun x => { x with crossed := false })
  ((s2.zeroCounts c m).snapScales c m).closeColumns c

/-- The close of an interval of a context (R135): on this module, and in a pack the snapshot to the lead where the lead has a
part in it. -/
def State.closeInterval (s : State) (c : Nat) : State :=
  match s.member c with
  | none => s
  | some m =>
    let u := s.snapshotOf c m
    let s1 := s.closeLocal c m
    if s1.standalone ∨ s1.pack.detached = true ∨ (c = 0 ∧ (s1.isLarge = false ∨ s1.isLead = true)) then s1 else s1.giveSnap c u

/-- The exponent in force of a channel of a point (R137, R141). -/
def State.expOf (s : State) (ctx core point channel : Nat) : Int := (s.clip ctx core point channel).exp

/-- The exponents by which a step reads `n` elements: those of the adaptive point that its record reads, 0 where it reads none;
element `i` is channel `i * step` on from the reader's first (R136, R137). -/
def State.readExps (s : State) (t n step : Nat) : List Int :=
  let x := s.thread t
  match ((s.member x.ctx).getD {}).points.findSome? (fun p =>
      if p.adapt then (p.readers.find? (fun r => decide (r.thread = t ∧ r.record + x.base = x.pc))).map (fun r => (p, r)) else none) with
  | some (p, r) => (List.range n).map (fun i => s.expOf x.ctx p.core p.point (r.chan + i * step))
  | none => List.replicate n 0

end Sys2Proof.Machine
end

