-- ==== Sys2Proof/Machine/Results.lean ====
section
/-! DEFINITION. Result records: gathering head values, issuing records, the result pool, RESULT notifies (R31, R40 to
R42, R110, R154, R412 to R415, R420). -/

namespace Sys2Proof.Machine

open Sys2Proof

/-- Heads of a member of the image, in order. -/
def Image.headsOf (i : Image) (member : Nat) : List HeadKind :=
  (i.heads.filter (fun h => decide (h.1 = member))).map Prod.snd

/-- Values that a head of a kind gives (Table 1.4). -/
def HeadKind.count : HeadKind → Nat
  | .cls k => k
  | .anomaly => 1
  | .life c => 3 * c

/-- Gather one head over a report interval or segment: the maximum of an anomaly head, the last values of the others; a
poisoned value among those that form it poisons the head (R31, R40, R154, R413). -/
def gatherHead (kind : HeadKind) (head : Nat) (old : Option HeadSection) (vals : List F32) (poisoned : Bool) : HeadSection :=
  match kind, old with
  | .anomaly, some h =>
    { head := head, poisoned := h.poisoned || poisoned, values := [headMax (h.values.getD 0 0) (vals.getD 0 0)] }
  | _, _ => { head := head, poisoned := poisoned, values := (vals ++ List.replicate kind.count 0).take kind.count }

/-- Gather a token's outputs; `bad` says that the context's state, or the token, is poisoned. -/
def gatherTok (kinds : List HeadKind) (old : List HeadSection) (tok : TokenOut) (bad : Bool) : List HeadSection :=
  (List.range kinds.length).map (fun h =>
    gatherHead (kinds.getD h .anomaly) h (old.find? (fun x => x.head == h)) (tok.values.getD h [])
      (bad || tok.poisoned.getD h false))

/-- A head value is not finite (R154). -/
def HeadSection.odd (h : HeadSection) : Bool := h.values.any (fun v => !finite32 v)

/-- The flags that a record's own heads give: POISONED and, for a value that is not finite, DEGRADED (R154, R413). -/
def headFlags (hs : List HeadSection) : BitVec 16 :=
  qIf (hs.any (·.poisoned)) qPoisoned ||| qIf (hs.any HeadSection.odd) qDegraded

/-- Flags that a token of the history gives: GAP, and DEGRADED for TROUBLE (R383). -/
def tokenFlags (flags : Nat) : BitVec 16 := qIf (decide (flags / 4 % 2 = 1)) qGap ||| qIf (decide (flags % 2 = 1)) qDegraded

/-- WARMING: coverage below the minimum context, where no restored checkpoint supplies the state (R41). -/
def warming (cover minCtx : Nat) (restored : Bool) : Bool := decide (cover < minCtx) && !restored

/-- Worst class code of a context's panel steps in the present iteration (R110). -/
def State.clsOf (s : State) (c : Nat) : Nat := (s.threadsOf c).foldl (fun a t => max a (s.thread t).cls) 0

/-- A step of the present iteration used an exponent other than 0 (R145). -/
def State.adaptedOf (s : State) (c : Nat) : Bool := (s.threadsOf c).any (fun t => (s.thread t).adapted)

/-- A step of the present iteration read a poisoned word (R442). -/
def State.poisonOf (s : State) (c : Nat) : Bool :=
  (s.ctx c).poisoned || s.mem.tainted.contains c || (s.threadsOf c).any (fun t => (s.thread t).poison)

/-! ## Issue, R414, R415, R420 -/

/-- The next result number of a context: in a pack the lead's epoch and a count within it (R414). -/
def State.nextResno (s : State) (c : Nat) : Nat :=
  let n := (s.ctx c).resno
  if s.standalone then n + 1 else if n / 2 ^ 32 = s.pack.epoch then n + 1 else s.pack.epoch * 2 ^ 32 + 1

/-- Bytes of the result pool. -/
def poolMax : Nat := 2 ^ 28

/-- Bytes that records take. -/
def recLen (l : List ResultRec) : Nat := (l.map ResultRec.len).sum

/-- Drop the oldest records while the pool is over its size. -/
def trimPool : Nat → List ResultRec → List ResultRec
  | 0, l => l
  | n + 1, l => if poolMax < recLen l then trimPool n l.tail else l

/-- A RESULT notify: up to the first 1,024 bytes of head sections (Table 11.12). -/
def State.resultNotify (s : State) (sid : Nat) (r : ResultRec) : State :=
  s.notify sid 0x05C0 r.ctx r.status 0 [(1, r.bytes.take 1088)]

/-- Number a record, put it into the pool, notify the sessions that take its context's results. -/
def State.issueOne (s : State) (r : ResultRec) : State :=
  let n := s.nextResno r.ctx
  let rec_ := { r with resno := n }
  let s1 := { s.updCtx r.ctx (fun c => { c with resno := n }) with results := s.results ++ [rec_] }
  s1.each s1.sids (fun s sid =>
    match s.sess sid with
    | some x => if x.results.contains r.ctx then s.resultNotify sid rec_ else s
    | none => s)

/-- Troubles that issued records raise: dropped records, POISONED (R414, R442). -/
def State.issueTroubles (s : State) (rs : List ResultRec) : State :=
  let kept := trimPool s.results.length s.results
  let s1 := if kept.length < s.results.length then ({ s with results := kept }).raise 2 16 1 else s
  rs.foldl (fun s r => if r.qflags.getLsbD 2 then s.trouble 1 9 0 0 r.ctx [] else s) s1

/-- A member that is not lead sends its records to the lead and keeps them until they are shown issued (R338, R415). -/
def State.sendRecord (s : State) (r : ResultRec) : State :=
  let n := s.pack.rseq + 1
  let s1 := { s with pack := { s.pack with rseq := n, kept := s.pack.kept ++ [(n, r)] } }
  s1.packSend s1.pack.lead r.ctx (.result { epoch := s1.pack.epoch, pass := r.pass } n r)

/-- Issue records in one commit (R287, R423); on a member that is not lead, send them to the lead. -/
def State.issue (s : State) (rs : List ResultRec) : State :=
  if rs.isEmpty then s
  else if s.isLead then (rs.foldl (fun s r => s.issueOne r) s.commit).issueTroubles rs
  else rs.foldl (fun s r => s.sendRecord r) s

/-- Pack position in a record: 0 when standalone (Table 11.10). -/
def State.recPos (s : State) : Nat := if s.standalone then 0 else s.optv.ppos

/-- Oldest and newest result numbers held of a context; 0 where none. -/
def State.heldRange (s : State) (c : Nat) : Nat × Nat :=
  let l := s.results.filter (fun r => decide (r.ctx = c))
  ((l.head?.map (·.resno)).getD 0, (l.getLast?.map (·.resno)).getD 0)

end Sys2Proof.Machine
end

