-- ==== Sys2Proof/Machine/Advisory.lean ====
section
/-! DEFINITION. Advisory rules and inspect triggers: the rule machine of R572, triggers and their merging (R33, R34, R38,
R43 to R45, R338, R339, R573). -/

namespace Sys2Proof.Machine

open Sys2Proof

/-! ## Held tokens -/

/-- The token with an append number, where it is held. -/
def State.heldNo (s : State) (n : Nat) : Option HistSlot :=
  (s.hist.slots.find? (fun e => e.2.holds && decide (e.2.no = n))).map Prod.snd

/-- The token with a number of a run of s0, where it is held. -/
def State.heldTok (s : State) (run n : Nat) : Option HistSlot :=
  (s.hist.slots.find? (fun e => e.2.holds && decide (e.2.run = run ∧ e.2.token = n))).map Prod.snd

/-- Append numbers of the tokens held. -/
def State.heldNos (s : State) : List Nat := (s.hist.slots.filter (fun e => e.2.holds)).map (fun e => e.2.no)

/-- The oldest append number held. -/
def State.oldestNo (s : State) : Option Nat :=
  match s.heldNos with
  | [] => none
  | n :: ns => some (ns.foldl min n)

/-! ## Rules, R572 -/

/-- A value lies beyond the assert threshold. -/
def Rule.beyond (r : Rule) (v : F32) : Bool := if r.above then flt r.assertAt v else flt v r.assertAt
/-- A value lies beyond the release threshold. -/
def Rule.below (r : Rule) (v : F32) : Bool := if r.above then flt v r.releaseAt else flt r.releaseAt v

/-- A token that R44 passes over: both consecutive counts are 0. -/
def RuleState.pass (x : RuleState) : RuleState := { x with upCount := 0, downCount := 0 }

/-- One token of a rule that is not passed over (R572). -/
def RuleState.eval (r : Rule) (x : RuleState) (v : F32) : RuleState :=
  let up := if r.beyond v then min 255 (x.upCount + 1) else 0
  if x.asserted then
    let down := if r.below v then min 255 (x.downCount + 1) else 0
    let hold := min 65536 (x.hold + 1)
    if r.minHold ≤ hold ∧ r.releaseCount ≤ down then { asserted := false, upCount := up, downCount := 0, hold := 0 }
    else { asserted := true, upCount := up, downCount := down, hold := hold }
  else if r.assertCount ≤ up then { asserted := true, upCount := up, downCount := 0, hold := 0 }
  else { x with upCount := up, downCount := 0, hold := 0 }

/-- What a token of a member is, for rules and triggers. -/
structure TokInfo where
  ctx : Nat
  member : Nat
  sidx : Nat
  gap : Bool
  poison : Bool
  warm : Bool
  clsC : Bool
  deriving DecidableEq, Repr

/-- R44 and R154 pass a token over for a rule. -/
def Rule.skips (r : Rule) (k : TokInfo) (tok : TokenOut) : Bool :=
  let v := (tok.values.getD r.head []).getD r.element 0
  k.gap || k.poison || tok.poisoned.getD r.head false || !finite32 v
    || (k.warm && !r.permit.getLsbD 0) || (k.clsC && !r.permit.getLsbD 1)

/-- ADVISORY notifies of a rule that asserts or releases (Table 11.12). -/
def State.advisoryNotify (s : State) (n : Nat) (on : Bool) (k : TokInfo) : State :=
  s.each s.sids (fun s sid =>
    match s.sess sid with
    | some x => if x.advisories then
        s.notify sid 0x05C1 k.ctx .ok 0
          [(1, be 1 n), (2, be 1 (flag on)), (3, be 1 k.member), (4, be 8 k.sidx), (5, be 1 s.outputs.toNat)] else s
    | none => s)

/-- A member floods ADVISORY when the assertion of its own rules changes (R338). -/
def State.advisoryFlood (s : State) (sidx : Nat) : State :=
  if s.standalone then s
  else
    let n := s.io.aseq + 1
    ({ s with io := { s.io with aseq := n } }).flood 0 (.advisory s.optv.ppos s.ruleMask n sidx)

/-- One rule at one token. -/
def State.evalRule (s : State) (n : Nat) (r : Rule) (k : TokInfo) (tok : TokenOut) : State :=
  let x := Tab.get {} s.io.rules n
  let y := if r.skips k tok then x.pass else x.eval r ((tok.values.getD r.head []).getD r.element 0)
  let s1 := ({ s with io := { s.io with rules := Tab.set {} s.io.rules n y } }).releaseCut
  if y.asserted = x.asserted then s1
  else
    let s2 := s1.advisoryFlood k.sidx
    if r.notify then s2.advisoryNotify n y.asserted k else s2

/-- Every rule of the token's member (R43). -/
def State.evalRules (s : State) (k : TokInfo) (tok : TokenOut) : State :=
  match s.image with
  | none => s
  | some i => s.each (List.range i.rules.length) (fun s n =>
      match i.rules[n]? with
      | some r => if r.member = k.member then s.evalRule n r k tok else s
      | none => s)

/-! ## Triggers, R33, R34, R38, R573 -/

/-- Passes are this module's own: standalone, or detached (R314). -/
def State.solo (s : State) : Bool := s.standalone || s.pack.detached

/-- A range asks for a pass of an inspect context: it becomes the pending pass, or merges into it, keeping its start and
taking the newer end (R38). The range stands both in append numbers and in reference sample indices. -/
def State.pendRange (s : State) (c first last sfirst slast : Nat) : State :=
  s.updCtx c (fun x =>
    match x.pend with
    | none => { x with pend := some { no := x.passNo + 1, first := first, last := last, sfirst := sfirst, slast := slast }
                       passNo := x.passNo + 1 }
    | some p => { x with pend := some { p with last := last, slast := slast, run := 0 } })

/-- LOOKBACK of all ones is the whole history (R34). -/
def wholeHistory : Nat := 0xFFFFFFFF

/-- First token of a lookback of `l` tokens before token `n`. -/
def lookFrom (l n : Nat) : Nat := if l = wholeHistory then 0 else n - l

/-- First sample of a lookback of `l` tokens of `span` samples before the token that starts at `sidx`. -/
def lookSidx (l span sidx : Nat) : Nat := if l = wholeHistory then 0 else sidx - l * span

/-- A trigger for a context at the token appended as number `n`, whose first sample is `sidx`: ignored where the context is
not started or Faulted (R573). A pack member that is not lead sends the range to the lead, whose contexts decide (R339); the
manual names no frame for it, so it leaves as an output of its own (DESIGN CHOICE, assumption 24). -/
def State.trigger (s : State) (c n sidx : Nat) (schedule : Bool) : State :=
  match s.member c with
  | none => s
  | some m =>
    let w := s.tokenSpan
    let a := if schedule then lookSidx m.desc.lookback w (sidx + w) else lookSidx m.desc.lookback w sidx
    let b := if schedule then sidx + w - 1 else sidx + (m.desc.after + 1) * w - 1
    if c = 0 then s
    else if s.isLead = false then s.emit (.trigger c a b)
    else if (s.ctx c).started = false then s
    else if schedule then s.pendRange c (lookFrom m.desc.lookback (n + 1)) n a b
    else s.pendRange c (lookFrom m.desc.lookback n) (n + m.desc.after) a b

/-- A token of a member that a gap takes: the consecutive counts of the member's rules, and of the watch triggers, are 0 (R44,
R573). -/
def State.gapRules (s : State) (member : Nat) : State :=
  let rules := ((s.image.map (·.rules)).getD [])
  let s1 := s.each (List.range rules.length) (fun s n =>
    match rules[n]? with
    | some r => if r.member = member then { s with io := { s.io with rules := Tab.upd {} s.io.rules n RuleState.pass } } else s
    | none => s)
  if member = 0 then { s1 with watch := { s1.watch with trig := Tab.alter (0, true) (fun x => (0, x.2)) s1.watch.trig } } else s1

/-- One watch trigger at one token: count and armed flag, and whether it is raised (R573). -/
def trigStep (t : Trigger) (x : Nat × Bool) (skip : Bool) (v : F32) : (Nat × Bool) × Bool :=
  if skip then ((0, x.2), false)
  else if (if t.above then flt t.threshold v else flt v t.threshold) then
    let n := x.1 + 1
    if x.2 ∧ t.count ≤ n then ((n, false), true) else ((n, x.2), false)
  else ((0, true), false)

/-- The watch triggers at a token appended as number `n`. -/
def State.evalTriggers (s : State) (k : TokInfo) (tok : TokenOut) (n : Nat) : State :=
  match s.image with
  | none => s
  | some i => s.each (List.range i.triggers.length) (fun s j =>
      match i.triggers[j]? with
      | none => s
      | some t =>
        let v := (tok.values.getD t.head []).getD t.element 0
        let (x, up) := trigStep t (Tab.get (0, true) s.watch.trig j)
          (k.gap || k.poison || tok.poisoned.getD t.head false || !finite32 v) v
        let s1 := { s with watch := { s.watch with trig := Tab.set (0, true) s.watch.trig j x } }
        if up then s1.trigger t.ctx n k.sidx false else s1)

/-- The schedule counts at the token appended as number `n`, whose first sample is `sidx` (R573); in a pack the filling module
counts (R339). -/
def State.countSchedules (s : State) (n sidx : Nat) : State :=
  s.each ((s.ctxs.filter (fun e => decide (e.1 ≠ 0) && e.2.started && decide (e.2.sched ≠ 0))).map Prod.fst) (fun s c =>
    let k := (s.ctx c).schedCount + 1
    if (s.ctx c).sched ≤ k then (s.updCtx c (fun x => { x with schedCount := 0 })).trigger c n sidx true
    else s.updCtx c (fun x => { x with schedCount := k }))

end Sys2Proof.Machine
end

