-- ==== Sys2Proof/Machine/Budget.lean ====
section
/-! DEFINITION. The schedule boundary: shedding, the clock step that fits, restoring, held power-ups (R305 to R309). -/

namespace Sys2Proof.Machine

open Sys2Proof

/-- The projected draw at a clock step with every context that runs, and upkeep of priorities 1 and 2 (R306). -/
def State.projectedLive (s : State) (k : Nat) : Nat := s.projected k (fun _ c => c.live)

/-- Contexts marked SHEDQ are shed (R309). -/
def State.shedMarked (s : State) : State :=
  s.each ((s.ctxs.filter (fun e => e.2.shedQ && e.2.live)).map Prod.fst) (fun s c => s.shedCtx c)

/-- Step 1 of R306: shed inspect contexts while the projected draw at 150 MHz exceeds the budget. -/
def State.shedInspects (s : State) : Nat → State
  | 0 => s
  | n + 1 =>
    if s.projectedLive 2 ≤ s.inForce then s
    else match firstBy s.shedBefore s.liveInspects with
      | none => s
      | some c => (s.shedCtx c).shedInspects n

/-- Step 2 of R306: shed the watch context. -/
def State.shedWatch (s : State) : State :=
  if s.inForce < s.projectedLive 2 ∧ s.liveInspects = [] ∧ (s.ctx 0).live = true then s.shedCtx 0 else s

/-- The highest clock step at which the projected draw fits; 150 MHz where none does (R306). -/
def State.fitStep (s : State) : Nat :=
  (([8, 7, 6, 5, 4, 3].find? (fun k => decide (s.projectedLive k ≤ s.inForce))).getD 2)

/-- Step 3 of R306: set the clock of each running stack and release issue stopped under R305. -/
def State.fitClock (s : State) : State :=
  let k := s.fitStep
  let s1 := s.each ((List.range 4).filter (fun n => (s.clk n).running)) (fun s n => s.updClk n (fun c => { c with budgetStep := k }))
  let s2 := { s1 with supply := { s1.supply with stopped := [], cutting := false } }
  s2.each (s2.ctxs.map Prod.fst) (fun s c => s.updCtx c (fun x => if x.state = .shed then x else { x with quiet := false }))

/-- A restored context runs again, its core groups powered; a watch context rebases without OVERRUN (R307). -/
def State.restoreCtx (s : State) (c : Nat) : State :=
  let s1 := s.updCtx c (fun x => { x with state := if s.idle c then .waiting else .running, quiet := false, alive := s.life.now - x.alive })
  let s2 := if c = 0 then { s1 with watch := { s1.watch with rebase := true } } else s1
  (s2.each ((s2.threadsOf c).map groupOf).dedup (fun s g => s.askPower (.coreGroup g) c)).commit

/-- Shed contexts in the order of restoring: the watch context first, then higher priority, then lower number. -/
def State.restoreOrder (s : State) : Nat → List Nat → List Nat
  | 0, _ => []
  | n + 1, l =>
    match firstBy (fun a b => s.shedBefore b a) l with
    | none => []
    | some c => c :: s.restoreOrder n (l.filter (· ≠ c))

/-- Step 4 of R306: restoring stops at the first context that fails the draw test; one whose estimate exceeds its power
share is passed over. -/
def State.restoreAll (s : State) : List Nat → State
  | [] => s
  | c :: cs =>
    if s.drawTest c = false then s
    else if 10 * (s.ctx c).quota.power < (s.ctx c).estimate then s.restoreAll cs
    else (s.restoreCtx c).restoreAll cs

/-- Power-ups held under R71 are asked for again (R309). -/
def State.retryHeld (s : State) : State :=
  let s1 := { s with supply := { s.supply with waiting := [] }, ctxs := Tab.alter {} (fun x => { x with held := false }) s.ctxs }
  s1.each (s.supply.waiting.filter (fun w => (s.ctx w.2).started)) (fun s w => s.askPower w.1 w.2)

/-- A schedule boundary (R306). -/
def State.scheduleBoundary (s : State) : State :=
  let s1 := ((s.shedMarked.shedInspects 64).shedWatch).fitClock
  let shed := (s1.ctxs.filter (fun e => decide (e.2.state = .shed))).map Prod.fst
  (s1.restoreAll (s1.restoreOrder shed.length shed)).retryHeld

/-- The watch context is not running, so iteration boundaries of inspect contexts are schedule boundaries (R306). -/
def State.watchStill (s : State) : Bool := !(s.ctx 0).live

end Sys2Proof.Machine
end

