-- ==== Sys2Proof/Machine/Passes.lean ====
section
/-! DEFINITION. Inspect passes: start, token outputs, segments, final records, cancel and stop, and the release of
iterations (R34 to R41, R297, R307, R410, R443). -/

namespace Sys2Proof.Machine

open Sys2Proof

/-- First sample index of the token with an append number: of the token where held, else counted back from the oldest. -/
def State.sidxOf (s : State) (n : Nat) : Nat :=
  match s.heldNo n with
  | some h => h.sidx
  | none =>
    match s.oldestNo.bind s.heldNo with
    | some o => if n ≤ o.no then o.sidx - (o.no - n) * s.tokenSpan else o.sidx + (n - o.no) * s.tokenSpan
    | none => s.ing.s0.getD 0 + n * s.tokenSpan

/-- The record of an inspect pass's open segment, which ends before token `p.next` (R40, R410). -/
def State.segRecord (s : State) (c : Nat) (p : Pass) (final : Bool) : ResultRec :=
  let m := (s.member c).getD {}
  let none_ := decide (p.segTokens = 0)
  { sfirst := s.sidxOf (if none_ ∧ final = true then p.next else p.segFirst)
    slast := if none_ ∧ final = true then s.sidxOf p.next else s.sidxOf (p.next - 1) + s.tokenSpan - 1
    cover := p.cover, ctx := c, member := 1, cls := p.cls
    qflags := p.flags ||| headFlags p.gather ||| qIf (warming p.cover m.desc.minCtx false) qWarming
    rkind := if final then 2 else 1, pos := s.recPos, pass := p.no
    tokens := if none_ ∧ final = true then 0 else p.next - p.segFirst
    imgStamp := s.img.stamp, heads := p.gather }

/-- A new segment opens at the next token. -/
def Pass.reopen (p : Pass) : Pass := { p with segFirst := p.next, segTokens := 0, gather := [], flags := 0, cls := 0 }

/-- Set the running pass. -/
def State.setPass (s : State) (c : Nat) (p : Option Pass) : State := s.updCtx c (fun x => { x with pass := p })

/-! ## Passes of a pack, R339 to R348 -/

/-- The pass of the pack that a context runs on this member. -/
def State.packPass (s : State) (c : Nat) : Option PackPass :=
  if s.solo then none else s.pack.passes.find? (fun p => decide (p.ctx = c))

/-- Change the pack's pass of a context. -/
def State.updPass (s : State) (c : Nat) (f : PackPass → PackPass) : State :=
  { s with pack := { s.pack with passes := s.pack.passes.map (fun p => if p.ctx = c then f p else p) } }

/-- A slot runs a replay: every slot but slot 0 and those that follow a hole (R345). -/
def PackPass.replays (p : PackPass) (q : Nat) : Bool := decide (q ≠ 0) && !p.holes.contains (q - 1)

/-- The lead takes a record of a pass: the newest of the range waits to be marked final, every other is issued (R339). -/
def State.leadTake (s : State) (pos rseq : Nat) (r : ResultRec) : State :=
  match s.packPass r.ctx with
  | none => s.issue [r]
  | some p =>
    if p.pass ≠ r.pass ∨ r.member = 0 then s.issue [r]
    else match p.back with
      | none => s.updPass r.ctx (fun x => { x with back := some (pos, rseq, r) })
      | some (_, _, b) =>
        if b.slast < r.slast then (s.updPass r.ctx (fun x => { x with back := some (pos, rseq, r) })).issue [b]
        else s.issue [r]

/-- The record that the lead keeps back is the final one (R339). -/
def State.finishBack (s : State) (c : Nat) : State :=
  match (s.packPass c).bind (·.back) with
  | some (_, _, r) => (s.updPass c (fun x => { x with back := none })).issue [{ r with rkind := 2 }]
  | none => s

/-- A record of this member's share goes to the lead. -/
def State.sendShare (s : State) (r : ResultRec) : State :=
  if s.isLead then s.leadTake s.optv.ppos 0 r else s.sendRecord r

/-- A record of a pass: issued on a module of its own; in a pack sent to the lead, once the check of its slot is made where
the slot replays (R346). -/
def State.issueSeg (s : State) (c : Nat) (r : ResultRec) : State :=
  match s.packPass c with
  | none => s.issue [r]
  | some p =>
    match p.cur with
    | none => s.sendShare r
    | some q =>
      if p.replays q then s.updPass c (fun x => { x with records := x.records ++ [(q, r)] }) else s.sendShare r

/-- The pass issues its final record and ends; a share of a pack's pass ends with its last segment, and the lead marks the
final record (R339). -/
def State.endPass (s : State) (c : Nat) : State :=
  match (s.ctx c).pass with
  | none => s
  | some p =>
    if (s.packPass c).isNone then (s.setPass c none).issue [s.segRecord c p true]
    else if p.segTokens = 0 then s.setPass c none
    else (s.setPass c none).issueSeg c (s.segRecord c p false)

/-- Segment length that the image sets (R40). -/
def State.segLen (s : State) (c : Nat) : Nat := ((s.member c).map (fun m => m.desc.interval)).getD 1

/-- After a token of the pass, read or lost: the last token ends the pass, a full segment issues its record. -/
def State.afterToken (s : State) (c : Nat) : State :=
  match (s.ctx c).pass with
  | none => s
  | some p =>
    match p.last with
    | none => s
    | some l =>
      if l < p.next then s.endPass c
      else if s.segLen c ≤ p.next - p.segFirst then (s.issueSeg c (s.segRecord c p false)).setPass c (some p.reopen)
      else s

/-- The next token of the pass is lost: overwritten before it was read (R37). -/
def State.loseToken (s : State) (c : Nat) (p : Pass) : State :=
  ((s.gapRules 1).setPass c (some { p with next := p.next + 1, flags := p.flags ||| qGap })).afterToken c

/-- Pass over lost tokens up to the next held one. -/
def State.skipLost (s : State) (c : Nat) : Nat → State
  | 0 => s
  | n + 1 =>
    match (s.ctx c).pass with
    | none => s
    | some p =>
      if p.last.getD 0 < p.next ∨ (s.heldNo p.next).isSome then s
      else (s.loseToken c p).skipLost c n

/-- The members' heads at a token of an inspect pass: rules, gathering, coverage, segment records (R40, R43, R572). -/
def State.inspectToken (s : State) (c : Nat) (tok : TokenOut) : State :=
  let s1 := match (s.ctx c).pass with
    | some p => s.skipLost c (p.last.getD 0 + 1 - p.next)
    | none => s
  match (s1.ctx c).pass, s1.image, s1.member c with
  | some p, some i, some m =>
    match s1.heldNo p.next with
    | none => s1
    | some h =>
      let cover := p.cover + 1
      let bad := s1.poisonOf c || decide (h.flags / 2 % 2 = 1)
      let cls := s1.clsOf c
      let k : TokInfo := { ctx := c, member := 1, sidx := h.sidx, gap := decide (h.flags / 4 % 2 = 1), poison := bad,
                           warm := warming cover m.desc.minCtx false, clsC := decide (2 ≤ cls) }
      let s2 := (s1.evalRules k tok).updCtx c (fun x => { x with poisoned := x.poisoned || decide (h.flags / 2 % 2 = 1) })
      (s2.setPass c (some
        { p with
          next := p.next + 1, cover := cover, segTokens := p.segTokens + 1
          gather := gatherTok (i.headsOf 1) p.gather tok bad
          flags := p.flags ||| tokenFlags h.flags ||| qIf (s1.adaptedOf c) qScale
          cls := max p.cls cls })).afterToken c
  | _, _, _ => s1

/-- A pending pass can start: its context runs, no pass runs, its last token has been appended, and no swap waits for the
passes to end (R34, R38, R193, R409). -/
def State.passReady (s : State) (c : Nat) : Option PendPass :=
  if (s.ctx c).live = false ∨ (s.ctx c).pass.isSome ∨ (s.ctx c).inIter = true then none
  else if (match s.img.swap with | some w => decide (5 ≤ w.phase) | none => false) then none
  else match (s.ctx c).pend with
    | some p => if p.last < s.hist.appended then some p else none
    | none => none

/-- The running pass of a pending one: its range clipped to the oldest token held (R35, R36). -/
def State.openPass (s : State) (p : PendPass) : Pass :=
  let first := max p.first (s.oldestNo.getD s.hist.appended)
  let any := (s.heldNos.any (fun n => decide (first ≤ n ∧ n ≤ p.last)))
  { no := p.no, first := first, last := if any then some p.last else none, next := first, segFirst := first,
    askedBy := p.askedBy, sfirst := p.sfirst, slast := p.slast }

/-- A pass starts from a zero state; the core groups of its threads are powered (R71). A pass that holds nothing of its
range ends at once with its final record (R410). -/
def State.startPass (s : State) (c : Nat) (p : PendPass) : State :=
  let q := s.openPass p
  let s1 := s.updCtx c (fun x => { x with pass := some q, pend := none, poisoned := false })
  let s2 := match s1.member c with | some m => s1.zeroState m | none => s1
  let s3 := s2.each ((s2.threadsOf c).map groupOf).dedup (fun s g => s.askPower (.coreGroup g) c)
  if q.last.isSome then s3 else (s3.endPass c).closeInterval c

/-- At an iteration boundary a poisoned state restarts from zero and coverage with it (R443). -/
def State.unpoison (s : State) (c : Nat) : State :=
  if (s.ctx c).poisoned then
    let s1 := match s.member c with | some m => s.zeroState m | none => s
    s1.updCtx c (fun x => { x with poisoned := false, pass := x.pass.map (fun p => { p with cover := 0 }) })
  else s

/-- A pass that is cancelled or stopped ends at the boundary with its final record (R410). -/
def State.cutPass (s : State) (c : Nat) : State :=
  if (s.ctx c).pass.isSome then ((s.endPass c).closeInterval c).finishBack c else s.finishBack c

/-- Threads of a context start an iteration from BASE. -/
def State.releaseThreads (s : State) (c : Nat) (catchUp : Bool) : State :=
  let s1 := s.each (s.threadsOf c) (fun s t => (s.updThread t (fun x =>
    { x with pc := x.base, catchUp := catchUp, cls := 0, adapted := false, poison := false })).readyAt t)
  { s1 with mem := { s1.mem with tainted := s1.mem.tainted.filter (· ≠ c) } }

/-- A stop that takes effect at once (R297): a Shed context's pass ends with no further record, another's as cancelled. -/
def State.stopBoundary (s : State) (c : Nat) : State :=
  let s1 := if (s.ctx c).state = .shed ∨ (s.ctx c).state = .faulted then s.setPass c none
    else if c = 0 then (if s.watch.len = 0 then s else s.closeInterval 0) else s.cutPass c
  s1.stopNow c

/-- The end of an iteration: every thread of the context is at Boundary. A pass that ended within it closes its interval
(R135). -/
def State.iterEnd (s : State) (c : Nat) : State :=
  let s1 := (s.updCtx c (fun x => { x with inIter := false })).refreshCtx c
  if c ≠ 0 ∧ (s1.ctx c).pass.isNone = true then s1.closeInterval c else s1

/-- ITERATION_RELEASE: an inspect context at an iteration boundary: a stop, a cancel, a poisoned state, the schedule
boundary while the watch context does not run; then the next iteration where its pass has tokens left. -/
def execIterationRelease (ctx : Nat) (s : State) : Outc :=
  if ctx = 0 ∨ s.isReady = false ∨ (s.ctx ctx).live = false ∨ s.idle ctx = false then .next s
  else if (s.ctx ctx).stopReq.isSome then .next (s.stopBoundary ctx)
  else
    let s1 := s.unpoison ctx
    let s2 := if ((s1.ctx ctx).pass.map (·.cancel)).getD false then s1.cutPass ctx else s1
    let s3 := if s2.watchStill then s2.scheduleBoundary else s2
    if (s3.ctx ctx).live = false ∨ (s3.ctx ctx).pass.isNone = true ∨ s3.supply.stopped.contains ctx then .next s3
    else .next (((s3.releaseThreads ctx false).updCtx ctx (fun x => { x with inIter := true })).refreshCtx ctx)

end Sys2Proof.Machine
end

