-- ==== Sys2Proof/Machine/StoreRecords.lean ====
section
/-! DEFINITION. Journals: store records and upkeep journal records, each with its own sequence (R187, R463, R477). -/

namespace Sys2Proof.Machine

open Sys2Proof

/-- A record in the store journal, a ring of 1,024 in sectors 0 to 7. -/
def State.storeRec (s : State) (r : SRec) : State :=
  let l := s.store.journal ++ [{ r with seq := s.store.nextSeq, poc := s.life.poc }]
  { s with store := { s.store with journal := l.drop (l.length - 1024), nextSeq := s.store.nextSeq + 1 } }

/-- A unit has an erase intent and no erase done yet (R478, R479). -/
def Store.erasing (t : Store) (unit phys : Nat) : Bool :=
  match (t.journal.filter (fun r => decide ((r.kind = 0x21 ∨ r.kind = 0x22) ∧ r.unit = unit ∧ r.phys = phys))).getLast? with
  | some r => decide (r.kind = 0x21)
  | none => false

/-! ## The map and the areas, R462, R465, R466 -/

/-- Plane of a block (R462). -/
def planeOf (b : Nat) : Nat := b % 8

/-- The main block that holds a logical block; as shipped logical block L lies in main block L + 16, which is in its plane. -/
def Store.mainOf (t : Store) (l : Nat) : Nat := match Tab.get 0 t.map l with | 0 => l + 16 | b => b

/-- The logical block that a main block holds, where it holds one. -/
def Store.holds (t : Store) (b : Nat) : Option Nat :=
  match t.map.find? (fun (e : Nat × Nat) => decide (e.2 = b)) with
  | some e => some e.1
  | none =>
    if 16 ≤ b ∧ b ≤ 16006 ∧ Tab.get 0 t.map (b - 16) = 0 ∧ t.givenUp.contains (b - 16) = false then some (b - 16) else none

/-- The area of a logical block, numbered as Table 13.3 lists them. -/
def areaOf (l : Nat) : Nat := ([64, 128, 144, 208, 232, 240, 1776, 8880, 15984].filter (fun n => decide (n ≤ l))).length

/-- The area is written in 1-bit mode: the log and the last-gasp state. -/
def oneBitArea (l : Nat) : Bool := decide (areaOf l = 3 ∨ areaOf l = 4)

/-- Writes of the area are journalled: upkeep tables, trust, checkpoints (R473). -/
def journalled (l : Nat) : Bool := decide (areaOf l = 2 ∨ areaOf l = 5 ∨ areaOf l = 6)

/-! ## Pages, R472 -/

/-- The page that is programmed as number `k` of its block: 0, 2, 1, 4, 3, … 62, 61, 63; in 1-bit mode the lower pages in
order. -/
def pageAt (oneBit : Bool) (k : Nat) : Nat :=
  if oneBit then 2 * k else if k = 0 ∨ k = 63 then k else if k % 2 = 1 then k + 1 else k - 1

/-- Every page of the block's mode is programmed. -/
def PageSet.full (p : PageSet) : Bool := decide ((if p.oneBit then 32 else 64) ≤ p.count)

/-- A page of the block stands. -/
def PageSet.has (p : PageSet) (page : Nat) : Bool := (List.range p.count).any (fun k => decide (pageAt p.oneBit k = page))

/-- Lower pages whose data is exposed: their upper page has not completed. -/
def PageSet.exposed (p : PageSet) : List Nat :=
  if p.oneBit then [] else ((List.range 32).map (2 * ·)).filter (fun q => p.has q && !p.has (q + 1))

/-- A block of an area is open for writes (R478): its slot, bank or checkpoint is being written, or, in an area that takes pages
at any time, the block is written in part. -/
def State.openBlock (s : State) (l : Nat) : Bool :=
  match areaOf l with
  | 0 => decide (s.img.bank0.1 = 2)
  | 1 => decide (s.img.bank1.1 = 2)
  | 6 => s.ckpt.staging.isSome
  | 7 => decide (s.img.slot0.state = 3)
  | 8 => decide (s.img.slot1.state = 3)
  | 9 => false
  | _ => let p := Tab.get {} s.store.pages (s.store.mainOf l)
         decide (p.count ≠ 0) && !p.full

/-- A program of the block's next page is cut off: that of an upper page may destroy its lower page, which the free value
decides; no other page is disturbed. -/
def PageSet.cut (p : PageSet) (draw : Nat) : PageSet :=
  let q := pageAt p.oneBit p.count
  if p.full = false ∧ q % 2 = 1 ∧ Config.pageLost draw = true ∧ p.lost.contains (q - 1) = false then { p with lost := p.lost ++ [q - 1] } else p

/-- Power is gone: programs in progress in blocks that are being written are cut off (R472, R475). -/
def State.cutPrograms (s : State) : State :=
  let open_ := fun (b : Nat) => match s.store.holds b with | some l => s.openBlock l | none => false
  { s with
    store := { s.store with pages := List.map (fun (e : Nat × PageSet) => (e.1, if open_ e.1 then e.2.cut (s.draws + e.1) else e.2)) s.store.pages }
    draws := s.draws + 16384 }

/-! ## Erase counts and intents, R478, R480 -/

/-- Erases of a unit so far (R480). -/
def Store.eraseCount (t : Store) (unit phys : Nat) : Nat := Tab.get 0 t.erases (65536 * unit + phys)

/-- Intent to erase a unit; a second one while the first is open is not written. -/
def State.eraseIntent (s : State) (unit phys : Nat) : State :=
  if s.store.erasing unit phys then s
  else s.storeRec { kind := 0x21, unit := unit, phys := phys, arg := s.store.eraseCount unit phys }

/-- An erase that is open has verified: its done record, the unit's count, and no page of a main block stands (R478, R480). -/
def State.eraseDone (s : State) (unit phys pulses : Nat) : State :=
  if s.store.erasing unit phys then
    { s with store := { s.store with
        erases := Tab.upd 0 s.store.erases (65536 * unit + phys) (· + 1)
        pages := if unit = 0 then Tab.set {} s.store.pages phys {} else s.store.pages } }.storeRec
      { kind := 0x22, unit := unit, phys := phys, arg := pulses }
  else s

/-- A record in the area sectors 28 and 29. -/
def State.areaRec (s : State) (r : SRec) : State :=
  let q := match s.store.area.getLast? with | some x => x.seq + 1 | none => 0
  { s with store := { s.store with area := s.store.area ++ [{ r with seq := q, poc := s.life.poc }] } }

/-- A slot record (Table 13.7): slot, state, SECVER. -/
def State.slotRec (s : State) (slot state secver : Nat) : State :=
  s.areaRec { kind := 0x32, unit := slot, phys := 0, arg := state * 2 ^ 56 + secver % 2 ^ 32 }

/-- A bank record (Table 13.7): bank, state, firmware version. -/
def State.bankRec (s : State) (bank state ver : Nat) : State :=
  s.areaRec { kind := 0x33, unit := bank, phys := 0, arg := state * 2 ^ 56 + ver % 2 ^ 32 }

/-! ## The upkeep journal and the upkeep tables, R187, R188 -/

/-- The newest journal record's SEQ; 0 where there is none. -/
def State.newestSeq (s : State) : Nat := match s.upk.journal.getLast? with | some r => r.seq | none => 0

/-- The upkeep tables go to the store with the SEQ of the newest journal record they cover (R188). -/
def State.storeTables (s : State) : State :=
  { s with upk := { s.upk with
      stored := s.newestSeq, dirty := false
      storedPlanes := List.map (fun e => (e.1, { e.2 with sweepH := e.2.hours s.life.now, sweepBase := 0 })) s.upk.planes
      storedPanels := s.upk.panels
      storedPlacement := s.upk.placement } }

/-- An upkeep journal record as bytes, with its CRC-32C (Table 5.5). -/
def JRec.bytes (r : JRec) : List Byte :=
  let body := be 1 r.kind ++ be 1 r.status ++ be 4 r.loc ++ be 8 r.seq ++ be 4 r.poc ++ be 4 r.arg ++ be 6 0
  body ++ be 4 (crc32c body).toNat

/-- An intent record has its done record, a replan begin its commit. -/
def JRec.doneIn (r : JRec) (l : List JRec) : Bool :=
  let done := if r.kind = 1 ∨ r.kind = 3 ∨ r.kind = 5 then r.kind + 1 else if r.kind = 0x0D then 0x0E else 0
  decide (done = 0) || l.any (fun x => decide (x.kind = done ∧ x.loc = r.loc ∧ r.seq < x.seq))

/-- The oldest sector of a full journal is erased once every intent in it has its done record; upkeep stores its tables first,
so that they cover it (R187). -/
def State.journalRoom (s : State) : State :=
  if s.upk.journal.length < 1024 ∨ (s.upk.journal.take 128).all (fun r => r.doneIn s.upk.journal) = false then s
  else
    let s1 := if (s.upk.journal.take 128).all (fun r => decide (r.seq ≤ s.upk.stored)) then s else s.storeTables
    { s1 with upk := { s1.upk with journal := s1.upk.journal.drop 128 } }

/-- A record in the upkeep journal, a ring of 1,024 in 8 sectors (R187). -/
def State.journal (s : State) (kind status loc arg : Nat) : State :=
  let s1 := s.journalRoom
  { s1 with upk := { s1.upk with
      journal := s1.upk.journal ++ [{ kind := kind, status := status, loc := loc, seq := s.upk.nextSeq, poc := s.life.poc, arg := arg % 2 ^ 32 }]
      nextSeq := s.upk.nextSeq + 1 } }

end Sys2Proof.Machine
end

