-- ==== Sys2Proof/Machine/Checkpoint.lean ====
section
/-! DEFINITION. Checkpoints: what one holds, when it is taken, when its write ends (R442, R507). -/

namespace Sys2Proof.Machine

open Sys2Proof

/-- A poisoned word or a vacant line touches `n` bytes from `a`. -/
def Memory.poisonIn (m : Memory) (sp : Space) (a n : Nat) : Bool :=
  n ≠ 0 &&
  (m.poison.any (fun e => decide (e.1 % 5 = sp.idx) && decide (a / sp.grain ≤ e.1 / 5 ∧ e.1 / 5 ≤ (a + n - 1) / sp.grain))
   || m.vacant.any (fun e => decide (e.1 % 5 = sp.idx) && decide (a / 64 ≤ e.1 / 5 ∧ e.1 / 5 ≤ (a + n - 1) / 64)))

/-- The state regions of the watch member hold poison. -/
def State.statePoisoned (s : State) (c : Nat) : Bool :=
  match s.member c with
  | none => false
  | some m => m.state.any (fun r => s.mem.poisonIn r.space r.at_ r.len)

/-- The settings of a context that a checkpoint holds (Table 14.6). -/
def Ctx.cfg (c : Ctx) : CtxCfg :=
  { started := c.holds, stopped := decide (c.state = .stopped), prio := c.prio, wdog := c.wdog, pt := c.pt, allow := c.allow, rint := c.rint, sched := c.sched,
    quota := c.quota }

/-- Tokens into the open report interval (R31). -/
def State.riPos (s : State) : Nat := (s.watch.first + s.watch.evaluated + s.watch.riOff - s.watch.riFirst) % max 1 (s.ctx 0).rint

/-- A checkpoint of the present state (Table 14.6). -/
def State.ckptNow (s : State) : Ckpt :=
  { stamp := s.life.commit, poc := s.life.poc, imageId := (s.image.map (·.imageId)).getD 0, sidx := s.watch.lastSidx
    slots := s.ing.slots.filterMap (fun e => e.2.cfg.map (fun c => (e.1, c)))
    ctxs := s.ctxs.map (fun e => (e.1, e.2.cfg))
    mainBudget := s.supply.mainBudget, backupBudget := s.supply.backupBudget
    state := match s.member 0 with
      | none => []
      | some m => m.state.flatMap (fun r => s.mem.bytes r.space r.at_ r.len)
    rules := s.io.rules
    ri := s.riPos, cover := s.watch.cover
    scales := s.cores.flatMap (fun k => k.2.clips.filterMap (fun e =>
      if (e.2.exp, e.2.downrun, e.2.satrun) = ((0 : Int), 0, 0) then none
      else some (2 ^ 40 * k.1 + e.1, (e.2.exp, e.2.downrun, e.2.satrun)))) }

/-- The watch context runs: a checkpoint waits for its next period boundary (R507). -/
def State.watchRuns (s : State) : Bool := (s.ctx 0).live && s.isReady

/-- Take a checkpoint at a clean boundary; one that would hold poison, or that finds the staging in use, stays due (R442). -/
def State.takeCkpt (s : State) : State :=
  if s.statePoisoned 0 ∨ s.ckpt.staging.isSome = true then { s with ckpt := { s.ckpt with due := true } }
  else { s with ckpt := { s.ckpt with staging := some s.ckptNow, due := false, timer := false } }

/-- A checkpoint is asked for: at the next period boundary of a running watch context, else at once (R507). -/
def State.askCkpt (s : State) : State :=
  if s.watchRuns then { s with ckpt := { s.ckpt with due := true } } else s.takeCkpt

/-- Configuration changed: a checkpoint follows within 10 s (R507). -/
def State.configChanged (s : State) : State := { s with ckpt := { s.ckpt with timer := true } }

/-- The checkpoint duty at a period boundary before period `k`: every 4,096 periods, and whenever one is due. -/
def State.ckptBoundary (s : State) (k : Nat) : State :=
  if s.ckpt.due ∨ (k % 4096 = 0 ∧ k ≠ 0) then s.takeCkpt else s

/-- CONFIG_CHECKPOINT_TIMER: the 10 s after a change of configuration have passed (R507). -/
def execConfigCheckpointTimer (s : State) : Outc :=
  if s.ckpt.timer then .next s.askCkpt else .next s

/-- The write of the staged checkpoint ends: it is in force from its checkpoint-commit record, and the upkeep
tables go with it (R188); or CKPTFAIL is set. -/
def State.endCkpt (s : State) (c : Ckpt) (stored : Bool) : State :=
  let s1 := { s with ckpt := { s.ckpt with staging := none } }
  if stored then
    (({ s1 with
      ckpt := { s1.ckpt with inForce := some c, set := 1 - s1.ckpt.set }
      life := { s1.life with storedStamp := max s1.life.storedStamp c.stamp } }).areaRec
        { kind := 0x34, unit := 1 - s.ckpt.set, arg := c.stamp }).storeTables
  else s1.raise 2 15 9

/-- CHECKPOINT_STORED: the write of the staged checkpoint ends (R424, R473, R507). The commands that asked for it complete
and a commanded restart follows, unless a later checkpoint is due for them; that one is taken now where no period boundary
is to come. -/
def execCheckpointStored (stored : Bool) (s : State) : Outc :=
  match s.ckpt.staging with
  | none => .next s
  | some c =>
    let s1 := s.endCkpt c stored
    if s1.ckpt.due then .next (if s1.watchRuns then s1 else s1.takeCkpt)
    else
      let s2 := { s1 with ckpt := { s1.ckpt with asked := [] } }
      let s3 := s.ckpt.asked.foldl (fun s a => s.complete (some a) 0x0A06 0xFFFF (if stored then .ok else .storeFail) 0 []) s2
      match s3.ckpt.restart with
      | none => .next s3
      | some k =>
        let s4 := s3.endSessions 5
        .next { s4 with ckpt := { s4.ckpt with restart := none }, life := { s4.life with phase := .halted, due := some k } }

end Sys2Proof.Machine
end

