-- ==== Sys2Proof/Machine/Container.lean ====
section
/-! DEFINITION. A model image's container as bytes: header, section table, member descriptions, placement maps, array codes,
plane files, digital weight blocks and signature trailer, most significant byte first (R14, R201 to R204, Tables 5.10 to
5.15). -/

namespace Sys2Proof.Machine

open Sys2Proof

/-- `n` bytes from `off` of a slot's bytes, 0 where nothing is listed. -/
def slotBytes (t : Tab Byte) (off n : Nat) : List Byte := (List.range n).map (fun i => Tab.get 0 t (off + i))

/-- A field of `n` bytes. -/
def slotNum (t : Tab Byte) (off n : Nat) : Nat := ofBytes (slotBytes t off n)

/-- All bytes of a range are zero. -/
def slotZero (t : Tab Byte) (off n : Nat) : Bool := t.all (fun e => decide (e.1 < off ∨ off + n ≤ e.1 ∨ e.2 = 0))

/-- The section table, Table 5.11, with whether each section's bytes have the digest it names. -/
def readSections (t : Tab Byte) (n : Nat) : List Section :=
  (List.range n).map (fun i =>
    let o := 256 + 64 * i
    let off := slotNum t (o + 8) 8
    let len := slotNum t (o + 16) 8
    { type := slotNum t o 2, member := slotNum t (o + 2) 1, offset := off, length := len
      digestOk := decide (Config.sha3 (slotBytes t off len) = slotNum t (o + 24) 32)
      reservedZero := slotZero t (o + 3) 5 && slotZero t (o + 56) 8 })

/-- A member description, Table 5.13. -/
def readDesc (t : Tab Byte) (o : Nat) : MemberDesc :=
  let f := fun a n => slotNum t (o + a) n
  { kind := f 0 1, flags := f 1 1, layers := f 2 2, width := f 4 2, p := f 6 2, tokenW := f 8 2, d := f 10 2, streams := f 12 1
    refStream := f 13 1, heads := f 14 1, maxN := f 15 1, window := f 16 2, globalCtx := f 18 2, stateBytes := f 20 4
    arrayW := f 24 8, digBytes := f 32 8, minCtx := f 40 4, interval := f 44 4, lookback := f 48 4, after := f 52 4
    schedule := f 56 4, period := f 60 4, allow := f 64 4, reservedZero := slotZero t (o + 68) 188 }

/-- A placement map entry, Table 5.14. -/
def readPlacement (t : Tab Byte) (o : Nat) : Placement :=
  let w := slotNum t (o + 4) 4
  let home := bits w 31 30
  { block := slotNum t o 4, home := home, reservedZero := bits w 29 0 == 0
    loc := if home = 0 then BitVec.ofNat 32 (slotNum t (o + 8) 4) else 0
    off := if home = 0 then slotNum t (o + 12) 4 else slotNum t (o + 8) 8 }

/-- The codes of an array block: 1,024 rows of 256 codes, two to a byte, column 0 in the high nibble (Table 5.12). -/
def readCodes (t : Tab Byte) (o : Nat) : Tab Nat :=
  tabOf 0 ((List.range 262144).map (fun i =>
    let b := (Tab.get 0 t (o + i / 2)).toNat
    if i % 2 = 0 then b / 16 else b % 16))

/-- Plane files one after the other from `o`, each as long as its setting word says; with where the last ends. -/
def readFiles (t : Tab Byte) : Nat → Nat → List PlaneFile × Nat
  | 0, o => ([], o)
  | n + 1, o =>
    let w := slotNum t o 4
    let len := fileBytes (bits w 8 7) (w.testBit 4)
    let r := readFiles t n (o + len)
    (readFile (slotBytes t o len) :: r.1, r.2)

/-- A digital weight block and where it ends (R118, R120). -/
def readDigital (t : Tab Byte) (o off : Nat) : DigBlock × Nat :=
  let h := slotNum t o 4
  let w := if bits h 29 27 = 3 then 2 else 1
  let n := if bits h 31 30 = 0 then 16 else 256
  let codes := bits h 26 16 * bits h 15 5 * (if bits h 31 30 = 0 then 128 else 256)
  ({ header := BitVec.ofNat 32 h, entries := (List.range n).map (fun i => slotNum t (o + 4 + w * i) w), off := off
     codes := slotBytes t (o + 4 + w * n) codes }, o + 4 + w * n + codes)

/-- Digital weight blocks one after the other up to `stop`, each at the image-area offset of its placement entry, with the
offsets that are left: R202 says that the placement map gives the offsets, and the blocks take its HOME 1 entries in order
(DEDUCED, assumption 80). -/
def readDigitals (t : Tab Byte) (stop : Nat) : Nat → Nat → List Nat → List DigBlock × List Nat × Nat
  | 0, o, offs => ([], offs, o)
  | n + 1, o, offs =>
    if stop ≤ o then ([], offs, o)
    else match offs with
      | [] => ([], [], o)
      | a :: rest =>
        let (b, e) := readDigital t o a
        let r := readDigitals t stop n e rest
        (b :: r.1, r.2)

/-- The section of a type that a member has. -/
def sectionOf (l : List Section) (k ty : Nat) : Option Section := l.find? (fun x => decide (x.type = ty ∧ (x.member = k ∨ x.member = 255)))

/-- A member from its described sections; the other sections, of which Table 5.12 names the content and gives no layout, come
from `given`. The second value says that the sections have the lengths of what they hold. -/
def readMember (t : Tab Byte) (l : List Section) (k : Nat) (given : Member) : Member × Bool :=
  let at_ : Nat → Nat × Nat := fun ty => match sectionOf l k ty with | some x => (x.offset, x.length) | none => (0, 0)
  let pl := at_ 2
  let placement := (List.range (pl.2 / 16)).map (fun i => readPlacement t (pl.1 + 16 * i))
  let n := (placement.filter (fun p => decide (p.home = 0))).length
  let codes := at_ 3
  let files := readFiles t n (at_ 4).1
  let blocks := (List.range n).map (fun i => { codes := readCodes t (codes.1 + 131072 * i), file := files.1.getD i {} : ArrayBlock })
  let offs := (placement.filter (fun p => decide (p.home = 1))).map (·.off)
  let secs := l.filter (fun x => decide (x.type = 5 ∧ (x.member = k ∨ x.member = 255)))
  let dig := secs.foldl (fun (a : List DigBlock × List Nat × Bool) x =>
    let r := readDigitals t (x.offset + x.length) a.2.1.length x.offset a.2.1
    (a.1 ++ r.1, r.2.1, a.2.2 && decide (r.2.2 = x.offset + x.length))) ([], offs, true)
  ({ given with desc := readDesc t (at_ 1).1, placement := placement, blocks := blocks, digital := dig.1 },
   decide ((at_ 1).2 = 256 ∧ pl.2 % 16 = 0 ∧ codes.2 = 131072 * n ∧ files.2 = (at_ 4).1 + (at_ 4).2) && dig.2.2 && dig.2.1.isEmpty)

/-- The header's reserved fields, the other bits of MEMBERS and the gaps between the parts are zero, and SIGNED is a multiple of
4,096 (R201, R204). -/
def formZero (t : Tab Byte) (l : List Section) (signed len : Nat) : Bool :=
  slotZero t 21 3 && slotZero t 56 200 && decide (slotNum t 20 1 < 4) && decide (signed % 4096 = 0)
    && t.all (fun e => decide (e.2 = 0 ∨ e.1 < 256 + 64 * l.length ∨ (signed ≤ e.1 ∧ e.1 < len))
          || l.any (fun x => decide (x.offset ≤ e.1 ∧ e.1 < x.offset + x.length)))

/-- The trailer, Table 5.15: its magic, and lengths that end with the container. -/
def trailerFits (t : Tab Byte) (signed len : Nat) : Bool :=
  let n := slotNum t (signed + 4) 4
  decide (slotNum t signed 4 = 0x53505347 ∧ slotNum t (signed + 8 + n) 2 = 3309 ∧ signed + 10 + n + 3309 = len)

/-- The image that a container of `len` bytes holds, whose SHA3-256 digest IMG_END named; `given` brings what the crypto unit
and the read-back found, and the sections whose layout the spec does not give. -/
def readImage (t : Tab Byte) (len digest : Nat) (given : Image) : Image :=
  let sections := readSections t (slotNum t 12 2)
  let members := slotNum t 20 1
  let signed := slotNum t 24 8
  let w := readMember t sections 0 (given.watch.getD {})
  let i := readMember t sections 1 (given.inspect.getD {})
  { given with
    magic := slotNum t 0 4, format := slotNum t 4 2, level := slotNum t 6 2, hdrlen := slotNum t 8 4, noiseVer := slotNum t 14 2
    secver := slotNum t 16 4, imageId := slotNum t 32 16, imageArea := slotNum t 48 8, length := len, signed := signed
    measure := Config.sha3 (slotBytes t 0 signed)
    reservedZero := formZero t sections signed len
    digestOk := decide (Config.sha3 (slotBytes t 0 len) = digest)
    trailerOk := trailerFits t signed len
    sections := sections
    layoutOk := (!members.testBit 0 || w.2) && (!members.testBit 1 || i.2)
    watch := if members.testBit 0 then some w.1 else none
    inspect := if members.testBit 1 then some i.1 else none }

/-- The firmware container that a bank's bytes hold (Table 14.2, R492, R493); `given` brings what the crypto unit and the
read-back found. -/
def readFirmware (t : Tab Byte) (len digest : Nat) (given : Firmware) : Firmware :=
  let signed := slotNum t 16 8
  { given with
    magic := slotNum t 0 4, format := slotNum t 4 2, level := slotNum t 6 2, fwver := slotNum t 8 4, secver := slotNum t 12 4
    reservedZero := slotZero t 32 224, measure := Config.sha3 (slotBytes t 0 signed)
    sigOk := given.sigOk && decide (signed % 4096 = 0) && trailerFits t signed len
    digestOk := decide (Config.sha3 (slotBytes t 0 len) = digest) }

end Sys2Proof.Machine
end

