-- ==== Sys2Proof/Machine/Cells.lean ====
section
/-! DEFINITION. The cells of a physical plane: levels and conductances, verify and pulses, the evaluation of a column, the
digital level read, codes in tile order (R76 to R78, R86 to R89, R120, R158 to R164, R175). Conductances stand in 0.001 % of
the window G_max − G_min above G_min. -/

namespace Sys2Proof.Machine

open Sys2Proof

/-! ## Codebook and conductance, R77, R78 -/

/-- A value of a codebook. -/
def codeValue (cb : List Int) (c : Nat) : Int := cb.getD c 0

/-- k of R78 in units of G_min: 15 ÷ (v_15 − v_0), with G_max = 16 · G_min. -/
def gainK (cb : List Int) : Q := qDiv (qInt 15) (qInt (codeValue cb 15 - codeValue cb 0))

/-- g0 of R78 in units of G_min: G_min − k · v_0. -/
def gainZero (cb : List Int) : Q := qSub (qInt 1) (qMul (gainK cb) (qInt (codeValue cb 0)))

/-- u0 of R78: (v_15 − v_0) ÷ 15 − v_0. -/
def uZero (cb : List Int) : Q := qSub ⟨codeValue cb 15 - codeValue cb 0, 15⟩ (qInt (codeValue cb 0))

/-- G_c of R78 in units of G_min. -/
def levelConductance (cb : List Int) (c : Nat) : Q := qAdd (gainZero cb) (qMul (gainK cb) (qInt (codeValue cb c)))

/-- The target of a level: where G_c lies in the window, 0.001 % above G_min, to the nearest (assumption 60). -/
def levelTarget (cb : List Int) (c : Nat) : Int := rne (qMul ⟨100000, 15⟩ (qSub (levelConductance cb c) (qInt 1)))

/-- What a driven cell of a conductance presents, in units of v: G ÷ k, which is v_c + u0 at the target of level c. -/
def presents (cb : List Int) (g : Int) : Q := qDiv (qAdd (qInt 1) ⟨15 * g, 100000⟩) (gainK cb)

/-! ## Cells, R76 -/

/-- Columns of a plane. -/
def planeCols : Nat := 272

/-- Conductance of an erased cell as shipped: 2 % of the window below the target of level 0 (assumption 61). -/
def erasedG : Int := -2000

/-- The number of a cell. -/
def cellAt (row col : Nat) : Nat := planeCols * row + col

/-- Conductance of a cell. -/
def Cells.cond (x : Cells) (k : Nat) : Int := Tab.get erasedG x.g k

/-- The numbers of all cells of a plane. -/
def allCells : List Nat := List.range (1024 * planeCols)

/-- Cells that have moved take the conductances found. -/
def Cells.moved (x : Cells) (l : Tab Int) : Cells := { x with g := l.foldl (fun t e => Tab.set erasedG t e.1 e.2) x.g }

/-- Codes of a row in a block. -/
def ArrayBlock.row (b : ArrayBlock) (r : Nat) : List Nat := (List.range 256).map (fun c => Tab.get 0 b.codes (256 * r + c))

/-- Two codes in each byte, the first in the high nibble. -/
def packCodes : List Nat → List Byte
  | a :: b :: l => BitVec.ofNat 8 (16 * (a % 16) + b % 16) :: packCodes l
  | [a] => [BitVec.ofNat 8 (16 * (a % 16))]
  | [] => []

/-- CRC-32C of a row's 256 weight codes (R89). -/
def rowCrc (codes : List Nat) : Nat := (crc32c (packCodes codes)).toNat

/-- Code that a column of a row holds: the weight's, 0 and 15 in the reference columns, the CRC's nibbles in the check columns
(R76, R88, R89). -/
def planeCode (codes : List Nat) (col : Nat) : Nat :=
  if col < 256 then codes.getD col 0
  else if col < 260 then 0
  else if col < 264 then 15
  else rowCrc codes / 16 ^ (271 - col) % 16

/-- The levels that a block programs into a plane, each plus one (R77). -/
def ArrayBlock.levels (b : ArrayBlock) : Tab Nat :=
  tabOf 0 ((List.range 1024).flatMap (fun r => (List.range planeCols).map (fun c => planeCode (b.row r) c + 1)))

/-! ## Verify and pulses, R158 to R164 -/

/-- A cell's distance from the target of its level: positive beyond it in the direction of programming. -/
def Cells.offTarget (x : Cells) (cb : List Int) (k : Nat) : Int := x.cond k - levelTarget cb (Tab.get 0 x.level k - 1)

/-- The cell passes program verify: within ±1.0 % of the window (R158). -/
def Cells.passes (x : Cells) (cb : List Int) (k : Nat) : Bool := decide ((x.offTarget cb k).natAbs ≤ 1000)

/-- The cell is short of its band. -/
def Cells.short (x : Cells) (cb : List Int) (k : Nat) : Bool := decide (x.offTarget cb k < -1000)

/-- The cell is more than 4 % of the window short of its target: the coarse pass goes on (R161). -/
def Cells.coarseShort (x : Cells) (cb : List Int) (k : Nat) : Bool := decide (x.offTarget cb k < -4000)

/-- Some cell lies beyond its band in the direction of programming, which only an erase recovers (R159, R162). -/
def Cells.beyond (x : Cells) (cb : List Int) : Bool := allCells.any (fun k => decide (1000 < x.offTarget cb k))

/-- Every cell passes program verify. -/
def Cells.verified (x : Cells) (cb : List Int) : Bool := allCells.all (x.passes cb)

/-- The plane passes erase verify: every cell 2 % of the window or more below the target of level 0 (R158). -/
def Cells.erased (x : Cells) : Bool := allCells.all (fun k => decide (x.cond k ≤ -2000))

/-- An erase pulse: cells move away from programming. Codes are lost with the first. -/
def Cells.erasePulse (x : Cells) (l : Tab Int) : Cells :=
  { level := [], g := l.foldl (fun t e => Tab.set erasedG t e.1 (min (Tab.get erasedG t e.1) e.2)) x.g }

/-- A program pulse on the cells that `on` admits: they move in the direction of programming only (R159). -/
def Cells.pulse (x : Cells) (on : Nat → Bool) (l : Tab Int) : Cells :=
  { x with g := l.foldl (fun t e => if on e.1 then Tab.set erasedG t e.1 (max (Tab.get erasedG t e.1) e.2) else t) x.g }

/-- Erase pulses, each followed by a verify, to the first that passes or to the limit of 8: cells and pulses used. -/
def erasePulses (x : Cells) (used : Nat) : List (Tab Int) → Cells × Nat
  | [] => (x, used)
  | l :: ls => if 8 ≤ used ∨ (0 < used ∧ x.erased = true) then (x, used) else erasePulses (x.erasePulse l) (used + 1) ls

/-- Where a program or touch-up stands: cells, pulses, those of the coarse pass, first passes of weight cells. -/
structure Pulsed where
  cells : Cells
  used : Nat := 0
  coarse : Nat := 0
  passed : Tab Nat := []
  deriving DecidableEq, Repr

/-- Weight cells that have not passed verify before pass it now: after the pulses used so far (R164). -/
def Pulsed.note (p : Pulsed) (cb : List Int) : Pulsed :=
  { p with passed := allCells.foldl (fun t k =>
      if k % planeCols < 256 ∧ Tab.get 0 t k = 0 ∧ p.cells.passes cb k = true then Tab.set 0 t k p.used else t) p.passed }

/-- The coarse pass is still on: fewer than 6 pulses of it, no fine pulse yet, and a cell more than 4 % short (R160, R161). -/
def Pulsed.inCoarse (p : Pulsed) (cb : List Int) : Bool :=
  decide (p.coarse < 6 ∧ p.used = p.coarse) && allCells.any (p.cells.coarseShort cb)

/-- Pulses with a verify after each, to the pulse limits of Table 5.1: of a program 6 coarse and 18 fine ones, of a touch-up
18 fine ones on the cells that are short of their band (R160, R161). -/
def progPulses (cb : List Int) (touch : Bool) (p : Pulsed) : List (Tab Int) → Pulsed
  | [] => p
  | l :: ls =>
    if !allCells.any (p.cells.short cb) || decide (18 ≤ p.used - p.coarse) then p
    else if touch = false ∧ p.inCoarse cb = true then
      progPulses cb touch ({ p with cells := p.cells.pulse (p.cells.coarseShort cb) l, used := p.used + 1, coarse := p.coarse + 1 }.note cb) ls
    else progPulses cb touch ({ p with cells := p.cells.pulse (p.cells.short cb) l, used := p.used + 1 }.note cb) ls

/-- The pulse limit is reached with a cell short of its band. -/
def Pulsed.limit (p : Pulsed) (cb : List Int) : Bool := decide (18 ≤ p.used - p.coarse) && allCells.any (p.cells.short cb)

/-- The pulses have ended: no cell is short of its band, or the limit is reached. -/
def Pulsed.ended (p : Pulsed) (cb : List Int) : Bool := !allCells.any (p.cells.short cb) || decide (18 ≤ p.used - p.coarse)

/-- The mean verify-pulse count over the 262,144 weight cells, in eighths of a pulse, rounded down (R164, assumption 62). -/
def Pulsed.mean8 (p : Pulsed) : Nat := 8 * ((p.passed.map Prod.snd).sum) / 262144

/-! ## The digital level read, R89, R175 -/

/-- The code that a read gives for a cell: its own where no level of another value is nearer, else the nearest level's, the
lowest of those (assumption 63). -/
def Cells.readCode (x : Cells) (cb : List Int) (k : Nat) : Nat :=
  let own := Tab.get 0 x.level k - 1
  let far := fun c => (x.cond k - levelTarget cb c).natAbs
  (List.range 16).foldl (fun b c => if far c < far b then c else b) own

/-- Codes that a read gives for a row's weight cells. -/
def Cells.readRow (x : Cells) (cb : List Int) (r : Nat) : List Nat := (List.range 256).map (fun c => x.readCode cb (cellAt r c))

/-- The CRC that a row's check cells hold as read. -/
def Cells.readCheck (x : Cells) (cb : List Int) (r : Nat) : Nat :=
  (List.range 8).foldl (fun n i => 16 * n + x.readCode cb (cellAt r (264 + i))) 0

/-- Rows whose read codes do not have the CRC of their check cells. -/
def Cells.badRows (x : Cells) (cb : List Int) : List Nat :=
  (List.range 1024).filter (fun r => decide (rowCrc (x.readRow cb r) ≠ x.readCheck cb r))

/-- Cells of some rows whose read codes differ from the golden codes. -/
def Cells.wrongCells (x : Cells) (cb : List Int) (b : ArrayBlock) (rows : List Nat) : Nat :=
  (rows.map (fun r => (((x.readRow cb r).zip (b.row r)).filter (fun p => decide (p.1 ≠ p.2))).length)).sum

/-! ## One evaluation, R86 to R89 -/

/-- The sum that a column presents to its converter: what its driven cells present less the compensation u0 · S of the setting
word, both in units of v (R86). -/
def Cells.columnSum (x : Cells) (f : PlaneFile) (rows : List Nat) (col : Nat) : Q :=
  qSub ((rows.map (fun r => presents f.codebook (x.cond (cellAt r col)))).foldl qAdd (qInt 0))
    (qMul (val16 (BitVec.ofNat 16 (f.setting.toNat / 65536))).q (qInt rows.length))

/-- The code of a converter: 127.5 plus the sum over the span of ±G · VMAX ÷ ρ, to the nearest code, plus the deviation that
noise and non-linearity give, and saturated (R87, assumption 64). -/
def convertCode (f : PlaneFile) (rho : Nat) (sum : Q) (dev : Int) : Nat :=
  let full : Int := rowsOf f.gsize * f.vmax
  let c := rne (qAdd ⟨255, 2⟩ (qDiv (qMul sum ⟨255 * rho, 2⟩) (qInt full))) + dev
  (max 0 (min 255 c)).toNat

/-- The code of a column in an evaluation that drives `rows`: weight columns over the span of the plane's ρ, reference columns
over that of ρ = 1 (R87, R88). -/
def Cells.evalCode (x : Cells) (f : PlaneFile) (rows : List Nat) (dev : List Int) (col : Nat) : Nat :=
  convertCode f (if col < 256 then f.rho else 1) (x.columnSum f rows col) (dev.getD col 0)

/-! ## Tile order, R120 -/

/-- 4-bit codes of a matrix in tiles of 16 by 16: the tiles of a column range in ascending row order, the column ranges in
ascending order; within a tile row by row, two codes in a byte. -/
def packTiles (code : Nat → Nat → Nat) (rowTiles colTiles : Nat) : List Byte :=
  (List.range colTiles).flatMap (fun ct => (List.range rowTiles).flatMap (fun rt => (List.range 16).flatMap (fun r =>
    packCodes ((List.range 16).map (fun c => code (16 * rt + r) (16 * ct + c))))))

/-- The code at a row and column of such bytes. -/
def tileCode (bs : List Byte) (rowTiles row col : Nat) : Nat :=
  let b := (bs.getD (128 * (rowTiles * (col / 16) + row / 16) + 8 * (row % 16) + col % 16 / 2) 0).toNat
  if col % 2 = 0 then b / 16 else b % 16

/-- The codes of an array block in tile order: 64 by 16 tiles, 128 KiB (R183). -/
def ArrayBlock.tiles (b : ArrayBlock) : List Byte := packTiles (fun r c => Tab.get 0 b.codes (256 * r + c)) 64 16

/-- A copy of an array block in the away region: codes, then plane file (R183, R210). -/
def ArrayBlock.copyBytes (b : ArrayBlock) : List Byte := b.tiles ++ b.file.bytes

/-! ## State -/

/-- STATE of a plane entry: a plane in use reads away while its panel is, or while COND makes the plane so, and retired once
its panel is retired to digital residency (Table 5.7). -/
def State.planeState (s : State) (k : Nat) : Nat :=
  let x := s.plane k
  let p := (s.panel (k / 17)).pstate
  if x.state ≠ 1 then x.state
  else if p = 3 then 5
  else if p = 2 ∨ (x.lplane ≤ 15 ∧ Tab.get 0 (s.engine (k / 17)).cond x.lplane = 3) then 3
  else 1

/-- A plane entry as the module shows it. -/
def State.planeWord (s : State) (k : Nat) : Nat := ({ s.plane k with state := s.planeState k }).word s.life.now

/-- The cells of physical plane `17 * engine + plane`. -/
def State.cells (s : State) (k : Nat) : Cells := Tab.get {} s.upk.cells k

/-- Change the cells of a plane. -/
def State.updCells (s : State) (k : Nat) (f : Cells → Cells) : State :=
  { s with upk := { s.upk with cells := Tab.upd {} s.upk.cells k f } }

end Sys2Proof.Machine
end

