-- ==== Sys2Proof/Machine/Replans.lean ====
section
/-! DEFINITION. The commit of a REPLAN at a period boundary (R182). -/

namespace Sys2Proof.Machine

open Sys2Proof

/-- The placement map switches to the free planes that hold the retired panel's blocks; the residency homes are free, the
record is written, the command completes. -/
def State.replanCommit (s : State) : State :=
  match s.upk.replan with
  | none => s
  | some r =>
    if r.left ≠ [] then s
    else
      let s1 := s.each (List.range 16) (fun s i =>
        match r.targets[i]? with
        | none => s
        | some (e, p) =>
          let s1 := { s with upk := { s.upk with placement := Tab.set 0 s.upk.placement (16 * r.engine + i) (17 * e + p + 1) } }
          s1.updPlane (17 * e + p) (fun x => { x with state := 1, lplane := p }))
      let s2 := (s1.updPanel r.engine (fun x => { x with replanned := true })).journal 0x0E 0 (locEngine r.engine) (locEngine r.engine)
      let s3 := { s2 with upk := { s2.upk with replan := none, residency := s2.upk.residency.filter (· ≠ r.engine) } }
      s3.complete r.askedBy 0x0A03 0xFFFF .ok 0 []

end Sys2Proof.Machine
end

