-- ==== Sys2Proof/Machine/Handover.lean ====
section
/-! DEFINITION. The filling module's side of a handover: free slots, the next position, the HANDOVER message
(R334 to R337, Table 9.8). -/

namespace Sys2Proof.Machine

open Sys2Proof

/-- Slots of the filling module's stretch that are still free: those not yet written since it took the role at slot 0
(R334, R335). -/
def State.freeSlots (s : State) : Nat := s.hist.cap - s.hist.write

/-- Rule states as ADVISORY_READ gives them: asserted, the count that runs, hold (Table 11.8). -/
def RuleState.triple (x : RuleState) : Bool × Nat × Nat := (x.asserted, if x.asserted then x.downCount else x.upCount, x.hold)

/-- A rule state from its three values. -/
def ruleOf (t : Bool × Nat × Nat) : RuleState :=
  if t.1 then { asserted := true, downCount := t.2.1, hold := t.2.2 } else { upCount := t.2.1, hold := t.2.2 }

/-- The exponents and runs of a member's adaptive units, in unit order. -/
def State.unitScales (s : State) (m : Member) : List (Int × Nat × Nat) :=
  (s.units m).map (fun p => let u := s.unitScale 0 p.1 0 p.2; (u.exp, u.downrun, u.satrun))

/-- Values in unit order by unit number. -/
def unitScalesOf (l : List (Int × Nat × Nat)) : List UnitScale :=
  ((List.range l.length).zip l).map (fun x => { unit := x.1, exp := x.2.1, downrun := x.2.2.1, satrun := x.2.2.2 })

/-- An inspect pass runs. -/
def State.passRuns (s : State) : Bool := s.ctxs.any (fun e => e.2.pass.isSome)

/-- The swap boundary falls on the release of period `k` (R193): at once where step 4 is done on a module of its own, at
the period that SWAP_AT named in a pack (R353). -/
def State.swapDue (s : State) (k : Nat) : Bool :=
  match s.img.swap with
  | some w => decide (5 ≤ w.phase) && ((s.solo && !s.passRuns) || (match w.atPeriod with | some p => decide (p ≤ k) | none => false))
  | none => false

/-- The HANDOVER message of the watch context (R335, Table 9.8). -/
def State.handoverOf (s : State) (period : Nat) : HandoverMsg :=
  let carried := !s.swapDue period
  match s.member 0 with
  | none => { period := period }
  | some m =>
    { period := period, cover := s.watch.cover, ripos := s.riPos, catchUp := (s.ctx 0).catchUp, carried := carried
      cup := (s.ctx 0).cup
      state := if carried then m.state.flatMap (fun r => s.mem.bytes r.space r.at_ r.len) else []
      rules := (List.range 16).map (fun n => (Tab.get {} s.io.rules n).triple)
      scales := s.unitScales m
      poisoned := (s.ctx 0).poisoned || s.statePoisoned 0 }

/-- Handover completes on F once period j is complete and N has acknowledged: the interval of period j closes, the message
goes out with the exponents that the close has left, and the watch context ends normally, with no commit of its own (R276, R335, R427). -/
def State.tryHandover (s : State) : State :=
  match s.pack.handover with
  | none => s
  | some h =>
    if h.acked = false ∨ s.pack.fill ≠ s.optv.ppos ∨ h.to_ = s.optv.ppos ∨ s.watch.mandatory = true ∨ s.idle 0 = false
      ∨ (s.ctx 0).live = false ∨ s.watch.period + 1 ≠ h.period then s
    else
      let s0 := s.closeInterval 0
      let msg := s0.handoverOf h.period
      let s1 := s0.packSendP h.to_ 0 msg.poisoned (.handover { epoch := s.pack.epoch } msg)
      let s2 := { s1 with pack := { s1.pack with
        fill := h.to_, gave := some h.to_
        sent := (s1.pack.sent.filter (fun (x : Sent) => decide (x.type ≠ 5))) ++
          [({ dst := h.to_, type := 5, layer := 0, body := .handover { epoch := s.pack.epoch } msg, ctx := 0 } : Sent)]
        handover := none } }
      s2.endCtx 0

/-- At a period release the filling module starts a handover when fewer than 2 × PT slots remain free: PREP to the next
live position, the source and the lead (R335). -/
def State.handoverStart (s : State) : State :=
  if s.solo ∨ s.pack.admitted = false ∨ s.pack.fill ≠ s.optv.ppos ∨ 2 * (s.ctx 0).pt ≤ s.freeSlots then s
  else
    let me := s.optv.ppos
    let after := match s.pack.handover with | some h => h.to_ | none => me
    match s.nextLive after with
    | none => s
    | some n =>
      if n = me then { s with pack := { s.pack with handover := none } }
      else
        let j := s.watch.period + 1
        let sidx := s.ing.s0.getD 0 + (s.watch.first + s.watch.len) * s.tokenSpan
        let b := PackBody.handoverPrep j sidx me n false
        let s1 := { s with pack := { s.pack with handover := some { period := j, sidx := sidx, from_ := me, to_ := n }
                                                 prepAt := some (j, sidx, n) } }
        ([n, s.pack.source, s.pack.lead].dedup.filter (· ≠ me)).foldl (fun s d => s.packSend d 0 b) s1

end Sys2Proof.Machine
end

