-- ==== Sys2Proof/Machine/Watch.lean ====
section
/-! DEFINITION. The watch context's schedule: token outputs, result records, mandatory completion, catch-up, the period
boundary and the release (R28 to R32, R41 to R44, R284 to R292, R299). -/

namespace Sys2Proof.Machine

open Sys2Proof

/-- The run of s0 whose tokens the watch context serves: an older one while it has tokens left (R381, R509). -/
def State.watchRun (s : State) : Nat := match s.watch.short with | some (_, r) => r | none => s.ing.run

/-- Newest token number held of a run of s0. -/
def State.newestTok (s : State) (run : Nat) : Option Nat := s.newest.bind (fun h => if h.run = run then some h.token else none)

/-- The token with a number of a run is held, or has been. -/
def State.reached (s : State) (run n : Nat) : Bool := match s.newestTok run with | some k => decide (n ≤ k) | none => false

/-- Length of the next period: PT as it will be in force at its release (R285). -/
def State.nextLen (s : State) : Nat := (s.ctx 0).pendPt.getD (s.ctx 0).pt

/-- Number of the next period to be released. -/
def State.nextPeriod (s : State) : Nat := if s.watch.len = 0 then s.watch.period else s.watch.period + 1

/-- The last token of the next period is held (R286). -/
def State.periodReady (s : State) : Bool :=
  match s.watch.short with
  | some (l, _) => decide (s.watch.first + s.watch.len ≤ l) || s.reached s.ing.run (s.nextLen - 1)
  | none => s.reached s.ing.run (s.watch.first + s.watch.len + s.nextLen - 1)

/-- First sample of a token of the period that is not held. -/
def State.lostSidx (s : State) (n : Nat) : Nat :=
  if s.watch.short.isSome then (s.watch.lastSidx.map (· + 1)).getD 0 else s.ing.s0.getD 0 + n * s.tokenSpan

/-- The record of the report interval that ends with the token absorbed last, not yet issued (R31, R32, R291). -/
def State.watchRecord (s : State) : ResultRec :=
  let w := s.watch
  let m := (s.member 0).getD {}
  let sfirst := match w.gapFrom with | some g => if w.owesGap then min g w.riSidx else w.riSidx | none => w.riSidx
  let slast := w.lastSidx.getD 0
  { sfirst := sfirst, slast := slast, cover := w.cover, ctx := 0, member := 0, cls := w.cls
    qflags := w.flags ||| headFlags w.gather ||| qIf (warming w.cover m.desc.minCtx w.restored) qWarming ||| qIf w.owesGap qGap
    rkind := 0, pos := s.recPos, pass := 0, tokens := (slast + 1 - sfirst) / s.tokenSpan, imgStamp := s.img.stamp
    heads := w.gather }

/-- The open report interval ends: its record, where a token was absorbed in it, awaits the mandatory completion. -/
def State.closeReport (s : State) : State :=
  if s.watch.riCount = 0 then s
  else { s with watch := { s.watch with ready := s.watch.ready ++ [s.watchRecord], riCount := 0, gather := [], flags := 0
                                        cls := 0, owesGap := false, gapFrom := none } }

/-- A report interval ends with token `n` of the run. -/
def State.reportEnds (s : State) (n : Nat) : Bool :=
  (n + 1 + s.watch.riOff - s.watch.riFirst) % (s.ctx 0).rint == 0 || (match s.watch.short with | some (l, _) => decide (l = n) | none => false)

/-- After token `n`, absorbed or passed over. -/
def State.afterWatch (s : State) (n : Nat) : State :=
  let s1 := { s with watch := { s.watch with evaluated := s.watch.evaluated + 1 } }
  if s1.reportEnds n then s1.closeReport else s1

/-- Pass over tokens of the period that are not held: a gap (R291, R333). -/
def State.skipGaps (s : State) : Nat → State
  | 0 => s
  | k + 1 =>
    let n := s.watch.first + s.watch.evaluated
    if s.watch.len ≤ s.watch.evaluated ∨ (s.heldTok s.watchRun n).isSome then s
    else
      let g := s.lostSidx n
      let s1 := { s with watch := { s.watch with owesGap := true, gapFrom := some (s.watch.gapFrom.getD g) } }
      ((s1.gapRules 0).afterWatch n).skipGaps k

/-- The heads' outputs at the period's next token: coverage, rules, triggers, the record in the making (R30 to R32, R43,
R44, R572, R573). -/
def State.watchToken (s : State) (tok : TokenOut) : State :=
  let s0 := s.skipGaps s.watch.len
  let n := s0.watch.first + s0.watch.evaluated
  if s0.watch.len ≤ s0.watch.evaluated then s0
  else match s0.heldTok s0.watchRun n, s0.image, s0.member 0 with
    | some h, some i, some m =>
      let bad := s0.poisonOf 0 || decide (h.flags / 2 % 2 = 1)
      let cover := s0.watch.cover + 1
      let cls := s0.clsOf 0
      let k : TokInfo := { ctx := 0, member := 0, sidx := h.sidx, gap := decide (h.flags / 4 % 2 = 1), poison := bad,
                           warm := warming cover m.desc.minCtx s0.watch.restored, clsC := decide (2 ≤ cls) }
      let s1 := { s0 with watch := { s0.watch with
        cover := cover, lastSidx := some (h.sidx + s0.tokenSpan - 1)
        riSidx := if s0.watch.riCount = 0 then h.sidx else s0.watch.riSidx
        riCount := s0.watch.riCount + 1, gather := gatherTok (i.headsOf 0) s0.watch.gather tok bad
        flags := s0.watch.flags ||| tokenFlags h.flags ||| qIf (s0.adaptedOf 0) qScale, cls := max s0.watch.cls cls } }
      let s2 := s1.updCtx 0 (fun x => { x with poisoned := x.poisoned || decide (h.flags / 2 % 2 = 1) })
      ((s2.evalRules k tok).evalTriggers k tok h.no).afterWatch n
    | _, _, _ => s0

/-! ## Mandatory completion, R286 to R290 -/

/-- Records `pc` to `last` of a thread all have DEFER set. -/
def State.restDeferred (s : State) (t : Nat) : Bool :=
  let x := s.thread t
  (List.range (x.last + 1 - x.pc)).all (fun i => rDefer (Tab.get 0 (s.core (t / 16)).stepRam (x.pc + i)))

/-- Every thread of context 0 has completed every record with DEFER clear. -/
def State.mandatoryDone (s : State) : Bool :=
  (s.threadsOf 0).all (fun t => decide ((s.thread t).state = .boundary) || s.restDeferred t)

/-- The period is late: the token of its deadline is held (R286). -/
def State.isLate (s : State) : Bool := s.watch.short.isNone && s.reached s.ing.run s.watch.deadline

/-- The 64th catch-up period ends without catching up (R290): OVERRUN, and a rebase at the next release. -/
def State.overrun (s : State) : State :=
  let s1 := s.updCtx 0 (fun x => { x with catchUp := false, cup := 0 })
  ({ s1 with watch := { s1.watch with rebase := true } }).trouble 2 4 0 0 0 []

/-- Catch-up is entered, goes on, ends or overruns (R289, R290). -/
def State.catchUpAfter (s : State) (late : Bool) : State :=
  let x := s.ctx 0
  if x.catchUp = false then s.updCtx 0 (fun c => { c with catchUp := late, cup := 0 })
  else if s.periodReady = false then s.updCtx 0 (fun c => { c with catchUp := false, cup := 0 })
  else if 64 ≤ x.cup then s.overrun
  else s

/-- MANDATORY_COMPLETION: every thread has completed its mandatory records and the heads have answered for every token of
the period. The period's records are issued, with the catch-up flag where R288 or R289 gives it. -/
def execMandatoryCompletion (s : State) : Outc :=
  let s0 := s.skipGaps s.watch.len
  if s.watch.mandatory = false ∨ s.isReady = false ∨ (s.ctx 0).live = false ∨ s.mandatoryDone = false ∨ s0.watch.evaluated < s0.watch.len then .next s
  else
    let late := s0.isLate
    let s1 := if (s0.ctx 0).pendRint.isSome then s0.closeReport else s0
    let s2 := if late then s1.updCtx 0 (fun x => { x with late := satAdd 32 x.late 1 }) else s1
    let flag_ := qIf (late || (s2.ctx 0).catchUp || s2.watch.owesCatch) qCatchup
    let rs := s2.watch.ready.map (fun r => { r with qflags := r.qflags ||| flag_ })
    let s3 := { s2 with watch := { s2.watch with ready := [], mandatory := false, deferrable := true
                                                 owesCatch := s2.watch.owesCatch && rs.isEmpty } }
    .next (((s3.catchUpAfter late).issue rs).tryHandover)

/-! ## The period boundary, R286, R287, R297, R306 -/

/-- A report interval that a new length, asked for after the mandatory completion, ends at the boundary: its record is
issued there (R287). -/
def State.endInterval (s : State) : State :=
  let s1 := s.closeReport
  let flag_ := qIf ((s.ctx 0).catchUp || s.watch.owesCatch) qCatchup
  let w : Watch := { s1.watch with ready := [], owesCatch := s1.watch.owesCatch && s1.watch.ready.isEmpty }
  ({ s1 with watch := w } : State).issue (s1.watch.ready.map (fun (r : ResultRec) => { r with qflags := r.qflags ||| flag_ }))

/-- Settings that awaited the boundary come into force in one commit; intervals of a new length start at the next token
(R285, R287, R426). -/
def State.takePending (s : State) : State :=
  let x := s.ctx 0
  if x.pendPt.isNone ∧ x.pendAllow.isNone ∧ x.pendRint.isNone then s
  else
    let s0 := if x.pendRint.isSome then s.endInterval else s
    let s1 := (s0.updCtx 0 (fun x =>
      { x with pt := x.pendPt.getD x.pt, allow := x.pendAllow.getD x.allow, rint := x.pendRint.getD x.rint
               pendPt := none, pendAllow := none, pendRint := none })).commit
    if x.pendRint.isSome then { s1 with watch := { s1.watch with riFirst := s1.watch.first, riOff := 0 } } else s1

/-- The period in progress has passed its boundary: the next one follows it. Where the tokens of an older run of s0 end
with it, the schedule goes on at token 0 of the present run, with a state that restarts from zero (R381). -/
def Watch.advance (w : Watch) : Watch :=
  if w.len = 0 then w
  else
    let f := w.first + w.len
    let w1 := { w with period := w.period + 1, len := 0, evaluated := 0, deferrable := false }
    match w.short with
    | some (l, _) =>
      if l < f then { w1 with first := 0, riFirst := 0, riOff := 0, short := none, riCount := 0, gather := [], flags := 0, cls := 0
                              zeroDue := true, owesGap := true }
      else { w1 with first := f }
    | none => { w1 with first := f }

/-- The state restarts from zero where poison or a new run of s0 asks for it; coverage restarts with it (R443, R381). -/
def State.restartState (s : State) : State :=
  if (s.ctx 0).poisoned ∨ s.watch.zeroDue = true then
    let s1 := match s.member 0 with | some m => s.zeroState m | none => s
    let s2 := s1.updCtx 0 (fun x => { x with poisoned := false })
    { s2 with watch := { s2.watch with cover := 0, restored := false, zeroDue := false } }
  else s

/-- A rebase: every released period that has not started is dropped, but the newest (R290, R291). An open report interval goes on
with the tokens that follow (DESIGN CHOICE, assumption 42: the manual does not say whether it ends). -/
def State.rebaseNow (s : State) : State :=
  if s.watch.rebase = false then s
  else
    let w := s.watch
    let pt := (s.ctx 0).pt
    let drop := match s.watch.short, s.newestTok s.ing.run with
      | none, some k => (k + 1 - w.first) / pt - 1
      | _, _ => 0
    let w1 := { w with rebase := false }
    if drop = 0 then { s with watch := w1 }
    else
      let g := s.lostSidx w.first
      ({ s with watch := { w1 with first := w.first + drop * pt, period := w.period + drop, owesGap := true
                                   gapFrom := some (w.gapFrom.getD g) } } : State).gapRules 0

/-- A cut of the deferrable part: CATCH on the context's threads, and CATCHUP owed by the next records (R288). -/
def State.cutDeferrable (s : State) : State :=
  if s.idle 0 then s
  else
    let s1 := s.each (s.threadsOf 0) (fun s t =>
      let s0 := s.updThread t (fun x => { x with catchUp := true })
      match (s.thread t).state with
      | .ready | .stalled => if rDefer (s.recordOf t) then s0.readyAt t else s0
      | _ => s0)
    ({ s1 with watch := { s1.watch with owesCatch := s1.watch.owesCatch || !(s1.ctx 0).catchUp } }).refreshCtx 0

/-- The automatic restart of a faulted watch context (R299): its state restarts from zero, its schedule at the newest
released period. -/
def State.autoRestart (s : State) : State :=
  let x := s.ctx 0
  if x.latched then s
  else if 3 ≤ (x.recent s.life.now).length then s.updCtx 0 (fun x => { x with latched := true })
  else match s.image, s.member 0 with
    | some i, some m =>
      match (s.updCtx 0 id).bindCtx 0 i m with
      | none => if x.failLogged then s else (s.updCtx 0 (fun x => { x with failLogged := true })).log { code := 0x300, ctx := 0 }
      | some s1 =>
        let s2 := (s1.zeroState m).updCtx 0 (fun x =>
          { x with state := .waiting, cause := 0, autoRst := s.life.now :: x.recent s.life.now, failLogged := false,
                   poisoned := false, catchUp := false, cup := 0, quiet := false })
        let s3 := { s2 with watch := { s2.watch with cover := 0, restored := false, rebase := true, zeroDue := false
                                                     mandatory := false, deferrable := false } }
        (s3.gapRules 0).syncIngest.commit
    | _, _ => s

/-- The release: threads start their iteration, the deadline is set, and the filling module looks at its free slots. -/
def State.releasePeriod (s : State) : State :=
  let x := s.ctx 0
  let len := match s.watch.short with
    | some (l, _) => if s.watch.first ≤ l then min x.pt (l + 1 - s.watch.first) else x.pt
    | none => x.pt
  let w := { s.watch with len := len, deadline := s.watch.first + 2 * len - 1 + x.allow, evaluated := 0, mandatory := true, deferrable := false }
  let swap := s.img.swap.map (fun w => if 5 ≤ w.phase then { w with released := true } else w)
  let s1 := { s with watch := w, img := { s.img with swap := swap } }
  let s2 := (s1.releaseThreads 0 x.catchUp).updCtx 0 (fun x => { x with cup := if x.catchUp then x.cup + 1 else 0 })
  (s2.refreshCtx 0).handoverStart

/-- The period boundary of a context that runs or has just restarted. -/
def State.periodBoundary (s : State) : State :=
  let s1 := if s.watch.len = 0 then s else s.closeInterval 0
  let s2 := (({ s1 with watch := s1.watch.advance }).takePending).restartState
  if (s2.ctx 0).stopReq.isSome then s2.stopNow 0
  else
    let s3 := s2.scheduleBoundary
    if (s3.ctx 0).live = false then s3
    else
      let s4 := s3.rebaseNow
      ((s4.replanCommit).ckptBoundary s4.watch.period).releasePeriod

/-- The watch context is Shed and its stop takes effect at once elsewhere; at a release a Shed or Faulted context's boundary
is a schedule boundary alone. -/
def State.idleBoundary (s : State) : State :=
  let s1 := { s with watch := { s.watch with rebase := true } }
  s1.scheduleBoundary

/-- PERIOD_RELEASE: the last token of the next period is held. Records of a deferrable part still running are cut, and
the boundary follows once every thread is at Boundary (R286, R288); a faulted watch context restarts (R299). Where the swap
boundary falls on this release, it comes first, as SWAP_BOUNDARY (R193). -/
def execPeriodRelease (s : State) : Outc :=
  let swap := s.swapDue s.nextPeriod
  if s.periodReady = false ∨ s.isReady = false then .next s
  else match (s.ctx 0).state with
    | .faulted =>
      if swap then .next s else
      let s1 := s.autoRestart
      .next (if (s1.ctx 0).live then s1.periodBoundary else s1.idleBoundary)
    | .shed => .next (if swap then s else s.idleBoundary)
    | .waiting | .running =>
      if s.watch.mandatory then .next s
      else
        let s1 := s.cutDeferrable
        .next (if s1.idle 0 = true ∧ swap = false then s1.periodBoundary else s1)
    | _ => .next s

end Sys2Proof.Machine
end

