-- ==== Sys2Proof/Machine/Flights.lean ====
section
/-! DEFINITION. Where descriptors read and write: tiers, units, elements, permitted regions; writes into the source of a
move in flight (R207 to R209, R216 to R218, R230 to R234, Table 6.6). -/

namespace Sys2Proof.Machine

open Sys2Proof

/-- First byte of the image area (Table 6.2). -/
def imageBase : Nat := 0x200000000

/-- End of the image area of the image in force, rounded up to 4 KiB. -/
def State.imageEnd (s : State) : Nat := imageBase + ((s.image.map (·.imageArea)).getD 0 + 4095) / 4096 * 4096

/-- End of the history region. -/
def State.histEnd (s : State) : Nat := s.hist.base + s.hist.cap * s.hist.width

/-- The engine that serves a logical engine of a core (R53, R180). -/
def State.physEngine (s : State) (core l : Nat) : Nat := 9 * core + (if (s.core core).spareFor = some l then 8 else l)

/-- The memory of a tier, the first byte of the unit that a location word names, and the unit's size (Table 6.1). -/
def State.tierUnit (s : State) (tier unit : Nat) : Space × Nat × Nat :=
  match tier with
  | 0 => (.engine, 65536 * s.physEngine (locToCore unit) (bits unit 19 16), 65536)
  | 1 => (.core, 524288 * locToCore unit, 524288)
  | 2 => (.cluster, 4194304 * locToCluster unit, 4194304)
  | 3 => (.base, 0, 0x3800000)
  | _ => (.board, 0, 2 ^ 37)

/-- Byte `p` of a strided run, counted over its elements, as an address in its unit. -/
def runAddr (a size stride p : Nat) : Int := elemAt a stride (p / size) + (p % size : Nat)

/-- A history address wraps within the history region (R234). -/
def State.histWrap (s : State) (a : Int) : Int :=
  let n : Int := s.hist.cap * s.hist.width
  if n = 0 then a else s.hist.base + (a - s.hist.base) % n

/-- Source byte `p` of a flight: its memory and number. -/
def State.srcAt (s : State) (f : Flight) (p : Nat) : Space × Nat :=
  let (sp, u, _) := s.tierUnit (dStier f.desc) (dSunit f.desc)
  let a := runAddr (dSaddr f.desc f.sbase) (dSize f.desc) (df f.desc 303 272) p
  (sp, u + (if dHist f.desc then s.histWrap a else a).toNat)

/-- Destination byte `p` of a flight. -/
def State.dstAt (s : State) (f : Flight) (p : Nat) : Space × Nat :=
  let (sp, u, _) := s.tierUnit (if dDtier f.desc = 6 then 4 else dDtier f.desc) (dDunit f.desc)
  (sp, u + (runAddr (dDaddr f.desc f.dbase) (dSize f.desc) (df f.desc 271 240) p).toNat)

/-- Bytes that a descriptor moves. -/
def dTotal (d : BitVec 512) : Nat := dSize d * dCount d

/-- The flight is a fetch on a firmware ring (R220, R221). -/
def Flight.isFetch (f : Flight) : Bool := decide (56 ≤ f.ring % 64)

/-- All flights, with their channels. -/
def State.flights (s : State) : List (Nat × Flight) := s.channels.flatMap (fun c => c.2.map (fun f => (c.1, f)))

/-- The flight is a move in flight, not yet complete, whose source covers the SRAM line that starts at byte `a`. -/
def State.movesFrom (s : State) (f : Flight) (sp : Space) (a : Nat) : Bool :=
  dMode f.desc == 0 && !f.skip && decide ((s.srcAt f 0).1 = sp)
    && (List.range (dCount f.desc)).any (fun i =>
      let x := (s.srcAt f (i * dSize f.desc)).2
      decide (x < a + 64 ∧ a < x + dSize f.desc))

/-- A write of `n` bytes into a line that is part of the source of a move in flight is an event (R218). -/
def State.homeWrite (s : State) (sp : Space) (a n ctx : Nat) : State :=
  if sp = .board ∨ n = 0 then s
  else match (List.range ((a + n - 1) / 64 + 1 - a / 64)).find? (fun i =>
      s.flights.any (fun f => s.movesFrom f.2 sp ((a / 64 + i) * 64))) with
    | none => s
    | some i => s.homeEvent sp ((a / 64 + i) * 64) ctx

end Sys2Proof.Machine
end

