-- ==== Sys2Proof/Machine/StepBase.lean ====
section
/-! DEFINITION. What every step of a thread shares: the core's choice, units, operand references, reads with poison and
writes (R51, R208, R218, R246 to R252, R268, R442). -/

namespace Sys2Proof.Machine

open Sys2Proof

/-! ## Bad weight data, R445 -/

/-- Immutable weight data at an address is uncorrectable: WEIGHT_UE, its refetch, and the context whose present period or
iteration consumes it (R445). -/
def State.weightUe (s : State) (sp : Space) (a : Nat) (ctx : Option Nat) : State :=
  let s1 := s.trouble 1 10 (sp.loc a) (sp.bunit a) (ctx.getD 0xFF) (memDetail a 0 3)
  let s2 := match ctx with
    | some c => if s1.mem.tainted.contains c then s1 else { s1 with mem := { s1.mem with tainted := s1.mem.tainted ++ [c] } }
    | none => s1
  let w : Bool × Nat := if sp = .board then (true, a / 4096) else (false, poisonKey sp a)
  if s2.mem.refetch.contains w then s2 else { s2 with mem := { s2.mem with refetch := s2.mem.refetch ++ [w] } }

/-! ## The core's choice, R248 -/

/-- The unit that a record occupies (Table 7.4): panel, digital array, vector unit, rotation unit, engine requantiser,
shuttle port, sync port. -/
def unitOf (r : BitVec 256) : Nat × Nat :=
  match rKind r with
  | 0 => (0, rf r 247 245)
  | 1 => (1, rf r 247 245)
  | 2 => (2, 0)
  | 3 => (3, 0)
  | 4 => if rf r 247 247 = 0 then (4, rf r 246 244) else (2, 0)
  | 5 => (5, 0)
  | _ => (6, 0)

/-- Threads of a core. -/
def coreThreads (core : Nat) : List Nat := (List.range 16).map (fun i => 16 * core + i)

/-- The physical plane of a logical plane of an engine. -/
def Engine.phys (x : Engine) (lp : Nat) : Nat := Tab.get lp x.planeMap lp

/-- Where a panel step's plane is: the engine and logical plane that the record names, or those that REPLAN moved the
block to (R182). -/
def State.panelAt (s : State) (t : Nat) (r : BitVec 256) : Nat × Nat :=
  let e := s.physEngine (t / 16) (rf r 247 245)
  let lp := rf r 244 241
  match Tab.get 0 s.upk.placement (16 * e + lp) with
  | 0 => (e, lp)
  | k + 1 => (k / 17, k % 17)

/-- The plane serves no evaluation: its panel is away or retired, the plane itself is away, or it holds no codes (R85, R108,
R151, R181). -/
def State.planeAway (s : State) (e lp : Nat) : Bool :=
  let p := s.panel e
  decide (p.pstate = 2 ∨ p.pstate = 3) || decide (Tab.get 0 (s.engine e).cond lp = 3)
    || decide ((s.plane (17 * e + (s.engine e).phys lp)).state ≠ 1)

/-- COND of a logical plane as its setting word shows it: away while the plane is away, whatever upkeep holds (Table 3.2,
R85). -/
def State.condOf (s : State) (e lp : Nat) : Nat :=
  if (s.panel e).pstate = 2 ∨ (s.panel e).pstate = 3 then 3 else Tab.get 0 (s.engine e).cond lp

/-- Units that a thread's step takes: that of its record, and for a panel step whose plane is away the digital arrays of the
core's eight active engines, over which firmware splits it (R150, R151). -/
def State.unitsOf (s : State) (t : Nat) : List (Nat × Nat) :=
  let r := s.recordOf t
  let away := let (e, lp) := s.panelAt t r; decide (rKind r = 0) && s.planeAway e lp
  if (if (s.thread t).state = .running then (s.thread t).emulated else away) then
    unitOf r :: (List.range 8).map (fun i => (1, i))
  else [unitOf r]

/-- A step in progress in the core occupies one of the units. -/
def State.unitBusy (s : State) (core : Nat) (us : List (Nat × Nat)) : Bool :=
  (coreThreads core).any (fun t => decide ((s.thread t).state = .running) && (s.unitsOf t).any us.contains)

/-- The core group of a thread is on and its stack's arithmetic clock runs. -/
def State.coreUp (s : State) (t : Nat) : Bool :=
  s.domOn (.coreGroup (groupOf t)) && (s.clk (t / 1024)).running && (s.clk (t / 1024)).arithLocked

/-- The thread's next step may issue: it is Ready, its unit is free, and its context issues steps (R248, R305, R307). -/
def State.mayIssue (s : State) (t : Nat) : Bool :=
  let x := s.thread t
  decide (x.state = .ready) && (s.ctx x.ctx).live && !(s.ctx x.ctx).quiet && !s.supply.stopped.contains x.ctx
    && !s.unitBusy (t / 16) (s.unitsOf t)

/-- The core prefers thread `a` to thread `b`: higher priority, longer ready, lower number. -/
def State.prefers (s : State) (a b : Nat) : Bool :=
  let pa := s.prioOf (s.thread a).ctx
  let pb := s.prioOf (s.thread b).ctx
  decide (pb < pa) || (decide (pa = pb) && (decide ((s.thread a).since < (s.thread b).since)
    || (decide ((s.thread a).since = (s.thread b).since) && decide (a < b))))

/-- The core issues the thread's next step now, and it is of kind `k`. -/
def State.issues (s : State) (t k : Nat) : Bool :=
  rKind (s.recordOf t) == k && s.coreUp t && s.mayIssue t
    && (coreThreads (t / 16)).all (fun b => decide (b = t) || !s.mayIssue b || s.prefers t b)

/-- The step has issued and done its work; it completes at STEP_COMPLETE. -/
def State.stepDone (s : State) (t : Nat) : State :=
  s.updThread t (fun x => { x with state := .running, done := true, waits := .none, emulated := false })

/-- The step stalls on a resource. -/
def State.stall (s : State) (t : Nat) (w : TWait) : State :=
  s.updThread t (fun x => { x with state := .stalled, done := false, waits := w })

/-! ## Operands -/

/-- Memory and byte number of an operand reference of a thread. -/
def State.refAt (s : State) (t : Nat) (x : Ref) : Space × Nat :=
  if x.space = 0 then (.core, 524288 * (t / 16) + x.offset) else (.engine, 65536 * s.physEngine (t / 16) x.engine + x.offset)

/-- The first reference that names a byte outside its SRAM. -/
def State.badRef (s : State) (t : Nat) (l : List (Ref × Nat)) : Option Fault :=
  (l.find? (fun p => !p.1.ok p.2)).map (fun p => let a := s.refAt t p.1; .outsideMemory a.1 (a.2 + p.2))

/-- Writes of other threads among some bytes that no fence has covered: a reader may not see them yet (R268). -/
def State.unseenBy (s : State) (who : Option Nat) (sp : Space) (a n : Nat) : List Unseen :=
  (s.threads.filter (fun e => decide (some e.1 ≠ who))).flatMap (fun e =>
    e.2.unseen.filter (fun u => decide (u.space = sp ∧ u.at_ < a + n ∧ a < u.at_ + u.old.length)))

/-- One byte as a reader sees it through some writes, the newest first: what stood before a write it does not see. -/
def behind (a : Nat) (now : Byte × Bool) (l : List (Bool × Unseen)) : Byte × Bool :=
  l.foldl (fun v e => if e.1 = true ∧ e.2.at_ ≤ a then (e.2.old[a - e.2.at_]?).getD v else v) now

/-- Bytes with their poison as a thread, or a channel, reads them: the memory's, or for writes that no fence has covered what
stood there before, as a free value decides for each write; and the state with the draws counted (R268, R269). -/
def State.view (s : State) (who : Option Nat) (sp : Space) (a n : Nat) : List Byte × Bool × State :=
  match s.unseenBy who sp a n with
  | [] => (s.mem.bytes sp a n, s.mem.anyPoison sp a n, s)
  | u :: us =>
    let l := ((List.range (us.length + 1)).map (fun i => Config.stale (s.draws + i))).zip (u :: us).reverse
    let vs := (List.range n).map (fun i => behind (a + i) ((s.mem.bytes sp (a + i) 1).headD 0, s.mem.anyPoison sp (a + i) 1) l)
    (vs.map Prod.fst, vs.any (·.2), { s with draws := s.draws + (us.length + 1) })

/-- Bytes read by a step: poisoned where any word is; a vacant line raises its event (R218, R442). -/
def State.fetch (s : State) (t : Nat) (x : Ref) (n : Nat) : List Byte × Bool × State :=
  let (sp, a) := s.refAt t x
  let (bs, poison, s1) := s.view (some t) sp a n
  match (List.range n).find? (fun i => s.mem.vacantAt sp (a + i)) with
  | some i => (bs, true, s1.homeEvent sp (a + i) (s.thread t).ctx)
  | none => (bs, poison, s1)

/-- A step that read poison: the thread's present iteration is poisoned. -/
def State.markPoison (s : State) (t : Nat) (p : Bool) : State :=
  if p then s.updThread t (fun x => { x with poison := true }) else s

/-- Bytes that a step writes, with their poison; writes that no fence covers are remembered (R268). -/
def State.writeRef (s : State) (t : Nat) (x : Ref) (bs : List Byte) (p : Bool) : State :=
  let (sp, a) := s.refAt t x
  let old := (List.range bs.length).map (fun i => ((s.mem.bytes sp (a + i) 1).headD 0, s.mem.anyPoison sp (a + i) 1))
  (((s.homeWrite sp a bs.length (s.thread t).ctx).updMem (fun m => m.store sp a bs p)).updThread t
    (fun y => { y with unseen := y.unseen ++ [{ space := sp, at_ := a, old := old }] })).markPoison t p

/-- Binary32 values of bytes. -/
def floats (bs : List Byte) (n : Nat) : List F32 := (fieldsAt bs 0 4 n).map (BitVec.ofNat 32)

/-- Bytes of binary32 values. -/
def floatBytes (l : List F32) : List Byte := l.flatMap (fun v => be 4 v.toNat)

/-- BF16 values of bytes, as binary32 patterns. -/
def bfloats (bs : List Byte) (n : Nat) : List F32 := (fieldsAt bs 0 2 n).map ofBf

/-- Bytes of BF16 values. -/
def bfBytes (l : List F32) : List Byte := l.flatMap (fun v => be 2 (v.toNat / 65536))

/-- Counts of the floating-point exceptions of some results (R152). -/
def State.countFp (s : State) (core : Nat) (l : List FpR) : State :=
  let n := fun (f : FpR → Bool) => (l.filter f).length
  if l.any (fun r => r.inv || r.ovf || r.dz) then
    s.updCore core (fun c => { c with invalids := satAdd 32 c.invalids (n (·.inv)), overflows := satAdd 32 c.overflows (n (·.ovf))
                                      divZeros := satAdd 32 c.divZeros (n (·.dz)) })
  else s

/-- The member of a thread's context. -/
def State.memberOf (s : State) (t : Nat) : Member := (s.member (s.thread t).ctx).getD {}

/-- An exponent other than 0 was used (R145). -/
def State.markAdapted (s : State) (t : Nat) (b : Bool) : State :=
  if b then s.updThread t (fun x => { x with adapted := true }) else s

/-- A converter column or accumulator count of an engine (R134). -/
def State.countColumns (s : State) (e : Nat) (l : List (Nat × Nat × Nat)) : State :=
  s.updEngine e (fun x => { x with clips := l.foldl (fun t c => Tab.upd {} t c.1 (fun r => { r.count c.2.1 c.2.2 0 with kind := 2 })) x.clips })

/-- An INT32 sum that saturates, and whether it did (R96, R149). -/
def sat32 (v : Int) : Int × Bool :=
  if v < -(2 ^ 31) then (-(2 ^ 31), true) else if 2 ^ 31 - 1 < v then (2 ^ 31 - 1, true) else (v, false)

end Sys2Proof.Machine
end

