-- ==== Sys2Proof/Machine/PanelSteps.lean ====
section
/-! DEFINITION. Panel matvec steps and their digital emulation, plane-file loads, prefetch and readings
(R79 to R101, R107 to R109, R124, R134, R151). -/

namespace Sys2Proof.Machine

open Sys2Proof

/-! ## Sensors and corrections -/

/-- The array-tier sensor of a global cluster: the second of its two (Table 2.2). -/
def arraySensor (cluster : Nat) : Nat := 2 * cluster + 1

/-- The array-tier temperature of a cluster, 0.1 °C: the other sensor of the cluster where it is excluded (R529). -/
def State.arrayTemp (s : State) (cluster : Nat) : Int :=
  if s.excluded.contains (arraySensor cluster) then s.temp (2 * cluster) else s.temp (arraySensor cluster)

/-- Global cluster of an engine. -/
def engCluster (e : Nat) : Nat := e / 72

/-- A reading of a row group of an engine's logical plane. -/
def Engine.reading (x : Engine) (lp g : Nat) : Reading := Tab.get {} x.readings (32 * lp + g)

/-- The correction of a row group is current (R99). -/
def State.isCurrent (s : State) (e lp g : Nat) : Bool :=
  let r := (s.engine e).reading lp g
  decide (3 ≤ r.closed)
    && (match r.closedAt with | some t => decide (s.life.now ≤ t + 1000000) | none => false)
    && decide ((s.arrayTemp (engCluster e) - r.closedTemp).natAbs < 20)

/-- Mean of the last three values, exactly. -/
def mean3 (l : List F32) : Q :=
  qDiv (qAdd (q32of (l.getD 0 0)) (qAdd (q32of (l.getD 1 0)) (q32of (l.getD 2 0)))) (qInt 3)

/-- Gain and offset in force of a row group, binary32 (R99, R100). -/
def State.correction (s : State) (e lp g : Nat) (f : PlaneFile) : F32 × F32 :=
  let r := (s.engine e).reading lp g
  if s.isCurrent e lp g then
    ((q32 (qMul (qInt f.rho) (mean3 r.gains))).v, (q32 (qMul (qInt f.rho) (mean3 r.offs))).v)
  else
    let t := s.arrayTemp (engCluster e)
    let tp := (s.plane (17 * e + (s.engine e).phys lp)).tprog
    let k := qSub (qInt 1) ⟨15 * (t - 10 * tp), 100000⟩
    ((q32 (qMul (val16 (Tab.get 0 f.defGain g)).q k)).v, (q32 (val16 (Tab.get 0 f.defOff g)).q).v)

/-- Class code of a panel step whose first evaluation issues now (Table 3.10). -/
def State.panelClass (s : State) (e lp gfirst gcount : Nat) : Nat :=
  let cond := Tab.get 0 (s.engine e).cond lp
  let t := s.arrayTemp (engCluster e)
  if cond ≠ 0 ∨ t < -200 ∨ 1000 < t then 2
  else if (List.range gcount).all (fun i => s.isCurrent e lp (gfirst + i)) ∧ 250 ≤ t ∧ t ≤ 600
    ∧ s.excluded.contains (arraySensor (engCluster e)) = false then 0
  else 1

/-! ## Inputs -/

/-- Value of input row `r` in a panel format: one byte per row, or two rows per byte with the even one high (R92). -/
def panelInput (fmt : Nat) (bs : List Byte) (r : Nat) : Int :=
  if fmt < 2 then
    let b := (bs.getD r 0).toNat
    if fmt = 0 then signed 8 b else (b : Int)
  else
    let b := (bs.getD (r / 2) 0).toNat
    let v := if r % 2 = 0 then b / 16 else b % 16
    if fmt = 2 then signed 4 v else (v : Int)

/-- Bit-planes that a group takes, and the weight of the last (R93). -/
def bitPlanes (fmt : Nat) (priv : Bool) : Nat × Bool :=
  match fmt with
  | 0 => (8, true)
  | 1 => if priv then (9, true) else (8, false)
  | 2 => (4, true)
  | _ => if priv then (5, true) else (4, false)

/-- Weight of bit-plane `b` of `n`. -/
def planeWeight (n b : Nat) (signedTop : Bool) : Int := if signedTop = true ∧ b + 1 = n then -(2 ^ b) else 2 ^ b

/-- The value applied to the word lines of row `r`: x, or x − z in a privileged group (R93). -/
def appliedValue (fmt z : Nat) (priv : Bool) (x : Int) : Int := if priv = true ∧ fmt % 2 = 1 then x - z else x

/-- Bit `b` of an applied value in two's complement. -/
def appliedBit (v : Int) (b : Nat) : Bool := (v % 2 ^ 9).toNat.testBit b

/-- S, the row sum: rows of a group whose bit `b` is set (R86). -/
def rowSum (vals : List Int) (b : Nat) : Nat := (vals.filter (fun v => appliedBit v b)).length

/-! ## Evaluations -/

/-- Corrected evaluation sum of a code (R90), in binary32. -/
def corrected (d : Nat) (a o : F32) : F32 := (fdiv (fsub (q32 ⟨2 * (d : Int) - 255, 2⟩).v o).v a).v

/-- The factor that scales a group's sums: fl(s · f) (R124). -/
def groupScale (f : PlaneFile) (g j : Nat) (fg : F32) : Q :=
  q32of (fmul (q32 (val16 (Tab.get 0 f.scales (256 * g + j))).q).v fg).v

/-- A group sum after the zero-point correction: the column partial sum of R106. -/
def partialSum (f : PlaneFile) (g j : Nat) (z : Nat) (zp : Bool) (q : Q) : Q :=
  if zp then qSub q (qInt (z * Tab.get 0 f.colSums (256 * g + j))) else q

/-- The integer that group `g` adds into column `j` from its partial sum (R95). -/
def groupTerm (f : PlaneFile) (g j : Nat) (fg : F32) (q : Q) : Int := rne (qMul (groupScale f g j fg) q)

/-- The code of column `c` in evaluation `k` of the step. -/
def adcCode (adc : List (List Nat)) (k c : Nat) : Nat := (adc.getD k []).getD c 0

/-- One group of a panel step: its first evaluation's number, its bit-planes, its applied values. -/
structure GroupRun where
  g : Nat
  first : Nat
  planes : Nat
  signedTop : Bool
  priv : Bool
  vals : List Int
  deriving DecidableEq, Repr

/-- The groups of a step in ascending order with the numbers of their evaluations (R94). -/
def groupRuns (f : PlaneFile) (fmt z gfirst : Nat) (bs : List Byte) : Nat → Nat → Nat → List GroupRun
  | 0, _, _ => []
  | n + 1, i, k =>
    let g := gfirst + i
    let rows := rowsOf f.gsize
    let priv := fmt % 2 == 1 && f.mask.getLsbD g
    let (np, st) := bitPlanes fmt priv
    let vals := (List.range rows).map (fun r => appliedValue fmt z priv (panelInput fmt bs (i * rows + r)))
    { g := g, first := k, planes := np, signedTop := st, priv := priv, vals := vals }
      :: groupRuns f fmt z gfirst bs n (i + 1) (k + np)

/-- Rows of the plane that an evaluation of a group drives: those whose bit `b` is set. -/
def GroupRun.driven (r : GroupRun) (b : Nat) : List Nat :=
  ((List.range r.vals.length).zip r.vals).filterMap (fun p => if appliedBit p.2 b then some (r.g * r.vals.length + p.1) else none)

/-- The codes of a step's evaluations in order, each of 256 weight and 8 reference columns; `dev` is how many codes the noise
of Table 3.7 moved each by (R86 to R88, R91). -/
def evalCodes (x : Cells) (f : PlaneFile) (runs : List GroupRun) (dev : List (List Int)) : List (List Nat) :=
  runs.flatMap (fun r => (List.range r.planes).map (fun b =>
    (List.range 264).map (x.evalCode f (r.driven b) (dev.getD (r.first + b) []))))

/-- A weight column clipped in some evaluation of the group (R87). -/
def GroupRun.clipped (r : GroupRun) (adc : List (List Nat)) (j : Nat) : Bool :=
  (List.range r.planes).any (fun b => let d := adcCode adc (r.first + b) j; d == 0 || d == 255)

/-- The group subtracts z · C_gj (R95). -/
def GroupRun.zeroed (r : GroupRun) (fmt : Nat) : Bool := fmt % 2 == 1 && !r.priv

/-- The partial sum of a column from its corrected evaluations, exactly summed; none where one of them is not finite. -/
def GroupRun.measured (r : GroupRun) (f : PlaneFile) (adc : List (List Nat)) (fmt z : Nat) (ao : F32 × F32) (j : Nat) : Except F32 Q :=
  let ps := (List.range r.planes).map (fun b => (b, corrected (adcCode adc (r.first + b) j) ao.1 ao.2))
  match ps.find? (fun p => !finite32 p.2) with
  | some p => .error p.2
  | none => .ok (partialSum f r.g j z (r.zeroed fmt)
      (ps.foldl (fun q p => qAdd q (qMul (qInt (planeWeight r.planes p.1 r.signedTop)) (q32of p.2))) (qInt 0)))

/-- The ideal partial sum of a column: from the levels programmed (R105, R109). -/
def GroupRun.ideal (r : GroupRun) (f : PlaneFile) (x : Cells) (fmt z j : Nat) : Q :=
  partialSum f r.g j z (r.zeroed fmt) (qInt ((((List.range r.vals.length).zip r.vals).map (fun p =>
    p.2 * codeValue f.codebook (Tab.get 0 x.level (cellAt (r.g * r.vals.length + p.1) j) - 1))).sum))

/-- Bound of a tolerance class, a fraction of column full scale (Table 3.8). -/
def classBound (cls : Nat) : Q := if cls = 0 then ⟨5, 1000⟩ else if cls = 1 then ⟨10, 1000⟩ else ⟨25, 1000⟩

/-- Column full scale of a step: 2^(n−1) · G · VMAX (R106). -/
def fullScale (f : PlaneFile) (fmt : Nat) : Q := qInt (2 ^ (if fmt < 2 then 7 else 3) * (rowsOf f.gsize * f.vmax : Nat))

/-- The step's partial sums lie within its class: the RMS of their errors over its columns and row groups, those with a clipped
evaluation apart, is at most the bound (R105, R106). -/
def withinClass (f : PlaneFile) (x : Cells) (adc : List (List Nat)) (runs : List GroupRun) (ao : GroupRun → F32 × F32)
    (fmt z cls : Nat) : Bool :=
  let open_ := runs.flatMap (fun r => ((List.range 256).filter (fun j => !r.clipped adc j)).map (fun j => (r, j)))
  let errs := open_.map (fun p => match p.1.measured f adc fmt z (ao p.1) p.2 with
    | .ok q => some (qSub q (p.1.ideal f x fmt z p.2))
    | .error _ => none)
  let b := qMul (classBound cls) (fullScale f fmt)
  errs.all Option.isSome
    && !qLt (qMul (qInt open_.length) (qMul b b)) ((errs.filterMap id).foldl (fun a e => qAdd a (qMul e e)) (qInt 0))

/-- What one column gains from one group (R95, R124). A step's sums that would lie outside its class are the ideal ones
(assumption 65); a clipped sum that is not finite gives an open value (assumption 14). -/
def columnTerm (f : PlaneFile) (x : Cells) (adc : List (List Nat)) (within : Bool) (r : GroupRun) (fmt z : Nat) (ao : F32 × F32)
    (fg : F32) (j : Nat) : Int :=
  if !within && !r.clipped adc j then groupTerm f r.g j fg (r.ideal f x fmt z j)
  else match r.measured f adc fmt z ao j with
    | .error v => Config.nonFinite v
    | .ok q => groupTerm f r.g j fg q

/-- Sum of the reference codes of four columns. -/
def refSum (adc : List (List Nat)) (k lo : Nat) : Nat := ((List.range 4).map (fun i => adcCode adc k (lo + i))).sum

/-- One evaluation's share of the group's reading (R98); the 1,024th qualifying one completes the reading, which awaits its
close, and the next begins. -/
def Reading.add (x : Reading) (adc : List (List Nat)) (k sSum rows : Nat) : Reading :=
  let clip := (List.range 8).any (fun i => let d := adcCode adc k (256 + i); d == 0 || d == 255)
  if rows ≤ 4 * sSum ∧ clip = false then
    let y := (x.sumS + sSum, x.sumH + refSum adc k 260, x.sumL + refSum adc k 256)
    if 1023 ≤ x.n then { x with n := 0, sumS := 0, sumH := 0, sumL := 0, due := x.due ++ [y] }
    else { x with n := x.n + 1, sumS := y.1, sumH := y.2.1, sumL := y.2.2 }
  else x

/-- Add terms to a column in order with saturation: the sum and how often it saturated (R96). -/
def addTerms (a : Int) (l : List Int) : Int × Nat :=
  l.foldl (fun x v => let (y, c) := sat32 (x.1 + v); (y, x.2 + flag c)) (a, 0)

/-- The engine and logical plane whose block a plane holds: its own, or that which REPLAN moved there (R182). -/
def State.blockHome (s : State) (e lp : Nat) : Nat × Nat :=
  match s.upk.placement.find? (fun x => decide (x.2 = 17 * e + lp + 1)) with
  | some x => (x.1 / 16, x.1 % 16)
  | none => (e, lp)

/-- The engine that an image names for an engine: that which a spare replaces (R53, R180). -/
def State.imageEngine (s : State) (e : Nat) : Nat :=
  if e % 9 = 8 then
    (match (s.core (e / 9)).spareFor with
     | some k => e / 9 * 9 + k
     | none => if (s.panel e).replaces ≤ 7 then e / 9 * 9 + (s.panel e).replaces else e)
  else e

/-- The engine and logical plane that the image names for the block of a plane. -/
def State.imageHome (s : State) (e lp : Nat) : Nat × Nat :=
  let h := s.blockHome e lp
  (s.imageEngine h.1, h.2)

/-- The array block that an image places on an engine's logical plane (R203). -/
def Image.blockOn (i : Image) (e lp : Nat) : Option ArrayBlock :=
  ([i.watch, i.inspect].filterMap id).findSome? (fun m =>
    ((m.placement.filter (fun p => decide (p.home = 0))).zip m.blocks).findSome? (fun p =>
      if p.1.loc.toNat = locPlane e lp then some p.2 else none))

/-- The golden block of a plane: what the image in force places there (R190, R203). -/
def State.blockAt (s : State) (e lp : Nat) : ArrayBlock :=
  let h := s.imageHome e lp
  (s.image.bind (fun i => i.blockOn h.1 h.2)).getD {}

/-- The copy of a plane's block of the image in force in the away region. -/
def State.copyOf (s : State) (e lp : Nat) : Option AwayCopy :=
  let h := s.imageHome e lp
  s.upk.copies.find? (fun c => decide (some c.slot = s.img.active ∧ c.engine = h.1 ∧ c.plane = h.2))

/-- The bytes of a block's home in the away region, and whether any is poisoned; where no copy lies there, those that one
would hold (R183, R220). -/
def State.homeBytes (s : State) (e lp : Nat) : List Byte × Bool :=
  match s.copyOf e lp with
  | some c => (s.mem.bytes .board c.at_ c.len, s.mem.anyPoison .board c.at_ c.len)
  | none => ((s.blockAt e lp).copyBytes, s.img.codesBad)

/-- The default corrections measured by upkeep stand in place of those of the image (R100). -/
def State.measured (s : State) (e lp : Nat) (f : PlaneFile) : PlaneFile :=
  let p := s.plane (17 * e + (s.engine e).phys lp)
  if p.gains.isEmpty then f else { f with defGain := tabOf 0 p.gains, defOff := tabOf 0 p.offs }

/-! ## The panel step -/

/-- A panel step on the array: accumulators, clip counts, readings, class (R92 to R98, R107, R124). -/
def State.panelRun (s : State) (t e lp bank : Nat) (r : BitVec 256) (dev : List (List Int)) : State :=
  let f := (s.engine e).activeFile
  let x := s.cells (17 * e + (s.engine e).phys lp)
  let fmt := rf r 229 227
  let z := rf r 226 219
  let n := rf r 235 230
  let rows := rowsOf f.gsize
  let (bs, bad, s1) := s.fetch t { space := 1, engine := rf r 247 245, offset := rf r 217 202 } (panelIn fmt (n * rows))
  let runs := groupRuns f fmt z (rf r 240 236) bs n 0 0
  let evals := (runs.map (·.planes)).sum
  let es := s1.readExps t n rows
  let fac := runs.map (fun g => (g.g, es.getD (g.g - rf r 240 236) 0))
  let corr := runs.map (fun g => (g.g, s1.correction e lp g.g f))
  let ao := fun (g : GroupRun) => ((corr.find? (fun x => x.1 == g.g)).map Prod.snd).getD (0, 0)
  let cls := s1.panelClass e lp (rf r 240 236) n
  let adc := evalCodes x f runs dev
  let within := withinClass f x adc runs ao fmt z cls
  let cols := (List.range 256).map (fun j =>
    let terms := runs.map (fun g =>
      columnTerm f x adc within g fmt z (ao g)
        (factorF (((fac.find? (fun x => x.1 == g.g)).map Prod.snd).getD 0)) j)
    let (v, sats) := addTerms (if rf r 218 218 = 1 then Tab.get 0 (s1.engine bank).accs j else 0) terms
    let clips := ((List.range evals).filter (fun k => let d := adcCode adc k j; d == 0 || d == 255)).length
    (j, v, clips + sats))
  let poison := bad || (s1.engine e).activePoison || (rf r 218 218 == 1 && (s1.engine bank).accPoison)
  let s2 := s1.updEngine bank (fun x => { x with accs := tabOf 0 (cols.map (fun c => c.2.1)), accPoison := poison, clockOn := true })
  let s3 := s2.updEngine e (fun x =>
    { x with
      clockOn := true
      factors := fac.foldl (fun tb p => Tab.set one32 tb p.1 (factorF p.2)) x.factors
      readings := runs.foldl (fun tb g => Tab.upd {} tb (32 * lp + g.g) (fun rd =>
        (List.range g.planes).foldl (fun rd b => rd.add adc (g.first + b) (rowSum g.vals b) rows) rd)) x.readings })
  let s4 := s3.countColumns e (cols.map (fun c => (c.1, c.2.2, evals)))
  ((s4.updThread t (fun x => { x with cls := max x.cls cls })).markPoison t poison).markAdapted t (fac.any (fun p => decide (p.2 ≠ 0)))

/-- The home's bytes that have been fetched for a thread's next step, where they are there: of the plane that its record names
now (R220). -/
def State.fetchedFor (s : State) (t : Nat) : Option (List Byte × Bool) :=
  let (e, lp) := s.panelAt t (s.recordOf t)
  ((s.engine e).fetched.find? (fun x => decide (x.1 = t ∧ x.2.1 = lp))).map (fun x => x.2.2)

/-- The replicated read of a block's home that firmware makes for an emulated step: from the away region into the engine's SRAM
(R220, Table 6.5); TAG names the thread and the plane. -/
def State.fetchDesc (s : State) (t e lp : Nat) : BitVec 512 :=
  let (a, n) := match s.copyOf e lp with | some c => (c.at_, c.len) | none => (0x18000000, (s.homeBytes e lp).1.length)
  BitVec.ofNat 512 (word [(1, 510), (4, 500), (locEngine e, 432), (a, 392), (n, 328), (1, 304), (32 * t + lp, 160)])

/-- Firmware submits a fetch on its core's firmware ring, one of rings 56 to 63 of the cluster; which of them serves which work
the spec leaves to firmware (DESIGN CHOICE, assumption 81). -/
def State.postFetch (s : State) (t e lp : Nat) : State :=
  s.updRing (64 * (t / 128) + 56 + t / 16 % 8) (fun x =>
    let l := (if x.elig = 0 then [] else x.descs.drop x.head) ++ [s.fetchDesc t e lp]
    { x with state := 1, ctx := (s.thread t).ctx, descs := l, head := 0, len := l.length, elig := l.length, skipped := [] })

/-- The digital emulation of a panel step: exact group sums from the codes of the block's home, as fetched for the step, read as a
1,024 by 256 block in tile order; no reading, no converter clip, class code 0 (R109, R151, R220). Poison of the home is the
step's (R442). -/
def State.panelEmulated (s : State) (t bank : Nat) (r : BitVec 256) (home : List Byte × Bool) : State :=
  let f := readFile (home.1.drop 131072)
  let fmt := rf r 229 227
  let z := rf r 226 219
  let n := rf r 235 230
  let gfirst := rf r 240 236
  let rows := rowsOf f.gsize
  let (bs, bad, s1) := s.fetch t { space := 1, engine := rf r 247 245, offset := rf r 217 202 } (panelIn fmt (n * rows))
  let fac := s1.readExps t n rows
  let cols := (List.range 256).map (fun j =>
    let terms := (List.range n).map (fun i =>
      let g := gfirst + i
      let q := ((List.range rows).map (fun k =>
        panelInput fmt bs (i * rows + k) * codeValue f.codebook (tileCode home.1 64 (g * rows + k) j))).sum
      groupTerm f g j (factorF (fac.getD i 0)) (partialSum f g j z (fmt % 2 == 1) (qInt q)))
    (j, addTerms (if rf r 218 218 = 1 then Tab.get 0 (s1.engine bank).accs j else 0) terms))
  let poison := bad || home.2 || (rf r 218 218 == 1 && (s1.engine bank).accPoison)
  let s2 := s1.updEngine bank (fun x => { x with accs := tabOf 0 (cols.map (fun c => c.2.1)), accPoison := poison, clockOn := true })
  let s3 := s2.countColumns bank (cols.map (fun c => (c.1, c.2.2, 0)))
  (s3.markPoison t poison).markAdapted t (fac.any (· ≠ 0))

/-! ## Plane files, R83, R84 -/

/-- The plane of the panel step that a thread would issue next, with its engine and its record. -/
def State.nextPanel (s : State) (t : Nat) (r : BitVec 256) : Option (Nat × Nat × BitVec 256) :=
  if rKind r = 0 then let (e, lp) := s.panelAt t r; some (e, lp, r) else none

/-- The record that a thread issues next, where it has one: after an END record that is the first of its program (R247). -/
def State.upcoming (s : State) (t : Nat) : Option (BitVec 256) :=
  let x := s.thread t
  let at_ := fun (n : Nat) => some (Tab.get 0 (s.core (t / 16)).stepRam n)
  match x.state with
  | .ready | .stalled => some (s.recordOf t)
  | .running | .sleeping => if rEnd (s.recordOf t) then at_ x.base else at_ (x.pc + 1)
  | .boundary => at_ x.base
  | .free | .faulted => none

/-- A stalled step waits for the file of plane `lp` of engine `e`. -/
def State.awaited (s : State) (e lp : Nat) : Bool :=
  (coreThreads (e / 9)).any (fun t =>
    decide ((s.thread t).state = .stalled ∧ (s.thread t).waits = .planeFile) && decide (s.panelAt t (s.recordOf t) = (e, lp)))

/-- Start a load into the shadow bank. -/
def State.startLoad (s : State) (e lp : Nat) (r : BitVec 256) : State :=
  s.updEngine e (fun x => { x with shadow := none, load := some { plane := lp, fromCore := rf r 201 201 == 1, addr := rf r 200 182 } })

/-- The prefetch at the issue of a panel step on engine `e` (R83). -/
def State.prefetch (s : State) (e : Nat) : State :=
  let x := s.engine e
  if x.load.isSome ∨ (match x.shadow with | some p => s.awaited e p | none => false) = true then s
  else
    let cand := (coreThreads (e / 9)).filter (fun t =>
      match s.upcoming t with
      | some r => match s.nextPanel t r with
        | some (e', lp, _) => decide (e' = e ∧ x.active ≠ some lp ∧ x.shadow ≠ some lp)
        | none => false
      | none => false)
    match firstBy s.prefers cand with
    | none => s
    | some t => match s.upcoming t with
      | some r => s.startLoad e (s.panelAt t r).2 r
      | none => s

/-- PANEL_MATVEC: a panel step issues: on the array where its plane is active or its file is in the shadow bank, by
emulation where the plane is away, once its block's home is fetched; otherwise the file is loaded, or the home fetched, and
the step stalls (R84, R151, R220). -/
def execPanelMatvec (thread : Nat) (dev : List (List Int)) (s : State) : Outc :=
  if s.issues thread 0 = false then .next s
  else
    let r := s.recordOf thread
    let (e, lp) := s.panelAt thread r
    let bank := s.physEngine (thread / 16) (rf r 247 245)
    let x := s.engine e
    match s.badRef thread [({ space := 1, engine := rf r 247 245, offset := rf r 217 202 }, panelIn (rf r 229 227) (rf r 235 230 * rowsOf (s.blockAt e lp).file.gsize))] with
    | some f => .fault f
    | none =>
      if s.planeAway e lp then
        match s.fetchedFor thread with
        | some home =>
          let s1 := s.updEngine e (fun x => { x with fetched := x.fetched.filter (fun y => decide (y.1 ≠ thread)) })
          .next (((s1.panelEmulated thread bank r home).stepDone thread).updThread thread (fun x => { x with emulated := true }))
        | none => .next ((s.postFetch thread e lp).stall thread .fetch)
      else if s.domOn (.chargePump (e / 576)) = false then .next (s.askPower (.chargePump (e / 576)) (s.thread thread).ctx)
      else if x.active = some lp then .next (((s.panelRun thread e lp bank r dev).stepDone thread).prefetch e)
      else if x.shadow = some lp then
        let s1 := s.updEngine e (fun x => { x with active := x.shadow, activeFile := x.shadowFile, activePoison := x.shadowPoison,
                                                   shadow := x.active, shadowFile := x.activeFile, shadowPoison := x.activePoison })
        .next (((s1.panelRun thread e lp bank r dev).stepDone thread).prefetch e)
      else
        let s1 := if x.load.isNone then s.startLoad e lp r else s
        .next (s1.stall thread .planeFile)

/-- Words of a plane file that a load finds uncorrectable are weight data that cannot be read: they are fetched again, and the
contexts whose steps wait for the file are tainted by them (R445). -/
def State.badFile (s : State) (e lp : Nat) (bad : List Nat) (sp : Space) (a : Nat) : State :=
  let who := (coreThreads (e / 9)).filter (fun t =>
    decide ((s.thread t).state = .stalled ∧ (s.thread t).waits = .planeFile) && decide (s.panelAt t (s.recordOf t) = (e, lp)))
  bad.foldl (fun s i => s.weightUe sp (a + i) (who.head?.map (fun t => (s.thread t).ctx))) s

/-- PLANE_FILE_LOAD_DONE: the load under way ends; the file stands in the shadow bank (R83). Its bytes are those that the SRAM
holds at the end of the load: the spec gives a load's rate and not the moment at which each byte is sampled (DESIGN CHOICE,
assumption 66). -/
def execPlaneFileLoadDone (engine : Nat) (s : State) : Outc :=
  match (s.engine engine).load with
  | none => .next s
  | some l =>
    let (sp, a) : Space × Nat := if l.fromCore then (.core, 524288 * (engine / 9) + l.addr) else (.engine, 65536 * engine + l.addr)
    let head := s.mem.bytes sp a 4
    let n := fileBytes (bits (ofBytes head) 8 7) ((ofBytes head).testBit 4)
    let f := s.measured engine l.plane (readFile (s.mem.bytes sp a n))
    let s1 := s.updEngine engine (fun x =>
      { x with load := none, shadow := some l.plane, shadowFile := f, shadowPoison := s.mem.anyPoison sp a n })
    .next (s1.badFile engine l.plane ((List.range n).filter (fun i => s.mem.poisonAt sp (a + i) && decide ((a + i) % 8 = 0 ∨ i = 0))) sp a)

/-! ## Readings, R98 to R101 -/

/-- The nominal gain over the span of ρ = 1: 127.5 ÷ (G · VMAX). -/
def nominalGain (f : PlaneFile) : Q := ⟨255, 2 * rowsOf f.gsize * f.vmax⟩

/-- ā and ō of a reading with its 1,024 evaluations, from its sums of S, of the high and of the low codes (R98). Reference sums
are over four columns. -/
def readingValues (f : PlaneFile) (y : Nat × Nat × Nat) : Q × Q :=
  let v0 := codeValue f.codebook 0
  let v15 := codeValue f.codebook 15
  let a := qDiv ⟨(y.2.1 : Int) - y.2.2, 4⟩ (qInt ((v15 - v0) * y.1))
  let l : Q := ⟨2 * (y.2.2 : Int) - 255 * 4 * 1024, 8⟩
  (a, qDiv (qSub l (qMul a (qInt (v0 * y.1)))) (qInt 1024))

/-- The mean shift that a reading's reference columns show, per driven row and in units of v over the span of ρ = 1: the mean
code of all eight less 127.5, at the nominal gain (R168, assumption 57). -/
def readingLevel (f : PlaneFile) (y : Nat × Nat × Nat) : Q :=
  qDiv (qDiv (qSub ⟨(y.2.1 : Int) + y.2.2, 8⟩ ⟨255 * 1024, 2⟩) (qInt y.1)) (nominalGain f)

/-- The file of a plane, from the bank that holds it. -/
def Engine.fileOf (x : Engine) (lp : Nat) : Option PlaneFile :=
  if x.active = some lp then some x.activeFile else if x.shadow = some lp then some x.shadowFile else none

/-- ENGINE_CLOCK_GATE: the engine's clock stops after eight idle cycles: no step in progress names it and no load runs
(R51). -/
def execEngineClockGate (engine : Nat) (s : State) : Outc :=
  let x := s.engine engine
  let busy := (coreThreads (engine / 9)).any (fun t =>
    decide ((s.thread t).state = .running) &&
      (match rKind (s.recordOf t) with
       | 0 => decide ((s.panelAt t (s.recordOf t)).1 = engine) || decide (s.physEngine (engine / 9) (rf (s.recordOf t) 247 245) = engine)
       | 1 => decide (s.physEngine (engine / 9) (rf (s.recordOf t) 247 245) = engine)
       | 4 => rf (s.recordOf t) 247 247 == 0 && decide (s.physEngine (engine / 9) (rf (s.recordOf t) 246 244) = engine)
       | _ => false))
  if busy ∨ x.load.isSome = true ∨ x.cbLoading ≠ [] then .next s
  else .next (s.updEngine engine (fun x => { x with clockOn := false }))

end Sys2Proof.Machine
end

