-- ==== Sys2Proof/Machine/DigitalSteps.lean ====
section
/-! DEFINITION. Digital matmul steps and codebook loads (R118 to R122, R146 to R150). -/

namespace Sys2Proof.Machine

open Sys2Proof

/-- A digital matmul record, Table 7.6. -/
structure MmRec where
  engine : Nat
  mode : Nat
  xe5 : Bool
  we5 : Bool
  slot : Nat
  wcode : Nat
  kt : Nat
  nt : Nat
  b : Nat
  waddr : Nat
  xaddr : Nat
  oaddr : Nat
  acc : Bool
  deriving DecidableEq, Repr

/-- The record's fields. -/
def mmRec (r : BitVec 256) : MmRec :=
  let (kt, nt, b) := mmDims r
  { engine := rf r 247 245, mode := rf r 244 242, xe5 := rf r 241 241 == 1, we5 := rf r 240 240 == 1, slot := rf r 239 238,
    wcode := rf r 237 236, kt := kt, nt := nt, b := b, waddr := rf r 215 200, xaddr := rf r 199 184, oaddr := rf r 183 168,
    acc := rf r 167 167 == 1 }

/-- The operand that a mode's weight entry stands for: an integer or a floating-point value. -/
def mmWeight (m : MmRec) (w : Nat) : Int × Fv :=
  match m.mode with
  | 3 => (0, if m.we5 then valE5 w else valE4 w)
  | 4 => (0, valBf w)
  | _ => (signed 8 w, .fin false 0 1)

/-- The operand that a mode's input entry stands for. -/
def mmInput (m : MmRec) (x : Nat) : Int × Fv :=
  match m.mode with
  | 0 => (signed 8 x, .fin false 0 1)
  | 1 => ((x : Int), .fin false 0 1)
  | 2 => (signed 4 x, .fin false 0 1)
  | 3 => (0, if m.xe5 then valE5 x else valE4 x)
  | _ => (0, valBf x)

/-- Entry `i` of packed inputs: one byte, two to a byte with the even one high, or two bytes. The packing of INT4 inputs is that
of panel inputs (R92): the spec gives none for a digital matmul (DESIGN CHOICE, assumption 75). -/
def mmEntry (mode : Nat) (bs : List Byte) (i : Nat) : Nat :=
  if mode = 2 then (let b := (bs.getD (i / 2) 0).toNat; if i % 2 = 0 then b / 16 else b % 16)
  else if mode = 4 then ofBytes ((bs.drop (2 * i)).take 2)
  else (bs.getD i 0).toNat

/-- Weight element `i` of the tiles: a code through the slot's codebook, or an uncoded operand (R120, R122). An uncoded INT4
weight takes a byte of its own, as an INT4 entry of a codebook does (Table 4.3; R148 counts 256 B to a tile of uncoded 8-bit
operands and gives no INT4 figure: DESIGN CHOICE, assumption 75). -/
def mmCode (m : MmRec) (cb : List Nat) (bs : List Byte) (i : Nat) : Nat :=
  match m.wcode with
  | 0 => if m.mode = 4 then ofBytes ((bs.drop (2 * i)).take 2) else (bs.getD i 0).toNat
  | 1 => let b := (bs.getD (i / 2) 0).toNat; cb.getD (if i % 2 = 0 then b / 16 else b % 16) 0
  | _ => cb.getD (bs.getD i 0).toNat 0

/-- The codebook that stands before a coded block's codes (R118). -/
def mmBook (m : MmRec) (bs : List Byte) : List Nat :=
  let (w, n) := cbShape m.mode m.wcode
  fieldsAt bs 4 w n

/-- The exact sum of products of floating-point operands, rounded once (R149). -/
def dotF (l : List (Fv × Fv)) : FpR :=
  let ps := l.map (fun p => mulV p.1 p.2)
  if ps.any (fun p => match p with | none => true | some v => v.isNan) then { v := nan32 false }
  else
    let vs := ps.filterMap id
    let pos := vs.any (fun v => !v.isFin && !v.neg)
    let negs := vs.any (fun v => !v.isFin && v.neg)
    if pos && negs then { v := nan32 false }
    else if pos then { v := inf32 false }
    else if negs then { v := inf32 true }
    else q32 (vs.foldl (fun a v => qAdd a v.q) (qInt 0))

/-- One result: partial sums of its weight tiles in order, with the clips it met. -/
def mmResult (m : MmRec) (start : Nat) (tiles : List (List ((Int × Fv) × (Int × Fv)))) : Nat × Nat :=
  if m.mode ≤ 2 then
    let first : Int := if m.acc then signed 32 start else 0
    let (v, n) := addTerms first (tiles.map (fun t => (t.map (fun p => p.1.1 * p.2.1)).sum))
    (unsigned 32 v, n)
  else
    -- an overflow counts where it makes the accumulator infinite, not where an infinite operand does
    let go := fun (a : F32 × Nat × Bool) (t : List ((Int × Fv) × (Int × Fv))) =>
      let p := dotF (t.map (fun q => (q.1.2, q.2.2)))
      let s : FpR := if a.2.2 then p else fadd a.1 p.v
      let ovf := (p.ovf || s.ovf) && !(val32 s.v).isNan
      (s.v, a.2.1 + flag ovf, false)
    let (v, n, _) := tiles.foldl go (BitVec.ofNat 32 start, 0, !m.acc)
    (v.toNat, n)

/-- The products of one output over one tile. -/
def mmTile (m : MmRec) (cb : List Nat) (wb xb : List Byte) (vec kt nt c : Nat) : List ((Int × Fv) × (Int × Fv)) :=
  (List.range 16).map (fun r =>
    (mmInput m (mmEntry m.mode xb (vec * m.kt * 16 + kt * 16 + r)),
     mmWeight m (mmCode m cb wb ((nt * m.kt + kt) * 256 + r * 16 + c))))

/-- DIGITAL_MATMUL: weight-stationary products into engine SRAM at OADDR (R147 to R150). A coded step whose slot does not
hold its block's codebook starts the load and stalls, and one whose slot is still being loaded stalls (R121). Several input
vectors stand at XADDR one after the other, and so do their outputs at OADDR: the spec gives no order (DESIGN CHOICE,
assumption 76). -/
def execDigitalMatmul (thread : Nat) (s : State) : Outc :=
  if s.issues thread 1 = false then .next s
  else
    let r := s.recordOf thread
    let m := mmRec r
    let e := s.physEngine (thread / 16) m.engine
    let ref := fun o => ({ space := 1, engine := m.engine, offset := o } : Ref)
    let wn := wBytes m.mode m.wcode (m.kt * m.nt)
    let xn := xBytes m.mode (m.b * m.kt * 16)
    let on := 4 * m.b * m.nt * 16
    match s.badRef thread [(ref m.waddr, wn), (ref m.xaddr, xn), (ref m.oaddr, on)] with
    | some f => .fault f
    | none =>
      let (wb, p1, s1) := s.fetch thread (ref m.waddr) wn
      let cb := mmBook m wb
      if m.wcode ≠ 0 ∧ (Tab.get [] (s.engine e).codebooks m.slot ≠ cb ∨ (s.engine e).cbLoading.contains m.slot = true) then
        let s2 := s.updEngine e (fun x => { x with cbLoading := if x.cbLoading.contains m.slot then x.cbLoading else x.cbLoading ++ [m.slot] })
        .next (s2.stall thread .codebook)
      else
        let (xb, p2, s2) := s1.fetch thread (ref m.xaddr) xn
        let (ob, p3, s3) := if m.acc then s2.fetch thread (ref m.oaddr) on else ([], false, s2)
        let hdr := let c := cbShape m.mode m.wcode; if m.wcode = 0 then 0 else 4 + c.1 * c.2
        let codes := wb.drop hdr
        let outs := (List.range m.b).flatMap (fun v => (List.range (m.nt * 16)).map (fun o =>
          let tiles := (List.range m.kt).map (fun k => mmTile m cb codes xb v k (o / 16) (o % 16))
          (o, mmResult m (ofBytes ((ob.drop (4 * (v * m.nt * 16 + o))).take 4)) tiles)))
        let poison := p1 || p2 || p3
        let s4 := s3.writeRef thread (ref m.oaddr) (outs.flatMap (fun o => be 4 o.2.1)) poison
        let s5 := (s4.countColumns e ((outs.filter (fun o => o.2.2 != 0)).map (fun o => (o.1 % 256, o.2.2, 0)))).updEngine e
          (fun x => { x with clockOn := true })
        .next ((s5.markPoison thread poison).stepDone thread)

/-- A running step uses a codebook slot of an engine. -/
def State.slotBusy (s : State) (e slot : Nat) : Bool :=
  (coreThreads (e / 9)).any (fun t =>
    let r := s.recordOf t
    decide ((s.thread t).state = .running) && rKind r == 1 && decide (s.physEngine (e / 9) (mmRec r).engine = e)
      && (mmRec r).slot == slot && (mmRec r).wcode != 0)

/-- CODEBOOK_LOAD_DONE: the codebook that a stalled step asked for stands in its slot; the load has waited for a running
step that uses the slot (R121). -/
def execCodebookLoadDone (engine slot : Nat) (s : State) : Outc :=
  if (s.engine engine).cbLoading.contains slot = false ∨ s.slotBusy engine slot = true then .next s
  else
    let who := (coreThreads (engine / 9)).find? (fun t =>
      let r := s.recordOf t
      decide ((s.thread t).state = .stalled ∧ (s.thread t).waits = .codebook) && rKind r == 1
        && decide (s.physEngine (engine / 9) (mmRec r).engine = engine) && (mmRec r).slot == slot)
    let cb := match who with
      | none => Tab.get [] (s.engine engine).codebooks slot
      | some t =>
        let m := mmRec (s.recordOf t)
        mmBook m (s.mem.bytes .engine (65536 * engine + m.waddr) (wBytes m.mode m.wcode 0))
    .next (s.updEngine engine (fun x =>
      { x with codebooks := Tab.set [] x.codebooks slot cb, cbLoading := x.cbLoading.filter (· ≠ slot) }))

end Sys2Proof.Machine
end

