-- ==== Sys2Proof/Machine/VectorSteps.lean ====
section
/-! DEFINITION. Vector, rotate and requantise steps (R125 to R137, R152 to R157, Tables 7.8 to 7.11). -/

namespace Sys2Proof.Machine

open Sys2Proof

/-! ## Vector operations -/

/-- One lane of an elementwise operation. -/
def laneOp (op : Nat) (a b c : F32) : FpR :=
  match op with
  | 0x01 => fadd a b | 0x02 => fsub a b | 0x03 => fmul a b | 0x04 => fma a b c
  | 0x05 => fmin a b | 0x06 => fmax a b | 0x07 => { v := canon (Config.compareResult a b) }
  | 0x08 => fabs a | 0x09 => fneg a | 0x0A => { v := a }
  | 0x10 => fdiv a b | 0x11 => fsqrt a
  | _ => unary op a

/-- Results of a vector operation: at DST, the new state at COP where the operation has one, and the intermediate results,
whose exceptions count too (R152). -/
structure VOut where
  dst : List FpR
  state : Option (List F32) := none
  extra : List FpR := []
  deriving DecidableEq, Repr

/-- Operations chained through their results, with every one of them. -/
def chain {α : Type} (f : F32 → α → FpR) (a : F32) (l : List α) : F32 × List FpR :=
  l.foldl (fun p x => let r := f p.1 x; (r.v, p.2 ++ [r])) (a, [])

/-- Sum of values in ascending order. -/
def sumUp (l : List F32) : F32 × List FpR := match l with | [] => (0, []) | x :: xs => chain fadd x xs

/-- Softmax over the operand: exponentials of the distances from the largest value, divided by their sum in ascending
order. Table 7.9 names the operation; its steps are DEDUCED from Table 4.8 (assumption 25). -/
def softmax (l : List F32) : VOut :=
  let m := match l with | [] => 0 | x :: xs => xs.foldl (fun a v => (fmax a v).v) x
  let d := l.map (fun v => fsub v m)
  let e := d.map (fun r => unary 0x18 r.v)
  let t := sumUp (e.map (·.v))
  { dst := e.map (fun r => fdiv r.v t.1), extra := d ++ e ++ t.2 }

/-- RMS normalisation's pairwise tree over lane sums (R157). -/
def treeSum : Nat → List F32 → F32 × List FpR
  | 0, l => (l.getD 0 0, [])
  | k + 1, l =>
    let rs := (List.range (l.length / 2)).map (fun i => fadd (l.getD (2 * i) 0) (l.getD (2 * i + 1) 0))
    let t := treeSum k (rs.map (·.v))
    (t.1, rs ++ t.2)

/-- RMS normalisation of a token with gains (R157). -/
def rmsNorm (x g : List F32) (eps : F32) : VOut :=
  let lanes := (List.range 64).map (fun k =>
    chain (fun a v => fma v v a) 0 (((List.range x.length).filter (fun i => decide (i % 64 = k))).map (fun i => x.getD i 0)))
  let s := treeSum 6 (lanes.map Prod.fst)
  let q := fdiv s.1 (q32 (qInt x.length)).v
  let e := fadd q.v eps
  let r := unary 0x13 e.v
  let y := x.map (fun v => fmul v r.v)
  { dst := (y.zip g).map (fun p => fmul p.1.v p.2), extra := lanes.flatMap Prod.snd ++ s.2 ++ [q, e, r] ++ y }

/-- One channel of a short causal convolution: taps oldest first over the tail and the present value, by fused
multiply-add in that order. -/
def convLane (taps xs : List F32) : F32 × List FpR :=
  match taps.zip xs with
  | [] => (0, [])
  | p :: ps => let f := fmul p.1 p.2; let r := chain (fun a q => fma q.1 q.2 a) f.v ps; (r.1, f :: r.2)

/-- The decay `a = exp (Δ × A)` of the recurrence, in (0, 1] where its argument is not positive (R155): the exponential's
error never takes it above 1.0 nor to 0. -/
def decay (delta a : F32) : F32 × List FpR :=
  let x := fmul delta a
  let e := unary 0x18 x.v
  let v := if (val32 x.v).isNan || flt 0 x.v then e.v else if flt one32 e.v then one32 else if flt 0 e.v then e.v else 1
  (v, [x, e])

/-- The recurrence of one channel at one token: new state, output and every result on the way (R155). -/
def recurLane (delta x d : F32) (a b c h : List F32) : List F32 × F32 × List FpR :=
  let dx := fmul delta x
  let cells := (List.range h.length).map (fun k =>
    let e := decay delta (a.getD k 0)
    let u := fmul dx.v (b.getD k 0)
    let r := fma e.1 (h.getD k 0) u.v
    (r.v, e.2 ++ [u, r]))
  let y0 := fmul d x
  let y := chain (fun y k => fma (c.getD k 0) (cells.getD k (0, [])).1 y) y0.v (List.range h.length)
  (cells.map Prod.fst, y.1, dx :: cells.flatMap Prod.snd ++ y0 :: y.2)

/-- A vector operation on operands read as lists of values (Table 7.9). `mult` are the effective multipliers of 0x20,
`xs` its integers; the third operand of 0x28 is its tail, oldest token first. Table 7.9 gives no layout of the operands of the
last four operations, and the model takes these (DESIGN CHOICE, assumption 77): 0x28 the tail token by token; 0x2B Δ then x at
A, B then C at BOP, the state channel by channel; 0x2C the earlier pairs at A and the later ones at BOP, P before H; 0x2D
P_t at A, h_in at BOP, h at COP. -/
def vectorOp (op c : Nat) (a b d : List F32) (k : LayerConst) (mult : List F32) (xs : List Int) : VOut :=
  match op with
  | 0x20 => { dst := (List.range c).map (fun i => fmul (q32 (qInt (xs.getD i 0))).v (mult.getD i 0)) }
  | 0x28 =>
    let w := k.width
    let rows := (List.range c).map (fun i => convLane ((k.taps.drop (w * i)).take w)
      ((List.range w).map (fun j => if j + 1 < w then d.getD (j * c + i) 0 else a.getD i 0)))
    { dst := rows.map (fun r => { v := r.1 }), extra := rows.flatMap Prod.snd }
  | 0x29 => rmsNorm a b k.eps
  | 0x2A => softmax a
  | 0x2B =>
    let n := k.n
    let rows := (List.range c).map (fun i =>
      recurLane (a.getD i 0) (a.getD (c + i) 0) (k.d.getD i 0) ((k.a.drop (n * i)).take n) (b.take n) ((b.drop n).take n)
        ((d.drop (n * i)).take n))
    { dst := rows.map (fun r => { v := r.2.1 }), state := some (rows.flatMap Prod.fst), extra := rows.flatMap (fun r => r.2.2) }
  | 0x2C =>
    { dst := (List.range c).flatMap (fun i =>
        [fmul (b.getD (2 * i) 0) (a.getD (2 * i) 0), fma (b.getD (2 * i) 0) (a.getD (2 * i + 1) 0) (b.getD (2 * i + 1) 0)]) }
  | 0x2D => { dst := (List.range c).map (fun i => fma (a.getD i 0) (b.getD i 0) (d.getD i 0)) }
  | _ => { dst := (List.range c).map (fun i => laneOp op (a.getD i 0) (b.getD i 0) (d.getD i 0)) }

/-! ## Conversions, R115, R117, R128 to R131 -/

/-- One conversion: the output, whether it clipped, and the magnitude that PEAK takes. -/
structure Conv where
  y : Int
  clip : Bool
  peak : Nat
  deriving DecidableEq, Repr

/-- A rounded value with its zero point, clamped (R128, R129). -/
def convert (lo hi z v : Int) : Conv :=
  let y := clampInt lo hi (v + z)
  { y := y, clip := decide (y ≠ v + z), peak := v.natAbs }

/-- Engine requantisation of an accumulator (R128). -/
def engineConv (lo hi z : Int) (m : F32) (a : Int) : Conv :=
  convert lo hi z (rne (qMul (qInt a) (q32of m)))

/-- Core requantisation of a binary32 product (R129, R130). A NaN and an infinity have no rounded value: PEAK takes 0 for the one
and 65,535 for the other (DESIGN CHOICE, assumption 78). -/
def coreConv (lo hi z : Int) (p : F32) : Conv :=
  match val32 p with
  | .nan .. => { y := z, clip := true, peak := 0 }
  | .inf s => { y := if s then lo else hi, clip := true, peak := 65535 }
  | v => convert lo hi z (rna v.q)

/-- A conversion to FP8 (R117): the pattern, with PEAK from the value rounded to an integer as R129 rounds (assumption 78). -/
def fp8Conv (e5 : Bool) (a : F32) : Conv :=
  let r := toFp8 e5 a
  { y := r.1, clip := r.2, peak := match val32 a with | .nan .. => 0 | .inf _ => 65535 | v => (rna v.q).natAbs }

/-- ZOUT as a step's zero point: that of an asymmetric format, 0 for a symmetric one (R115). -/
def outZero (fmt z : Nat) : Int := if fmt = 1 ∨ fmt = 3 then z else 0

/-- The clip records of a requantisation (R131): poisoned values and those of a gap are not counted. -/
def State.countConvs (s : State) (ctx core point : Nat) (l : List Conv) (skip : Bool) : State :=
  if skip then s
  else s.each (List.range l.length) (fun s i =>
    match l[i]? with
    | some c => s.updClip ctx core point i (fun r => r.count (flag c.clip) 1 c.peak)
    | none => s)

/-- Value `i` of a convolution tail in its format: channel `i mod c`, an integer less its point's zero point times the
multiplier out of it (Table 4.1; the spec gives an integer tail no rule: DESIGN CHOICE, assumption 79). -/
def LayerConst.tailValue (k : LayerConst) (z : Int) (c : Nat) (bs : List Byte) (i : Nat) : F32 :=
  let w := ofBytes ((bs.drop (k.tail.tailBytes * i)).take k.tail.tailBytes)
  let int := fun (v : Int) => (fmul (q32 (qInt (v - z))).v (k.tailDeq.getD (i % c) one32)).v
  match k.tail with
  | .e4m3 => (ofV (valE4 w)).v
  | .e5m2 => (ofV (valE5 w)).v
  | .int8 => int (signed 8 w)
  | .int16 => int (signed 16 w)
  | _ => BitVec.ofNat 32 w

/-- A value on its way into a convolution tail of an 8- or 16-bit format: core requantisation at the layer's point, or a
conversion to FP8. -/
def LayerConst.tailConv (k : LayerConst) (z : Int) (i : Nat) (a : F32) : Conv :=
  let p := (fmul a (k.tailMults.getD i one32)).v
  match k.tail with
  | .e4m3 => fp8Conv false a
  | .e5m2 => fp8Conv true a
  | .int8 => coreConv (-128) 127 z p
  | _ => coreConv (-32768) 32767 z p

/-- The tail after a token: its oldest token falls out and the present one stands last; the conversions that this took. -/
def LayerConst.nextTail (k : LayerConst) (z : Int) (c : Nat) (bs : List Byte) (a : List F32) : List Byte × List Conv :=
  let n := k.tail.tailBytes
  if k.width ≤ 1 then ([], [])
  else if k.tail = .binary32 then (bs.drop (4 * c) ++ floatBytes ((List.range c).map (fun i => a.getD i 0)), [])
  else
    let l := (List.range c).map (fun i => k.tailConv z i (a.getD i 0))
    (bs.drop (n * c) ++ l.flatMap (fun x => be n (unsigned (8 * n) x.y)), l)

/-- Layer constants that PARAM names. -/
def State.layerOf (s : State) (t p : Nat) : LayerConst := (s.memberOf t).consts.layers.getD p {}

/-- The zero point of a requantisation point of a thread's member. -/
def State.pointZero (s : State) (t n : Nat) : Int :=
  match (s.memberOf t).points.find? (fun p => p.point == n) with
  | some p => outZero p.fmt p.zout
  | none => 0

/-- VECTOR_OP: the vector unit reads its operands, computes and writes (R152 to R157); `issue.gap` says that the values belong to a
token in a gap (R131). -/
def execVectorOp (issue : VectorIssue) (s : State) : Outc :=
  let thread := issue.thread
  if s.issues thread 2 = false then .next s
  else
    let r := s.recordOf thread
    let op := rf r 247 240
    let c := vCount r
    let dt := rf r 223 222
    let k := s.layerOf thread (rf r 125 110)
    let ctx := (s.thread thread).ctx
    match vLens op c (vSize dt) k.size with
    | none => .next (s.stepDone thread)
    | some (la, lb, lc, ld) =>
      match s.badRef thread [(rRef r 198, la), (rRef r 174, lb), (rRef r 150, lc), (rRef r 126, ld)] with
      | some f => .fault f
      | none =>
        let (ba, p1, s1) := s.fetch thread (rRef r 198) la
        let (bb, p2, s2) := s1.fetch thread (rRef r 174) lb
        let (bc, p3, s3) := s2.fetch thread (rRef r 150) lc
        let rd := fun (bs : List Byte) (n : Nat) => if dt = 1 then bfloats bs (n / 2) else floats bs (n / 4)
        let es := if op = 0x20 then s.readExps thread c 1 else []
        let ms := (List.range (if op = 0x20 then c else 0)).map (fun i => fmul ((floats bb c).getD i 0) (factorF (es.getD i 0)))
        let z := s.pointZero thread k.tailPoint
        let cv := if op = 0x28 then (List.range (c * (k.width - 1))).map (k.tailValue z c bc) else rd bc lc
        let o : VOut := if dt = 1 then
            { dst := (List.range c).map (fun i => bfOp op ((rd ba la).getD i 0) ((rd bb lb).getD i 0) ((rd bc lc).getD i 0)) }
          else vectorOp op c (if dt = 2 then [] else rd ba la) (rd bb lb) cv k (ms.map (·.v)) ((fieldsAt ba 0 1 c).map (signed 8))
        let tail := if op = 0x28 then k.nextTail z c bc (rd ba la) else ([], [])
        let poison := p1 || p2 || p3
        let s4 := s3.writeRef thread (rRef r 126) (if dt = 1 then bfBytes (o.dst.map (·.v)) else floatBytes (o.dst.map (·.v))) poison
        let s5 := match o.state with
          | some l => s4.writeRef thread (rRef r 150) (floatBytes l) poison
          | none => if tail.1.isEmpty then s4 else s4.writeRef thread (rRef r 150) tail.1 poison
        let s6 := (s5.countConvs ctx (thread / 16) k.tailPoint tail.2 (poison || issue.gap)).countFp (thread / 16) (o.dst ++ o.extra ++ ms)
        .next (((s6.markPoison thread poison).markAdapted thread (es.any (· ≠ 0))).stepDone thread)

/-! ## Rotate, R125 to R127 -/

/-- One butterfly stage of span `h` over a block. -/
def butterfly (h : Nat) (x : List F32) : List F32 :=
  (List.range x.length).map (fun i =>
    if i / h % 2 = 0 then (fadd (x.getD i 0) (x.getD (i + h) 0)).v else (fsub (x.getD (i - h) 0) (x.getD i 0)).v)

/-- The stages of spans 1, 2, 4, … -/
def butterflies : Nat → Nat → List F32 → List F32
  | 0, _, x => x
  | k + 1, h, x => butterflies k (2 * h) (butterfly h x)

/-- 1 ÷ √n rounded to binary32, n = 2 ^ k. -/
def invRoot (k : Nat) : F32 :=
  if k % 2 = 0 then (q32 (qShift (qInt 1) (-(k / 2 : Nat)))).v
  else (q32 (qDiv (qInt 1) (qSqrt (2 ^ k) 1))).v

/-- One block of the rotation. -/
def rotateBlock (k : Nat) (sign : List Bool) (x : List F32) : List FpR :=
  let y := (x.zip sign).map (fun p => if p.2 then p.1 ^^^ 0x80000000#32 else p.1)
  (butterflies k 1 y).map (fun v => fmul v (invRoot k))

/-- Sign bits of channels: bit 7 of byte 0 belongs to channel 0 (R126). -/
def signBits (bs : List Byte) (c : Nat) : List Bool := (List.range c).map (fun i => (bs.getD (i / 8) 0).getLsbD (7 - i % 8))

/-- ROTATE: sign diagonal and Hadamard transform, block by block (R125 to R127). -/
def execRotate (thread : Nat) (s : State) : Outc :=
  if s.issues thread 3 = false then .next s
  else
    let r := s.recordOf thread
    let k := rf r 247 244
    let n := 2 ^ k
    let c := rf r 171 156
    match s.badRef thread [(rRef r 220, 4 * c), (rRef r 196, 4 * c), (rRef r 172, c / 8)] with
    | some f => .fault f
    | none =>
      let (bx, p1, s1) := s.fetch thread (rRef r 220) (4 * c)
      let (bs, p2, s2) := s1.fetch thread (rRef r 172) (c / 8)
      let x := floats bx c
      let sg := signBits bs c
      let out := (List.range (c / n)).flatMap (fun b => rotateBlock k ((sg.drop (b * n)).take n) ((x.drop (b * n)).take n))
      .next (((s2.writeRef thread (rRef r 196) (floatBytes (out.map (·.v))) (p1 || p2)).countFp (thread / 16) out).stepDone thread)

/-! ## Requantise, R128 to R137 -/

/-- Outputs as bytes: 8 bits, two to a byte with the even channel high, or 16 bits. -/
def outBytesOf (fmt : Nat) (ys : List Int) : List Byte :=
  match fmt with
  | 0 | 1 => ys.flatMap (fun y => be 1 (unsigned 8 y))
  | 2 | 3 => (List.range ((ys.length + 1) / 2)).map (fun i =>
      BitVec.ofNat 8 (16 * unsigned 4 (ys.getD (2 * i) 0) + unsigned 4 (ys.getD (2 * i + 1) 0)))
  | _ => ys.flatMap (fun y => be 2 (unsigned 16 y))

/-- REQUANT: engine or core requantisation with effective multipliers, and the clip records; `gap` says that the values
belong to a token in a gap. The vector unit's products count their exceptions (R152), and an engine's clock runs (R51). -/
def execRequant (thread : Nat) (gap : Bool) (s : State) : Outc :=
  if s.issues thread 4 = false then .next s
  else
    let r := s.recordOf thread
    let whr := rf r 247 247
    let fmt := rf r 243 241
    let c := rf r 147 132
    let point := rf r 232 221
    let core := thread / 16
    let e := s.physEngine core (rf r 246 244)
    let (lo, hi) := outRange fmt
    let z := outZero fmt (rf r 240 233)
    let fromBank := decide (whr = 0 ∧ rf r 196 196 = 0)
    match s.badRef thread [(rRef r 172, outBytes fmt c), (rRef r 148, 4 * c), (rRef r 197, if fromBank then 0 else 4 * c)] with
    | some f => .fault f
    | none =>
      let (bm, p1, s1) := s.fetch thread (rRef r 148) (4 * c)
      let (bx, p2, s2) := if fromBank then ([], (s1.engine e).accPoison, s1) else s1.fetch thread (rRef r 197) (4 * c)
      let ctx := (s.thread thread).ctx
      let es := (List.range c).map (fun i => s.expOf ctx core point i)
      let ms := (List.range c).map (fun i => fmul ((floats bm c).getD i 0) (factorF (-(es.getD i 0))))
      let ps := if whr = 0 then [] else (List.range c).map (fun i => fmul ((floats bx c).getD i 0) (ms.getD i { v := 0 }).v)
      let out := (List.range c).map (fun i =>
        if whr = 0 then
          engineConv lo hi z (ms.getD i { v := 0 }).v
            (if fromBank then Tab.get 0 (s.engine e).accs i else signed 32 (ofBytes ((bx.drop (4 * i)).take 4)))
        else coreConv lo hi z (ps.getD i { v := 0 }).v)
      let poison := p1 || p2
      let s3 := (s2.writeRef thread (rRef r 172) (outBytesOf fmt (out.map (·.y))) poison).countFp core (if whr = 0 then [] else ms ++ ps)
      let s4 := if whr = 0 then s3.updEngine e (fun x => { x with clockOn := true }) else s3
      .next ((((s4.countConvs ctx core point out (poison || gap)).markPoison thread poison).markAdapted thread
        (es.any (· ≠ 0))).stepDone thread)

end Sys2Proof.Machine
end

