-- ==== Sys2Proof/Machine/SyncSteps.lean ====
section
/-! DEFINITION. Steps of the shuttle port and the sync port, stalls, step completion and wakes (R223, R246 to R260,
R265, R268 to R272, R278, R330, R349). -/

namespace Sys2Proof.Machine

open Sys2Proof

/-- A wait is refused: WSTAT 2, misuse, and the context faults (Table 7.17). -/
def State.refuseWait (s : State) (t : Nat) : State :=
  let c := (s.thread t).ctx
  (((s.stepDone t).updThread t (fun x => { x with wstat := 2 })).misuse none c).faultCtx c 1 0x301 0 []

/-- A wait ends on an orphaned counter: WSTAT 1; a counter wait with ORPHOK goes on, any other faults its context
(R258, R279). -/
def State.orphanedWait (s : State) (t : Nat) : State :=
  let r := s.recordOf t
  let s1 := s.updThread t (fun x => { x with wstat := 1 })
  if rKind r = 7 ∧ rf r 171 171 = 1 then s1.stepDone t
  else (s1.stepDone t).faultCtx (s.thread t).ctx 0 0x300 0 []

/-- A thread waits for a local counter to reach `expect`: the check and the registration are one operation (R258). -/
def State.waitOn (s : State) (t id : Nat) (expect : Int) : State :=
  let c := (s.thread t).ctx
  let s1 := s.updThread t (fun x => { x with waitId := id, expect := expect, wstat := 0 })
  if expect ≤ 0 then s1.stepDone t
  else match s1.physOf c id with
    | none => s1.refuseWait t
    | some p =>
      if (s1.counter p).orphaned then s1.orphanedWait t
      else if expect ≤ ((s1.counter p).value : Int) then s1.stepDone t
      else (s1.updThread t (fun x => { x with state := .sleeping, waits := .counter, done := false })).register c p
        { who := .thread t, expect := expect.toNat }

/-- The tier-6 writes that a context has issued so far, by destination (R330, R331). -/
def State.issuedWrites (s : State) (c : Nat) : List (Nat × Nat) := s.pack.wsent.filter (fun e => decide (e.1 / 64 = c))

/-- Some of these writes are covered by no WRITE_DONE yet (R330). -/
def State.writesOpen (s : State) (l : List (Nat × Nat)) : Bool := l.any (fun e => decide (Tab.get 0 s.pack.wacked e.1 < e.2))

/-- A pack fence that cannot complete, because a tier-6 write of the context failed: the context faults with FENCE_FAIL (R330). -/
def State.fenceFails (s : State) (c : Nat) : State := s.faultCtx c 0 0x340 0 []

/-- A pack fence of a context has completed that covers these writes: only those issued after it are unfenced (R331). -/
def State.clearUnfenced (s : State) (c : Nat) (l : List (Nat × Nat)) : State :=
  { s with pack := { s.pack with unfenced := s.pack.unfenced.filterMap (fun e =>
      if e.1 / 64 = c then
        (let n := Tab.get 0 s.pack.wsent e.1 - Tab.get 0 l e.1
         if n = 0 then none else some (e.1, min e.2 n))
      else some e) } }

/-- A barrier arrive after its fence: the signal to the central counter, then the wait for N × k (R272, R349). -/
def State.arrive (s : State) (t : Nat) : State :=
  let r := s.recordOf t
  let x := s.thread t
  let id := rf r 247 236
  let expect := rf r 235 220 * (rf r 219 212 * x.iter + rf r 211 204)
  if rf r 203 203 = 1 then
    let s1 := (s.clearUnfenced x.ctx x.fence).arriveRecord t r true
    if expect ≤ Tab.get 0 s1.pack.mirrors (4096 * x.ctx + id) then s1.stepDone t
    else
      let s2 := s1.updThread t (fun y => { y with state := .sleeping, waits := .mirror, waitId := id, expect := expect,
                                                  wstat := 0, done := false })
      { s2 with pack := { s2.pack with mirrorWait := s2.pack.mirrorWait ++ [(t, x.ctx, id, expect)] } }
  else (s.arriveRecord t r false).waitOn t id expect

/-- A step whose pack fence has completed goes on: a fence is done, a barrier arrive signals and waits. -/
def State.afterFence (s : State) (t : Nat) : State :=
  let s1 := s.updThread t (fun x => { x with unseen := [] })
  if rKind (s1.recordOf t) = 9 then s1.arrive t else (s1.clearUnfenced (s1.thread t).ctx (s1.thread t).fence).stepDone t

/-- A pack fence begins: it fails where a tier-6 write of its context has failed, waits for the WRITE_DONE of those that its
context has issued, or is complete at once (R330). -/
def State.packFence (s : State) (t : Nat) : State :=
  let c := (s.thread t).ctx
  let l := s.issuedWrites c
  if s.pack.failedWrites.contains c then s.fenceFails c
  else
    let s1 := s.updThread t (fun x => { x with fence := l })
    if s.writesOpen l then s1.updThread t (fun x => { x with state := .running, done := false, waits := .packFence })
    else s1.afterFence t

/-- SHUTTLE_SUBMIT: K descriptors of the ring become eligible, with the bases that the step sets; where they do not fit,
the thread stalls (R223). A submit fences the thread's earlier writes (R268). -/
def State.submit (s : State) (t : Nat) : State :=
  let r := s.recordOf t
  let n := ringNo t r
  match (s.ring n).submit (rf r 241 231) false with
  | none => s.stall t .ring
  | some x =>
    ((s.updRing n (fun _ => { x with sbase := if rf r 230 230 = 1 then rf r 228 189 else x.sbase
                                     dbase := if rf r 229 229 = 1 then rf r 188 149 else x.dbase })).updThread t
      (fun y => { y with unseen := [] })).stepDone t

/-- SHUTTLE_SUBMIT issues. -/
def execShuttleSubmit (thread : Nat) (s : State) : Outc :=
  if s.issues thread 5 then .next (s.submit thread) else .next s

/-- SHUTTLE_SUBMIT_UNSTALL: the ring has room again for the stalled submit, or for one that catch-up skips (R223, R255). -/
def execShuttleSubmitUnstall (thread : Nat) (s : State) : Outc :=
  let x := s.thread thread
  let r := s.recordOf thread
  if x.state ≠ .stalled ∨ x.waits ≠ .ring ∨ ((s.ring (ringNo thread r)).submit (rf r 241 231) false).isNone = true then .next s
  else if x.catchUp = true ∧ rDefer r = true then .next ((s.readyAt thread).refreshCtx x.ctx)
  else .next (s.submit thread)

/-- COUNTER_SIGNAL: the signal leaves the sync port (R257, R329). -/
def execCounterSignal (thread : Nat) (s : State) : Outc :=
  if s.issues thread 6 then .next ((s.signalRecord thread (s.recordOf thread)).stepDone thread) else .next s

/-- COUNTER_WAIT: the expected value is OFFSET + STRIDE × ITER in 64-bit signed arithmetic (R258, R259). -/
def execCounterWait (thread : Nat) (s : State) : Outc :=
  if s.issues thread 7 then
    let r := s.recordOf thread
    let e := signed 64 (unsigned 64 (signed 48 (rf r 235 188) + (rf r 187 172 * (s.thread thread).iter : Nat)))
    .next (s.waitOn thread (rf r 247 236) e)
  else .next s

/-- FENCE: earlier writes of the thread become visible; with scope pack the step also waits for every WRITE_DONE of its
context (R268, R270, R330). -/
def execFence (thread : Nat) (s : State) : Outc :=
  if s.issues thread 8 then
    let s1 := s.updThread thread (fun x => { x with unseen := [] })
    .next (if rf (s.recordOf thread) 247 246 = 0 then s1.stepDone thread else s1.packFence thread)
  else .next s

/-- BARRIER_ARRIVE: a fence of scope module, or pack with PACK set, then the signal and the wait (R272, R349). -/
def execBarrierArrive (thread : Nat) (s : State) : Outc :=
  if s.issues thread 9 then
    let s1 := s.updThread thread (fun x => { x with unseen := [] })
    .next (if rf (s.recordOf thread) 203 203 = 1 then s1.packFence thread else s1.arrive thread)
  else .next s

/-- UNIT_BUSY_STALL_END: a stalled step's resource is there: the plane file stands in a bank or the engine can load it,
the codebook slot is loaded, the home of an away plane's block is fetched. The thread is Ready again (R84, R121, R220). -/
def execUnitBusyStallEnd (thread : Nat) (s : State) : Outc :=
  let x := s.thread thread
  let r := s.recordOf thread
  if x.state ≠ .stalled then .next s
  else match x.waits with
    | .planeFile =>
      let (e, lp) := s.panelAt thread r
      if (s.engine e).load.isSome ∧ (s.engine e).active ≠ some lp ∧ (s.engine e).shadow ≠ some lp then .next s
      else .next (s.updThread thread (fun x => { x with state := .ready, waits := .none }))
    | .codebook =>
      if (s.engine (s.physEngine (thread / 16) (mmRec r).engine)).cbLoading.contains (mmRec r).slot then .next s
      else .next (s.updThread thread (fun x => { x with state := .ready, waits := .none }))
    | .fetch =>
      if (s.fetchedFor thread).isNone then .next s
      else .next (s.updThread thread (fun x => { x with state := .ready, waits := .none }))
    | _ => .next s

/-! ## Completion, R251, R254 -/

/-- After a thread has moved on: its context is Running or Waiting, an iteration of an inspect context may have ended, a
handover may complete. -/
def State.settle (s : State) (c : Nat) : State :=
  let s1 := s.refreshCtx c
  if s1.idle c = false then s1 else if c = 0 then s1.tryHandover else if (s1.ctx c).inIter then s1.iterEnd c else s1

/-- The heads that the step completes give their outputs for one token (R30). -/
def State.headOutputs (s : State) (c : Nat) (tok : Option TokenOut) : State :=
  match tok with
  | none => s
  | some o => if c = 0 then s.watchToken o else s.inspectToken c o

/-- The context's state is poisoned where the step wrote poison into it (R442, R443). -/
def State.poisonState (s : State) (c : Nat) : State :=
  if (s.ctx c).live = true ∧ (s.ctx c).poisoned = false ∧ s.statePoisoned c = true then s.updCtx c (fun x => { x with poisoned := true })
  else s

/-- STEP_COMPLETE: a step in progress that has done its work reaches its completion point; the thread goes on to its next
record or to Boundary. A thread of a context that has faulted meanwhile becomes Faulted (R278), one of a context that has
ended is freed (R245). -/
def execStepComplete (thread : Nat) (tok : Option TokenOut) (s : State) : Outc :=
  let x := s.thread thread
  if x.state ≠ .running ∨ x.done = false then .next s
  else if (s.ctx x.ctx).started = false then
    .next (s.updThread thread (fun y => if (s.ctx x.ctx).state = .faulted then { y with state := .faulted, done := false, waits := .none } else y.freed))
  else
    let s1 := (s.poisonState x.ctx).headOutputs x.ctx tok
    .next ((s1.proceed thread).settle x.ctx)

/-- WAITER_WAKE: a fired wake line wakes its thread: the wait is over and the thread goes on; one that ended on an orphaned
counter goes on with ORPHOK and otherwise faults its context (R258, R265, R278). -/
def execWaiterWake (thread : Nat) (s : State) : Outc :=
  if s.sync.woken.contains thread = false ∨ s.coreUp thread = false then .next s
  else
    let x := s.thread thread
    let s1 := { s with sync := { s.sync with woken := s.sync.woken.filter (· ≠ thread) } }
    if x.state ≠ .sleeping then .next s1
    else if x.wstat = 0 then .next ((s1.proceed thread).settle x.ctx)
    else if rKind (s1.recordOf thread) = 7 ∧ rf (s1.recordOf thread) 171 171 = 1 then .next ((s1.proceed thread).settle x.ctx)
    else .next (s1.faultCtx x.ctx 0 0x300 0 [])

end Sys2Proof.Machine
end

