-- ==== Sys2Proof/Machine/Ecc.lean ====
section
/-! DEFINITION. What decoding finds in board memory and SRAM: counts, erased devices, poison, page retirement, the poison
list, bad weight data (R429 to R449). -/

namespace Sys2Proof.Machine

open Sys2Proof

/-- A board address of the away region (Table 6.2). -/
def inAway (a : Nat) : Bool := decide (regionOf a = .away)

/-- A board address of the image area. -/
def State.inImage (s : State) (a : Nat) : Bool := decide (imageBase ≤ a ∧ a < s.imageEnd)

/-- Bytes of a digital weight block (R118, R120). -/
def DigBlock.bytes (b : DigBlock) : Nat :=
  let h := b.header.toNat
  let w := bits h 31 30
  let t := bits h 29 27
  4 + (if w = 0 then 16 else 256) * (if t = 3 then 2 else 1) + (if w = 0 then 128 else 256) * bits h 26 16 * bits h 15 5

/-- The board address holds immutable weight data: the away region, or a digital weight block of the image area. -/
def State.isWeight (s : State) (a : Nat) : Bool :=
  inAway a ||
  (match s.image with
   | none => false
   | some i => ([i.watch, i.inspect].filterMap id).any (fun m =>
       m.digital.any (fun b => decide (imageBase + b.off ≤ a ∧ a < imageBase + b.off + b.bytes))))

/-- The remap entries in use (R449). -/
def State.remapUsed (s : State) : Nat := s.mem.spares

/-- REMAP_LOW and REMAP_FULL as their conditions come to hold (R449). -/
def State.remapBits (s : State) : State :=
  let s1 := if 3072 ≤ s.remapUsed then s.raise 1 11 1 else s
  if 4096 ≤ s1.remapUsed then s1.raise 1 12 1 else s1

/-- A page of board memory is served from a spare page from now on; its contents, with their poison, move there
(R446, R449). -/
def State.retirePage (s : State) (a : Nat) : State :=
  if 4096 ≤ s.mem.spares then s
  else
    let s1 := { s with
      mem := { s.mem with remap := Tab.set 0 s.mem.remap (a / 4096) (s.mem.spares + 1), spares := s.mem.spares + 1 }
      upk := { s.upk with dirty := true } }
    (s1.log { code := 0x0002, bunit := Space.board.bunit a, detail := memDetail (a / 4096 * 4096) 0 0 }).remapBits

/-- A block enters the poison list; where the list is full, a record is written and the module restarts cold (R435). -/
def State.listPoison (s : State) (block : Nat) : State :=
  if s.mem.poisonList.contains block then s
  else if 64 ≤ s.mem.poisonList.length then
    let s1 := s.log { code := 0x0203, bunit := Space.board.bunit (4096 * block), detail := memDetail (4096 * block) 0 5 }
    { s1 with life := { s1.life with phase := .halted, due := some .cold } }
  else { s with mem := { s.mem with poisonList := s.mem.poisonList ++ [block], invalid := Tab.set false s.mem.invalid block false } }

/-- A device is marked erased: at most one per group (R431). -/
def State.markErased (s : State) (a dev : Nat) : State :=
  let g := a / 256 % 4
  if Tab.get 0 s.mem.erased g ≠ 0 then s
  else ({ s with mem := { s.mem with erased := Tab.set 0 s.mem.erased g (dev + 1) }
                 upk := { s.upk with dirty := true } }).trouble 1 1 0 (Space.board.bunit a) 0xFF (memDetail a dev 0)

/-- A corrected symbol of a device is counted; 1,024 within the second mark the device erased, as do corrections in more
than 16 blocks of one scrub pass (R431). -/
def State.countSymbol (s : State) (a dev : Nat) (scrub : Bool) : State :=
  let k := 10 * (a / 256 % 4) + dev
  let s1 := { s with mem := { s.mem with corrected := Tab.upd 0 s.mem.corrected k (· + 1) } }
  let s2 : State := if scrub = false then s1
    else
      let add := fun (l : List Nat) => if l.contains (a / 4096) then l else l ++ [a / 4096]
      { s1 with mem := { s1.mem with scrubBlocks := Tab.upd [] s1.mem.scrubBlocks k add } }
  if 1024 ≤ Tab.get 0 s2.mem.corrected k ∨ 16 < (Tab.get [] s2.mem.scrubBlocks k).length then s2.markErased a dev else s2

/-- What one decoded beat or word gives (R430, R432, R436, R438, R441, R445); `ctx` reads it, or the scrubber does. -/
def State.eccFinding (s : State) (f : EccFinding) (ctx : Option Nat) : State :=
  let scrub := ctx.isNone
  let c := ctx.getD 0xFF
  let s0 := if scrub then { s with mem := { s.mem with findings := s.mem.findings.set f.cls (s.mem.findings.getD f.cls 0 + 1) } } else s
  let bu := f.space.bunit f.addr
  let loc := f.space.loc f.addr
  if f.space = .board then
    match f.cls with
    | 0 => s0
    | 1 | 2 => (s0.trouble 1 0 loc bu c (memDetail f.addr f.device f.cls)).countSymbol f.addr f.device scrub
    | 3 =>
      let s1 := (s0.updMem (fun m => m.setPoison .board f.addr true)).trouble 1 2 loc bu c (memDetail f.addr f.device 3)
      if (if scrub then s.inImage f.addr || inAway f.addr else s.isWeight f.addr) then
        s1.weightUe .board f.addr ctx
      else s1
    | 5 => (s0.trouble 1 3 loc bu c (memDetail f.addr f.device 5)).trouble 1 2 loc bu c (memDetail f.addr f.device 5)
    | _ => s0
  else
    match f.cls with
    | 1 => s0.trouble 1 4 loc bu c (memDetail f.addr f.device 1)
    | 3 =>
      (s0.updMem (fun m => m.setPoison f.space f.addr true)).trouble 1 5 loc bu c (memDetail f.addr f.device 3)
    | _ => s0

/-- A write to board memory whose parity still fails after its retries: a spare page takes it; without one the page enters
the poison list (R432). -/
def State.writeParity (s : State) (a : Nat) : State :=
  let s1 := s.trouble 1 3 0 (Space.board.bunit a) 0xFF (memDetail a 0 5)
  if s1.mem.spares < 4096 then s1.retirePage a else s1.listPoison (a / 4096)

end Sys2Proof.Machine
end

