-- ==== Sys2Proof/Machine/Shuttle.lean ====
section
/-! DEFINITION. Shuttle descriptors: start, chunks, completion, errors (R216 to R236, R328, R330, R442). -/

namespace Sys2Proof.Machine

open Sys2Proof

/-- The descriptor that a ring starts next. -/
def Ring.headDesc (x : Ring) : BitVec 512 := x.descs.getD x.head 0

/-- The context that a descriptor serves: that of its ring, and for a firmware ring's fetch that whose step needs it
(R225). -/
def State.descCtx (s : State) (r : Nat) (d : BitVec 512) : Nat :=
  if 56 ≤ r % 64 then (s.thread (dTag d / 32)).ctx else (s.ring r).ctx

/-- The ring can start a descriptor: eligible ones, fewer than four in flight, its fence met, its context running
(R224, R226, R305, R307). -/
def State.ringReady (s : State) (r : Nat) : Bool :=
  let x := s.ring r
  let c := s.descCtx r x.headDesc
  decide (x.state = 1 ∧ 0 < x.elig ∧ x.inflight < 4) && (s.ctx c).live && !s.supply.stopped.contains c
    && (!dFence x.headDesc || x.inflight == 0)

/-- Rank of work on a channel: the context's priority, then PRIO (R224). -/
def State.descRank (s : State) (ctx : Nat) (d : BitVec 512) : Nat := 4 * s.prioOf ctx + df d 507 506

/-- Power domains that an SRAM endpoint needs (R228). -/
def endDomain (tier unit : Nat) : Option Dom :=
  match tier with
  | 0 | 1 => some (.coreGroup (locToCore unit / 4))
  | 2 => some (.clusterCommon (locToCluster unit))
  | 3 => some .baseSram
  | _ => none

/-- Domains that a descriptor waits for. -/
def State.descDomains (s : State) (d : BitVec 512) : List Dom :=
  (((if dMode d = 2 then [] else [endDomain (dStier d) (dSunit d)]) ++ [endDomain (dDtier d) (dDunit d)]).filterMap id).filter
    (fun x => !s.domOn x)

/-- No other ring of the cluster that could start ranks higher: image rings, and firmware rings by the context that their
fetch serves (R224, R225). One that waits for power holds nothing back (R228). -/
def State.ringFirst (s : State) (r : Nat) : Bool :=
  let rank := fun q => s.descRank (s.descCtx q (s.ring q).headDesc) (s.ring q).headDesc
  (List.range 64).all (fun i =>
    let q := 64 * (r / 64) + i
    decide (q = r) || !s.ringReady q || s.descDomains (s.ring q).headDesc != [] || decide (rank q ≤ rank r))

/-- An endpoint lies within its unit or its permitted region (R232, Table 6.6). -/
def State.endOk (s : State) (tier unit a size count stride : Nat) : Bool :=
  if tier = 4 ∨ tier = 6 then
    within a size count stride imageBase s.imageEnd || (tier == 4 && within a size count stride s.hist.base s.histEnd)
  else within a size count stride 0 (s.tierUnit tier unit).2.2

/-- A source that overlaps its destination. -/
def State.descOverlap (s : State) (f : Flight) : Bool :=
  let d := f.desc
  decide (dDtier d ≠ 6) && decide ((s.srcAt f 0).1 = (s.dstAt f 0).1)
    && (List.range (dCount d)).any (fun i => (List.range (dCount d)).any (fun j =>
      let a := (s.srcAt f (i * dSize d)).2
      let b := (s.dstAt f (j * dSize d)).2
      decide (a < b + dSize d ∧ b < a + dSize d)))

/-- ERR of a descriptor about to start: 1 out of range, 2 misaligned or overlapping, 4 no live destination, 0 none
(Table 6.7). -/
def State.descErr (s : State) (f : Flight) : Nat :=
  let d := f.desc
  let sa := dSaddr d f.sbase
  let srcOk := dMode d == 2 || (if dHist d then decide (s.hist.base ≤ sa ∧ sa < s.histEnd) && decide (dSize d * dCount d ≤ s.hist.cap * s.hist.width)
    else s.endOk (dStier d) (dSunit d) sa (dSize d) (dCount d) (df d 303 272))
  let k := if dStier d ≤ 3 then 64 else 256
  if srcOk = false ∨ s.endOk (dDtier d) (dDunit d) (dDaddr d f.dbase) (dSize d) (dCount d) (df d 271 240) = false then 1
  else if dMode d = 0 ∧ (sa % k ≠ 0 ∨ dSize d % k ≠ 0 ∨ df d 303 272 % k ≠ 0 ∨ s.descOverlap f = true) then 2
  else if dDtier d = 6 ∧ (s.standalone ∨ s.pack.live.testBit (dDunit d / 2 ^ 26) = false) then 4
  else 0

/-- ERR 1, 2 and 5 halt the ring and fault the context; ERR 4 halts the ring alone (R233, Table 6.7). -/
def State.descFails (s : State) (r ctx tag err : Nat) : State :=
  let s1 := s.updRing r (fun x => { x with state := 2, err := err })
  if err = 4 then
    let s2 := { s1 with pack := { s1.pack with failedWrites := if s1.pack.failedWrites.contains ctx then s1.pack.failedWrites else s1.pack.failedWrites ++ [ctx] } }
    s2.troubleAs 2 0 { code := 0x342, ctx := ctx, detail := descDetail r tag 4 }
  else s1.faultCtx ctx 0 0x342 0 (descDetail r tag err)

/-- The head descriptor has left the eligible ones for a channel. -/
def Ring.started (x : Ring) : Ring :=
  { x with head := (x.head + 1) % x.len, elig := x.elig - 1, skipped := x.skipped.tail, inflight := x.inflight + 1 }

/-- One piece of a chunk: source and destination bytes within one element and one word or beat of the destination. -/
structure Piece where
  src : Nat
  dst : Nat
  n : Nat
  deriving DecidableEq, Repr

/-- The pieces of `len` bytes from byte `p` of a flight. -/
def State.pieces (s : State) (f : Flight) : Nat → Nat → Nat → List Piece
  | 0, _, _ => []
  | fuel + 1, p, len =>
    if len = 0 then []
    else
      let d := s.dstAt f p
      let n := min len (min (dSize f.desc - p % dSize f.desc) (d.1.grain - d.2 % d.1.grain))
      { src := (s.srcAt f p).2, dst := d.2, n := n } :: s.pieces f fuel (p + n) (len - n)

/-- The destination of a flight takes in one of `n` bytes from `a`. -/
def State.lands (s : State) (f : Flight) (sp : Space) (a n : Nat) : Bool :=
  decide ((s.dstAt f 0).1 = sp) && (List.range (dCount f.desc)).any (fun i =>
    let x := (s.dstAt f (i * dSize f.desc)).2
    decide (x < a + n ∧ a < x + dSize f.desc))

/-- The flight writes memory of this module: it is no skipped one, no firmware fetch, and goes to no other member. -/
def Flight.writes (f : Flight) : Bool := !f.skip && !f.isFetch && dDtier f.desc != 6

/-- Bytes of a new flight's destination that flights under way have written already (R229). -/
def State.writtenBefore (s : State) (f : Flight) : List (Space × Nat × Nat) :=
  if f.writes then
    (s.flights.filter (fun g => g.2.writes)).flatMap (fun g =>
      let sp := (s.dstAt g.2 0).1
      ((s.pieces g.2 g.2.moved 0 g.2.moved).filter (fun x => s.lands f sp x.dst x.n)).map (fun x => (sp, x.dst, x.n)))
  else []

/-- DESCRIPTOR_START: the ring's head descriptor starts on a channel of its cluster after its fence and its power wait, or
fails (R224, R226, R228, R233); `pick.bad` says that its word in the descriptor RAM decoded as uncorrectable. One marked skipped
moves nothing (R255). A firmware ring starts the fetch of an away plane's block (R220, R225). The shuttle engine runs with its
cluster's common domain (R54). -/
def execDescriptorStart (ring : Nat) (pick : ChannelPick) (s : State) : Outc :=
  let channel := pick.channel
  let x := s.ring ring
  let d := x.headDesc
  if channel / 4 ≠ ring / 64 ∨ s.ringReady ring = false ∨ s.ringFirst ring = false then .next s
  else
    let c := s.descCtx ring d
    let skip := x.skipped.headD false
    let f : Flight := { ring := ring, desc := d, sbase := x.sbase, dbase := x.dbase, ctx := c, skip := skip,
                        moved := if skip then dTotal d else 0 }
    let f' := { f with rivals := s.writtenBefore f }
    let go := (s.updRing ring Ring.started).setChannel channel (s.channel channel ++ [f'])
    match (if s.domOn (.clusterCommon (ring / 64)) then [] else [Dom.clusterCommon (ring / 64)]) ++ (if skip then [] else s.descDomains d) with
    | m :: ms => .next (s.each (m :: ms) (fun s y => s.askPower y c))
    | [] =>
      let e := if pick.bad then 5 else if skip ∨ f.isFetch = true then 0 else s.descErr f
      if e = 0 then .next go else .next (s.descFails ring c (dTag d) e)

/-! ## Chunks -/

/-- Bytes that go to a piece's destination: a byte that another flight wrote meanwhile ends with the value of one of the two,
which one is open (R229). -/
def State.settled (s : State) (f : Flight) (sp : Space) (x : Piece) (bs : List Byte) : List Byte :=
  let old := s.mem.bytes sp x.dst x.n
  (List.range bs.length).map (fun i =>
    let shared := f.rivals.any (fun r => decide (r.1 = sp ∧ r.2.1 ≤ x.dst + i ∧ x.dst + i < r.2.1 + r.2.2))
    if shared = true ∧ Config.laterWins (s.draws + i) = false then old.getD i 0 else bs.getD i 0)

/-- The other flights note the pieces that land in their destinations. -/
def State.noteRivals (s : State) (sp : Space) (ps : List Piece) : State :=
  { s with channels := List.map (fun (c : Nat × List Flight) => (c.1, c.2.map (fun g =>
      { g with rivals := g.rivals ++ (ps.filter (fun x => s.lands g sp x.dst x.n)).map (fun x => (sp, x.dst, x.n)) }))) s.channels }

/-- Move or fill one piece: the bytes with their poison; a vacant source line is an event (R218, R235, R442). -/
def State.movePiece (s : State) (f : Flight) (bad : Bool) (x : Piece) : State :=
  let ssp := (s.srcAt f 0).1
  let dsp := (s.dstAt f 0).1
  let zero := decide (dMode f.desc = 2)
  let (bs, p, s0) := if zero then (List.replicate x.n 0, false, s) else s.view none ssp x.src x.n
  let poison := !zero && (bad || p)
  let s1 := if !zero && s.mem.anyVacant ssp x.src x.n then s0.homeEvent ssp x.src f.ctx else s0
  let s2 := s1.homeWrite dsp x.dst x.n f.ctx
  if f.rivals = [] then s2.updMem (fun m => m.store dsp x.dst bs poison)
  else ({ s2 with draws := s2.draws + x.n }).updMem (fun m =>
    m.store dsp x.dst (s2.settled f dsp x bs) (poison || m.anyPoison dsp x.dst x.n))

/-- A 4 KiB block of board memory is covered in full by the first `p` bytes of a move's source (R217). -/
def State.blockCovered (s : State) (f : Flight) (blk p : Nat) : Bool :=
  (List.range 16).all (fun u => (List.range (dCount f.desc)).any (fun i =>
    let a := (s.srcAt f (i * dSize f.desc)).2
    let b := 4096 * blk + 256 * u
    decide (a ≤ b ∧ b + 256 ≤ a + dSize f.desc ∧ i * dSize f.desc + (b - a) + 256 ≤ p)))

/-- What a move has covered becomes vacant: SRAM lines, and board blocks covered in full (R216, R217). -/
def State.vacate (s : State) (f : Flight) (p len : Nat) : State :=
  if dMode f.desc ≠ 0 then s
  else if (s.srcAt f 0).1 = .board then
    let blks := ((List.range (len / 256)).map (fun i => (s.srcAt f (p + 256 * i)).2 / 4096)).dedup
    blks.foldl (fun s b => if s.blockCovered f b (p + len) then
      s.updMem (fun m => { m with invalid := Tab.set false m.invalid b true }) else s) s
  else
    (List.range (len / 64)).foldl (fun s i =>
      let (sp, a) := s.srcAt f (p + 64 * i)
      s.updMem (fun m => { m with vacant := Tab.set false m.vacant (lineKey sp a) true })) s

/-- Slots of the history that bytes `p` to `p + len - 1` of a flight read: the tokens they hold (R234). -/
def State.histTokens (s : State) (f : Flight) (p len : Nat) : List (Nat × Nat) :=
  if dHist f.desc = false ∨ s.hist.width = 0 then []
  else (((List.range len).map (fun i => ((s.srcAt f (p + i)).2 - s.hist.base) / s.hist.width)).dedup).filterMap (fun k =>
    let h := s.hslot k
    if h.holds then some (k, h.no) else none)

/-- WRITE frames of a chunk whose destination is another member's memory; each run of bytes within one element goes in a
frame of its own (R320, R328, R331). -/
def State.sendWrites (s : State) (f : Flight) : List Piece → State
  | [] => s
  | x :: xs =>
    let dst := dDunit f.desc / 2 ^ 26
    let ssp := (s.srcAt f 0).1
    let (bs, poison, s0) := if dMode f.desc = 2 then (List.replicate x.n 0, false, s) else s.view none ssp x.src x.n
    let k := 64 * f.ctx + dst
    let s1 := { s0 with pack := { s0.pack with
      wsent := Tab.upd 0 s0.pack.wsent k (· + 1), unfenced := Tab.upd 0 s0.pack.unfenced k (· + 1) } }
    let s2 := match s1.route dst with
      | some port => s1.sendOn port { s1.hdr dst f.ctx with poison := poison, addr := x.dst } (.write bs)
      | none => s1
    s2.sendWrites f xs

/-- Runs of a tier-6 chunk: bytes within one element. -/
def State.writeRuns (s : State) (f : Flight) : Nat → Nat → Nat → List Piece
  | 0, _, _ => []
  | fuel + 1, p, len =>
    if len = 0 then []
    else
      let n := min len (dSize f.desc - p % dSize f.desc)
      { src := (s.srcAt f p).2, dst := (s.dstAt f p).2, n := n } :: s.writeRuns f fuel (p + n) (len - n)

/-- The flight of a channel that its next chunk serves: of the oldest unfinished descriptor of every ring that with the highest
rank, of equals that of the ring served longest ago (R224). The channel lists its flights ring by ring in that order. -/
def State.chunkFlight (s : State) (ch : Nat) : Option Nat :=
  let l := s.channel ch
  let todo := (List.range l.length).filter (fun i => match l[i]? with | some f => decide (f.moved < dTotal f.desc) | none => false)
  let heads := todo.filter (fun i => todo.all (fun j =>
    decide (i ≤ j) || (match l[i]?, l[j]? with | some a, some b => decide (a.ring ≠ b.ring) | _, _ => true)))
  firstBy (fun i j =>
      match l[i]?, l[j]? with
      | some a, some b => decide (s.descRank b.ctx b.desc < s.descRank a.ctx a.desc)
          || (decide (s.descRank b.ctx b.desc = s.descRank a.ctx a.desc) && decide (i < j))
      | _, _ => false) heads

/-- A channel's flights after a chunk: those of the ring that was served go behind the others. -/
def rotate (l : List Flight) (i : Nat) (f : Flight) : List Flight :=
  let l' := l.set i f
  l'.filter (fun g => decide (g.ring ≠ f.ring)) ++ l'.filter (fun g => decide (g.ring = f.ring))

/-- What decoding found among the bytes that a chunk reads, and a write that failed its parity. -/
def State.chunkFindings (s : State) (f : Flight) (found : List EccFinding) : State :=
  found.foldl (fun s x => if x.cls = 5 ∧ dDtier f.desc = 4 ∧ x.space = .board ∧ (s.srcAt f 0).1 ≠ .board then s.writeParity x.addr
    else s.eccFinding x (some f.ctx)) s

/-- CHUNK_DONE: a channel moves one chunk of up to 4 KiB of the descriptor it has chosen. A fetch's bytes are taken as they
stand when it completes (assumption 81). -/
def execChunkDone (channel : Nat) (found : List EccFinding) (s : State) : Outc :=
  match s.chunkFlight channel with
  | none => .next s
  | some i =>
    match (s.channel channel)[i]? with
    | none => .next s
    | some f =>
      let len := min 4096 (dTotal f.desc - f.moved)
      let s1 := s.chunkFindings f found
      if s.domOn (.clusterCommon (channel / 4)) = false then .next s
      else if f.isFetch then .next (s1.setChannel channel (rotate (s1.channel channel) i { f with moved := f.moved + len }))
      else
        let bad := found.any (fun x => decide (x.cls = 5 ∧ x.space = (s.srcAt f 0).1))
        let hist := s1.histTokens f f.moved len
        let runs := if dDtier f.desc = 6 then s1.writeRuns f len f.moved len else []
        let s2 := if dDtier f.desc = 6 then s1.sendWrites f runs
          else (s1.pieces f len f.moved len).foldl (fun s x => s.movePiece f bad x) s1
        let s3 := if dDtier f.desc = 6 then s2 else s2.vacate f f.moved len
        let f' := { f with moved := f.moved + len, outstanding := f.outstanding + runs.length
                           wfrom := if f.moved = 0 then Tab.get 0 s1.pack.wsent (64 * f.ctx + dDunit f.desc / 2 ^ 26) else f.wfrom
                           histRead := f.histRead ++ hist.filter (fun h => !f.histRead.contains h) }
        let l := s3.channel channel
        let others := s3.setChannel channel (l.eraseIdx i)
        let noted := if dDtier f.desc = 6 then others else others.noteRivals (s.dstAt f 0).1 (s1.pieces f len f.moved len)
        .next (noted.setChannel channel (rotate ((noted.channel channel).insertIdx i f') i f'))

/-! ## Completion -/

/-- The ring has one descriptor fewer in flight; it is idle when nothing is left. -/
def Ring.finished (x : Ring) : Ring :=
  { x with inflight := x.inflight - 1, state := if x.state = 1 ∧ x.elig = 0 ∧ x.inflight ≤ 1 then 0 else x.state }

/-- Tokens that a descriptor read and that were overwritten before it completed are a gap of the consuming inspect pass: they
leave its coverage, and its rules begin to count anew (R37, R44, R234). -/
def State.histLost (s : State) (f : Flight) : State :=
  let oldest := s.oldestNo.getD 0
  let lost := f.histRead.filter (fun h => decide (h.2 < oldest))
  if lost.isEmpty then s
  else ((s.gapRules 1).updCtx f.ctx (fun c => { c with pass := c.pass.map (fun p =>
    { p with flags := p.flags ||| qGap
             cover := p.cover - (lost.filter (fun h => decide (p.first ≤ h.2 ∧ h.2 < p.next))).length }) }))

/-- The bytes of a fetched home stand ready for the step that waits for them (R220). -/
def State.fetchEnds (s : State) (f : Flight) : State :=
  let e := locToEngine (dDunit f.desc)
  let t := dTag f.desc / 32
  let lp := dTag f.desc % 32
  let b := s.homeBytes e lp
  s.updEngine e (fun x => { x with fetched := x.fetched.filter (fun y => decide (y.1 ≠ t)) ++ [(t, lp, b.1, b.2)] })

/-- DESCRIPTOR_COMPLETE: the first descriptor of a channel whose writes are all complete; it signals SIG0, then SIG1
(R227, R255). Those of a context that has ended or faulted meanwhile complete as ordinary ones (R278). -/
def execDescriptorComplete (channel : Nat) (s : State) : Outc :=
  match (s.channel channel).findIdx? (fun f => decide (dTotal f.desc ≤ f.moved) && f.outstanding == 0) with
  | none => .next s
  | some i =>
    match (s.channel channel)[i]? with
    | none => .next s
    | some f =>
      let s0 := if dDtier f.desc = 6 ∧ f.skip = false then s.vacate f 0 (dTotal f.desc) else s
      let s1 := (s0.setChannel channel ((s.channel channel).eraseIdx i)).updRing f.ring Ring.finished
      if f.isFetch then .next (s1.fetchEnds f) else
      let who := word [(1, 13), (channel, 0)]
      let s2 := (dSigs f.desc).foldl (fun s p => s.sendSignal
        { who := who, ctx := f.ctx, id := p.1, delta := p.2, from_ := some (f.ring, dTag f.desc) }) s1
      .next (s2.histLost f)

end Sys2Proof.Machine
end

