-- ==== Sys2Proof/Machine/History.lean ====
section
/-! DEFINITION. Appending token records to the history and what follows an append (R211 to R214, R384). -/

namespace Sys2Proof.Machine

open Sys2Proof

/-- The slot that the next append writes: the next one, or the first of the next index group after a new s0 (R213). -/
def History.nextSlot (h : History) : Nat :=
  if h.newGroup = true ∧ h.write % 16 ≠ 0 then
    (let w := (h.write / 16 + 1) * 16
     if h.cap ≤ w then 0 else w)
  else h.write

/-- Slots left over in the old group, marked EMPTY at the first append under a new s0 (R213). -/
def History.leftover (h : History) : List Nat :=
  if h.newGroup = true ∧ h.write % 16 ≠ 0 then
    ((List.range 16).map (fun i => h.write / 16 * 16 + i)).filter (fun k => decide (h.write ≤ k ∧ k < h.cap))
  else []

/-- Index group entry `j` as its 16 bytes: SIDX, then four bits for each of the group's slots, the first highest (Table 6.3). -/
def History.entry (h : History) (j : Nat) : List Byte :=
  be 8 (Tab.get 0 h.groups j) ++ be 8 ((List.range 16).foldl (fun a i => 16 * a + (Tab.get {} h.slots (16 * j + i)).flags % 16) 0)

/-- The history with a token in its next slot: the slot's flags, its group's SIDX, the boundary. -/
def History.append (h : History) (sidx flags run token : Nat) : History :=
  let k := h.nextSlot
  let slots := h.leftover.foldl (fun t j => Tab.set {} t j { flags := 8 }) h.slots
  { h with
    slots := Tab.set {} slots k { sidx := sidx, flags := flags % 8, written := true, run := run, no := h.appended, token := token }
    groups := if k % 16 = 0 then Tab.set 0 h.groups (k / 16) sidx else h.groups
    write := if h.cap ≤ k + 1 then 0 else k + 1
    appended := h.appended + 1
    newGroup := false }

/-- Append a sealed record: its bytes, poisoned where it carries POISON (Table 12.2); then the index entries that change, its
group's at 16 times the group's number and that of the group left over (R212 to R214). -/
def State.appendToken (s : State) (sidx flags run token : Nat) (bytes : List Byte) : State :=
  let h := s.hist
  let k := h.nextSlot
  let g := h.append sidx flags run token
  let old := h.write / 16
  { s.updMem (fun m =>
      let m1 := m.store .board (h.base + k * h.width) bytes (decide (flags / 2 % 2 = 1))
      let m2 := if h.leftover = [] then m1 else m1.store .board (16 * old) (g.entry old) false
      m2.store .board (16 * (k / 16)) (g.entry (k / 16)) false) with hist := g }

/-- The token counter of a consuming context that is started and not Faulted rises by 1; front-end ids of Table 7.19. -/
def State.signalTokens (s : State) : State :=
  match s.image with
  | none => s
  | some i => s.each ((s.ctxs.filter (fun e => e.2.started)).map Prod.fst) (fun s c =>
      (i.counters.filter (fun d => d.token && decide (d.member = if c = 0 then 0 else 1))).foldl
        (fun s d => s.sendSignal { who := 5 * 2 ^ 13 + 32, ctx := c, id := d.id, delta := 1 }) s)

/-- Append a token on the filling member and do what follows an append: token counters, schedule counts (R384, R573). -/
def State.takeToken (s : State) (sidx flags run token : Nat) (bytes : List Byte) : State :=
  if s.hist.cap = 0 then s
  else ((s.appendToken sidx flags run token bytes).signalTokens).countSchedules s.hist.appended sidx

end Sys2Proof.Machine
end

