-- ==== Sys2Proof/Machine/Stream.lean ====
section
/-! DEFINITION. Stream ingress: ports, stream frames and sampled values, ingress rings, discontinuities, and the faults of a
slot (R356 to R375, R381, R387 to R389). -/

namespace Sys2Proof.Machine

open Sys2Proof

/-! ## Slots and inputs -/

/-- The slot that feeds an input (R362). -/
def State.feeder (s : State) (k : Nat) : Option Nat :=
  (s.ing.slots.find? (fun e => match e.2.cfg with | some c => decide (c.input = k) | none => false)).map Prod.fst

/-- The reference slot: it feeds the reference input of the image in force. -/
def State.refSlot (s : State) : Option Nat := s.image.bind (fun i => s.feeder i.refInput)

/-- The input that a slot feeds. -/
def State.inputOf (s : State) (n : Nat) : Option Input :=
  match (s.slot n).cfg, s.image with
  | some c, some i => i.inputs[c.input]?
  | _, _ => none

/-- The slot is consuming: it feeds an input while ingest runs (R371). -/
def State.consuming (s : State) (n : Nat) : Bool := s.ing.running && (s.inputOf n).isSome

/-- Slots that feed an input, with the input. -/
def State.feeding (s : State) : List (Nat × Input) :=
  s.ing.slots.filterMap (fun e => (s.inputOf e.1).map (fun x => (e.1, x)))

/-- Samples that a ring holds (R370). -/
def SlotCfg.cap (c : SlotCfg) : Nat := if c.format = 0x10 then 49152 else 32768

/-- Samples that a spill share of 8 MiB holds (R372). -/
def SlotCfg.spillCap (c : SlotCfg) : Nat := if c.format = 0x10 then 4194304 else 2796202

/-- D of the front end and D_s of a slot: an index of the reference stream times D_s over D is the slot's. -/
def State.ratio (s : State) (n : Nat) : Nat × Nat := (max 1 s.front.d, match s.inputOf n with | some x => max 1 x.ds | none => max 1 s.front.d)

/-- The slot's index at a reference index. -/
def State.ownIdx (s : State) (n r : Nat) : Nat := r * (s.ratio n).2 / (s.ratio n).1

/-- The slot's reorder window in its own samples (R373). -/
def State.ownRw (s : State) (n rw : Nat) : Nat := s.ownIdx n rw

/-! ## Faults of a slot, R387 -/

/-- A fault of Table 10.6 on a slot: its bit and counts by `f`; STREAM, with a record that names the slot at each first
occurrence after a clear. -/
def State.slotFault (s : State) (n : Nat) (was : Bool) (f : Slot → Slot) : State :=
  let s1 := s.updSlot n f
  if was = true ∧ (s.logs.word 2).getLsbD 7 = true then s1 else s1.trouble 2 7 0 7 0xFF [n]

/-- A bad frame of a slot. -/
def State.badFrame (s : State) (n : Nat) : State :=
  s.slotFault n (s.slot n).frame (fun x => { x with frame := true, badFrames := satAdd 32 x.badFrames 1 })

/-! ## Ports, R357, R358 -/

/-- The settings in force of ports S0 to S3 (0 to 3), and of C0 and C1 (4 and 5) as loaded at reset; in PRP mode C1 shares those
of C0 (R358, R392). -/
def State.portCfg (s : State) (port : Nat) : PortCfg :=
  if port < 4 then Tab.get {} s.opt.shadow.ports port else Tab.get {} s.optv.ports (if s.comms.prp then 4 else port)

/-- UDP port of stream frames in force on a port; 39520 unless PORT_SET has changed it. -/
def PortCfg.streamUdp (c : PortCfg) : Nat := if c.udp = 0 then 39520 else c.udp

/-- The ports that a number names have power: stream ingress for S0 to S3, the command ports for C0 and C1 (R67). -/
def State.portPower (s : State) (port : Nat) : Bool :=
  s.portsUp && decide (port < 6) && s.domOn (if port < 4 then .streamIngress else .commandPorts)

/-- A port drops and counts a frame. -/
def State.portDrop (s : State) (port : Nat) : State :=
  { s with ing := { s.ing with ports := Tab.upd {} s.ing.ports port (fun p => { p with dropped := p.dropped + 1 }) } }

/-- What a port does with a frame before its payload is looked at. -/
inductive PortTake where
  | pass      -- not for this port, or tagged with another VID: neither taken nor counted
  | count     -- dropped and counted; never reaches the frame parser (R365)
  | bad       -- dropped and counted, and a bad frame of the slot it names (R357, Table 10.6)
  | take
  deriving DecidableEq, Repr

/-- R357 and the datagram limit of R365. -/
def portTakes (c : PortCfg) (e : Envelope) (udp : Bool) : PortTake :=
  let limit := if e.v4 then c.mtu - 28 else c.mtu - 48
  if e.toUs = false then .pass
  else if c.vid ≠ 0 ∧ e.vid.isSome = true ∧ e.vid ≠ some c.vid then .pass
  else if udp = false then .take
  else if limit < e.length ∨ e.fragment = true then .count
  else if e.ethertype ≠ (if e.v4 then 0x0800 else 0x86DD) ∨ e.ipOptions = true ∨ e.checksum = 2
      ∨ (e.checksum = 1 ∧ e.v4 = false) then .bad
  else .take

/-! ## The slot of a frame, R360 -/

/-- A frame slot takes frames of this port, UDP port, sender and STREAMID. -/
def State.takesFrame (s : State) (port : Nat) (f : StreamFrame) (c : SlotCfg) : Bool :=
  match c.source with
  | .sv .. => false
  | .frame fam udp addr id =>
    decide (c.kind = 0) && c.ports.testBit port && decide (f.streamId = id)
      && decide (f.env.udp = if udp = 0 then (s.portCfg port).streamUdp else udp)
      && (decide (fam = 0) || (decide (f.env.addr = addr) && decide (f.env.v4 = decide (fam = 4))))

/-- The slot of a stream frame. -/
def State.slotOf (s : State) (port : Nat) (f : StreamFrame) : Option Nat :=
  (s.ing.slots.find? (fun e => match e.2.cfg with | some c => s.takesFrame port f c | none => false)).map Prod.fst

/-- The frame keeps R366. -/
def StreamFrame.good (f : StreamFrame) (c : SlotCfg) : Bool :=
  decide (f.magic = 0x5354524D ∧ f.ver = 1 ∧ f.fmt = c.format ∧ f.reserved = 0 ∧ f.flags < 4)
    && f.crcOk && f.lenOk && decide (1 ≤ f.count ∧ f.count ≤ 4096 ∧ f.count = f.samples.length)

/-! ## A start arrival, R370 -/

/-- This module starts context 0 on its own: standalone, or a detached source. -/
def State.ownStart (s : State) : Bool := s.standalone || (s.pack.detached && decide (s.pack.source = s.optv.ppos))

/-- The first valid frame after silence on a reference slot with STARTARR: Rest ends, and context 0 starts under the
command's rules, as a commit of the module's own. -/
def State.startArrival (s : State) (n : Nat) (c : SlotCfg) : State :=
  if c.startArr = true ∧ (s.slot n).quiet = true ∧ s.refSlot = some n then
    let s1 := s.wake
    let watch := match s1.image with | some i => i.watch.isSome | none => false
    if s1.ownStart = true ∧ watch = true ∧ (s1.ctx 0).started = false ∧ (s1.ctx 0).state ≠ .faulted ∧ s1.isReady = true then
      (match s1.startCtx 0 with
       | (st, s2) => if st.code < 0x10 then s2.commit else s1)
    else s1
  else s

/-! ## Rings -/

/-- Keep only samples from an index on. -/
def keepFrom (r : Tab (Int × Nat)) (u : Nat) : Tab (Int × Nat) := r.filter (fun e => decide (u ≤ e.1))

/-- Set the unread index of a slot and drop what lies below. -/
def State.setUnread (s : State) (n u : Nat) : State :=
  s.updSlot n (fun x => { x with unread := some u, ring := keepFrom x.ring u, spilled := 0 })

/-- The s0 that a first reference index gives: the smallest multiple of D·P not below it (R364). -/
def State.originAt (s : State) (idx : Nat) : Nat :=
  let w := max 1 s.tokenSpan
  (idx + w - 1) / w * w

/-- Ingest takes its s0 from a reference index: every slot is read from its own index on. -/
def State.setOrigin (s : State) (idx : Nat) : State :=
  let o := s.originAt idx
  let s1 := { s with ing := { s.ing with s0 := some o, nextToken := 0 } }
  s1.each (s1.feeding.map Prod.fst) (fun s n =>
    (s.setUnread n (s.ownIdx n o)).updSlot n (fun x => { x with firTail := [] }))

/-- Samples into a ring in lookback mode: the newest are kept (R371). -/
def Slot.look (x : Slot) (cap idx : Nat) (vals : List (Int × Nat)) : Slot :=
  let r := (List.range vals.length).foldl (fun t i => Tab.put (Tab.drop t (idx + i)) (idx + i) (vals.getD i (0, 0))) x.ring
  let h := max (x.high.getD 0) (idx + vals.length)
  { x with ring := keepFrom r (h - cap), high := some h }

/-- The watch schedule when a discontinuity ends a run of s0: what it holds of the period in progress becomes a short
period; where nothing is left, the open report interval closes and the new run begins (R381). -/
def State.watchShort (s : State) (old : Nat) : State :=
  if (s.ctx 0).state = .free ∨ (s.ctx 0).state = .stopped ∨ s.watch.short.isSome = true then s
  else
    let w := s.watch
    let next := w.first + w.len
    let held := match s.newestTok old with | some k => k + 1 | none => 0
    let l := max held w.first - 1
    if next < held ∨ (w.len ≠ 0 ∧ held ≠ 0) then
      let s1 := { s with watch := { s.watch with short := some (held - 1, old) } }
      if held ≤ w.first + w.evaluated then s1.closeReport else s1
    else if w.len ≠ 0 then { s.closeReport with watch := { s.closeReport.watch with short := some (l, old) } }
    else
      let s1 := s.closeReport
      { s1 with watch := { s1.watch with first := 0, riFirst := 0, riOff := 0, riCount := 0, zeroDue := true, owesGap := true } }

/-- Ranges that name tokens of the old run still to come end with its last token. -/
def State.clipRuns (s : State) : State :=
  { s with ctxs := Tab.alter {} (fun x => { x with pend := x.pend.map (fun p =>
      if p.run ≠ 0 ∧ s.hist.appended ≤ p.last then { p with last := s.hist.appended - 1 } else p) }) s.ctxs }

/-- A discontinuity on the reference slot: the unread samples of every slot are dropped, and ingest restarts with a new s0
in a new index group (R381). -/
def State.newOrigin (s : State) (idx : Nat) : State :=
  let old := s.ing.run
  let s1 := s.each (s.feeding.map Prod.fst) (fun s n => s.updSlot n (fun x => { x with ring := [], spilled := 0, high := none }))
  let s2 := { s1 with
    ing := { s1.ing with run := s1.ing.run + 1 }
    hist := { s1.hist with newGroup := true } }
  ((s2.watchShort old).clipRuns).setOrigin idx

/-! ## Filing, R370, R374, R387 -/

/-- File samples into a ring: late ones and repeats are dropped and counted, the rest stored in place. -/
def Slot.file (x : Slot) (u idx : Nat) (vals : List (Int × Nat)) : Slot :=
  let l : List Nat := List.range vals.length
  let late := (l.filter (fun i => decide (idx + i < u))).length
  let fresh := l.filter (fun i => decide (u ≤ idx + i) && (Tab.get (0, 4) x.ring (idx + i)).2 == 4)
  let dups := vals.length - late - fresh.length
  { x with
    ring := fresh.foldl (fun t i => Tab.put t (idx + i) (vals.getD i (0, 0))) x.ring
    high := some (max (x.high.getD 0) (idx + vals.length))
    lateSmp := satAdd 32 x.lateSmp late
    dupSmp := satAdd 32 x.dupSmp dups
    reorder := if idx + 1 < x.high.getD 0 ∧ fresh ≠ [] then satAdd 32 x.reorder 1 else x.reorder }

/-- Counts of an accepted frame. -/
def Slot.accepted (x : Slot) (port idx n : Nat) : Slot :=
  { x with frames := satAdd 32 x.frames 1, port := port % 4, highIdx := max x.highIdx (idx + n - 1) }

/-- Faults that filing brings: LATE and DUP as samples were dropped, QUAL for questionable ones. -/
def State.filed (s : State) (n port u idx : Nat) (vals : List (Int × Nat)) : State :=
  let x := s.slot n
  let y := (x.file u idx vals).accepted port idx vals.length
  let s1 := s.updSlot n (fun _ => y)
  let s2 := if y.lateSmp ≠ x.lateSmp then s1.slotFault n x.late (fun x => { x with late := true }) else s1
  if y.dupSmp ≠ x.dupSmp then s2.slotFault n x.dup (fun x => { x with dup := true }) else s2

/-- The frame that gives ingest its s0: its samples below s0 belong to no token. -/
def State.filedFirst (s : State) (n port idx : Nat) (vals : List (Int × Nat)) : State :=
  let x := s.slot n
  s.updSlot n (fun _ => { ((x.file (x.unread.getD 0) idx vals).accepted port idx vals.length) with lateSmp := x.lateSmp })

/-- Samples of a valid frame of a slot, whose index is known; `jump` says that the framing itself reports a discontinuity
(R369). -/
def State.fileFrame (s : State) (n port idx : Nat) (vals : List (Int × Nat)) (jump : Bool) : State :=
  match (s.slot n).cfg with
  | none => s
  | some c =>
    let s0 := (s.startArrival n c).updSlot n (fun x => { x with quiet := false, rateCount := x.rateCount + vals.length })
    let s1 := if vals.any (fun v => decide (v.2 % 2 = 1)) then
        (if s0.consuming n then s0.slotFault n (s0.slot n).qual (fun x => { x with qual := true })
         else s0.updSlot n (fun x => { x with qual := true })) else s0
    let cap := c.cap
    let look := s1.updSlot n (fun x => (x.look cap idx vals).accepted port idx vals.length)
    if s1.consuming n = false then look
    else match s1.ing.s0, (s1.slot n).unread with
      | some _, some u =>
        if jump = true ∨ u + cap < idx ∨ idx + s1.ownRw n c.rw < u then
          if s1.refSlot = some n then
            let s2 := s1.newOrigin idx
            (s2.slotFault n (s2.slot n).disc (fun x => { x with disc := true })).filedFirst n port idx vals
          else s1.slotFault n (s1.slot n).disc (fun x => { x with disc := true })
        else if u + (s1.slot n).spilled + cap < idx + vals.length then
          s1.slotFault n (s1.slot n).ovf (fun x => { x with ovf := true, ovfSmp := satAdd 32 x.ovfSmp vals.length })
        else s1.filed n port u idx vals
      | _, _ =>
        if s1.refSlot = some n then (s1.setOrigin idx).filedFirst n port idx vals else look

/-- STREAM_FRAME: a datagram arrives at a stream port. -/
def execStreamFrame (port : Nat) (f : StreamFrame) (s : State) : Outc :=
  if s.portPower port = false ∨ 4 ≤ port then .next s
  else match portTakes (s.portCfg port) f.env true with
    | .pass => .next s
    | .count => .next (s.portDrop port)
    | .bad => .next (match s.slotOf port f with
        | some n => (s.portDrop port).badFrame n
        | none => s.portDrop port)
    | .take => .next (match s.slotOf port f with
        | none => s
        | some n =>
          match (s.slot n).cfg with
          | none => s
          | some c =>
            if f.good c then
              s.fileFrame n port f.sidx
                (f.samples.map (fun v => (v, (if f.flags.testBit 1 then 1 else 0) + (if f.ue then 2 else 0)))) false
            else s.badFrame n)

/-! ## Sampled values, R367 to R369 -/

/-- Validity of a quality word, by the layout of IEC 61850: bits [1:0], 1 invalid, 3 questionable (assumption 27). -/
def qInvalid (q : BitVec 32) : Bool := q.toNat % 4 == 1
/-- Questionable validity, or source substituted (bit 10). -/
def qDoubt (q : BitVec 32) : Bool := q.toNat % 4 == 3 || q.getLsbD 10
/-- The test bit (bit 11). -/
def qTest (q : BitVec 32) : Bool := q.getLsbD 11

/-- The next 64-bit index of a stream of sampled values and whether the step is a discontinuity (R367, R369). -/
def svStep (last : Option (Nat × Nat)) (wrap rw cnt : Nat) : Nat × Bool :=
  match last with
  | none => (cnt, false)
  | some (p, i) =>
    let d := (cnt + wrap - p % wrap) % wrap
    if 2 * d ≤ wrap then (i + d, false)
    else if wrap - d ≤ rw then (i - (wrap - d), false)
    else (i + d, true)

/-- A sampled value as stored: shifted right by SHIFT and saturated to 24 bits (R368). -/
def svValue (shift : Nat) (v : Int) : Int × Bool :=
  let w := v / (2 ^ shift : Nat)
  let c := clampInt (-8388608) 8388607 w
  (c, decide (c ≠ w))

/-- A test or simulated ASDU is dropped and counted in BADFRAMES (Tables 10.4, 10.8). -/
def State.dropAsdu (s : State) (n : Nat) : State := s.updSlot n (fun x => { x with badFrames := satAdd 32 x.badFrames 1 })

/-- One slot takes its element of an ASDU. -/
def State.takeAsdu (s : State) (n port : Nat) (f : SvFrame) (a : Asdu) (c : SlotCfg) (conf elem : Nat) : State :=
  if a.confRev ≠ conf ∨ (match a.smpRate with | some r => decide (r ≠ c.nomrate) | none => false) = true then s.badFrame n
  else match a.elements[elem]? with
    | none => s.badFrame n
    | some (v, q) =>
      if f.simulate = true ∨ qTest q = true then s.dropAsdu n
      else
        let (idx, jump) := svStep (s.slot n).svIndex c.wrap (s.ownRw n c.rw) a.smpCnt
        let dropped := jump && s.consuming n && decide (s.refSlot ≠ some n)
        let s1 := if dropped then s else s.updSlot n (fun x => { x with svIndex :=
          match x.svIndex with
          | some (p, i) => if idx < i then some (p, i) else some (a.smpCnt, idx)
          | none => some (a.smpCnt, idx) })
        let (w, sat) := svValue c.shift v
        let s2 := if sat then s1.updSlot n (fun x => { x with clamp := satAdd 32 x.clamp 1 }) else s1
        if qInvalid q then s2.updSlot n (fun x => { x with quiet := false, frames := satAdd 32 x.frames 1, port := port % 4 })
        else s2.fileFrame n port idx [(w, if qDoubt q then 1 else 0)] jump

/-- Every slot that an ASDU feeds takes its element. -/
def State.takeAsdus (s : State) (port : Nat) (f : SvFrame) : List Asdu → State
  | [] => s
  | a :: as =>
    (s.each (s.ing.slots.map Prod.fst) (fun s n =>
      match (s.slot n).cfg with
      | none => s
      | some c =>
        match c.source with
        | .frame .. => s
        | .sv dmac appid conf elem svid =>
          if c.ports.testBit port = true ∧ dmac = f.dmac ∧ appid = f.appid ∧ svid = a.svid then
            (if f.security = true ∨ f.asdus.length < 1 ∨ 8 < f.asdus.length ∨ 24 < a.elements.length then s.badFrame n
             else s.takeAsdu n port f a c conf elem)
          else s)).takeAsdus port f as

/-- SAMPLED_VALUES_FRAME: a frame of Ethertype 0x88BA arrives at a stream port. -/
def execSampledValuesFrame (port : Nat) (f : SvFrame) (s : State) : Outc :=
  if s.portPower port = false ∨ 4 ≤ port then .next s
  else match portTakes (s.portCfg port) f.env false with
    | .take => if f.env.ethertype = 0x88BA then .next (s.takeAsdus port f f.asdus) else .next (s.portDrop port)
    | _ => .next s

/-! ## What a port answers, R358 -/

/-- The IPv6 link-local address of a MAC address, with the interface identifier of EUI-64 (R393 says that it is formed from the
MAC address; PRESUMED, assumption 84). -/
def linkLocal (mac : Nat) : Nat :=
  0xFE80 * 2 ^ 112 + ((mac / 2 ^ 24 * 2 ^ 40 + 0xFFFE * 2 ^ 24 + mac % 2 ^ 24) ^^^ 2 ^ 57)

/-- The IPv6 address of a port: the one set, else that of a command port's MAC address (R358, R393). -/
def State.portV6 (s : State) (port : Nat) : Nat :=
  let a := (s.portCfg port).ipv6
  if port < 4 ∨ a ≠ 0 then a
  else linkLocal (if port = 4 ∨ s.comms.prp = true then s.optv.mac / 2 ^ 48 else s.optv.mac % 2 ^ 48)

/-- The port has the address. -/
def State.hasAddr (s : State) (port : Nat) (v6 : Bool) (addr : Nat) : Bool :=
  s.portPower port && decide (addr ≠ 0) && decide (addr = if v6 then s.portV6 port else (s.portCfg port).ipv4)

/-- A stream port joins its multicast groups with IGMPv3 and MLDv2 (R358). -/
def State.joinGroups (s : State) (port : Nat) : State :=
  if port < 4 ∧ (s.portCfg port).groups ≠ [] then s.emit (.join port (s.portCfg port).groups) else s

/-- ARP_REQUEST for an IPv4 address. -/
def execArpRequest (port addr : Nat) (s : State) : Outc :=
  if s.hasAddr port false addr then .next (s.emit (.arpReply port addr)) else .next s

/-- NEIGHBOR_DISCOVERY for an IPv6 address. -/
def execNeighborDiscovery (port addr : Nat) (s : State) : Outc :=
  if s.hasAddr port true addr then .next (s.emit (.neighborReply port addr)) else .next s

/-- ECHO_REQUEST to an address of the port: its data go back. -/
def execEchoRequest (port : Nat) (v6 : Bool) (addr : Nat) (data : List Byte) (s : State) : Outc :=
  if s.hasAddr port v6 addr then .next (s.emit (.echoReply port v6 addr data)) else .next s

/-! ## Spill, silence, rate -/

/-- SPILL_MOVE: a consuming ring more than three quarters full moves its oldest unread part, a quarter of the ring here
(assumption 28), to its spill share while board memory is active (R372). -/
def execSpillMove (slot : Nat) (s : State) : Outc :=
  let x := s.slot slot
  match x.cfg with
  | none => .next s
  | some c =>
    let top_ := x.high.getD 0 - x.unread.getD 0
    if s.consuming slot = true ∧ x.unread.isSome = true ∧ s.life.phase = .ready ∧ 3 * c.cap < 4 * (top_ - x.spilled)
        ∧ x.spilled + c.cap / 4 ≤ c.spillCap then
      .next (s.updSlot slot (fun x => { x with spilled := x.spilled + c.cap / 4 }))
    else .next s

/-- SILENT_TIMEOUT: no valid frame of the slot for 100 ms; while ingest runs that is the Silent fault (R370, R387). -/
def execSilentTimeout (slot : Nat) (s : State) : Outc :=
  if (s.slot slot).cfg.isNone = true then .next s
  else
    let s1 := s.updSlot slot (fun x => { x with quiet := true })
    if s1.consuming slot then .next (s1.slotFault slot (s1.slot slot).silent (fun x => { x with silent := true })) else .next s1

/-- The rate error of a second, in ppm, and whether it exceeds 0.05 %. -/
def rateError (nom count : Nat) : Int × Bool :=
  (((count : Int) - nom) * 1000000 / (max 1 nom : Nat), decide (nom < 2000 * ((count : Int) - nom).natAbs))

/-- One slot at the end of a second of local time. -/
def State.rateSlot (s : State) (n : Nat) : State :=
  match (s.slot n).cfg with
  | none => s
  | some c =>
    let (ppm, bad) := rateError c.nomrate (s.slot n).rateCount
    let fault := bad && s.consuming n
    let s1 := s.updSlot n (fun x => { x with ratePpm := ppm, rateCount := 0, rateBad := fault })
    if fault then s1.slotFault n (s1.slot n).rate (fun x => { x with rate := true }) else s1

/-- RATE_CHECK: a second of local time ends (R387). -/
def execRateCheck (s : State) : Outc :=
  if s.portsUp then .next (s.each (s.ing.slots.map Prod.fst) State.rateSlot) else .next s

end Sys2Proof.Machine
end

