-- ==== Sys2Proof/Machine/FrontEnd.lean ====
section
/-! DEFINITION. The Filet front end: final samples, FIR stages, features, quantising, detectors, sealing and appending or
forwarding a token; custom functions (R376 to R386). -/

namespace Sys2Proof.Machine

open Sys2Proof

/-- First own index of a token on a slot, and the samples it takes. -/
def State.patchOf (s : State) (n sidx : Nat) (x : Input) : Nat × Nat := (s.ownIdx n sidx, max 1 x.ds * s.front.p)

/-- Highest reference index received, plus one. -/
def State.refHigh (s : State) : Option Nat := s.refSlot.bind (fun n => (s.slot n).high)

/-- Sample `j` of a slot is final: present, or the reference has moved RW past it (R382). -/
def State.isFinal (s : State) (n j : Nat) : Bool :=
  let x := s.slot n
  let (d, ds) := s.ratio n
  let rw := match x.cfg with | some c => c.rw | none => 0
  (Tab.get (0, 4) x.ring j).2 != 4
    || (match s.refHigh with | some h => decide (j * d + rw * ds ≤ (h - 1) * ds) && decide (0 < h) | none => false)

/-- Every sample of a slot's patch is final. -/
def State.patchFinal (s : State) (sidx : Nat) (e : Nat × Input) : Bool :=
  let (a, k) := s.patchOf e.1 sidx e.2
  (List.range k).all (fun i => s.isFinal e.1 (a + i))

/-- Read samples in index order: value, marks, and 1 in bit 3 of the marks where filled with the last read sample. -/
def readPatch (ring : Tab (Int × Nat)) : Nat → Nat → Int → List (Int × Nat)
  | _, 0, _ => []
  | j, k + 1, last =>
    let v := Tab.get (0, 4) ring j
    let w : Int × Nat := if v.2 = 4 then (last, 8) else v
    w :: readPatch ring (j + 1) k w.1

/-- One output of a FIR stage: the taps over the newest samples up to position `m`, shifted right; filled where any sample
that entered it was. -/
def firAt (st : FirStage) (xs : List (Int × Bool)) (m : Nat) : Int × Bool :=
  let l := (List.range st.taps.length).map (fun k => (st.taps.getD k 0, if k ≤ m then xs.getD (m - k) (0, false) else (0, false)))
  ((l.map (fun e => e.1 * e.2.1)).sum / (2 ^ st.shift : Nat), l.any (fun e => e.2.2))

/-- A FIR stage with its decimation: one output for every `factor` samples, at the last of them. -/
def firRun (st : FirStage) (xs : List (Int × Bool)) : List (Int × Bool) :=
  let f := max 1 st.factor
  (List.range (xs.length / f)).map (fun i => firAt st xs ((i + 1) * f - 1))

/-- Samples of history that an input's stages need, a multiple of D_s. -/
def Input.reach (x : Input) : Nat :=
  let need := (x.stages.foldl (fun (a : Nat × Nat) st => (a.1 + a.2 * st.taps.length, a.2 * max 1 st.factor)) (0, 1)).1
  (need + max 1 x.ds - 1) / max 1 x.ds * max 1 x.ds

/-- The decimated samples of a patch: the stages over the history and the new samples, the last P outputs. -/
def Input.decimate (x : Input) (p : Nat) (tail new_ : List (Int × Bool)) : List (Int × Bool) :=
  let pad := List.replicate (x.reach - tail.length) ((0 : Int), false)
  let y := x.stages.foldl (fun l st => firRun st l) (pad ++ tail ++ new_)
  y.drop (y.length - p)

/-- The features of a patch. -/
def Input.features (x : Input) (l : List Int) : List Int :=
  match x.feature with
  | .raw => l
  | f => Config.feature f l

/-- A feature as an INT8 byte: gain, offset, to nearest with ties to even, saturating; and whether it saturated. -/
def Input.quantise (x : Input) (v : Int) : Byte × Bool :=
  let q := rne ⟨v * x.gainM + x.offset * (2 ^ x.gainE : Nat), 2 ^ x.gainE⟩
  let c := clampInt (-128) 127 q
  (BitVec.ofInt 8 c, decide (c ≠ q))

/-! ## Event detectors, R386 -/

/-- Samples that a condition looks back on, the present one among them. -/
def DetCond.span : DetCond → Nat
  | .band w _ => max 1 w
  | _ => 2

/-- The detector's condition holds at the newest of some samples, newest first. -/
def DetCond.holds (c : DetCond) (l : List Int) : Bool :=
  match c, l with
  | .above t, v :: _ => decide (t < v)
  | .below t, v :: _ => decide (v < t)
  | .diff t, v :: last :: _ => decide (t < (v - last).natAbs)
  | .band w t, l => decide (l.length = max 1 w) && decide (t < Config.bandEnergy w l)
  | _, _ => false

/-- A detector over decimated samples: its consecutive count, samples of hold-off left, the newest samples that it looks back
on; and whether it fires. -/
def detRun (d : Detector) : (Nat × Nat × List Int) → List (Int × Bool) → (Nat × Nat × List Int) × Bool
  | x, [] => (x, false)
  | (n, h, l), (v, filled) :: rest =>
    let l' := (v :: l).take d.cond.span
    if filled then detRun d (n, h, l) rest
    else if h ≠ 0 then detRun d (0, h - 1, l') rest
    else
      let k := if d.cond.holds l' then n + 1 else 0
      if k ≠ 0 ∧ d.count ≤ k then ((detRun d (0, d.holdoff, l') rest).1, true) else detRun d (k, 0, l') rest

/-! ## One input of a token -/

/-- What forming a token finds on one input. -/
structure Formed where
  bytes : List Byte
  flags : Nat
  dec : List (Int × Bool)

/-- The flags that samples give a token: GAP, POISON, TROUBLE (R383). -/
def sampleFlags (l : List (Int × Nat)) (rateBad : Bool) : Nat :=
  flag (l.any (fun v => v.2.testBit 3)) * 4 + flag (l.any (fun v => v.2.testBit 1)) * 2
    + flag (rateBad || l.any (fun v => v.2.testBit 0))

/-- Read, filter, decimate, map and quantise one input's patch; the slot's ring, history, counters and GAP. -/
def State.formInput (s : State) (sidx : Nat) (e : Nat × Input) : State × Formed :=
  let (n, x) := e
  let (a, k) := s.patchOf n sidx x
  let sl := s.slot n
  let l := readPatch sl.ring a k sl.lastRead
  let new_ : List (Int × Bool) := l.map (fun v => (v.1, v.2.testBit 3))
  let dec := x.decimate s.front.p sl.firTail new_
  let q := (x.features (dec.map Prod.fst)).map x.quantise
  let filled := (l.filter (fun v => v.2.testBit 3)).length
  let hist := sl.firTail ++ new_
  let s1 := s.updSlot n (fun y =>
    { y with
      unread := some (a + k), ring := keepFrom y.ring (a + k), spilled := y.spilled - k
      lastRead := (l.getLast?.map Prod.fst).getD y.lastRead
      firTail := hist.drop (hist.length - x.reach)
      filled := satAdd 32 y.filled filled
      clamp := satAdd 32 y.clamp (q.filter (·.2)).length })
  let s2 := if filled = 0 then s1
    else
      let was := sl.gap
      let s3 := s1.slotFault n was (fun y => { y with gap := true })
      if was = true ∧ (s3.logs.word 2).getLsbD 8 = true then s3 else s3.trouble 2 8 0 7 0xFF [n]
  (s2, { bytes := q.map Prod.fst, flags := sampleFlags l sl.rateBad, dec := dec })

/-- Form every input in order. -/
def State.formAll (s : State) (sidx : Nat) : List (Nat × Input) → State × List (Input × Formed)
  | [] => (s, [])
  | e :: es =>
    let (s1, f) := s.formInput sidx e
    let (s2, fs) := s1.formAll sidx es
    (s2, (e.2, f) :: fs)

/-- Union of flag codes. -/
def orFlags (l : List Nat) : Nat := l.foldl (fun a b => a ||| b) 0

/-- The slots that feed the image's inputs, in the order of the inputs. -/
def State.inputsInOrder (s : State) (i : Image) : List (Nat × Input) :=
  (List.range i.inputs.length).filterMap (fun k =>
    match s.feeder k, i.inputs[k]? with
    | some n, some x => some (n, x)
    | _, _ => none)

/-- Run the detectors over a token's decimated samples; contexts that firings trigger, in order. -/
def State.runDetectors (s : State) (i : Image) (fs : List Formed) : State × List Nat :=
  (List.range i.detectors.length).foldl
    (fun (a : State × List Nat) n =>
      match i.detectors[n]? with
      | none => a
      | some d =>
        match fs[d.input]? with
        | none => a
        | some f =>
          let (x, hit) := detRun d (Tab.get (0, 0, []) a.1.ing.dets n) f.dec
          ({ a.1 with ing := { a.1.ing with dets := Tab.set (0, 0, []) a.1.ing.dets n x } },
           if hit then a.2 ++ [d.ctx] else a.2))
    (s, [])

/-! ## Sealing, R333, R384 -/

/-- The member that a token is forwarded to: the filling module, or the next one from the first token of its first period
once it has acknowledged (R333, R335). -/
def State.tokenDst (s : State) (sidx : Nat) : Nat :=
  match s.pack.handover with
  | some h => if h.acked = true ∧ h.sidx ≤ sidx then h.to_ else s.pack.fill
  | none => s.pack.fill

/-- Forward a record: it is kept until a TOKEN_ACK covers it, at most 1,024 of them; an overflow drops the oldest and logs
it (code 0x0008). -/
def State.forwardToken (s : State) (sidx flags : Nat) (bytes : List Byte) : State :=
  let l := s.pack.forwarded ++ [(sidx, flags, bytes)]
  let s1 := { s with pack := { s.pack with forwarded := if 1024 < l.length then l.tail else l } }
  let s2 := if 1024 < l.length then s1.log { code := 0x0008, bunit := 6 } else s1
  s2.packSend (s2.tokenDst sidx) 0 (.token sidx flags bytes)

/-- A member that takes the filling role writes from slot 0, in a new index group (R334). -/
def State.placeRing (s : State) : State := { s with hist := { s.hist with write := 0, newGroup := true } }

/-- The first token of the first period that this member takes by handover moves its ring to slot 0. -/
def State.placeFor (s : State) (sidx : Nat) : State :=
  match s.pack.handover with
  | some h =>
    if h.to_ = s.optv.ppos ∧ h.placed = false ∧ h.sidx ≤ sidx then
      { s.placeRing with pack := { s.pack with handover := some { h with placed := true } } }
    else s
  | none => s

/-- The standby hears of a token that the source itself has appended (R333, R364). -/
def State.ackStandby (s : State) (sidx : Nat) : State :=
  if s.pack.standby = 0xFF ∨ s.pack.standby = s.optv.ppos then s else s.packSend s.pack.standby 0 (.tokenAck sidx)

/-- A sealed token is appended here, or forwarded to the filling module of the pack. -/
def State.sealToken (s : State) (sidx flags : Nat) (bytes : List Byte) : State :=
  let token := s.ing.nextToken
  let s1 := { s with ing := { s.ing with nextToken := token + 1 } }
  if s1.solo then s1.takeToken sidx flags s1.ing.run token bytes
  else if s1.tokenDst sidx = s1.optv.ppos then (((s1.placeFor sidx).takeToken sidx flags s1.ing.run token bytes).ackStandby sidx)
  else s1.forwardToken sidx flags bytes

/-- TOKEN_FORM: the next token, once every sample of it is final. The front end lies in the Filet regions of clusters 0 and 1
(R376): where one is gated, its power is asked for first (R69). -/
def execTokenForm (facts : TokenFacts) (s : State) : Outc :=
  match s.image, s.ing.s0 with
  | some i, some o =>
    let ins := s.inputsInOrder i
    let sidx := o + s.ing.nextToken * s.tokenSpan
    if s.fwUp = false ∨ s.ing.running = false ∨ s.ing.feOk = false ∨ s.tokenSpan = 0
        ∨ ins.length ≠ i.inputs.length ∨ ins = [] ∨ ins.all (s.patchFinal sidx) = false then .next s
    else if (s.domOn (.clusterCommon 0) && s.domOn (.clusterCommon 1)) = false then
      .next ((s.wake.askPower (.clusterCommon 0) 0).askPower (.clusterCommon 1) 0)
    else
      let (s1, l) := s.formAll sidx ins
      let flags := orFlags (l.map (fun e => e.2.flags)) ||| (if facts.ue then 2 else 0)
      let (s2, hits) := s1.runDetectors i (l.map Prod.snd)
      let no := s2.hist.appended
      let s3 := s2.sealToken sidx flags ((l.flatMap (fun e => e.2.bytes)).take s2.hist.width)
      .next (hits.foldl (fun s c => s.trigger c no sidx false) s3)
  | _, _ => .next s

/-! ## Custom functions, R377 -/

/-- The context whose buffer a custom function can take: its output counter stands below its input counter. -/
def State.filetCtx (s : State) (f : FiletFn) : Option Nat :=
  let v := fun c id => (s.physOf c id).map (fun p => (s.counter p).value
    + ((s.sync.signals.filter (fun g => decide (g.ctx = c ∧ g.id = id ∧ id = f.outCtr))).map (·.delta)).sum)
  ((s.ctxs.filter (fun e => e.2.started && (decide (e.1 = 0) == decide (f.member = 0)))).map Prod.fst).find? (fun c =>
    match v c f.inCtr, v c f.outCtr with
    | some a, some b => decide (b < a)
    | _, _ => false)

/-- The elements of a custom function's result: a map by table, or a causal convolution, saturated to the element. -/
def FiletFn.apply (f : FiletFn) (xs : List Int) : List Int :=
  let lo : Int := if f.wide then -32768 else -128
  let hi : Int := if f.wide then 32767 else 127
  if f.lut = [] then
    (List.range xs.length).map (fun i => clampInt lo hi
      (((List.range f.taps.length).map (fun k => f.taps.getD k 0 * (if k ≤ i then xs.getD (i - k) 0 else 0))).sum
        / (2 ^ f.shift : Nat)))
  else xs.map (fun x => clampInt lo hi (f.lut.getD (unsigned 8 (if f.wide then x / 256 else x)) 0))

/-- FILET_FUNCTION_RUN: the k-th custom function runs for a buffer that its input counter announces, then signals its
output counter. -/
def execFiletFunctionRun (k : Nat) (s : State) : Outc :=
  match s.image.bind (fun i => i.functions[k]?) with
  | none => .next s
  | some f =>
    match s.filetCtx f with
    | none => .next s
    | some c =>
      if s.domOn (.clusterCommon f.region) = false then .next s
      else
        let w := if f.wide then 2 else 1
        let src := 4194304 * f.region + f.src
        let dst := 4194304 * f.region + f.dst
        let xs := (fieldsAt (s.mem.bytes .cluster src (w * f.elems)) 0 w f.elems).map (signed (8 * w))
        let bad := s.mem.anyPoison .cluster src (w * f.elems)
        let out := (f.apply xs).flatMap (fun v => be w (unsigned (8 * w) v))
        let s1 := if s.mem.anyVacant .cluster src (w * f.elems) then s.homeEvent .cluster src c else s
        .next (((s1.homeWrite .cluster dst out.length c).updMem (fun m => m.store .cluster dst out bad)).sendSignal
          { who := 5 * 2 ^ 13 + f.region, ctx := c, id := f.outCtr, delta := 1 })

end Sys2Proof.Machine
end

