-- ==== Sys2Proof/Machine/Upkeep.lean ====
section
/-! DEFINITION. Array upkeep: drift, pending work and its order, erase, program, touch-up and level read of a plane, the
sparing ladder, away panels, the upkeep tables (R98 to R104, R158 to R188). Physical planes are numbered
`17 * engine + plane`. -/

namespace Sys2Proof.Machine

open Sys2Proof

/-! ## Planes -/

/-- The logical plane that a physical plane of an engine serves, where one does. -/
def State.logical (s : State) (e p : Nat) : Option Nat :=
  let l := (s.plane (17 * e + p)).lplane
  if l ≤ 15 then some l else none

/-- Compute stack of an engine. -/
def stackOf (e : Nat) : Nat := e / 576

/-- Pending work, once. -/
def State.pushWork (s : State) (w : Work) : State :=
  if s.upk.queue.contains w then s else { s with upk := { s.upk with queue := s.upk.queue ++ [w] } }

/-- The number of the block that an image places on a plane (R203). -/
def Image.blockNo (i : Image) (e lp : Nat) : Option Nat :=
  ([i.watch, i.inspect].filterMap id).findSome? (fun m =>
    (m.placement.find? (fun p => decide (p.home = 0 ∧ p.loc.toNat = locPlane e lp))).map (·.block))

/-! ## Copies in the away region, R181, R183, R191, R210 -/

/-- First and last address of the away region (Table 6.2). -/
def awayFrom : Nat := 0x18000000
/-- The address after the away region. -/
def awayTo : Nat := 0x168000000

/-- The lowest place of the away region that is free for `len` bytes, where there is one (assumption 67). -/
def freePlace (l : List AwayCopy) (len : Nat) : Option Nat :=
  (((awayFrom :: l.map (fun c => c.at_ + c.len)).mergeSort (fun a b => decide (a ≤ b))).filter (fun a =>
    decide (awayFrom ≤ a ∧ a + len ≤ awayTo) && l.all (fun c => decide (a + len ≤ c.at_ ∨ c.at_ + c.len ≤ a)))).head?

/-- A block of an image is copied into the away region, its codes in tile order, then its plane file: one copy of each block of
each image. Where the golden codes are bad the copy is poisoned (R183, R210, R496). -/
def State.copyBlock (s : State) (slot e lp : Nat) : State :=
  match ((s.imgSlot slot).image).bind (fun i => i.blockOn e lp) with
  | none => s
  | some b =>
    if s.upk.copies.any (fun c => decide (c.slot = slot ∧ c.engine = e ∧ c.plane = lp)) then s
    else match freePlace s.upk.copies b.copyBytes.length with
      | none => s
      | some a =>
        let s1 := s.updMem (fun m => m.store .board a b.copyBytes (s.img.codesBad && s.img.active == some slot))
        { s1 with upk := { s1.upk with copies := s1.upk.copies ++ [{ slot := slot, engine := e, plane := lp, at_ := a, len := b.copyBytes.length }] } }

/-- The blocks that a panel's planes serve for the image in force are copied (R183); those that REPLAN moved off it are not. -/
def State.copyPanel (s : State) (e : Nat) : State :=
  match s.img.active with
  | none => s
  | some a => s.each (List.range 16) (fun s lp =>
      if Tab.get 0 s.upk.placement (16 * e + lp) = 0 then s.copyBlock a (s.imageHome e lp).1 (s.imageHome e lp).2 else s)

/-- The copies of a panel's blocks are released (R185); during a swap those of the old image stay until its boundary (R194). -/
def State.releasePanel (s : State) (e : Nat) : State :=
  if s.img.swap.isSome then s
  else
    let homes := (List.range 16).map (s.imageHome e)
    { s with upk := { s.upk with copies := s.upk.copies.filter (fun c => !homes.contains (c.engine, c.plane)) } }

/-! ## Drift, R168 to R170 -/

/-- The reference level of a row group that the last program or touch-up recorded, in units of v; where none is recorded, the
mean of the two reference levels' values (R172, assumption 57). -/
def State.refLevel (s : State) (e lp : Nat) (f : PlaneFile) (g : Nat) : Q :=
  match (s.plane (17 * e + (s.engine e).phys lp)).levels[g]? with
  | some v => q32of v
  | none => ⟨codeValue f.codebook 0 + codeValue f.codebook 15, 2⟩

/-- The drift measure of a plane from its latest closed readings, 0.001 % of the window: the largest shift of a row group's
mean reference level, its conductance referred to T_prog with −0.15 %/K, against the level recorded at the last program or
touch-up (R168, DEDUCED, assumption 57). -/
def State.driftOf (s : State) (e lp : Nat) (f : PlaneFile) : Nat :=
  let x := s.engine e
  let p := s.plane (17 * e + x.phys lp)
  let u := uZero f.codebook
  let w := codeValue f.codebook 15 - codeValue f.codebook 0
  ((List.range f.groups).map (fun g =>
    let r := x.reading lp g
    if r.closedAt.isNone ∨ w ≤ 0 then 0
    else
      let t : Q := ⟨20000 - 3 * (r.closedTemp - 10 * p.tprog), 20000⟩
      let z := qMul (qSub (qSub (qDiv (qAdd (q32of r.level) u) t) u) (s.refLevel e lp f g)) (qDiv (qInt 100000) (qInt w))
      z.num.natAbs / z.den)).foldl max 0

/-- A plane's new drift measure: overdue above 0.6 %, away above 2.4 %, with the block's home in the away region before the
plane's next step, and the touch-up that falls due (R108, R170). -/
def State.setDrift (s : State) (e p drift : Nat) : State :=
  let s1 := s.updPlane (17 * e + p) (fun x => { x with drift := min 65535 drift })
  match s1.logical e p with
  | none => s1
  | some lp =>
    let c := Tab.get 0 (s1.engine e).cond lp
    if drift ≤ 600 then s1
    else
      let s2 := s1.updEngine e (fun x => { x with cond := Tab.set 0 x.cond lp (if 2400 < drift then 3 else max 1 c) })
      let s3 := match s2.img.active with
        | some a => if 2400 < drift then s2.copyBlock a (s2.imageHome e lp).1 (s2.imageHome e lp).2 else s2
        | none => s2
      s3.pushWork { prio := 4, engine := e, plane := p, op := .touchUp, why := .overdue }

/-- A reading whose ā lies outside 0.8 to 1.25 of nominal (R101). -/
def gainRefused (f : PlaneFile) (a : Q) : Bool := qLt a (qMul (nominalGain f) ⟨4, 5⟩) || qLt (qMul (nominalGain f) ⟨5, 4⟩) a

/-- A refused reading: COND becomes degraded, unless the plane is already degraded or away; the upkeep event; the group stays
on default correction. When COND becomes degraded upkeep reads the plane, or rewrites one degraded within 24 h (R101, R173). -/
def State.refuseReading (s : State) (e lp g : Nat) (rd : Reading) : State :=
  let key := 17 * e + (s.engine e).phys lp
  let s1 := s.updEngine e (fun x => { x with
    readings := Tab.set {} x.readings (32 * lp + g) { rd with closed := 0, gains := [], offs := [], due := rd.due.drop 1 } })
  let s2 := s1.trouble 1 18 (locPlane e lp) 0 0xFF []
  if 2 ≤ Tab.get 0 (s.engine e).cond lp then s2
  else
    let again := match (s.plane key).degradedAt with | some t => decide (s.life.now < t + 86400000000) | none => false
    let s3 := s2.pushWork { prio := 5, engine := e, plane := (s.engine e).phys lp, op := if again then .program else .levelRead, why := .degraded }
    (s3.updEngine e (fun x => { x with cond := Tab.set 0 x.cond lp 2 })).updPlane key (fun p => { p with degradedAt := some s.life.now })

/-- READING_CLOSE: a reading with its 1,024 qualifying evaluations closes. One whose ā is out of range is refused (R101).
Another is kept with the last two (R99), the count starting again where the group has become default meanwhile (R100), and
gives the drift measure (R168). ā, ō and the mean shift are kept in binary32, each rounded once at the close: the spec gives
them no format (DESIGN CHOICE, assumption 68). -/
def execReadingClose (engine plane group : Nat) (s : State) : Outc :=
  let x := s.engine engine
  let rd := x.reading plane group
  match x.fileOf plane, rd.due with
  | some f, y :: rest =>
    if y.1 = 0 ∨ f.vmax = 0 then .next s
    else if gainRefused f (readingValues f y).1 then .next (s.refuseReading engine plane group rd)
    else
      let old := if 3 ≤ rd.closed ∧ s.isCurrent engine plane group = false then 0 else rd.closed
      let rd1 : Reading := { rd with
        due := rest
        gains := ((q32 (readingValues f y).1).v :: rd.gains).take 3, offs := ((q32 (readingValues f y).2).v :: rd.offs).take 3
        closed := old + 1, level := (q32 (readingLevel f y)).v
        closedAt := some s.life.now, closedTemp := s.arrayTemp (engCluster engine) }
      let s1 := s.updEngine engine (fun x => { x with readings := Tab.set {} x.readings (32 * plane + group) rd1 })
      .next (s1.setDrift engine (x.phys plane) (s1.driftOf engine plane f))
  | _, _ => .next s

/-! ## What may start, R103, R165, R184, R186 -/

/-- Array temperature of an engine's cluster lies within a range, 0.1 °C. -/
def State.tempIn (s : State) (e : Nat) (lo hi : Int) : Bool :=
  decide (lo ≤ s.arrayTemp (engCluster e)) && decide (s.arrayTemp (engCluster e) ≤ hi)

/-- The temperature allows the operation to begin: erases and level reads run from −20 to +100 °C, a rewrite begins with its
erase, and a touch-up runs from 30 to 70 °C (R103, R165). -/
def State.tempOk (s : State) (w : Work) : Bool :=
  match w.op with
  | .touchUp => s.tempIn w.engine 300 700
  | .program | .erase | .levelRead => s.tempIn w.engine (-200) 1000

/-- A context has a step scheduled on the stack. -/
def State.stackBusy (s : State) (k : Nat) : Bool :=
  s.threads.any (fun e => decide (e.1 / 1024 = k) &&
    match e.2.state with | .ready | .running | .sleeping | .stalled => true | _ => false)

/-- Operations in progress on a stack. -/
def State.opsOn (s : State) (k : Nat) : Nat := (s.upk.ops.filter (fun e => e.2.isSome && decide (stackOf e.1 = k))).length

/-- A swap has rewritten the panel, which stays away until the swap boundary (R192). -/
def State.swapped (s : State) (e : Nat) : Bool :=
  match s.img.swap with
  | some w => w.panels.contains e && !w.todo.contains e && (s.op e).isNone
  | none => false

/-- Another panel of the core is away, or going away. Panels that a swap has rewritten are no bar: R192 leaves them away until
the swap boundary (DEDUCED, assumption 69). -/
def State.coreAway (s : State) (e : Nat) : Bool :=
  (List.range 9).any (fun i =>
    let v := 9 * (e / 9) + i
    decide (v ≠ e) && !s.swapped v
      && (decide ((s.panel v).pstate = 2) || (match s.op v with | some r => decide (r.stage = .copying) | none => false)))

/-- Work whose panel may be away beside another of its core: R108, R173, sparing; and recovery, whose panels R189 makes away
before any panel serves (DEDUCED, assumption 69). -/
def UpWhy.alone : UpWhy → Bool
  | .overdue | .degraded | .spare | .recovery | .partner => false
  | _ => true

/-- The panel serves blocks, so an away copy comes before the operation (R183). -/
def State.needsCopy (s : State) (e : Nat) : Bool :=
  decide ((s.panel e).pstate = 0) && (List.range 17).any (fun p => decide ((s.plane (17 * e + p)).state = 1))

/-- The work may start now. Other work than a swap's or a sparing's waits on a panel that a swap has rewritten: its codes are
not those of the image in force (R192). -/
def State.startable (s : State) (w : Work) : Bool :=
  (s.op w.engine).isNone && s.tempOk w
    && decide (s.opsOn (stackOf w.engine) < (if s.stackBusy (stackOf w.engine) then 4 else 16))
    && !(w.why.alone && s.needsCopy w.engine && s.coreAway w.engine)
    && (!s.swapped w.engine || decide (w.why = .swap ∨ w.why = .spare))

/-- The first of some work by priority, then age. -/
def firstWork : List Work → Option Work
  | [] => none
  | w :: ws =>
    match firstWork ws with
    | none => some w
    | some v => if v.prio < w.prio then some v else some w

/-- The work that upkeep takes next; a due sweep only while no work of a higher priority is pending (R174, R186). -/
def State.nextWork (s : State) : Option Work :=
  firstWork (s.upk.queue.filter (fun w => s.startable w && (decide (w.prio < 7) || s.upk.queue.all (fun v => decide (7 ≤ v.prio)))))

/-- Domains that an operation needs. -/
def upDoms (e : Nat) : List Dom := [.coreGroup (e / 36), .chargePump (stackOf e)]

/-- Power for upkeep: work of priorities 1 and 2 does not wait for the budget (R186). -/
def State.upkeepPower (s : State) (prio : Nat) (d : Dom) : State :=
  if s.dom d ≠ .off then s
  else if prio ≤ 2 ∨ s.overBudget d = false then s.wakeDom d
  else s

/-! ## Operations, R160 to R165, R187 -/

/-- A touch-up of a plane that has had 64 since its last erase is a rewrite (R171). -/
def State.asDue (s : State) (w : Work) : Work :=
  if w.op = .touchUp ∧ 64 ≤ (s.plane (17 * w.engine + w.plane)).touchups then { w with op := .program } else w

/-- The first stage of an operation. -/
def UpOp.firstStage : UpOp → UpStage
  | .erase | .program => .erasing
  | .touchUp => .pulsing
  | .levelRead => .reading

/-- The intent record of an operation, which is in the store before the operation starts, and its first stage. Panels on which
a swap has begun are remembered (R187, R199). -/
def State.beginOp (s : State) (w0 : Work) : State :=
  let w := s.asDue w0
  let k := 17 * w.engine + w.plane
  let loc := locPlane w.engine w.plane
  let s1 := match w.op with
    | .erase | .program => s.journal 0x01 0 loc (s.plane k).erases
    | .touchUp => s.journal 0x05 0 loc (s.plane k).touchups
    | .levelRead => s
  let s2 : State := if w.why = .swap ∨ w.newImage = true then
      { s1 with upk := { s1.upk with swapOpen := s1.upk.swapOpen.map (fun l => if l.contains w.engine then l else l ++ [w.engine]) } }
    else s1
  s2.setOp w.engine (some { work := w, stage := w.op.firstStage })

/-- The engine and logical plane that the image names for the codes that a piece of work programs: the block that REPLAN
moves there, else the one of the plane's logical number (R180, R182). -/
def State.workHome (s : State) (w : Work) : Nat × Nat :=
  let lp := if (s.plane (17 * w.engine + w.plane)).lplane ≤ 15 then (s.plane (17 * w.engine + w.plane)).lplane else w.plane
  let moved := s.upk.replan.bind (fun r => ((List.range 16).find? (fun i => r.targets[i]? == some (w.engine, lp))).map (fun i => (s.imageEngine r.engine, i)))
  match moved with
  | some h => h
  | none => if w.newImage then (s.imageEngine w.engine, lp) else s.imageHome w.engine lp

/-- The image slot that a piece of work takes its codes from: the one that a swap brings, or the active one. -/
def State.workSlot (s : State) (w : Work) : Nat :=
  match s.img.swap with
  | some x => if w.newImage then x.slot else s.img.active.getD 0
  | none => s.img.active.getD 0

/-- The golden block of a piece of work. -/
def State.workBlock (s : State) (w : Work) : ArrayBlock :=
  (((s.imgSlot (s.workSlot w)).image).bind (fun i => i.blockOn (s.workHome w).1 (s.workHome w).2)).getD {}

/-- A program begins: its intent, and the levels that its cells are to hold (R77, R187). -/
def State.beginProgram (s : State) (w : Work) : State :=
  let slot := s.workSlot w
  let block := (((s.imgSlot slot).image).bind (fun i => i.blockNo (s.workHome w).1 (s.workHome w).2)).getD 0
  let s1 := s.journal 0x03 0 (locPlane w.engine w.plane) (slot * 2 ^ 31 + block)
  (s1.updCells (17 * w.engine + w.plane) (fun x => { x with level := (s.workBlock w).levels })).setOp w.engine (some { work := w, stage := .pulsing })

/-- AWAYWHY of an operation (Table 5.8). -/
def UpOp.away : UpOp → Nat
  | .touchUp => 1 | .levelRead => 3 | _ => 2

/-- A program that waits for the temperature of R103 begins once it is there. -/
def State.resumeOp (s : State) (e : Nat) : Option State :=
  match s.op e with
  | some r => if r.stage = .waiting ∧ s.tempIn e 300 700 = true then some (s.beginProgram r.work) else none
  | none => none

/-- UPKEEP_START: upkeep takes the next work, which lies on this engine, or goes on with a program that waited there. Rest ends
when upkeep falls due (R68). -/
def execUpkeepStart (engine : Nat) (s : State) : Outc :=
  if s.fwUp = false then .next s
  else match s.resumeOp engine with
  | some s1 => .next s1
  | none => match s.nextWork with
    | none => .next s
    | some w =>
      if w.engine ≠ engine then .next s
      else
        let s0 := s.wake
        if (upDoms engine).any (fun d => !s0.domOn d) then .next ((upDoms engine).foldl (fun s d => s.upkeepPower w.prio d) s0)
        else
          let s1 := { s0 with upk := { s0.upk with queue := s0.upk.queue.erase w } }
          if s1.needsCopy engine then .next (s1.setOp engine (some { work := w, stage := .copying })) else .next (s1.beginOp w)

/-- A step in progress evaluates the panel. -/
def State.panelBusy (s : State) (e : Nat) : Bool :=
  (coreThreads (e / 9)).any (fun t =>
    decide ((s.thread t).state = .running) && decide (rKind (s.recordOf t) = 0) && decide ((s.panelAt t (s.recordOf t)).1 = e))

/-- AWAY_COPY_DONE: the copies lie in the away region; at the panel's next step boundary the homes move there and the
operation begins, where the temperature allows it (R103, R183). -/
def execAwayCopyDone (engine : Nat) (s : State) : Outc :=
  match s.op engine with
  | some r =>
    if r.stage = .copying ∧ s.panelBusy engine = false ∧ s.tempOk r.work = true then
      .next (((s.copyPanel engine).updPanel engine (fun p => { p with pstate := 2, awayWhy := r.work.op.away })).beginOp r.work)
    else .next s
  | none => .next s

/-! ## Sparing, R179 to R181 -/

/-- Work of a kind is still to come on an engine. -/
def State.moreOf (s : State) (e : Nat) (y : UpWhy) : Bool :=
  s.upk.queue.any (fun w => decide (w.engine = e) && decide (w.why = y))
    || (match s.op e with | some r => decide (r.work.why = y) | none => false)

/-- A panel of a swap is rewritten once no work of the swap or of sparing is left on it (R191, R198). -/
def State.swapPanelDone (s : State) (e : Nat) : State :=
  if s.moreOf e .swap ∨ s.moreOf e .spare then s
  else { s with img := { s.img with swap := s.img.swap.map (fun w =>
      if w.todo.contains e then { w with todo := w.todo.filter (· ≠ e), done := w.done + 1 } else w) } }

/-- The panel is retired: its blocks have their home in the away region (R181). A swap goes on without it (R198). -/
def State.retirePanel (s : State) (e : Nat) : State :=
  let s1 := ((s.copyPanel e).updPanel e (fun p => { p with pstate := 3, awayWhy := 0 })).journal 0x0A 0 (locEngine e) 0
  let s2 := { s1 with upk := { s1.upk with residency := if s1.upk.residency.contains e then s1.upk.residency else s1.upk.residency ++ [e]
                                           queue := s1.upk.queue.filter (fun w => decide (w.engine ≠ e)) } }
  (s2.trouble 1 16 (locEngine e) 0 0xFF ((be 4 (locEngine e)).map (·.toNat))).swapPanelDone e

/-- The spare engine's panel takes the place of a panel: all logical planes that hold blocks are erased and programmed there,
and the work that was to come on the failed panel is void (Table 5.3). -/
def State.spareEngine (s : State) (e : Nat) (w : Work) : State :=
  let spare := 9 * (e / 9) + 8
  let s1 := (s.updPanel spare (fun x => { x with replaces := e % 9 })).updPanel e (fun x => { x with pstate := 2, awayWhy := 2 })
  let s2 : State := { s1 with upk := { s1.upk with queue := s1.upk.queue.filter (fun v => decide (v.engine ≠ e)) } }
  let lps := (List.range 16).filter (fun lp => decide (some lp = s.logical w.engine w.plane) ||
    ((((s2.imgSlot (s2.workSlot w)).image).bind (fun i => i.blockOn e lp)).isSome))
  s2.each lps (fun s i => (s.updPlane (17 * spare + i) (fun x => { x with lplane := i })).pushWork
    { prio := 2, engine := spare, plane := i, op := .program, why := .spare, newImage := w.newImage })

/-- A plane has failed under a piece of work: the first step of Table 5.3 that applies. When a plane of a spare engine that is
being written fails and plane 16 cannot take its place, the panel it was to replace is retired. -/
def State.sparePlane (s : State) (w : Work) : State :=
  let e := w.engine
  let lp := if w.plane = 16 then (s.plane (17 * e + 16)).lplane else (s.logical e w.plane).getD w.plane
  let s1 := s.updPlane (17 * e + w.plane) (fun x => { x with state := 4 })
  let spare := 9 * (e / 9) + 8
  if w.plane ≠ 16 ∧ (s1.panel e).plane16 = false then
    (s1.updPlane (17 * e + 16) (fun x => { x with lplane := lp })).pushWork
      { prio := 2, engine := e, plane := 16, op := .program, why := .spare, newImage := w.newImage }
  else if e ≠ spare ∧ (s1.panel spare).pstate = 1 ∧ (s1.panel spare).replaces = 15 then s1.spareEngine e w
  else if e = spare ∧ (s1.panel spare).pstate = 1 ∧ (s1.panel spare).replaces ≤ 7 then
    let old := 9 * (e / 9) + (s1.panel spare).replaces
    ({ s1 with upk := { s1.upk with queue := s1.upk.queue.filter (fun v => decide (v.engine ≠ spare)) } }.updPanel spare
      (fun p => { p with pstate := 4 })).retirePanel old
  else s1.retirePanel e

/-- The erase of a piece of work counts for R178: one of a rewrite, of its retry, of a swap, of REPLAN or of a spare; the erase
of a plane that only failed its blank check does not. -/
def Work.counts (w : Work) : Bool := decide (w.op = .program ∨ w.why = .swap ∨ w.why = .replan)

/-- The operation sets the plane's fail flag: it is tried once more, and a second flag in a row spares the plane (R162). -/
def State.planeFails (s : State) (r : OpRun) (kind : Nat) : State :=
  let w := r.work
  let k := 17 * w.engine + w.plane
  let s1 := (s.updPlane k (fun x => { x with fails := min 15 (x.fails + 1)
                                             erases := if kind = 2 ∧ w.counts = true then min 2047 (x.erases + 1) else x.erases })).journal
    kind 1 (locPlane w.engine w.plane) r.pulses
  let s2 := s1.trouble 1 17 (locPlane w.engine w.plane) 0 0xFF []
  if w.retry then (s2.setOp w.engine none).sparePlane w
  else if s2.tempOk w then s2.beginOp { w with retry := true }
  else (s2.setOp w.engine none).pushWork { w with retry := true }

/-! ## What follows a finished operation -/

/-- A level read or sweep of the engine is still to come or in progress. -/
def State.sweeping (s : State) (e : Nat) : Bool :=
  let hit := fun (w : Work) => decide (w.engine = e) && decide (w.why = .sweep)
  s.upk.queue.any hit || (match s.op e with | some r => hit r.work | none => false)

/-- Completions of SWEEP commands of an engine whose sweep has ended. -/
def State.sweepDone (s : State) (e : Nat) : State :=
  if s.sweeping e then s
  else
    let who := s.upk.sweepAsked.filter (fun a => decide (a.1 = e))
    let s1 := { s with upk := { s.upk with sweepAsked := s.upk.sweepAsked.filter (fun a => decide (a.1 ≠ e)) } }
    who.foldl (fun s a => s.complete (some a.2) 0x0A04 0xFFFF .ok 0 []) s1

/-- The spare engine has every plane of the panel it replaces: at a step boundary its slot is active and the failed slot retired
(R53, R179, R180). Under a swap that has rewritten it, it stays away until the swap boundary. -/
def State.engineSpared (s : State) (spare : Nat) : State :=
  let k := (s.panel spare).replaces
  let old := 9 * (spare / 9) + k
  let held := match s.img.swap with | some w => w.panels.contains old && !w.todo.contains old | none => false
  let s1 := ((((s.updPanel spare (fun p => { p with pstate := if held then 2 else 0 })).updPanel old (fun p => { p with pstate := 4, awayWhy := 0 })).updCore (spare / 9)
    (fun c => { c with spareFor := some k })).journal 0x09 0 (locEngine old) k).releasePanel old
  { s1 with img := { s1.img with swap := s1.img.swap.map (fun w =>
      { w with panels := w.panels.map (fun v => if v = old then spare else v), todo := w.todo.map (fun v => if v = old then spare else v) }) } }

/-- A spare plane has taken over: the plane map then leads to plane 16. -/
def State.spared (s : State) (w : Work) : State :=
  if w.plane = 16 then
    let lp := (s.plane (17 * w.engine + 16)).lplane
    ((s.updPanel w.engine (fun p => { p with plane16 := true })).updEngine w.engine (fun x =>
      { x with planeMap := Tab.set lp x.planeMap lp 16 })).journal 0x08 0 (locPlane w.engine lp) 16
  else s

/-- The panel of a swap that work on an engine belongs to: that which a spare engine replaces. -/
def State.swapPanelOf (s : State) (e : Nat) : Nat :=
  if e % 9 = 8 ∧ (s.panel e).pstate = 1 ∧ (s.panel e).replaces ≤ 7 then 9 * (e / 9) + (s.panel e).replaces else e

/-- A target of REPLAN is programmed. -/
def State.replanDone (s : State) (e p : Nat) : State :=
  let s2 := { s with upk := { s.upk with replan := s.upk.replan.map (fun r => { r with left := r.left.filter (fun t => decide (t ≠ (e, p))) }) } }
  if s2.watchRuns then s2 else s2.replanCommit

/-- A finished piece of work: what its reason asks for next. -/
def State.workDone (s : State) (w : Work) : State :=
  let s0 := s.setOp w.engine none
  let k := 17 * w.engine + w.plane
  let s1 : State := if w.op = .levelRead ∨ s0.upk.operated.contains k = true then s0
    else { s0 with upk := { s0.upk with operated := s0.upk.operated ++ [k] } }
  match w.why with
  | .spare =>
    let s2 := s1.spared w
    let s3 := if s2.moreOf w.engine .spare then s2 else s2.swapPanelDone (s2.swapPanelOf w.engine)
    if s3.upk.replan.isSome then s3.replanDone w.engine ((s3.plane k).lplane) else s3
  | .swap => s1.swapPanelDone w.engine
  | .replan => s1.replanDone w.engine w.plane
  | .sweep => s1.sweepDone w.engine
  | .recovery => if s1.moreOf w.engine .recovery then s1
      else { s1 with upk := { s1.upk with swapOpen := s1.upk.swapOpen.map (fun l => l.filter (· ≠ w.engine)) } }
  | .partner | .overdue | .degraded | .touchUp => s1

/-- T_prog of a sensor reading in 0.1 °C: whole degrees, rounded down (DESIGN CHOICE, assumption 70), within the range that R103
gives it. -/
def tprogOf (t : Int) : Int := max 30 (min 70 (t / 10))

/-- The plane file of a logical plane in a bank takes the default corrections that upkeep measured (R100). -/
def Engine.remeasured (x : Engine) (lp : Nat) (f : VerifyFacts) : Engine :=
  let new := fun (y : PlaneFile) => if f.gains.isEmpty then y else { y with defGain := tabOf 0 f.gains, defOff := tabOf 0 f.offs }
  { x with activeFile := if x.active = some lp then new x.activeFile else x.activeFile
           shadowFile := if x.shadow = some lp then new x.shadowFile else x.shadowFile }

/-- The plane holds new codes or levels: T_prog, t_e, reference levels, default corrections and COND (R172); its groups are
on default correction again. A target of REPLAN has its own number as its logical one. -/
def State.refreshed (s : State) (e p : Nat) (f : VerifyFacts) : State :=
  let s1 := s.updPlane (17 * e + p) (fun x =>
    { x with tprog := tprogOf (s.arrayTemp (engCluster e)), te := 0, drift := 0, gains := f.gains, offs := f.offs, levels := f.levels })
  let lp := (s1.logical e p).getD p
  s1.updEngine e (fun x =>
    { x.remeasured lp f with
      cond := Tab.set 0 x.cond lp 0
      readings := x.readings.filter (fun r => decide (r.1 / 32 ≠ lp)) })

/-! ## The events of an operation -/

/-- The pulses that an event brings, each as far as it moved cells; one that is not listed moved none. -/
def pulseMoves (moved : List (Tab Int)) (n : Nat) : List (Tab Int) := (List.range n).map (fun i => moved.getD i [])

/-- ERASE_DONE: erase pulses, each with its verify, of at most 8: the erase passes, or reaches its limit with a cell failing
(R158, R160, R162, R178, R187). A program follows where the temperature allows it (R103). -/
def execEraseDone (engine : Nat) (moved : List (Tab Int)) (pulses : Nat) (s : State) : Outc :=
  match s.op engine with
  | none => .next s
  | some r =>
    if r.stage ≠ .erasing then .next s
    else
      let w := r.work
      let k := 17 * engine + w.plane
      let (x, used) := erasePulses (s.cells k) r.pulses (pulseMoves moved pulses)
      let s0 := s.updCells k (fun _ => x)
      if used = 0 ∨ x.erased = false then
        (if 8 ≤ used then .next (s0.planeFails { r with pulses := used } 0x02) else .next (s0.setOp engine (some { r with pulses := used })))
      else
        let s1 := (s0.updPlane k (fun x => { x with erases := if w.counts then min 2047 (x.erases + 1) else x.erases, touchups := 0, fails := 0 })).journal
          0x02 0 (locPlane engine w.plane) used
        match w.op with
        | .program => if s1.tempIn engine 300 700 then .next (s1.beginProgram w) else .next (s1.setOp engine (some { work := w, stage := .waiting }))
        | _ => .next ((s1.updPlane k (fun x => if x.state = 1 then { x with state := 0, lplane := 31 } else x)).workDone w)

/-- Where an operation's pulses stand. -/
def OpRun.pulsed (r : OpRun) (x : Cells) : Pulsed := { cells := x, used := r.pulses, coarse := r.coarse, passed := r.passed }

/-- An operation after pulses. -/
def OpRun.after (r : OpRun) (p : Pulsed) : OpRun := { r with pulses := p.used, coarse := p.coarse, passed := p.passed }

/-- Pulses have ended short of success: a program sets the fail flag, a touch-up becomes a rewrite (R162, R163). -/
def State.pulsesFail (s : State) (r : OpRun) : State :=
  let w := r.work
  if w.op = .touchUp then
    let s1 := s.journal 0x06 0 (locPlane w.engine w.plane) r.pulses
    if s1.tempOk { w with op := .program } then s1.beginOp { w with op := .program }
    else (s1.setOp w.engine none).pushWork { w with op := .program, retry := false }
  else s.planeFails r 0x04

/-- PROGRAM_PASS_DONE: the coarse and fine passes of a program, or the fine pulses of a touch-up. Once no cell is short of its
band the plane rests; at the pulse limit, or with a cell beyond its band, the operation fails (R160 to R163). -/
def execProgramPassDone (engine : Nat) (pulses : List (Tab Int)) (s : State) : Outc :=
  match s.op engine with
  | none => .next s
  | some r =>
    if r.stage ≠ .pulsing then .next s
    else
      let k := 17 * engine + r.work.plane
      let cb := (s.workBlock r.work).file.codebook
      let p := progPulses cb (decide (r.work.op = .touchUp)) (r.pulsed (s.cells k)) pulses
      let s1 := s.updCells k (fun _ => p.cells)
      if p.ended cb = false then .next (s1.setOp engine (some (r.after p)))
      else if p.limit cb = true ∨ p.cells.beyond cb = true then .next (s1.pulsesFail (r.after p))
      else .next (s1.setOp engine (some { r.after p with stage := .relaxing }))

/-- RELAX_WAIT_EXPIRE: the 20 ms have passed; the final verify starts (R161). -/
def execRelaxWaitExpire (engine : Nat) (s : State) : Outc :=
  match s.op engine with
  | none => .next s
  | some r => if r.stage = .relaxing then .next (s.setOp engine (some { r with stage := .verifying })) else .next s

/-- The t_e at which D(t_e) equals a drift measure, in ps: 3 days · (10^(d ÷ 400) − 1), at half the measure for a plane past
the WEAR warning (R168, R169). -/
def teOf (drift : Nat) (worn : Bool) : Nat :=
  let q := qSub (qExp (qMul (qLn 10 1) ⟨drift, if worn then 800 else 400⟩)) (qInt 1)
  (q.num * (259200 * 10 ^ 12) / (q.den : Int)).toNat

/-- A reference reading at power-up sets a plane's drift measure and t_e (R169). -/
def State.bootDrift (s : State) (k d : Nat) : State :=
  let s1 := s.setDrift (k / 17) (k % 17) d
  { s1 with upk := { s1.upk with planes := Tab.upd (planeShipped k) s1.upk.planes k (fun x => { x with te := teOf d x.worn }) } }

/-- A program has passed its final verify (R164, R172, R177). -/
def State.programmed (s : State) (r : OpRun) (mean8 : Nat) (f : VerifyFacts) : State :=
  let w := r.work
  let k := 17 * w.engine + w.plane
  let lp := if (s.plane k).lplane ≤ 15 then (s.plane k).lplane else if w.why = .swap then w.plane else (s.plane k).lplane
  let s1 := s.journal 0x04 0 (locPlane w.engine w.plane) mean8
  let s2 := s1.updPlane k (fun x => { x with state := if w.why = .replan then x.state else 1, lplane := lp
                                             meanPulse := min 255 mean8, worn := decide (112 < mean8) })
  let s3 := s2.refreshed w.engine w.plane f
  let s4 := if 112 < mean8 then s3.trouble 1 15 (locPlane w.engine w.plane) 0 0xFF [] else s3
  s4.workDone w

/-- FINAL_VERIFY_DONE: the final verify, with the cells that moved while the plane rested, and further fine pulses, which count
towards the limits (R161). -/
def execFinalVerifyDone (engine : Nat) (f : VerifyFacts) (s : State) : Outc :=
  match s.op engine with
  | none => .next s
  | some r =>
    if r.stage ≠ .verifying then .next s
    else
      let w := r.work
      let k := 17 * engine + w.plane
      let cb := (s.workBlock w).file.codebook
      let p := progPulses cb (decide (w.op = .touchUp)) ((r.pulsed ((s.cells k).moved f.found)).note cb) f.pulses
      let s0 := s.updCells k (fun _ => p.cells)
      if p.ended cb = false then .next (s0.setOp engine (some (r.after p)))
      else if p.limit cb = true ∨ p.cells.beyond cb = true then .next (s0.pulsesFail (r.after p))
      else if w.op = .touchUp then
        let s1 := (s0.journal 0x06 0 (locPlane engine w.plane) p.used).updPlane k (fun x => { x with touchups := min 64 (x.touchups + 1) })
        .next ((s1.refreshed engine w.plane f).workDone w)
      else .next (s0.programmed r p.mean8 f)

/-- What a level read finds of a plane in use: rows whose CRC differs from their check cells, and cells of those rows whose
codes differ from the golden codes (R175). -/
def State.readPlane (s : State) (e p : Nat) : Nat × Nat :=
  let b := s.blockAt e ((s.logical e p).getD 31)
  let x := s.cells (17 * e + p)
  let bad := x.badRows b.file.codebook
  (bad.length, x.wrongCells b.file.codebook b bad)

/-- What a level read of a plane asks for (Table 5.2, R173); `prio` is that of the work it queues. A disturbed partner is touched
up whatever its check cells say (Table 5.9). The panel of a plane in use that recovery works on is away meanwhile (R498). -/
def State.actOnRead (s : State) (e p : Nat) (why : UpWhy) (prio : Nat) : State :=
  let k := 17 * e + p
  let x := s.plane k
  let mark := fun (s : State) (res : Nat) => s.updPlane k (fun x => { x with sweepH := 0, sweepBase := s.life.now, sweepRes := res })
  let push := fun (s : State) (op : UpOp) =>
    let s1 := s.pushWork { prio := prio, engine := e, plane := p, op := op, why := why }
    if (why = .recovery ∨ why = .partner) ∧ x.state = 1 ∧ (s1.panel e).pstate = 0 then s1.updPanel e (fun q => { q with pstate := 2, awayWhy := op.away })
    else s1
  let found := s.readPlane e p
  if x.state = 0 ∨ x.state = 2 then
    (if (s.cells k).erased then mark s 0 else push (mark s 2) .erase)
  else if x.state ≠ 1 then mark s 0
  else if found.2 ≠ 0 then
    push ((mark s 2).log { code := 0x0006, loc := locPlane e p, detail := (be 8 found.2).map (·.toNat) }) .program
  else if found.1 ≠ 0 ∨ why = .degraded ∨ why = .partner then push (mark s 1) .touchUp
  else mark s 0

/-- What a level read's reason makes of the work that it asks for: a boot check's is recovery, of priority 1 (R498). -/
def UpWhy.after : UpWhy → UpWhy
  | .degraded => .degraded
  | .recovery => .recovery
  | .partner => .partner
  | _ => .touchUp

/-- The priority of that work (Table 5.4). -/
def UpWhy.afterPrio : UpWhy → Nat
  | .degraded => 5
  | .recovery | .partner => 1
  | _ => 6

/-- DIGITAL_LEVEL_READ_DONE: a level read of a plane ends, as a sweep, a recovery read or after COND became degraded. A reference
reading taken with a postponed boot check gives the drift measure and t_e (R169). -/
def execDigitalLevelReadDone (engine : Nat) (r : LevelRead) (s : State) : Outc :=
  match s.op engine with
  | none => .next s
  | some o =>
    if o.stage ≠ .reading then .next s
    else
      let w := o.work
      let k := 17 * engine + w.plane
      let s0 := s.updCells k (fun x => x.moved r.found)
      let s1 := match r.drift with
        | some d => if w.why = UpWhy.recovery ∧ (s0.plane k).state = 1 then s0.bootDrift k d else s0
        | none => s0
      let s2 := s1.journal 0x07 0 (locPlane engine w.plane) (s1.readPlane engine w.plane).1
      .next ((s2.actOnRead engine w.plane w.why.after w.why.afterPrio).workDone w)

/-- SWEEP_DUE: 30 days since the plane's last sweep; more than 7 days over, with the priority of a due touch-up (R174).
Rest ends when upkeep falls due (R68). -/
def execSweepDue (engine plane : Nat) (s : State) : Outc :=
  let h := (s.plane (17 * engine + plane)).hours s.life.now
  if s.fwUp = false ∨ 2304 ≤ engine ∨ 17 ≤ plane ∨ h < 720 then .next s
  else
    let w : Work := { prio := if 888 < h then 6 else 7, engine := engine, plane := plane, op := .levelRead, why := .sweep }
    let s0 := s.wake
    let s1 := { s0 with upk := { s0.upk with queue := s0.upk.queue.filter (fun v => decide ({ v with prio := w.prio } ≠ w)) } }
    .next (s1.pushWork w)

/-- Work that keeps a panel away: an operation in progress or to come that made it so, a retry, a swap that has rewritten it, a
plane beyond 2.4 %, a spare that is being written in its place. -/
def State.staysAway (s : State) (e : Nat) : Bool :=
  (s.op e).isSome || s.moreOf e .recovery || s.moreOf e .partner || s.moreOf e .spare || s.moreOf e .swap || s.moreOf e .replan
    || s.moreOf e .degraded || s.upk.queue.any (fun w => decide (w.engine = e) && w.retry)
    || (match s.img.swap with | some w => w.panels.contains e && !w.todo.contains e | none => false)
    || (List.range 16).any (fun lp => decide (Tab.get 0 (s.engine e).cond lp = 3))
    || decide ((s.panel (9 * (e / 9) + 8)).replaces = e % 9 ∧ (s.panel (9 * (e / 9) + 8)).pstate = 1)

/-- The other plane of a pair (R166). -/
def partnerOf (p : Nat) : Nat := if p % 2 = 0 then p + 1 else p - 1

/-- Partners in use, of planes operated on while the panel was away, whose cells do not pass verify (R185). -/
def State.badPartners (s : State) (e : Nat) : List Nat :=
  (s.upk.operated.filter (fun k => decide (k / 17 = e) && decide (k % 17 ≠ 16))).filterMap (fun k =>
    let q := partnerOf (k % 17)
    if (s.plane (17 * e + q)).state = 1 ∧ (s.cells (17 * e + q)).verified (s.blockAt e ((s.logical e q).getD 31)).file.codebook = false then some q
    else none)

/-- PANEL_RETURN: at a step boundary the panel returns to service, once every plane operated on and the partner of each has
passed, and its away copy is released; a partner that does not pass is touched up first. A spare engine whose planes are all
written takes the place of the panel it replaces (R180, R185). -/
def execPanelReturn (engine : Nat) (s : State) : Outc :=
  let p := s.panel engine
  if engine % 9 = 8 ∧ p.pstate = 1 ∧ p.replaces ≤ 7 then
    (if s.moreOf engine .spare = true ∨ s.panelBusy (9 * (engine / 9) + p.replaces) = true then .next s else .next (s.engineSpared engine))
  else if p.pstate = 2 ∧ s.staysAway engine = false ∧ s.panelBusy engine = false then
    let bad := s.badPartners engine
    let s1 : State := { s with upk := { s.upk with operated := s.upk.operated.filter (fun k => decide (k / 17 ≠ engine)) } }
    if bad = [] then .next ((s1.updPanel engine (fun p => { p with pstate := 0, awayWhy := 0 })).releasePanel engine)
    else .next (s1.each bad (fun s q => s.pushWork { prio := 1, engine := engine, plane := q, op := .touchUp, why := .partner }))
  else .next s

/-- UPKEEP_TABLE_WRITE: within 10 s of a completed operation. -/
def execUpkeepTableWrite (s : State) : Outc := if s.fwUp = true ∧ s.upk.dirty = true then .next s.storeTables else .next s

end Sys2Proof.Machine
end

