-- ==== Sys2Proof/Machine/Session.lean ====
section
/-! DEFINITION. Sessions: handshakes, protected records, the one way in which a command of a session is executed and
answered, keep-alive, resends and ends (R390 to R407, R416, R418 to R425, R487). -/

namespace Sys2Proof.Machine

open Sys2Proof

/-! ## Handshakes, R394, R397 to R401 -/

/-- The handshake with an id. -/
def State.hs (s : State) (hsid : Nat) : Option Handshake := s.comms.handshakes.find? (fun h => h.hsid == hsid)

/-- Drop a handshake. -/
def State.dropHs (s : State) (hsid : Nat) : State :=
  { s with comms := { s.comms with handshakes := s.comms.handshakes.filter (fun h => h.hsid != hsid) } }

/-- Replace or add a handshake. -/
def State.putHs (s : State) (h : Handshake) : State :=
  let l := s.comms.handshakes
  let l1 := if l.any (fun x => x.hsid == h.hsid) then l.map (fun x => if x.hsid = h.hsid then h else x) else l ++ [h]
  { s with comms := { s.comms with handshakes := l1 } }

/-- The bytes of a message of a handshake once every fragment has arrived. -/
def Handshake.message (h : Handshake) (msg : Nat) : Option (List Byte) :=
  let part := fun i => h.parts.find? (fun p => decide (p.1 = msg ∧ p.2.1 = i))
  if (List.range h.frags).all (fun i => (part i).isSome) then
    some ((List.range h.frags).flatMap (fun i => match part i with | some p => p.2.2 | none => []))
  else none

/-- HANDSHAKE_RECORD: a fragment of OPEN (1) or CONFIRM (3) is kept; an OPEN beyond 8 handshakes in progress is ignored.
A packet at a command port ends Rest (R68). -/
def execHandshakeRecord (port addr msg session hsid frag frags : Nat) (data : List Byte) (s0 : State) : Outc :=
  let s := s0.wake
  let form := decide (1 ≤ frags ∧ frags ≤ 32 ∧ frag < frags) && decide (data.length ≤ 1200)
    && (decide (frag + 1 = frags) || decide (data.length = 1200))
  if s.portsUp = false ∨ form = false then .next s
  else match s.hs hsid with
    | none =>
      if msg = 1 ∧ session = 0xFFFF ∧ s.comms.handshakes.length < 8 then
        .next (s.putHs { hsid := hsid, addr := addr, port := port, parts := [(1, frag, data)], frags := frags })
      else .next s
    | some h =>
      if (msg = 1 ∧ session = 0xFFFF ∧ h.session = none ∧ h.frags = frags) ∨ (msg = 3 ∧ h.session = some session) then
        .next (s.putHs { h with
          parts := (h.parts.filter (fun p => !(decide (p.1 = msg ∧ p.2.1 = frag)))) ++ [(msg, frag, data)], frags := frags })
      else .next s

/-- The client anchor at which a chain ends, where the module accepts the chain (R399). -/
def State.acceptsChain (s : State) (c : Chain) : Option Anchor :=
  if c.sigsOk = false ∨ c.usageOk = false ∨ c.count = 0 ∨ 4 < c.count ∨ c.serials.any (fun n => s.trust.deny.contains n) = true then none
  else c.anchor.bind (fun i => s.trust.anchors.find? (fun a => decide (a.index = i ∧ a.kind = 0)))

/-- A session number that is neither open nor assigned. -/
def State.freeSession (s : State) : Option Nat :=
  (List.range 128).find? (fun n => (s.sess n).isNone && !s.comms.handshakes.any (fun h => h.session == some n))

/-- The ACCEPT message up to SIG (Table 11.3). -/
def acceptBody (draws : Nat) (open_ : List Byte) : List Byte :=
  be 32 (Config.random draws) ++ Config.kemCipher ((open_.drop 32).take 1184) (Config.random (draws + 1))
    ++ be 4 Config.identityChain.length ++ Config.identityChain

/-- The ACCEPT message: the module signs TH1 (R397). -/
def acceptMessage (draws : Nat) (open_ : List Byte) : List Byte :=
  acceptBody draws open_ ++ Config.sign (Config.sha3 (open_ ++ acceptBody draws open_))

/-- A label's ASCII bytes. -/
def ascii (t : String) : List Byte := t.toList.map (fun c => BitVec.ofNat 8 c.toNat)

/-- The keys and salts of the session that a handshake opens (R398). -/
def sessionKeys (draws : Nat) (open_ : List Byte) : SessionKeys :=
  let th1 := Config.sha3 (open_ ++ acceptBody draws open_)
  let th2 := be 32 (Config.sha3 (be 32 th1 ++ Config.sign th1))
  let of_ := fun (label : String) =>
    be 32 (Config.sha3 (Config.kemSecret ((open_.drop 32).take 1184) (Config.random (draws + 1)) ++ th2 ++ ascii label))
  { inKey := of_ "SP7264 c2m", outKey := of_ "SP7264 m2c", inSalt := (of_ "SP7264 n-c2m").take 4, outSalt := (of_ "SP7264 n-m2c").take 4 }

/-- OPEN: the whole message has arrived and the crypto unit has checked the chain; ACCEPT answers, or the handshake ends
without a reply (R399). -/
def execOpenMsg (hsid : Nat) (chain : Chain) (s : State) : Outc :=
  match s.hs hsid with
  | none => .next s
  | some h =>
    match h.message 1 with
    | none => .next s
    | some m =>
      if s.portsUp = false ∨ h.session.isSome = true then .next s
      else match s.acceptsChain chain, s.freeSession with
        | some a, some n =>
          .next ((({ s with draws := s.draws + 2 }).putHs
            { h with session := some n, chain := chain, role := a.role, keys := sessionKeys s.draws m, parts := [] }).emit
              (.accept h.port h.addr hsid n (acceptMessage s.draws m)))
        | _, _ => .next (s.dropHs hsid)

/-- The reply to CONFIRM: opcode 0x0003, SEQ 0, OK (R398). -/
def openedReply (stamp : Nat) : Reply := { opcode := 0x0003, seq := 0, status := .ok, commit := stamp }

/-- CONFIRM: the whole message has arrived and its signature is checked; the session opens (R398). -/
def execConfirm (hsid : Nat) (sigOk : Bool) (s : State) : Outc :=
  match s.hs hsid with
  | none => .next s
  | some h =>
    match h.session, h.message 3 with
    | some n, some _ =>
      if s.portsUp = false then .next s
      else if sigOk then
        .next (((s.dropHs hsid).setSess n (some
          { role := h.role, anchor := h.chain.anchor.getD 0, serials := h.chain.serials, port := h.port, addr := h.addr, keys := h.keys })).sendReply
            n (openedReply s.life.commit))
      else .next (s.dropHs hsid)
    | _, _ => .next s

/-- HANDSHAKE_TIMEOUT: a handshake not complete within 2 s is dropped (R401). -/
def execHandshakeTimeout (hsid : Nat) (s : State) : Outc := .next (s.dropHs hsid)

/-! ## How a command is executed, R402 to R406 -/

/-- What a command answers: status, DETAIL, reply TLVs, and the state it leaves where it changes something. -/
structure CmdOut where
  st : Status := .ok
  detail : Nat := 0
  tlvs : List Tlv := []
  next : Option State := none

/-- Reply TLVs, numbered from 1 in the order of Table 11.8 (R403). -/
def tlvsFrom : Nat → List (List Byte) → List Tlv
  | _, [] => []
  | n, v :: vs => (n, v) :: tlvsFrom (n + 1) vs

/-- A read. -/
def CmdOut.read (vs : List (List Byte)) : CmdOut := { tlvs := tlvsFrom 1 vs }
/-- A change of state. -/
def CmdOut.done (t : State) (vs : List (List Byte)) : CmdOut := { tlvs := tlvsFrom 1 vs, next := some t }
/-- A change whose end a notify reports. -/
def CmdOut.accepted (t : State) (vs : List (List Byte)) : CmdOut := { st := .accepted, tlvs := tlvsFrom 1 vs, next := some t }
/-- A refusal. -/
def CmdOut.no (st : Status) : CmdOut := { st := st }
/-- BAD_PARAM at a parameter. -/
def CmdOut.bad (p : Packet) (ty : Nat) : CmdOut := { st := .badParam, detail := p.off ty }

/-- Observer reads: the commands that the boot state does not refuse, beside 0x0Cxx (R487). -/
def isRead (op : Nat) : Bool :=
  op ∈ [0x0004, 0x0005, 0x0006, 0x0008, 0x0101, 0x0102, 0x0103, 0x0104, 0x0105, 0x0106, 0x0204, 0x0206, 0x0207, 0x0302, 0x0305, 0x0306,
    0x0404, 0x0407, 0x0501, 0x0504, 0x0602, 0x0607, 0x0702, 0x0802, 0x0901, 0x0903, 0x0A01, 0x0A02, 0x0B01, 0x0B02, 0x0B03,
    0x0C05]

/-- A refusal that does not depend on the command's own rules: role (R400), lead (R416), form (R403), boot (R487). -/
def State.refuses (s : State) (x : Session) (p : Packet) : Option (Status × Nat) :=
  match cmdRow p.opcode with
  | none => some (.badOpcode, 0)
  | some row =>
    if x.role < row.role then some (.notPermitted, 0)
    else match formBad row p with
      | some d => some (.badParam, d)
      | none =>
        if s.isReady = false ∧ isRead p.opcode = false ∧ p.opcode / 256 ≠ 0x0C then some (.busy, 0)
        else if row.lead = true ∧ s.isLead = false then some (.notPermitted, 0x01000000 + s.pack.lead)
        else none

/-- The reply of a command. -/
def replyOf (p : Packet) (st : Status) (detail : Nat) (tlvs : List Tlv) (stamp : Nat) : Reply :=
  { opcode := p.opcode, ctx := p.ctx, seq := p.seq, status := st, detail := detail, commit := stamp, tlvs := tlvs }

/-- A reply leaves and is kept among the session's last 64 (R405). -/
def State.answer (s : State) (sid : Nat) (r : Reply) : State :=
  (s.sendReply sid r).updSess sid (fun x => { x with replies := (r :: x.replies).take 64 })

/-- The session's next command leaves its ring. -/
def State.popCmd (s : State) (sid : Nat) (p : Packet) : State :=
  s.updSess sid (fun x => { x with ring := x.ring.filter (fun q => q.seq != p.seq), nextSeq := (x.nextSeq + 1) % 2 ^ 32 })

/-- The command at the head of a session's ring: the one whose SEQ is next (R404). -/
def Session.headCmd (x : Session) : Option Packet := x.ring.find? (fun p => p.seq == x.nextSeq)

/-- Commands at the head whose opcode no rule gives are refused at once (R408). -/
def State.drainBad (s : State) (sid : Nat) : Nat → State
  | 0 => s
  | n + 1 =>
    match (s.sess sid).bind Session.headCmd with
    | none => s
    | some p =>
      if (cmdRow p.opcode).isNone then
        ((s.popCmd sid p).answer sid (replyOf p .badOpcode 0 [] s.life.commit)).drainBad sid n
      else s

/-- Put the reply before what a command's later effects send (R422), and keep it. -/
def State.replyAt (s t : State) (sid recno port : Nat) (r : Reply) : State :=
  ({ t with out := s.out ++ [Out.reply sid recno port r] ++ t.out.drop s.out.length }).updSess sid
    (fun x => { x with replies := (r :: x.replies).take 64 })

/-- The head command of a session, where it has the opcode of a row and firmware runs. -/
def State.headOf (s : State) (op sid : Nat) : Option (Session × Packet) :=
  if s.portsUp then
    match s.sess sid with
    | none => none
    | some x =>
      match x.headCmd with
      | some p => if p.opcode = op then some (x, p) else none
      | none => none
  else none

/-- Execute the head command and answer it. `wr` says that the command changes the committed state: it is then one commit,
whose stamp the reply carries; a command that changes nothing makes none (R411, R423, R425). -/
def State.runCmd (s : State) (op : Nat) (wr : Bool) (sid : Nat) (f : State → Packet → CmdOut) : State :=
  match s.headOf op sid with
  | none => s
  | some (x, p) =>
    let s0 := s.popCmd sid p
    match s.refuses x p with
    | some (st, d) => (s0.answer sid (replyOf p st d [] s0.life.commit)).drainBad sid 16
    | none =>
      let hold := fun (t : State) => t.updSess sid (fun y => { y with txNext := y.txNext + 1 })
      let base := if wr then s0.commit else s0
      let r := f (hold base) p
      let b := if r.st.code < 0x10 ∧ r.next.isSome = true then base else s0
      let r2 := if r.st.code < 0x10 then r else f (hold s0) p
      let t := match r2.next with | some t => t | none => hold s0
      (s0.replyAt t sid x.txNext (s.outPort x) (replyOf p r2.st r2.detail r2.tlvs b.life.commit)).drainBad sid 16

/-! ## Protected records, R395, R396 -/

/-- A record number is acceptable: not yet seen, not lower than the highest minus 1,024. -/
def Session.fresh (x : Session) (recno : Nat) : Bool :=
  decide (1 ≤ recno ∧ x.rxHigh ≤ recno + 1024) && !x.rxSeen.contains recno

/-- The record number is seen. -/
def Session.see (x : Session) (recno port addr : Nat) : Session :=
  let h := max x.rxHigh recno
  { x with rxHigh := h, rxSeen := recno :: x.rxSeen.filter (fun n => decide (h ≤ n + 1024)), port := port, addr := addr }

/-- A command packet arrives: executed before, its cached reply goes again; within reach, it waits its turn; else it is
dropped (R404, R405). -/
def State.takePacket (s : State) (sid : Nat) (x : Session) (p : Packet) : State :=
  let ahead := (p.seq + 2 ^ 32 - x.nextSeq) % 2 ^ 32
  if ahead < 16 then
    if x.ring.any (fun q => q.seq == p.seq) then s
    else (s.updSess sid (fun y => { y with ring := y.ring ++ [p] })).drainBad sid 16
  else match x.replies.find? (fun r => r.seq == p.seq) with
    | some r => s.sendReply sid r
    | none => s

/-- PROTECTED_RECORD: a record arrives for a session; the crypto unit has checked its tag. A packet whose header does not
read as Table 11.5 is dropped. A packet at a command port ends Rest (R68). -/
def execProtectedRecord (port addr session recno : Nat) (tagOk : Bool) (payload : List Byte) (s0 : State) : Outc :=
  let s := s0.wake
  if s.portsUp = false then .next s
  else match s.sess session with
    | none =>
      if s.comms.refusedTo.contains addr then .next s
      else .next (({ s with comms := { s.comms with refusedTo := addr :: s.comms.refusedTo } }).emit (.refusal port addr session))
    | some x =>
      if tagOk = false ∨ x.fresh recno = false then
        .next { s with comms := { s.comms with dropped := s.comms.dropped + 1 } }
      else
        let y := x.see recno port addr
        let s1 := s.setSess session (some y)
        if headerOk payload = false then .next s1
        else if isBulk payload then
          (if y.role < 2 ∨ ofBytes ((payload.drop 6).take 2) ≠ 7 ∨ payload.length < 32 then .next s1
           else .next (s1.setSess session (some { y with bulk := y.bulk ++
             [(ofBytes ((payload.drop 12).take 4), ofBytes ((payload.drop 24).take 8), payload.drop 32)] })))
        else .next (s1.takePacket session y (readPacket payload))

/-- SESSION_IDLE_TIMEOUT: 30 s without a valid record (R401). -/
def execSessionIdleTimeout (sid : Nat) (s : State) : Outc :=
  if s.portsUp then .next (s.endSession sid 2) else .next s

/-- Send notifies again. -/
def State.resendAll (s : State) (sid : Nat) : List Notify → State
  | [] => s
  | n :: ns => (s.sendNotify sid n).resendAll sid ns

/-- NOTIFY_RESEND: 20 ms have passed; notifies not covered go again (R421). -/
def execNotifyResend (sid : Nat) (s : State) : Outc :=
  if s.portsUp then
    (match s.sess sid with
     | some x => .next (s.resendAll sid x.notifies)
     | none => .next s)
  else .next s

/-- PRP_SUPERVISION: in PRP mode a supervision frame leaves both ports every 2 s (R393). -/
def execPrpSupervision (s : State) : Outc :=
  if s.portsUp = true ∧ s.comms.prp = true then .next ((s.emit (.supervision 4)).emit (.supervision 5)) else .next s

/-! ## The commands of the 0x00xx group -/

/-- KEEPALIVE. -/
def execKeepalive (sid : Nat) (s : State) : Outc := .next (s.runCmd 0x0004 false sid (fun _ _ => .read []))

/-- CLOSE: the session ends after the reply (R401). -/
def execClose (sid : Nat) (s : State) : Outc :=
  .next (s.runCmd 0x0005 true sid (fun s _ => .done (s.endSession sid 1) []))

/-- NOTIFY_ACK: notifies up to NSEQ leave the ring (R421). -/
def execNotifyAck (sid : Nat) (s : State) : Outc :=
  .next (s.runCmd 0x0006 false sid (fun s p =>
    .done (s.updSess sid (fun x => { x with notifies := x.notifies.filter (fun n =>
      decide ((2 ^ 31 : Nat) ≤ (p.num 1 + 2 ^ 32 - n.nseq) % 2 ^ 32)) })) []))

/-- SESSION_INFO. -/
def execSessionInfo (sid : Nat) (s : State) : Outc :=
  .next (s.runCmd 0x0008 false sid (fun s _ =>
    match s.sess sid with
    | some x => .read [be 2 sid, be 1 x.role, be 4 x.nextSeq, be 2 x.notifies.length, be 4 x.nlost]
    | none => .read []))

end Sys2Proof.Machine
end

