-- ==== Sys2Proof/Machine/ImageChecks.lean ====
section
/-! DEFINITION. What the module checks of a model image before it accepts it: Table 5.16 in order (R19 to R27, R43, R46,
R77, R80, R82, R102, R114, R119, R123, R136, R155, R157, R201 to R205, R221, R232, R247, R253, R274, R342, R363, R376,
R571). -/

namespace Sys2Proof.Machine

open Sys2Proof

/-- 2^30. -/
def gi : Nat := 2 ^ 30

/-- A power of two within a range. -/
def pow2In (lo hi n : Nat) : Bool := decide (lo ≤ n ∧ n ≤ hi) && (List.range 32).any (fun k => 2 ^ k == n)

/-- A positive finite binary32 value. -/
def posFin (x : F32) : Bool := finite32 x && flt 0 x

/-- A convolution of 1 to 8 taps and a recurrence of 1 to 128 states that the member declares, with A for whole channels
(R18, R19, R155). -/
def layerOk (d : MemberDesc) (l : LayerConst) : Bool :=
  decide (1 ≤ l.width ∧ l.width ≤ 8) && decide (l.taps.length % l.width = 0)
    && (l.a.isEmpty || (decide (1 ≤ l.n ∧ l.n ≤ 128 ∧ l.n ≤ d.maxN) && decide (l.a.length % l.n = 0 ∧ l.a.length ≤ d.width * l.n)
          && decide (l.a.length / l.n ≤ l.d.length)))

/-- Codes of a digital weight block in bytes. -/
def DigBlock.codeBytes (b : DigBlock) : Nat :=
  let h := b.header.toNat
  bits h 26 16 * bits h 15 5 * (if bits h 31 30 = 0 then 128 else 256)

/-- R19, R20, R22 to R24, R46, R571: the description of member `k`. A member holds what its description says: layers whose
constants lie within it, array blocks of 262,144 weights, digital codes. A digital-only member holds no array block (R46). -/
def descMemberOk (both : Bool) (k : Nat) (m : Member) : Bool :=
  let d := m.desc
  decide (d.kind = k ∧ d.flags < 2) && d.reservedZero
    && decide (1 ≤ d.layers ∧ d.layers ≤ 128) && decide (256 ≤ d.width ∧ d.width ≤ 8192 ∧ d.width % 256 = 0)
    && decide (1 ≤ d.heads ∧ d.heads ≤ 32) && decide (d.maxN ≤ 128) && decide (d.window ≤ 1024) && decide (d.globalCtx ≤ 8192)
    && (decide (d.flags % 2 = 1) || (decide (d.globalCtx = 0) && m.opsInFamily))
    && decide (d.digBytes ≤ 64 * gi) && decide ((m.digital.map DigBlock.codeBytes).sum ≤ 64 * gi)
    && decide (m.blocks.length * 262144 ≤ if k = 0 then 2 ^ 29 else (if both then 15 else 16) * gi / 2)
    && (decide (d.flags % 2 = 0) || (m.blocks.isEmpty && m.placement.all (fun p => decide (p.home = 1)) && decide (d.arrayW = 0)))
    && m.consts.layers.all (layerOk d)
    && (if k = 0 then decide (d.stateBytes ≤ 4 * 2 ^ 20) && decide (d.arrayW ≤ 2 ^ 29) && decide (d.digBytes = 0)
        else decide (2 * d.arrayW ≤ (if both then 15 else 16) * gi))
    && (if k = 0 then decide (1 ≤ d.period ∧ d.period ≤ 65536) && decide (d.allow ≤ 4 * d.period)
            && decide (1 ≤ d.interval ∧ d.interval ≤ 65536)
        else decide (d.period = 0 ∧ d.allow = 0) && decide (4096 ≤ d.interval ∧ d.interval ≤ 16777216))
    && decide (1 ≤ d.lookback ∧ d.lookback ≤ wholeHistory) && decide (d.after ≤ 65536)
    && pow2In 16 1024 d.p && decide (256 ≤ d.tokenW ∧ d.tokenW ≤ 8192 ∧ d.tokenW % 256 = 0)
    && decide (1 ≤ d.streams ∧ d.streams ≤ 32) && decide (d.refStream < d.streams) && decide (1 ≤ d.d)

/-- R27: the members of one image declare one front end. -/
def sameFront (a b : MemberDesc) : Bool :=
  decide (a.p = b.p ∧ a.tokenW = b.tokenW ∧ a.d = b.d ∧ a.streams = b.streams ∧ a.refStream = b.refStream)

/-- R203 and the clusters of R23 and R24: a member's placement map. -/
def placementOk (both : Bool) (k : Nat) (m : Member) : Bool :=
  let clusterOk := fun c => if k = 0 then decide (c < 2) else decide (c < 32) && (!both || decide (2 ≤ c))
  m.placement.all (fun p => p.reservedZero && decide (p.home ≤ 1)
      && (if p.home = 0 then locOk p.loc.toNat 6 && decide (locToPlane p.loc.toNat ≤ 15) && decide (bits p.loc.toNat 19 16 ≤ 7)
            && clusterOk (locToCluster p.loc.toNat) && decide (p.off = 0)
          else decide (k ≠ 0) && decide (p.off % 256 = 0)))
    && ((m.placement.map (·.block)).zip ((m.placement.map (·.block)).drop 1)).all (fun p => decide (p.1 < p.2))
    && decide (m.blocks.length = (m.placement.filter (fun p => decide (p.home = 0))).length)
    && decide (((m.placement.filter (fun p => decide (p.home = 0))).map (·.loc)).Nodup)

/-- Column sum of a block: the codebook values of a column over the rows of a row group (R80). -/
def colSum (b : ArrayBlock) (g j : Nat) : Int :=
  let n := rowsOf b.file.gsize
  ((List.range n).map (fun r => b.file.codebook.getD (Tab.get 0 b.codes (256 * (g * n + r) + j)) 0)).sum

/-- R77, R80, R82 and the reserved values of Table 3.2 on one array block. -/
def arrayBlockOk (b : ArrayBlock) : Bool :=
  let f := b.file
  let cb := f.codebook
  let priv := (List.range 32).filter (fun g => f.mask.getLsbD g)
  decide (cb.length = 16) && cb.all (fun v => decide (-127 ≤ v ∧ v ≤ 127)) && (cb.zip (cb.drop 1)).all (fun p => decide (p.1 ≤ p.2))
    && decide (cb.getD 0 0 < cb.getD 15 0)
    && decide (f.gsize ≤ 2) && decide (bits f.setting.toNat 6 5 ≤ 2) && decide (bits f.setting.toNat 1 0 = 0)
    && decide (f.vmax = max (cb.getD 0 0).natAbs (cb.getD 15 0).natAbs)
    && priv.all (fun g => decide (g < f.groups)) && decide (8 * priv.length ≤ f.groups)
    && f.scales.all (fun e => (val16 e.2).isFin)
    && b.codes.all (fun e => decide (e.1 < 262144 ∧ e.2 < 16))
    && (f.symonly || (List.range f.groups).all (fun g => (List.range 256).all (fun j => decide (Tab.get 0 f.colSums (256 * g + j) = colSum b g j))))

/-- R119 on a digital weight block. -/
def digBlockOk (b : DigBlock) : Bool :=
  let h := b.header.toNat
  let t := bits h 29 27
  let r := bits h 26 16
  let c := bits h 15 5
  decide (bits h 31 30 ≤ 1) && decide (t ≤ 4) && decide (1 ≤ r ∧ r ≤ 1024) && decide (1 ≤ c ∧ c ≤ 1024) && decide (r * c ≤ 1024)
    && decide (bits h 4 0 = 0) && decide (b.entries.length = if bits h 31 30 = 0 then 16 else 256)
    && b.entries.all (fun e =>
        match t with
        | 1 => (valE4 e).isFin
        | 2 => (valE5 e).isFin
        | 3 => (valBf e).isFin
        | 4 => decide (-8 ≤ signed 8 e ∧ signed 8 e ≤ 7)
        | _ => true)

/-- Table 4.1: the formats of each place. -/
def Place.formats : Place → List Fmt
  | .tokens => [.int8]
  | .panelInput => [.int8, .uint8, .int4, .uint4]
  | .panelWeight => [.code4]
  | .panelAcc => [.int32]
  | .digitalWeight => [.code4, .code8]
  | .macWeight => [.int8, .int4, .e4m3, .e5m2, .bf16]
  | .macInput => [.int8, .int4, .e4m3, .e5m2, .bf16, .uint8]
  | .macAcc => [.int32, .binary32]
  | .engineOut => [.int8, .uint8]
  | .coreOut => [.int8, .uint8, .int4, .uint4, .int16]
  | .vector => [.binary32]
  | .vectorHalf => [.bf16]
  | .state => [.binary32]
  | .tails => [.int8, .int16, .e4m3, .e5m2, .binary32]
  | .groupScale => [.fp16]
  | .multiplier => [.binary32]
  | .head => [.binary32]

/-- R114 over a member: its declared formats, those of its convolution tails and of its requantisation points. -/
def formatsOk (m : Member) : Bool :=
  m.formats.all (fun x => x.1.formats.contains x.2) && m.consts.layers.all (fun l => Place.tails.formats.contains l.tail)
    && m.points.all (fun p => decide (p.fmt ≤ if p.coreKind then 4 else 1))

/-- R115: the zero point of a requantisation point: 0 for a symmetric format, in range for UINT8 and UINT4. -/
def zeroOk (p : ReqPoint) : Bool :=
  match p.fmt with
  | 1 => decide (p.zout ≤ 255)
  | 3 => decide (p.zout ≤ 15)
  | _ => p.zout == 0

/-- R123: a file of core SRAM lies in its SRAM, and the multipliers in it are finite and positive. -/
def fileOk (f : CoreFile) : Bool :=
  decide (f.core < 256) && decide (f.off + f.bytes.length ≤ 524288) &&
  (match f.kind with
   | .requant | .dequant => decide (f.bytes.length % 4 = 0) && (fieldsAt f.bytes 0 4 (f.bytes.length / 4)).all (fun x => posFin (BitVec.ofNat 32 x))
   | .sign | .gain => true)

/-- R136: every step that reads an adaptive point is a dequantising vector step or a panel step. -/
def Image.readersOk (i : Image) (p : ReqPoint) : Bool :=
  !p.adapt || p.readers.all (fun r => match i.readerRec r with
    | some x => rKind x == 0 || (rKind x == 2 && rf x 247 240 == 0x20)
    | none => false)

/-- R115, R123, R136, R155, R157: scales and layer constants. -/
def Image.numbersOk (i : Image) (m : Member) : Bool :=
  formatsOk m && m.files.all fileOk && m.points.all (fun p => zeroOk p && i.readersOk p)
    && m.consts.layers.all (fun l => l.a.all (fun x => finite32 x && flt x 0) && posFin l.eps && (l.tailMults ++ l.tailDeq).all posFin)

/-- R342: the replay span of an inspect member. -/
def replayOk (m : Member) : Bool := pow2In 1024 262144 m.consts.replaySpan && decide (2 * m.desc.window ≤ m.consts.replaySpan)

/-- R43: an advisory rule. -/
def ruleOk (i : Image) (r : Rule) : Bool :=
  (match ((i.headsOf r.member)[r.head]?) with | some h => decide (r.element < h.count) | none => false)
    && decide (r.member ≤ 1) && decide (1 ≤ r.assertCount ∧ r.assertCount ≤ 255) && decide (1 ≤ r.releaseCount ∧ r.releaseCount ≤ 255)
    && decide (r.minHold ≤ 65536)
    && !(if r.above then flt r.assertAt r.releaseAt else flt r.releaseAt r.assertAt)

/-- R202: sections of known types and members, one of each that each member must have, none overlapping another, the header,
the section table or the trailer, each as long as what it holds. -/
def sectionsOk (i : Image) : Bool :=
  let ones := [0x0001, 0x0002, 0x0003, 0x0004, 0x0006, 0x0007, 0x0008, 0x0009, 0x000B]
  let has := fun k ty => (i.sections.filter (fun x => decide (x.type = ty ∧ (x.member = k ∨ x.member = 255)))).length
  decide (1 ≤ i.sections.length ∧ i.sections.length ≤ 1024)
    && i.layoutOk
    && i.sections.all (fun x => decide (1 ≤ x.type ∧ x.type ≤ 0x000B) && decide (x.member ≤ 1 ∨ x.member = 255) && decide (x.offset % 4096 = 0)
        && decide (256 + 64 * i.sections.length ≤ x.offset ∧ x.offset + x.length ≤ i.signed))
    && i.members.all (fun m => ones.all (fun ty => has m.1 ty == 1))
    && (List.range i.sections.length).all (fun a => (List.range i.sections.length).all (fun b =>
        match i.sections[a]?, i.sections[b]? with
        | some x, some y => decide (a = b ∨ x.offset + x.length ≤ y.offset ∨ y.offset + y.length ≤ x.offset)
        | _, _ => true))

/-! ## Programs, rings, descriptors: R221, R232, R247, R253 -/

/-- A member of the image by its number. -/
def Image.memberNo (i : Image) (k : Nat) : Option Member := if k = 0 then i.watch else i.inspect

/-- What the checks of a vector step need of the constants that its PARAM names. -/
def Image.layerOf (i : Image) (k n : Nat) : LayerSize :=
  match (i.memberNo k).bind (fun m => m.consts.layers[n]?) with
  | some l => l.size
  | none => {}

/-- A requantise step is that of its point: it runs where the point runs, in its format, with its zero point, over channels
that it has (R115, R131). -/
def Image.pointOk (i : Image) (k core : Nat) (r : BitVec 256) : Bool :=
  rKind r != 4 ||
  (match (i.memberNo k).bind (fun m => m.points.find? (fun p => p.point == rf r 232 221)) with
   | some p => decide (p.core = core) && p.coreKind == (rf r 247 247 == 1) && decide (p.fmt = rf r 243 241)
      && decide (p.zout = rf r 240 233) && decide (rf r 147 132 ≤ p.channels)
   | none => false)

/-- R253 on a program; a digital-only member runs no panel step (R46), and a requantise step is that of its point. -/
def Image.programOk (i : Image) (p : Program) : Bool :=
  let k := kindOf p.ctx
  let n := p.records.length
  decide (p.thread < 4096) && decide (1 ≤ n)
    && (List.range n).all (fun j =>
      match p.records[j]? with
      | none => true
      | some r =>
        recordOk r (i.layerOf k) (i.planeKind (p.thread / 16)) && i.pointOk k (p.thread / 16) r && (rEnd r == decide (j + 1 = n))
          && !(rKind r == 0 && (match i.memberNo k with | some m => decide (m.desc.flags % 2 = 1) | none => true))
          && (recordIds r).all (fun id => i.counters.any (fun d => decide (d.member = k ∧ d.id = id))))

/-- The image's history region where `out` retired banks of 2 GiB are laid out of the map (R25, R450). -/
def Image.histRegion (i : Image) (out : Nat) : Nat × Nat :=
  let b := imageBase + (i.imageArea + 4095) / 4096 * 4096
  (b, b + (min (96 * gi) ((120 - 2 * out) * gi - i.imageArea)) / max 1 i.front.tokenW * i.front.tokenW)

/-- A unit field names a unit of its tier (Table 6.5); the spare engine's SRAM is not addressable (R52). -/
def unitOk (tier unit : Nat) : Bool :=
  match tier with
  | 0 => locOk unit 5 && decide (bits unit 19 16 ≤ 7)
  | 1 => locOk unit 4
  | 2 => locOk unit 2
  | 6 => unit % 2 ^ 26 == 0
  | _ => unit == 0

/-- An endpoint known at load lies within its unit or permitted region. -/
def Image.endIn (i : Image) (out tier a size count stride : Nat) : Bool :=
  match tier with
  | 0 => within a size count stride 0 65536
  | 1 => within a size count stride 0 524288
  | 2 => within a size count stride 0 4194304
  | 3 => within a size count stride 0 0x3800000
  | _ => within a size count stride imageBase (i.histRegion out).1
      || (tier == 4 && within a size count stride (i.histRegion out).1 (i.histRegion out).2)

/-- R232 on a descriptor of the image. -/
def Image.descriptorOk (i : Image) (out : Nat) (d : BitVec 512) : Bool :=
  let srel := df d 505 505 == 1
  let drel := df d 504 504 == 1
  let src := dMode d != 2
  descOk d && (!src || unitOk (dStier d) (dSunit d)) && unitOk (dDtier d) (dDunit d)
    && (srel || !dHist d || (let (lo, hi) := i.histRegion out
          decide (lo ≤ df d 431 392 ∧ df d 431 392 < hi) && decide (dSize d * dCount d ≤ hi - lo)))
    && (srel || !src || dHist d || i.endIn out (dStier d) (df d 431 392) (dSize d) (dCount d) (df d 303 272))
    && (drel || i.endIn out (dDtier d) (df d 391 352) (dSize d) (dCount d) (df d 271 240))
    && !(dMode d == 0 && !srel && !drel && dStier d == dDtier d && dSunit d == dDunit d
          && (List.range (dCount d)).any (fun a => (List.range (dCount d)).any (fun b =>
            let x := elemAt (df d 431 392) (df d 303 272) a
            let y := elemAt (df d 391 352) (df d 271 240) b
            decide (x < y + dSize d ∧ y < x + dSize d))))

/-- R221, R247 over the whole image. -/
def Image.programsOk (i : Image) (out : Nat) : Bool :=
  i.programs.all i.programOk
    && decide ((i.programs.map (·.thread)).Nodup)
    && (List.range 256).all (fun c =>
        decide (((i.programs.filter (fun p => decide (p.thread / 16 = c))).map (fun p => p.records.length)).sum ≤ 2048))
    && decide ((i.rings.map (·.ring)).Nodup)
    && i.rings.all (fun r => decide (r.ring < 2048 ∧ r.ring % 64 < 56) && decide (1 ≤ r.descs.length ∧ r.descs.length ≤ 1024)
        && r.descs.all (i.descriptorOk out))
    && (List.range 32).all (fun c =>
        decide (((i.rings.filter (fun r => decide (r.ring / 64 = c))).map (fun r => r.descs.length)).sum ≤ 3584))

/-- R274 and the ids of R263. -/
def Image.countersOk (i : Image) : Bool :=
  i.counters.all (fun d => decide (d.member ≤ 1 ∧ d.id < 4096 ∧ d.home < 32))
    && [0, 1].all (fun k =>
        decide ((i.counters.filter (fun d => decide (d.member = k) && d.exported)).length ≤ 256)
          && decide (((i.counters.filter (fun d => decide (d.member = k))).map (·.id)).Nodup))

/-- R363 and R376: the front end; limits of Table 10.5 and R386. -/
def Image.frontOk (i : Image) : Bool :=
  let refRate := match i.inputs[i.refInput]? with | some x => x.rate | none => 0
  decide (i.inputs.length = i.front.streams ∧ i.refInput = i.front.refStream)
    && i.inputs.all (fun x => decide (x.rate * i.front.d = refRate * x.ds) && decide (x.width = 16 ∨ x.width = 24)
        && decide (x.stages.length ≤ 3) && x.stages.all (fun st => decide (st.taps.length ≤ 128) && decide (1 ≤ st.factor ∧ st.factor ≤ 16))
        && decide ((x.stages.map (·.factor)).prod = x.ds))
    && decide (i.feCells ≤ 16384 ∧ i.feBlocks ≤ 64 ∧ i.feMulRate ≤ 25600000000)
    && (List.range 32).all (fun r =>
        let l := i.filet.filter (fun f => decide (f.region = r))
        decide ((l.map (·.cells)).sum ≤ 8192 ∧ (l.map (·.blocks)).sum ≤ 32 ∧ (l.map (·.bytes)).sum ≤ 393216))
    && decide (i.detectors.length ≤ 16)
    && i.detectors.all (fun d => decide (1 ≤ d.count ∧ d.count ≤ 65535) && decide (d.holdoff ≤ 2 ^ 24))

/-- A digital weight block as bytes (R118, R120). -/
def DigBlock.image (b : DigBlock) : List Byte :=
  be 4 b.header.toNat ++ b.entries.flatMap (be (if bits b.header.toNat 29 27 = 3 then 2 else 1)) ++ b.codes

/-- Order 6 of Table 5.16. -/
def Image.contentsOk (i : Image) (out : Nat) : Bool :=
  let both := i.watch.isSome && i.inspect.isSome
  decide (i.noiseVer = 1) && decide (i.imageArea ≤ (112 - 2 * out) * gi) && !i.members.isEmpty
    && i.members.all (fun m => descMemberOk both m.1 m.2 && placementOk both m.1 m.2 && m.2.blocks.all arrayBlockOk
        && m.2.digital.all digBlockOk && i.numbersOk m.2 && (decide (m.1 = 0) || replayOk m.2)
        && decide ((i.headsOf m.1).length = m.2.desc.heads))
    && (match i.watch, i.inspect with | some a, some b => sameFront a.desc b.desc | _, _ => true)
    && decide (((i.members.flatMap (fun m => (m.2.placement.filter (fun p => decide (p.home = 0))).map (·.loc)))).Nodup)
    && decide ((i.members.flatMap (fun m => m.2.placement.map (·.block))).Nodup)
    && i.members.all (fun m => m.2.digital.all (fun b => decide (b.off + b.image.length ≤ i.imageArea)))
    && i.heads.all (fun h => match h.2 with
        | .cls k => decide (2 ≤ k ∧ k ≤ 256)
        | .life c => decide (c ≤ 64)
        | .anomaly => true)
    && decide (i.rules.length ≤ 16) && i.rules.all (ruleOk i)
    && sectionsOk i && i.programsOk out && i.countersOk && i.frontOk

/-- Table 5.16: the status of the first check that fails; `level` is the module's, `imgCtr` its anti-rollback counter,
`anchors` the image anchors it holds, `out` its banks laid out of the map. -/
def Image.verdict (i : Image) (out level imgCtr : Nat) (anchors : List Nat) : Status :=
  if i.readOk = false ∨ i.digestOk = false then .storeFail
  else if i.magic ≠ 0x5350494D ∨ i.format ≠ 1 ∨ i.hdrlen ≠ 256 ∨ i.reservedZero = false ∨ i.sections.any (fun x => !x.reservedZero) = true then .imageInvalid
  else if i.level ≠ level then .imageInvalid
  else if i.trailerOk = false ∨ i.sigOk = false ∨ anchors.contains i.anchor = false then .signatureFail
  else if i.sections.any (fun x => !x.digestOk) then .signatureFail
  else if i.secver < imgCtr then .rollback
  else if i.contentsOk out then .ok
  else .imageInvalid

/-- Image anchors held (R502). -/
def State.imageAnchors (s : State) : List Nat := (s.trust.anchors.filter (fun a => decide (a.kind = 1))).map (·.index)

end Sys2Proof.Machine
end

