-- ==== Sys2Proof/Machine/Images.lean ====
section
/-! DEFINITION. Loading an image, the model swap and its boundary, and what an image in force sets (R190 to R200, R205, R210,
R247, R353, R379, R407 to R409, R467, R496). -/

namespace Sys2Proof.Machine

open Sys2Proof

/-! ## What an image in force sets -/

/-- The first step record of a program: programs of a core lie one after the other in ascending thread number (R247). -/
def Image.baseOf (i : Image) (p : Program) : Nat :=
  ((i.programs.filter (fun q => decide (q.thread / 16 = p.thread / 16 ∧ q.thread < p.thread))).map (fun q => q.records.length)).sum

/-- The programs of an image in the step RAMs, and the threads' BASE and LAST (R247). -/
def State.placePrograms (s : State) (i : Image) : State :=
  let s1 := { s with
    cores := Tab.alter {} (fun k => { k with stepRam := [] }) s.cores
    threads := Tab.alter {} (fun x => { x with prog := false, base := 0, last := 0, pc := 0 }) s.threads }
  i.programs.foldl (fun s p =>
    let b := i.baseOf p
    (s.updCore (p.thread / 16) (fun k => { k with
      stepRam := (List.range p.records.length).foldl (fun t j => Tab.set 0 t (b + j) (p.records.getD j 0)) k.stepRam })).updThread
        p.thread (fun x => { x with prog := true, base := b, last := b + p.records.length - 1, pc := b })) s1

/-- The digital weight blocks of an image in the image area (R209, R496). -/
def State.placeBlocks (s : State) (i : Image) : State :=
  s.updMem (fun m => (i.members.flatMap (fun k => k.2.digital)).foldl (fun m b => m.store .board (imageBase + b.off) b.image false) m)

/-- The settings that an image gives a context by default (R34, R285, R31, R571). -/
def Ctx.defaults (i : Image) (c : Nat) (x : Ctx) : Ctx :=
  match (if c = 0 then i.watch else i.inspect) with
  | none => x
  | some m =>
    if c = 0 then { x with pt := m.desc.period, allow := m.desc.allow, rint := m.desc.interval, pendPt := none
                           pendAllow := none, pendRint := none }
    else { x with sched := m.desc.schedule, schedCount := 0 }

/-- The defaults of an image on all 64 contexts. -/
def State.setDefaults (s : State) (i : Image) : State := s.each (List.range 64) (fun s c => s.updCtx c (Ctx.defaults i c))

/-- The history region of an image (R25, R209): slots below the new capacity keep their tokens where `keep` says so. -/
def State.placeHistory (s : State) (i : Image) (keep : Bool) : State :=
  let (base, last) := i.histRegion s.mem.banksOut
  let w := i.front.tokenW
  let cap := (last - base) / max 1 w
  let h := s.hist
  if keep then
    let held := h.slots.filter (fun e => decide (e.1 < cap))
    let s1 := if base = h.base then s
      else
        let moved := held.map (fun e => (e.1, s.mem.bytes .board (h.base + e.1 * w) w, s.mem.anyPoison .board (h.base + e.1 * w) w))
        s.updMem (fun m => moved.foldl (fun m x => m.store .board (base + x.1 * w) x.2.1 x.2.2) m)
    let write := if h.write = 0 ∧ h.slots ≠ [] ∧ h.cap < cap then h.cap else if cap ≤ h.write then 0 else h.write
    { s1 with hist := { h with base := base, cap := cap, width := w, slots := held, write := write } }
  else { s.clearIndex with
    hist := { base := base, cap := cap, width := w, appended := h.appended, newGroup := true } }

/-- The files of an image and their places in SRAM: its requantisation, dequantisation, sign and gain files in their core SRAMs,
and the plane files where its panel step records name them, in the clusters that `here` admits (R83, R123, R126, R496). -/
def State.filesOf (s : State) (i : Image) (here : Nat → Bool) : List (Space × Nat × List Byte) :=
  i.members.flatMap (fun m => (m.2.files.filter (fun f => here (f.core / 8))).map (fun f => (Space.core, 524288 * f.core + f.off, f.bytes)))
  ++ (i.programs.filter (fun p => here (p.thread / 128))).flatMap (fun p => (p.records.filter (fun r => rKind r == 0)).map (fun r =>
      let (e, lp) := s.panelAt p.thread r
      let at_ : Space × Nat := if rf r 201 201 = 1 then (.core, 524288 * (p.thread / 16) + rf r 200 182) else (.engine, 65536 * e + rf r 200 182)
      (at_.1, at_.2, (s.blockAt e lp).file.bytes)))

/-- Files stand in SRAM. -/
def State.putFiles (s : State) (l : List (Space × Nat × List Byte)) : State :=
  s.updMem (fun m => l.foldl (fun m f => m.store f.1 f.2.1 f.2.2 false) m)

/-- The files of an image in their places. -/
def State.placeFiles (s : State) (i : Image) (here : Nat → Bool) : State := s.putFiles (s.filesOf i here)

/-- Everything that an image in force places or sets but the history: in the clusters that are on. -/
def State.placeImage (s : State) (i : Image) : State :=
  let s1 := (((s.placePrograms i).placeBlocks i).setDefaults i).placeFiles i (fun c => s.domOn (.clusterCommon c))
  { s1 with ing := { s1.ing with dets := [] } }

/-! ## Transfers, R407 -/

/-- Chunks of a transfer. -/
def Xfer.chunks (x : Xfer) : Nat := (x.length + x.chunk - 1) / max 1 x.chunk

/-- The first missing offset; all ones where none is missing. -/
def Xfer.missing (x : Xfer) : Nat :=
  match (List.range x.chunks).find? (fun n => Tab.get 0 x.got n == 0) with
  | some n => n * x.chunk
  | none => top 64

/-- A chunk of a transfer is one that it can take: its number, an offset of a whole chunk, its length (R407). -/
def Xfer.takes (x : Xfer) (no off len : Nat) : Bool :=
  decide (x.no = no ∧ x.ending = none ∧ off < x.length ∧ off % max 1 x.chunk = 0 ∧ len = min x.chunk (x.length - off))

/-- Bytes of a transfer by their offset. -/
def putBytes (t : Tab Byte) (off : Nat) (bs : List Byte) : Tab Byte :=
  (List.range bs.length).foldl (fun t i => Tab.set 0 t (off + i) (bs.getD i 0)) t

/-- BULK: the oldest bulk packet that waits in a session is taken: a chunk of the image transfer goes into the inactive
image slot, one of the firmware transfer into its bank; another is dropped. -/
def execBulk (sid : Nat) (s : State) : Outc :=
  match s.sess sid with
  | none => .next s
  | some x =>
    match x.bulk with
    | [] => .next s
    | (no, off, data) :: rest =>
      let s1 := s.setSess sid (some { x with bulk := rest })
      if s.fwUp = false then .next s
      else match s.img.xfer, s.img.fwXfer with
        | some t, f =>
          if t.takes no off data.length then
            let s2 := { s1 with img := { s1.img with xfer := some { t with got := Tab.set 0 t.got (off / max 1 t.chunk) 1 } } }
            .next (s2.updImgSlot s2.inactive (fun y => { y with bytes := putBytes y.bytes off data }))
          else match f with
            | some t => if t.takes no off data.length then .next { s1 with img := { s1.img with
                fwXfer := some { t with got := Tab.set 0 t.got (off / max 1 t.chunk) 1 }, fwBytes := putBytes s1.img.fwBytes off data } }
              else .next s1
            | none => .next s1
        | none, some t => if t.takes no off data.length then .next { s1 with img := { s1.img with
            fwXfer := some { t with got := Tab.set 0 t.got (off / max 1 t.chunk) 1 }, fwBytes := putBytes s1.img.fwBytes off data } }
          else .next s1
        | none, none => .next s1

/-! ## Loading an image, R190, R205 -/

/-- Set the state of an image slot, with its record (R477); a slot that holds an image keeps its bytes. -/
def State.setSlot (s : State) (n state : Nat) (img : Option Image) : State :=
  (s.updImgSlot n (fun y => { state := state, image := img, bytes := if state = 1 ∨ state = 2 then y.bytes else [] })).slotRec n state ((img.map (·.secver)).getD 0)

/-- IMG_BEGIN (R407, R409, R467). A transfer in progress is given up. -/
def execImgBegin (sid : Nat) (s : State) : Outc :=
  .next (s.runCmd 0x0201 true sid (fun s p =>
    if s.img.swap.isSome then .no .busy
    else if 7449083904 < p.num 1 then .no .noResource
    else if p.num 1 = 0 then .bad p 1
    else
      let n := s.img.lastXfer + 1
      let s1 := s.setSlot s.inactive 3 none
      .done { s1 with img := { s1.img with lastXfer := n, xfer := some { no := n, length := p.num 1, chunk := Config.chunkSize } } }
        [be 4 n, be 4 Config.chunkSize]))

/-- IMG_END: MISSING names the first missing offset; with none missing, the validation starts (R205, R407). -/
def execImgEnd (sid : Nat) (s : State) : Outc :=
  .next (s.runCmd 0x0202 true sid (fun s p =>
    match s.img.xfer with
    | none => .no .busy
    | some x =>
      if x.ending.isSome then .no .busy
      else if x.missing ≠ top 64 then .read [be 8 x.missing]
      else .accepted { s with img := { s.img with xfer := some { x with ending := some (sid, p.seq), digest := p.num 1 } } } [be 8 (top 64)]))

/-- IMAGE_VALIDATION_DONE: the container read back from the slot's bytes, with what the crypto unit found and the sections that
have no layout in the spec, is checked in the order of Table 5.16: the slot is loaded, or empty (R205). -/
def execImageValidationDone (given : Image) (s : State) : Outc :=
  match s.img.xfer with
  | none => .next s
  | some x =>
    match x.ending with
    | none => .next s
    | some who =>
      if s.fwUp = false then .next s
      else
        let img := readImage (s.imgSlot s.inactive).bytes x.length x.digest given
        let st := if x.failed then .storeFail else img.verdict s.mem.banksOut s.optv.level s.opt.shadow.imgCtr s.imageAnchors
        let s1 := { s.commit with img := { s.img with xfer := none } }
        let s2 := if st = .ok then s1.setSlot s1.inactive 2 (some img) else s1.setSlot s1.inactive 0 none
        .next (s2.complete (some who) 0x0202 0xFFFF st 0 [(1, be 8 (top 64))])

/-- IMG_ABORT: the transfer is given up and the slot is empty. -/
def execImgAbort (sid : Nat) (s : State) : Outc :=
  .next (s.runCmd 0x0203 true sid (fun s _ =>
    match s.img.xfer with
    | none => .read []
    | some _ => .done ({ s with img := { s.img with xfer := none } }.setSlot s.inactive 0 none) []))

/-- One slot as IMG_INFO gives it. -/
def ImgSlot.info (x : ImgSlot) : List Byte :=
  let f := fun (g : Image → Nat) => (x.image.map g).getD 0
  be 1 x.state ++ be 16 (f (·.imageId)) ++ be 4 (f (·.secver)) ++ be 2 (f (·.level))

/-- IMG_INFO. -/
def execImgInfo (sid : Nat) (s : State) : Outc :=
  .next (s.runCmd 0x0204 false sid (fun s _ => .read [s.img.slot0.info ++ s.img.slot1.info]))

/-! ## The swap, R191 to R193, R210 -/

/-- Engines and logical planes where an image places array blocks, with the row-group size and SYMONLY of each block. -/
def Image.arrayHomes (i : Image) : List (Nat × Nat × Nat × Bool) :=
  i.members.flatMap (fun m => ((m.2.placement.filter (fun p => decide (p.home = 0))).zip m.2.blocks).map (fun x =>
    (locToEngine x.1.loc.toNat, locToPlane x.1.loc.toNat, x.2.file.gsize, x.2.file.symonly)))

/-- Bytes of a copy of a block in the away region: its codes and its plane file. -/
def copyBytes (x : Nat × Nat × Nat × Bool) : Nat := 131072 + fileBytes x.2.2.1 x.2.2.2

/-- The engine that serves as an image's engine (R53). -/
def State.servedBy (s : State) (e : Nat) : Nat := s.physEngine (e / 9) (e % 9)

/-- The panel of an image's engine is retired to digital residency. -/
def State.isRetired (s : State) (e : Nat) : Bool := decide ((s.panel (s.servedBy e)).pstate = 3)

/-- Array homes of the image in force. -/
def State.oldHomes (s : State) : List (Nat × Nat × Nat × Bool) := match s.image with | some i => i.arrayHomes | none => []

/-- The away region holds the copies of the old image and the residency homes of the new one (R210). -/
def State.awayFits (s : State) (i : Image) : Bool :=
  decide ((s.oldHomes.map copyBytes).sum + ((i.arrayHomes.filter (fun x => s.isRetired x.1)).map copyBytes).sum ≤ 5376 * 2 ^ 20)

/-- Work of a swap: panel by panel, the watch clusters last; a plane with a new block is erased and programmed, another that
the old image used is erased (R191). -/
def State.swapWork (s : State) (i : Image) : List Work :=
  let live := fun (l : List (Nat × Nat × Nat × Bool)) => (l.filter (fun x => !s.isRetired x.1)).map (fun x => (s.servedBy x.1, x.2.1))
  let new := live i.arrayHomes
  let old := (live s.oldHomes).filter (fun x => !new.contains x)
  let work := fun (op : UpOp) (x : Nat × Nat) =>
    ({ prio := 3, engine := x.1, plane := (s.engine x.1).phys x.2, op := op, why := .swap, newImage := true } : Work)
  let all := old.map (work .erase) ++ new.map (work .program)
  all.filter (fun w => decide (2 ≤ w.engine / 72)) ++ all.filter (fun w => decide (w.engine / 72 < 2))

/-- The blocks of the image in force are copied into the away region, as far as they have no copy there (R191). -/
def State.copyImage (s : State) : State :=
  match s.img.active with
  | some a => s.oldHomes.foldl (fun s x => s.copyBlock a x.1 x.2.1) s
  | none => s

/-- A swap begins: the record, the copies of the old image, the work on the panels (steps 1 to 3 of R191). -/
def State.beginSwap (s : State) (i : Image) (who : Option (Nat × Nat)) : State :=
  let n := s.inactive
  let work := s.swapWork i
  let panels := (work.map (·.engine)).dedup
  let s1 := (s.journal 0x0B 0 0 n).copyImage
  { s1 with
    img := { s1.img with swap := some { phase := 3, total := panels.length, askedBy := who, slot := n, panels := panels, todo := panels } }
    upk := { s1.upk with queue := s1.upk.queue ++ work, swapOpen := some (s1.upk.swapOpen.getD []) } }

/-- SWAP (R191, R210, R409). -/
def execSwap (sid : Nat) (s : State) : Outc :=
  .next (s.runCmd 0x0205 true sid (fun s p =>
    if s.img.swap.isSome ∨ (s.imgSlot s.inactive).state ≠ 2 then .no .busy
    else match (s.imgSlot s.inactive).image with
      | none => .no .busy
      | some i => if s.awayFits i then .accepted (s.beginSwap i (some (sid, p.seq))) [] else .no .noResource))

/-- The image that a swap brings. -/
def State.swapImage (s : State) : Option Image := s.img.swap.bind (fun w => (s.imgSlot w.slot).image)

/-- The watch period that the lead names in SWAP_AT: at least two after the filling module's present one. On another member
that one is reckoned from the last HANDOVER_PREP and the newest index that the filling module holds (R353). -/
def State.swapPeriod (s : State) : Nat :=
  if s.pack.fill = s.optv.ppos then s.watch.period + 2
  else
    let held := Tab.get 0 s.pack.heldBy s.pack.fill - 1
    let (k, from_, _) := s.pack.prepAt.getD (0, 0, 0)
    k + (held - from_) / max 1 (s.tokenSpan * (s.ctx 0).pt) + 2

/-- Every live member is ready and no pass runs in the pack: the lead floods SWAP_AT (R353). -/
def State.trySwapAt (s : State) : State :=
  match s.img.swap, s.swapImage with
  | some w, some i =>
    if s.solo ∨ s.isLead = false ∨ w.phase ≠ 5 ∨ w.atPeriod.isSome = true ∨ s.pack.passes ≠ [] ∨ s.passRuns = true
      ∨ (s.livePos.any (fun p => decide (p ≠ s.optv.ppos) && !s.pack.swapReady.contains p)) = true then s
    else
      let k := s.swapPeriod
      { (s.flood 0 (.swapAt i.imageId k)) with img := { s.img with swap := some { w with atPeriod := some k } } }
  | _, _ => s

/-- Step 4 is complete: in a pack the lead hears it with SWAP_READY, and the lead tells the members, so that each with the
image loaded swaps too (R200, R353). -/
def State.swapReadySent (s : State) : State :=
  if s.solo then s
  else match s.swapImage with
    | none => s
    | some i =>
      let me := s.optv.ppos
      if s.isLead then
        let s1 := { s with pack := { s.pack with swapReady := if s.pack.swapReady.contains me then s.pack.swapReady else s.pack.swapReady ++ [me] } }
        ((s1.livePos.filter (· ≠ me)).foldl (fun s d => s.packSend d 0 (.swapReady i.imageId me)) s1).trySwapAt
      else s.packSend s.pack.lead 0 (.swapReady i.imageId me)

/-- SWAP_STEP4_DONE: every panel of the swap is rewritten and its corrections are measured. -/
def execSwapStep4Done (s : State) : Outc :=
  match s.img.swap with
  | none => .next s
  | some w =>
    if w.phase = 3 ∧ w.todo = [] ∧ s.upk.queue.any (fun x => decide (x.why = .swap) || x.newImage) = false then
      .next ({ s with img := { s.img with swap := some { w with phase := 5, doneAt := some s.life.now, released := false } } }.swapReadySent)
    else .next s

/-! ## The swap boundary, R193 to R196, R379 -/

/-- Two images are token-compatible (R196). -/
def tokenCompatible (a b : Image) : Bool :=
  decide (a.tokenDigest = b.tokenDigest) && sameFront a.front b.front

/-- The rules of the old image release their outputs (R195). -/
def State.releaseRules (s : State) (i : Image) : State :=
  let old := s.io.rules
  let sidx := match s.newest with | some h => h.sidx | none => top 64
  let on := fun n => (Tab.get {} old n).asserted
  let any := (List.range i.rules.length).any on
  let s1 := ({ s with io := { s.io with rules := [] } }).releaseCut
  let s2 := if any then s1.advisoryFlood sidx else s1
  s2.each (List.range i.rules.length) (fun s n =>
    match i.rules[n]? with
    | some r =>
      if on n = true ∧ r.notify = true then
        s.advisoryNotify n false { ctx := if r.member = 0 then 0 else 0xFFFF, member := r.member, sidx := sidx, gap := false, poison := false, warm := false, clsC := false }
      else s
    | none => s)

/-- A started context goes on under the new image: its threads, rings and counters are those that the new image gives it; one
that cannot have them faults; one whose member the image lacks ends normally (R195). -/
def State.rebindCtx (s : State) (i : Image) (c : Nat) : State :=
  match (if c = 0 then i.watch else i.inspect) with
  | none => s.endCtx c
  | some m =>
    let s1 := (((s.freeThreads c).unbindRings c).endCounters c).updCtx c (fun x =>
      { x with quota := m.quota, estimate := 10 * m.drawW, state := if x.state = .shed then .shed else .waiting, inIter := false, poisoned := false })
    match s1.bindCtx c i m with
    | some s2 => if c = 0 then s2.zeroState m else s2
    | none => s1.faultCtx c 0 0x300 0 []

/-- Contexts that go on, or end, at a swap boundary: those started. A Faulted one stays Faulted (R195, R298). -/
def State.boundCtxs (s : State) : List Nat := (s.ctxs.filter (fun e => e.2.started && decide (e.2.state ≠ .faulted))).map Prod.fst

/-- An engine whose plane registers, readings and clip counts start again. -/
def Engine.emptied (x : Engine) : Engine :=
  { accs := x.accs, accPoison := x.accPoison, factors := x.factors, codebooks := x.codebooks, cbLoading := x.cbLoading, clockOn := x.clockOn, planeMap := x.planeMap,
    cond := x.cond }

/-- Clip records and scales start from zero (R144, R195). -/
def State.clearScales (s : State) : State :=
  { s with
    cores := Tab.alter {} (fun k => { k with clips := [], snapshot := [] }) s.cores
    engines := Tab.alter {} Engine.emptied s.engines }

/-- The watch context's state and schedule after a swap: from zero, with its gap where the history is gone (R195, R196). -/
def Watch.swapped (w : Watch) (keep : Bool) : Watch :=
  let w1 := { w with cover := 0, restored := false, riCount := 0, riFirst := w.first, riOff := 0, gather := [], flags := 0, cls := 0, ready := [], trig := []
                     zeroDue := false, owesCatch := false, mandatory := false, deferrable := false, evaluated := 0, len := 0 }
  if keep then w1 else { w1 with first := 0, riFirst := 0, riOff := 0, short := none, owesGap := true, lastSidx := none }

/-- Ingest restarts with a new s0 on the new tokenisation; the rings keep what they hold (R379). -/
def State.newFront (s : State) : State :=
  if s.ing.running then { s with ing := { s.ing with s0 := none, nextToken := 0, run := s.ing.run + 1 } } else s

/-- The swap boundary (R194 to R196, R379): one commit. -/
def State.swapNow (s : State) : State :=
  match s.img.swap, s.swapImage with
  | some w, some i =>
    let keep := match s.image with | some o => tokenCompatible o i && decide (s.hist.cap ≠ 0) | none => false
    let ended := if s.watch.len ≠ 0 ∧ (s.ctx 0).live = true then
        (let t := s.closeInterval 0
         { t with watch := t.watch.advance })
      else s
    let s1 := ((ended.journal 0x0C 0 0 w.slot).log { code := 0x000A, detail := [w.slot] })
    let s2 := match s.image with | some o => s1.releaseRules o | none => s1
    let bound := s2.boundCtxs
    let s3 := match s.img.active with | some a => s2.setSlot a 2 (s2.imgSlot a).image | none => s2
    let s4 := s3.setSlot w.slot 1 (some i)
    let s5 := { s4 with
      img := { s4.img with active := some w.slot, stamp := s4.life.commit, good := true, codesBad := false, swap := none }
      life := { s4.life with measures := s4.life.measures.take 4 ++ [i.measure] }
      upk := { s4.upk with placement := [], replan := none, swapOpen := none
                           panels := Tab.alter {} (fun (x : Panel) => { x with replanned := false }) s4.upk.panels, dirty := true
                           copies := s4.upk.copies.filter (fun c => decide (some c.slot ≠ s4.img.active))
                           residency := ((i.arrayHomes.map (fun (x : Nat × Nat × Nat × Bool) => s4.servedBy x.1)).dedup).filter (fun (e : Nat) => decide ((s4.panel e).pstate = 3)) }
      pack := { s4.pack with swapReady := [] } }
    let s6 := ((s5.upk.residency.foldl (fun s e => s.copyPanel e) s5.clearScales).placeHistory i keep).placeImage i
    let s7 := s6.each bound (fun s c => s.rebindCtx i c)
    let s8 := { s7 with watch := if (s7.ctx 0).started ∨ (s7.ctx 0).state = CState.faulted then s7.watch.swapped keep else s7.watch }
    let s9 := (if keep then s8 else s8.newFront).syncIngest
    s9.complete w.askedBy 0x0205 0xFFFF .ok 0 []
  | _, _ => s

/-- No period comes to release the swap at: the image has no watch member, the watch context is not started, Shed or Faulted,
or its reference stream has stopped, so that none was released within 1 s after step 4 (R193). -/
def State.noPeriod (s : State) (w : Swap) : Bool :=
  (match s.image with | some i => i.watch.isNone | none => true) || !(s.ctx 0).live
    || (!w.released && (match w.doneAt with | some t => decide (t + 1000000 ≤ s.life.now) | none => false))

/-- The moment is a swap boundary (R193): step 4 is done, no pass runs, no period of a running watch context is in progress,
and the last token of its next period is held, or no period is to come. In a pack it is the release of the period that
SWAP_AT named, on the filling module (R200, R353). -/
def State.atSwapBoundary (s : State) : Bool :=
  match s.img.swap with
  | none => false
  | some w =>
    decide (5 ≤ w.phase) && !s.passRuns && !((s.ctx 0).live && (s.watch.mandatory || !s.idle 0))
      && (if s.solo then s.noPeriod w || s.periodReady
          else decide (s.pack.fill = s.optv.ppos) && w.atPeriod.isSome && (s.noPeriod w || (s.swapDue s.nextPeriod && s.periodReady)))

/-- SWAP_BOUNDARY; in a pack the filling module floods SWAP_COMMIT. -/
def execSwapBoundary (s : State) : Outc :=
  if s.atSwapBoundary = false then .next s
  else
    let s1 := s.swapNow
    if s.solo then .next s1
    else match s.swapImage with
      | some i => .next (s1.flood 0 (.swapCommit i.imageId s.nextPeriod))
      | none => .next s1

/-- A store error while reading the new slot ends a swap: STORE_FAIL, and the panels on which the swap has begun are programmed
from the old slot; operations of the swap in progress end at their next event (R198). -/
def State.swapFails (s : State) : State :=
  match s.img.swap with
  | none => s
  | some w =>
    let back := s.upk.swapOpen.getD []
    let work := (s.oldHomes.filter (fun x => !s.isRetired x.1 && back.contains (s.servedBy x.1))).map (fun x =>
      ({ prio := 1, engine := s.servedBy x.1, plane := (s.engine (s.servedBy x.1)).phys x.2.1, op := .program, why := .recovery } : Work))
    let s1 := { s with
      img := { s.img with swap := none }
      upk := { s.upk with queue := s.upk.queue.filter (fun (x : Work) => decide (x.why ≠ UpWhy.swap) && !x.newImage) ++ work } }
    s1.complete w.askedBy 0x0205 0xFFFF .storeFail 0 []

/-- SWAP_STATUS. -/
def execSwapStatus (sid : Nat) (s : State) : Outc :=
  .next (s.runCmd 0x0206 false sid (fun s _ =>
    match s.img.swap with
    | some w => .read [be 1 w.phase, be 4 w.done, be 4 w.total]
    | none => .read [be 1 0, be 4 0, be 4 0]))

/-- A member description as bytes, Table 5.13. -/
def MemberDesc.bytes (d : MemberDesc) : List Byte :=
  be 1 d.kind ++ be 1 d.flags ++ be 2 d.layers ++ be 2 d.width ++ be 2 d.p ++ be 2 d.tokenW ++ be 2 d.d ++ be 1 d.streams
    ++ be 1 d.refStream ++ be 1 d.heads ++ be 1 d.maxN ++ be 2 d.window ++ be 2 d.globalCtx ++ be 4 d.stateBytes ++ be 8 d.arrayW
    ++ be 8 d.digBytes ++ be 4 d.minCtx ++ be 4 d.interval ++ be 4 d.lookback ++ be 4 d.after ++ be 4 d.schedule ++ be 4 d.period
    ++ be 4 d.allow ++ List.replicate 188 0

/-- MEMBER_READ: a member that the image in force lacks is refused. -/
def execMemberRead (sid : Nat) (s : State) : Outc :=
  .next (s.runCmd 0x0207 false sid (fun s p =>
    match s.image.bind (fun i => if p.num 1 = 0 then i.watch else if p.num 1 = 1 then i.inspect else none) with
    | some m => .read [m.desc.bytes]
    | none => .bad p 1))

end Sys2Proof.Machine
end

