-- ==== Sys2Proof/Machine/Reads.lean ====
section
/-! DEFINITION. The commands that read the module: information, status, units, temperatures, counts, power, pack, upkeep
(R4, R66, R132, R152, R303, R315, R319, R408, R529, R548). -/

namespace Sys2Proof.Machine

open Sys2Proof

/-- Bytes that a variable parameter of a reply may take beside `fixed` bytes of other TLVs: the largest packet (R396) less
the reply header. -/
def State.room (s : State) (sid fixed : Nat) : Nat :=
  match s.sess sid with
  | none => 0
  | some x => ((s.portCfg x.port).mtu - (if x.addr < 2 ^ 32 then 56 else 76) - 40 - fixed - 4) / 4 * 4

/-- A text field of an option copy without its padding. -/
def textOf (bs : List Byte) : List Byte := (bs.reverse.dropWhile (· == 0)).reverse

/-- Identifier of the image in force, 0 where there is none. -/
def State.imageId (s : State) : Nat := (s.image.map (·.imageId)).getD 0

/-- MODULE_INFO (R4). -/
def execModuleInfo (sid : Nat) (s : State) : Outc :=
  .next (s.runCmd 0x0101 false sid (fun s _ => .read
    [textOf s.optv.order, textOf s.optv.serial, be 2 s.optv.level, be 4 s.life.fwver, be 1 s.life.bank, be 4 s.life.poc,
     be 12 s.optv.mac, be 16 s.imageId]))

/-- The context state words of contexts 0 to 63 (Table 8.3). -/
def State.ctxWords (s : State) : List Byte := (List.range 64).flatMap (fun n => be 8 ((s.ctx n).word n s.life.now))

/-- The feed in use: 0 main, 1 backup. -/
def State.feedNo (s : State) : Nat := if s.supply.active = some .backup then 1 else 0

/-- The highest temperature of the sensors in use. -/
def State.tmax (s : State) : Int :=
  ((List.range 64).filter (fun i => !s.excluded.contains i)).foldl (fun a i => max a (s.temp i)) (-32768)

/-- STATUS. -/
def execStatus (sid : Nat) (s : State) : Outc :=
  .next (s.runCmd 0x0102 false sid (fun s _ => .read
    [s.logs.bytes, s.ctxWords, be 1 s.feedNo, be 2 (s.inForce / 10), be 2 s.supply.draw, be 2 (unsigned 16 s.tmax),
     be 1 (healthByte s.hsense s.healthy s.io.inputs)]))

/-- UNIT_READ: thread words, ring words, plane setting words, the panel word. -/
def execUnitRead (sid : Nat) (s : State) : Outc :=
  .next (s.runCmd 0x0103 false sid (fun s p =>
    let w := p.num 1
    match p.num 2 with
    | 0 => if locOk w 4 then .read [(List.range 16).flatMap (fun i => be 16 (s.threadWord (16 * locToCore w + i)))] else .bad p 1
    | 1 => if locOk w 2 then .read [(List.range 64).flatMap (fun i => be 8 (s.ring (64 * locToCluster w + i)).word)] else .bad p 1
    | 2 => if locOk w 5 then .read [(List.range 16).flatMap (fun i =>
        be 4 (settingWord (s.blockAt (locToEngine w) i).file (s.condOf (locToEngine w) i)))] else .bad p 1
    | 3 => if locOk w 5 then .read [be 4 (s.panel (locToEngine w)).word] else .bad p 1
    | _ => .bad p 2))

/-- The arithmetic clock of each stack, as R66 states. -/
def State.steps (s : State) : List Byte := (List.range 4).flatMap (fun k => be 1 (s.clk k).step)

/-- THERMAL. -/
def execThermal (sid : Nat) (s : State) : Outc :=
  .next (s.runCmd 0x0104 false sid (fun s _ => .read
    [(List.range 64).flatMap (fun i => be 2 (unsigned 16 (s.temp i))), s.steps]))

/-- FPCOUNT: invalid operations, overflows, divisions by zero of a core (R152). -/
def execFpcount (sid : Nat) (s : State) : Outc :=
  .next (s.runCmd 0x0105 false sid (fun s p =>
    if locOk (p.num 1) 4 then
      (let c := s.core (locToCore (p.num 1))
       .read [be 4 c.invalids ++ be 4 c.overflows ++ be 4 c.divZeros])
    else .bad p 1))

/-- A snapshot record of a channel of a point, with the marks that the image gives it (Table 4.6). -/
def State.snapRec (s : State) (ctx : Nat) (q : ReqPoint) (c : Nat) : Nat :=
  ({ Tab.get ({} : ClipRec) (s.core q.core).snapshot (clipKey ctx q.point c) with adapt := q.adapt, kind := flag q.coreKind } : ClipRec).word

/-- CLIP_READ: records of a requantisation point of the context's member, as many as the reply holds. A POINT from 4,096 on
names the KIND 2 records of engine POINT - 4,096, which have no point number of their own (R134; DESIGN CHOICE,
assumption 74). -/
def execClipRead (sid : Nat) (s : State) : Outc :=
  .next (s.runCmd 0x0106 false sid (fun s p =>
    let room := min (p.num 3) (s.room sid 0 / 16)
    let from_ := p.num 2
    if 4096 ≤ p.num 1 then
      (let e := p.num 1 - 4096
       if 2304 ≤ e then .bad p 1
       else if 256 ≤ from_ then .bad p 2
       else .read [(List.range (min room (256 - from_))).flatMap (fun i =>
         be 16 ({ Tab.get ({} : ClipRec) (s.engine e).clipSnap (from_ + i) with kind := 2 } : ClipRec).word)])
    else match s.member p.ctx with
    | none => { st := .badParam }
    | some m =>
      match m.points.find? (fun q => decide (q.point = p.num 1)) with
      | none => .bad p 1
      | some q =>
        if q.channels ≤ from_ then .bad p 2
        else .read [(List.range (min room (q.channels - from_))).flatMap (fun i => be 16 (s.snapRec p.ctx q (from_ + i)))]))

/-- POWER_READ. -/
def execPowerRead (sid : Nat) (s : State) : Outc :=
  .next (s.runCmd 0x0702 false sid (fun s _ => .read
    [be 1 s.feedNo, be 2 s.supply.mainBudget, be 2 s.supply.backupBudget, be 2 (s.inForce / 10), be 2 s.supply.draw, s.steps,
     (s.ctxs.filter (fun e => e.2.started)).flatMap (fun e => be 1 e.1 ++ be 2 (min e.2.estimate 65535))]))

/-- The pack state word, Table 9.1. -/
def State.packWord (s : State) : Nat :=
  word [(s.pack.live, 64), (s.pack.epoch, 32), (s.optv.ppos, 26), (s.optv.psize, 19), (s.pack.lead, 13), (s.pack.fill, 7), (s.pack.source, 1),
    (flag s.pack.detached, 0)]

/-- PACK_READ. -/
def execPackRead (sid : Nat) (s : State) : Outc :=
  .next (s.runCmd 0x0802 false sid (fun s _ => .read
    [be 16 s.packWord, (List.range 4).flatMap (fun k => be 4 (s.pport k).word)]))

/-- UPKEEP_READ: pending items per priority, the newest journal record. -/
def execUpkeepRead (sid : Nat) (s : State) : Outc :=
  .next (s.runCmd 0x0A01 false sid (fun s _ => .read
    [(List.range 7).flatMap (fun k => be 2 (min 65535 (s.upk.queue.filter (fun w => decide (w.prio = k + 1))).length)), be 8 s.newestSeq]))

/-- PLANE_READ. -/
def execPlaneRead (sid : Nat) (s : State) : Outc :=
  .next (s.runCmd 0x0A02 false sid (fun s p =>
    let w := p.num 1
    if locOk w 6 then .read [be 16 (s.planeWord (17 * locToEngine w + locToPlane w))] else .bad p 1))

end Sys2Proof.Machine
end

