-- ==== Sys2Proof/Machine/Options.lean ====
section
/-! DEFINITION. The option area and the commands that write it; ports and stream slots (R311, R358 to R362, R373, R387 to
R389, R392, R483 to R486, R504, R556). -/

namespace Sys2Proof.Machine

open Sys2Proof

/-! ## An option copy as bytes, Table 13.9 -/

/-- A text or binary field padded with zeros. -/
def fieldBytes (n : Nat) (bs : List Byte) : List Byte := (bs ++ List.replicate n 0).take n

/-- A port's entry of PORTCFG. -/
def PortCfg.entry (c : PortCfg) : List Byte :=
  be 4 c.ipv4 ++ be 1 c.pfx4 ++ be 1 c.pfx6 ++ be 2 c.mtu ++ be 16 c.ipv6 ++ be 2 c.vid ++ be 2 c.udp ++ be 4 0

/-- Bytes 16 to 191: what measurement 2 covers (Table 14.4). -/
def OptCopy.measured (o : OptCopy) : List Byte :=
  fieldBytes 16 o.order ++ fieldBytes 16 o.serial ++ be 2 o.level ++ be 2 o.stepping ++ be 12 o.mac ++ be 16 o.uid ++ be 64 o.idKey
    ++ be 1 o.bootBank ++ be 1 o.bootFall ++ be 2 0 ++ be 4 o.fwCtr ++ be 4 o.imgCtr ++ be 4 0 ++ be 8 o.packId ++ be 1 o.psize
    ++ be 1 o.ppos ++ be 1 o.psource ++ be 1 o.pstandby ++ be 2 o.mainBud ++ be 2 o.backBud ++ be 1 o.svcEn ++ be 1 o.lock
    ++ be 1 o.portMode ++ List.replicate 13 0

/-- Bytes 0 to 16,379 of an option copy. -/
def OptCopy.body (o : OptCopy) : List Byte :=
  be 4 0x53504F50 ++ be 2 1 ++ be 2 0 ++ be 4 o.seq ++ be 4 0 ++ o.measured
    ++ [4, 5, 0, 1, 2, 3].flatMap (fun p => (Tab.get {} o.ports p).entry)
    ++ (List.range 4).flatMap (fun p => (List.range 8).flatMap (fun g => be 16 ((Tab.get ({} : PortCfg) o.ports p).groups.getD g 0)))
    ++ (List.range 64).flatMap (fun i => be 2 (unsigned 16 (Tab.get 0 o.tsens i)))
    ++ (List.range 32).flatMap (fun i => be 2 (Tab.get 0 o.pllTrim i))
    ++ (List.range 4).flatMap (fun i => be 8 (Tab.get 0 o.pumpTrim i))
    ++ (List.range 2304).flatMap (fun i => be 2 (Tab.get (0 : F16) o.refRatio i).toNat)
    ++ List.replicate 10652 0

/-- An option copy as bytes with its CRC. -/
def OptCopy.bytes (o : OptCopy) : List Byte := o.body ++ be 4 (crc32c o.body).toNat

/-! ## Writing the option area, R486 -/

/-- The store write of the shadows starts, into the copy that is not the newest: the erase intent, then erase and program. -/
def State.startOptWrite (s : State) : State :=
  let k := 1 - s.opt.newest
  let v := { s.opt.shadow with seq := s.opt.shadow.seq + 1 }
  let s1 := { s with opt := { s.opt with shadow := v, writing := some (k, v), again := false } }
  s1.eraseIntent 2 k

/-- A write of the option area: the shadows change at its commit; the store write starts, or is merged into the next one. -/
def State.writeOption (s : State) (f : OptCopy → OptCopy) : State :=
  let s1 := { s with opt := { s.opt with shadow := f s.opt.shadow } }
  if s1.opt.writing.isSome then { s1 with opt := { s1.opt with again := true } } else s1.startOptWrite

/-- An answer of Kennel leaves on J3; characters that were lost are told first (R561, R562). -/
def State.kennelSay (s : State) (stamp : Nat) (lines : List (List (String × Nat))) (st : Status) : State :=
  ({ s with kennel := { s.kennel with lost := false } }).emit (.kennel stamp lines st s.kennel.lost)

/-- The answer that waits for the store (R567). -/
def State.kennelStored (s : State) : State :=
  if s.kennel.owes then ({ s with kennel := { s.kennel with owes := false } }).kennelSay s.life.commit [] .ok else s

/-- OPTION_WRITE_DONE: the program verifies; the done record; a further write that was merged meanwhile starts. -/
def execOptionWriteDone (pulses : Nat) (s : State) : Outc :=
  match s.opt.writing with
  | none => .next s
  | some (k, v) =>
    let s1 := { s with
      opt := { s.opt with
        copy0 := if k = 0 then v else s.opt.copy0
        copy1 := if k = 0 then s.opt.copy1 else v
        newest := k, writing := none, rewrite := false } }
    let s2 := s1.eraseDone 2 k pulses
    .next (if s2.opt.again then s2.startOptWrite else s2.kennelStored)

/-- OPTION_READ: the option shadows. -/
def execOptionRead (sid : Nat) (s : State) : Outc :=
  .next (s.runCmd 0x0C05 false sid (fun s _ => .read [s.opt.shadow.bytes]))

/-- What a write of one option field by command does: the new copy, or the status that refuses it (R485, R504). -/
def optField (o : OptCopy) (off : Nat) (v : List Byte) : Except Status OptCopy :=
  let n := ofBytes v
  match off with
  | 145 => if v.length = 1 ∧ n ≤ 1 then .ok { o with bootFall := n } else .error .badParam
  | 172 => if v.length = 2 ∧ 60 ≤ n ∧ n ≤ 410 then .ok { o with mainBud := n } else .error .badParam
  | 174 => if v.length = 2 ∧ 60 ≤ n ∧ n ≤ 410 then .ok { o with backBud := n } else .error .badParam
  | 177 => if v.length = 1 ∧ n ≤ 1 ∧ o.lock ≤ n then .ok { o with lock := n } else .error .badParam
  | _ => .error .notPermitted

/-- OPTION_SET (R485, R486, R504). -/
def execOptionSet (sid : Nat) (s : State) : Outc :=
  .next (s.runCmd 0x0C06 true sid (fun s p =>
    match optField s.opt.shadow (p.num 1) ((p.val 2).getD []) with
    | .ok o => .done (s.writeOption (fun _ => o)) []
    | .error .badParam => .bad p 2
    | .error st => .no st))

/-- Kennel locks (R558). -/
def State.lockKennel (s : State) : State := { s with kennel := { s.kennel with state := .locked, challenge := none } }

/-- SERVICE_PORT: in force at its commit; cleared, an unlocked Kennel is locked at once (R556). -/
def execServicePort (sid : Nat) (s : State) : Outc :=
  .next (s.runCmd 0x0C07 true sid (fun s p =>
    if 1 < p.num 1 then .bad p 1
    else
      let s1 := s.writeOption (fun o => { o with svcEn := p.num 1 })
      .done (if p.num 1 = 0 then s1.lockKennel else s1) []))

/-- The settings of a pack lie in their ranges (R311): the offending TYPE, where one does. -/
def packBad (size pos source : Nat) (standby : Option Nat) : Option Nat :=
  if size < 1 ∨ 64 < size then some 2
  else if size ≤ pos then some 3
  else if size ≤ source then some 4
  else match standby with
    | none => none
    | some b => if b = 0xFF ∨ (b < size ∧ b ≠ source) then none else some 5

/-- PACK_CONFIG: in force from the next restart (R311). -/
def execPackConfig (sid : Nat) (s : State) : Outc :=
  .next (s.runCmd 0x0801 true sid (fun s p =>
    match packBad (p.num 2) (p.num 3) (p.num 4) (p.num? 5) with
    | some t => .bad p t
    | none => .done (s.writeOption (fun o =>
        { o with packId := p.num 1, psize := p.num 2, ppos := p.num 3, psource := p.num 4, pstandby := (p.num? 5).getD 0xFF })) []))

/-! ## Ports, R358, R392 -/

/-- A value lies in its range for a port's setting. -/
def portFieldOk (port ty : Nat) (v : List Byte) : Bool :=
  let n := ofBytes v
  match ty with
  | 3 => decide (n ≤ 32)
  | 5 => decide (n ≤ 128)
  | 6 => decide (n = 1500 ∨ n = 9000)
  | 7 => decide (n ≤ 4094)
  | 8 => decide (port < 4) && decide (v.length % 16 = 0 ∧ v.length ≤ 128)
  | 9 => decide (1 ≤ n)
  | 10 => decide (4 ≤ port) && decide (n ≤ 1)
  | _ => true

/-- One setting of a port. -/
def PortCfg.put (c : PortCfg) (t : Tlv) : PortCfg :=
  let n := ofBytes t.2
  match t.1 with
  | 2 => { c with ipv4 := n }
  | 3 => { c with pfx4 := n }
  | 4 => { c with ipv6 := n }
  | 5 => { c with pfx6 := n }
  | 6 => { c with mtu := n }
  | 7 => { c with vid := n }
  | 8 => { c with groups := (List.range (t.2.length / 16)).map (fun i => ofBytes ((t.2.drop (16 * i)).take 16)) }
  | 9 => { c with udp := n }
  | _ => c

/-- PORT_SET on an option copy. -/
def OptCopy.setPort (o : OptCopy) (port : Nat) (ts : List Tlv) : OptCopy :=
  let o1 := { o with ports := Tab.upd {} o.ports port (fun c => ts.foldl PortCfg.put c) }
  match ts.find? (fun t => t.1 == 10) with
  | some t => { o1 with portMode := 1 - ofBytes t.2 }
  | none => o1

/-- Settings of a port: a stream port's are in force at the commit, where it joins its groups; a command port's from the next
restart; both are kept in the option area (R358, R392). -/
def State.setPort (s : State) (port : Nat) (ts : List Tlv) : State :=
  let s1 := s.writeOption (fun o => o.setPort port ts)
  if ts.any (fun t => t.1 == 8) then s1.joinGroups port else s1

/-- PORT_SET. -/
def execPortSet (sid : Nat) (s : State) : Outc :=
  .next (s.runCmd 0x0304 true sid (fun s p =>
    if 5 < p.num 1 then .bad p 1
    else match p.tlvs.find? (fun t => !portFieldOk (p.num 1) t.1 t.2) with
      | some t => .bad p t.1
      | none => .done (s.setPort (p.num 1) p.tlvs) []))

/-- The settings that PORT_READ reports, as TLVs of SLOT numbers of PORT_SET; the option shadows hold them. -/
def State.portTlvs (s : State) (port : Nat) : List Tlv :=
  let c := Tab.get {} s.opt.shadow.ports port
  let udp := if c.udp = 0 then (if port < 4 then 39520 else 39510) else c.udp
  [(1, be 1 port), (2, be 4 c.ipv4), (3, be 1 c.pfx4), (4, be 16 c.ipv6), (5, be 1 c.pfx6), (6, be 2 c.mtu), (7, be 2 c.vid)]
    ++ (if port < 4 then [(8, c.groups.flatMap (be 16))] else []) ++ [(9, be 2 udp)]
    ++ (if 4 ≤ port then [(10, be 1 (1 - s.opt.shadow.portMode))] else [])
    ++ [(11, be 1 (flag (Tab.get ({} : PortCount) s.ing.ports port).link))]

/-- PORT_READ. -/
def execPortRead (sid : Nat) (s : State) : Outc :=
  .next (s.runCmd 0x0305 false sid (fun s p =>
    if 5 < p.num 1 then .bad p 1 else { tlvs := s.portTlvs (p.num 1) }))

/-! ## Stream slots, R360 to R362, R373 -/

/-- A SOURCE from its bytes, Table 10.9. -/
def readSource (kind : Nat) (b : List Byte) : Option Source :=
  let at_ := fun o n => ofBytes ((b.drop o).take n)
  if kind = 0 then
    (let fam := at_ 0 1
     let addr := at_ 4 16
     if b.length = 24 ∧ (fam = 0 ∨ fam = 4 ∨ fam = 6) ∧ at_ 1 1 = 0 ∧ at_ 22 2 = 0 ∧ (fam ≠ 0 ∨ addr = 0) ∧ (fam ≠ 4 ∨ addr < 2 ^ 32) then
       some (.frame fam (at_ 2 2) addr (at_ 20 2))
     else none)
  else
    let n := at_ 13 1
    if 16 ≤ b.length ∧ b.length = 16 + padded n ∧ 1 ≤ n ∧ n ≤ 129 ∧ at_ 12 1 ≤ 23 ∧ at_ 14 2 = 0 ∧ 0x4000 ≤ at_ 6 2 ∧ at_ 6 2 ≤ 0x7FFF
        ∧ (b.drop (16 + n)).all (· == 0) then
      some (.sv (at_ 0 6) (at_ 6 2) (at_ 8 4) (at_ 12 1) ((b.drop 16).take n))
    else none

/-- A SOURCE as bytes. -/
def Source.bytes : Source → List Byte
  | .frame fam udp addr id => be 1 fam ++ be 1 0 ++ be 2 udp ++ be 16 addr ++ be 2 id ++ be 2 0
  | .sv dmac appid conf elem svid => be 6 dmac ++ be 2 appid ++ be 4 conf ++ be 1 elem ++ be 1 svid.length ++ be 2 0 ++ fieldBytes (padded svid.length) svid

/-- Two slots name the same source (R360). -/
def State.sameSource (s : State) (a b : SlotCfg) : Bool :=
  (List.range 4).any (fun port => a.ports.testBit port && b.ports.testBit port &&
    match a.source, b.source with
    | .frame fa ua aa ia, .frame fb ub ab ib =>
      let eff := fun u => if u = 0 then (s.portCfg port).streamUdp else u
      decide (eff ua = eff ub ∧ ia = ib) && decide (fa = 0 ∨ fb = 0 ∨ (fa = fb ∧ aa = ab))
    | .sv da pa ca ea va, .sv db pb cb eb vb => decide (da = db ∧ pa = pb ∧ ca = cb ∧ ea = eb ∧ va = vb)
    | _, _ => false)

/-- svIDs that slots name. -/
def svidsOf (l : List SlotCfg) : List (List Byte) :=
  (l.filterMap (fun c => match c.source with | .sv _ _ _ _ v => some v | _ => none)).dedup

/-- D and D_s at an input of the image in force; 1 and 1 where it has none. -/
def State.inputRatio (s : State) (input : Nat) : Nat × Nat :=
  match s.image with
  | none => (1, 1)
  | some i => match i.inputs[input]? with | some x => (max 1 i.front.d, x.ds) | none => (1, 1)

/-- Nominal rates that a slot may have (Tables 10.1, 10.4). -/
def rateOk (kind format rate : Nat) : Bool :=
  if kind = 1 then rate ∈ [4000, 4800, 12800, 14400, 96000]
  else decide (1 ≤ rate) && decide (rate ≤ if format = 0x10 then 20000000 else 12000000)

/-- The setting that SLOT_SET asks for, or the TYPE of the parameter that breaks its range (R360, R361). -/
def slotAsked (p : Packet) : Except Nat SlotCfg :=
  let k := p.num 2
  if 31 < p.num 1 then .error 1
  else if 1 < k then .error 2
  else if 15 < p.num 3 then .error 3
  else match readSource k ((p.val 4).getD []) with
    | none => .error 4
    | some src =>
      if (p.num 5 ≠ 0x10 ∧ p.num 5 ≠ 0x18) ∨ (k = 1 ∧ p.num 5 ≠ 0x18) then .error 5
      else if 16 < p.num 6 then .error 6
      else if rateOk k (p.num 5) (p.num 7) = false then .error 7
      else if (k = 1 ∨ (p.num? 8).isSome = true) ∧ (65536 < (p.num? 8).getD (p.num 7) ∨ (p.num? 8).getD (p.num 7) < 2) then .error 8
      else if 31 < p.num 9 ∧ p.num 9 ≠ 63 then .error 9
      else if 65536 < (p.num? 10).getD 1024 then .error 10
      else if 1 < p.num 11 then .error 11
      else .ok { kind := k, ports := p.num 3, source := src, format := p.num 5, shift := p.num 6, nomrate := p.num 7
                 wrap := (p.num? 8).getD (p.num 7), input := p.num 9, rw := (p.num? 10).getD 1024, startArr := p.num 11 == 1 }

/-- Why a setting does not fit beside the other slots: the TYPE at fault (R360, R362, R373, Table 10.1). -/
def State.slotClash (s : State) (n : Nat) (c : SlotCfg) : Option Nat :=
  let others := s.ing.slots.filterMap (fun e => if e.1 = n then none else e.2.cfg)
  let (d, ds) := s.inputRatio c.input
  if others.any (fun o => s.sameSource o c) ∨ 8 < (svidsOf (c :: others)).length then some 4
  else if c.input ≠ 63 ∧ others.any (fun o => decide (o.input = c.input)) then some 9
  else if c.cap * d < c.rw * ds + 8192 * d then some 10
  else if 640000000 < c.nomrate + (others.map (·.nomrate)).sum then some 7
  else none

/-- SLOT_SET: the slot starts with an empty ring, its status and counters clear. -/
def execSlotSet (sid : Nat) (s : State) : Outc :=
  .next (s.runCmd 0x0301 true sid (fun s p =>
    match slotAsked p with
    | .error t => .bad p t
    | .ok c =>
      let n := p.num 1
      if s.consuming n then .no .busy
      else match s.slotClash n c with
        | some t => .bad p t
        | none => .done (((s.updSlot n (fun _ => { cfg := some c })).askPower .streamIngress 0).configChanged) []))

/-- SLOT_READ: the TLVs of SLOT_SET; an unconfigured slot answers its number. -/
def execSlotRead (sid : Nat) (s : State) : Outc :=
  .next (s.runCmd 0x0302 false sid (fun s p =>
    if 31 < p.num 1 then .bad p 1
    else match (s.slot (p.num 1)).cfg with
      | none => .read [be 1 (p.num 1)]
      | some c => .read [be 1 (p.num 1), be 1 c.kind, be 1 c.ports, c.source.bytes, be 1 c.format, be 1 c.shift, be 4 c.nomrate, be 4 c.wrap,
          be 1 c.input, be 4 c.rw, be 1 (flag c.startArr)]))

/-- SLOT_FREE. -/
def execSlotFree (sid : Nat) (s : State) : Outc :=
  .next (s.runCmd 0x0303 true sid (fun s p =>
    if 31 < p.num 1 then .bad p 1
    else if s.consuming (p.num 1) then .no .busy
    else .done ((s.updSlot (p.num 1) (fun _ => {})).configChanged) []))

/-- The stream status word of a slot. -/
def State.slotWord (s : State) (n : Nat) : Nat := (s.slot n).word (s.consuming n) (decide (s.refSlot = some n))

/-- STREAM_STATUS. -/
def execStreamStatus (sid : Nat) (s : State) : Outc :=
  .next (s.runCmd 0x0306 false sid (fun s p =>
    if 31 < p.num 1 then .bad p 1 else .read [be 8 (s.slotWord (p.num 1)), (s.slot (p.num 1)).counters]))

/-- Clear the SC bits and counters that a mask names: bits [40:32] as Table 10.7, bits [9:0] the counters of Table 10.8 from
RATEPPM up to HIGHIDX (R388, R389). -/
def Slot.clear (x : Slot) (m : Nat) : Slot :=
  let b := fun k (v : Bool) => v && !m.testBit k
  let n := fun k (v : Nat) => if m.testBit k then 0 else v
  { x with
    disc := b 40 x.disc, gap := b 39 x.gap, late := b 38 x.late, dup := b 37 x.dup, rate := b 36 x.rate, ovf := b 35 x.ovf,
    frame := b 34 x.frame, qual := b 33 x.qual, silent := b 32 x.silent, highIdx := n 9 x.highIdx, frames := n 8 x.frames,
    badFrames := n 7 x.badFrames, reorder := n 6 x.reorder, lateSmp := n 5 x.lateSmp, dupSmp := n 4 x.dupSmp, filled := n 3 x.filled,
    ovfSmp := n 2 x.ovfSmp, clamp := n 1 x.clamp, ratePpm := if m.testBit 0 then 0 else x.ratePpm }

/-- STREAM_CLEAR; a one over a reserved bit is refused (R16). -/
def execStreamClear (sid : Nat) (s : State) : Outc :=
  .next (s.runCmd 0x0307 true sid (fun s p =>
    if 31 < p.num 1 then .bad p 1
    else if p.num 2 &&& 0x1FF000003FF ≠ p.num 2 then .bad p 2
    else
      let s1 := s.updSlot (p.num 1) (fun x => x.clear (p.num 2))
      .done s1 [be 8 (s1.slotWord (p.num 1))]))

end Sys2Proof.Machine
end

