-- ==== Sys2Proof/Machine/CtxCmds.lean ====
section
/-! DEFINITION. The commands of the 0x04xx group: start, stop, reset, settings, quotas, RUN and RUN_CANCEL (R295 to R302,
R309, R364, R409, R410, R426). -/

namespace Sys2Proof.Machine

open Sys2Proof

/-! ## The lead's record of what is started, R364 -/

/-- The RUN byte as this member has it: the watch bit kept, the inspect bit from its own contexts (Table 9.7). -/
def State.noteRun (s : State) (watch : Bool) : State :=
  let any := s.ctxs.any (fun e => decide (e.1 ≠ 0) && e.2.started)
  { s with pack := { s.pack with run := flag watch + 2 * flag any } }

/-- The pack's watch context is recorded as started. -/
def State.watchNoted (s : State) : Bool := decide (s.pack.run % 2 = 1)

/-- Context 0 of a pack whose filling module is another member: the lead only records the start and the stop, and
LEAD_HB carries them (R293, R364). -/
def State.watchElsewhere (s : State) (c : Nat) : Bool := decide (c = 0) && !s.solo && decide (s.pack.fill ≠ s.optv.ppos)

/-- What a start of the watch context is refused with where the lead does not run it itself. -/
def State.noteStart (s : State) : Status :=
  match s.image with
  | none => if s.img.active.isSome then .signatureFail else .badParam
  | some i => if i.watch.isNone then .badParam else if s.watchNoted then .busy else .ok

/-- A start command: the status and the state it leaves. -/
def State.startCmd (s : State) (c : Nat) : Status × State :=
  if s.watchElsewhere c then (s.noteStart, (s.noteRun true).syncIngest)
  else if s.solo then s.startCtx c
  else
    let r := (s.noteRun (s.watchNoted || decide (c = 0))).startCtx c
    (r.1, (r.2.noteRun r.2.watchNoted).syncIngest)

/-- CTX_START. -/
def execCtxStart (sid : Nat) (s : State) : Outc :=
  .next (s.runCmd 0x0401 true sid (fun s p =>
    let r := s.startCmd p.ctx
    if r.1.code < 0x10 then { st := r.1, next := some r.2.configChanged } else .no r.1))

/-! ## Stop and reset, R297 -/

/-- A stop that takes effect at its own commit: no period or iteration is in progress, or the context is Shed or Faulted. -/
def State.stopAtCommit (s : State) (c : Nat) : State :=
  let who := (s.ctx c).stopReq.getD []
  let s1 := if (s.ctx c).state = .shed ∨ (s.ctx c).state = .faulted then s.setPass c none
    else if c = 0 then (if s.watch.len = 0 then s else s.closeInterval 0) else s.cutPass c
  (s1.endCtx c).stopDone c who

/-- A stop is asked for: the pending pass goes; it takes effect at once or at the next boundary. -/
def State.askStop (s : State) (c : Nat) (who : List (Nat × Nat)) : State :=
  let s1 := s.updCtx c (fun x => { x with stopReq := some (x.stopReq.getD [] ++ who), pend := none })
  match (s.ctx c).state with
  | .shed | .faulted => s1.stopAtCommit c
  | _ => if s1.idle c = true ∧ (c ≠ 0 ∨ s1.watch.mandatory = false) then s1.stopAtCommit c else s1

/-- CTX_STOP. -/
def execCtxStop (sid : Nat) (s : State) : Outc :=
  .next (s.runCmd 0x0402 true sid (fun s p =>
    if s.watchElsewhere p.ctx then
      (if s.watchNoted then .accepted (((s.noteRun false).syncIngest.configChanged).stopDone 0 [(sid, p.seq)]) [] else .read [])
    else match (s.ctx p.ctx).state with
      | .free | .stopped => .read []
      | _ =>
        let s1 := s.askStop p.ctx [(sid, p.seq)]
        let s2 := if s1.solo then s1 else (s1.noteRun (s1.watchNoted && decide (p.ctx ≠ 0))).syncIngest
        .accepted s2.configChanged []))

/-- A context ends at once, as a fault ends it, without WATCHDOG; it is then Stopped, and a stop it owed is complete. -/
def State.resetCtx (s : State) (c : Nat) : State :=
  let who := (s.ctx c).stopReq.getD []
  let s0 := s.dropCtx c 0
  let s1 := (s0.each (s0.faultedOf c) (fun s t => s.updThread t Thread.freed)).updCtx c (fun x =>
    { x with state := .stopped, cause := 0, stopReq := none, poisoned := false, buffers := 0
             pt := x.pendPt.getD x.pt, allow := x.pendAllow.getD x.allow, rint := x.pendRint.getD x.rint
             pendPt := none, pendAllow := none, pendRint := none })
  ((if c = 0 then { s1 with watch := {} } else s1).syncIngest).stopDone c who

/-- CTX_RESET. -/
def execCtxReset (sid : Nat) (s : State) : Outc :=
  .next (s.runCmd 0x0403 true sid (fun s p =>
    if s.watchElsewhere p.ctx then
      (if s.watchNoted then .done (s.noteRun false).syncIngest.configChanged [] else .read [])
    else match (s.ctx p.ctx).state with
      | .free | .stopped => .read []
      | _ =>
        let s1 := s.resetCtx p.ctx
        let s2 := if s1.solo then s1 else (s1.noteRun (s1.watchNoted && decide (p.ctx ≠ 0))).syncIngest
        .done s2.configChanged []))

/-! ## Settings, R426 -/

/-- PENDING: bit n − 1 for the parameter of TYPE n. -/
def Ctx.pendingByte (x : Ctx) : Nat := 4 * flag x.pendPt.isSome + 8 * flag x.pendAllow.isSome + 16 * flag x.pendRint.isSome

/-- CTX_READ. -/
def execCtxRead (sid : Nat) (s : State) : Outc :=
  .next (s.runCmd 0x0404 false sid (fun s p =>
    let x := s.ctx p.ctx
    let words := if p.num 1 = 0 then []
      else [((s.threadsOf p.ctx ++ s.faultedOf p.ctx).flatMap (fun t => be 16 (s.threadWord t))).take (s.room sid 88 / 16 * 16)]
    .read ([be 8 (x.word p.ctx s.life.now), be 1 (s.prioOf p.ctx), be 4 x.wdog, be 4 x.pt, be 4 x.allow, be 4 x.rint, be 4 x.sched,
      be 1 x.pendingByte] ++ words)))

/-- The parameter of CTX_SET that breaks a range or names the wrong kind of context (R31, R277, R285, R294, R426). -/
def Ctx.setBad (x : Ctx) (c : Nat) (p : Packet) : Option Nat :=
  let out := fun (ty lo hi : Nat) => match p.num? ty with | some v => decide (v < lo ∨ hi < v) | none => false
  let has := fun (ty : Nat) => (p.num? ty).isSome
  let pt := (p.num? 3).getD (x.pendPt.getD x.pt)
  if out 1 (if c = 0 then 255 else 0) (if c = 0 then 255 else 254) then some 1
  else if out 2 1 60000 then some 2
  else if out 3 1 65536 ∨ (has 3 = true ∧ c ≠ 0) then some 3
  else if out 4 0 (4 * pt) ∨ (has 4 = true ∧ c ≠ 0) then some 4
  else if has 3 = true ∧ has 4 = false ∧ 4 * pt < x.pendAllow.getD x.allow then some 3
  else if out 5 1 65536 ∨ (has 5 = true ∧ c ≠ 0) then some 5
  else if has 6 = true ∧ c = 0 then some 6
  else none

/-- The settings that take effect at the commit; a Free context is configured and so Stopped (Table 8.2). -/
def Ctx.setNow (x : Ctx) (c : Nat) (p : Packet) : Ctx :=
  { x with
    state := if x.state = .free then .stopped else x.state
    prio := if c = 0 then x.prio else (p.num? 1).getD x.prio
    wdog := (p.num? 2).getD x.wdog
    sched := (p.num? 6).getD x.sched
    schedCount := if (p.num? 6).isSome then 0 else x.schedCount }

/-- PT, ALLOW and RINT: pending while the watch context is started, Shed or Faulted, else in force at the commit. -/
def Ctx.setLater (x : Ctx) (p : Packet) : Ctx :=
  if x.holds then
    { x with pendPt := (p.num? 3).or x.pendPt, pendAllow := (p.num? 4).or x.pendAllow, pendRint := (p.num? 5).or x.pendRint }
  else { x with pt := (p.num? 3).getD x.pt, allow := (p.num? 4).getD x.allow, rint := (p.num? 5).getD x.rint }

/-- CTX_SET. -/
def execCtxSet (sid : Nat) (s : State) : Outc :=
  .next (s.runCmd 0x0405 true sid (fun s p =>
    match (s.ctx p.ctx).setBad p.ctx p with
    | some t => .bad p t
    | none =>
      let s1 := (s.updCtx p.ctx (fun x => (x.setNow p.ctx p).setLater p)).configChanged
      let b := be 1 (s1.ctx p.ctx).pendingByte
      let later := (p.num? 3).isSome || (p.num? 4).isSome || (p.num? 5).isSome
      if later = true ∧ (s.ctx p.ctx).holds = true then .accepted s1 [b] else .done s1 [b]))

/-! ## Quotas, R300 to R302 -/

/-- Module totals of Table 8.4, by TYPE 1 to 5 of QUOTA_SET. -/
def State.quotaTotal (s : State) (ty : Nat) : Nat :=
  match ty with
  | 1 => 4096 | 2 => 16384 | 3 => 1792 | 4 => s.bytesTotal | _ => s.inForce / 10

/-- A quota by TYPE. -/
def Quota.at_ (q : Quota) (ty : Nat) : Nat :=
  match ty with
  | 1 => q.threads | 2 => q.counters | 3 => q.rings | 4 => q.bytes | _ => q.power

/-- The quotas that QUOTA_SET asks for. -/
def Quota.put (q : Quota) (p : Packet) : Quota :=
  { threads := (p.num? 1).getD q.threads, counters := (p.num? 2).getD q.counters, rings := (p.num? 3).getD q.rings
    bytes := (p.num? 4).getD q.bytes, power := (p.num? 5).getD q.power }

/-- QUOTA_SET: a value above the module total is out of range; a raised quota must fit beside the others. -/
def execQuotaSet (sid : Nat) (s : State) : Outc :=
  .next (s.runCmd 0x0406 true sid (fun s p =>
    let q := (s.ctx p.ctx).quota
    let q1 := q.put p
    match [1, 2, 3, 4, 5].find? (fun ty => decide (s.quotaTotal ty < (p.num? ty).getD 0)) with
    | some t => .bad p t
    | none =>
      if [1, 2, 3, 4, 5].any (fun ty => decide (q.at_ ty < q1.at_ ty) &&
          decide (s.quotaTotal ty < s.quotaSum p.ctx (fun x => x.at_ ty) + q1.at_ ty)) then .no .noResource
      else .done ((s.updCtx p.ctx (fun x =>
        { x with quota := q1, state := if x.state = .free then .stopped else x.state })).configChanged) []))

/-- QUOTA_READ. -/
def execQuotaRead (sid : Nat) (s : State) : Outc :=
  .next (s.runCmd 0x0407 false sid (fun s p =>
    let x := s.ctx p.ctx
    .read [be 2 x.quota.threads, be 2 x.quota.counters, be 2 x.quota.rings, be 8 x.quota.bytes, be 2 x.quota.power,
      be 2 (s.threadsOf p.ctx).length, be 2 (s.owned p.ctx).length, be 2 (s.ringsOf p.ctx).length, be 8 x.buffers,
      be 2 ((x.estimate + 9) / 10)]))

/-! ## RUN and RUN_CANCEL, R38, R409, R410 -/

/-- Held tokens that overlap a reference sample index. -/
def State.heldAt (s : State) (x : Nat) : List HistSlot :=
  (s.hist.slots.filter (fun e => e.2.holds && decide (e.2.sidx ≤ x ∧ x < e.2.sidx + s.tokenSpan))).map Prod.snd

/-- The token of the newest run. -/
def newestRun : List HistSlot → Option HistSlot
  | [] => none
  | h :: hs => match newestRun hs with
    | none => some h
    | some g => if g.run < h.run then some h else some g

/-- The oldest append number held of a run. -/
def State.oldestOf (s : State) (run : Nat) : Option Nat :=
  match (s.hist.slots.filter (fun e => e.2.holds && decide (e.2.run = run))).map (fun e => e.2.no) with
  | [] => none
  | n :: ns => some (ns.foldl min n)

/-- Append number that token `n` of the present run has or will have. -/
def State.noOf (s : State) (n : Nat) : Nat :=
  match s.newest with
  | some h =>
    if h.run = s.ing.run then (if h.token ≤ n then h.no + (n - h.token) else h.no - (h.token - n)) else s.hist.appended + n
  | none => s.hist.appended + n

/-- Why a RUN cannot take its range. -/
inductive RunBad where
  | busy
  | beyond
  deriving DecidableEq, Repr

/-- The append numbers that FIRST to LAST name: in the newest run that holds a token overlapping LAST, else in the present
one. -/
def State.runRange (s : State) (a b : Nat) : Except RunBad (Nat × Nat) :=
  let w := s.tokenSpan
  match newestRun (s.heldAt b) with
  | some h => .ok (max ((s.oldestOf h.run).getD h.no) (h.no - (h.sidx + w - 1 - a) / w), h.no)
  | none =>
    match s.ing.s0 with
    | none => .error .busy
    | some o =>
      let first := s.noOf ((a - o) / w)
      if b < o then .ok (s.noOf 0 + 1, s.noOf 0)
      else
        let t := (b - o) / w
        let limit := match s.newestTok s.ing.run with | some n => n + 65536 | none => 65535
        if limit < t then .error .beyond else .ok (first, s.noOf t)

/-- The range of a RUN at the lead of a pack, which knows tokens by their sample indices. -/
def State.runPack (s : State) (b : Nat) : Except RunBad (Nat × Nat) :=
  match s.pack.heldBy.map (fun e => e.2 - 1) with
  | [] => .error .busy
  | n :: ns => if ns.foldl max n + 65536 * s.tokenSpan + s.tokenSpan - 1 < b then .error .beyond else .ok (0, 0)

/-- RUN. -/
def execRun (sid : Nat) (s : State) : Outc :=
  .next (s.runCmd 0x0408 true sid (fun s p =>
    let x := s.ctx p.ctx
    let a := p.num 1
    let b := p.num 2
    if p.ctx = 0 then { st := .badParam }
    else match x.state with
      | .free | .stopped => .no .busy
      | .faulted => { st := .watchdog, detail := x.cause }
      | _ =>
        if b < a then .bad p 2
        else if s.solo = true ∧ s.ing.s0 = none then .no .busy
        else if x.pend.isSome then .no .busy
        else match (if s.solo then s.runRange a b else s.runPack b) with
          | .error .busy => .no .busy
          | .error .beyond => .bad p 2
          | .ok (first, last) =>
            .accepted (s.updCtx p.ctx (fun x =>
              { x with
                pend := some { no := x.passNo + 1, first := first, last := last, run := 1, askedBy := some (sid, p.seq),
                               sfirst := a, slast := b }
                passNo := x.passNo + 1 })) [be 4 (x.passNo + 1)]))

/-- RUN_CANCEL. -/
def execRunCancel (sid : Nat) (s : State) : Outc :=
  .next (s.runCmd 0x0409 true sid (fun s p =>
    let x := s.ctx p.ctx
    if p.ctx = 0 then { st := .badParam }
    else if 1 < p.num 1 then .bad p 1
    else if x.pend.isNone ∧ (p.num 1 = 1 ∨ x.pass.isNone = true) then .read []
    else .done (s.updCtx p.ctx (fun x =>
      { x with pend := none, pass := if p.num 1 = 1 then x.pass else x.pass.map (fun (q : Pass) => { q with cancel := true }) })) []))

end Sys2Proof.Machine
end

