-- ==== Sys2Proof/Machine/Subs.lean ====
section
/-! DEFINITION. Results, subscriptions, advisories and the session commands on counters: the 0x05xx and 0x06xx groups (R261,
R264, R274, R281, R412, R415, R418, R420, R548). -/

namespace Sys2Proof.Machine

open Sys2Proof

/-! ## Results, R412, R415, R420 -/

/-- RESULT_READ: the record from OFFSET on, as much as the reply holds; a refusal still carries OLDEST and NEWEST. -/
def execResultRead (sid : Nat) (s : State) : Outc :=
  .next (s.runCmd 0x0501 false sid (fun s p =>
    let (old, new) := s.heldRange p.ctx
    let range : List Tlv := [(2, be 8 old), (3, be 8 new)]
    match s.results.find? (fun r => decide (r.ctx = p.ctx ∧ r.resno = p.num 1)) with
    | none => { st := .badParam, detail := p.off 1, tlvs := range }
    | some r =>
      if r.len ≤ p.num 2 then { st := .badParam, detail := p.off 2, tlvs := range }
      else { st := r.status, tlvs := (1, (r.bytes.drop (p.num 2)).take (s.room sid 24)) :: range }))

/-- Armed thresholds, of all sessions or of one. -/
def State.armed (s : State) (keep : Threshold → Bool) : Nat :=
  (s.sync.counters.map (fun e => (e.2.thresholds.filter keep).length)).sum

/-- Subscriptions of a session of all kinds, its armed thresholds among them (R420). -/
def State.subsOf (s : State) (sid : Nat) : Nat :=
  match s.sess sid with
  | none => 0
  | some x => x.results.length + flag x.events.isSome + s.armed (fun (t : Threshold) => t.sid == sid)

/-- RESULT_SUB: held records from FROM on, then each new one. -/
def execResultSub (sid : Nat) (s : State) : Outc :=
  .next (s.runCmd 0x0502 true sid (fun s p =>
    match s.sess sid with
    | none => .read []
    | some x =>
      if x.results.contains p.ctx = false ∧ 64 ≤ s.subsOf sid then .no .noResource
      else
        let s1 := s.updSess sid (fun x => { x with results := if x.results.contains p.ctx then x.results else x.results ++ [p.ctx] })
        let held : List ResultRec := match p.num? 1 with
          | none => []
          | some n => s.results.filter (fun (r : ResultRec) => decide (r.ctx = p.ctx ∧ n ≤ r.resno))
        .done (held.foldl (fun s r => s.resultNotify sid r) s1) []))

/-- RESULT_UNSUB. -/
def execResultUnsub (sid : Nat) (s : State) : Outc :=
  .next (s.runCmd 0x0503 true sid (fun s p =>
    .done (s.updSess sid (fun x => { x with results := x.results.filter (· ≠ p.ctx) })) []))

/-! ## Advisories and events, R418, R548 -/

/-- Eight bytes of a rule state: asserted, the count that runs, hold. -/
def RuleState.bytes (x : RuleState) : List Byte :=
  be 1 (flag x.asserted) ++ be 1 x.triple.2.1 ++ be 4 x.hold ++ be 2 0

/-- ADVISORY_READ. -/
def execAdvisoryRead (sid : Nat) (s : State) : Outc :=
  .next (s.runCmd 0x0504 false sid (fun s _ =>
    .read [be 1 s.outputs.toNat, (List.range ((s.image.map (fun i => i.rules.length)).getD 0)).flatMap (fun n =>
      (Tab.get ({} : RuleState) s.io.rules n).bytes)]))

/-- The bits of a trouble word that Tables 12.4 to 12.6 define. -/
def troubleBits (w : Nat) : Nat := match w with | 0 => top 14 | 1 => top 22 | _ => top 19

/-- The bits of a mask over the three words, word 0 first. -/
def maskBits : Nat := troubleBits 0 * 2 ^ 64 + troubleBits 1 * 2 ^ 32 + troubleBits 2

/-- EVENT_SUB: the session's mask over the trouble words, and whether it takes advisories. -/
def execEventSub (sid : Nat) (s : State) : Outc :=
  .next (s.runCmd 0x0505 true sid (fun s p =>
    match s.sess sid with
    | none => .read []
    | some x =>
      if p.num 1 &&& maskBits ≠ p.num 1 then .bad p 1
      else if 1 < p.num 2 then .bad p 2
      else if x.events = none ∧ 64 ≤ s.subsOf sid then .no .noResource
      else .done (s.updSess sid (fun x => { x with events := some (p.num 1), advisories := p.num 2 == 1 })) []))

/-- EVENT_UNSUB. -/
def execEventUnsub (sid : Nat) (s : State) : Outc :=
  .next (s.runCmd 0x0506 true sid (fun s _ =>
    .done (s.updSess sid (fun x => { x with events := none, advisories := false })) []))

/-! ## Counters, R261, R264, R274, R281 -/

/-- The id of an external session as signaller (Table 7.19). -/
def sessionId (sid : Nat) : Nat := word [(2, 13), (sid, 0)]

/-- The exported counter that an id of a context names. -/
def State.exportOf (s : State) (ctx id : Nat) : Option Nat :=
  match s.physOf ctx id with
  | none => none
  | some p => if s.exported ctx id then some p else none

/-- CTR_SIGNAL: applied at its commit. -/
def execCtrSignal (sid : Nat) (s : State) : Outc :=
  .next (s.runCmd 0x0601 true sid (fun s p =>
    let id := p.num 1
    if 4095 < id then .bad p 1
    else if p.num 2 = 0 then { st := .badParam, detail := p.off 2, next := some (s.misuse (s.physOf p.ctx id) p.ctx) }
    else match s.exportOf p.ctx id with
      | none => { st := .notPermitted, next := some (s.misuse (s.physOf p.ctx id) p.ctx) }
      | some k =>
        if (s.counter k).orphaned then { st := .orphaned, next := some (s.misuse (some k) p.ctx) }
        else .done (s.signalAt k (sessionId sid) (p.num 2)) []))

/-- CTR_READ: a local id of the context, or, for the Service role, a physical counter. -/
def execCtrRead (sid : Nat) (s : State) : Outc :=
  .next (s.runCmd 0x0602 false sid (fun s p =>
    match p.num? 1, p.num? 2 with
    | some id, none =>
      if 63 < p.ctx then { st := .badParam }
      else if 4095 < id then .bad p 1
      else match s.exportOf p.ctx id with
        | none => .no .notPermitted
        | some k => .read [be 32 (s.inspect k)]
    | none, some k =>
      if ((s.sess sid).map (fun (x : Session) => x.role)).getD 0 < 3 then .no .notPermitted
      else if p.ctx ≠ 0xFFFF then { st := .badParam }
      else if 16383 < k then .bad p 2
      else .read [be 32 (s.inspect k)]
    | some _, some _ => .bad p 2
    | none, none => { st := .badParam, detail := p.plen }))

/-- CTR_SUB: a threshold is armed, or, where its level is reached already, notified at once. -/
def execCtrSub (sid : Nat) (s : State) : Outc :=
  .next (s.runCmd 0x0603 true sid (fun s p =>
    let id := p.num 1
    if 4095 < id then .bad p 1
    else match s.exportOf p.ctx id with
      | none => { st := .notPermitted, next := some (s.misuse (s.physOf p.ctx id) p.ctx) }
      | some k =>
        if (s.counter k).orphaned then { st := .orphaned, next := some (s.misuse (some k) p.ctx) }
        else if 64 ≤ s.subsOf sid ∨ 2048 ≤ s.armed (fun _ => true) then .no .noResource
        else
          let t : Threshold := { sid := sid, subId := s.sync.nextSub, level := p.num 2 }
          let s1 := { s with sync := { s.sync with nextSub := (s.sync.nextSub + 1) % 65536 } }
          let s2 := if t.level ≤ (s.counter k).value then s1.thresholdNotify k t .ok
            else s1.updCounter k (fun c => { c with thresholds := c.thresholds ++ [t] })
          .done s2 [be 2 t.subId]))

/-- CTR_UNSUB. -/
def execCtrUnsub (sid : Nat) (s : State) : Outc :=
  .next (s.runCmd 0x0604 true sid (fun s p =>
    let mine := fun (t : Threshold) => t.sid == sid && t.subId == p.num 1
    match s.sync.counters.find? (fun e => e.2.thresholds.any mine) with
    | none => .bad p 1
    | some (k, _) => .done (s.updCounter k (fun c => { c with thresholds := c.thresholds.filter (fun t => !mine t) })) []))

/-- BIND: an orphaned counter gets a new owner at its value, a free one is bound at 0. -/
def State.bindTo (s : State) (ctx id k : Nat) : State :=
  let c := s.counter k
  if c.orphaned then
    let s1 := if s.physOf c.owner c.localId = some k then s.setEntry c.owner c.localId none false else s
    (s1.updCounter k (fun c => { c with owner := ctx, localId := id, orphaned := false })).setEntry ctx id (some k) c.exported
  else
    ((s.updCounter k (fun _ => { owner := ctx, localId := id, bound := true })).setEntry ctx id (some k) false).askPower
      (.clusterCommon (homeOf k)) ctx

/-- BIND (R264). -/
def execBind (sid : Nat) (s : State) : Outc :=
  .next (s.runCmd 0x0605 true sid (fun s p =>
    let id := p.num 1
    let k := p.num 2
    let c := s.counter k
    let held := match s.physOf p.ctx id with | some q => !(s.counter q).orphaned | none => false
    let own := c.orphaned && decide (c.owner = p.ctx)
    if 4095 < id then .bad p 1
    else if 16383 < k then .bad p 2
    else if held = true ∨ (c.bound = true ∧ c.orphaned = false) then .no .busy
    else if own = false ∧ (s.ctx p.ctx).quota.counters ≤ (s.owned p.ctx).length then .no .noResource
    else .done (s.bindTo p.ctx id k) []))

/-- CTR_CLEAR: SAT, OVERTAKEN, MISUSE by the mask. -/
def execCtrClear (sid : Nat) (s : State) : Outc :=
  .next (s.runCmd 0x0606 true sid (fun s p =>
    let m := p.num 2
    if 4095 < p.num 1 then .bad p 1
    else if 7 < m then .bad p 2
    else match s.exportOf p.ctx (p.num 1) with
      | none => .no .notPermitted
      | some k => .done (s.updCounter k (fun c =>
          { c with sat := c.sat && !m.testBit 2, overtaken := c.overtaken && !m.testBit 1, misuse := c.misuse && !m.testBit 0 })) []))

/-- CTR_LIST: the exported ids of the context, in order. -/
def execCtrList (sid : Nat) (s : State) : Outc :=
  .next (s.runCmd 0x0607 false sid (fun s p =>
    let ids := (s.sync.exports.filter (fun e => decide (e.1 / 4096 = p.ctx))).map (fun e => e.1 % 4096)
    .read [(ids.flatMap (be 2)).take (s.room sid 0)]))

end Sys2Proof.Machine
end

