-- ==== Sys2Proof/Machine/Service.lean ====
section
/-! DEFINITION. Budgets, trouble words, the log, and the commands of upkeep: the 0x07xx, 0x09xx and 0x0Axx groups (R174, R182,
R304, R448 to R452, R461, R507). A body that Kennel shares stands on its own (R563). -/

namespace Sys2Proof.Machine

open Sys2Proof

/-! ## Budgets, R304, R305 -/

/-- A change that lowered the budget in force from `before` is a cut. -/
def State.cutFrom (s : State) (before : Nat) : State :=
  if s.inForce < before then { s with supply := { s.supply with cutting := true } } else s

/-- BUDGET_SET. -/
def execBudgetSet (sid : Nat) (s : State) : Outc :=
  .next (s.runCmd 0x0701 true sid (fun s p =>
    let bad := fun (ty : Nat) => match p.num? ty with | some v => decide (v < 60 ∨ 410 < v) | none => false
    if bad 1 then .bad p 1
    else if bad 2 then .bad p 2
    else .done (({ s with supply := { s.supply with
        mainBudget := (p.num? 1).getD s.supply.mainBudget, backupBudget := (p.num? 2).getD s.supply.backupBudget } }.cutFrom
          s.inForce).configChanged) []))

/-! ## Trouble words and the log, R452, R461 -/

/-- TROUBLE_READ. -/
def execTroubleRead (sid : Nat) (s : State) : Outc :=
  .next (s.runCmd 0x0901 false sid (fun s _ => .read [s.logs.bytes]))

/-- Clear trouble bits. -/
def State.clearTrouble (s : State) (w mask : Nat) : State :=
  { s with logs := s.logs.setWord w (s.logs.word w &&& ~~~ BitVec.ofNat 32 mask) }

/-- TROUBLE_CLEAR. -/
def execTroubleClear (sid : Nat) (s : State) : Outc :=
  .next (s.runCmd 0x0902 true sid (fun s p =>
    if 2 < p.num 1 then .bad p 1
    else if p.num 2 &&& troubleBits (p.num 1) ≠ p.num 2 then .bad p 2
    else
      let s1 := s.clearTrouble (p.num 1) (p.num 2)
      .done s1 [s1.logs.bytes]))

/-- Every record that the module holds, stored and staged, in order. -/
def Logs.all (l : Logs) : List LogRec := l.stored ++ l.staged

/-- LSEQ of the oldest record held; the next to be written where none is. -/
def Logs.oldest (l : Logs) : Nat := match l.all with | r :: _ => r.lseq | [] => l.nextLseq

/-- Up to `n` records from LSEQ `from_` on. -/
def Logs.readFrom (l : Logs) (from_ n : Nat) : List LogRec := (l.all.filter (fun r => decide (from_ ≤ r.lseq))).take n

/-- LOG_READ: the records, the LSEQ that follows them, the oldest one. -/
def execLogRead (sid : Nat) (s : State) : Outc :=
  .next (s.runCmd 0x0903 false sid (fun s p =>
    let fit := s.room sid 24 / 64
    let rs := s.logs.readFrom (p.num 1) (min ((p.num? 2).getD fit) fit)
    let next := match rs.getLast? with | some r => r.lseq + 1 | none => max (p.num 1) s.logs.oldest
    .read [rs.flatMap LogRec.bytes, be 8 next, be 8 s.logs.oldest]))

/-! ## REPLAN and SWEEP, R174, R182 -/

/-- Free planes of an engine's core: erased planes, other than plane 16, of its active engines. -/
def State.freePlanes (s : State) (e : Nat) : List (Nat × Nat) :=
  ((List.range 9).map (fun i => e / 9 * 9 + i)).flatMap (fun f =>
    if (s.panel f).pstate = 0 then
      (List.range 16).filterMap (fun p => if (s.plane (17 * f + p)).state = 0 then some (f, p) else none)
    else [])

/-- REPLAN: a retired panel whose blocks are not moved yet. -/
def execReplan (sid : Nat) (s : State) : Outc :=
  .next (s.runCmd 0x0A03 true sid (fun s p =>
    let w := p.num 1
    let e := locToEngine w
    if locOk w 5 = false ∨ (s.panel e).pstate ≠ 3 ∨ (s.panel e).replanned = true then .bad p 1
    else if s.upk.replan.isSome ∨ s.img.swap.isSome then .no .busy
    else
      let ts := (s.freePlanes e).take 16
      if ts.length < 16 then .no .noResource
      else
        let s1 := s.journal 0x0D 0 w w
        let s2 := { s1 with upk := { s1.upk with replan := some { engine := e, targets := ts, left := ts, askedBy := some (sid, p.seq) } } }
        .accepted (ts.foldl (fun s t =>
          s.pushWork { prio := 3, engine := t.1, plane := t.2, op := .program, why := .replan }) s2) []))

/-- SWEEP: a level read of the panel's 17 planes at priority 6. -/
def execSweep (sid : Nat) (s : State) : Outc :=
  .next (s.runCmd 0x0A04 true sid (fun s p =>
    let w := p.num 1
    let e := locToEngine w
    if locOk w 5 = false then .bad p 1
    else
      let s1 := { s with upk := { s.upk with sweepAsked := s.upk.sweepAsked ++ [(e, sid, p.seq)] } }
      .accepted ((List.range 17).foldl (fun s k =>
        s.pushWork { prio := 6, engine := e, plane := k, op := .levelRead, why := .sweep }) s1) []))

/-! ## RETIRE, R448 to R451 -/

/-- Bytes of history that the image in force has where `out` banks are laid out of the map (R25, R450). -/
def Image.histBytes (i : Image) (out : Nat) : Nat := (i.histRegion out).2 - (i.histRegion out).1

/-- The channel group and bank of a board address. -/
def bankKey (a : Nat) : Nat := 32 * (a / 256 % 4) + Config.bankOf a % 16

/-- The SRAM unit that a location word and offset name, with its size; base SRAM counts by 8 MiB (R451). -/
def sramUnit (w off : Nat) : Option (Nat × Nat) :=
  if locOk w 5 then some (w, 65536)
  else if locOk w 4 then some (w, 524288)
  else if locOk w 2 then some (w, 4194304)
  else if w = 0 then some (off / 8388608, 0x3800000)
  else none

/-- What RETIRE does: the state, or the status that refuses it with the state it leaves. -/
def State.retireCmd (s : State) (kind a : Nat) : Except (Status × State) State :=
  match kind with
  | 0 =>
    if Space.board.size ≤ a then .error (.badParam, s)
    else if 4096 ≤ s.mem.spares then .error (.noResource, s)
    else .ok (s.retirePage a)
  | 1 =>
    let k := bankKey a
    let lowers := match s.image with
      | some i => decide (i.histBytes (s.mem.banks.length + 1) < i.histBytes s.mem.banks.length)
      | none => false
    if Space.board.size ≤ a ∨ s.mem.banks.contains k = true then .error (.badParam, s)
    else if 4 ≤ s.mem.banks.length ∨ lowers = true then .error (.noResource, s)
    else .ok ({ s with mem := { s.mem with banks := s.mem.banks ++ [k] }, upk := { s.upk with dirty := true } }.log
      { code := 0x0003, bunit := Space.board.bunit a, detail := memDetail a 0 0 })
  | 2 =>
    let w := a / 2 ^ 32
    let off := a % 2 ^ 32
    match sramUnit w off with
    | none => .error (.badParam, s)
    | some (u, size) =>
      if size ≤ off ∨ off % 8192 ≠ 0 then .error (.badParam, s)
      else if Tab.get 0 s.mem.sramBanks u ≠ 0 then .error (.noResource, s.trouble 1 21 w (if w = 0 then 11 else 0) 0xFF (memDetail off 0 0))
      else .ok ({ s with mem := { s.mem with sramBanks := Tab.set 0 s.mem.sramBanks u (off + 1) }, upk := { s.upk with dirty := true } }.log
        { code := 0x0004, loc := w, bunit := if w = 0 then 11 else 0, detail := memDetail off 0 0 })
  | _ => .error (.badParam, s)

/-- RETIRE. -/
def execRetire (sid : Nat) (s : State) : Outc :=
  .next (s.runCmd 0x0A05 true sid (fun s p =>
    match s.retireCmd (p.num 1) (p.num 2) with
    | .ok t => .done t []
    | .error (.badParam, _) => .bad p (if 2 < p.num 1 then 1 else 2)
    | .error (st, t) => { st := st, next := some t }))

/-! ## CHECKPOINT, R507 -/

/-- CHECKPOINT. -/
def execCheckpoint (sid : Nat) (s : State) : Outc :=
  .next (s.runCmd 0x0A06 true sid (fun s p =>
    .accepted ({ s with ckpt := { s.ckpt with asked := s.ckpt.asked ++ [(sid, p.seq)] } }.askCkpt) []))

end Sys2Proof.Machine
end

