-- ==== Sys2Proof/Machine/Trust.lean ====
section
/-! DEFINITION. Trust anchors, the deny list, attestation, identity, firmware loads and restarts: the 0x0Bxx and 0x0Cxx groups
(R493, R500 to R507, R560). A body that Kennel shares stands on its own (R563). -/

namespace Sys2Proof.Machine

open Sys2Proof

/-! ## Attestation and identity, R501, R505, R506 -/

/-- FLAGS of the attestation report. -/
def State.attestFlags (s : State) : Nat :=
  word [(flag s.life.unlockedOnce, 0), (flag s.life.usedFall, 1), (s.opt.shadow.svcEn, 2), (flag (decide (s.life.startKind = 1)), 3)]

/-- Bytes 0 to 295 of the attestation report (Table 14.5). -/
def State.attestBody (s : State) (nonce : List Byte) : List Byte :=
  be 4 0x53504154 ++ be 2 1 ++ be 2 s.optv.level ++ fieldBytes 16 s.optv.serial ++ be 16 s.optv.uid ++ be 4 s.life.poc
    ++ be 4 s.life.fwver ++ be 4 s.opt.shadow.fwCtr ++ be 4 s.opt.shadow.imgCtr ++ be 8 s.life.commit ++ fieldBytes 32 nonce
    ++ be 1 s.life.bank ++ be 1 s.opt.shadow.lock ++ be 2 s.attestFlags ++ be 4 0 ++ be 16 s.imageId ++ be 8 s.optv.packId
    ++ be 1 s.optv.ppos ++ be 1 s.optv.psize ++ be 6 0 ++ (List.range 5).flatMap (fun k => be 32 (s.life.measures.getD k 0))

/-- The attestation report with its signature. -/
def State.attestReport (s : State) (nonce : List Byte) : List Byte :=
  let b := s.attestBody nonce
  b ++ be 2 3309 ++ fieldBytes 3309 (Config.sign (Config.sha3 b))

/-- ATTEST: the report, as much as the reply holds. -/
def execAttest (sid : Nat) (s : State) : Outc :=
  .next (s.runCmd 0x0B01 false sid (fun s p => .read [(s.attestReport ((p.val 1).getD [])).take (s.room sid 0)]))

/-- IDENTITY_READ: the identity chain from OFFSET on, as much as the reply holds, and its length. -/
def execIdentityRead (sid : Nat) (s : State) : Outc :=
  .next (s.runCmd 0x0B02 false sid (fun s p =>
    if Config.identityChain.length < p.num 1 then .bad p 1
    else .read [(Config.identityChain.drop (p.num 1)).take (s.room sid 8), be 4 Config.identityChain.length]))

/-! ## Anchors and the deny list, R502 to R505, R560 -/

/-- One anchor as ANCHOR_READ gives it. -/
def Anchor.entry (a : Anchor) : List Byte := be 1 a.index ++ be 1 a.kind ++ be 1 a.role ++ be 32 (Config.sha3 a.cert)

/-- The anchors in force: of the firmware anchors those that the boot found (R502). -/
def Trust.inForce (t : Trust) : List Anchor :=
  (t.anchors.filter (fun a => decide (a.kind ≠ 2)) ++ t.fwAnchors).mergeSort (fun a b => decide (a.index ≤ b.index))

/-- Measurement 3: the anchors and the deny list in force, in index order (Table 14.4). -/
def Trust.digest (t : Trust) : Nat := Config.sha3 (t.inForce.flatMap Anchor.entry ++ t.deny.flatMap (fun d => be 1 d.length ++ d))

/-- The trust area changes; measurement 3 with it. -/
def State.setTrust (s : State) (t : Trust) : State :=
  { s with trust := t, life := { s.life with measures := s.life.measures.set 3 t.digest } }

/-- Limit of each kind of anchor (Table 14.3). -/
def anchorMax (kind : Nat) : Nat := match kind with | 0 => 16 | 1 => 8 | _ => 4

/-- Anchors of a kind. -/
def Trust.ofKind (t : Trust) (kind : Nat) : List Anchor := t.anchors.filter (fun a => decide (a.kind = kind))

/-- The lowest index that no anchor has. -/
def Trust.freeIndex (t : Trust) : Nat := ((List.range 256).find? (fun n => !t.anchors.any (fun a => a.index == n))).getD 0

/-- Put an anchor in its place in index order. -/
def insertAnchor (a : Anchor) : List Anchor → List Anchor
  | [] => [a]
  | b :: bs => if b.index < a.index then b :: insertAnchor a bs else a :: b :: bs

/-- ANCHOR_ADD: the new index and the state. -/
def State.anchorAdd (s : State) (kind : Nat) (role : Option Nat) (cert : List Byte) : Except Status (Nat × State) :=
  if 2 < kind ∨ 3 < role.getD 0 ∨ (kind = 0 ∧ role = none) ∨ cert = [] then .error .badParam
  else if kind = 2 ∧ s.opt.shadow.lock = 1 then .error .notPermitted
  else if anchorMax kind ≤ (s.trust.ofKind kind).length then .error .noResource
  else
    let n := s.trust.freeIndex
    let a : Anchor := { index := n, kind := kind, role := if kind = 0 then role.getD 0 else 0, cert := cert }
    .ok (n, s.setTrust { s.trust with anchors := insertAnchor a s.trust.anchors })

/-- End the sessions that a test picks, with a cause. -/
def State.endWhere (s : State) (cause : Nat) (pick : Session → Bool) : State :=
  s.each s.sids (fun s n => match s.sess n with
    | some x => if pick x then s.endSession n cause else s
    | none => s)

/-- ANCHOR_REMOVE. -/
def State.anchorRemove (s : State) (index : Nat) : Except Status State :=
  match s.trust.anchors.find? (fun a => a.index == index) with
  | none => .error .badParam
  | some a =>
    let service := s.trust.anchors.filter (fun b => decide (b.kind = 0 ∧ b.role = 3))
    let lastImage := decide (a.kind = 1) && decide ((s.trust.ofKind 1).length ≤ 1)
    let fixed := decide (a.kind = 2) && decide (s.opt.shadow.lock = 1)
    let lastService := decide (a.kind = 0 ∧ a.role = 3) && decide (s.opt.shadow.lock = 1) && decide (service.length ≤ 1)
    if lastImage || fixed || lastService then .error .notPermitted
    else
      let s1 := s.setTrust { s.trust with anchors := s.trust.anchors.filter (fun b => b.index != index) }
      .ok (if a.kind = 0 then s1.endWhere 3 (fun x => x.anchor == index) else s1)

/-- ANCHOR_READ. -/
def execAnchorRead (sid : Nat) (s : State) : Outc :=
  .next (s.runCmd 0x0B03 false sid (fun s _ => .read [(s.trust.anchors.flatMap Anchor.entry).take (s.room sid 0)]))

/-- ANCHOR_ADD. -/
def execAnchorAdd (sid : Nat) (s : State) : Outc :=
  .next (s.runCmd 0x0B04 true sid (fun s p =>
    match s.anchorAdd (p.num 1) (p.num? 2) ((p.val 3).getD []) with
    | .ok (n, t) => .done t [be 1 n]
    | .error .badParam => .bad p (if 2 < p.num 1 then 1 else if (p.val 3).getD [] = [] then 3 else 2)
    | .error st => .no st))

/-- ANCHOR_REMOVE. -/
def execAnchorRemove (sid : Nat) (s : State) : Outc :=
  .next (s.runCmd 0x0B05 true sid (fun s p =>
    match s.anchorRemove (p.num 1) with
    | .ok t => .done t []
    | .error .badParam => .bad p 1
    | .error st => .no st))

/-- DENY_ADD: the sessions whose chain contains the serial number end. -/
def execDenyAdd (sid : Nat) (s : State) : Outc :=
  .next (s.runCmd 0x0B06 true sid (fun s p =>
    let n := (p.val 1).getD []
    if n.length < 1 ∨ 20 < n.length then .bad p 1
    else if s.trust.deny.contains n then .read []
    else if 256 ≤ s.trust.deny.length then .no .noResource
    else .done ((s.setTrust { s.trust with deny := s.trust.deny ++ [n] }).endWhere 4 (fun x => x.serials.contains n)) []))

/-! ## Firmware, R407, R493 -/

/-- A firmware bank. -/
def Images.bank (m : Images) (b : Nat) : Nat × Firmware := if b = 0 then m.bank0 else m.bank1

/-- Set a firmware bank, with its record (R477). -/
def State.setBank (s : State) (b state : Nat) (fw : Firmware) : State :=
  ({ s with img := if b = 0 then { s.img with bank0 := (state, fw) } else { s.img with bank1 := (state, fw) } }).bankRec b state fw.fwver

/-- Bytes of a firmware bank. -/
def fwBankBytes : Nat := 2 ^ 26

/-- FW_BEGIN: the bank not booted is loading. -/
def execFwBegin (sid : Nat) (s : State) : Outc :=
  .next (s.runCmd 0x0C01 true sid (fun s p =>
    if fwBankBytes < p.num 1 then .no .noResource
    else if p.num 1 = 0 then .bad p 1
    else
      let n := s.img.lastXfer + 1
      let b := 1 - s.life.bank
      let s1 := s.setBank b 2 {}
      .done { s1 with img := { s1.img with lastXfer := n, fwBytes := []
                                           fwXfer := some { no := n, length := p.num 1, chunk := Config.chunkSize } } }
        [be 4 n, be 4 Config.chunkSize, be 1 b]))

/-- FW_END. -/
def execFwEnd (sid : Nat) (s : State) : Outc :=
  .next (s.runCmd 0x0C02 true sid (fun s p =>
    match s.img.fwXfer with
    | none => .no .busy
    | some x =>
      if x.ending.isSome then .no .busy
      else if x.missing ≠ top 64 then .read [be 8 x.missing]
      else .accepted { s with img := { s.img with fwXfer := some { x with ending := some (sid, p.seq), digest := p.num 1 } } } [be 8 (top 64)]))

/-- The checks of a firmware container, in order (R493). -/
def Firmware.verdict (f : Firmware) (level fwCtr : Nat) : Status :=
  if f.readOk = false ∨ f.digestOk = false then .storeFail
  else if f.magic ≠ 0x53504657 ∨ f.format ≠ 1 ∨ f.level ≠ level ∨ f.reservedZero = false then .imageInvalid
  else if f.sigOk = false then .signatureFail
  else if f.secver < fwCtr then .rollback
  else .ok

/-- FIRMWARE_VALIDATION_DONE: the container read back from the bank's bytes is checked: the bank is valid, or left empty. -/
def execFirmwareValidationDone (given : Firmware) (s : State) : Outc :=
  match s.img.fwXfer with
  | none => .next s
  | some x =>
    match x.ending with
    | none => .next s
    | some who =>
      if s.fwUp = false then .next s
      else
        let fw := readFirmware s.img.fwBytes x.length x.digest given
        let st := if x.failed then .storeFail else fw.verdict s.optv.level s.opt.shadow.fwCtr
        let c := s.commit
        let s1 := { c with img := { c.img with fwXfer := none, fwBytes := [] } }
        let s2 := if st = .ok then s1.setBank (1 - s.life.bank) 1 fw else s1.setBank (1 - s.life.bank) 0 {}
        .next (s2.complete (some who) 0x0C02 0xFFFF st 0 [(1, be 8 (top 64))])

/-- FW_ACTIVATE: BOOTBANK in the option area, in force from the next restart. -/
def execFwActivate (sid : Nat) (s : State) : Outc :=
  .next (s.runCmd 0x0C03 true sid (fun s p =>
    if 1 < p.num 1 ∨ (s.img.bank (p.num 1)).1 ≠ 1 then .bad p 1
    else .done (s.writeOption (fun o => { o with bootBank := p.num 1 })) []))

/-! ## Restart, R507 -/

/-- A commanded restart: a checkpoint first, and the restart once it is written. -/
def State.askRestart (s : State) (k : RestartKind) : State :=
  ({ s with ckpt := { s.ckpt with restart := some k } }).askCkpt

/-- RESTART. -/
def execRestart (sid : Nat) (s : State) : Outc :=
  .next (s.runCmd 0x0C04 true sid (fun s p =>
    if 1 < p.num 1 then .bad p 1
    else .done (s.askRestart (if p.num 1 = 0 then .warm else .cold)) []))

end Sys2Proof.Machine
end

