-- ==== Sys2Proof/Machine/Power.lean ====
section
/-! DEFINITION. Feeds, hold-up, last gasp, clocks and PLLs, temperature, power domains and Rest: 15_supplies_clocks_heat.md and
the domain rules of 02_engine_to_package.md (R58, R64 to R72, R305, R476, R490, R512 to R532). -/

namespace Sys2Proof.Machine

open Sys2Proof

/-! ## Feeds, R512 to R519 -/

/-- Operating range of a feed, mV (Table 15.1): low, high. -/
def feedRange (f : FeedId) (d2 : Bool) : Int × Int :=
  match f with
  | .main => (36000, 75000)
  | .backup => if d2 then (176000, 300000) else (88000, 150000)

/-- Out thresholds of a feed, mV (Table 15.2): below, above. -/
def feedOut (f : FeedId) (d2 : Bool) : Int × Int :=
  match f with
  | .main => (34000, 80000)
  | .backup => if d2 then (168000, 315000) else (84000, 158000)

/-- A voltage lies within two bounds. -/
def inside (r : Int × Int) (v : Int) : Bool := decide (r.1 ≤ v) && decide (v ≤ r.2)

/-- One feed. -/
def State.feed (s : State) (f : FeedId) : Feed := match f with | .main => s.supply.main | .backup => s.supply.backup

/-- Change one feed. -/
def State.updFeed (s : State) (f : FeedId) (g : Feed → Feed) : State :=
  match f with
  | .main => { s with supply := { s.supply with main := g s.supply.main } }
  | .backup => { s with supply := { s.supply with backup := g s.supply.backup } }

/-- The feed lies within its operating range. -/
def State.feedGood (s : State) (f : FeedId) : Bool := inside (feedRange f s.optv.isD2) (s.feed f).mv

/-- FEED_EXCURSION: a feed's voltage changes: the qualifications that run on it start again or stop (R514, R517). A dip beyond
the thresholds changes no feed state until the feed is out. With the module unpowered no monitor runs. -/
def execFeedExcursion (f : FeedId) (mv : Int) (s : State) : Outc :=
  let d2 := s.optv.isD2
  if s.powered = false then .next (s.updFeed f (fun x => { x with mv := mv }))
  else
    let beyond := !inside (feedOut f d2) mv
    let good := inside (feedRange f d2) mv
    let s1 := s.updFeed f (fun x =>
      let keep := x.avail && (good || beyond)
      { x with mv := mv, outTimer := beyond, out := x.out && beyond, avail := keep, availTimer := good && !keep })
    .next { s1 with supply := { s1.supply with
      returnTimer := decide (s1.supply.active = some .backup) && inside (38000, 72000) s1.supply.main.mv } }

/-- The word 0 bit of a feed that is out. -/
def feedBit (f : FeedId) : Nat := match f with | .main => 0 | .backup => 2

/-! ## Last gasp, R521, R476, R459 -/

/-- Compute stops: core groups, clusters, charge pumps, stream, pack and command ports are gated, the stacks' PLLs stop,
upkeep operations are abandoned. -/
def State.gateAll (s : State) : State :=
  { s with
    doms := s.doms.filter (fun e => decide (100 ≤ e.1) && decide (e.1 ≠ 105 ∧ e.1 ≠ 106 ∧ e.1 ≠ 107))
    clks := Tab.alter {} (fun c => { c with running := false, arithLocked := false, netLocked := false }) s.clks
    supply := { s.supply with waiting := [] }
    upk := { s.upk with ops := [] }
    sync := { s.sync with signals := [], releases := [] }
    pack := { s.pack with ports := [] } }

/-- The last-gasp log record: the records lost in REPEAT, the three words in DETAIL (R456, R459). -/
def State.gaspRec (s : State) : LogRec :=
  { s.mkLog { code := 0x0103, bunit := 12, detail := s.logs.bytes.map (·.toNat) } (some (0, 3)) with
    gasp := true, rep := min 65535 (s.logs.staged.length - 63) }

/-- What the last gasp writes: the newest 63 staged records and its own, a stamp record, and the watch state where the image
has a watch member and the state holds no poison (R424, R442, R459, R476, R507). -/
def State.gaspWrite (s : State) : State :=
  let c := s.commit
  let keep := decide (c.isReady = true) && (c.member 0).isSome && !c.statePoisoned 0
  { c with
    logs := { c.logs with gasp := c.logs.staged.drop (c.logs.staged.length - 63) ++ [c.gaspRec], nextLseq := c.logs.nextLseq + 1 }
    ckpt := { c.ckpt with gasp := if keep then some c.ckptNow else c.ckpt.gasp }
    life := { c.life with storedStamp := max c.life.storedStamp c.life.commit } }

/-- The last-gasp actions of R521. A write that the store had not completed is lost with its data (R475). -/
def State.gaspActions (s : State) : State := s.gaspWrite.gateAll

/-- A last gasp begins: the health contact and the outputs follow from the state (R521). Where no firmware runs there is
nothing to write. -/
def State.lastGasp (s : State) : State :=
  let s1 := if s.life.phase = .bootHeld then s.gateAll else s.gaspActions
  { s1 with life := { s1.life with phase := .lastGasp, due := none, cause := .none } }

/-- The feed in use changes; lower budgets are a cut. -/
def State.switchTo (s : State) (f : FeedId) (g : Supply → Supply) : State :=
  let t := { s with supply := g { s.supply with active := some f } }
  { t.cutFrom s.inForce with supply := { (t.cutFrom s.inForce).supply with
      returnTimer := decide (f = .backup) && inside (38000, 72000) t.supply.main.mv } }

/-- Transfer to the backup feed: TRANSFER and the backup budget, one commit (R516); the next return needs 30 s where it
comes within 10 s of the last one (R518). -/
def State.transfer (s : State) : State :=
  let soon := match s.supply.lastReturn with | some t => decide (s.life.now ≤ t + 10000000) | none => false
  (s.switchTo .backup (fun x => { x with returnNeed := if soon then 30 else 2 })).raise 0 1 12

/-- Return to the main feed: the record 0x0001 and the main budget, one commit (R517). -/
def State.backToMain (s : State) : State :=
  (s.switchTo .main (fun x => { x with lastReturn := some s.life.now })).log { code := 0x0001, bunit := 12 }

/-- FEED_OUT: 200 µs beyond the thresholds: the feed is out and not available; MAINOUT or BACKUPOUT follows. On the feed in
use the module transfers, returns at once, or begins last gasp (R514, R516, R517). -/
def execFeedOut (f : FeedId) (s : State) : Outc :=
  if s.powered = false ∨ (s.feed f).outTimer = false ∨ (s.feed f).out = true then .next s
  else
    let s1 := (s.updFeed f (fun x => { x with out := true, avail := false })).raise 0 (feedBit f) 12
    if s1.life.phase = .lastGasp ∨ s1.supply.active ≠ some f then .next s1
    else match f with
      | .main => .next (if s1.supply.backup.avail then s1.transfer else s1.lastGasp)
      | .backup => .next (if inside (34000, 80000) s1.supply.main.mv then s1.backToMain else s1.lastGasp)

/-- FEED_AVAILABLE: 100 ms within its operating range (R514). -/
def execFeedAvailable (f : FeedId) (s : State) : Outc :=
  if s.powered = true ∧ (s.feed f).availTimer = true then
    .next (s.updFeed f (fun x => { x with avail := true, availTimer := false }))
  else .next s

/-- MAIN_RETURN_QUALIFIED: main has stayed within the return window for the 2 s, or 30 s, that the return needs. -/
def execMainReturnQualified (s : State) : Outc :=
  if s.powered = true ∧ s.supply.active = some .backup ∧ s.supply.returnTimer = true ∧ s.life.phase ≠ .lastGasp then .next s.backToMain
  else .next s

/-! ## Ends of a last gasp, converter and oscillator faults -/

/-- Faults of the conversion within the last hour. -/
def State.recentFaults (s : State) : Nat := (s.life.convFaults.filter (fun t => decide (s.life.clock < t + 3600000000))).length

/-- Either feed lies within its operating range. -/
def State.anyFeed (s : State) : Bool := s.feedGood .main || s.feedGood .backup

/-- The module is without power: what lies in SRAM and the always-on domain is lost, programs of the store that still run are cut
off, and the holds that both feeds' removal ends are over (R59, R472, R523, R531). -/
def State.powerGone (s0 : State) : State :=
  let s := s0.cutPrograms
  { s with
    life := { s.life with phase := .unpowered, due := none, cause := .none, convFaults := [], trips := [], tripLatched := false
                          shepherdUp := false }
    supply := { s.supply with active := none }
    logs := { s.logs with staged := [] }
    plls := [], doms := [] }

/-- LAST_GASP_END: with a feed in range a cold start follows, or after three converter faults within the hour the module stays
in the boot state; with none, the hold-up is spent (R522, R523). -/
def execLastGaspEnd (s : State) : Outc :=
  if s.life.phase ≠ .lastGasp then .next s
  else if s.anyFeed = false then .next s.powerGone
  else if s.life.cause = .converter ∧ 3 ≤ s.recentFaults then .next { s with life := { s.life with phase := .bootHeld } }
  else .next { s with life := { s.life with phase := .halted, due := some .cold, cause := .none } }

/-- CONVERTER_FAULT: CONVERTER, then the last gasp (R523). -/
def execConverterFault (s : State) : Outc :=
  if s.powered = false ∨ s.life.phase = .lastGasp then .next s
  else
    let s1 := (s.raise 0 12 12).lastGasp
    .next { s1 with life := { s1.life with cause := .converter, convFaults := s1.life.convFaults ++ [s1.life.clock] } }

/-- The last-gasp actions with the feeds present, and the boot state. -/
def State.holdTcxo (s : State) (was : Phase) : State :=
  let s2 := if was = .bootHeld then s.gateAll else s.gaspActions
  { s2 with life := { s2.life with phase := .bootHeld, cause := .tcxo, due := none } }

/-- TCXO_FAIL: PLL with a record that names the oscillator (DETAIL byte 255), the last-gasp actions with the feeds present,
and the boot state (R525). -/
def execTcxoFail (s : State) : Outc :=
  if s.powered = false ∨ s.life.tcxoOk = false then .next s
  else
    let s0 : State := { s with life := { s.life with tcxoOk := false } }
    let s1 := s0.trouble 0 11 0 12 0xFF [255]
    if s.life.phase = .lastGasp then .next s1 else .next (s1.holdTcxo s.life.phase)

/-- HOLDUP_MEASURE: the hold-up energy; below 4.92 J HOLDUP and the cap on the budget in force, a commit where it changes
that budget (R427, R520). -/
def execHoldupMeasure (mj : Nat) (s : State) : Outc :=
  if s.powered = false then .next s
  else
    let t := { s with supply := { s.supply with holdupMj := mj } }
    let s1 := t.cutFrom s.inForce
    if mj < 4920 then .next (s1.raise 0 4 12)
    else .next (if t.inForce = s.inForce then s1 else s1.commit)

/-! ## Resets -/

/-- Shepherd runs its boot code or its firmware: it does from a start on, but not in Rest, in which its domain is off. -/
def State.shepherdOn (s : State) : Bool :=
  (s.fwUp && decide (s.life.phase ≠ .rest)) || decide (s.life.phase = .bootHeld)

/-- LOCKSTEP_MISMATCH: Shepherd's cores disagree: LOCKSTEP, and a warm restart follows (R58, R491). -/
def execLockstepMismatch (s : State) : Outc :=
  if s.shepherdOn then
    let s1 := s.raise 2 13 1
    .next { s1 with life := { s1.life with phase := .halted, due := some .warm, shepherdUp := false } }
  else .next s

/-- SHEPHERD_WATCHDOG_EXPIRE: the firmware has not served the watchdog for 1 s: a warm restart follows (R491). -/
def execShepherdWatchdogExpire (s : State) : Outc :=
  if s.fwUp = true ∧ s.life.phase ≠ .rest then
    .next { s with life := { s.life with phase := .halted, due := some .warm, shepherdUp := false } }
  else .next s

/-! ## PLLs, R64, R65, R526 -/

/-- Change a PLL of the base die. -/
def State.updPll (s : State) (n : Nat) (f : BasePll → BasePll) : State := { s with plls := Tab.upd {} s.plls n f }

/-- PLL_LOCK: the PLL, which is running, locks. -/
def execPllLock (p : Pll) (s : State) : Outc :=
  match p with
  | .arith k => .next (s.updClk k (fun c => if c.running then { c with arithLocked := true, arithTries := 0 } else c))
  | .network k => .next (s.updClk k (fun c => if c.running then { c with netLocked := true, netTries := 0 } else c))
  | _ => .next (match p.base? with
      | some n => s.updPll n (fun c => if c.running then { c with locked := true, tries := 0 } else c)
      | none => s)

/-- The context's placement uses the stack: an array block, a program or a ring of it (R526). -/
def State.usesStack (s : State) (c k : Nat) : Bool :=
  (s.threadsOf c).any (fun t => decide (t / 1024 = k)) || (s.ringsOf c).any (fun r => decide (r / 512 = k))
    || (match s.member c with
        | none => false
        | some m => m.placement.any (fun (p : Placement) => decide (p.home = 0) && decide (stackOf (locToEngine p.loc.toNat) = k)))

/-- The domains of a compute stack are off and its PLLs stopped. -/
def State.stackOff (s : State) (k : Nat) : State :=
  { (s.updClk k (fun c => { c with running := false, arithLocked := false, netLocked := false })) with
    doms := s.doms.filter (fun e => !(decide (e.1 / 16 = k ∧ e.1 < 64) || decide (64 + 8 * k ≤ e.1 ∧ e.1 < 72 + 8 * k) || decide (e.1 = 96 + k))) }

/-- A third failure in a row: the stack stays off until the next restart, and every context that uses it faults. -/
def State.stackDead (s : State) (k : Nat) : State :=
  let s1 := (s.stackOff k).updClk k (fun c => { c with dead := true })
  s1.each ((s1.ctxs.filter (fun e => e.2.started && s1.usesStack e.1 k)).map Prod.fst) (fun s c => s.faultCtx c 0 0x010B (locStack k) [k])

/-- A PLL of a stack fails to lock: PLL and a record; it is restarted, up to three times. -/
def State.pllFails (s : State) (k which : Nat) (tries : StackClk → Nat) (put : StackClk → Nat → StackClk) : State :=
  let n := tries (s.clk k) + 1
  let s1 := (s.updClk k (fun c => put c n)).trouble 0 11 (locStack k) 0 0xFF [which]
  if 3 ≤ n then s1.stackDead k else s1

/-- A PLL of the base die fails to lock: PLL and a record; it is restarted, up to three times. DETAIL numbers it after those
of a stack: 2 network, 3 Shepherd, 4 to 7 the PHYs. -/
def State.basePllFails (s : State) (n : Nat) : State :=
  if (s.life.phase = .halted ∧ s.life.due = some .cold) ∨ ((Tab.get {} s.plls n).running = true ∧ (Tab.get {} s.plls n).locked = false) then
    (s.updPll n (fun c => { c with tries := c.tries + 1, running := decide (c.tries < 2) })).trouble 0 11 0
      (if n < 2 then 12 else n) 0xFF [2 + n]
  else s

/-- PLL_LOCK_TIMEOUT: 30 µs without lock. DETAIL names the PLL of the stack: 0 arithmetic, 1 network. A base-die PLL may fail
while a cold start is due, or when it starts as Rest ends; what a third failure of it means for a cold start, the start says
(R526). -/
def execPllLockTimeout (p : Pll) (s : State) : Outc :=
  match p with
  | .arith k =>
    if (s.clk k).running = true ∧ (s.clk k).arithLocked = false then
      .next (s.pllFails k 0 (fun c => c.arithTries) (fun c n => { c with arithTries := n }))
    else .next s
  | .network k =>
    if (s.clk k).running = true ∧ (s.clk k).netLocked = false then
      .next (s.pllFails k 1 (fun c => c.netTries) (fun c n => { c with netTries := n }))
    else .next s
  | _ => .next (match p.base? with | some n => s.basePllFails n | none => s)

/-! ## Temperature, R529 to R531 -/

/-- Twice the median of the 16 sensors of a stack. -/
def State.median2 (s : State) (stack : Nat) : Int :=
  let l := ((List.range 16).map (fun i => s.temp (16 * stack + i))).mergeSort (fun a b => decide (a ≤ b))
  l.getD 7 0 + l.getD 8 0

/-- A sensor reads outside −55 to +150 °C. -/
def badTemp (t : Int) : Bool := decide (t < -550) || decide (1500 < t)

/-- The sensor of a cluster that is excluded, where one is: the one farther from the stack's median, the logic-tier one where
both lie as far (R529). -/
def State.excludedOf (s : State) (cluster : Nat) : Option Nat :=
  let a := 2 * cluster
  let ta := s.temp a
  let tb := s.temp (a + 1)
  if badTemp ta ∨ badTemp tb ∨ 150 < (ta - tb).natAbs then
    (let m := s.median2 (cluster / 8)
     if (2 * tb - m).natAbs ≤ (2 * ta - m).natAbs then some a else some (a + 1))
  else none

/-- The reading used for a sensor: that of the other of its cluster where it is excluded (R529). -/
def State.usedTemp (s : State) (i : Nat) : Int :=
  if s.excluded.contains i then s.temp (if i % 2 = 0 then i + 1 else i - 1) else s.temp i

/-- The hottest of the sensors of a stack. -/
def State.stackTemp (s : State) (k : Nat) : Int := ((List.range 16).map (fun i => s.usedTemp (16 * k + i))).foldl max (-10000)

/-- Equivalent time at 55 °C of one 100 µs sample at a temperature, in ps (Table 3.7): 100 µs times
exp (12,765 K · (1/328.15 K − 1/T)), T in kelvin, the exponent being 255,300 · (2t − 1,100) ÷ (6,563 · (2t + 5,463)) for t in
0.1 °C. -/
def eqTime (t : Int) : Nat :=
  let d := (2 * t + 5463).toNat
  if d = 0 then 0
  else
    let e := qExp ⟨255300 * (2 * t - 1100), 6563 * d⟩
    (e.num * 10 ^ 8 / (e.den : Int)).toNat

/-- D(t_e) of Table 3.7 in 0.001 % of the window, rounded down: the largest n with 10^n ≤ (1 + t_e ÷ 3 days)^400. -/
def driftAt (te : Nat) : Nat :=
  let day3 := 259200 * 10 ^ 12
  let n := (te + day3) ^ 400
  let d := day3 ^ 400
  ((List.range 6000).find? (fun k => decide (n < 10 ^ (k + 1) * d))).getD 6000

/-- Twice the rate for a plane past the WEAR warning (R104, R168). -/
def PlaneEnt.driftRate (x : PlaneEnt) : Nat := if x.worn then 2 * driftAt x.te else driftAt x.te

/-- No reading of the logical plane has closed within the last 24 h (R168). -/
def State.noReading (s : State) (e lp : Nat) : Bool :=
  (s.engine e).readings.all (fun r => decide (r.1 / 32 ≠ lp) ||
    (match r.2.closedAt with | some t => decide (t + 86400000000 < s.life.now) | none => true))

/-- One plane at a sample: t_e advances, and D(t_e) counts where no reading has closed for 24 h (R168, R169). -/
def State.agePlane (s : State) (k : Nat) : State :=
  let e := k / 17
  let x := s.plane k
  if x.state ≠ 1 ∧ x.state ≠ 3 then s
  else
    let s1 := { s with upk := { s.upk with planes := Tab.upd (planeShipped k) s.upk.planes k (fun p =>
      { p with te := min (2 ^ 30 * 10 ^ 12) (p.te + eqTime (s.arrayTemp (engCluster e))) }) } }
    if s1.life.now ≤ 86400000000 ∨ x.lplane > 15 ∨ s1.noReading e x.lplane = false then s1
    else
      let d := (s1.plane k).driftRate
      if d ≤ (s1.plane k).drift then s1 else s1.setDrift e (k % 17) d

/-- Row groups whose correction is current no more become default, and their count of readings starts again (R99, R100). -/
def State.latchDefaults (s : State) : State :=
  s.each (s.engines.map Prod.fst) (fun s e =>
    s.updEngine e (fun x => { x with readings := List.map (fun (r : Nat × Reading) =>
      if 3 ≤ r.2.closed ∧ s.isCurrent e (r.1 / 32) (r.1 % 32) = false then (r.1, { r.2 with closed := 0 }) else r) x.readings }))

/-- Boot checks that waited for −20 °C are queued where the sensor has reached it (R499). -/
def State.runPostponed (s : State) : State :=
  let ready := s.upk.postponed.filter (fun c => decide (-200 ≤ s.arrayTemp c))
  let ks := ready.flatMap (fun c => (s.upk.planes.filter (fun p => decide (engCluster (p.1 / 17) = c) && decide (p.2.state = 1))).map Prod.fst)
  let s1 := { s with upk := { s.upk with postponed := s.upk.postponed.filter (fun c => !ready.contains c) } }
  s1.each ks (fun s k => s.pushWork { prio := 1, engine := k / 17, plane := k % 17, op := .levelRead, why := .recovery })

/-- Trips within the last hour of local time. -/
def State.recentTrips (s : State) (trips : List Nat) : Nat := (trips.filter (fun t => decide (s.life.now < t + 3600000000))).length

/-- A thermal trip: the last-gasp actions with the feeds present, TRIP, and Rest with no compute domain on; three within the
hour hold the module there (R531). -/
def State.trip (s : State) : State :=
  let s1 := s.gaspActions.raise 0 6 12
  let trips := s1.life.trips ++ [s1.life.now]
  { s1 with
    life := { s1.life with phase := .tripped, trips := trips, tripLatched := decide (3 ≤ s1.recentTrips trips) }
    plls := [], doms := [(106, .on), (107, .on), (111, .on)] }

/-- New readings of the sensors. -/
def State.readTemps (s : State) (temps : List Int) : State :=
  { s with temps := (List.range 64).foldl (fun (t : Tab Int) i => match temps[i]? with | some v => Tab.set 250 t i v | none => t) s.temps }

/-- The sensors excluded by the readings; SENSOR where the first of them is (R529). -/
def State.excludeSensors (s : State) : State :=
  let ex := (List.range 32).filterMap s.excludedOf
  let s2 : State := { s with excluded := ex }
  if ex ≠ [] ∧ s.excluded = [] then s2.trouble 0 10 (locCluster (ex.headD 0 / 2)) 0 0xFF [ex.headD 0] else s2

/-- A sensor reads 110 °C or more. -/
def State.hot (s : State) : Bool := (List.range 64).any (fun i => decide ((1100 : Int) ≤ s.usedTemp i))

/-- THERMAL_SAMPLE: the 100 µs sample: exclusions and SENSOR, t_e and drift, postponed boot checks, and the trip (R529, R531). -/
def execThermalSample (temps : List Int) (s : State) : Outc :=
  if s.powered = false then .next s
  else
    let s1 := ((s.readTemps temps).excludeSensors).latchDefaults
    let s2 := (s1.each (s1.upk.planes.map Prod.fst) State.agePlane).runPostponed
    .next (if s2.hot = true ∧ s2.fwUp = true then s2.trip else s2)

/-- THROTTLE_STEP_DOWN: a stack whose hottest sensor reads 100 °C or more steps down, to no lower than 150 MHz; the first step
sets THROTTLE (R530). -/
def execThrottleStepDown (stack : Nat) (s : State) : Outc :=
  let c := s.clk stack
  if s.powered = false ∨ 4 ≤ stack ∨ s.stackTemp stack < 1000 ∨ c.thermStep ≤ 2 then .next s
  else
    let s1 := s.updClk stack (fun c => { c with thermStep := c.thermStep - 1 })
    .next (if c.thermStep = 8 then s1.trouble 0 5 (locStack stack) 0 0xFF [] else s1)

/-- THROTTLE_STEP_UP: every sensor of the stack reads below 97 °C: one step up, to no higher than the power budget allows. -/
def execThrottleStepUp (stack : Nat) (s : State) : Outc :=
  let c := s.clk stack
  if s.powered = false ∨ 4 ≤ stack ∨ 970 ≤ s.stackTemp stack ∨ c.budgetStep ≤ c.thermStep then .next s
  else .next (s.updClk stack (fun c => { c with thermStep := min 8 (c.thermStep + 1) }))

/-- TRIP_RECOVERY: every sensor has read below 85 °C for 10 s: a warm restart follows (R531). -/
def execTripRecovery (s : State) : Outc :=
  if s.life.phase = .tripped ∧ s.life.tripLatched = false ∧ (List.range 64).all (fun i => decide (s.usedTemp i < 850)) then
    .next { s with life := { s.life with phase := .halted, due := some .warm } }
  else .next s

/-! ## The budget's clock steps, R303, R305 -/

/-- One step of enforcing a cut: the running stacks step down together, to 150 MHz; then issue to the inspect context of the
lowest priority stops. -/
def State.cutStep (s : State) : State :=
  let ks := (List.range 4).filter (fun k => (s.clk k).running && decide (2 < (s.clk k).step))
  if ks ≠ [] then
    (s.each ks (fun s k => s.updClk k (fun c => { c with budgetStep := c.step - 1 }))).raise 0 8 12
  else match firstBy s.shedBefore (s.liveInspects.filter (fun c => !s.supply.stopped.contains c)) with
    | some c => { s with supply := { s.supply with stopped := s.supply.stopped ++ [c] } }
    | none => s

/-- BUDGET_CLOCK_STEP: the module's input power is measured, 0.1 W, what the package takes of it, and the draw estimates that the
energy meters give for running contexts, averaged over their last iterations (R303); while the module exceeds
the budget in force or the package 340 W, one step of R305 (R73). The shared draw is what the contexts' estimates leave of
the input power (R303). -/
def execBudgetClockStep (reading : PowerReading) (s0 : State) : Outc :=
  if s0.powered = false then .next s0
  else
    let s := s0.each (reading.estimates.filter (fun e => (s0.ctx e.1).live)) (fun s e => s.updCtx e.1 (fun x => { x with estimate := e.2 }))
    let est := ((s.ctxs.filter (fun p => p.2.live)).map (fun p => scaledDraw p.2.estimate s.topStep)).sum + s.upkeepDue
    let s1 := { s with supply := { s.supply with draw := reading.draw, sharedDraw := reading.draw - est } }
    if reading.draw ≤ s1.inForce ∧ reading.pkg ≤ 3400 then .next { s1 with supply := { s1.supply with cutting := false } }
    else .next ({ s1 with supply := { s1.supply with cutting := true } }.cutStep)

/-! ## Rest, R68 -/

/-- A sweep falls due by a local time: of a plane whose entry has changed since shipment, or of one that has not (R174). -/
def State.sweepDueBy (s : State) (t : Nat) : Bool :=
  s.upk.planes.any (fun e => decide (720 ≤ e.2.hours t))
    || (decide (s.upk.planes.length < 39168) && decide (720 ≤ (planeShipped 0).hours t))

/-- The conditions of R68: no context runs, no session is open, no pass runs or is pending, no upkeep is due or falls due within
10 s of local time, no stream that could start or feed a token. In a pack the ports' links keep a member from Rest (R67). -/
def State.mayRest (s : State) : Bool :=
  decide (s.life.phase = .ready) && s.standalone
    && s.ctxs.all (fun e => decide (e.2.state ≠ .running) && e.2.pass.isNone && e.2.pend.isNone)
    && s.sids.isEmpty && s.comms.handshakes.isEmpty && s.upk.queue.isEmpty && s.upk.ops.isEmpty
    && !s.sweepDueBy (s.life.now + 10000000)
    && (!s.ing.running || (match s.refSlot with | some n => (s.slot n).quiet | none => true))
    && (s.doms.all (fun e => decide (100 ≤ e.1)))

/-- REST_ENTER: only the always-on, stream-ingress and command-port domains stay on. -/
def execRestEnter (s : State) : Outc :=
  if s.mayRest then
    .next { s with life := { s.life with phase := .rest }, plls := [], doms := s.doms.filter (fun e => decide (e.1 = 106 ∨ e.1 = 107 ∨ e.1 = 111)) }
  else .next s

/-! ## Domains, R67, R69, R70, R72, R378 -/

/-- Both PLLs of a stack run locked. -/
def State.pllsUp (s : State) (k : Nat) : Bool := (s.clk k).running && (s.clk k).arithLocked && (s.clk k).netLocked

/-- What a domain needs before it (R69). -/
def State.domReady (s : State) (d : Dom) : Bool :=
  match d with
  | .coreGroup g => s.domOn (.clusterCommon (g / 2)) && s.pllsUp (g / 16)
  | .clusterCommon c => s.pllsUp (c / 8)
  | _ => true

/-- A cluster's common domain is powered: its SRAM, and that of both core groups, is zero-filled (R67, R436), and the plane
files of the image in force are placed there again. -/
def State.fillCluster (s : State) (c : Nat) : State :=
  let s1 := s.updMem (fun m =>
    ((m.zeroFill .cluster (4194304 * c) 4194304).zeroFill .core (524288 * 8 * c) (524288 * 8)).zeroFill .engine (65536 * 72 * c) (65536 * 72))
  match s1.image with | some i => s1.placeFiles i (fun k => decide (k = c)) | none => s1

/-- Contexts that use a Filet region: those whose member has a function in it, and the watch context for the front end. -/
def State.regionCtxs (s : State) (r : Nat) : List Nat :=
  match s.image with
  | none => []
  | some i => (s.ctxs.filter (fun e => e.2.started &&
      (i.functions.any (fun f => decide (f.region = r) && (decide (e.1 = 0) == decide (f.member = 0))) || decide (r < 2 ∧ e.1 = 0)))).map Prod.fst

/-- A region's configuration is loaded, or fails its CRC twice: every context that uses it faults with FILET_CONFIG (R378). -/
def State.loadRegion (s : State) (r : Nat) (crcOk : Bool) : State :=
  let s1 := if r < 2 then { s with ing := { s.ing with feOk := crcOk } } else s
  if crcOk then s1 else s1.each (s1.regionCtxs r) (fun s c => s.faultCtx c 0 0x0341 (locCluster r) [])

/-- DOMAIN_POWER_UP_DONE: a domain that was being woken reaches its working state. The store controller and the crypto unit are
powered when they are used, which no request of its own announces. -/
def execDomainPowerUpDone (d : Dom) (crcOk : Bool) (s : State) : Outc :=
  let asked := decide (s.dom d = .waking) || ((decide (d = .storeCtl) || decide (d = .crypto)) && s.fwUp && decide (s.life.phase ≠ .rest) && decide (s.dom d = .off)
    && !s.overBudget d)
  if asked = false ∨ s.powered = false ∨ d.exists? = false ∨ s.domReady d = false then .next s
  else
    let s1 := s.setDom d .on
    match d with
    | .clusterCommon c => .next ((s1.fillCluster c).loadRegion c crcOk)
    | _ => .next s1

/-- The thread has a step in progress, or one to issue for a context that runs; one of a Shed context keeps nothing on (R307). -/
def State.active (s : State) (x : Thread) : Bool :=
  decide (x.state = .running) || (decide (x.state = .ready ∨ x.state = .stalled) && (s.ctx x.ctx).live)

/-- A thread of the core group runs or is about to (Table 2.6, R70). -/
def State.groupBusy (s : State) (g : Nat) : Bool :=
  s.threads.any (fun e => decide (e.1 / 64 = g) && s.active e.2)
    || s.sync.woken.any (fun t => decide (t / 64 = g))
    || s.upk.ops.any (fun e => e.2.isSome && decide (e.1 / 36 = g))
    || s.flights.any (fun f => (endDomain (dStier f.2.desc) (dSunit f.2.desc) == some (Dom.coreGroup g) && decide (dMode f.2.desc ≠ 2))
        || endDomain (dDtier f.2.desc) (dDunit f.2.desc) == some (Dom.coreGroup g))

/-- State of a context that holds it lies in SRAM of the cluster. -/
def State.homeIn (s : State) (c : Nat) : Bool :=
  s.ctxs.any (fun e => e.2.holds && (match s.member e.1 with
    | none => false
    | some m => m.state.any (fun (r : Region) =>
        (decide (r.space = .cluster) && decide (r.at_ / 4194304 = c)) || (decide (r.space = .core) && decide (r.at_ / (8 * 524288) = c))
          || (decide (r.space = .engine) && decide (r.at_ / (72 * 65536) = c)))))

/-- A cluster's common domain may not be off (Table 2.6). -/
def State.commonBusy (s : State) (c : Nat) : Bool :=
  decide (s.dom (.coreGroup (2 * c)) ≠ .off) || decide (s.dom (.coreGroup (2 * c + 1)) ≠ .off)
    || s.threads.any (fun e => decide (e.1 / 128 = c) && decide (e.2.state ≠ .free))
    || s.homeIn c
    || s.sync.counters.any (fun e => decide (e.1 / 512 = c) && e.2.bound)
    || !(s.regionCtxs c).isEmpty || (decide (c < 2) && s.ing.running)
    || (List.range 4).any (fun k => !(s.channel (4 * c + k)).isEmpty)
    || s.flights.any (fun f => (endDomain (dStier f.2.desc) (dSunit f.2.desc) == some (Dom.clusterCommon c) && decide (dMode f.2.desc ≠ 2))
        || endDomain (dDtier f.2.desc) (dDunit f.2.desc) == some (Dom.clusterCommon c))

/-- An evaluation or upkeep is in progress or due in the stack. -/
def State.pumpBusy (s : State) (k : Nat) : Bool :=
  decide (s.opsOn k ≠ 0) || s.upk.queue.any (fun w => decide (stackOf w.engine = k))
    || s.threads.any (fun e => decide (e.1 / 1024 = k) && rKind (s.recordOf e.1) == 0 && s.active e.2)

/-- The domain may be off now (Table 2.6). -/
def State.mayGate (s : State) (d : Dom) : Bool :=
  match d with
  | .coreGroup g => !s.groupBusy g
  | .clusterCommon c => !s.commonBusy c
  | .chargePump k => !s.pumpBusy k
  | .packPorts => s.standalone
  | .streamIngress => s.ing.slots.all (fun e => e.2.cfg.isNone)
  | .storeCtl => s.store.journal.all (fun r => !s.store.erasing r.unit r.phys) && s.opt.writing.isNone && s.ckpt.staging.isNone && s.img.xfer.isNone && s.img.fwXfer.isNone
  | .crypto => s.sids.isEmpty && s.comms.handshakes.isEmpty
      && [s.img.xfer, s.img.fwXfer].all (fun x => match x with | some t => t.ending.isNone | none => true)
  | _ => false

/-- The PLLs of a stack whose cluster domains are all off stop (R65). -/
def State.stopPlls (s : State) (k : Nat) : State :=
  if (List.range 8).all (fun i => decide (s.dom (.clusterCommon (8 * k + i)) = .off)) then
    s.updClk k (fun c => { c with running := false, arithLocked := false, netLocked := false })
  else s

/-- DOMAIN_GATE: a domain that is on and may be off is gated. -/
def execDomainGate (d : Dom) (s : State) : Outc :=
  if s.domOn d = false ∨ s.mayGate d = false then .next s
  else
    let s1 := s.setDom d .off
    match d with
    | .clusterCommon c => .next (s1.stopPlls (c / 8))
    | _ => .next s1

end Sys2Proof.Machine
end

