-- ==== Sys2Proof/Machine/Start.lean ====
section
/-! DEFINITION. Cold start and warm restart, each whole: options, memory, firmware, store recovery, the image, the array check,
the restore point, Ready (R433, R434, R456, R459, R483 to R499, R505, R508 to R511). -/

namespace Sys2Proof.Machine

open Sys2Proof

/-! ## Options, R483, R484 -/

/-- The option copies as a start finds them. A copy whose write was cut off is not valid; one valid copy alone sets OPTIONCOPY,
and is rewritten after boot; with none Shepherd is not released. -/
def Options.atReset (o : Options) (b : BootFacts) : Option Options :=
  let cut := fun (k : Nat) => match o.writing with | some (n, _) => decide (n = k) | none => false
  let ok0 := b.copy0Ok && !cut 0
  let ok1 := b.copy1Ok && !cut 1
  let win := fun (k : Nat) (c : OptCopy) => some { o with shadow := c, loaded := c, newest := k, writing := none, again := false, rewrite := ok0 != ok1 }
  match ok0, ok1 with
  | false, false => none
  | true, false => win 0 o.copy0
  | false, true => win 1 o.copy1
  | true, true => if o.copy0.seq < o.copy1.seq then win 1 o.copy1 else win 0 o.copy0

/-! ## What a reset leaves -/

/-- Feeds at the moment of a start, as their monitors find them; main where it lies in range (R514, R515). -/
def State.startFeeds (s : State) (b : BootFacts) : State :=
  let s1 : State := if s.life.phase = .unpowered then
      { s with supply := { s.supply with main := { s.supply.main with mv := b.mainMv }, backup := { s.supply.backup with mv := b.backupMv } } }
    else s
  let fresh := fun (f : FeedId) =>
    let v := (s1.feed f).mv
    let beyond := !inside (feedOut f s.optv.isD2) v
    ({ mv := v, out := beyond, avail := inside (feedRange f s.optv.isD2) v, outTimer := beyond, availTimer := false } : Feed)
  let act := if s1.feedGood .main then FeedId.main else .backup
  { s1 with supply := { s1.supply with main := fresh .main, backup := fresh .backup, active := some act, lastReturn := none, returnNeed := 2
                                       returnTimer := decide (act = .backup) && inside (38000, 72000) s1.supply.main.mv } }

/-- The life of the module at a reset: a cold start begins local time and a new power-on. -/
def Life.atReset (l : Life) (b : BootFacts) (cold keepTime : Bool) : Life :=
  { phase := .boot, poc := l.poc, startKind := if cold then 0 else 1, commit := l.commit, storedStamp := l.storedStamp
    now := if cold && !keepTime then 0 else l.now, clock := l.clock, bank := l.bank, fwver := l.fwver
    unlockedOnce := if cold then false else l.unlockedOnce, tcxoOk := b.tcxoOk, measures := l.measures, convFaults := l.convFaults
    trips := if cold then [] else l.trips, retainOk := b.retainOk }

/-- Memory at a cold start: zero with every valid bit set; the retirement table stands, and retired banks leave the map
(R433, R436, R449 to R451). -/
def Memory.cold (m : Memory) : Memory :=
  { erased := m.erased, remap := m.remap, spares := m.spares, banks := m.banks, banksOut := m.banks.length, sramBanks := m.sramBanks }

/-- Memory at a warm restart: board memory with its map, poison and lists stands; SRAM is zero-filled (R434, R491). -/
def Memory.warm (m : Memory) : Memory :=
  { m.cold with
    board := m.board, invalid := m.invalid, poisonList := m.poisonList, banksOut := m.banksOut
    poison := m.poison.filter (fun e => decide (e.1 % 5 = 4)) }

/-- Upkeep tables as the store holds them (R188); copies in the away region are lost with board memory, and a degraded reading of
an earlier run of local time counts no more (R173). -/
def Upkeep.loaded (u : Upkeep) (now : Nat) (cold : Bool) : Upkeep :=
  { u with
    planes := List.map (fun (e : Nat × PlaneEnt) => (e.1, { e.2 with sweepBase := now, degradedAt := if cold then none else e.2.degradedAt })) u.storedPlanes
    panels := u.storedPanels, placement := u.storedPlacement, copies := if cold then [] else u.copies
    queue := [], ops := [], operated := [], replan := none, sweepAsked := [], postponed := [], dirty := false }

/-- The store controller at a power-up: programs cut off are lost, erases cut off stand open by their intents and
are run again (R475, R479). -/
def Store.atStart (t : Store) (now : Nat) : Store :=
  { t with refresh := [], refreshes := 0, lastFull := now, patrol := 0 }

/-- A member's part in its pack at a start: not admitted, its ports in training (R311, R318, R510). -/
def Pack.atStart (o : OptCopy) : Pack :=
  { source := o.psource, standby := o.pstandby
    ports := if o.psize ≤ 1 then [] else ((List.range 4).filter (fun p => portUsed p o.psize)).map (fun p => (p, ({ state := 1 } : PackPort))) }

/-- Domains of a start: the base-die ones, the pack ports of a pack member; every compute domain is off (R67, R311). -/
def startDoms (o : OptCopy) : Tab DomState :=
  ([100, 101, 102, 103, 104] ++ (if o.psize ≤ 1 then [] else [105]) ++ [106, 107, 108, 109, 110, 111]).map (fun k => (k, DomState.on))

/-- The state that steps 1 to 4 of a cold start, or steps 1 to 3 of a warm restart, leave. -/
def State.resetTo (s : State) (o : Options) (b : BootFacts) (cold keepTime : Bool) : State :=
  let life := s.life.atReset b cold keepTime
  { pending := s.pending, life := life, supply := { s.supply with cutting := false, stopped := [], waiting := [], holdupMj := b.holdupMj }
    clks := if cold then [] else Tab.alter {} (fun (c : StackClk) => { budgetStep := c.budgetStep, thermStep := c.thermStep }) s.clks
    plls := s.plls, doms := startDoms o.loaded, temps := s.temps, excluded := s.excluded
    mem := if cold then s.mem.cold else s.mem.warm
    hist := if cold then { appended := s.hist.appended } else s.hist
    ing := if cold then { run := s.ing.run } else { s.ing with dets := [], feOk := true }
    comms := { prp := decide (o.loaded.portMode = 0) }
    img := { s.img with xfer := none, fwXfer := none, fwBytes := [], swap := none }
    results := if cold then [] else s.results
    io := if cold then { stuck := s.io.stuck, hStuck := s.io.hStuck, inputs := s.io.inputs, raw := s.io.raw, runs := s.io.runs }
          else { s.io with rules := [], packOutputs := [], packSeq := [] }
    logs := if cold && !keepTime then { s.logs with word0 := 0, word1 := 0, word2 := 0, written := [], suppressed := [] } else s.logs
    upk := s.upk.loaded life.now cold, store := s.store.atStart life.now, opt := o
    trust := { s.trust with fwAnchors := s.trust.ofKind 2 }
    ckpt := { s.ckpt with asked := [], restart := none, due := false, timer := false }
    pack := Pack.atStart o.loaded, out := s.out, draws := s.draws }

/-- The module stays in the boot state. -/
def State.holdBoot (s : State) (c : HoldCause) : State := { s with life := { s.life with phase := .bootHeld, cause := c } }

/-! ## Step 5: firmware, R492 to R495 -/

/-- A bank boots: valid, its container passes as the boot code finds it, its SECVER is not below FWCTR. -/
def State.bankBoots (s : State) (b : BootFacts) (n : Nat) : Bool :=
  decide ((s.img.bank n).1 = 1) && b.bankOk.getD n true && decide ((s.img.bank n).2.verdict s.optv.level s.opt.shadow.fwCtr = .ok)

/-- The bank that boots and whether it is the fallback. -/
def State.bootBank (s : State) (b : BootFacts) : Option (Nat × Bool) :=
  let n := s.optv.bootBank
  if s.bankBoots b n then some (n, false)
  else if s.optv.bootFall = 1 ∧ s.bankBoots b (1 - n) = true then some (1 - n, true)
  else none

/-- The boot code has verified a bank: FWCTR is raised to its SECVER, and the firmware starts. -/
def State.bootFirmware (s : State) (n : Nat) (fall : Bool) : State :=
  let fw := (s.img.bank n).2
  let s1 := if fall then s.log { code := Config.bootCode 0, bunit := 1 } else s
  let s2 := if s1.opt.shadow.fwCtr < fw.secver then s1.writeOption (fun o => { o with fwCtr := fw.secver })
    else if s1.opt.rewrite then s1.writeOption id else s1
  { s2 with life := { s2.life with bank := n, fwver := fw.fwver, usedFall := fall, shepherdUp := true
                                   measures := [Config.romDigest, fw.measure, Config.sha3 s2.optv.measured, s2.trust.digest, 0] } }

/-! ## Step 6: stamp, log, power-on count, R424, R456, R459, R490 -/

/-- The commit stamp resumes at the highest found, plus 2^32 (R424); the stamp record that holds POC holds it too (R490). -/
def State.resumeStamp (s : State) (kept : Bool) : State :=
  let c := (if kept then max s.life.commit s.life.storedStamp else s.life.storedStamp) + 2 ^ 32
  { s with life := { s.life with commit := c, storedStamp := c, poc := s.life.poc + 1 } }

/-- Last-gasp records go into the log before any new record, each once (R459). -/
def State.copyGasp (s : State) : State :=
  let old := s.logs.stored ++ s.logs.staged
  let new := s.logs.gasp.filter (fun r => !old.any (fun x => decide (x.lseq = r.lseq)))
  let logs := { s.logs with gasp := [] }
  if s.logs.staged = [] then { s with logs := { logs with stored := s.logs.stored ++ new } }
  else { s with logs := { logs with staged := (s.logs.staged ++ new).mergeSort (fun a b => decide (a.lseq ≤ b.lseq)) } }

/-- The newest record that a power-up finds is a last-gasp record. -/
def State.newestGasp (s : State) : Bool :=
  let l := s.logs.stored ++ s.logs.staged ++ s.logs.gasp
  l.any (fun r => r.gasp && l.all (fun x => decide (x.lseq ≤ r.lseq)))

/-- Step 6 on the log: the last-gasp records, LASTGASP at a cold start, the power-on record with the kind of start
(R456, R459, R490). -/
def State.bootLog (s : State) (cold last : Bool) : State :=
  let found := !s.logs.gasp.isEmpty
  let s1 := s.copyGasp
  let s2 := if cold ∧ last = true then
      { s1.commit with logs := s1.logs.setWord 0 (s1.logs.word0 ||| 8#32) } else s1
  let kind := if found then 2 else flag (!cold)
  s2.log { code := 0x0009, bunit := 12, detail := [kind] }

/-! ## Step 6: the upkeep journal, R187 to R189, R199 -/

/-- One journal record newer than the stored tables is replayed. An erase of a plane in use counts with its done record; that of
another plane counts with the program that follows it (R178). -/
def State.replayRec (s : State) (r : JRec) : State :=
  let e := locToEngine r.loc
  let k := 17 * e + locToPlane r.loc
  let more := fun (x : PlaneEnt) (b : Bool) => if b then min 2047 (x.erases + 1) else x.erases
  match r.kind with
  | 0x02 => s.updPlane k (fun x =>
      if r.status = 0 then { x with erases := more x (decide (x.state = 1)), touchups := 0, fails := 0 }
      else { x with erases := more x (decide (x.state = 1)), fails := min 15 (x.fails + 1) })
  | 0x03 => s.updPlane k (fun x => { x with erases := more x (decide (x.state ≠ 1)) })
  | 0x04 => s.updPlane k (fun x => if r.status = 0 then { x with meanPulse := min 255 r.arg, worn := decide (112 < r.arg), te := 0, drift := 0 }
      else { x with fails := min 15 (x.fails + 1) })
  | 0x06 => s.updPlane k (fun x => { x with touchups := min 64 (x.touchups + 1), te := 0, drift := 0 })
  | 0x07 => s.updPlane k (fun x => { x with sweepH := 0, sweepBase := s.life.now })
  | 0x08 =>
    let lp := locToPlane r.loc
    let s1 := s.updPlane (17 * e + r.arg) (fun x => { x with state := 1, lplane := lp })
    (if r.arg = lp then s1 else s1.updPlane k (fun x => { x with state := 4 })).updPanel e (fun p => { p with plane16 := true })
  | 0x09 => (s.updPanel (9 * (e / 9) + 8) (fun p => { p with pstate := 0, replaces := r.arg })).updPanel e (fun p => { p with pstate := 4, awayWhy := 0 })
  | 0x0A => s.updPanel e (fun p => { p with pstate := 3, awayWhy := 0 })
  | 0x0E => s.updPanel e (fun p => { p with replanned := true })
  | _ => s

/-- Plane maps and replaced engine slots follow from the tables (R75, R53). -/
def State.mapPlanes (s : State) : State :=
  let s1 := s.each ((s.upk.planes.filter (fun e => decide (e.1 % 17 = 16 ∧ e.2.state = 1 ∧ e.2.lplane ≤ 15))).map Prod.fst) (fun s k =>
    s.updEngine (k / 17) (fun x => { x with planeMap := Tab.set (s.plane k).lplane x.planeMap (s.plane k).lplane 16 }))
  s1.each ((s.upk.panels.filter (fun e => decide (e.1 % 9 = 8 ∧ e.2.pstate = 0 ∧ e.2.replaces ≤ 7))).map Prod.fst) (fun s e =>
    s.updCore (e / 9) (fun c => { c with spareFor := some (s.panel e).replaces }))

/-- The last record of kinds 1 to 6 of a plane. -/
def lastOf (l : List JRec) (loc : Nat) : Option JRec := (l.filter (fun r => decide (r.loc = loc ∧ 1 ≤ r.kind ∧ r.kind ≤ 6))).getLast?

/-- Planes that the journal names in records of kinds 1 to 6, engine and physical plane. -/
def planesOf (l : List JRec) : List (Nat × Nat) :=
  ((l.filter (fun r => decide (1 ≤ r.kind ∧ r.kind ≤ 6))).map (fun r => (locToEngine r.loc, locToPlane r.loc))).dedup

/-- Recovery work on a plane; a panel that serves is away meanwhile (R189). -/
def State.recover (s : State) (e p : Nat) (op : UpOp) : State :=
  let s1 := s.pushWork { prio := 1, engine := e, plane := p, op := op, why := .recovery }
  if (s1.panel e).pstate = 0 then s1.updPanel e (fun x => { x with pstate := 2, awayWhy := op.away }) else s1

/-- The partner of a plane that an operation may have disturbed is read digitally, where it is in use, and touched up, or
rewritten where its codes differ (R166, R167, Table 5.9). -/
def State.recoverPartner (s : State) (e p : Nat) : State :=
  let q := partnerOf p
  if p = 16 ∨ (s.plane (17 * e + q)).state ≠ 1 then s
  else
    let s1 := s.pushWork { prio := 1, engine := e, plane := q, op := .levelRead, why := .partner }
    if (s1.panel e).pstate = 0 then s1.updPanel e (fun x => { x with pstate := 2, awayWhy := 3 }) else s1

/-- What the journal leaves incomplete on a plane (Table 5.9). -/
def State.recoverPlane (s : State) (l : List JRec) (e p : Nat) : State :=
  let used := decide ((s.plane (17 * e + p)).state = 1)
  match lastOf l (locPlane e p) with
  | none => s
  | some r =>
    match r.kind with
    | 0x01 => (s.recover e p (if used then .program else .erase)).recoverPartner e p
    | 0x02 => if used then s.recover e p .program else s
    | 0x03 => (s.recover e p (if used then .program else .erase)).recoverPartner e p
    | 0x04 => if r.status = 0 then s else s.recover e p .program
    | 0x05 => s.recover e p .touchUp
    | _ => s

/-- Records after the last of one kind, where none of another kind follows it. -/
def openSince (l : List JRec) (begin_ commit : Nat) : List JRec :=
  let tail := (l.reverse.takeWhile (fun r => decide (r.kind ≠ begin_))).reverse
  if l.any (fun r => decide (r.kind = begin_)) ∧ tail.all (fun r => decide (r.kind ≠ commit)) then tail else []

/-- A swap begun and not committed: every panel on which it has started work is reprogrammed from the old slot, and served from
its away copy meanwhile (R199). The list of those panels stands with the upkeep tables: the journal's ring may have erased the
swap-begin record of a long swap (DESIGN CHOICE, assumption 71). -/
def State.recoverSwap (s : State) : State :=
  let es := s.upk.swapOpen.getD []
  (s.oldHomes.filter (fun x => es.contains (s.servedBy x.1))).foldl (fun s x =>
    s.recover (s.servedBy x.1) ((s.engine (s.servedBy x.1)).phys x.2.1) .program) s

/-- A REPLAN begun and not committed: its target planes are erased (Table 5.9). -/
def State.recoverReplan (s : State) : State :=
  (planesOf (openSince s.upk.journal 0x0D 0x0E)).foldl (fun s x =>
    if (s.plane (17 * x.1 + x.2)).state = 0 then s.recover x.1 x.2 .erase else s) s

/-- Replay of the journal and recovery (R189). -/
def State.replay (s : State) : State :=
  let s1 := ((s.upk.journal.filter (fun r => decide (s.upk.stored < r.seq))).foldl State.replayRec s).mapPlanes
  ((planesOf s1.upk.journal).foldl (fun s x => s.recoverPlane s1.upk.journal x.1 x.2) s1).recoverReplan

/-! ## Steps 7 and 8: the image and the arrays, R496 to R499, R169 -/

/-- The image of the active slot and whether its checks pass: all, or all but the array codes. A warm restart reads the sections
other than the array codes and checks their digests alone (R491). -/
def State.bootImage (s : State) (b : BootFacts) (cold : Bool) : Option (Image × Bool × Bool) :=
  match s.img.active with
  | none => none
  | some n => (s.imgSlot n).image.map (fun i =>
      let rest := (b.imageSigOk || !cold) && b.otherOk
      let codes := b.codesOk || !cold
      (i, rest && codes, rest && !codes))

/-- Planes that hold blocks of the image are in use. -/
def State.homesInUse (s : State) : State :=
  (s.oldHomes.filter (fun x => !s.isRetired x.1)).foldl (fun s x =>
    let e := s.servedBy x.1
    s.updPlane (17 * e + (s.engine e).phys x.2.1) (fun p => if p.state = 0 then { p with state := 1, lplane := x.2.1 } else p)) s

/-- Step 7. -/
def State.loadImage (s : State) (b : BootFacts) (cold : Bool) : State :=
  match s.bootImage b cold with
  | none => { s with img := { s.img with good := true, codesBad := false } }
  | some (i, good, codesBad) =>
    let s1 : State := { s with img := { s.img with good := good, codesBad := codesBad }, mem := { s.mem with goldenBad := !good } }
    let s2 := if good then s1 else s1.raise 1 19 9
    if good || codesBad then
      let s3 := (if cold then s2.placeHistory i false else s2).placeImage i
      let s4 : State := { s3 with life := { s3.life with measures := s3.life.measures.take 4 ++ [i.measure] } }
      (if good = true ∧ s4.opt.shadow.imgCtr < i.secver then s4.writeOption (fun o => { o with imgCtr := i.secver }) else s4).homesInUse
    else s2

/-- The reference reading of a plane in use sets its drift measure and t_e (R169). -/
def State.bootReading (s : State) (b : BootFacts) (k : Nat) : State := s.bootDrift k (Tab.get 0 b.drift k)

/-- Physical planes in use. -/
def State.usedPlanes (s : State) : List Nat := (s.upk.planes.filter (fun e => decide (e.2.state = 1))).map Prod.fst

/-- Planes in STATE erased or spare that their entries or cells name: those that the blank check reads. -/
def State.blankPlanes (s : State) : List Nat :=
  (((s.upk.planes.map Prod.fst) ++ (s.upk.cells.map Prod.fst)).dedup).filter (fun k => decide ((s.plane k).state = 0 ∨ (s.plane k).state = 2))

/-- Blocks of panels that are away or retired have their copies in the away region (R181, R183, R189). -/
def State.homesAway (s : State) : State :=
  (s.upk.panels.filter (fun e => decide ((s.panel e.1).pstate = 2 ∨ (s.panel e.1).pstate = 3))).foldl (fun s e => s.copyPanel e.1) s

/-- Step 8; a cluster whose array-tier sensor reads below −20 °C waits (R498, R499). At a cold start every plane in use is read
digitally; at every start the reference readings are taken and erased and spare planes get their blank check (Table 5.9, R491). -/
def State.checkArrays (s : State) (b : BootFacts) (cold : Bool) : State :=
  let ks := s.usedPlanes
  let chill := fun (k : Nat) => cold && decide (s.arrayTemp (engCluster (k / 17)) < -200)
  let late := ((ks.filter chill).map (fun k => engCluster (k / 17))).dedup
  let s0 := b.reads.foldl (fun s r => s.updCells r.1 (fun x => x.moved r.2.found)) s
  let s1 := (ks.filter (fun k => !chill k)).foldl (fun s k => s.bootReading b k) { s0 with upk := { s0.upk with postponed := late } }
  let reads := (if cold then ks else []) ++ s1.blankPlanes
  ((reads.filter (fun k => !chill k)).foldl (fun s k => s.actOnRead (k / 17) (k % 17) .recovery 1) s1).homesAway

/-! ## Step 9: state, R144, R508 to R510 -/

/-- The configuration part of a checkpoint: slots, contexts, budgets. A slot whose parameters stand keeps its ring. -/
def State.restoreCfg (s : State) (c : Ckpt) : State :=
  let s1 := { s with
    supply := { s.supply with mainBudget := c.mainBudget, backupBudget := c.backupBudget }
    ing := { s.ing with slots := c.slots.foldl (fun (t : Tab Slot) e =>
      if (Tab.get ({} : Slot) s.ing.slots e.1).cfg = some e.2 then Tab.set {} t e.1 (Tab.get {} s.ing.slots e.1)
      else Tab.set {} t e.1 { cfg := some e.2 }) [] } }
  c.ctxs.foldl (fun s e => s.updCtx e.1 (fun x =>
    { x with state := if e.2.started || e.2.stopped then .stopped else .free, prio := e.2.prio, wdog := e.2.wdog, pt := e.2.pt
             allow := e.2.allow, rint := e.2.rint, sched := e.2.sched, quota := e.2.quota })) s1

/-- Restore candidates, oldest by sample index first: the checkpoint in force, a last-gasp set whose CRC passes, at a warm
restart the one in staging; each of the active image and not older than the last swap commit (R508). -/
def State.candidates (s : State) (b : BootFacts) (cold : Bool) : List Ckpt :=
  let l := s.ckpt.inForce.toList ++ (if b.gaspCrcOk then s.ckpt.gasp.toList else []) ++ (if cold then [] else s.ckpt.staging.toList)
  (l.filter (fun c => decide (c.imageId = s.imageId) && s.image.isSome && decide (s.img.stamp ≤ c.stamp))).mergeSort
    (fun a b => match a.sidx, b.sidx with
      | none, none => decide (a.stamp ≤ b.stamp)
      | none, some _ => true
      | some _, none => false
      | some x, some y => decide (x < y) || (decide (x = y) && decide (a.stamp ≤ b.stamp)))

/-- The restore point. -/
def State.restorePoint (s : State) (b : BootFacts) (cold : Bool) : Option Ckpt := (s.candidates b cold).getLast?

/-- Exponents and runs of a checkpoint; without one they stand at 0 (R144). -/
def State.restoreScales (s : State) (c : Ckpt) : State :=
  c.scales.foldl (fun s e => s.updCore (e.1 / 2 ^ 40) (fun k =>
    { k with clips := Tab.upd {} k.clips (e.1 % 2 ^ 40) (fun r => { r with exp := e.2.1, downrun := e.2.2.1, satrun := e.2.2.2 }) })) s

/-- The watch part of the restore point on a watch context that has just started (R508, R509): its state and rule states,
coverage and report-interval position. Tokens of the present run after the restore point are served; otherwise the span up to
the first new token is a gap. -/
def State.restoreWatch (s : State) (m : Member) (c : Ckpt) : State :=
  let s1 := s.updMem (fun mem => (m.state.foldl (fun (a : Memory × List Byte) r => (a.1.store r.space r.at_ (a.2.take r.len) false, a.2.drop r.len)) (mem, c.state)).1)
  let after := match c.sidx with | some x => x + 1 | none => 0
  let served := match s.ing.s0, c.sidx with | some o, some x => decide (o ≤ x + 1) && s.ing.running | _, _ => false
  let first := if served then (after - s.ing.s0.getD 0) / max 1 s.tokenSpan else s.watch.first
  { s1 with
    io := { s1.io with rules := c.rules }
    watch := { s1.watch with first := first, riFirst := first, riOff := c.ri, cover := c.cover, restored := true, lastSidx := c.sidx
                             owesGap := c.sidx.isSome && !served, gapFrom := if served then none else c.sidx.map (· + 1) } }

/-! ## Step 10: Ready, R488 -/

/-- The contexts that the restored configuration holds as started, in order. In a pack the lead's RUN byte starts and stops the
watch context, so context 0 is only recorded (R364, R510). -/
def State.startRestored (s : State) (l : List (Nat × CtxCfg)) : State :=
  let on := (l.filter (fun e => e.2.started)).map Prod.fst
  let s1 : State := { s with pack := { s.pack with run := if s.standalone then 0 else flag (on.contains 0) + 2 * flag (on.any (fun c => decide (c ≠ 0))) } }
  s1.each (on.filter (fun c => s.standalone || decide (c ≠ 0))) (fun s c => (s.startCtx c).2)

/-- The full image check that follows a warm restart (R491, R496): where it fails GOLDENBAD is set, the image stays in force only
where its array codes alone fail, and every context that runs stops at its next boundary. It runs in slack after Ready; the model
takes it at once. -/
def State.lateCheck (s : State) (b : BootFacts) (cold : Bool) : State :=
  if cold = true ∨ s.img.good = false ∨ s.image = none ∨ (b.imageSigOk && b.codesOk) = true then s
  else
    let s1 := ({ s with img := { s.img with good := false, codesBad := b.imageSigOk }, mem := { s.mem with goldenBad := true } }).raise 1 19 9
    s1.each ((s1.ctxs.filter (fun e => e.2.started)).map Prod.fst) (fun s c =>
      s.updCtx c (fun x => { x with stopReq := some (x.stopReq.getD []), pend := none }))

/-- Steps 9 and 10. -/
def State.becomeReady (s : State) (b : BootFacts) (cold : Bool) : State :=
  let cfg := s.ckpt.inForce
  let s1 := match cfg with | some c => s.restoreCfg c | none => s
  let point := s1.restorePoint b cold
  let s2 := match point with | some c => s1.restoreScales c | none => s1
  let s3 : State := { s2 with life := { s2.life with phase := .ready }, ckpt := { s2.ckpt with staging := none } }
  let s4 := match cfg with | some c => s3.startRestored c.ctxs | none => s3
  let s5 := match point, s4.member 0 with
    | some c, some m => if s4.standalone = true ∧ (s4.ctx 0).holds = true then s4.restoreWatch m c else s4
    | _, _ => s4
  (List.range 4).foldl State.joinGroups (s5.releaseCut).syncIngest

/-! ## The starts -/

/-- What a start finds: an option copy that failed, feeds that are out, hold-up below its requirement (R484, R514, R520). -/
def State.startTroubles (s : State) : State :=
  let s1 := if s.opt.rewrite then s.raise 1 20 9 else s
  let s2 := if s1.supply.main.out then s1.raise 0 0 12 else s1
  let s3 := if s2.supply.backup.out then s2.raise 0 2 12 else s2
  if s3.supply.holdupMj < 4920 then s3.raise 0 4 12 else s3

/-- The Shepherd PLL or a PHY PLL has failed to lock for the third time (R526). -/
def State.bootPllsFail (s : State) (b : BootFacts) : Bool :=
  !b.bootPllsOk || (List.range 5).any (fun n => decide (3 ≤ (Tab.get {} s.plls (n + 1)).tries))

/-- PLLs of the base die, all locked. -/
def pllsLocked : Tab BasePll := (List.range 6).map (fun n => (n, { running := true, locked := true }))

/-- Steps 5 to 10, on a state that the reset and the memory steps have left; with the last one done the module is Ready (R488). -/
def State.bootOn (s : State) (b : BootFacts) (cold kept : Bool) : State :=
  if b.tcxoOk = false then s.holdBoot .tcxo
  else if cold = true ∧ s.bootPllsFail b = true then ({ s with plls := [] }.raise 0 11 12).holdBoot .pll
  else
    let s := { s with plls := pllsLocked }
    match s.bootBank b with
    | none => (s.startTroubles.log { code := Config.bootCode 1, bunit := 1 }).holdBoot .noBank
    | some (n, fall) =>
      let s1 := (((s.bootFirmware n fall).resumeStamp kept).bootLog cold s.newestGasp).startTroubles
      let s2 := (((s1.replay).loadImage b cold).recoverSwap).checkArrays b cold
      let s3 := (s2.becomeReady b cold).lateCheck b cold
      { s3 with life := { s3.life with phase := .ready } }

/-- A cold start is due, or a feed comes into its range with the module unpowered. -/
def State.coldDue (s : State) (b : BootFacts) : Bool :=
  match s.life.phase with
  | .unpowered => inside (feedRange .main s.optv.isD2) b.mainMv || inside (feedRange .backup s.optv.isD2) b.backupMv
  | .halted => decide (s.life.due = some .cold) && s.anyFeed
  | _ => false

/-- A reset and the start that follows it. -/
def State.startFrom (s : State) (b : BootFacts) (cold keepTime kept : Bool) : State :=
  match s.opt.atReset b with
  | none => (s.resetTo s.opt b cold keepTime).holdBoot .noOption
  | some o =>
    let s1 := s.resetTo o b cold keepTime
    let s2 : State := if cold then { s1 with supply := { s1.supply with mainBudget := o.loaded.mainBud, backupBudget := o.loaded.backBud } } else s1
    s2.bootOn b cold kept

/-- COLD_START, whole: the sequence of Table 14.1 (R489). -/
def execColdStart (b : BootFacts) (s : State) : Outc :=
  if s.coldDue b = false then .next s
  else .next ((s.startFeeds b).startFrom b true false (decide (s.life.phase = .halted)))

/-- WARM_RESTART, whole (R491). Where the retention checks fail it goes on as a cold start from step 3, with RETAINLOST (R434). -/
def execWarmRestart (b : BootFacts) (s : State) : Outc :=
  if s.life.phase ≠ .halted ∨ s.life.due ≠ some .warm then .next s
  else if b.retainOk then .next (s.startFrom b false false true)
  else .next ((s.raise 1 14 12).startFrom b true true true)

end Sys2Proof.Machine
end

