-- ==== Sys2Proof/Machine/Io.lean ====
section
/-! DEFINITION. The pins of J4: sense circuits, overcurrent, inputs (R544 to R548). -/

namespace Sys2Proof.Machine

open Sys2Proof

/-- OUTPUT_SENSE_MISMATCH: for more than 5 ms output `n` has been sensed at the other state than the commanded one (R544). -/
def execOutputSenseMismatch (n : Nat) (s : State) : Outc :=
  if n < 4 ∧ s.powered = true then
    let s1 := { s with io := { s.io with stuck := s.io.stuck.filter (fun (p : Nat × Bool) => decide (p.1 ≠ n)) ++ [(n, !s.outputs.getLsbD n)] } }
    .next (s1.trouble 0 13 0 13 0xFF [n])
  else .next s

/-- OUTPUT_OVERCURRENT: an output that is on has carried more than 0.8 A for 10 ms and turns itself off (R545). -/
def execOutputOvercurrent (n : Nat) (s : State) : Outc :=
  if n < 4 ∧ s.outputs.getLsbD n = true then
    let s1 := { s with io := { s.io with cutOff := s.io.cutOff ||| (1#4 <<< n) } }
    .next (s1.trouble 0 13 0 13 0xFF [n])
  else .next s

/-- HEALTH_SENSE_MISMATCH: for more than 50 ms HSENSE has differed from HEALTHY (R548). -/
def execHealthSenseMismatch (s : State) : Outc :=
  if s.powered then
    let s1 := { s with io := { s.io with hStuck := some (!s.healthy) } }
    .next (s1.raise 0 13 13)
  else .next s

/-- The reading of an input at a voltage in mV, with its last reading between the two levels (R546). -/
def inputRead (last : Bool) (mv : Int) : Bool := if 18000 < mv then true else if mv < 10000 then false else last

/-- One sample of input `n`: ten samples in a row that differ from the debounced reading change it (R546). -/
def Io.sampleInput (io : Io) (n : Nat) (mv : Int) : Io :=
  let r := inputRead (io.raw.getLsbD n) mv
  let put := fun (w : BitVec 4) (b : Bool) => if b then w ||| (1#4 <<< n) else w &&& ~~~ (1#4 <<< n)
  if r = io.inputs.getLsbD n then { io with raw := put io.raw r, runs := io.runs.set n 0 }
  else if 10 ≤ io.runs.getD n 0 + 1 then { io with raw := put io.raw r, inputs := put io.inputs r, runs := io.runs.set n 0 }
  else { io with raw := put io.raw r, runs := io.runs.set n (io.runs.getD n 0 + 1) }

/-- INPUT_SAMPLE: the 1 ms sample of the four inputs (R546). -/
def execInputSample (mv : List Int) (s : State) : Outc :=
  if s.powered then
    .next { s with io := (List.range 4).foldl (fun io n => io.sampleInput n (mv.getD n 0)) s.io }
  else .next s

end Sys2Proof.Machine
end

