-- ==== Sys2Proof/Machine/StoreOps.lean ====
section
/-! DEFINITION. Scrubbing, the refetch of weight data, the store's operations, the log's pages and the reassertion of level
bits (R437 to R482). -/

namespace Sys2Proof.Machine

open Sys2Proof

/-! ## Scrub, R440 -/

/-- PATROL_SCRUB_READ: one beat or word; a block whose valid bit is clear is skipped. -/
def execPatrolScrubRead (f : EccFinding) (s : State) : Outc :=
  if s.fwUp = false ∨ (f.space = .board ∧ s.mem.clear (f.addr / 4096) = true) then .next s
  else .next (s.wake.eccFinding f none)

/-- SCRUB_PASS_END: the SCRUB_PASS record, and the counts start again. -/
def execScrubPassEnd (s : State) : Outc :=
  if s.fwUp = false then .next s
  else
    let s0 := s.wake
    let s1 := s0.log { code := 0x0005, detail := (0 :: s0.mem.findings.drop 1).flatMap (fun n => (be 2 (min n 65535)).map (·.toNat)) }
    .next { s1 with mem := { s1.mem with findings := [0, 0, 0, 0, 0, 0], scrubBlocks := [], scrubLate := false } }

/-- SCRUB_DEADLINE: 24 h have passed without the end of the pass. -/
def execScrubDeadline (s : State) : Outc :=
  if s.fwUp = false then .next s
  else
    let s0 := s.wake
    .next ({ s0 with mem := { s0.mem with scrubLate := true } }.raise 1 13 1)

/-! ## Weight data read again, R445 to R447 -/

/-- The poison of a page is gone: fresh weight data stands in it. -/
def Memory.cleanPage (m : Memory) (page : Nat) : Memory :=
  { m with poison := m.poison.filter (fun e => !(decide (e.1 % 5 = 4) && decide (e.1 / 5 / 256 = page))) }

/-- The files of the image in force that cover an SRAM word, by its poison key: reloaded from their home (R445). -/
def State.reloadWord (s : State) (k : Nat) : State :=
  match s.image with
  | none => s
  | some i => s.putFiles ((s.filesOf i (fun _ => true)).filter (fun f =>
      (List.range f.2.2.length).any (fun j => decide (poisonKey f.1 (f.2.1 + j) = k))))

/-- WEIGHT_REFETCH_DONE: the golden data of the oldest refetch stands in a spare page, or in the SRAM file again; where the golden
copy is itself uncorrectable the blocks stay as they are (R447), as does a page for which no spare is free. -/
def execWeightRefetchDone (goldenOk : Bool) (s : State) : Outc :=
  match s.mem.refetch with
  | [] => .next s
  | (board, n) :: more =>
    if s.fwUp = false then .next s
    else
      let s0 := s.wake
      let s1 := { s0 with mem := { s0.mem with refetch := more } }
      if goldenOk = false then .next ({ s1 with mem := { s1.mem with goldenBad := true } }.raise 1 19 9)
      else if board then
        if 4096 ≤ s1.mem.spares then .next s1
        else .next ({ s1 with mem := s1.mem.cleanPage n }.retirePage (4096 * n))
      else .next (s1.reloadWord n)

/-! ## The store's map, R465, R466 -/

/-- Main blocks of a plane that can be spares: those that held none at shipment, and the homes of logical blocks that moved. -/
def Store.mayBeSpare (t : Store) (plane : Nat) : List Nat :=
  ((List.range 7).map (· + 9) ++ (List.range 377).map (· + 16007) ++ List.map (fun (e : Nat × Nat) => e.1 + 16) t.map).filter (fun b => decide (planeOf b = plane))

/-- The free spares of a plane: they hold no logical block, are not retired and no erase of them is open. -/
def Store.spares (t : Store) (plane : Nat) : List Nat :=
  (t.mayBeSpare plane).filter (fun b => (t.holds b).isNone && !t.retired.contains b && !t.erasing 0 b)

/-- A map record: logical block `l` lies in main block `b`; after 256 of them a full copy is written and its map root named. -/
def State.mapBlock (s : State) (l b : Nat) : State :=
  let s1 := { s with store := { s.store with map := Tab.set 0 s.store.map l (if b = l + 16 then 0 else b), mapRecs := s.store.mapRecs + 1 } }
  if s1.store.mapRecs % 256 = 0 then s1.areaRec { kind := 0x31, arg := Config.mapRoot s1.store.mapRecs } else s1

/-- A relocation of a logical block (R478): begin record, copy of the completed pages, map record, done record. -/
def State.relocate (s : State) (l to_ : Nat) : State :=
  let old := s.store.mainOf l
  let r : SRec := { kind := 0x23, unit := 0, phys := to_, logical := l, arg := old }
  let s1 := s.storeRec r
  let s2 := { s1 with store := { s1.store with pages := Tab.set {} s1.store.pages to_ (Tab.get {} s1.store.pages old) } }
  (s2.mapBlock l to_).storeRec { r with kind := 0x24 }

/-- A relocation whose old block stays in use: it is erased under its own intent record. -/
def State.moveBlock (s : State) (l to_ : Nat) : State := (s.relocate l to_).eraseIntent 0 (s.store.mainOf l)

/-- Refreshes that can run now, run (R482). -/
def State.runRefresh (s : State) : State :=
  s.store.refresh.foldl (fun s b =>
    match s.store.holds b, s.store.spares (planeOf b) with
    | some l, sp :: _ =>
      if s.openBlock l then s
      else
        let s1 := s.moveBlock l sp
        { s1 with store := { s1.store with refresh := s1.store.refresh.filter (· ≠ b), refreshes := s1.store.refreshes + 1 } }
    | none, _ => { s with store := { s.store with refresh := s.store.refresh.filter (· ≠ b) } }
    | _, [] => s) s

/-! ## Programs, R470, R471 -/

/-- A reserved logical block of a plane that is still there (Table 13.3). -/
def Store.reservedLeft (t : Store) (plane : Nat) : Option Nat :=
  ((List.range 7).map (· + 15984)).find? (fun l => decide (l % 8 = plane) && !t.givenUp.contains l)

/-- A write of logical block `l` fails for want of a spare: what its requester sees (R471). -/
def State.writeFails (s : State) (l : Nat) : State :=
  let img := decide (1776 ≤ l ∧ l < 15984) && decide ((l - 1776) / 7104 = s.inactive)
  let fw := decide (l < 128) && decide (l / 64 ≠ s.life.bank)
  let fail := fun (x : Xfer) => { x with failed := true }
  if img && s.img.xfer.isSome then
    match s.img.xfer with
    | some { ending := some who, .. } =>
      ({ s with img := { s.img with xfer := none } }.commit.setSlot s.inactive 0 none).complete (some who) 0x0202 0xFFFF .storeFail 0
        [(1, be 8 (top 64))]
    | _ => { s with img := { s.img with xfer := s.img.xfer.map fail } }
  else if fw && s.img.fwXfer.isSome then
    match s.img.fwXfer with
    | some { ending := some who, .. } =>
      ({ s with img := { s.img with fwXfer := none, fwBytes := [] } }.commit.setBank (1 - s.life.bank) 0 {}).complete (some who) 0x0C02 0xFFFF
        .storeFail 0 [(1, be 8 (top 64))]
    | _ => { s with img := { s.img with fwXfer := s.img.fwXfer.map fail } }
  else if 240 ≤ l ∧ l < 1776 then
    match s.ckpt.staging with
    | some _ => match execCheckpointStored false s with | .next t => t | _ => s
    | none => s
  else s

/-- A main block retires; what it held moves to a spare of its plane, or to the block of a reserved logical block, or the
write fails (R471). -/
def State.retireBlock (s : State) (b : Nat) : State :=
  if s.store.retired.contains b then s
  else
    let held := s.store.holds b
    let retired := fun (s : State) (spare : Nat) =>
      { s with store := { s.store with retired := s.store.retired ++ [b] } }.storeRec
        { kind := 0x25, unit := 0, phys := b, logical := held.getD 0xFFFF, arg := spare }
    match held with
    | none => retired s 0xFFFF
    | some l =>
      match s.store.spares (planeOf b) with
      | sp :: _ => retired (s.relocate l sp) sp
      | [] =>
        match s.store.reservedLeft (planeOf b) with
        | some v =>
          let sp := s.store.mainOf v
          let s1 := { s with store := { s.store with givenUp := s.store.givenUp ++ [v], map := Tab.set 0 s.store.map v 0 } }
          if v = l then retired s1 0xFFFF else retired (s1.relocate l sp) sp
        | none => (retired s 0xFFFF).writeFails l

/-- A program or erase of main block `b` reached its pulse limit with a cell that fails verify (R471). -/
def State.blockFails (s : State) (b : Nat) : State := (s.trouble 1 8 0 9 0xFF ((be 2 b).map (·.toNat))).retireBlock b

/-- A main block. -/
def isMain (b : Nat) : Bool := decide (9 ≤ b ∧ b < 16384)

/-- The store controller works. -/
def State.storeUp (s : State) : Bool := s.portsUp

/-- STORE_PROGRAM_DONE: the program of the next page of main block `block` ends: the page stands, or the fail flag is set. The
log and last-gasp areas are written in 1-bit mode (R466, R470, R472, Table 13.3). -/
def execStoreProgramDone (block : Nat) (verified : Bool) (s : State) : Outc :=
  let p := Tab.get {} s.store.pages block
  if s.storeUp = false ∨ isMain block = false ∨ p.full = true then .next s
  else
    let s0 := s.wake
    if verified then
      let one := if p.count = 0 then (match s.store.holds block with | some l => oneBitArea l | none => false) else p.oneBit
      .next { s0 with store := { s0.store with pages := Tab.set {} s0.store.pages block { p with count := p.count + 1, oneBit := one } } }
    else .next (s0.blockFails block)

/-! ## Erases, R478 to R481 -/

/-- Erase counts of main blocks that hold a logical block, in a plane. -/
def Store.levelling (t : Store) (plane : Nat) : Option (Nat × Nat) :=
  let used := t.erases.filter (fun (e : Nat × Nat) => decide (e.1 < 16384) && decide (planeOf e.1 = plane) && (t.holds e.1).isSome)
  let most := used.foldl (fun (a : Nat) (e : Nat × Nat) => max a e.2) 0
  if most ≤ 200 then none
  else
    let blocks := ((List.range 2048).map (fun i => 8 * i + plane)).filter (fun b => (t.holds b).isSome)
    let least := blocks.foldl (fun (a : Option (Nat × Nat)) b =>
      match a with
      | none => some (t.eraseCount 0 b, b)
      | some (c, x) => if t.eraseCount 0 b < c then some (t.eraseCount 0 b, b) else some (c, x)) none
    match least with
    | none => none
    | some (c, b) =>
      if most ≤ c + 200 then none
      else
        let free := (t.spares plane).foldl (fun (a : Option (Nat × Nat)) x =>
          match a with
          | none => some (t.eraseCount 0 x, x)
          | some (k, y) => if k < t.eraseCount 0 x then some (t.eraseCount 0 x, x) else some (k, y)) none
        free.map (fun f => (b, f.2))

/-- Wear levelling of a plane: the block that is seldom rewritten moves to the most-erased free block (R481). -/
def State.levelWear (s : State) (plane : Nat) : State :=
  match s.store.levelling plane with
  | none => s
  | some (b, free) =>
    match s.store.holds b with
    | some l => if s.openBlock l then s else s.moveBlock l free
    | none => s

/-- A main block may be erased to be written anew: its area is being written or takes pages at any time, and where the area's writes are journalled no
page of it is exposed (R473). -/
def State.mayErase (s : State) (b : Nat) : Bool :=
  match s.store.holds b with
  | none => false
  | some l =>
    (s.openBlock l || decide (2 ≤ areaOf l ∧ areaOf l ≤ 5)) && !(journalled l && s.store.pages.any (fun e =>
      !e.2.exposed.isEmpty && (match s.store.holds e.1 with | some k => decide (areaOf k = areaOf l) | none => false)))

/-- STORE_ERASE_DONE: an erase ends, under the intent that stands or, for a block that is written anew, the one written before it:
the done record, or the fail flag (R478). -/
def execStoreEraseDone (unit phys : Nat) (verified : Bool) (pulses : Nat) (s : State) : Outc :=
  if s.storeUp = false ∨ (s.store.erasing unit phys = false ∧ (unit ≠ 0 ∨ isMain phys = false ∨ s.mayErase phys = false)) then .next s
  else
    let s0 := s.wake.eraseIntent unit phys
    if verified then
      let s1 := s0.eraseDone unit phys pulses
      .next (if unit = 0 then (s1.levelWear (planeOf phys)).runRefresh else s1)
    else if unit = 0 then .next (s0.blockFails phys)
    else .next (s0.trouble 1 8 0 9 0xFF ((be 2 phys).map (·.toNat)))

/-! ## Reads, R437, R468, R482 -/

/-- Logical blocks of image slot `n`. -/
def inSlot (n l : Nat) : Bool := decide (1776 + 7104 * n ≤ l ∧ l < 8880 + 7104 * n)

/-- A sector of a main block was read with `errs` bit errors (R437, R447, R482). -/
def State.sectorRead (s : State) (b errs : Nat) : State :=
  let detail := (be 2 b).map (·.toNat)
  if errs ≤ 24 then s
  else if errs ≤ 40 then
    let s1 := s.trouble 1 6 0 9 0xFF detail
    let s2 := if s1.store.refresh.contains b then s1 else { s1 with store := { s1.store with refresh := s1.store.refresh ++ [b] } }
    s2.runRefresh
  else
    let s1 := s.trouble 1 7 0 9 0xFF detail
    match s1.store.holds b with
    | none => s1
    | some l =>
      if (match s1.img.active with | some a => inSlot a l | none => false) then { s1 with mem := { s1.mem with goldenBad := true } }.raise 1 19 9
      else if s1.img.swap.isSome ∧ inSlot s1.inactive l = true then s1.swapFails
      else s1

/-- STORE_READ: a read of a sector. A read of a plane that erases suspends the erase and resumes it, so no state differs
after it (R469). -/
def execStoreRead (block bitErrors : Nat) (s : State) : Outc :=
  if s.storeUp = false ∨ isMain block = false then .next s else .next (s.wake.sectorRead block bitErrors)

/-- STORE_PATROL_READ: a read of the weekly pass over every programmed page; it ends with the last main block. -/
def execStorePatrolRead (block bitErrors : Nat) (s : State) : Outc :=
  if s.storeUp = false ∨ isMain block = false then .next s
  else
    let s1 := s.wake.sectorRead block bitErrors
    .next { s1 with store := if s1.store.patrol + 1 = 16375 then { s1.store with patrol := 0, lastFull := s1.life.now }
                             else { s1.store with patrol := s1.store.patrol + 1 } }

/-! ## Log pages, R458, R460 -/

/-- Records that a main block of the log area holds: 32 pages of 256. -/
def blockRecords : Nat := 8192

/-- Records that the log area holds. -/
def areaRecords : Nat := 524288

/-- LOG_PAGE_WRITE: the staged records, up to one page, go to the log area; a full area loses its oldest block. The row
stands for the 256th staged record and for the 10 s after the oldest. -/
def execLogPageWrite (s : State) : Outc :=
  if s.storeUp = false ∨ s.logs.staged = [] then .next s
  else
    let s0 := s.wake
    let stored := s0.logs.stored ++ s0.logs.staged.take 256
    .next { s0 with logs := { s0.logs with
      stored := if areaRecords < stored.length then stored.drop blockRecords else stored
      staged := s0.logs.staged.drop 256 } }

/-- A summary record of one code and location: REPEAT and the summary flag (R460). -/
def State.summary (s : State) (key n : Nat) : State :=
  let s1 := s.commit
  s1.putLog { s1.mkLog { code := key / 2 ^ 32, loc := key % 2 ^ 32 } none with summary := true, rep := min n 65535 }

/-- LOG_RATE_SECOND_END: a second of local time ends. The limits that count by the second start again with it: records by
code and location (R460), refusals by address (R396), corrected symbols by device (R431). -/
def execLogRateSecondEnd (s : State) : Outc :=
  if s.portsUp = false then .next s
  else
    let s1 := s.logs.suppressed.foldl (fun s e => s.summary e.1 e.2) s
    .next { s1 with
      logs := { s1.logs with written := [], suppressed := [] }
      comms := { s1.comms with refusedTo := [] }
      pack := { s1.pack with ports := Tab.alter {} (fun (q : PackPort) => { q with replays := 0 }) s1.pack.ports }
      mem := { s1.mem with corrected := [] } }

/-! ## Level bits, R452 -/

/-- The level bits of Tables 12.4 to 12.6 with the conditions that set them again, and their source units. -/
def State.levels (s : State) : List (Nat × Nat × Nat × Bool) :=
  [ (0, 0, 12, s.supply.main.out), (0, 2, 12, s.supply.backup.out), (0, 4, 12, decide (s.supply.holdupMj < 4920)),
    (0, 10, 12, decide (s.excluded ≠ [])), (0, 13, 13, s.outputBad),
    (1, 1, 2, decide (s.mem.erased ≠ [])), (1, 11, 1, decide (3072 ≤ s.remapUsed)), (1, 12, 1, decide (4096 ≤ s.remapUsed)),
    (1, 15, 0, s.upk.planes.any (fun e => e.2.worn)), (1, 16, 0, s.upk.panels.any (fun e => decide (e.2.pstate = 3))),
    (1, 19, 9, s.mem.goldenBad), (2, 9, 6, s.pack.detached) ]

/-- TROUBLE_LEVEL_REASSERT: within 1 s of a clear, a level bit whose condition holds is set again (R452). -/
def execTroubleLevelReassert (s : State) : Outc :=
  if s.portsUp = false then .next s
  else .next (s.levels.foldl (fun s x =>
    if x.2.2.2 = true ∧ (s.logs.word x.1).getLsbD x.2.1 = false then s.raise x.1 x.2.1 x.2.2.1 else s) s)

end Sys2Proof.Machine
end

