-- ==== Sys2Proof/Machine/PackLink.lean ====
section
/-! DEFINITION. The pack links: training and HELLO, acknowledgement and replay, credits, links that go down, and remote
writes, signals and barrier releases (R317 to R331, R349). -/

namespace Sys2Proof.Machine

open Sys2Proof

/-- The pack ports work: the module is a pack member, its firmware runs and their domain is on (R67, R311). -/
def State.packUp (s : State) : Bool := s.fwUp && !s.standalone && s.domOn .packPorts

/-! ## Training and HELLO, R317, R318 -/

/-- A port's HELLO. -/
def State.hello (s : State) (port : Nat) : PackBody :=
  .hello s.optv.packId s.optv.ppos s.optv.psize port s.pack.epoch s.imageId s.optv.level

/-- A trained port sends HELLO, with a new sequence and full credits. -/
def State.sendHello (s : State) (port : Nat) : State :=
  let s1 := s.updPort port (fun p => { p with state := 2, txSeq := 0, rxSeq := 0, replay := [], credits := [], owed := [], queue := [] })
  s1.sendOn port (s1.hdr 0 0) (s1.hello port)

/-- LINK_TRAINED: a port that is in training, down or miswired has trained. -/
def execLinkTrained (port : Nat) (s : State) : Outc :=
  if s.packUp = true ∧ portUsed port s.optv.psize = true ∧ (s.pport port).state ∈ [1, 4, 5] then .next (s.sendHello port) else .next s

/-- What a HELLO must agree with: pack identifier, Table 9.2, compatibility level (R318). -/
def State.helloFits (s : State) (port packId pos peer level : Nat) : Bool :=
  decide (packId = s.optv.packId ∧ pos = peerPos port s.optv.ppos s.optv.psize ∧ peer = peerPort port ∧ level = s.optv.level)

/-- The position is live on another of the member's ports, and Table 9.2 does not name it as the peer of both. -/
def State.helloConflict (s : State) (port pos : Nat) : Bool :=
  (List.range 4).any (fun q => decide (q ≠ port) && decide ((s.pport q).state = 3) && decide ((s.pport q).peer = pos)
    && !(decide (peerPos q s.optv.ppos s.optv.psize = pos) && decide (peerPos port s.optv.ppos s.optv.psize = pos)))

/-- HELLO: a HELLO shows that the peer has trained; the link is in use, or the port is miswired. The lead logs a position
that is live on another port. -/
def execHelloFrame (port : Nat) (h : PackHdr) (packId pos size peer epoch imageId level : Nat) (s : State) : Outc :=
  let st := (s.pport port).state
  if s.packUp = false ∨ portUsed port s.optv.psize = false ∨ st = 3 ∨ h.ver ≠ 1 then
    .next (if s.packUp = true ∧ h.ver ≠ 1 then s.updPort port (fun p => { p with dropped := p.dropped + 1 }) else s)
  else
    let s1 := if st = 2 then s else s.sendHello port
    if s1.helloFits port packId pos peer level ∧ s1.helloConflict port pos = false then
      .next (s1.updPort port (fun p => { p with state := 3, peer := pos, peerPort := peer, imageId := imageId }))
    else
      let s2 := (s1.updPort port (fun p => { p with state := 5, peer := pos % 64, peerPort := peer % 4, imageId := imageId })).trouble 2 12 0 6 0xFF
        [port, pos, size, epoch % 256]
      if s2.helloConflict port pos ∧ s2.isLead = true then .next (s2.troubleAs 2 12 { code := 0x343, bunit := 6, detail := [port, pos] })
      else .next s2

/-! ## Exchange messages that are due, R323 -/

/-- Position that serves a slot (R340). -/
def State.slotPos (s : State) (p : PackPass) (q : Nat) : Nat := (p.p0 + q) % max 1 s.optv.psize

/-- Recurrent layers of the inspect member. -/
def State.passLayers (s : State) (c : Nat) : Nat := ((s.member c).map (fun m => m.consts.layers.length)).getD 0

/-- The nearest live slot to the right of `q` in its row. -/
def PackPass.liveRight (p : PackPass) (q : Nat) : Option Nat :=
  ((List.range (7 - q % 8)).map (fun i => q + 1 + i)).find? (fun x => decide (x < p.n) && !p.holes.contains x)

/-- The nearest live slot to the left of `q` in its row. -/
def PackPass.liveLeft (p : PackPass) (q : Nat) : Option Nat :=
  ((List.range (q % 8)).map (fun i => q - 1 - i)).find? (fun x => !p.holes.contains x)

/-- The live slot of a row nearest to a column, the lower one of two (R347). -/
def PackPass.nearest (p : PackPass) (row col : Nat) : Option Nat :=
  ((List.range 8).flatMap (fun d => [col - d, col + d].filter (fun c => decide (c < 8) && (decide (c + d = col) || decide (c = col + d))))).find?
    (fun c => decide (8 * row + c < p.n) && !p.holes.contains (8 * row + c)) |>.map (fun c => 8 * row + c)

/-- The number of a value of a slot and layer. -/
def slotKey (q l : Nat) : Nat := 65536 * q + l

/-- Messages of a pass that a slot of this member still waits for: sender's slot, type, layer. -/
def State.slotAwaits (s : State) (p : PackPass) (q : Nat) : List (Nat × Nat × Nat) :=
  (List.range (s.passLayers p.ctx)).flatMap (fun l =>
    (if q % 8 ≠ 0 ∧ p.holes.contains (q - 1) = false ∧ Tab.get [] p.prefixes (slotKey q l) = [] then [(q - 1, 1, l)] else [])
    ++ (match p.liveRight q with
        | some r => if q % 8 ≠ 7 ∧ q + 1 ≠ p.n ∧ Tab.get [] p.suffixes (slotKey q l) = [] then [(r, 2, l)] else []
        | none => [])
    ++ (if q / 8 ≠ 0 ∧ Tab.get [] p.columns (slotKey (q / 8) l) = [] then
          (match p.nearest (q / 8 - 1) (q % 8) with | some r => [(r, 3, l)] | none => [])
        else [])
    ++ (if p.replays q ∧ Tab.get none p.halos (slotKey q l) = none then [(q - 1, 4, l)] else []))

/-- Messages that this member waits for, once its pass 1 is done, and the HANDOVER message: sender, context, type, layer. -/
def State.awaiting (s : State) : List (Nat × Nat × Nat × Nat) :=
  s.pack.passes.flatMap (fun p => (p.mine.filter (fun q => p.pass1.contains q && !p.replayed.contains q)).flatMap (fun q =>
    (s.slotAwaits p q).map (fun a => (s.slotPos p a.1, p.ctx, a.2.1, a.2.2))))
  ++ (match s.pack.handover with
      | some h => if h.to_ = s.optv.ppos ∧ h.placed = true then [(h.from_, 0, 5, 0)] else []
      | none => [])

/-- Ask a member for a message again. -/
def State.askAgain (s : State) (a : Nat × Nat × Nat × Nat) : State :=
  let pass := ((s.pack.passes.find? (fun p => decide (p.ctx = a.2.1))).map (·.pass)).getD 0
  s.packSend a.1 a.2.1 (.resend { epoch := s.pack.epoch, pass := if a.2.2.1 = 5 then 0 else pass } a.2.2.1 a.2.2.2 a.2.2.2)

/-- EXCHANGE_STALL_TIMEOUT: the k-th message that is due has had no frame for 10 ms. -/
def execExchangeStallTimeout (k : Nat) (s : State) : Outc :=
  match s.awaiting[k]? with
  | some a => if s.packUp then .next (s.askAgain a) else .next s
  | none => .next s

/-! ## Links down, R326 -/

/-- A link goes down; messages that are due and came over it are asked for again (R323). -/
def State.portDown (s : State) (port : Nat) : State :=
  let due := s.awaiting.filter (fun a => decide (s.route a.1 = some port))
  due.foldl State.askAgain (s.linkDown port)

/-- LINK_CRC_TIMEOUT. -/
def execLinkCrcTimeout (port : Nat) (s : State) : Outc :=
  if s.packUp = true ∧ (s.pport port).state ∈ [2, 3] then .next (s.portDown port) else .next s

/-- PACK_FRAME_CRC_FAIL: the receiver names the LSEQ that it expects. -/
def execPackFrameCrcFail (port : Nat) (s : State) : Outc :=
  if s.packUp = true ∧ s.portLive port = true then .next (s.sendOn port (s.hdr (s.pport port).peer 0) (.nak (s.pport port).rxSeq)) else .next s

/-! ## Link control, R320, R325, R326 -/

/-- IDLE: it carries an ACK. -/
def execIdleFrame (port : Nat) (h : PackHdr) (s : State) : Outc :=
  if s.packUp = true ∧ s.portLive port = true ∧ h.ver = 1 then .next (s.takeAck port h.ack) else .next s

/-- IDLE_SEND: the port has nothing to send. -/
def execIdleSend (port : Nat) (s : State) : Outc :=
  if s.packUp = true ∧ s.portLive port = true ∧ (s.pport port).queue.all (fun f => !(s.pport port).canSend f.1 f.2) then
    .next (s.sendOn port (s.hdr (s.pport port).peer 0) .idle)
  else .next s

/-- Frames from the named LSEQ on go out again. -/
def State.replayFrom (s : State) (port expected : Nat) : State :=
  let p := s.pport port
  match p.replay.findIdx? (fun r => decide (r.1.lseq = expected)) with
  | none => s
  | some i =>
    let again := p.replay.drop i
    if again.any (fun r => decide (16 ≤ r.2.2 + 1)) then s.portDown port
    else
      let ack := (p.rxSeq + 65535) % 65536
      again.foldl (fun s r => s.emit (.frame port { r.1 with ack := ack } r.2.1)) (s.updPort port (fun p =>
        { p with replay := p.replay.take i ++ again.map (fun r => (r.1, r.2.1, r.2.2 + 1)), replays := min 8191 (p.replays + again.length) }))

/-- NAK: its ACK counts, and every frame from the named LSEQ on is replayed; one replayed 16 times takes the link down. -/
def execNakFrame (port : Nat) (h : PackHdr) (expected : Nat) (s : State) : Outc :=
  if s.packUp = true ∧ s.portLive port = true ∧ h.ver = 1 then .next ((s.takeAck port h.ack).replayFrom port expected) else .next s

/-- CREDIT: credits for classes 1 to 6 come back. -/
def execCreditFrame (port : Nat) (h : PackHdr) (credits : List Nat) (s : State) : Outc :=
  if s.packUp = true ∧ s.portLive port = true ∧ h.ver = 1 then
    let s1 := (s.takeAck port h.ack).updPort port (fun p =>
      { p with credits := (List.range 6).foldl (fun t i =>
          Tab.set (creditMax (i + 1)) t (i + 1) (min (creditMax (i + 1)) (Tab.get (creditMax (i + 1)) t (i + 1) + credits.getD i 0))) p.credits })
    .next (s1.drainPort port (s1.pport port).queue.length)
  else .next s

/-- CREDIT_RETURN: credits that are due are returned. -/
def execCreditReturn (port : Nat) (s : State) : Outc :=
  if s.packUp = true ∧ s.portLive port = true ∧ (s.pport port).owed ≠ [] then
    let l := (List.range 6).map (fun i => Tab.get 0 (s.pport port).owed (i + 1))
    .next ((s.updPort port (fun p => { p with owed := [] })).sendOn port (s.hdr (s.pport port).peer 0) (.credit l))
  else .next s

/-! ## Remote writes, R328, R330 -/

/-- The bytes lie in the image area's working buffers: in the image area and in no weight block. -/
def State.inBuffers (s : State) (a n : Nat) : Bool :=
  decide (imageBase ≤ a ∧ a + n ≤ s.imageEnd)
    && (match s.image with
        | none => false
        | some i => ([i.watch, i.inspect].filterMap id).all (fun (m : Member) => m.digital.all (fun b =>
            decide (a + n ≤ imageBase + b.off ∨ imageBase + b.off + b.bytes ≤ a))))

/-- WRITE: the data goes to its address after the range check, and WRITE_DONE goes back; outside the working buffers it is
dropped and logged. -/
def execWriteFrame (port : Nat) (h : PackHdr) (data : List Byte) (s : State) : Outc :=
  s.onFrame port h (.write data) (fun s =>
    if s.inBuffers h.addr data.length then
      let s1 := s.updMem (fun m => m.store .board h.addr data h.poison)
      let s2 := { s1 with pack := { s1.pack with wdone := Tab.upd 0 s1.pack.wdone (64 * h.ctx + h.src) (fun n => (n + 1) % 2 ^ 32) } }
      s2.packSend h.src h.ctx (.writeDone 1)
    else s.log { code := Config.bootCode 2, bunit := 6, ctx := h.ctx, detail := (be 8 h.addr).map (·.toNat) ++ [h.src] })

/-- Descriptors of a context that write to a member: `n` of their writes are complete. -/
def creditFlights (c dst : Nat) : Nat → List Flight → List Flight × Nat
  | n, [] => ([], n)
  | n, f :: fs =>
    let k := if f.ctx = c ∧ dDtier f.desc = 6 ∧ dDunit f.desc / 2 ^ 26 = dst then min n f.outstanding else 0
    let r := creditFlights c dst (n - k) fs
    ({ f with outstanding := f.outstanding - k } :: r.1, r.2)

/-- Writes of a context to a member are complete, oldest first over the channels. -/
def State.writesDone (s : State) (c dst : Nat) : List Nat → Nat → State
  | [], _ => s
  | ch :: chs, n =>
    let r := creditFlights c dst n (s.channel ch)
    (s.setChannel ch r.1).writesDone c dst chs r.2

/-- Steps of a context that wait in a pack fence. -/
def State.fencing (s : State) (c : Nat) : List Nat :=
  (s.threads.filter (fun e => decide (e.2.ctx = c) && decide (e.2.state = .running) && decide (e.2.waits = .packFence))).map Prod.fst

/-- WRITE_DONE: writes of the context are visible on the target; pack fences complete that wait for no other. -/
def execWriteDone (port : Nat) (h : PackHdr) (n : Nat) (s : State) : Outc :=
  s.onFrame port h (.writeDone n) (fun s =>
    let s1 := s.writesDone h.ctx h.src (s.channels.map Prod.fst) n
    let k := 64 * h.ctx + h.src
    let s2 := { s1 with pack := { s1.pack with wacked := Tab.upd 0 s1.pack.wacked k (fun a => min (Tab.get 0 s1.pack.wsent k) (a + n)) } }
    ((s2.fencing h.ctx).filter (fun t => !s2.writesOpen (s2.thread t).fence)).foldl (fun s t => (s.afterFence t).settle h.ctx) s2)

/-- REMOTE_WRITE_TIMEOUT: the oldest tier-6 descriptor of a channel has a write that WRITE_DONE has not covered for 1 ms:
ERR 4 halts its ring; a pack fence that covers one of its writes does not complete (R330). -/
def execRemoteWriteTimeout (channel : Nat) (s : State) : Outc :=
  match (s.channel channel).findIdx? (fun f => decide (0 < f.outstanding)) with
  | none => .next s
  | some i =>
    match (s.channel channel)[i]? with
    | none => .next s
    | some f =>
      let s1 := (s.setChannel channel ((s.channel channel).eraseIdx i)).updRing f.ring (fun x => { x with inflight := x.inflight - 1 })
      let k := 64 * f.ctx + dDunit f.desc / 2 ^ 26
      let s2 := { s1 with pack := { s1.pack with wacked := Tab.upd 0 s1.pack.wacked k (· + f.outstanding) } }
      let s3 := s2.descFails f.ring f.ctx (dTag f.desc) 4
      if (s3.fencing f.ctx).any (fun t => decide (f.wfrom < Tab.get 0 (s3.thread t).fence k)) then .next (s3.fenceFails f.ctx) else .next s3

/-! ## Remote signals and releases, R329, R331, R349 -/

/-- The counter that a remote signal has reached before its data (R331). -/
def State.overtake (s : State) (p src behind : Nat) : State :=
  (s.updCounter p (fun c => { c with overtaken := true })).trouble 2 3 (locCluster (homeOf p)) 0 (s.counter p).owner
    ((be 4 p).map (·.toNat) ++ [src] ++ (be 4 behind).map (·.toNat))

/-- SIGNAL: the signal is applied at its home; one that is not fenced and finds WDONE behind WSENT has overtaken its data. -/
def execSignalFrame (port : Nat) (h : PackHdr) (id delta : Nat) (fenced : Bool) (wsent : Nat) (s : State) : Outc :=
  s.onFrame port h (.signal id delta fenced wsent) (fun s =>
    let behind := (wsent + 2 ^ 32 - Tab.get 0 s.pack.wdone (64 * h.ctx + h.src)) % 2 ^ 32
    let s1 := s.applySignal { who := 3 * 2 ^ 13 + h.src, ctx := h.ctx, id := id % 4096, delta := delta }
    match s.physOf h.ctx (id % 4096) with
    | some p => if fenced = false ∧ behind ≠ 0 ∧ behind < 2 ^ 31 ∧ (s.counter p).orphaned = false then s1.overtake p h.src behind else s1
    | none => s1)

/-- RELEASE: the member's release mirror rises, and waiters that it satisfies wake; a copy changes nothing. -/
def execReleaseFrame (port : Nat) (h : PackHdr) (id value : Nat) (s : State) : Outc :=
  s.onFrame port h (.release id value) (fun s => s.raiseMirror h.ctx (id % 4096) value)

/-! ## Advisories of the pack, R338 -/

/-- ADVISORY: the outputs that another member's rules ask for, where its ASEQ is higher than the last applied. -/
def execAdvisoryFrame (port : Nat) (h : PackHdr) (pos : Nat) (outputs : BitVec 4) (aseq sidx : Nat) (s : State) : Outc :=
  s.onFrame port h (.advisory pos outputs aseq sidx) (fun s =>
    if s.pack.live.testBit pos = true ∧ Tab.get 0 s.io.packSeq pos < aseq then
      ({ s with io := { s.io with packOutputs := Tab.set 0 s.io.packOutputs pos outputs, packSeq := Tab.set 0 s.io.packSeq pos aseq } }).releaseCut
    else s)

end Sys2Proof.Machine
end

