-- ==== Sys2Proof/Machine/PackPass.lean ====
section
/-! DEFINITION. Passes of a pack: shares and slots, pass 1, the scan over the slots, halos, replays, horizon checks, and the
lead's part in them (R156, R339 to R348, R444). -/

namespace Sys2Proof.Machine

open Sys2Proof

/-! ## Combine pairs, R156, R343 -/

/-- The identity pair. -/
def pairOne : F32 × F32 := (0x3F800000, 0)

/-- An earlier and a later pair combine. -/
def combine (a b : F32 × F32) : F32 × F32 := ((fmul b.1 a.1).v, (fma b.1 a.2 b.2).v)

/-- Pairs of a layer, by channel and state index, combine each with each. -/
def combineAll (a b : List (F32 × F32)) : List (F32 × F32) := List.zipWith combine a b

/-- Pairs of a layer: d × N. -/
def State.layerPairs (s : State) (c l : Nat) : Nat :=
  match s.member c with
  | some m => m.desc.width * (m.consts.layers.getD l {}).n
  | none => 0

/-- Replay span R of the inspect member. -/
def State.replaySpan (s : State) (c : Nat) : Nat := ((s.member c).map (fun m => m.consts.replaySpan)).getD 0

/-- Lx of a slot and layer, where it is known: I in column 0, what SCAN_PREFIX brought, or (0, 0) after a hole. -/
def State.lx (s : State) (p : PackPass) (q l : Nat) : Option (List (F32 × F32)) :=
  if q % 8 = 0 then some (List.replicate (s.layerPairs p.ctx l) pairOne)
  else if p.holes.contains (q - 1) then some (List.replicate (s.layerPairs p.ctx l) (0, 0))
  else match Tab.get [] p.prefixes (slotKey q l) with
    | [] => none
    | v => some v

/-- Ux of a slot and layer: I in column 7 and in the last slot, what SCAN_SUFFIX brought, combined with (0, 0) for a hole that
follows (R347). -/
def State.ux (s : State) (p : PackPass) (q l : Nat) : Option (List (F32 × F32)) :=
  let n := s.layerPairs p.ctx l
  let zero : List (F32 × F32) := List.replicate n (0, 0)
  if q % 8 = 7 ∨ q + 1 = p.n then some (List.replicate n pairOne)
  else match p.liveRight q with
    | none => some zero
    | some r =>
      match Tab.get [] p.suffixes (slotKey q l) with
      | [] => none
      | v => some (if r = q + 1 then v else combineAll zero v)

/-- E of a row and layer: I for row 0, what SCAN_COLUMN brought, (0, 0) after a row of holes. -/
def State.ex (s : State) (p : PackPass) (row l : Nat) : Option (List (F32 × F32)) :=
  let n := s.layerPairs p.ctx l
  if row = 0 then some (List.replicate n pairOne)
  else if (p.nearest (row - 1) 0).isNone then some (List.replicate n (0, 0))
  else match Tab.get [] p.columns (slotKey row l) with
    | [] => none
    | v => some v

/-- The pair of a slot is that of pass 1 where its share is longer than R or it runs no replay, else that of its replay. -/
def State.hasOwn (s : State) (p : PackPass) (q : Nat) : Bool :=
  p.pass1.contains q && (decide (s.replaySpan p.ctx < Tab.get 0 p.shares q) || !p.replays q || p.replayed.contains q)

/-- X of a slot of this member and a layer. -/
def State.xOf (s : State) (p : PackPass) (q l : Nat) : Option (List (F32 × F32)) :=
  if s.hasOwn p q then some (Tab.get [] p.pairs (slotKey q l)) else none

/-- The state that enters a slot at a layer: the H part of E ∘ Lx. -/
def State.hIn (s : State) (p : PackPass) (q l : Nat) : Option (List F32) :=
  match s.ex p (q / 8) l, s.lx p q l with
  | some e, some x => some ((combineAll e x).map (·.2))
  | _, _ => none

/-! ## Messages -/

/-- What a message of the scan carries. -/
inductive ScanMsg where
  | prefix_ (v : List (F32 × F32))
  | suffix (v : List (F32 × F32))
  | column (v : List (F32 × F32))
  | halo (v : List Byte)
  deriving DecidableEq, Repr

/-- The message of slot `q` as a body. -/
def ScanMsg.body (m : ScanMsg) (h : ExHdr) (q : Nat) (hole : Bool) : PackBody :=
  match m with
  | .prefix_ v => .scanPrefix h q hole v
  | .suffix v => .scanSuffix h q hole v
  | .column v => .scanColumn h q hole v
  | .halo v => .halo h q v

/-- Poison that arrives with a message. -/
def PackPass.poisonBy (p : PackPass) (q : Nat) (poison : Bool) : PackPass :=
  if poison && !p.poisoned.contains (65536 + q) then { p with poisoned := p.poisoned ++ [65536 + q] } else p

/-- A message of slot `from_` reaches this member's slots; a second copy changes nothing. -/
def PackPass.take (p : PackPass) (m : ScanMsg) (from_ l : Nat) (poison : Bool) : PackPass :=
  match m with
  | .prefix_ v =>
    if p.mine.contains (from_ + 1) then { p with prefixes := Tab.set [] p.prefixes (slotKey (from_ + 1) l) v }.poisonBy (from_ + 1) poison else p
  | .suffix v =>
    match p.liveLeft from_ with
    | some q => if p.mine.contains q then { p with suffixes := Tab.set [] p.suffixes (slotKey q l) v }.poisonBy q poison else p
    | none => p
  | .column v =>
    let row := from_ / 8 + 1
    (p.mine.filter (fun q => decide (q / 8 = row))).foldl (fun p q => p.poisonBy q poison)
      { p with columns := Tab.set [] p.columns (slotKey row l) v }
  | .halo v =>
    if p.mine.contains (from_ + 1) then { p with halos := Tab.set none p.halos (slotKey (from_ + 1) l) (some v) }.poisonBy (from_ + 1) poison else p

/-- The slot is poisoned. -/
def PackPass.bad (p : PackPass) (q : Nat) : Bool := p.poisoned.contains q || p.poisoned.contains (65536 + q)

/-- A message of a slot leaves for the member that serves another slot, or stays here where that is this member. -/
def State.sendScan (s : State) (c q to_ l : Nat) (hole : Bool) (m : ScanMsg) : State :=
  match s.packPass c with
  | none => s
  | some p =>
    let dst := s.slotPos p to_
    if dst = s.optv.ppos then s.updPass c (fun x => x.take m q l (p.bad q))
    else
      let b := m.body { epoch := s.pack.epoch, pass := p.pass, layer := l } q hole
      let s1 := s.packSendP dst c (p.bad q) b
      { s1 with pack := { s1.pack with
        sent := (s1.pack.sent.filter (fun (x : Sent) => decide (x.dst ≠ dst ∨ x.type ≠ b.type ∨ x.layer ≠ l ∨ x.ctx ≠ c))) ++
          [({ dst := dst, type := b.type, layer := l, body := b, ctx := c } : Sent)] } }

/-- A hole lies among some slots. -/
def PackPass.holeIn (p : PackPass) (a b : Nat) : Bool := p.holes.any (fun h => decide (a ≤ h ∧ h ≤ b))

/-- The slot after this one holds tokens. -/
def PackPass.nextHeld (p : PackPass) (q : Nat) : Bool := decide (q + 1 < p.n) && !p.holes.contains (q + 1)

/-- Send a message of a slot and layer once in an epoch. -/
def State.sendOnce (s : State) (c q l type : Nat) (f : State → State) : State :=
  match s.packPass c with
  | none => s
  | some p =>
    let k := 4 * slotKey q l + type
    if p.outs.contains k then s else f (s.updPass c (fun x => { x with outs := x.outs ++ [k] }))

/-- The halo of a slot's own tokens goes to the next slot. -/
def State.scanHalo (s : State) (c q : Nat) (s0 : State) (p : PackPass) (l : Nat) : State :=
  match Tab.get none p.tails (slotKey q l) with
  | some t =>
    if p.nextHeld q && s.hasOwn p q then s0.sendOnce c q l 0 (fun s => s.sendScan c q (q + 1) l false (.halo t)) else s0
  | none => s0

/-- The prefix of a row goes to the next slot of the row. -/
def State.scanPrefix (s : State) (c q : Nat) (s0 : State) (p : PackPass) (l : Nat) : State :=
  match s.xOf p q l, s.lx p q l with
  | some x, some a =>
    if p.nextHeld q && decide (q % 8 ≠ 7) then
      s0.sendOnce c q l 1 (fun s => s.sendScan c q (q + 1) l (p.holeIn (q / 8 * 8) q) (.prefix_ (combineAll a x)))
    else s0
  | _, _ => s0

/-- The suffix of a row goes to the slot before it in the row. -/
def State.scanSuffix (s : State) (c q : Nat) (s0 : State) (p : PackPass) (l : Nat) : State :=
  match s.xOf p q l, s.ux p q l, p.liveLeft q with
  | some x, some u, some t => s0.sendOnce c q l 2 (fun s => s.sendScan c q t l (p.holeIn q (q / 8 * 8 + 7)) (.suffix (combineAll x u)))
  | _, _, _ => s0

/-- The value of the rows so far goes to the slots of the next row that have this slot as their nearest in the row above. -/
def State.scanColumn (s : State) (c q : Nat) (s0 : State) (p : PackPass) (l : Nat) : State :=
  match s.xOf p q l, s.lx p q l, s.ux p q l, s.ex p (q / 8) l with
  | some x, some a, some u, some e =>
    let v := combineAll e (combineAll (combineAll a x) u)
    let row := q / 8 + 1
    let targets := ((List.range 8).map (fun k => 8 * row + k)).filter (fun t =>
      decide (t < p.n) && !p.holes.contains t && decide (p.nearest (row - 1) (t % 8) = some q))
    if targets = [] then s0
    else s0.sendOnce c q l 3 (fun s => targets.foldl (fun s t => s.sendScan c q t l (p.holeIn 0 (q / 8 * 8 + 7)) (.column v)) s)
  | _, _, _, _ => s0

/-- The messages of one layer that a slot can send by now: its halo, the prefix, the suffix, the column value. -/
def State.scanLayer (s : State) (c q : Nat) (s0 : State) (l : Nat) : State :=
  match s.packPass c with
  | none => s0
  | some p => s.scanColumn c q (s.scanSuffix c q (s.scanPrefix c q (s.scanHalo c q s0 p l) p l) p l) p l

/-- Every message that this member's slots of a pass can send by now. -/
def State.scanOn (s : State) (c : Nat) : Nat → State
  | 0 => s
  | n + 1 =>
    match s.packPass c with
    | none => s
    | some p =>
      let s1 := p.mine.foldl (fun s q => (List.range (s.passLayers c)).foldl (fun s0 l => s0.scanLayer c q s0 l) s) s
      s1.scanOn c n

/-- Rounds after which one member's slots have nothing more to tell each other. -/
def scanRounds : Nat := 3

/-! ## The end of a share, of the member's part and of the pass, R339 -/

/-- A slot has delivered: its pass 1 is done, and its replay where it runs one. -/
def PackPass.slotDone (p : PackPass) (q : Nat) : Bool := p.pass1.contains q && (!p.replays q || p.replayed.contains q)

/-- Records that waited for the check of a slot go to the lead. -/
def State.flushSlot (s : State) (c q : Nat) : State :=
  match s.packPass c with
  | none => s
  | some p =>
    let rs := (p.records.filter (fun r => decide (r.1 = q))).map Prod.snd
    rs.foldl (fun s r => s.sendShare r) (s.updPass c (fun x => { x with records := x.records.filter (fun r => decide (r.1 ≠ q)) }))

/-- Live members that serve a slot of the pass. -/
def State.participants (s : State) (p : PackPass) : List Nat :=
  (((List.range p.n).map (fun q => s.slotPos p q)).dedup).filter (fun d => s.pack.live.testBit d)

/-- Every participant has reported, and every record that it named has arrived. -/
def State.passOver (s : State) (p : PackPass) : Bool :=
  (s.participants p).all (fun d => p.done.any (fun x => decide (x.1 = d ∧ (d = s.optv.ppos ∨ x.2 ≤ Tab.get 0 s.pack.rseen d))))

/-- The final record of a pass of which no member held a token (R410). -/
def State.emptyFinal (s : State) (p : PackPass) : ResultRec :=
  { sfirst := p.first, slast := p.first, ctx := p.ctx, member := 1, rkind := 2, pos := s.recPos, pass := p.pass, imgStamp := s.img.stamp
    qflags := qWarming }

/-- The lead marks the final record of a pass that is over and starts a swap that waited for it. -/
def State.tryPassOver (s : State) (c : Nat) : State :=
  match s.packPass c with
  | none => s
  | some p =>
    if s.isLead = false ∨ s.passOver p = false then s
    else
      let s1 := match p.back with
        | some _ => s.finishBack c
        | none => if p.coord then s.issue [s.emptyFinal p] else s
      (s1.leavePass c).trySwapAt

/-- The lead hears that a member's part is done. -/
def State.leadDone (s : State) (c pass pos rseq : Nat) : State :=
  match s.packPass c with
  | none => s
  | some p =>
    if p.pass ≠ pass ∨ s.isLead = false then s
    else (s.updPass c (fun x => { x with done := x.done.filter (fun d => decide (d.1 ≠ pos)) ++ [(pos, rseq)] })).tryPassOver c

/-- STATUS of PASS_DONE (Table 9.7). -/
def PackPass.status (p : PackPass) : Nat := if p.tokens = 0 then 1 else if p.degraded then 2 else 0

/-- This member reports PASS_DONE. -/
def State.sayDone (s : State) (c : Nat) : State :=
  match s.packPass c with
  | none => s
  | some p =>
    let me := s.optv.ppos
    let s1 := s.updPass c (fun x => { x with told := true })
    if s1.isLead then s1.leadDone c p.pass me 0
    else s1.packSend s1.pack.lead c (.passDone p.pass me p.status p.tokens s1.pack.rseq)

/-- After a slot has delivered: the member's part may be done. -/
def State.tryDone (s : State) (c : Nat) : State :=
  match s.packPass c with
  | none => s
  | some p => if p.told = false ∧ p.mine.all p.slotDone = true then s.sayDone c else s

/-! ## Pass 1, R340, R341 -/

/-- Append numbers of the tokens of a slot's share: those held that overlap the range; a filling module that serves both ends
takes the old tokens beyond its write position for slot 0 and the others for the last slot. -/
def State.shareOf (s : State) (p : PackPass) (q : Nat) : Option (Nat × Nat) :=
  let two := p.both && decide (s.optv.ppos = p.p0)
  let ns := (s.hist.slots.filter (fun e => e.2.holds && decide (e.2.sidx ≤ p.last ∧ p.first < e.2.sidx + s.tokenSpan)
      && (!two || (decide (q = 0) == decide (s.hist.write ≤ e.1))))).map (fun e => e.2.no)
  match ns with
  | [] => none
  | n :: rest => some (rest.foldl min n, rest.foldl max n)

/-- Pass 1 of a slot's share starts from a zero state, as a pass of a module of its own does. Coverage counts the tokens of
the range before the share where a replay is to bring their state. -/
def State.openShare (s : State) (c q : Nat) : State :=
  match s.packPass c with
  | none => s
  | some p =>
    match s.shareOf p q with
    | none => s
    | some (a, b) =>
      let before := if p.replays q then min ((s.sidxOf a - p.first) / max 1 s.tokenSpan) (q * s.hist.cap) else 0
      let r := s.replaySpan c
      let x : Pass := { no := p.pass, first := a, last := some b, next := a, segFirst := a, cover := before, sfirst := p.first, slast := p.last }
      let s1 := (s.updPass c (fun y => { y with
        cur := some q, shares := Tab.set 0 y.shares q (b + 1 - a), tokens := y.tokens + (b + 1 - a)
        spans := Tab.set 0 y.spans q (s.sidxOf (a + r - 1) + s.tokenSpan - 1) })).updCtx c (fun y => { y with pass := some x, poisoned := false })
      let s2 := match s1.member c with | some m => s1.zeroState m | none => s1
      s2.each ((s2.threadsOf c).map groupOf).dedup (fun s g => s.askPower (.coreGroup g) c)

/-- Exponents that the lead has sent for a context's next pass come into force (R142, R352). -/
def State.takeScales (s : State) (c : Nat) : State :=
  match s.member c, Tab.get [] s.pack.scaleDue c with
  | some m, u :: us =>
    let s1 := s.setUnits c m (u :: us)
    { s1 with pack := { s1.pack with scaleDue := Tab.set [] s1.pack.scaleDue c [] } }
  | _, _ => s

/-- A pass of the pack begins on this member: its context is started where it is not, its slots are found, and pass 1 runs
over the share of its first slot. A participant that holds none of the range reports that. -/
def State.beginPackPass (s : State) (p0 : PackPass) : State :=
  let c := p0.ctx
  let s1 := (s.leavePass c).setPass c none
  let s2 := if (s1.ctx c).started then s1 else (let r := s1.startCtx c
                                                if r.1.code < 0x10 then r.2 else s1)
  let serves := (List.range p0.n).filter (fun q => decide (s2.slotPos p0 q = s2.optv.ppos))
  let mine := if (s2.ctx c).started then serves.filter (fun q => (s2.shareOf p0 q).isSome) else []
  let p : PackPass := { p0 with
    mine := mine, holes := (List.range p0.n).filter (fun q => !s2.pack.live.testBit (s2.slotPos p0 q)) }
  let s3 := ({ s2 with pack := { s2.pack with passes := s2.pack.passes ++ [p] } }).takeScales c
  match mine with
  | q :: _ => s3.openShare c q
  | [] => if serves = [] then s3 else s3.sayDone c

/-- PASS_START. -/
def execPassStart (port : Nat) (h : PackHdr) (pass epoch first last p0 n : Nat) (both : Bool) (s : State) : Outc :=
  s.onFrame port h (.passStart pass epoch first last p0 n both) (fun s =>
    if s.isReady = false ∨ s.pack.detached = true ∨ s.pack.admitted = false ∨ h.ctx = 0 ∨ s.isLead = true then s
    else s.beginPackPass { ctx := h.ctx, pass := pass, epoch := epoch, first := first, last := last, p0 := p0, n := n, both := both })

/-- Values by layer stored for a slot. -/
def putLayers {α : Type} [DecidableEq α] (d : α) (t : Tab α) (q : Nat) (l : List α) : Tab α :=
  (List.range l.length).foldl (fun t k => Tab.set d t (slotKey q k) (l.getD k d)) t

/-- The product of a layer's decays in token order, each multiplication rounded (R156). -/
def decayProduct (n : Nat) (decays : List (List F32)) : List F32 :=
  decays.foldl (fun p a => (List.range n).map (fun i => (fmul (p.getD i one32) (a.getD i one32)).v)) (List.replicate n one32)

/-- The combine pairs of a stretch of one layer: the product of its decays and its final state from zero (R156). -/
def pairsOf (decays : List (List F32)) (final : List F32) : List (F32 × F32) := (decayProduct final.length decays).zip final

/-- The combine pairs of every layer. -/
def layerPairs (decays : List (List (List F32))) (finals : List (List F32)) : List (List (F32 × F32)) :=
  (List.range finals.length).map (fun l => pairsOf (decays.getD l []) (finals.getD l []))

/-- Local states corrected with the state that enters the stretch (R156). -/
def correctStates (pairs : List (F32 × F32)) (hIn : List F32) : List F32 :=
  (List.range pairs.length).map (fun i => let p := pairs.getD i (one32, 0); (fma p.1 (hIn.getD i 0) p.2).v)

/-- PASS1_COMPLETE: the share of a slot is read; its pairs, states and tails are recorded, its messages go out, and the next
share of this member starts. A slot without replay has delivered with that. -/
def execPass1Complete (slot : Nat) (f : Pass1Facts) (s : State) : Outc :=
  match s.pack.passes.find? (fun p => decide (p.cur = some slot) && (s.ctx p.ctx).pass.isNone && (s.ctx p.ctx).live && !p.pass1.contains slot) with
  | none => .next s
  | some p =>
    if s.solo then .next s
    else
      let c := p.ctx
      let s1 := s.updPass c (fun x => { x with
        cur := none, pass1 := x.pass1 ++ [slot]
        pairs := putLayers [] x.pairs slot (layerPairs f.decays f.finals), marks := putLayers [] x.marks slot f.marks
        tails := putLayers none x.tails slot (f.tails.map some)
        poisoned := if f.poisoned then x.poisoned ++ [slot] else x.poisoned })
      let s2 := match p.mine.find? (fun q => decide (q ≠ slot) && !p.pass1.contains q) with
        | some q => s1.openShare c q
        | none => s1
      .next ((s2.scanOn c scanRounds).tryDone c)

/-! ## Messages arrive, R322, R343, R344, R347 -/

/-- A message of a pass: taken where its epoch and pass are the present ones; then whatever can be sent on is sent. -/
def State.onScan (s : State) (c : Nat) (h : ExHdr) (from_ : Nat) (poison : Bool) (m : ScanMsg) : State :=
  match s.packPass c with
  | none => s
  | some p =>
    if h.epoch ≠ s.pack.epoch ∨ h.pass ≠ p.pass then s
    else (s.updPass c (fun x => x.take m from_ h.layer poison)).scanOn c scanRounds

/-- SCAN_PREFIX. -/
def execScanPrefix (port : Nat) (h : PackHdr) (ex : ExHdr) (fromSlot : Nat) (hole : Bool) (pairs : List (F32 × F32)) (s : State) : Outc :=
  s.onFrame port h (.scanPrefix ex fromSlot hole pairs) (fun s => s.onScan h.ctx ex fromSlot h.poison (.prefix_ pairs))

/-- SCAN_SUFFIX. -/
def execScanSuffix (port : Nat) (h : PackHdr) (ex : ExHdr) (fromSlot : Nat) (hole : Bool) (pairs : List (F32 × F32)) (s : State) : Outc :=
  s.onFrame port h (.scanSuffix ex fromSlot hole pairs) (fun s => s.onScan h.ctx ex fromSlot h.poison (.suffix pairs))

/-- SCAN_COLUMN. -/
def execScanColumn (port : Nat) (h : PackHdr) (ex : ExHdr) (fromSlot : Nat) (hole : Bool) (pairs : List (F32 × F32)) (s : State) : Outc :=
  s.onFrame port h (.scanColumn ex fromSlot hole pairs) (fun s => s.onScan h.ctx ex fromSlot h.poison (.column pairs))

/-- HALO. -/
def execHaloMsg (port : Nat) (h : PackHdr) (ex : ExHdr) (fromSlot : Nat) (bytes : List Byte) (s : State) : Outc :=
  s.onFrame port h (.halo ex fromSlot bytes) (fun s => s.onScan h.ctx ex fromSlot h.poison (.halo bytes))

/-! ## Replay and horizon check, R345, R346 -/

/-- The replay of a slot can run to its end: its entering states and its predecessor's halos are there, for every layer. -/
def State.replayReady (s : State) (p : PackPass) (q : Nat) : Bool :=
  p.mine.contains q && p.pass1.contains q && p.replays q && !p.replayed.contains q
    && (List.range (s.passLayers p.ctx)).all (fun l => (s.hIn p q l).isSome && (Tab.get none p.halos (slotKey q l)).isSome)

/-- The largest magnitude of a layer's state. -/
def largest (l : List F32) : F32 := l.foldl (fun m x => let a := (fabs x).v; if flt m a then a else m) 0

/-- The check of a layer: no element differs by more than 2^-16 of the largest magnitude of the recorded state. -/
def horizonOk (mark replayed : List F32) : Bool :=
  let bound := (fmul 0x37800000 (largest mark)).v
  (List.zipWith (fun a b => (fabs (fsub a b).v).v) mark replayed).all (fun d => finite32 d && !flt bound d)

/-- Layers whose check fails; a share that ends before token R - 1 left nothing to compare. -/
def State.horizonFails (s : State) (p : PackPass) (q : Nat) (states : List (List F32)) : List Nat :=
  (List.range (s.passLayers p.ctx)).filter (fun l =>
    let m := Tab.get [] p.marks (slotKey q l)
    decide (m ≠ []) && !horizonOk m (states.getD l []))

/-- The records of a slot after its replay: replayed head sections, DEGRADED where one holds a value that is not finite (R154)
and beyond the span where the check failed, POISONED
where poison reached the slot. -/
def ResultRec.afterReplay (r : ResultRec) (heads : Option (List HeadSection)) (degraded poisoned : Bool) : ResultRec :=
  let hs := heads.getD r.heads
  let hs := if poisoned then hs.map (fun h => { h with poisoned := true }) else hs
  { r with heads := hs, qflags := r.qflags ||| headFlags hs ||| qIf degraded qDegraded ||| qIf poisoned qPoisoned }

/-- REPLAY_COMPLETE: the local states corrected with the entering ones (R345 b), the check, the slot's records, and for a share not longer than R its pairs and tails. -/
def execReplayComplete (slot : Nat) (f : ReplayFacts) (s : State) : Outc :=
  match s.pack.passes.find? (fun p => s.replayReady p slot) with
  | none => .next s
  | some p =>
    if s.solo then .next s
    else
      let c := p.ctx
      let pairs := layerPairs f.decays f.finals
      let states := (List.range pairs.length).map (fun l => correctStates (pairs.getD l []) ((s.hIn p slot l).getD []))
      let fails := s.horizonFails p slot states
      let bad := p.bad slot || f.poisoned
      let span := Tab.get 0 p.spans slot
      let short := !decide (s.replaySpan c < Tab.get 0 p.shares slot)
      let mineRs := p.records.filter (fun r => decide (r.1 = slot))
      let others := p.records.filter (fun r => decide (r.1 ≠ slot))
      let fixed := (List.range mineRs.length).filterMap (fun i => (mineRs[i]?).map (fun r =>
        (slot, r.2.afterReplay ((f.heads.find? (fun h => decide (h.1 = i))).map Prod.snd) (!fails.isEmpty && decide (span < r.2.slast)) bad)))
      let s1 := s.updPass c (fun x => { x with
        replayed := x.replayed ++ [slot], records := others ++ fixed, degraded := x.degraded || !fails.isEmpty
        pairs := if short then putLayers [] x.pairs slot pairs else x.pairs
        tails := if short then putLayers none x.tails slot (f.tails.map some) else x.tails
        poisoned := if f.poisoned then x.poisoned ++ [slot] else x.poisoned })
      let s2 := fails.foldl (fun s l => s.trouble 2 14 0 6 c ((be 2 l).map (·.toNat))) s1
      .next (((s2.flushSlot c slot).scanOn c scanRounds).tryDone c)

/-- PASS_DONE. -/
def execPassDone (port : Nat) (h : PackHdr) (pass pos status tokens rseq : Nat) (s : State) : Outc :=
  s.onFrame port h (.passDone pass pos status tokens rseq) (fun s => s.leadDone h.ctx pass pos rseq)

/-! ## A new epoch, R348 -/

/-- The scan and the replays of a pass start again without the old epoch's messages; slots of lost members are holes. -/
def State.restartScan (s : State) (c : Nat) : State :=
  let s1 := s.updPass c (fun p => { p with
    holes := (List.range p.n).filter (fun q => p.holes.contains q || !s.pack.live.testBit (s.slotPos p q))
    prefixes := [], suffixes := [], columns := [], halos := [], outs := [], poisoned := p.poisoned.filter (fun q => decide (q < 65536)) })
  let s2 := match s1.packPass c with
    | some p => (p.mine.filter (fun q => p.slotDone q)).foldl (fun (s : State) (q : Nat) => s.flushSlot c q) s1
    | none => s1
  ((s2.scanOn c scanRounds).tryDone c).tryPassOver c

/-- Every pass goes over into a new epoch. -/
def State.passesNewEpoch (s : State) : State :=
  let s1 := { s with pack := { s.pack with
    sent := s.pack.sent.filter (fun (x : Sent) => decide (5 ≤ x.type))
    parts := s.pack.parts.filter (fun x => decide (x.2.1.cls ≠ 6) || decide (5 ≤ x.2.1.type)) } }
  (s1.pack.passes.map (fun p => p.ctx)).foldl (fun s c => s.restartScan c) s1

/-! ## Starting a pass, R38, R339, R340 -/

/-- SIDX of the newest token that a position holds, as the lead knows it. -/
def State.heldOf (s : State) (p : Nat) : Option Nat :=
  if p = s.optv.ppos then s.newest.map (·.sidx) else match Tab.get 0 s.pack.heldBy p with | 0 => none | n + 1 => some n

/-- Slot 0's position, the number of slots, and whether the filling module serves both ends, for a range: the positions whose
stretches can hold tokens of it, in token order from the one after the filling module. -/
def State.slotPlan (s : State) (first last : Nat) : Nat × Nat × Bool :=
  let size := max 1 s.optv.psize
  let order := (List.range size).map (fun i => (s.pack.fill + 1 + i) % size)
  let holds := fun (i : Nat) =>
    match s.heldOf (order.getD i 0) with
    | none => false
    | some h =>
      let begins := (((List.range i).reverse.filterMap (fun j => s.heldOf (order.getD j 0))).head?).getD 0
      decide (first < h + s.tokenSpan) && (decide (begins ≤ last))
  let is := (List.range size).filter holds
  match is.head?, is.getLast? with
  | some a, some b =>
    let full := order.all (fun p => (s.heldOf p).isSome)
    if full ∧ a = 0 ∧ b = size - 1 then (s.pack.fill, size + 1, true) else (order.getD a 0, b + 1 - a, false)
  | _, _ => (s.pack.fill, 1, false)

/-- The exponents of a context go to every member before the next PASS_START (R142, R352); the model waits for the last snapshot or
the next start of a pass (DESIGN CHOICE, assumption 73). -/
def State.sendScales (s : State) (c : Nat) : State :=
  let s1 := s.applySnaps c
  match s1.member c with
  | some m =>
    if s1.pack.scaleSend.contains c then
      let us := (List.range (s1.units m).length).filterMap (fun n => ((s1.units m)[n]?).map (fun p => s1.unitScale c p.1 n p.2))
      let s2 := { s1 with pack := { s1.pack with scaleSend := s1.pack.scaleSend.filter (· ≠ c) } }
      s2.each (s2.livePos.filter (· ≠ s2.optv.ppos)) (fun s d =>
        let b : PackBody := .scaleSet { epoch := s.pack.epoch, pass := (s.ctx c).passNo } us
        let s1 := s.packSend d c b
        { s1 with pack := { s1.pack with
          sent := (s1.pack.sent.filter (fun (x : Sent) => decide (x.dst ≠ d ∨ x.type ≠ 7 ∨ x.ctx ≠ c))) ++
            [({ dst := d, type := 7, layer := 0, body := b, ctx := c } : Sent)] } })
    else s1
  | none => s1

/-- A pending pass of the pack can start at the lead: as on a module of its own, with the range's end held by some member. -/
def State.packReady (s : State) (c : Nat) : Option PendPass :=
  if s.isLead = false ∨ s.pack.admitted = false ∨ (s.ctx c).live = false ∨ (s.packPass c).isSome ∨ (s.ctx c).inIter = true then none
  else if (match s.img.swap with | some w => decide (5 ≤ w.phase) | none => false) then none
  else match (s.ctx c).pend with
    | some p => if (List.range s.optv.psize).any (fun q => match s.heldOf q with | some h => decide (p.slast < h + s.tokenSpan) | none => false) then some p else none
    | none => none

/-- The lead starts a pass: SCALE_SET, PASS_START, and its own part. -/
def State.packPassStart (s : State) (c : Nat) (p : PendPass) : State :=
  let plan := s.slotPlan p.sfirst p.slast
  let s1 := (s.updCtx c (fun x => { x with pend := none })).sendScales c
  let s2 := s1.flood c (.passStart p.no s1.pack.epoch p.sfirst p.slast plan.1 plan.2.1 plan.2.2)
  s2.beginPackPass { ctx := c, pass := p.no, epoch := s2.pack.epoch, first := p.sfirst, last := p.slast, p0 := plan.1, n := plan.2.1, both := plan.2.2, coord := true }

/-- INSPECT_PASS_START: a pending pass whose range is there starts; in a pack the lead starts it on every member. -/
def execInspectPassStart (ctx : Nat) (s : State) : Outc :=
  if ctx = 0 ∨ s.isReady = false then .next s
  else if s.solo then
    match s.passReady ctx with
    | some p => .next (s.startPass ctx p)
    | none => .next s
  else match s.packReady ctx with
    | some p => .next (s.packPassStart ctx p)
    | none => .next s

/-- SNAPSHOT: the lead combines it with the others of the context's last pass (R142, R143). -/
def execSnapshotMsg (port : Nat) (h : PackHdr) (ex : ExHdr) (units : List UnitStat) (s : State) : Outc :=
  s.onFrame port h (.snapshot ex units) (fun s => if s.isLead then s.noteSnap h.ctx h.src units else s)

/-- SCALE_SET: exponents for the context's next pass; the interval snapshot takes them at once (R135, R142). -/
def execScaleSet (port : Nat) (h : PackHdr) (ex : ExHdr) (units : List UnitScale) (s : State) : Outc :=
  s.onFrame port h (.scaleSet ex units) (fun s =>
    let s1 := { s with pack := { s.pack with scaleDue := Tab.set [] s.pack.scaleDue h.ctx units } }
    match s1.member h.ctx with
    | some m => s1.snapUnits h.ctx m units
    | none => s1)

end Sys2Proof.Machine
end

