-- ==== Sys2Proof/Machine/PackMember.lean ====
section
/-! DEFINITION. Membership of a pack: heartbeats, election, detachment, admission, the roles, tokens that are forwarded,
handover, records of the lead, pack barriers at a new lead, and the swap of a pack (R312 to R316, R323, R332 to R337, R350,
R353 to R355, R364, R415 to R417). -/

namespace Sys2Proof.Machine

open Sys2Proof

/-! ## The membership, R312 -/

/-- A membership as LEAD_HB carries it. -/
structure Membership where
  epoch : Nat
  lead : Nat
  fill : Nat
  source : Nat
  standby : Nat
  live : Nat
  run : Nat
  deriving DecidableEq, Repr

/-- Positions as a set of bits. -/
def bitsOf (l : List Nat) : Nat := l.foldl (fun a p => a ||| 2 ^ p) 0

/-- A quorum: more than half of the configured size, or exactly half with position 0 (R313). -/
def quorumOf (size : Nat) (l : List Nat) : Bool := decide (size < 2 * l.length) || (decide (size = 2 * l.length) && l.contains 0)

/-- Ports that are up, port A in bit 3 (Table 9.7). -/
def State.portBits (s : State) : Nat := ((List.range 4).map (fun p => if (s.pport p).state = 3 then 2 ^ (3 - p) else 0)).sum

/-- This member is the lead of a pack. -/
def State.leads (s : State) : Bool := !s.solo && s.isLead

/-! ## Results between members and lead, R415, R417 -/

/-- A member stops being lead: LEAD_CHANGE to every session with a result subscription, and the end of those (R417). -/
def State.endLead (s : State) (newLead : Nat) : State :=
  s.each s.sids (fun s sid =>
    match s.sess sid with
    | some x => if x.results = [] then s
                else (s.notify sid 0x08C0 0xFFFF .ok 0 [(1, be 1 newLead)]).updSess sid (fun y => { y with results := [] })
    | none => s)

/-- The result of RSEQ is shown issued up to here: one that the lead keeps back is not issued yet. -/
def State.issuedTo (s : State) (pos : Nat) : Nat :=
  (s.pack.passes.filterMap (fun p => p.back.bind (fun b => if b.1 = pos then some (b.2.1 - 1) else none))).foldl min (Tab.get 0 s.pack.rseen pos)

/-- Records that are not shown issued go to the lead (R415). -/
def State.sendKept (s : State) : State :=
  s.pack.kept.foldl (fun s k => s.packSend s.pack.lead k.2.ctx (.result { epoch := s.pack.epoch, pass := k.2.pass } k.1 k.2)) s

/-- RESULT: the lead takes the next record of a member; a copy is dropped, a gap is asked for again (R322, R323). -/
def execResultMsg (port : Nat) (h : PackHdr) (ex : ExHdr) (rseq : Nat) (r : ResultRec) (s : State) : Outc :=
  s.onFrame port h (.result ex rseq r) (fun s =>
    let seen := Tab.get 0 s.pack.rseen h.src
    if s.leads = false ∨ rseq ≤ seen then s
    else if seen + 1 < rseq then s.packSend h.src r.ctx (.resend { epoch := s.pack.epoch, pass := r.pass } 8 (seen + 1) rseq)
    else
      let s1 := { s with pack := { s.pack with rseen := Tab.set 0 s.pack.rseen h.src rseq } }
      ((s1.leadTake h.src rseq r).tryPassOver r.ctx))

/-- RESEND: every named message that this member still holds goes out again, whole; one of an older epoch is ignored. -/
def execResendMsg (port : Nat) (h : PackHdr) (ex : ExHdr) (type first last : Nat) (s : State) : Outc :=
  s.onFrame port h (.resend ex type first last) (fun s =>
    if ex.epoch < s.pack.epoch then s
    else if type = 8 then
      (s.pack.kept.filter (fun k => decide (first ≤ k.1 ∧ k.1 ≤ last))).foldl (fun s k =>
        s.packSend h.src k.2.ctx (.result { epoch := s.pack.epoch, pass := k.2.pass } k.1 k.2)) s
    else
      (s.pack.sent.filter (fun (x : Sent) => decide (x.dst = h.src ∧ x.type = type ∧ (5 ≤ type ∨ (x.ctx = h.ctx ∧ first ≤ x.layer ∧ x.layer ≤ last))))).foldl
        (fun (s : State) (x : Sent) => s.packSend x.dst x.ctx x.body) s)

/-! ## Pack barriers at a new lead, R350 -/

/-- A member's tallies go to a new lead, as many to a frame as its payload holds. -/
def State.sendTallies (s : State) : State :=
  let es := s.pack.tallies.map (fun e => (e.1 / 4096, e.1 % 4096, e.2))
  (List.range ((es.length + 340) / 341)).foldl (fun s i => s.packSend s.pack.lead 0 (.tally s.optv.ppos ((es.drop (341 * i)).take 341))) s

/-- The counter of a pack barrier at a new lead: bound where it is not, at the sum of the live members' tallies; a barrier
whose value is reached is released. -/
def State.tallyCounter (s : State) (ctx id : Nat) : State :=
  let k := 4096 * ctx + id
  let total := Tab.get 0 s.pack.tallies k
    + ((s.livePos.filter (· ≠ s.optv.ppos)).map (fun p => Tab.get 0 s.pack.tallyFrom (2 ^ 18 * p + k))).sum
  let s1 := match s.physOf ctx id with
    | some _ => s
    | none =>
      let d : CtrDecl := ((s.image.map (fun (i : Image) => i.countersOf ctx)).bind (fun l => l.find? (fun d => decide (d.id = id)))).getD { id := id }
      (s.bindCounter ctx d).getD s
  match s1.physOf ctx id with
  | none => s1
  | some p => (s1.updCounter p (fun c => { c with value := total })).releaseBarrier ctx id (Tab.get 0 s1.pack.mirrors k) total

/-- TALLY. -/
def execTallyFrame (port : Nat) (h : PackHdr) (pos : Nat) (entries : List (Nat × Nat × Nat)) (s : State) : Outc :=
  s.onFrame port h (.tally pos entries) (fun s =>
    if s.leads = false then s
    else
      let s1 := { s with pack := { s.pack with
        tallyFrom := entries.foldl (fun t e => Tab.set 0 t (2 ^ 18 * pos + 4096 * e.1 + e.2.1 % 4096) e.2.2) s.pack.tallyFrom } }
      entries.foldl (fun s e => s.tallyCounter e.1 (e.2.1 % 4096)) s1)

/-! ## The filling role, R333 to R337 -/

/-- Bytes into the state regions of a member, in order. -/
def State.putState (s : State) (m : Member) (bytes : List Byte) (poison : Bool) : State :=
  s.updMem (fun mem => (m.state.foldl (fun (a : Memory × List Byte) r =>
    (a.1.store r.space r.at_ (a.2.take r.len) poison, a.2.drop r.len)) (mem, bytes)).1)

/-- The watch context starts here with the state of a HANDOVER message (R335): fresh bindings, the carried state unless the
handover falls on a swap boundary (R337), exponents, rules, coverage, report position, CATCH and CUP. Its next period is the
one that the message names, which starts at sample `sidx`. -/
def State.startWith (s : State) (m : HandoverMsg) (sidx : Nat) : State :=
  match s.member 0 with
  | none => s
  | some d =>
    let r := s.startCtx 0
    if 0x10 ≤ r.1.code then s
    else
      let s1 := if m.carried then r.2.putState d m.state m.poisoned else r.2
      let s2 := if m.carried then s1.setUnits 0 d (unitScalesOf m.scales) else s1
      let first := (sidx - s2.ing.s0.getD sidx) / max 1 s2.tokenSpan
      let s3 := s2.updCtx 0 (fun x => { x with catchUp := m.catchUp, cup := m.cup, poisoned := m.poisoned })
      { s3 with
        io := { s3.io with rules := if m.carried then (List.range m.rules.length).foldl (fun t i => Tab.set {} t i (ruleOf (m.rules.getD i (false, 0, 0)))) []
                                    else s3.io.rules }
        watch := { s3.watch with period := m.period, first := first, riFirst := first, riOff := m.ripos, riCount := 0
                                 cover := if m.carried then m.cover else 0 } }

/-- Where this member is not the source, its stretch begins a run of tokens of its own, which the first token sets. -/
def State.newRun (s : State) : State :=
  if s.pack.source = s.optv.ppos then s else { s with ing := { s.ing with s0 := none, nextToken := 0, run := s.ing.run + 1 } }

/-- A member takes the filling role (R334): it writes from slot 0 in a new index group, unless a handover has moved it there. -/
def State.takeRole (s : State) : State :=
  let placed := match s.pack.handover with | some h => decide (h.to_ = s.optv.ppos) && h.placed | none => false
  let s1 := if placed then s else s.placeRing.newRun
  { s1 with pack := { s1.pack with handover := none } }

/-- F resumes the role that it gave to a member which was lost: with the state that its HANDOVER message holds, on the slack
of its stretch (R336). -/
def State.resumeRole (s : State) : State :=
  match s.pack.sent.find? (fun (x : Sent) => decide (x.type = 5)), s.pack.prepAt with
  | some { body := .handover _ m, .. }, some (_, sidx, _) => s.startWith m sidx
  | _, _ => s

/-- Records without TOKEN_ACK go to the new filling module, or into this member's own stretch, in order (R333). -/
def State.resendTokens (s : State) : State :=
  if s.pack.fill = s.optv.ppos then
    let s1 := s.pack.forwarded.foldl (fun s t =>
      s.takeToken t.1 t.2.1 s.ing.run ((t.1 - s.ing.s0.getD t.1) / max 1 s.tokenSpan) t.2.2) s
    { s1 with pack := { s1.pack with forwarded := [] } }
  else s.pack.forwarded.foldl (fun s t => s.packSend s.pack.fill 0 (.token t.1 t.2.1 t.2.2)) s

/-- A standby that is promoted goes on with the token after the newest one that TOKEN_ACK frames have named (R364). -/
def State.promote (s : State) : State :=
  if s.ingestWanted = false then s
  else
    let acked := Tab.get 0 s.pack.heldBy s.pack.fill
    { s with ing := { s.ing with running := true, s0 := if acked = 0 then none else some (acked - 1 + s.tokenSpan), nextToken := 0, run := s.ing.run + 1 } }

/-- The filling module as this member sees it: a role that it has taken or given stays so until the membership says it. -/
def State.filled (s : State) (m : Membership) : Nat :=
  if s.pack.took = some m.fill then s.optv.ppos
  else match s.pack.gave with
    | some n => if m.fill = s.optv.ppos ∧ m.live.testBit n = true then n else m.fill
    | none => m.fill

/-! ## Adopting a membership -/

/-- A member that is admitted discards its stretch, unless it was the source and detached (R355). -/
def State.joinPack (s : State) : State :=
  if s.pack.detached = true ∧ s.pack.source = s.optv.ppos then s
  else { s.clearIndex with hist := { s.hist with slots := [], write := 0, groups := [], newGroup := true }, pack := { s.pack with passes := [] } }

/-- A member that is not live takes part in nothing but asks to be admitted. -/
def State.adoptOutside (s : State) (m : Membership) : State :=
  let s1 := if s.leads then s.endLead m.lead else s
  { s1 with pack := { s1.pack with
      epoch := m.epoch, lead := m.lead, hasLead := true, electing := false, claim := none, lowestClaim := none
      admitted := false, passes := [] } }

/-- The fields of the membership, and what follows from them alone: advisory outputs of members that are not live are
released (R338), records that are shown issued are no longer kept (R415). -/
def State.setMembership (s : State) (m : Membership) : State :=
  let fill := s.filled m
  let issued := Tab.get 0 s.pack.issued s.optv.ppos
  let gone := fun (e : Nat) => m.live.testBit e
  let s1 : State := { s with
    pack := { s.pack with
      epoch := m.epoch, live := m.live, lead := m.lead, hasLead := true, fill := fill, source := m.source, standby := m.standby, run := m.run
      admitted := true, detached := false, electing := false, claim := none, lowestClaim := none
      took := if s.pack.took = some m.fill then s.pack.took else none
      gave := match s.pack.gave with | some n => if fill = n ∧ m.fill ≠ n then some n else none | none => none
      kept := if m.lead = s.optv.ppos then s.pack.kept else s.pack.kept.filter (fun k => decide (issued < k.1))
      parts := s.pack.parts.filter (fun x => gone x.1)
      heldBy := s.pack.heldBy.filter (fun e => gone e.1), rseen := s.pack.rseen.filter (fun e => gone e.1) }
    io := { s.io with packOutputs := s.io.packOutputs.filter (fun e => gone e.1), packSeq := s.io.packSeq.filter (fun e => gone e.1) } }
  s1.releaseCut

/-- A change of lead, as an old lead, a new lead or another member sees it (R339, R350, R415, R417). -/
def State.leadMoved (s : State) (wasLead : Bool) (m : Membership) : State :=
  let me := s.optv.ppos
  if m.lead = me then
    if wasLead then s
    else
      let s1 := { s with pack := { s.pack with rseen := s.pack.issued, tallyFrom := [] } }
      let s2 := s1.pack.kept.foldl (fun s k => s.leadTake me 0 k.2) s1
      let s3 := { s2 with pack := { s2.pack with kept := [] } }
      let s4 := (s3.pack.tallies.map (fun e => e.1)).foldl (fun s k => s.tallyCounter (k / 4096) (k % 4096)) s3
      (s4.pack.passes.filter (fun p => p.told)).foldl (fun (s : State) p => s.leadDone p.ctx p.pass me 0) s4
  else
    let s1 := if wasLead then s.endLead m.lead else s
    let s2 := (s1.sendTallies).sendKept
    (s2.pack.passes.filter (fun p => p.told)).foldl (fun (s : State) (p : PackPass) =>
      s.packSend s.pack.lead p.ctx (.passDone p.pass me p.status p.tokens s.pack.rseq)) s2

/-- What the RUN byte asks of this member: the filling module runs the watch context, and no member runs an inspect context
of a pack that has none started (R364). -/
def State.followRun (s : State) : State :=
  let me := s.optv.ppos
  let s1 :=
    if s.pack.fill ≠ me then s
    else if s.pack.run % 2 = 1 then
      (match (s.ctx 0).state with | .free | .stopped => (s.startCtx 0).2 | _ => s)
    else if (s.ctx 0).holds = true ∧ (s.ctx 0).stopReq.isNone = true then s.askStop 0 [] else s
  if s1.pack.lead ≠ me ∧ s1.pack.run / 2 % 2 = 0 then
    ((s1.ctxs.filter (fun e => decide (e.1 ≠ 0) && e.2.holds && e.2.stopReq.isNone)).map Prod.fst).foldl (fun s c => s.askStop c []) s1
  else s1

/-- What a change of roles asks of this member. -/
def State.followRoles (s : State) (before : Pack) : State :=
  let me := s.optv.ppos
  let s1 := if s.pack.source = me ∧ before.admitted = true ∧ before.source ≠ me then s.promote else s
  let s2 :=
    if s1.pack.fill = me ∧ before.fill ≠ me then (if before.gave.isSome then s1.resumeRole else s1.takeRole)
    else if s1.pack.fill ≠ me ∧ before.fill = me ∧ (s1.ctx 0).holds = true then s1.endCtx 0
    else s1
  let s3 := if s2.pack.source = me ∧ before.fill ≠ s2.pack.fill then s2.resendTokens else s2
  match s3.pack.handover with
  | some h => if h.to_ = s3.pack.fill ∧ h.to_ ≠ me then { s3 with pack := { s3.pack with handover := none } } else s3
  | none => s3

/-- A member adopts a membership (R312, R313, R348, R354, R355, R364). -/
def State.adopt (s : State) (m : Membership) : State :=
  if m.live.testBit s.optv.ppos = false then s.adoptOutside m
  else
    let before := s.pack
    let was := s.leads
    let s1 := if before.admitted = false ∨ before.detached = true then s.joinPack else s
    let s2 := s1.setMembership m
    let s3 := if before.epoch < m.epoch then s2.passesNewEpoch else s2
    let s4 := if before.lead ≠ m.lead ∨ before.hasLead = false ∨ before.admitted = false then s3.leadMoved was m else s3
    ((s4.followRoles before).followRun).syncIngest

/-! ## The lead, R312, R313, R354, R355 -/

/-- The lead's LEAD_HB. -/
def State.leadHbBody (s : State) : PackBody :=
  .leadHb s.pack.epoch s.optv.ppos (if s.pack.gave.isSome then s.optv.ppos else s.pack.fill) s.pack.source
    (if s.pack.standby = 0xFF then none else some s.pack.standby) s.pack.live ((List.range 64).map (fun p => Tab.get 0 s.pack.linkMap p))
    s.optv.psize s.pack.run ((List.range 64).map (fun p => s.issuedTo p))

/-- The lead floods LEAD_HB with its own port states in the link map. -/
def State.sendLeadHb (s : State) : State :=
  let s1 := { s with pack := { s.pack with linkMap := Tab.set 0 s.pack.linkMap s.optv.ppos s.portBits } }
  s1.flood 0 s1.leadHbBody

/-- A lead that has lost its quorum is lead no more (R313, R417). -/
def State.loseOffice (s : State) : State :=
  let s1 := if s.leads then s.endLead 0xFF else s
  { s1 with pack := { s1.pack with hasLead := false, electing := true, claim := none, lowestClaim := none } }

/-- The next live position after `p` among some. -/
def nextAmong (size p : Nat) (l : List Nat) : Option Nat := ((List.range size).map (fun i => (p + 1 + i) % size)).find? (fun q => l.contains q)

/-- A new epoch at the lead: members that are lost are logged (R354), the filling module and the source stay while they are
live, else the next live position fills and the standby is promoted; the filling role goes to the source when the pack first
forms (R332). `fill` names a filling module where a handover or an admission does. The lead is the lowest live position. -/
def State.newEpoch (s : State) (epoch : Nat) (live : List Nat) (fill : Option Nat) : State :=
  if quorumOf s.optv.psize live = false then s.loseOffice
  else
    let size := max 1 s.optv.psize
    let lost := s.livePos.filter (fun p => !live.contains p)
    let s1 := lost.foldl (fun s p => s.trouble 2 10 0 6 0xFF [p]) s
    let source := if live.contains s1.pack.source then s1.pack.source
      else if s1.pack.standby ≠ 0xFF ∧ live.contains s1.pack.standby = true then s1.pack.standby else s1.pack.source
    let standby := if source = s1.pack.standby then 0xFF else s1.pack.standby
    let old := if s1.pack.live = 0 then source else match fill with | some f => f | none => if s1.pack.gave.isSome then s1.optv.ppos else s1.pack.fill
    let fill_ := if live.contains old then old else (nextAmong size old live).getD old
    let lead := live.foldl min (live.headD 0)
    (s1.adopt { epoch := epoch, lead := lead, fill := fill_, source := source, standby := standby, live := bitsOf live, run := s1.pack.run }).sendLeadHb

/-- LEAD_HB_SEND: every 1 ms. -/
def execLeadHbSend (s : State) : Outc := if s.packUp = true ∧ s.leads = true then .next s.sendLeadHb else .next s

/-- MEMBER_TIMEOUT: a live member has sent no MEMBER_HB for 5 ms. -/
def execMemberTimeout (pos : Nat) (s : State) : Outc :=
  if s.packUp = true ∧ s.leads = true ∧ s.pack.live.testBit pos = true ∧ pos ≠ s.optv.ppos then
    .next (s.newEpoch (s.pack.epoch + 1) (s.livePos.filter (· ≠ pos)) none)
  else .next s

/-- The image that a member's HELLO named, where this member has a link to it; else the lead's own. -/
def State.imageOf (s : State) (pos : Nat) : Nat :=
  match (List.range 4).find? (fun p => decide ((s.pport p).state = 3 ∧ (s.pport p).peer = pos)) with
  | some p => (s.pport p).imageId
  | none => s.imageId

/-- A member that is not live asks to be admitted: the next epoch takes it in, with the filling role where it was the source
and detached; with another image it is refused (R355). -/
def State.admitPos (s : State) (pos flags : Nat) : State :=
  if s.imageOf pos ≠ s.imageId then s.log { code := 0x0007, bunit := 6, detail := [pos] }
  else s.newEpoch (s.pack.epoch + 1) (s.livePos ++ [pos]) (if flags / 8 % 2 = 1 ∧ flags / 2 % 2 = 1 then some pos else none)

/-- The link map nibble of PORTS in a MEMBER_HB: ports that are up. -/
def nibbleOf (ports : List Nat) : Nat := ((List.range 4).map (fun p => if ports.getD p 0 = 3 then 2 ^ (3 - p) else 0)).sum

/-- What the lead takes from a live member's MEMBER_HB: port states, newest token, swap readiness, records that it lacks, and
the filling role where a handover has reached it. -/
def State.heardMember (s : State) (pos flags : Nat) (ports : List Nat) (held : Option Nat) (rsent : Nat) : State :=
  let s1 := { s with pack := { s.pack with
    linkMap := Tab.set 0 s.pack.linkMap pos (nibbleOf ports)
    heldBy := Tab.set 0 s.pack.heldBy pos (match held with | some x => x + 1 | none => 0)
    swapReady := if flags / 16 % 2 = 1 ∧ s.img.swap.isSome = true ∧ s.pack.swapReady.contains pos = false then s.pack.swapReady ++ [pos] else s.pack.swapReady } }
  let seen := Tab.get 0 s1.pack.rseen pos
  let s2 := if seen < rsent then s1.packSend pos 0 (.resend { epoch := s1.pack.epoch } 8 (seen + 1) rsent) else s1
  let prep := match s2.pack.prepAt with | some (_, _, n) => decide (n = pos) | none => false
  let s3 := if flags % 2 = 1 ∧ prep = true ∧ (s2.pack.fill ≠ pos ∨ s2.pack.gave = some pos) then s2.newEpoch (s2.pack.epoch + 1) s2.livePos (some pos) else s2
  s3.trySwapAt

/-- MEMBER_HB: it keeps its member live, asks for admission, or answers a claim. -/
def execMemberHb (port : Nat) (h : PackHdr) (epoch pos flags : Nat) (ports : List Nat) (answer : Nat) (held : Option Nat) (rsent : Nat) (s : State) : Outc :=
  s.onFrame port h (.memberHb epoch pos flags ports answer held rsent) (fun s =>
    let s1 := match s.pack.claim with
      | some (e, l) => if answer = s.optv.ppos ∧ l.contains pos = false then { s with pack := { s.pack with claim := some (e, l ++ [pos]) } } else s
      | none => s
    if s1.leads = false then s1
    else if s1.pack.live.testBit pos then s1.heardMember pos flags ports held rsent
    else if answer = 0xFF then s1.admitPos pos flags else s1)

/-! ## The other members, R312, R313 -/

/-- FLAGS of MEMBER_HB (Table 9.7). -/
def State.hbFlags (s : State) : Nat :=
  let me := s.optv.ppos
  flag (decide (s.pack.fill = me) && s.pack.admitted) + 2 * flag (decide (s.pack.source = me)) + 4 * flag (decide (s.pack.standby = me))
    + 8 * flag s.pack.detached + 16 * flag (match s.img.swap with | some w => decide (5 ≤ w.phase) | none => false)

/-- A member's MEMBER_HB, to the lead or in answer to a claim. -/
def State.sendMemberHb (s : State) (dst answer : Nat) : State :=
  s.packSend dst 0 (.memberHb s.pack.epoch s.optv.ppos s.hbFlags ((List.range 4).map (fun p => (s.pport p).state)) answer (s.newest.map (·.sidx)) s.pack.rseq)

/-- MEMBER_HB_SEND: every 1 ms, a member that knows a lead. -/
def execMemberHbSend (s : State) : Outc :=
  if s.packUp = true ∧ s.pack.hasLead = true ∧ s.pack.lead ≠ s.optv.ppos then .next (s.sendMemberHb s.pack.lead 0xFF) else .next s

/-- LEAD_HB: the member adopts the highest epoch that it receives; link map, RUN and issued records are taken with every
LEAD_HB of the epoch. -/
def execLeadHb (port : Nat) (h : PackHdr) (epoch lead fill source : Nat) (standby : Option Nat) (live : Nat) (linkMap : List Nat) (size run : Nat) (issued : List Nat)
    (s : State) : Outc :=
  s.onFrame port h (.leadHb epoch lead fill source standby live linkMap size run issued) (fun s =>
    if epoch < s.pack.epoch ∨ (epoch = s.pack.epoch ∧ s.leads = true) then s
    else
      let tab := fun (l : List Nat) => (List.range 64).foldl (fun t p => Tab.set 0 t p (l.getD p 0)) []
      let s1 := { s with pack := { s.pack with linkMap := tab linkMap, issued := tab issued } }
      s1.adopt { epoch := epoch, lead := lead, fill := fill, source := source, standby := standby.getD 0xFF, live := live, run := run })

/-- LEAD_LOSS_TIMEOUT: no LEAD_HB for 5 ms; the election delay of p × 100 µs runs. -/
def execLeadLossTimeout (s : State) : Outc :=
  if s.packUp = true ∧ s.leads = false ∧ s.pack.electing = false then
    .next { s with pack := { s.pack with hasLead := false, electing := true, claim := none, lowestClaim := none } }
  else .next s

/-- A claim: LEAD_CLAIM with epoch + 1 floods. -/
def State.claimNow (s : State) : State :=
  let me := s.optv.ppos
  let s1 := { s with pack := { s.pack with claim := some (s.pack.epoch + 1, []), lowestClaim := some me } }
  s1.flood 0 (.leadClaim (s.pack.epoch + 1) me)

/-- No claim of a lower position is known. -/
def State.mayClaim (s : State) : Bool := match s.pack.lowestClaim with | some p => decide (s.optv.ppos ≤ p) | none => true

/-- CLAIM_DELAY_EXPIRE: the election delay has passed without LEAD_HB and without a claim from a lower position. -/
def execClaimDelayExpire (s : State) : Outc :=
  if s.packUp = true ∧ s.pack.electing = true ∧ s.pack.claim = none ∧ s.mayClaim = true then .next s.claimNow else .next s

/-- LEAD_CLAIM: the claim of the lowest position so far is answered; a member's own claim gives way to it. -/
def execLeadClaim (port : Nat) (h : PackHdr) (epoch pos : Nat) (s : State) : Outc :=
  s.onFrame port h (.leadClaim epoch pos) (fun s =>
    let lower := match s.pack.lowestClaim with | some p => decide (pos ≤ p) | none => true
    if lower = false ∨ epoch ≤ s.pack.epoch then s
    else
      let s1 := { s with pack := { s.pack with lowestClaim := some pos, claim := none } }
      s1.sendMemberHb pos pos)

/-- CLAIM_QUORUM_TIMEOUT: 2 ms after its claim the claimer is lead, if the answers and itself form a quorum. -/
def execClaimQuorumTimeout (s : State) : Outc :=
  match s.pack.claim with
  | none => .next s
  | some (e, answers) =>
    let me := s.optv.ppos
    if s.packUp = false then .next s
    else if quorumOf s.optv.psize (me :: answers) = false then .next { s with pack := { s.pack with claim := none } }
    else
      let live := (List.range s.optv.psize).filter (fun p =>
        decide (p = me) || ((answers.contains p || (s.pack.live.testBit p && decide (p ≠ s.pack.lead)))
          && (s.pack.live.testBit p || decide (s.imageOf p = s.imageId))))
      .next (s.newEpoch e live none)

/-- CLAIM_REPEAT: a claim that did not reach quorum is repeated every 10 ms. -/
def execClaimRepeat (s : State) : Outc :=
  if s.packUp = true ∧ s.pack.electing = true ∧ s.pack.claim = none ∧ s.pack.lowestClaim = some s.optv.ppos then .next s.claimNow else .next s

/-! ## Detachment, R314 -/

/-- A detached member leaves the pack's passes and their contexts' running shares. -/
def State.leaveAll (s : State) : State :=
  let s1 := (s.pack.passes.map (fun p => p.ctx)).foldl (fun s c => s.setPass c none) s
  { s1 with pack := { s1.pack with passes := [], claim := none, handover := none, took := none, gave := none } }

/-- A detached source runs the watch context itself, as it is, or started with the state that a module of its own restores
(R314, R510). -/
def State.fillAlone (s : State) : State :=
  let s1 := { s with pack := { s.pack with fill := s.optv.ppos } }
  if s1.pack.run % 2 = 0 ∨ (s1.ctx 0).holds = true then s1
  else
    let r := s1.startCtx 0
    if 0x10 ≤ r.1.code then s1
    else match r.2.restorePoint {} true, r.2.member 0 with
      | some c, some m => if s.pack.admitted then r.2 else r.2.restoreWatch m c
      | _, _ => r.2

/-- What a member that detaches does before it says so: it leaves the passes and knows no live member. -/
def State.cutOff (s : State) : State :=
  let s1 := s.leaveAll
  { s1 with pack := { s1.pack with detached := true, live := 0 } }

/-- A detached member is admitted no more, and takes words again where it is the source. -/
def State.notAdmitted (s : State) : State :=
  State.syncIngest { s with pack := { s.pack with admitted := false } }

/-- A detached source fills its own watch. -/
def State.sourceAlone (s : State) : State := if s.pack.source = s.optv.ppos then s.fillAlone else s

/-- DETACH_TIMEOUT: 20 ms without a lead with quorum. -/
def execDetachTimeout (s : State) : Outc :=
  if s.packUp = true ∧ s.pack.detached = false ∧ (s.pack.hasLead = false ∨ s.pack.admitted = false) then
    .next ((s.cutOff.raise 2 9 6).sourceAlone).notAdmitted
  else .next s

/-! ## Tokens, R333 -/

/-- This member appends a forwarded token: it fills, or the token belongs to the first period that a handover gives it. -/
def State.fillsFor (s : State) (sidx : Nat) : Bool :=
  match s.pack.handover with
  | some h => decide (s.pack.fill = s.optv.ppos) || (decide (h.to_ = s.optv.ppos) && decide (h.sidx ≤ sidx))
  | none => decide (s.pack.fill = s.optv.ppos)

/-- The run of tokens that a forwarded one belongs to: a first one, or one off the grid of the present run, begins a new run. -/
def State.runFor (s : State) (sidx : Nat) : State :=
  match s.ing.s0 with
  | some o => if o ≤ sidx ∧ (sidx - o) % max 1 s.tokenSpan = 0 then s
              else { s with ing := { s.ing with s0 := some sidx, run := s.ing.run + 1 }, hist := { s.hist with newGroup := true } }
  | none => { s with ing := { s.ing with s0 := some sidx } }

/-- TOKEN: the filling module appends the record and acknowledges its newest token to the source and the standby; a record
that it holds already changes nothing. -/
def execTokenFrame (port : Nat) (h : PackHdr) (sidx flagCode : Nat) (bytes : List Byte) (s : State) : Outc :=
  s.onFrame port h (.token sidx flagCode bytes) (fun s =>
    if s.fillsFor sidx = false ∨ s.pack.admitted = false then s
    else
      let fresh := match s.pack.handover with | some x => decide (x.to_ = s.optv.ppos) && !x.placed | none => false
      let s1 := (if fresh then (s.placeFor sidx).newRun else s).runFor sidx
      let old := match s1.newest with | some x => decide (x.run = s1.ing.run) && decide (sidx ≤ x.sidx) | none => false
      let s2 := if old then s1
        else s1.takeToken sidx (flagCode ||| (if h.poison then 2 else 0)) s1.ing.run ((sidx - s1.ing.s0.getD sidx) / max 1 s1.tokenSpan) (bytes.take s1.hist.width)
      match s2.newest with
      | none => s2
      | some x => (([s2.pack.source, s2.pack.standby].dedup).filter (fun d => decide (d ≠ 0xFF ∧ d ≠ s2.optv.ppos))).foldl
          (fun s d => s.packSend d 0 (.tokenAck x.sidx)) s2)

/-- TOKEN_ACK: forwarded records up to the named token are released; the standby knows how far the pack has come. -/
def execTokenAck (port : Nat) (h : PackHdr) (sidx : Nat) (s : State) : Outc :=
  s.onFrame port h (.tokenAck sidx) (fun s =>
    { s with pack := { s.pack with
        forwarded := s.pack.forwarded.filter (fun t => decide (sidx < t.1)), heldBy := Tab.set 0 s.pack.heldBy h.src (sidx + 1) } })

/-! ## Handover, R335, R336 -/

/-- The acknowledgement comes before the source reaches the first token of the period. -/
def State.prepInTime (s : State) (h : HandoverRun) : Bool :=
  if s.pack.source = s.optv.ppos then
    (match s.ing.s0 with | some o => decide (o + s.ing.nextToken * s.tokenSpan ≤ h.sidx) | none => true)
  else (match s.newest with | some x => decide (x.sidx < h.sidx) | none => true)

/-- HANDOVER_PREP: N acknowledges to F and the source; the source forwards to N from the named token on, and F ends the
handover, once the acknowledgement is there in time. -/
def execHandoverPrep (port : Nat) (h : PackHdr) (period sidx fromPos toPos : Nat) (isAck : Bool) (s : State) : Outc :=
  s.onFrame port h (.handoverPrep period sidx fromPos toPos isAck) (fun s =>
    let me := s.optv.ppos
    if isAck then
      match s.pack.handover with
      | some r => if r.period = period ∧ r.to_ = toPos ∧ s.prepInTime r = true then
            ({ s with pack := { s.pack with handover := some { r with acked := true } } }).tryHandover else s
      | none => s
    else
      let run : HandoverRun := { period := period, sidx := sidx, from_ := fromPos, to_ := toPos, acked := decide (toPos = me) }
      let s1 := { s with pack := { s.pack with prepAt := some (period, sidx, toPos)
                                               handover := if toPos = me ∨ s.pack.source = me then some run else s.pack.handover } }
      if toPos = me ∧ s1.pack.admitted = true then
        ([fromPos, s1.pack.source].dedup.filter (· ≠ me)).foldl (fun s d => s.packSend d 0 (.handoverPrep period sidx fromPos toPos true)) s1
      else s1)

/-- HANDOVER: N starts the watch context with the carried state and has the filling role. -/
def execHandoverMsg (port : Nat) (h : PackHdr) (ex : ExHdr) (m : HandoverMsg) (s : State) : Outc :=
  s.onFrame port h (.handover ex m) (fun s =>
    match s.pack.handover with
    | none => s
    | some r =>
      if r.to_ ≠ s.optv.ppos ∨ r.period ≠ m.period ∨ s.pack.admitted = false then s
      else
        let s1 := (if r.placed then s else s.placeRing.newRun).runFor r.sidx
        let s2 := s1.startWith { m with poisoned := m.poisoned || h.poison } r.sidx
        if (s2.ctx 0).holds then
          ({ s2 with pack := { s2.pack with handover := none, fill := s2.optv.ppos, took := some r.from_ } }).syncIngest
        else s2)

/-! ## The swap of a pack, R200, R353 -/

/-- SWAP_READY: the lead counts its member; a member that the lead tells, with the image loaded, swaps too. -/
def execSwapReady (port : Nat) (h : PackHdr) (imageId pos : Nat) (s : State) : Outc :=
  s.onFrame port h (.swapReady imageId pos) (fun s =>
    if s.leads then
      (if (s.swapImage.map (·.imageId)) = some imageId ∧ s.pack.swapReady.contains pos = false then
        { s with pack := { s.pack with swapReady := s.pack.swapReady ++ [pos] } } else s).trySwapAt
    else if s.img.swap.isSome then s
    else match (s.imgSlot s.inactive).image with
      | some i => if i.imageId = imageId ∧ (s.imgSlot s.inactive).state = 2 ∧ s.awayFits i = true then s.beginSwap i none else s
      | none => s)

/-- SWAP_AT: the watch period of the swap. -/
def execSwapAt (port : Nat) (h : PackHdr) (imageId period : Nat) (s : State) : Outc :=
  s.onFrame port h (.swapAt imageId period) (fun s =>
    if (s.swapImage.map (·.imageId)) = some imageId then
      { s with img := { s.img with swap := s.img.swap.map (fun w => { w with atPeriod := some period }) } }
    else s)

/-- SWAP_COMMIT: every member commits on receipt. -/
def execSwapCommit (port : Nat) (h : PackHdr) (imageId period : Nat) (s : State) : Outc :=
  s.onFrame port h (.swapCommit imageId period) (fun s =>
    if (s.swapImage.map (·.imageId)) = some imageId ∧ (match s.img.swap with | some w => decide (5 ≤ w.phase) | none => false) = true then s.swapNow else s)

end Sys2Proof.Machine
end

