-- ==== Sys2Proof/Machine/Kennel.lean ====
section
/-! DEFINITION. Kennel, the monitor on the service line J3 (R556 to R567). -/

namespace Sys2Proof.Machine

open Sys2Proof

/-! ## Field maps, R562: the names of the manual's tables -/

/-- The fields of a word, by name and bits. -/
def fieldsOf (w : Nat) (l : List (String × Nat × Nat)) : List (String × Nat) := l.map (fun e => (e.1, bits w e.2.1 e.2.2))

/-- Table 8.3. -/
def ctxMap : List (String × Nat × Nat) :=
  [("STATE", 63, 61), ("KIND", 60, 60), ("PRIO", 59, 52), ("CATCH", 51, 51), ("CUP", 50, 44), ("AUTORST", 43, 42), ("HELD", 41, 41),
   ("SHEDQ", 40, 40), ("LATE", 31, 0)]

/-- Table 7.2. -/
def threadMap : List (String × Nat × Nat) :=
  [("STATE", 127, 125), ("CTX", 124, 119), ("PC", 118, 108), ("BASE", 107, 97), ("LAST", 96, 86), ("WAITID", 85, 74), ("WSTAT", 73, 72),
   ("CATCH", 71, 71), ("ITER", 63, 32)]

/-- Table 6.4. -/
def ringMap : List (String × Nat × Nat) :=
  [("STATE", 63, 62), ("CTX", 61, 56), ("LEN", 55, 45), ("HEAD", 44, 35), ("ELIG", 34, 24), ("INFLIGHT", 23, 21), ("FENCEWAIT", 20, 20),
   ("ERR", 19, 16)]

/-- Table 5.8. -/
def panelMap : List (String × Nat × Nat) :=
  [("PSTATE", 31, 29), ("PLANE16", 28, 28), ("AWAYWHY", 27, 26), ("REPLACES", 25, 22), ("REPLANNED", 21, 21)]

/-- Table 5.7. -/
def planeMap : List (String × Nat × Nat) :=
  [("STATE", 127, 125), ("LPLANE", 124, 120), ("ERASES", 119, 109), ("TOUCHUPS", 108, 102), ("MEANPULSE", 101, 94), ("TPROG", 93, 86),
   ("DRIFT", 85, 70), ("TE", 69, 40), ("SWEEPH", 39, 24), ("FAILS", 23, 20), ("SWEEPRES", 19, 18)]

/-- Table 7.20. -/
def counterMap : List (String × Nat × Nat) :=
  [("VALUE", 255, 192), ("WAITERS", 191, 176), ("W0", 175, 160), ("W1", 159, 144), ("W2", 143, 128), ("W3", 127, 112),
   ("LASTSIG", 111, 96), ("LASTDELTA", 95, 64), ("OWNER", 63, 58), ("LOCALID", 57, 46), ("BOUND", 45, 45), ("EXPORTED", 44, 44),
   ("SAT", 43, 43), ("ORPHANED", 42, 42), ("OVERTAKEN", 41, 41), ("MISUSE", 40, 40), ("THRESH", 39, 32), ("PHYS", 31, 18)]

/-- Table 9.1. -/
def packMap : List (String × Nat × Nat) :=
  [("LIVE", 127, 64), ("EPOCH", 63, 32), ("POS", 31, 26), ("SIZE", 25, 19), ("LEAD", 18, 13), ("FILL", 12, 7), ("SOURCE", 6, 1),
   ("DETACHED", 0, 0)]

/-- Table 9.3. -/
def portMap : List (String × Nat × Nat) :=
  [("STATE", 31, 29), ("PEER", 28, 23), ("PEERPORT", 22, 21), ("DOWNS", 20, 13), ("REPLAYS", 12, 0)]

/-- Table 10.7. -/
def streamMap : List (String × Nat × Nat) :=
  [("MODE", 63, 61), ("KIND", 60, 60), ("PORT", 59, 58), ("INPUT", 57, 52), ("REF", 51, 51), ("DISC", 40, 40), ("GAP", 39, 39),
   ("LATE", 38, 38), ("DUP", 37, 37), ("RATE", 36, 36), ("OVF", 35, 35), ("FRAME", 34, 34), ("QUAL", 33, 33), ("SILENT", 32, 32),
   ("UNREAD", 31, 0)]

/-- Table 10.8. -/
def Slot.counterLine (x : Slot) : List (String × Nat) :=
  [("HIGHIDX", x.highIdx), ("FRAMES", x.frames), ("BADFRAMES", x.badFrames), ("REORDER", x.reorder), ("LATESMP", x.lateSmp),
   ("DUPSMP", x.dupSmp), ("FILLED", x.filled), ("OVFSMP", x.ovfSmp), ("CLAMP", x.clamp), ("RATEPPM", unsigned 32 x.ratePpm)]

/-- Table 12.8. -/
def LogRec.line (r : LogRec) : List (String × Nat) :=
  let b := r.bytes
  let at_ := fun o n => ofBytes ((b.drop o).take n)
  [("LSEQ", at_ 0 8), ("COMMIT", at_ 8 8), ("TICK", at_ 16 8), ("SIDX", at_ 24 8), ("POC", at_ 32 4), ("LOC", at_ 36 4), ("BUNIT", at_ 40 1),
   ("CTX", at_ 41 1), ("CODE", at_ 42 2), ("TBIT", at_ 44 1), ("FLAGS", at_ 45 1), ("REPEAT", at_ 46 2), ("DETAIL", at_ 48 12),
   ("CRC", at_ 60 4)]

/-! ## One line in, one answer out: R556 to R564 -/

/-- What a command needs of Kennel (R557). -/
inductive KNeed where
  | any       -- help, info
  | closed    -- unlock: Kennel is Locked
  | opened    -- not Locked
  | service   -- service mode
  deriving DecidableEq, Repr

/-- What a command answers: its status, its lines, and the state where it changes one. -/
structure KOut where
  st : Status := .ok
  lines : List (List (String × Nat)) := []
  next : Option State := none
  deriving DecidableEq, Repr

/-- Kennel answers: SVCEN is 1 and firmware runs (R556). -/
def State.kennelUp (s : State) : Bool := decide (s.opt.shadow.svcEn = 1) && s.portsUp

/-- The boot code serves the boot subset (R495, R567). -/
def State.kennelBoot (s : State) : Bool := decide (s.opt.shadow.svcEn = 1) && decide (s.life.phase = .bootHeld ∧ s.life.cause = .noBank)

/-- The state of Kennel permits it. -/
def Kennel.permits (k : Kennel) : KNeed → Bool
  | .any => true
  | .closed => decide (k.state = .locked)
  | .opened => decide (k.state ≠ .locked)
  | .service => decide (k.state = .service)

/-- Characters held are read with the line. -/
def State.takeHeld (s : State) : State := { s with kennel := { s.kennel with held := 0 } }

/-- Why a command of Table 11.8 that Kennel shares is refused as a session's would be: boot (R487), lead (R416). -/
def State.kennelBars (s : State) (op : Nat) : Option Status :=
  if s.isReady = false ∧ isRead op = false ∧ op / 256 ≠ 0x0C then some .busy
  else match cmdRow op with
    | some row => if row.lead = true ∧ s.isLead = false then some .notPermitted else none
    | none => none

/-- A record of Kennel's own, in the present commit, under the rate limit (R460, R563). -/
def State.kennelRec (s : State) (k : Nat) : State :=
  let e : LogEv := { code := Config.bootCode k, bunit := 1 }
  if Tab.get 0 s.logs.written e.key < 16 then
    let s1 := s.putLog (s.mkLog e none)
    { s1 with logs := { s1.logs with written := Tab.upd 0 s1.logs.written e.key (· + 1) } }
  else { s with logs := { s.logs with suppressed := Tab.upd 0 s.logs.suppressed e.key (· + 1) } }

/-- A command that changes state is one commit with its record (R563). -/
def State.kennelCommit (s : State) (k : Nat) : State := s.commit.kennelRec k

/-- Run a command and answer it. A refused command changes nothing but what the refusal itself records. -/
def State.kennelRun (s : State) (wr : Option Nat) (f : State → KOut) : State :=
  let r := f (match wr with | some k => s.kennelCommit k | none => s)
  if r.st.code < 0x10 then
    (match r.next with
     | some t => t.kennelSay (if wr.isSome then s.life.commit + 1 else s.life.commit) r.lines r.st
     | none => s.kennelSay s.life.commit r.lines r.st)
  else
    let q := f s
    (q.next.getD s).kennelSay s.life.commit q.lines q.st

/-- A line with a command of Tables 17.1 and 17.2. A line ends Rest, as a packet does. -/
def State.kennelCmd (s0 : State) (need : KNeed) (op : Nat) (wr : Option Nat) (f : State → KOut) : Outc :=
  if s0.kennelUp then
    let s := s0.wake.takeHeld
    if s.kennel.permits need = false then .next (s.kennelSay s.life.commit [] .notPermitted)
    else match s.kennelBars op with
      | some st => .next (s.kennelSay s.life.commit [] st)
      | none => .next (s.kennelRun wr f)
  else if s0.kennelBoot then .next (s0.takeHeld.kennelSay s0.life.commit [] .notPermitted)
  else .next s0

/-- A line with a command of both subsets. -/
def State.kennelBoth (s0 : State) (need : KNeed) (wr : Option Nat) (f : State → KOut) : Outc :=
  if s0.kennelUp = true ∨ s0.kennelBoot = true then
    let s := s0.wake.takeHeld
    if s.kennel.permits need = false then .next (s.kennelSay s.life.commit [] .notPermitted) else .next (s.kennelRun wr f)
  else .next s0

/-- A line with a command of the boot subset alone; with firmware running it is no command (R564, R567). -/
def State.kennelBootCmd (s0 : State) (need : KNeed) (f : State → State) : Outc :=
  if s0.kennelBoot then
    let s := s0.takeHeld
    if s.kennel.permits need = false then .next (s.kennelSay s.life.commit [] .notPermitted) else .next (f s)
  else if s0.kennelUp then .next (s0.wake.takeHeld.kennelSay s0.life.commit [] .badOpcode)
  else .next s0

/-- A bad argument. -/
def KOut.bad : KOut := { st := .badParam }

/-! ## Locked, unlocked, service mode: R557 to R559 -/

/-- The names of the commands that the present state permits. -/
def State.kennelNames (s : State) : List String :=
  if s.kennelBoot then
    ["help", "info", "unlock", "lock", "bootlog", "restart cold"] ++ (if s.kennel.state = .locked then [] else ["fwload", "bootbank", "bootfall"])
  else match s.kennel.state with
    | .locked => ["help", "info", "unlock"]
    | k => ["help", "info", "lock", "status", "log", "ctx", "waits", "ctr", "ctrp", "thread", "ring", "planes", "wear", "pack", "store",
        "stream", "upkeep", "raw", "ctx start", "ctx stop", "ctx reset", "service on"]
      ++ (if k = .service then ["service off", "anchor list", "anchor add", "anchor remove", "pack set", "port set", "option set",
            "trouble clear", "retire", "restart warm", "restart cold", "lock set"] else [])

/-- `help`. -/
def execKennelHelp (s : State) : Outc :=
  s.kennelBoth .any none (fun s => { lines := [s.kennelNames.map (fun n => (n, 0))] })

/-- `info`: MODULE_INFO with LOCK and SVCEN. -/
def execKennelInfo (s : State) : Outc :=
  s.kennelBoth .any none (fun s => { lines :=
    [[("ORDER", ofBytes (textOf s.optv.order)), ("SERIAL", ofBytes (textOf s.optv.serial)), ("LEVEL", s.optv.level), ("FWVER", s.life.fwver),
      ("BANK", s.life.bank), ("POC", s.life.poc), ("MAC", s.optv.mac), ("IMAGEID", s.imageId), ("LOCK", s.opt.shadow.lock),
      ("SVCEN", s.opt.shadow.svcEn)]] })

/-- Kennel unlocks. -/
def State.unlockKennel (s : State) : State :=
  ({ s with kennel := { s.kennel with state := .unlocked, challenge := none, fails := 0 }, life := { s.life with unlockedOnce := true } }).log
    { code := Config.bootCode 3, bunit := 1 }

/-- `unlock`: at once while LOCK is 0; else a challenge with a fresh nonce, which takes the place of an older one. -/
def execKennelUnlock (s0 : State) : Outc :=
  if s0.kennelUp = true ∨ s0.kennelBoot = true then
    let s := s0.wake.takeHeld
    if s.kennel.state ≠ .locked ∨ s.kennel.lockout = true then .next (s.kennelSay s.life.commit [] .notPermitted)
    else if s.opt.shadow.lock = 0 then
      (let t := s.unlockKennel
       .next (t.kennelSay t.life.commit [] .ok))
    else
      let n := Config.random s.draws % 2 ^ 256
      .next (({ s with draws := s.draws + 1, kennel := { s.kennel with challenge := some (n, true), lost := false } }).emit
        (.challenge n s.kennel.lost))
  else .next s0

/-- A failed response: the third one locks `unlock` out. -/
def State.kennelFails (s : State) : State :=
  let s1 := ({ s with kennel := { s.kennel with challenge := none, fails := s.kennel.fails + 1 } }).log { code := Config.bootCode 4, bunit := 1 }
  if 3 ≤ s1.kennel.fails then
    ({ s1 with kennel := { s1.kennel with fails := 0, lockout := true } }).log { code := Config.bootCode 5, bunit := 1 }
  else s1

/-- The chain and the signature arrive for the challenge that is out; the crypto unit has checked both. -/
def execKennelChallengeResponse (chain : Chain) (sigOk : Bool) (s0 : State) : Outc :=
  if s0.kennelUp = true ∨ s0.kennelBoot = true then
    match s0.kennel.challenge with
    | none => .next s0
    | some (_, fresh) =>
      let s := s0.wake.takeHeld
      let good := match s.acceptsChain chain with | some a => fresh && sigOk && decide (a.role = 3) | none => false
      let t := if good then s.unlockKennel else s.kennelFails
      .next (t.kennelSay t.life.commit [] (if good then .ok else .notPermitted))
  else .next s0

/-- KENNEL_CHALLENGE_EXPIRE: 5 min after the challenge. -/
def execKennelChallengeExpire (s : State) : Outc :=
  match s.kennel.challenge with
  | some (n, true) => .next { s with kennel := { s.kennel with challenge := some (n, false) } }
  | _ => .next s

/-- KENNEL_LOCKOUT_EXPIRE: 10 min after the lockout. -/
def execKennelLockoutExpire (s : State) : Outc := .next { s with kennel := { s.kennel with lockout := false } }

/-- `lock`. -/
def execKennelLock (s : State) : Outc :=
  s.kennelBoth (if s.kennelBoot then .any else .opened) none (fun s => { next := some s.lockKennel })

/-- KENNEL_IDLE_TIMEOUT: 10 min without an input line. -/
def execKennelIdleTimeout (s : State) : Outc :=
  if s.kennelUp = true ∨ s.kennelBoot = true then .next s.lockKennel else .next s

/-- `service on`. -/
def execKennelServiceOn (s0 : State) : Outc :=
  if s0.kennelUp then
    s0.kennelBoth .opened none (fun s => { next := some { s with kennel := { s.kennel with state := .service } } })
  else s0.kennelCmd .opened 0x0101 none (fun _ => {})

/-- `service off`. -/
def execKennelServiceOff (s0 : State) : Outc :=
  if s0.kennelUp then
    s0.kennelBoth .service none (fun s => { next := some { s with kennel := { s.kennel with state := .unlocked } } })
  else s0.kennelCmd .service 0x0101 none (fun _ => {})

/-! ## Reads, Table 17.1 -/

/-- A read of an unlocked Kennel. -/
def State.kennelRead (s : State) (f : State → KOut) : Outc := s.kennelCmd .opened 0x0102 none f

/-- `status`. -/
def execKennelStatus (s : State) : Outc :=
  s.kennelRead (fun s => { lines :=
    [[("WORD0", s.logs.word0.toNat), ("WORD1", s.logs.word1.toNat), ("WORD2", s.logs.word2.toNat), ("FEED", s.feedNo),
      ("INFORCE", s.inForce / 10), ("DRAW", s.supply.draw), ("TMAX", unsigned 16 s.tmax)],
     fieldsOf (healthByte s.hsense s.healthy s.io.inputs) [("HSENSE", 5, 5), ("HEALTHY", 4, 4), ("INPUTS", 3, 0)]] })

/-- `log`: the newest 16 records, or records from an LSEQ on. -/
def execKennelLog (first count : Option Nat) (s : State) : Outc :=
  s.kennelRead (fun s =>
    let n := count.getD 16
    if 256 < n then .bad
    else match first with
      | some l => { lines := (s.logs.readFrom l n).map LogRec.line }
      | none => { lines := (s.logs.all.drop (s.logs.all.length - n)).map LogRec.line })

/-- A context's line. -/
def State.ctxLine (s : State) (n : Nat) : List (String × Nat) := ("NO", n) :: fieldsOf ((s.ctx n).word n s.life.now) ctxMap

/-- `ctx`. -/
def execKennelCtx (n : Option Nat) (s : State) : Outc :=
  s.kennelRead (fun s => match n with
    | none => { lines := (List.range 64).map s.ctxLine }
    | some c => if 63 < c then .bad else { lines := [s.ctxLine c] })

/-- What a sleeping thread waits on. -/
def State.waitLine (s : State) (t : Nat) : List (String × Nat) :=
  let x := s.thread t
  [("THREAD", t), ("WAITID", x.waitId), ("EXPECT", unsigned 64 x.expect)] ++
    (match s.physOf x.ctx x.waitId with | some p => fieldsOf (s.inspect p) counterMap | none => [])

/-- `waits`. -/
def execKennelWaits (n : Nat) (s : State) : Outc :=
  s.kennelRead (fun s => if 63 < n then .bad
    else { lines := ((s.threadsOf n).filter (fun t => decide ((s.thread t).state = .sleeping))).map s.waitLine })

/-- `ctr`: an id that the context does not have bound is a bad argument. -/
def execKennelCtr (n id : Nat) (s : State) : Outc :=
  s.kennelRead (fun s => if 63 < n ∨ 4095 < id then .bad
    else match s.physOf n id with
      | some p => { lines := [fieldsOf (s.inspect p) counterMap] }
      | none => .bad)

/-- `ctrp`. -/
def execKennelCtrp (phys : Nat) (s : State) : Outc :=
  s.kennelRead (fun s => if 16383 < phys then .bad else { lines := [fieldsOf (s.inspect phys) counterMap] })

/-- `thread`: the 16 threads of a core. -/
def execKennelThread (loc : BitVec 32) (s : State) : Outc :=
  s.kennelRead (fun s => if locOk loc.toNat 4 = false then .bad
    else { lines := (List.range 16).map (fun i =>
      let t := 16 * locToCore loc.toNat + i
      ("THREAD", t) :: fieldsOf (s.threadWord t) threadMap) })

/-- `ring`: the 64 rings of a cluster. -/
def execKennelRing (loc : BitVec 32) (s : State) : Outc :=
  s.kennelRead (fun s => if locOk loc.toNat 2 = false then .bad
    else { lines := (List.range 64).map (fun i =>
      let r := 64 * locToCluster loc.toNat + i
      ("RING", r) :: fieldsOf (s.ring r).word ringMap) })

/-- `planes`: the panel word and the 17 plane entries. -/
def execKennelPlanes (loc : BitVec 32) (s : State) : Outc :=
  s.kennelRead (fun s => if locOk loc.toNat 5 = false then .bad
    else
      let e := locToEngine loc.toNat
      { lines := fieldsOf (s.panel e).word panelMap :: (List.range 17).map (fun k =>
          ("PLANE", k) :: fieldsOf (s.planeWord (17 * e + k)) planeMap) })

/-- One core's wear: its location word (R63), planes in use, planes above the WEAR threshold, the largest MEANPULSE, spare planes used, the spare engine
used, the retired panels. -/
def State.wearLine (s : State) (c : Nat) : List (String × Nat) :=
  let es := (List.range 9).map (fun i => 9 * c + i)
  let ps := es.flatMap (fun e => (List.range 17).map (fun k => s.plane (17 * e + k)))
  [("CORE", locCore c), ("INUSE", (ps.filter (fun p => decide (p.state = 1))).length), ("WORN", (ps.filter (fun p => decide (112 < p.meanPulse))).length),
   ("MEANPULSE", (ps.map (fun p => p.meanPulse)).foldl max 0), ("SPAREPLANES", (es.filter (fun e => (s.panel e).plane16)).length),
   ("SPAREENGINE", flag (s.core c).spareFor.isSome)]
    ++ (es.filter (fun e => decide ((s.panel e).pstate = 3))).map (fun e => ("RETIRED", locEngine e))

/-- `wear`. -/
def execKennelWear (stack : Option Nat) (s : State) : Outc :=
  s.kennelRead (fun s => match stack with
    | none => { lines := (List.range 256).map s.wearLine }
    | some k => if 3 < k then .bad else { lines := (List.range 64).map (fun i => s.wearLine (64 * k + i)) })

/-- The lines of `pack`: the pack state word, the ports, the link map of the present epoch. -/
def State.packLines (s : State) : List (List (String × Nat)) :=
  [fieldsOf s.packWord packMap] ++ (List.range 4).map (fun k => ("PORT", k) :: fieldsOf (s.pport k).word portMap)
    ++ s.pack.linkMap.map (fun (e : Nat × Nat) => [("POS", e.1), ("LINKS", e.2)])

/-- `pack`. -/
def execKennelPack (s : State) : Outc := s.kennelRead (fun s => { lines := s.packLines })

/-- The store areas of Table 13.3 by their logical blocks. -/
def storeAreas : List (Nat × Nat) :=
  [(0, 63), (64, 127), (128, 143), (144, 207), (208, 231), (232, 239), (240, 1775), (1776, 8879), (8880, 15983), (15984, 15990)]

/-- The erase counts of an area: least, mean, largest. -/
def State.areaLine (s : State) (k : Nat) (a : Nat × Nat) : List (String × Nat) :=
  let n := a.2 + 1 - a.1
  let cs := (List.range n).map (fun i => s.store.eraseCount 0 (s.store.mainOf (a.1 + i)))
  [("AREA", k), ("LEAST", match cs with | [] => 0 | c :: r => r.foldl min c), ("MEAN", cs.sum / n), ("LARGEST", cs.foldl max 0)]

/-- The lines of `store`: erase counts by area, the mean over the main blocks and its rating, spares by plane, refreshes, hours
since the last full read (R482). -/
def State.storeLines (s : State) : List (List (String × Nat)) :=
  (List.range 10).map (fun k => s.areaLine k (storeAreas.getD k (0, 0)))
    ++ [[("MEAN", ((List.range 15991).map (fun l => s.store.eraseCount 0 (s.store.mainOf l))).sum / 15991), ("RATING", 3000)]]
    ++ (List.range 8).map (fun p => [("PLANE", p), ("SPARES", (s.store.spares p).length)])
    ++ [[("REFRESHES", s.store.refreshes), ("HOURS", (s.life.now - s.store.lastFull) / 3600000000)]]

/-- `store`. -/
def execKennelStore (s : State) : Outc := s.kennelRead (fun s => { lines := s.storeLines })

/-- `stream`. -/
def execKennelStream (slot : Nat) (s : State) : Outc :=
  s.kennelRead (fun s => if 31 < slot then .bad
    else { lines := [fieldsOf (s.slotWord slot) streamMap, (s.slot slot).counterLine] })

/-- The lines of `upkeep`: the pending work of each priority, the newest journal record. -/
def State.upkeepLines (s : State) : List (List (String × Nat)) :=
  (List.range 7).map (fun k => [("PRIO", k + 1), ("ITEMS", (s.upk.queue.filter (fun w => decide (w.prio = k + 1))).length)])
    ++ [[("SEQ", s.newestSeq)]]

/-- `upkeep`. -/
def execKennelUpkeep (s : State) : Outc := s.kennelRead (fun s => { lines := s.upkeepLines })

/-- The bytes of a status block by its place in Table 17.3. -/
def State.rawBlock (s : State) (block arg : Nat) : Option (List Byte) :=
  match block with
  | 0 => some s.logs.bytes
  | 1 => if 63 < arg then none else some (be 8 ((s.ctx arg).word arg s.life.now))
  | 2 => if 4095 < arg then none else some (be 16 (s.threadWord arg))
  | 3 => if 2047 < arg then none else some (be 8 (s.ring arg).word)
  | 4 => if 16383 < arg then none else some (be 32 (s.inspect arg))
  | 5 => if locOk arg 6 then some (be 16 (s.planeWord (17 * locToEngine arg + locToPlane arg))) else none
  | 6 => if locOk arg 5 then some (be 4 (s.panel (locToEngine arg)).word) else none
  | 7 => if locOk arg 6 = true ∧ locToPlane arg < 16 then
      some (be 4 (settingWord (s.blockAt (locToEngine arg) (locToPlane arg)).file (s.condOf (locToEngine arg) (locToPlane arg))))
    else none
  | 8 => some (be 16 s.packWord)
  | 9 => if 3 < arg then none else some (be 4 (s.pport arg).word)
  | 10 => if 31 < arg then none else some (be 8 (s.slotWord arg))
  | 11 => some s.opt.shadow.bytes
  | _ => none

/-- Lines of 32 hex digits: 16 bytes each. -/
def hexLines : Nat → List Byte → List (List (String × Nat))
  | 0, _ => []
  | n + 1, bs => if bs = [] then [] else [("", ofBytes (bs.take 16))] :: hexLines n (bs.drop 16)

/-- `raw`. -/
def execKennelRaw (block arg : Nat) (s : State) : Outc :=
  s.kennelRead (fun s => match s.rawBlock block arg with
    | some bs => { lines := hexLines 1024 bs }
    | none => .bad)

/-! ## Contexts, R563 -/

/-- A change by Kennel with what a session's command says of it. -/
def KOut.of (r : Status × State) : KOut := if r.1.code < 0x10 then { st := r.1, next := some r.2 } else { st := r.1 }

/-- `ctx start`. -/
def execKennelCtxStart (n : Nat) (s : State) : Outc :=
  s.kennelCmd .opened 0x0401 (some 6) (fun s => if 63 < n then .bad
    else
      let r := s.startCmd n
      .of (r.1, r.2.configChanged))

/-- `ctx stop`; a stop that waits for its boundary answers ACCEPTED. -/
def execKennelCtxStop (n : Nat) (s : State) : Outc :=
  s.kennelCmd .opened 0x0402 (some 6) (fun s =>
    if 63 < n then .bad
    else if s.watchElsewhere n then
      (if s.watchNoted then { st := .accepted, next := some ((s.noteRun false).syncIngest.configChanged) } else {})
    else match (s.ctx n).state with
      | .free | .stopped => {}
      | _ =>
        let s1 := s.askStop n []
        let s2 := if s1.solo then s1 else (s1.noteRun (s1.watchNoted && decide (n ≠ 0))).syncIngest
        { st := .accepted, next := some s2.configChanged })

/-- `ctx reset`. -/
def execKennelCtxReset (n : Nat) (s : State) : Outc :=
  s.kennelCmd .opened 0x0403 (some 6) (fun s =>
    if 63 < n then .bad
    else if s.watchElsewhere n then
      (if s.watchNoted then { next := some (s.noteRun false).syncIngest.configChanged } else {})
    else match (s.ctx n).state with
      | .free | .stopped => {}
      | _ =>
        let s1 := s.resetCtx n
        let s2 := if s1.solo then s1 else (s1.noteRun (s1.watchNoted && decide (n ≠ 0))).syncIngest
        { next := some s2.configChanged })

/-! ## Service mode, Table 17.2 -/

/-- A change in service mode. -/
def State.kennelSet (s : State) (op : Nat) (f : State → KOut) : Outc := s.kennelCmd .service op (some 6) f

/-- `anchor list`. -/
def execKennelAnchorList (s : State) : Outc :=
  s.kennelCmd .service 0x0B03 none (fun s => { lines := s.trust.anchors.map (fun a =>
    [("INDEX", a.index), ("KIND", a.kind), ("ROLE", a.role), ("DIGEST", Config.sha3 a.cert)]) })

/-- `anchor add`: the new index. -/
def execKennelAnchorAdd (kind : Nat) (role : Option Nat) (cert : List Byte) (s : State) : Outc :=
  s.kennelSet 0x0B04 (fun s => match s.anchorAdd kind role cert with
    | .ok (n, t) => { lines := [[("INDEX", n)]], next := some t }
    | .error st => { st := st })

/-- `anchor remove` (R560). -/
def execKennelAnchorRemove (index : Nat) (s : State) : Outc :=
  s.kennelSet 0x0B05 (fun s => match s.anchorRemove index with
    | .ok t => { next := some t }
    | .error st => { st := st })

/-- `pack set`: in force from the next restart. -/
def execKennelPackSet (packId size pos source : Nat) (standby : Option Nat) (s : State) : Outc :=
  s.kennelSet 0x0801 (fun s => match packBad size pos source standby with
    | some _ => .bad
    | none => if 2 ^ 64 ≤ packId then .bad
      else { next := some (s.writeOption (fun o =>
        { o with packId := packId, psize := size, ppos := pos, psource := source, pstandby := standby.getD 0xFF })) })

/-- `port set`: the parameters of PORT_SET with their widths and ranges. -/
def execKennelPortSet (port : Nat) (args : List Tlv) (s : State) : Outc :=
  s.kennelSet 0x0304 (fun s =>
    let ps := ((cmdRow 0x0304).map (fun r => r.params)).getD []
    let formed := args.all (fun t => decide (2 ≤ t.1) && (match ps[t.1 - 1]? with
      | some q => (match q.len with | some n => decide (t.2.length = n) | none => true)
      | none => false))
    if 5 < port ∨ formed = false ∨ args.any (fun t => !portFieldOk port t.1 t.2) = true then .bad
    else { next := some (s.setPort port args) })

/-- `option set`. -/
def execKennelOptionSet (off : Nat) (value : List Byte) (s : State) : Outc :=
  s.kennelSet 0x0C06 (fun s => match optField s.opt.shadow off value with
    | .ok o => { next := some (s.writeOption (fun _ => o)) }
    | .error st => { st := st })

/-- `trouble clear`. -/
def execKennelTroubleClear (word : Nat) (mask : BitVec 32) (s : State) : Outc :=
  s.kennelSet 0x0902 (fun s => if 2 < word ∨ mask.toNat &&& troubleBits word ≠ mask.toNat then .bad
    else { next := some (s.clearTrouble word mask.toNat) })

/-- `retire`. -/
def execKennelRetire (kind addr : Nat) (s : State) : Outc :=
  s.kennelSet 0x0A05 (fun s => match s.retireCmd kind addr with
    | .ok t => { next := some t }
    | .error (.badParam, _) => .bad
    | .error (st, t) => { st := st, next := some t })

/-- `restart`: kind 0 warm, 1 cold; the answer goes before the restart. The boot code knows `restart cold` alone, in every state
of Kennel, and has no checkpoint to write. -/
def execKennelRestart (kind : Nat) (s : State) : Outc :=
  if s.kennelBoot then
    (if kind = 1 then
      (let t := s.takeHeld.kennelCommit 6
       let u := t.kennelSay t.life.commit [] .ok
       .next { u with life := { u.life with phase := .halted, due := some .cold } })
     else .next (s.takeHeld.kennelSay s.life.commit [] .notPermitted))
  else s.kennelSet 0x0C04 (fun s => if 1 < kind then .bad
    else { next := some (s.askRestart (if kind = 0 then .warm else .cold)) })

/-- `lock set`: LOCK to 1 once `yes` is typed (R504); any other word is a bad argument. -/
def execKennelLockSet (confirmed : Bool) (s : State) : Outc :=
  s.kennelSet 0x0C06 (fun s => if confirmed then { next := some (s.writeOption (fun o => { o with lock := 1 })) } else .bad)

/-! ## The boot subset, R567 -/

/-- `bootlog`: the records in the log staging area. -/
def execKennelBootlog (s : State) : Outc :=
  s.kennelBootCmd .any (fun s => s.kennelSay s.life.commit (s.logs.staged.map LogRec.line) .ok)

/-- The container that the bytes received by XMODEM hold; no command names a digest of it (R493, R567). -/
def FwReceived.container (x : FwReceived) : Firmware :=
  readFirmware (putBytes [] 0 x.bytes) x.bytes.length (Config.sha3 x.bytes) x.fw

/-- `fwload`: the container received stands in the named bank, is checked as R493 states, and the check answers. -/
def execKennelFwload (bank : Nat) (received : FwReceived) (s : State) : Outc :=
  s.kennelBootCmd .opened (fun s =>
    if 1 < bank then s.kennelSay s.life.commit [] .badParam
    else
      let fw := received.container
      let st := fw.verdict s.optv.level s.opt.shadow.fwCtr
      let t := s.kennelCommit 6
      let u := if st = .ok then t.setBank bank 1 fw else t.setBank bank 0 {}
      u.kennelSay u.life.commit [] st)

/-- A write of an option field by the boot code, answered once it is stored. -/
def State.bootOption (s : State) (f : OptCopy → OptCopy) : State :=
  let t := (s.kennelCommit 6).writeOption f
  { t with kennel := { t.kennel with owes := true } }

/-- `bootbank`. -/
def execKennelBootbank (bank : Nat) (s : State) : Outc :=
  s.kennelBootCmd .opened (fun s =>
    if 1 < bank then s.kennelSay s.life.commit [] .badParam else s.bootOption (fun o => { o with bootBank := bank }))

/-- `bootfall`. -/
def execKennelBootfall (v : Nat) (s : State) : Outc :=
  s.kennelBootCmd .opened (fun s =>
    if 1 < v then s.kennelSay s.life.commit [] .badParam else s.bootOption (fun o => { o with bootFall := v }))

/-! ## Other lines and characters: R561, R564 -/

/-- A line whose command Kennel does not know. -/
def execKennelUnknownCommand (s : State) : Outc :=
  s.kennelBoth .any none (fun _ => { st := .badOpcode })

/-- SERVICE_LINE_CHARACTER: characters that arrive while a command runs are held, up to 1,024; those beyond are lost. -/
def execServiceLineCharacter (n : Nat) (s : State) : Outc :=
  if s.kennelUp = true ∨ s.kennelBoot = true then
    .next { s with kennel := { s.kennel with held := min 1024 (s.kennel.held + n)
                                             lost := s.kennel.lost || decide (1024 < s.kennel.held + n) } }
  else .next s

end Sys2Proof.Machine
end

