-- ==== Sys2Proof/Machine/Dispatch.lean ====
section
/-! DEFINITION. One arm per command: the host reads this file arm by arm. -/

namespace Sys2Proof.Machine

open Sys2Proof

def exec (i : Instr) (s : State) : Host.Outcome State Fault Refusal :=
  match i with
  | .coldStart b => Sys2Proof.Machine.execColdStart b s
  | .warmRestart b => Sys2Proof.Machine.execWarmRestart b s
  | .lockstepMismatch => Sys2Proof.Machine.execLockstepMismatch s
  | .shepherdWatchdogExpire => Sys2Proof.Machine.execShepherdWatchdogExpire s
  | .feedOut f => Sys2Proof.Machine.execFeedOut f s
  | .feedAvailable f => Sys2Proof.Machine.execFeedAvailable f s
  | .mainReturnQualified => Sys2Proof.Machine.execMainReturnQualified s
  | .lastGaspEnd => Sys2Proof.Machine.execLastGaspEnd s
  | .holdupMeasure mj => Sys2Proof.Machine.execHoldupMeasure mj s
  | .converterFault => Sys2Proof.Machine.execConverterFault s
  | .tcxoFail => Sys2Proof.Machine.execTcxoFail s
  | .pllLock p => Sys2Proof.Machine.execPllLock p s
  | .pllLockTimeout p => Sys2Proof.Machine.execPllLockTimeout p s
  | .thermalSample temps => Sys2Proof.Machine.execThermalSample temps s
  | .throttleStepDown stack => Sys2Proof.Machine.execThrottleStepDown stack s
  | .throttleStepUp stack => Sys2Proof.Machine.execThrottleStepUp stack s
  | .tripRecovery => Sys2Proof.Machine.execTripRecovery s
  | .budgetClockStep reading => Sys2Proof.Machine.execBudgetClockStep reading s
  | .restEnter => Sys2Proof.Machine.execRestEnter s
  | .domainPowerUpDone d crcOk => Sys2Proof.Machine.execDomainPowerUpDone d crcOk s
  | .domainGate d => Sys2Proof.Machine.execDomainGate d s
  | .engineClockGate engine => Sys2Proof.Machine.execEngineClockGate engine s
  | .panelMatvec thread adc => Sys2Proof.Machine.execPanelMatvec thread adc s
  | .digitalMatmul thread => Sys2Proof.Machine.execDigitalMatmul thread s
  | .vectorOp issue => Sys2Proof.Machine.execVectorOp issue s
  | .rotate thread => Sys2Proof.Machine.execRotate thread s
  | .requant thread gap => Sys2Proof.Machine.execRequant thread gap s
  | .shuttleSubmit thread => Sys2Proof.Machine.execShuttleSubmit thread s
  | .shuttleSubmitUnstall thread => Sys2Proof.Machine.execShuttleSubmitUnstall thread s
  | .counterSignal thread => Sys2Proof.Machine.execCounterSignal thread s
  | .counterWait thread => Sys2Proof.Machine.execCounterWait thread s
  | .fence thread => Sys2Proof.Machine.execFence thread s
  | .barrierArrive thread => Sys2Proof.Machine.execBarrierArrive thread s
  | .unitBusyStallEnd thread => Sys2Proof.Machine.execUnitBusyStallEnd thread s
  | .planeFileLoadDone engine => Sys2Proof.Machine.execPlaneFileLoadDone engine s
  | .codebookLoadDone engine slot => Sys2Proof.Machine.execCodebookLoadDone engine slot s
  | .stepComplete thread tok => Sys2Proof.Machine.execStepComplete thread tok s
  | .readingClose engine plane group => Sys2Proof.Machine.execReadingClose engine plane group s
  | .counterSignalApply k => Sys2Proof.Machine.execCounterSignalApply k s
  | .barrierReleaseReceipt k => Sys2Proof.Machine.execBarrierReleaseReceipt k s
  | .waiterWake thread => Sys2Proof.Machine.execWaiterWake thread s
  | .compareRegistrationRetry k => Sys2Proof.Machine.execCompareRegistrationRetry k s
  | .watchdogExpire ctx => Sys2Proof.Machine.execWatchdogExpire ctx s
  | .descriptorStart ring pick => Sys2Proof.Machine.execDescriptorStart ring pick s
  | .chunkDone channel found => Sys2Proof.Machine.execChunkDone channel found s
  | .descriptorComplete channel => Sys2Proof.Machine.execDescriptorComplete channel s
  | .periodRelease => Sys2Proof.Machine.execPeriodRelease s
  | .mandatoryCompletion => Sys2Proof.Machine.execMandatoryCompletion s
  | .iterationRelease ctx => Sys2Proof.Machine.execIterationRelease ctx s
  | .inspectPassStart ctx => Sys2Proof.Machine.execInspectPassStart ctx s
  | .streamFrame port f => Sys2Proof.Machine.execStreamFrame port f s
  | .sampledValuesFrame port f => Sys2Proof.Machine.execSampledValuesFrame port f s
  | .arpRequest port addr => Sys2Proof.Machine.execArpRequest port addr s
  | .neighborDiscovery port addr => Sys2Proof.Machine.execNeighborDiscovery port addr s
  | .echoRequest port v6 addr data => Sys2Proof.Machine.execEchoRequest port v6 addr data s
  | .spillMove slot => Sys2Proof.Machine.execSpillMove slot s
  | .silentTimeout slot => Sys2Proof.Machine.execSilentTimeout slot s
  | .rateCheck => Sys2Proof.Machine.execRateCheck s
  | .tokenForm facts => Sys2Proof.Machine.execTokenForm facts s
  | .filetFunctionRun k => Sys2Proof.Machine.execFiletFunctionRun k s
  | .handshakeRecord port addr msg session hsid frag frags data => Sys2Proof.Machine.execHandshakeRecord port addr msg session hsid frag frags data s
  | .openMsg hsid chain => Sys2Proof.Machine.execOpenMsg hsid chain s
  | .confirm hsid sigOk => Sys2Proof.Machine.execConfirm hsid sigOk s
  | .handshakeTimeout hsid => Sys2Proof.Machine.execHandshakeTimeout hsid s
  | .protectedRecord port addr session recno tagOk payload => Sys2Proof.Machine.execProtectedRecord port addr session recno tagOk payload s
  | .sessionIdleTimeout sid => Sys2Proof.Machine.execSessionIdleTimeout sid s
  | .notifyResend sid => Sys2Proof.Machine.execNotifyResend sid s
  | .prpSupervision => Sys2Proof.Machine.execPrpSupervision s
  | .keepalive sid => Sys2Proof.Machine.execKeepalive sid s
  | .close sid => Sys2Proof.Machine.execClose sid s
  | .notifyAck sid => Sys2Proof.Machine.execNotifyAck sid s
  | .bulk sid => Sys2Proof.Machine.execBulk sid s
  | .sessionInfo sid => Sys2Proof.Machine.execSessionInfo sid s
  | .moduleInfo sid => Sys2Proof.Machine.execModuleInfo sid s
  | .status sid => Sys2Proof.Machine.execStatus sid s
  | .unitRead sid => Sys2Proof.Machine.execUnitRead sid s
  | .thermal sid => Sys2Proof.Machine.execThermal sid s
  | .fpcount sid => Sys2Proof.Machine.execFpcount sid s
  | .clipRead sid => Sys2Proof.Machine.execClipRead sid s
  | .imgBegin sid => Sys2Proof.Machine.execImgBegin sid s
  | .imgEnd sid => Sys2Proof.Machine.execImgEnd sid s
  | .imageValidationDone img => Sys2Proof.Machine.execImageValidationDone img s
  | .imgAbort sid => Sys2Proof.Machine.execImgAbort sid s
  | .imgInfo sid => Sys2Proof.Machine.execImgInfo sid s
  | .swap sid => Sys2Proof.Machine.execSwap sid s
  | .swapStep4Done => Sys2Proof.Machine.execSwapStep4Done s
  | .swapBoundary => Sys2Proof.Machine.execSwapBoundary s
  | .swapStatus sid => Sys2Proof.Machine.execSwapStatus sid s
  | .memberRead sid => Sys2Proof.Machine.execMemberRead sid s
  | .slotSet sid => Sys2Proof.Machine.execSlotSet sid s
  | .slotRead sid => Sys2Proof.Machine.execSlotRead sid s
  | .slotFree sid => Sys2Proof.Machine.execSlotFree sid s
  | .portSet sid => Sys2Proof.Machine.execPortSet sid s
  | .portRead sid => Sys2Proof.Machine.execPortRead sid s
  | .streamStatus sid => Sys2Proof.Machine.execStreamStatus sid s
  | .streamClear sid => Sys2Proof.Machine.execStreamClear sid s
  | .ctxStart sid => Sys2Proof.Machine.execCtxStart sid s
  | .ctxStop sid => Sys2Proof.Machine.execCtxStop sid s
  | .ctxReset sid => Sys2Proof.Machine.execCtxReset sid s
  | .ctxRead sid => Sys2Proof.Machine.execCtxRead sid s
  | .ctxSet sid => Sys2Proof.Machine.execCtxSet sid s
  | .quotaSet sid => Sys2Proof.Machine.execQuotaSet sid s
  | .quotaRead sid => Sys2Proof.Machine.execQuotaRead sid s
  | .run sid => Sys2Proof.Machine.execRun sid s
  | .runCancel sid => Sys2Proof.Machine.execRunCancel sid s
  | .resultRead sid => Sys2Proof.Machine.execResultRead sid s
  | .resultSub sid => Sys2Proof.Machine.execResultSub sid s
  | .resultUnsub sid => Sys2Proof.Machine.execResultUnsub sid s
  | .advisoryRead sid => Sys2Proof.Machine.execAdvisoryRead sid s
  | .eventSub sid => Sys2Proof.Machine.execEventSub sid s
  | .eventUnsub sid => Sys2Proof.Machine.execEventUnsub sid s
  | .ctrSignal sid => Sys2Proof.Machine.execCtrSignal sid s
  | .ctrRead sid => Sys2Proof.Machine.execCtrRead sid s
  | .ctrSub sid => Sys2Proof.Machine.execCtrSub sid s
  | .ctrUnsub sid => Sys2Proof.Machine.execCtrUnsub sid s
  | .bind sid => Sys2Proof.Machine.execBind sid s
  | .ctrClear sid => Sys2Proof.Machine.execCtrClear sid s
  | .ctrList sid => Sys2Proof.Machine.execCtrList sid s
  | .budgetSet sid => Sys2Proof.Machine.execBudgetSet sid s
  | .powerRead sid => Sys2Proof.Machine.execPowerRead sid s
  | .packConfig sid => Sys2Proof.Machine.execPackConfig sid s
  | .packRead sid => Sys2Proof.Machine.execPackRead sid s
  | .troubleRead sid => Sys2Proof.Machine.execTroubleRead sid s
  | .troubleClear sid => Sys2Proof.Machine.execTroubleClear sid s
  | .logRead sid => Sys2Proof.Machine.execLogRead sid s
  | .upkeepRead sid => Sys2Proof.Machine.execUpkeepRead sid s
  | .planeRead sid => Sys2Proof.Machine.execPlaneRead sid s
  | .replan sid => Sys2Proof.Machine.execReplan sid s
  | .sweep sid => Sys2Proof.Machine.execSweep sid s
  | .retire sid => Sys2Proof.Machine.execRetire sid s
  | .checkpoint sid => Sys2Proof.Machine.execCheckpoint sid s
  | .checkpointStored stored => Sys2Proof.Machine.execCheckpointStored stored s
  | .configCheckpointTimer => Sys2Proof.Machine.execConfigCheckpointTimer s
  | .attest sid => Sys2Proof.Machine.execAttest sid s
  | .identityRead sid => Sys2Proof.Machine.execIdentityRead sid s
  | .anchorRead sid => Sys2Proof.Machine.execAnchorRead sid s
  | .anchorAdd sid => Sys2Proof.Machine.execAnchorAdd sid s
  | .anchorRemove sid => Sys2Proof.Machine.execAnchorRemove sid s
  | .denyAdd sid => Sys2Proof.Machine.execDenyAdd sid s
  | .fwBegin sid => Sys2Proof.Machine.execFwBegin sid s
  | .fwEnd sid => Sys2Proof.Machine.execFwEnd sid s
  | .firmwareValidationDone fw => Sys2Proof.Machine.execFirmwareValidationDone fw s
  | .fwActivate sid => Sys2Proof.Machine.execFwActivate sid s
  | .restart sid => Sys2Proof.Machine.execRestart sid s
  | .optionRead sid => Sys2Proof.Machine.execOptionRead sid s
  | .optionSet sid => Sys2Proof.Machine.execOptionSet sid s
  | .optionWriteDone pulses => Sys2Proof.Machine.execOptionWriteDone pulses s
  | .servicePort sid => Sys2Proof.Machine.execServicePort sid s
  | .linkTrained port => Sys2Proof.Machine.execLinkTrained port s
  | .helloFrame port h packId pos size peer epoch imageId level => Sys2Proof.Machine.execHelloFrame port h packId pos size peer epoch imageId level s
  | .idleFrame port h => Sys2Proof.Machine.execIdleFrame port h s
  | .idleSend port => Sys2Proof.Machine.execIdleSend port s
  | .nakFrame port h expected => Sys2Proof.Machine.execNakFrame port h expected s
  | .creditFrame port h credits => Sys2Proof.Machine.execCreditFrame port h credits s
  | .creditReturn port => Sys2Proof.Machine.execCreditReturn port s
  | .linkCrcTimeout port => Sys2Proof.Machine.execLinkCrcTimeout port s
  | .writeFrame port h data => Sys2Proof.Machine.execWriteFrame port h data s
  | .writeDone port h n => Sys2Proof.Machine.execWriteDone port h n s
  | .remoteWriteTimeout channel => Sys2Proof.Machine.execRemoteWriteTimeout channel s
  | .signalFrame port h id delta fenced wsent => Sys2Proof.Machine.execSignalFrame port h id delta fenced wsent s
  | .tokenFrame port h sidx flagCode bytes => Sys2Proof.Machine.execTokenFrame port h sidx flagCode bytes s
  | .tokenAck port h sidx => Sys2Proof.Machine.execTokenAck port h sidx s
  | .memberHb port h epoch pos flags ports answer held rsent => Sys2Proof.Machine.execMemberHb port h epoch pos flags ports answer held rsent s
  | .memberHbSend => Sys2Proof.Machine.execMemberHbSend s
  | .memberTimeout pos => Sys2Proof.Machine.execMemberTimeout pos s
  | .leadHb port h epoch lead fill source standby live linkMap size run issued => Sys2Proof.Machine.execLeadHb port h epoch lead fill source standby live linkMap size run issued s
  | .leadHbSend => Sys2Proof.Machine.execLeadHbSend s
  | .leadLossTimeout => Sys2Proof.Machine.execLeadLossTimeout s
  | .claimDelayExpire => Sys2Proof.Machine.execClaimDelayExpire s
  | .leadClaim port h epoch pos => Sys2Proof.Machine.execLeadClaim port h epoch pos s
  | .claimQuorumTimeout => Sys2Proof.Machine.execClaimQuorumTimeout s
  | .claimRepeat => Sys2Proof.Machine.execClaimRepeat s
  | .detachTimeout => Sys2Proof.Machine.execDetachTimeout s
  | .releaseFrame port h id value => Sys2Proof.Machine.execReleaseFrame port h id value s
  | .advisoryFrame port h pos outputs aseq sidx => Sys2Proof.Machine.execAdvisoryFrame port h pos outputs aseq sidx s
  | .passStart port h pass epoch first last p0 n both => Sys2Proof.Machine.execPassStart port h pass epoch first last p0 n both s
  | .pass1Complete slot poisoned => Sys2Proof.Machine.execPass1Complete slot poisoned s
  | .passDone port h pass pos status tokens rseq => Sys2Proof.Machine.execPassDone port h pass pos status tokens rseq s
  | .scanPrefix port h ex fromSlot hole pairs => Sys2Proof.Machine.execScanPrefix port h ex fromSlot hole pairs s
  | .scanSuffix port h ex fromSlot hole pairs => Sys2Proof.Machine.execScanSuffix port h ex fromSlot hole pairs s
  | .scanColumn port h ex fromSlot hole pairs => Sys2Proof.Machine.execScanColumn port h ex fromSlot hole pairs s
  | .haloMsg port h ex fromSlot bytes => Sys2Proof.Machine.execHaloMsg port h ex fromSlot bytes s
  | .replayComplete slot states => Sys2Proof.Machine.execReplayComplete slot states s
  | .resendMsg port h ex type first last => Sys2Proof.Machine.execResendMsg port h ex type first last s
  | .exchangeStallTimeout k => Sys2Proof.Machine.execExchangeStallTimeout k s
  | .snapshotMsg port h ex units => Sys2Proof.Machine.execSnapshotMsg port h ex units s
  | .scaleSet port h ex units => Sys2Proof.Machine.execScaleSet port h ex units s
  | .resultMsg port h ex rseq r => Sys2Proof.Machine.execResultMsg port h ex rseq r s
  | .handoverPrep port h period sidx fromPos toPos isAck => Sys2Proof.Machine.execHandoverPrep port h period sidx fromPos toPos isAck s
  | .handoverMsg port h ex m => Sys2Proof.Machine.execHandoverMsg port h ex m s
  | .swapReady port h imageId pos => Sys2Proof.Machine.execSwapReady port h imageId pos s
  | .swapAt port h imageId period => Sys2Proof.Machine.execSwapAt port h imageId period s
  | .swapCommit port h imageId period => Sys2Proof.Machine.execSwapCommit port h imageId period s
  | .tallyFrame port h pos entries => Sys2Proof.Machine.execTallyFrame port h pos entries s
  | .upkeepStart engine => Sys2Proof.Machine.execUpkeepStart engine s
  | .awayCopyDone engine => Sys2Proof.Machine.execAwayCopyDone engine s
  | .eraseDone engine moved pulses => Sys2Proof.Machine.execEraseDone engine moved pulses s
  | .programPassDone engine pulses => Sys2Proof.Machine.execProgramPassDone engine pulses s
  | .relaxWaitExpire engine => Sys2Proof.Machine.execRelaxWaitExpire engine s
  | .finalVerifyDone engine f => Sys2Proof.Machine.execFinalVerifyDone engine f s
  | .digitalLevelReadDone engine r => Sys2Proof.Machine.execDigitalLevelReadDone engine r s
  | .sweepDue engine plane => Sys2Proof.Machine.execSweepDue engine plane s
  | .panelReturn engine => Sys2Proof.Machine.execPanelReturn engine s
  | .upkeepTableWrite => Sys2Proof.Machine.execUpkeepTableWrite s
  | .patrolScrubRead f => Sys2Proof.Machine.execPatrolScrubRead f s
  | .scrubPassEnd => Sys2Proof.Machine.execScrubPassEnd s
  | .scrubDeadline => Sys2Proof.Machine.execScrubDeadline s
  | .weightRefetchDone goldenOk => Sys2Proof.Machine.execWeightRefetchDone goldenOk s
  | .storeProgramDone block verified => Sys2Proof.Machine.execStoreProgramDone block verified s
  | .storeEraseDone unit phys verified pulses => Sys2Proof.Machine.execStoreEraseDone unit phys verified pulses s
  | .storeRead block bitErrors => Sys2Proof.Machine.execStoreRead block bitErrors s
  | .storePatrolRead block bitErrors => Sys2Proof.Machine.execStorePatrolRead block bitErrors s
  | .logPageWrite => Sys2Proof.Machine.execLogPageWrite s
  | .logRateSecondEnd => Sys2Proof.Machine.execLogRateSecondEnd s
  | .troubleLevelReassert => Sys2Proof.Machine.execTroubleLevelReassert s
  | .outputSenseMismatch n => Sys2Proof.Machine.execOutputSenseMismatch n s
  | .outputOvercurrent n => Sys2Proof.Machine.execOutputOvercurrent n s
  | .healthSenseMismatch => Sys2Proof.Machine.execHealthSenseMismatch s
  | .inputSample mv => Sys2Proof.Machine.execInputSample mv s
  | .kennelHelp => Sys2Proof.Machine.execKennelHelp s
  | .kennelInfo => Sys2Proof.Machine.execKennelInfo s
  | .kennelUnlock => Sys2Proof.Machine.execKennelUnlock s
  | .kennelChallengeResponse chain sigOk => Sys2Proof.Machine.execKennelChallengeResponse chain sigOk s
  | .kennelChallengeExpire => Sys2Proof.Machine.execKennelChallengeExpire s
  | .kennelLockoutExpire => Sys2Proof.Machine.execKennelLockoutExpire s
  | .kennelLock => Sys2Proof.Machine.execKennelLock s
  | .kennelIdleTimeout => Sys2Proof.Machine.execKennelIdleTimeout s
  | .kennelStatus => Sys2Proof.Machine.execKennelStatus s
  | .kennelLog first count => Sys2Proof.Machine.execKennelLog first count s
  | .kennelCtx n => Sys2Proof.Machine.execKennelCtx n s
  | .kennelWaits n => Sys2Proof.Machine.execKennelWaits n s
  | .kennelCtr n id => Sys2Proof.Machine.execKennelCtr n id s
  | .kennelCtrp phys => Sys2Proof.Machine.execKennelCtrp phys s
  | .kennelThread loc => Sys2Proof.Machine.execKennelThread loc s
  | .kennelRing loc => Sys2Proof.Machine.execKennelRing loc s
  | .kennelPlanes loc => Sys2Proof.Machine.execKennelPlanes loc s
  | .kennelWear stack => Sys2Proof.Machine.execKennelWear stack s
  | .kennelPack => Sys2Proof.Machine.execKennelPack s
  | .kennelStore => Sys2Proof.Machine.execKennelStore s
  | .kennelStream slot => Sys2Proof.Machine.execKennelStream slot s
  | .kennelUpkeep => Sys2Proof.Machine.execKennelUpkeep s
  | .kennelRaw block arg => Sys2Proof.Machine.execKennelRaw block arg s
  | .kennelCtxStart n => Sys2Proof.Machine.execKennelCtxStart n s
  | .kennelCtxStop n => Sys2Proof.Machine.execKennelCtxStop n s
  | .kennelCtxReset n => Sys2Proof.Machine.execKennelCtxReset n s
  | .kennelServiceOn => Sys2Proof.Machine.execKennelServiceOn s
  | .kennelServiceOff => Sys2Proof.Machine.execKennelServiceOff s
  | .kennelAnchorList => Sys2Proof.Machine.execKennelAnchorList s
  | .kennelAnchorAdd kind role cert => Sys2Proof.Machine.execKennelAnchorAdd kind role cert s
  | .kennelAnchorRemove index => Sys2Proof.Machine.execKennelAnchorRemove index s
  | .kennelPackSet packId size pos source standby => Sys2Proof.Machine.execKennelPackSet packId size pos source standby s
  | .kennelPortSet port args => Sys2Proof.Machine.execKennelPortSet port args s
  | .kennelOptionSet off value => Sys2Proof.Machine.execKennelOptionSet off value s
  | .kennelTroubleClear word mask => Sys2Proof.Machine.execKennelTroubleClear word mask s
  | .kennelRetire kind addr => Sys2Proof.Machine.execKennelRetire kind addr s
  | .kennelRestart kind => Sys2Proof.Machine.execKennelRestart kind s
  | .kennelLockSet confirmed => Sys2Proof.Machine.execKennelLockSet confirmed s
  | .kennelBootlog => Sys2Proof.Machine.execKennelBootlog s
  | .kennelFwload bank received => Sys2Proof.Machine.execKennelFwload bank received s
  | .kennelBootbank bank => Sys2Proof.Machine.execKennelBootbank bank s
  | .kennelBootfall v => Sys2Proof.Machine.execKennelBootfall v s
  | .feedExcursion f mv => Sys2Proof.Machine.execFeedExcursion f mv s
  | .packFrameCrcFail port => Sys2Proof.Machine.execPackFrameCrcFail port s
  | .kennelUnknownCommand => Sys2Proof.Machine.execKennelUnknownCommand s
  | .serviceLineCharacter n => Sys2Proof.Machine.execServiceLineCharacter n s

end Sys2Proof.Machine
end

