-- ==== Sys2Proof/Machine/Step.lean ====
section
/-! DEFINITION. One step: the command at the front of the queue runs on the state with the queue's rest; on an empty
queue the always-on clock counts one microsecond (assumption 2). -/

namespace Sys2Proof.Machine

open Sys2Proof

/-- Local time counts one microsecond while the module is powered; nothing counts while it is not (R524). -/
def State.tick (s : State) : State :=
  if s.life.phase = .unpowered then s
  else { s with life := { s.life with now := s.life.now + 1, clock := s.life.clock + 1 } }

/-- One step of the block. -/
def step (s : State) : Host.Outcome State Fault Refusal :=
  match s.pending with
  | [] => .next s.tick
  | c :: rest => exec c { s with pending := rest }

/-- The state with the command that a word spells at the front of its queue; no word spells one. -/
def State.withFetchWord (s : State) (nbits w : Nat) : State :=
  match decodeTableWord nbits w with
  | some c => { s with pending := c :: s.pending }
  | none => s

end Sys2Proof.Machine
end

