-- ==== Sys2Proof/Machine/Layouts.lean ====
section
/-! DEFINITION. The bytes that packets, frames and records have on a wire or in the store, most significant byte first (R14,
Tables 9.4, 9.5, 9.7, 9.8, 10.3, 11.5, 11.6, 13.6). The commands of this model carry the decoded fields; these functions say
where each field lies. Command packets, log records, result records, option copies, plane files, journal records and the
image container have theirs beside the commands that use them. -/

namespace Sys2Proof.Machine

open Sys2Proof

/-- Bytes, then the CRC-32C over them. -/
def withCrc (l : List Byte) : List Byte := l ++ be 4 (crc32c l).toNat

/-! ## Packets, Tables 11.5 and 11.6 -/

/-- TYPE, LENGTH, the value, and zeros to a multiple of 4 (R403). -/
def tlvBytes (t : Tlv) : List Byte :=
  be 2 t.1 ++ be 2 t.2.length ++ t.2 ++ List.replicate ((4 - t.2.length % 4) % 4) 0

/-- The header of Table 11.5 with the extension of Table 11.6, then the TLVs. PLEN counts the bytes after byte 39 (R402). -/
def packetBytes (flags opcode ctx seq : Nat) (st : Status) (detail commit : Nat) (tlvs : List Tlv) : List Byte :=
  let body := tlvs.flatMap tlvBytes
  be 4 0x5350434D ++ be 1 1 ++ be 1 flags ++ be 2 opcode ++ be 2 ctx ++ be 2 0 ++ be 4 seq ++ be 4 body.length ++ be 4 0
    ++ be 2 st.code ++ be 2 0 ++ be 4 detail ++ be 8 commit ++ body

/-- A reply: REPLY is bit 7 of FLAGS. -/
def Reply.bytes (r : Reply) : List Byte := packetBytes 0x80 r.opcode r.ctx r.seq r.status r.detail r.commit r.tlvs

/-- A notify: NOTIFY is bit 6 of FLAGS and LOSS bit 4; SEQ is the notify sequence. -/
def Notify.bytes (n : Notify) : List Byte :=
  packetBytes (0x40 + 16 * flag n.loss) n.opcode n.ctx n.nseq n.status n.detail n.commit n.tlvs

/-! ## Stream frames, Table 10.3 -/

/-- Bytes of a sample: 2 for FMT 0x10, else 3. -/
def sampleBytes (fmt : Nat) : Nat := if fmt = 0x10 then 2 else 3

/-- A stream frame as the payload of its datagram. -/
def StreamFrame.bytes (f : StreamFrame) : List Byte :=
  let w := sampleBytes f.fmt
  withCrc (be 4 f.magic ++ be 1 f.ver ++ be 1 f.flags ++ be 2 f.streamId ++ be 8 f.sidx ++ be 1 f.fmt ++ be 1 f.reserved
    ++ be 2 f.count ++ be 4 f.seq ++ be 8 f.tstamp ++ f.samples.flatMap (fun v => be w (unsigned (8 * w) v)))

/-- A stream frame read from the payload of a datagram: `crcOk` and `lenOk` are found from the bytes. -/
def readStreamFrame (env : Envelope) (l : List Byte) : StreamFrame :=
  let at_ := fun o n => ofBytes ((l.drop o).take n)
  let fmt := at_ 16 1
  let w := sampleBytes fmt
  let body := l.take (l.length - 4)
  { env := env, magic := at_ 0 4, ver := at_ 4 1, flags := at_ 5 1, streamId := at_ 6 2, sidx := at_ 8 8, fmt := fmt
    reserved := at_ 17 1, count := at_ 18 2, seq := at_ 20 4, tstamp := at_ 24 8
    samples := (List.range ((l.length - 36) / w)).map (fun i => signed (8 * w) (at_ (32 + w * i) w))
    crcOk := decide (at_ (l.length - 4) 4 = (crc32c body).toNat)
    lenOk := decide (l.length = 36 + w * at_ 18 2) }

/-! ## Store records, Table 13.6 -/

/-- A store record with its CRC. -/
def SRec.bytes (r : SRec) : List Byte :=
  withCrc (be 1 r.kind ++ be 1 r.unit ++ be 2 r.phys ++ be 2 r.logical ++ be 8 r.seq ++ be 4 r.poc ++ be 8 r.arg ++ be 2 0)

/-! ## Records of the command ports, Tables 11.1 and 11.2 -/

/-- A handshake record. -/
def handshakeRecord (msg session hsid frag frags : Nat) (data : List Byte) : List Byte :=
  be 1 0 ++ be 1 msg ++ be 2 session ++ be 4 hsid ++ be 1 frag ++ be 1 frags ++ be 2 0 ++ data

/-- A protected record that the module sends: its packet under AES-256-GCM, with bytes 0 to 11 as additional data and the salt of
the direction before RECNO as nonce (R395). -/
def protectedRecord (k : SessionKeys) (sid recno : Nat) (packet : List Byte) : List Byte :=
  let head := be 1 1 ++ be 1 0 ++ be 2 sid ++ be 8 recno
  head ++ Config.gcm k.outKey (k.outSalt ++ be 8 recno) head packet

/-- A refusal record (R396). -/
def refusalRecord (session : Nat) : List Byte := be 1 2 ++ be 1 0 ++ be 2 session

/-! ## Pack frames, Tables 9.4 to 9.8 -/

/-- The TYPE of a frame: the further frames of a token record are TOKEN_CONT (Table 9.5). -/
def frameType (h : PackHdr) (b : PackBody) : Nat :=
  match b with
  | .token .. => if h.addr = 0 then 1 else 2
  | b => b.type

/-- The 16-byte header of a frame that carries `b`. -/
def PackHdr.bytes (h : PackHdr) (b : PackBody) : List Byte :=
  be 16 (word [(h.ver % 16, 124), (b.cls, 120), (frameType h b, 112), (h.src % 64, 106), (h.dst % 64, 100), (h.len % 2 ^ 13, 87),
    (h.lseq % 2 ^ 16, 71), (h.ack % 2 ^ 16, 55), (h.ctx % 64, 49), (h.addr % 2 ^ 40, 9), (flag h.last, 8), (h.hops % 16, 4)])

/-- The exchange header of a class 6 message whose contents are `n` bytes long (Table 9.5). -/
def ExHdr.bytes (x : ExHdr) (n : Nat) : List Byte := be 4 x.epoch ++ be 4 x.pass ++ be 2 x.layer ++ be 2 0 ++ be 4 n

/-- A class 6 message: the exchange header, then the contents. -/
def exchange (x : ExHdr) (l : List Byte) : List Byte := x.bytes l.length ++ l

/-- Pairs of a scan message, P then H. -/
def scanContents (fromSlot : Nat) (hole : Bool) (ps : List (F32 × F32)) : List Byte :=
  be 2 fromSlot ++ be 2 (flag hole) ++ ps.flatMap (fun p => be 4 p.1.toNat ++ be 4 p.2.toNat)

/-- An advisory rule state as ADVISORY_READ gives it. -/
def ruleBytes (t : Bool × Nat × Nat) : List Byte := be 1 (flag t.1) ++ be 1 t.2.1 ++ be 4 t.2.2 ++ be 2 0

/-- EXP in bits [15:10], DOWNRUN in [9:5], SATRUN in [4:2]. -/
def scaleBytes (u : Int × Nat × Nat) : List Byte := be 2 (word [(unsigned 6 u.1, 10), (u.2.1 % 32, 5), (u.2.2 % 8, 2)])

/-- The contents of a HANDOVER message. -/
def HandoverMsg.bytes (m : HandoverMsg) : List Byte :=
  be 8 m.period ++ be 8 m.cover ++ be 4 m.ripos ++ be 1 (flag m.catchUp + 2 * flag m.carried) ++ be 1 m.cup ++ be 2 0
    ++ be 4 m.state.length ++ m.state ++ (List.range 16).flatMap (fun i => ruleBytes (m.rules.getD i (false, 0, 0)))
    ++ m.scales.flatMap scaleBytes

/-- The payload of a frame, or a whole class 6 message. -/
def PackBody.payload : PackBody → List Byte
  | .idle => []
  | .hello id pos size port epoch image level =>
    be 8 id ++ be 1 pos ++ be 1 size ++ be 1 port ++ be 5 0 ++ be 4 epoch ++ be 16 image ++ be 2 level ++ be 2 0
  | .nak e => be 2 e ++ be 2 0
  | .credit l => (List.range 6).flatMap (fun i => be 2 (l.getD i 0))
  | .write d => d
  | .signal id delta fenced wsent => be 2 (id % 4096) ++ be 4 delta ++ be 1 (flag fenced) ++ be 1 0 ++ be 4 wsent ++ be 4 0
  | .writeDone n => be 4 n
  | .token sidx code l => be 16 (word [(sidx, 64), (code % 16, 60)]) ++ l
  | .tokenAck sidx => be 8 sidx
  | .memberHb epoch pos flags ports answer held rsent =>
    be 4 epoch ++ be 1 pos ++ be 1 flags ++ be 2 ((List.range 4).foldl (fun a i => 16 * a + ports.getD i 0 % 8) 0) ++ be 1 answer
      ++ be 3 0 ++ be 8 (held.getD (top 64)) ++ be 4 rsent
  | .leadHb epoch lead fill source standby live links size run issued =>
    be 4 epoch ++ be 1 lead ++ be 1 fill ++ be 1 source ++ be 1 (standby.getD 0xFF) ++ be 8 live
      ++ (List.range 32).flatMap (fun i => be 1 (16 * (links.getD (2 * i) 0 % 16) + links.getD (2 * i + 1) 0 % 16)) ++ be 1 size
      ++ be 1 run ++ be 2 0 ++ (List.range 64).flatMap (fun i => be 4 (issued.getD i 0))
  | .leadClaim epoch pos => be 4 epoch ++ be 1 pos ++ be 3 0
  | .release id value => be 2 (id % 4096) ++ be 2 0 ++ be 8 value
  | .advisory pos outputs aseq sidx => be 1 pos ++ be 1 outputs.toNat ++ be 2 0 ++ be 4 aseq ++ be 8 sidx
  | .passStart pass epoch first last p0 n both =>
    be 4 pass ++ be 4 epoch ++ be 8 first ++ be 8 last ++ be 1 p0 ++ be 1 n ++ be 1 (flag both) ++ be 5 0
  | .passDone pass pos status tokens rseq => be 4 pass ++ be 1 pos ++ be 1 status ++ be 2 0 ++ be 8 tokens ++ be 4 rseq
  | .swapReady image pos => be 16 image ++ be 1 pos ++ be 3 0
  | .swapAt image period | .swapCommit image period => be 16 image ++ be 8 period
  | .tally pos l => be 1 pos ++ be 1 0 ++ be 2 l.length
      ++ l.flatMap (fun e => be 1 e.1 ++ be 1 0 ++ be 2 (e.2.1 % 4096) ++ be 8 e.2.2)
  | .handoverPrep period sidx from_ to_ ack => be 8 period ++ be 8 sidx ++ be 1 from_ ++ be 1 to_ ++ be 1 (flag ack) ++ be 5 0
  | .scanPrefix x q hole ps | .scanSuffix x q hole ps | .scanColumn x q hole ps => exchange x (scanContents q hole ps)
  | .halo x q l => exchange x (be 2 q ++ be 2 0 ++ l)
  | .handover x m => exchange x m.bytes
  | .snapshot x l => exchange x (be 4 l.length
      ++ l.flatMap (fun u => be 4 u.unit ++ be 4 u.clips ++ be 4 u.total ++ be 2 u.peak ++ be 2 (flag u.ovf)))
  | .scaleSet x l => exchange x (be 4 l.length
      ++ l.flatMap (fun u => be 4 u.unit ++ be 1 (unsigned 8 u.exp) ++ be 1 u.downrun ++ be 1 u.satrun ++ be 1 0))
  | .result x rseq r => exchange x (be 4 rseq ++ be 4 0 ++ r.bytes)
  | .resend x type first last => exchange x (be 1 type ++ be 3 0 ++ be 4 first ++ be 4 last)

/-- The payload of one frame of a message: the bytes from its offset on, filled with zeros to LEN (R320, R322). -/
def framePayload (h : PackHdr) (b : PackBody) : List Byte :=
  let from_ := match b with | .write _ => 0 | .token .. => if h.addr = 0 then 0 else h.addr + 16 | _ => h.addr
  let l := (b.payload.drop from_).take h.len
  l ++ be (h.len - l.length) 0

/-- A frame as it leaves a port: header, payload, CRC; with poisoned payload bytes the CRC goes out XORed with 0x504F_4953 (R320,
Table 12.2). -/
def frameBytes (h : PackHdr) (b : PackBody) : List Byte :=
  let l := h.bytes b ++ framePayload h b
  l ++ be 4 ((crc32c l).toNat ^^^ (if h.poison then 0x504F4953 else 0))

end Sys2Proof.Machine
end

