-- ==== Sys2Proof/Safety.lean ====
section
/-! DEFINITION. What a safe run keeps, in the terms that the claims use: the marks that no step moves back, and the canonical
form of the tables that hold memory. -/

namespace Sys2Proof.Machine

open Sys2Proof

/-- Numbers that no step moves back: the commit stamp (R423), the power-on count (R490), the next LSEQ of the log (R457), the
next SEQ of the store journal (R477) and of the upkeep journal (R187). -/
structure Marks where
  commit : Nat := 0
  poc : Nat := 0
  lseq : Nat := 0
  storeSeq : Nat := 0
  upkeepSeq : Nat := 0
  deriving DecidableEq, Repr

/-- The waiting commands are `q`; no number lies below its mark; and no multiple of 2^31 lies between the stamp that the store
holds and the commit stamp, so that a start that adds 2^32 to the stored stamp passes every stamp in use (R424). -/
def KeptAt (q : List Instr) (m : Marks) (pending : List Instr) (commit stored poc lseq storeSeq upkeepSeq : Nat) : Prop :=
  pending = q ∧ m.commit ≤ commit ∧ commit / 2 ^ 31 ≤ stored / 2 ^ 31 ∧ m.poc ≤ poc ∧ m.lseq ≤ lseq ∧ m.storeSeq ≤ storeSeq
    ∧ m.upkeepSeq ≤ upkeepSeq

/-- `KeptAt` of a state. -/
def Kept (q : List Instr) (m : Marks) (s : State) : Prop :=
  KeptAt q m s.pending s.life.commit s.life.storedStamp s.life.poc s.logs.nextLseq s.store.nextSeq s.upk.nextSeq

/-- The bytes of the memories stand in canonical form: numbers rise strictly and no listed byte is zero. -/
def Memory.wf (m : Memory) : Bool :=
  Tab.wf 0 m.engine && Tab.wf 0 m.core && Tab.wf 0 m.cluster && Tab.wf 0 m.base && Tab.wf 0 m.board

/-! ## Commands of a session, 11_command_packets.md -/

/-- Session `sid`, which is `x`, has `p` with opcode `op` at the head of its ring; the command ports answer, and role, form,
boot state and lead refuse nothing (R400, R403, R404, R416, R487). -/
def Asks (s : State) (op sid : Nat) (x : Session) (p : Packet) : Prop :=
  s.portsUp = true ∧ s.sess sid = some x ∧ x.headCmd = some p ∧ p.opcode = op ∧ s.refuses x p = none

/-- The state in which the rules of a command that changes something apply: the command has left its ring, one commit is made, and
the session's next record number is kept for the reply (R422, R423). -/
def State.taken (s : State) (sid : Nat) (p : Packet) : State :=
  ((s.popCmd sid p).commit).updSess sid (fun y => { y with txNext := y.txNext + 1 })

/-- From `s` on, the first that leaves the module is the reply `r`, in the session's next record (R402, R422). -/
def Replied (s t : State) (sid : Nat) (x : Session) (r : Reply) : Prop :=
  ∃ more, t.out = s.out ++ .reply sid x.txNext (s.outPort x) r :: more

/-- A read was answered: OK, the values `vs`, the present stamp; nothing changes but the session itself (R411, R425). -/
def ReadDone (s t : State) (sid : Nat) (x : Session) (p : Packet) (vs : List (List Byte)) : Prop :=
  Replied s t sid x (replyOf p .ok 0 (tlvsFrom 1 vs) s.life.commit) ∧ { t with comms := s.comms, out := s.out } = s
    ∧ ∀ n, n ≠ sid → t.sess n = s.sess n

/-- A command was refused: the status, its DETAIL, no value, the present stamp; nothing changes but the session itself (R411). -/
def Refused (s t : State) (sid : Nat) (x : Session) (p : Packet) (st : Status) (detail : Nat) : Prop :=
  Replied s t sid x (replyOf p st detail [] s.life.commit) ∧ { t with comms := s.comms, out := s.out } = s
    ∧ ∀ n, n ≠ sid → t.sess n = s.sess n

/-- A command that changes the committed state was answered with the stamp of its own commit (R423, R425); the state is `u` but
for sessions and what leaves the module. -/
def WriteDone (s t : State) (sid : Nat) (x : Session) (p : Packet) (st : Status) (vs : List (List Byte)) (u : State) : Prop :=
  Replied s t sid x (replyOf p st 0 (tlvsFrom 1 vs) (s.life.commit + 1)) ∧ { t with comms := u.comms, out := u.out } = u

/-! ## Packets as the manual lays them out, 11_command_packets.md -/

/-- The TLVs of a packet, one after the other (R402). -/
def bodyBytes (vs : List Tlv) : List Byte := vs.flatMap tlvBytes

/-- A command packet: the header of Table 11.5, in which MAGIC is 0x5350434D, VER 1, FLAGS and the reserved fields zero and PLEN
the bytes after byte 23, then the TLVs (R402). -/
def commandBytes (opcode ctx seq : Nat) (vs : List Tlv) : List Byte :=
  be 4 0x5350434D ++ be 1 1 ++ be 1 0 ++ be 2 opcode ++ be 2 ctx ++ be 2 0 ++ be 4 seq ++ be 4 (bodyBytes vs).length ++ be 4 0 ++ bodyBytes vs

/-- Where each TLV stands after byte 23 (R416). -/
def tlvOffsets (off : Nat) : List Tlv → List Nat
  | [] => []
  | v :: vs => off :: tlvOffsets (off + (tlvBytes v).length) vs

/-! ## Lines of Kennel, 17_kennel_and_field_service.md -/

/-- Kennel has read a line: the characters held are read with it, and a module in Rest is Ready again (R68, R561). -/
def State.heard (s : State) : State := s.wake.takeHeld

/-- The last that has left the module is Kennel's answer, which tells lost characters first (R561, R562). -/
def Answered (s t : State) (stamp : Nat) (lines : List (List (String × Nat))) (st : Status) : Prop :=
  (∃ more, t.out = s.out ++ more ++ [.kennel stamp lines st s.kennel.lost]) ∧ t.kennel.lost = false

/-- The command is a line, a response or a character that arrives on the service line J3 (R556, R561). -/
def isLine : Instr → Bool
  | .kennelHelp | .kennelInfo | .kennelUnlock | .kennelChallengeResponse _ _ | .kennelLock | .kennelStatus
  | .kennelLog _ _ | .kennelCtx _ | .kennelWaits _ | .kennelCtr _ _ | .kennelCtrp _ | .kennelThread _ | .kennelRing _
  | .kennelPlanes _ | .kennelWear _ | .kennelPack | .kennelStore | .kennelStream _ | .kennelUpkeep | .kennelRaw _ _
  | .kennelCtxStart _ | .kennelCtxStop _ | .kennelCtxReset _ | .kennelServiceOn | .kennelServiceOff
  | .kennelAnchorList | .kennelAnchorAdd _ _ _ | .kennelAnchorRemove _ | .kennelPackSet _ _ _ _ _
  | .kennelPortSet _ _ | .kennelOptionSet _ _ | .kennelTroubleClear _ _ | .kennelRetire _ _ | .kennelRestart _
  | .kennelLockSet _ | .kennelBootlog | .kennelFwload _ _ | .kennelBootbank _ | .kennelBootfall _
  | .kennelUnknownCommand | .serviceLineCharacter _ => true
  | _ => false

/-- Kennel has answered a line with a status alone and changed nothing but its own line buffer. -/
def KennelRefused (s t : State) (st : Status) : Prop := t = s.heard.kennelSay s.life.commit [] st

/-! ## Events, 12_keeping_data_whole.md -/

/-- `t` is `u` but for the stamp, the log, the trouble words, the sessions and what leaves the module; of the trouble bits,
those in `bits` are set and every other one stands as in `u` (R452, R457). -/
def Logged (u t : State) (bits : List (Nat × Nat)) : Prop :=
  { t with life := { t.life with commit := u.life.commit, storedStamp := u.life.storedStamp },
           logs := u.logs, comms := u.comms, out := u.out } = u
    ∧ (∃ more, t.out = u.out ++ more)
    ∧ ∀ v k, v < 3 → (t.logs.word v).getLsbD k = ((u.logs.word v).getLsbD k || decide ((v, k) ∈ bits))

/-! ## Stream ingress, 10_stream_ingress.md -/

/-- Slot `n`, set as `c`, is consuming and has room for `len` samples from index `idx` on, none of which it holds (R370, R371). -/
def HasRoom (s : State) (n : Nat) (c : SlotCfg) (idx len : Nat) : Prop :=
  (s.slot n).cfg = some c ∧ c.startArr = false ∧ s.consuming n = true ∧ s.ing.s0.isSome = true
    ∧ (∃ u, (s.slot n).unread = some u ∧ u ≤ idx ∧ idx ≤ u + c.cap ∧ idx + len ≤ u + (s.slot n).spilled + c.cap)
    ∧ ∀ i, i < len → (Tab.get (0, 4) (s.slot n).ring (idx + i)).2 = 4

/-- Slot `n` took the values from index `idx` on; the rest of its ring, every other slot, ingest and the rest of the state
but for what an event touches stand (R370, R387). -/
def TookSamples (s t : State) (n idx : Nat) (vals : List (Int × Nat)) : Prop :=
  (∀ i v, vals[i]? = some v → Tab.get (0, 4) (t.slot n).ring (idx + i) = v)
    ∧ (∀ j, (j < idx ∨ idx + vals.length ≤ j) → Tab.get (0, 4) (t.slot n).ring j = Tab.get (0, 4) (s.slot n).ring j)
    ∧ (t.slot n).frames = satAdd 32 (s.slot n).frames 1 ∧ (t.slot n).lateSmp = satAdd 32 (s.slot n).lateSmp 0
    ∧ (t.slot n).dupSmp = satAdd 32 (s.slot n).dupSmp 0
    ∧ (t.slot n).unread = (s.slot n).unread ∧ (t.slot n).cfg = (s.slot n).cfg
    ∧ (∀ k, k ≠ n → t.slot k = s.slot k)
    ∧ { t with life := { t.life with commit := s.life.commit, storedStamp := s.life.storedStamp }, logs := s.logs, comms := s.comms,
               out := s.out, ing := { t.ing with slots := s.ing.slots } } = s

/-! ## Pack ports, 09_stretches_and_packs.md -/

/-- `t` is `s` but for the pack ports and frames that have left on them (R320, R325, R326). -/
def OnPorts (s t : State) : Prop :=
  { t with pack := { t.pack with ports := s.pack.ports }, out := s.out } = s ∧ ∃ more, t.out = s.out ++ more

/-- `OnPorts`, and no port but `port` has changed. -/
def OnPort (s t : State) (port : Nat) : Prop := OnPorts s t ∧ ∀ q, q ≠ port → t.pport q = s.pport q

/-- A frame of classes 1 to 6 is taken on `port` for this member, and its message is whole with it (R320, R322). -/
def State.Takes (s : State) (port : Nat) (h : PackHdr) (b : PackBody) (u : State) : Prop :=
  ∃ v, s.recv port h b = .take v ∧ v.gather h b = (u, true)

/-! ## Step records, 07_threads_and_counters.md -/

/-- The step of thread `th` has run and completes at STEP_COMPLETE: it wrote within the operands `outs` only, a reference and a
length in bytes each; no other thread changed, and of the rest only engines, cores, what an event touches and the count of draws may have
(R246, R252, R268). -/
def StepRan (s t : State) (th : Nat) (outs : List (Ref × Nat)) : Prop :=
  ((t.thread th).state = .running ∧ (t.thread th).done = true)
    ∧ ((t.thread th).pc = (s.thread th).pc ∧ (t.thread th).iter = (s.thread th).iter ∧ (t.thread th).ctx = (s.thread th).ctx)
    ∧ (∀ u, u ≠ th → t.thread u = s.thread u)
    ∧ (∀ (sp : Space) (x : Nat), (∀ o, o ∈ outs → ¬ ((s.refAt th o.1).1 = sp ∧ (s.refAt th o.1).2 ≤ x ∧ x < (s.refAt th o.1).2 + o.2)) →
        t.mem.read sp x = s.mem.read sp x)
    ∧ { t with life := { t.life with commit := s.life.commit, storedStamp := s.life.storedStamp }, logs := s.logs, comms := s.comms,
               out := s.out, threads := s.threads, engines := s.engines, cores := s.cores, mem := s.mem, draws := s.draws } = s

end Sys2Proof.Machine
end

