-- ==== Sys2Proof/Certificates/Slice0/Obligations.lean ====
section
/-! DEFINITION. The statements for the provers, one for each entry of OBLIGATIONS.json. -/

open Sys2Proof Sys2Proof.Machine

/-- Before any start, as the rules say: each logical plane p below 16 lies in physical plane p; both option copies are as shipped,
with BOOTFALL 1, PSIZE 1, MAINBUD 410, BACKBUD 240, no standby and LOCK 0. As the model chooses where the rules give a unit no
value before its first start (entry 1 of the assumption log): no command waits and nothing has left; nothing is powered and
the commit stamp is 0; every thread and context is Free, every counter is 0 and unbound, every ring is in state 3; no session,
image, result, subscription or pass; the trouble words are 0; every byte of every memory reads 0; the only anchor is
Iandihan's image root; Kennel is Locked. (R75, R249, R256, R293, R453, R465, R483, R485, R502, R557, 14_power_up_and_trust.md) -/
def Obligations.ShippedModuleHoldsItsValues : Prop :=
  ((∀ e p, p < 16 → (State.reset.engine e).phys p = p)
    ∧ State.reset.opt.copy0 = State.reset.opt.copy1
    ∧ (State.reset.opt.copy0.bootFall = 1 ∧ State.reset.opt.copy0.psize = 1 ∧ State.reset.opt.copy0.mainBud = 410 ∧ State.reset.opt.copy0.backBud = 240
      ∧ State.reset.opt.copy0.pstandby = 0xFF ∧ State.reset.opt.copy0.lock = 0))
  ∧ ((State.reset.pending = [] ∧ State.reset.out = []) ∧ (State.reset.life.phase = .unpowered ∧ State.reset.life.commit = 0 ∧ State.reset.supply.active = none)
    ∧ (∀ t, (State.reset.thread t).state = .free) ∧ (∀ c, (State.reset.ctx c).state = .free)
    ∧ (∀ p, (State.reset.counter p).value = 0 ∧ (State.reset.counter p).bound = false) ∧ (∀ r, (State.reset.ring r).state = 3)
    ∧ (∀ n, State.reset.sess n = none) ∧ (State.reset.img.active = none ∧ State.reset.results = [] ∧ State.reset.pack.passes = [])
    ∧ (∀ v, v < 3 → State.reset.logs.word v = 0) ∧ (∀ sp x, State.reset.mem.read sp x = 0)
    ∧ State.reset.trust.anchors = [{ index := 0, kind := 1 }] ∧ State.reset.kennel.state = .locked)

/-- For every state and command c, a step of the state whose queue is c followed by a rest is exec of c on the state with that
rest as its queue. The queue of commands is the model's own interface. (R404, 11_command_packets.md) -/
def Obligations.StepRunsTheFrontCommand : Prop :=
  ∀ (c : Instr) (rest : List Instr) (s : State), step { s with pending := c :: rest } = exec c { s with pending := rest }

/-- With an empty queue a step answers a next state in which, while the module has power, local time and the model's clock are one
microsecond later; without power nothing changes. The step of 1 microsecond is the model's choice (assumption 2).
(15_supplies_clocks_heat.md, R524) -/
def Obligations.IdleStepCountsTime : Prop :=
  ∀ s : State, s.pending = [] →
    (s.life.phase ≠ .unpowered →
      step s = .next { s with life := { s.life with now := s.life.now + 1, clock := s.life.clock + 1 } })
    ∧ (s.life.phase = .unpowered → step s = .next s)

/-- From every state and for every marks that lie at or below the commit stamp, the power-on count, the next LSEQ of the log, the
next SEQ of the store journal and of the upkeep journal, such that no multiple of 2^31 lies between the stored stamp and the
commit stamp, every command that answers a next state leaves these numbers at or above the marks, the stored stamp again in
the same block of 2^31 as the commit stamp or later, and the rest of the queue as it was; so does every step. (R423, R424,
R457, R477, R490, R187) -/
def Obligations.NumbersNeverMoveBack : Prop :=
  (∀ (c : Instr) (s t : State) (m : Marks), Kept s.pending m s → exec c s = .next t → Kept s.pending m t)
    ∧ ∀ (s t : State) (m : Marks), Kept s.pending m s → step s = .next t → Kept s.pending.tail m t

/-- The state after reset satisfies the invariant of NumbersNeverMoveBack with the marks that the reset values themselves give:
commit stamp 0, power-on count 0, next LSEQ 1, next SEQ of the store and upkeep journals as shipped. (R423, R424, R457, R490) -/
def Obligations.NumbersAtResetAreKept : Prop :=
  Kept [] { commit := State.reset.life.commit, poc := State.reset.life.poc, lseq := State.reset.logs.nextLseq,
            storeSeq := State.reset.store.nextSeq, upkeepSeq := State.reset.upk.nextSeq } State.reset

/-- For every memory state, space, address and list of bytes, with or without poison: after the store every byte of the space
inside the stored range reads as the byte of the list at its place, and every byte outside the range, in that space and in
every other one, reads as before, also in a block of board memory whose valid bit was clear (which then reads as zeros); and
the canonical form of the memories is kept. (R433, R434, 06_tiers_and_shuttles.md) -/
def Obligations.StoreWritesItsBytesAlone : Prop :=
  ∀ (m : Memory) (sp : Space) (a : Nat) (bs : List Byte) (poison : Bool),
    (∀ i, i < bs.length → (m.store sp a bs poison).read sp (a + i) = bs.getD i 0)
    ∧ (∀ (sq : Space) (x : Nat), ¬ (sq = sp ∧ a ≤ x ∧ x < a + bs.length) → (m.store sp a bs poison).read sq x = m.read sq x)
    ∧ (m.wf = true → (m.store sp a bs poison).wf = true)

/-- FEED_EXCURSION keeps the voltage, starts the out timer outside the out thresholds and ends an out state inside them, and drops
availability outside the operating range, beyond the out thresholds only once the feed is out; inside the range it starts the
timer of a feed that is not available; nothing but the supply changes. FEED_AVAILABLE makes a feed whose timer runs available.
FEED_OUT on a feed whose out timer runs sets MAINOUT or BACKUPOUT and makes it out and not available; the main feed in use
then transfers to an available backup feed, setting TRANSFER, or begins a last gasp; the backup feed in use returns to a main
feed inside its thresholds, or begins a last gasp. MAIN_RETURN_QUALIFIED puts the main feed in use. LAST_GASP_END without a
feed in range ends in no power with the staged log lost and only store blocks with a program under way touched, with the third
converter fault of the hour in the boot state, else in a halt with a cold start due. HOLDUP_MEASURE keeps the energy and below
4.92 J sets HOLDUP. Option, trust and history state and the images do not change. (R514, R516, R517, R518, R521, R522, R523,
R520, 15_supplies_clocks_heat.md) -/
def Obligations.FeedEventsTakeEffect : Prop :=
  (∀ (f : FeedId) (mv : Int) (s : State), s.powered = true → ∃ t, exec (.feedExcursion f mv) s = .next t ∧
      (t.feed f).mv = mv ∧ (t.feed f).outTimer = !inside (feedOut f s.optv.isD2) mv
      ∧ (t.feed f).out = ((s.feed f).out && !inside (feedOut f s.optv.isD2) mv)
      ∧ (t.feed f).avail = ((s.feed f).avail && (inside (feedRange f s.optv.isD2) mv || !inside (feedOut f s.optv.isD2) mv))
      ∧ (t.feed f).availTimer = (inside (feedRange f s.optv.isD2) mv && !(t.feed f).avail)
      ∧ (∀ g, g ≠ f → t.feed g = s.feed g) ∧ { t with supply := s.supply } = s)
  ∧ (∀ (f : FeedId) (s : State), s.powered = true → (s.feed f).availTimer = true → ∃ t, exec (.feedAvailable f) s = .next t ∧
      t.feed f = { s.feed f with avail := true, availTimer := false } ∧ (∀ g, g ≠ f → t.feed g = s.feed g) ∧ { t with supply := s.supply } = s)
  ∧ (∀ (f : FeedId) (s : State), s.powered = true → (s.feed f).outTimer = true → (s.feed f).out = false →
      ∃ t, exec (.feedOut f) s = .next t ∧ (t.feed f).out = true ∧ (t.feed f).avail = false
        ∧ (t.logs.word 0).getLsbD (match f with | .main => 0 | .backup => 2) = true
        ∧ ((s.supply.active ≠ some f ∨ s.life.phase = .lastGasp) →
            Logged (s.updFeed f (fun x => { x with out := true, avail := false })) t [(0, match f with | .main => 0 | .backup => 2)])
        ∧ (s.supply.active = some f → s.life.phase ≠ .lastGasp →
            (f = .main → s.supply.backup.avail = true →
              t.supply.active = some .backup ∧ (t.logs.word 0).getLsbD 1 = true ∧ t.life.phase = s.life.phase)
            ∧ (f = .main → s.supply.backup.avail = false → t.life.phase = .lastGasp)
            ∧ (f = .backup → 34000 ≤ s.supply.main.mv → s.supply.main.mv ≤ 80000 → t.supply.active = some .main ∧ t.life.phase = s.life.phase)
            ∧ (f = .backup → (s.supply.main.mv < 34000 ∨ 80000 < s.supply.main.mv) → t.life.phase = .lastGasp)))
  ∧ (∀ s : State, s.powered = true → s.supply.active = some .backup → s.supply.returnTimer = true → s.life.phase ≠ .lastGasp →
      ∃ t, exec .mainReturnQualified s = .next t ∧ t.supply.active = some .main ∧ t.supply.lastReturn = some s.life.now
        ∧ (∀ f, t.feed f = s.feed f) ∧ { t with supply := s.supply, life := s.life, logs := s.logs } = s)
  ∧ (∀ s : State, s.life.phase = .lastGasp → ∃ t, exec .lastGaspEnd s = .next t ∧
      (s.anyFeed = false → t.life.phase = .unpowered ∧ t.supply.active = none ∧ t.logs.staged = [] ∧ t.doms = [] ∧ t.plls = []
        ∧ (∀ b, s.store.holds b = none → Tab.get {} t.store.pages b = Tab.get {} s.store.pages b)
        ∧ { t with life := s.life, supply := s.supply, logs := s.logs, doms := s.doms, plls := s.plls, draws := s.draws, store := { t.store with pages := s.store.pages } } = s)
      ∧ (s.anyFeed = true → s.life.cause = .converter → 3 ≤ s.recentFaults → t = { s with life := { s.life with phase := .bootHeld } })
      ∧ (s.anyFeed = true → (s.life.cause ≠ .converter ∨ s.recentFaults < 3) →
          t = { s with life := { s.life with phase := .halted, due := some .cold, cause := .none } })
      ∧ (s.anyFeed = true → { t with life := s.life } = s))
  ∧ (∀ (mj : Nat) (s : State), s.powered = true → ∃ t, exec (.holdupMeasure mj) s = .next t ∧ t.supply.holdupMj = mj
      ∧ (mj < 4920 → (t.logs.word 0).getLsbD 4 = true) ∧ (4920 ≤ mj → t.logs = s.logs)
      ∧ { t with supply := s.supply, life := s.life, logs := s.logs, comms := s.comms, out := s.out } = s)

/-- With Shepherd running boot code or firmware LOCKSTEP_MISMATCH sets LOCKSTEP, stops Shepherd and halts the module with a warm
restart due; with firmware running outside Rest SHEPHERD_WATCHDOG_EXPIRE does the same without a trouble bit. On a powered
module outside a last gasp CONVERTER_FAULT sets CONVERTER, begins a last gasp with cause converter and counts the fault.
TCXO_FAIL with a working oscillator sets PLL and leaves the module in the boot state with cause oscillator, in a last gasp it
only sets PLL. TRIP_RECOVERY in a trip that is not latched, with every sensor below 85 degrees, halts the module with a warm
restart due. The option and trust areas, the images and the supply, but for its waiting power requests, stay. (R58, R491,
R522, R523, R525, R531, R452) -/
def Obligations.HaltsTakeEffect : Prop :=
  (∀ s : State, s.shepherdOn = true → ∃ t, exec .lockstepMismatch s = .next t
      ∧ Logged { s with life := { s.life with phase := .halted, due := some .warm, shepherdUp := false } } t [(2, 13)])
  ∧ (∀ s : State, s.fwUp = true → s.life.phase ≠ .rest → exec .shepherdWatchdogExpire s
      = .next { s with life := { s.life with phase := .halted, due := some .warm, shepherdUp := false } })
  ∧ (∀ s : State, s.powered = true → s.life.phase ≠ .lastGasp → ∃ t, exec .converterFault s = .next t
      ∧ (t.logs.word 0).getLsbD 12 = true ∧ t.life.phase = .lastGasp ∧ t.life.cause = .converter ∧ t.life.due = none
      ∧ t.life.convFaults = s.life.convFaults ++ [s.life.clock] ∧ { t.supply with waiting := s.supply.waiting } = s.supply ∧ t.opt = s.opt ∧ t.trust = s.trust ∧ t.img = s.img)
  ∧ (∀ s : State, s.powered = true → s.life.tcxoOk = true → ∃ t, exec .tcxoFail s = .next t
      ∧ (t.logs.word 0).getLsbD 11 = true ∧ t.life.tcxoOk = false
      ∧ (s.life.phase = .lastGasp → Logged { s with life := { s.life with tcxoOk := false } } t [(0, 11)])
      ∧ (s.life.phase ≠ .lastGasp → t.life.phase = .bootHeld ∧ t.life.cause = .tcxo ∧ t.life.due = none)
      ∧ { t.supply with waiting := s.supply.waiting } = s.supply ∧ t.opt = s.opt ∧ t.trust = s.trust ∧ t.img = s.img)
  ∧ (∀ s : State, s.life.phase = .tripped → s.life.tripLatched = false → (∀ i, i < 64 → s.usedTemp i < 850) →
      exec .tripRecovery s = .next { s with life := { s.life with phase := .halted, due := some .warm } })

/-- PLL_LOCK of a running stack's arithmetic or network PLL marks it locked with no failed tries; a running base-die PLL's lock
marks it locked in the same way. PLL_LOCK_TIMEOUT of an unlocked PLL of a running stack counts the try and sets PLL while
fewer than three tries have failed; for a base-die PLL before a cold start it counts the try and sets PLL. THERMAL_SAMPLE on a
powered module keeps the readings given for the 64 sensors, and where a sensor in use then reads 110 degrees or more with
firmware running the module trips and TRIP is set. THROTTLE_STEP_DOWN at 100 degrees or more takes the stack one step down, no
lower than step 2, and sets THROTTLE on the first; THROTTLE_STEP_UP below 97 degrees takes it one step up. BUDGET_CLOCK_STEP
keeps the measured draw and the estimates measured for running contexts; where the module is within the budget and the package
within 340 W it ends a cut, else it lowers every running stack above step 2 by one and sets CUT. (R64, R65, R305, R526, R529,
R530, R531, 15_supplies_clocks_heat.md) -/
def Obligations.ClockAndHeatCommandsTakeEffect : Prop :=
  (∀ (k : Nat) (s : State), (s.clk k).running = true →
      exec (.pllLock (.arith k)) s = .next (s.updClk k (fun c => { c with arithLocked := true, arithTries := 0 }))
      ∧ exec (.pllLock (.network k)) s = .next (s.updClk k (fun c => { c with netLocked := true, netTries := 0 })))
  ∧ (∀ (p : Pll) (n : Nat) (s : State), p.base? = some n → (Tab.get {} s.plls n).running = true →
      exec (.pllLock p) s = .next (s.updPll n (fun c => { c with locked := true, tries := 0 })))
  ∧ (∀ (k : Nat) (s : State), (s.clk k).running = true →
      ((s.clk k).arithLocked = false → (s.clk k).arithTries < 2 → ∃ t, exec (.pllLockTimeout (.arith k)) s = .next t
        ∧ Logged (s.updClk k (fun c => { c with arithTries := c.arithTries + 1 })) t [(0, 11)])
      ∧ ((s.clk k).netLocked = false → (s.clk k).netTries < 2 → ∃ t, exec (.pllLockTimeout (.network k)) s = .next t
        ∧ Logged (s.updClk k (fun c => { c with netTries := c.netTries + 1 })) t [(0, 11)]))
  ∧ (∀ (p : Pll) (n : Nat) (s : State), p.base? = some n → s.life.phase = .halted → s.life.due = some .cold →
      ∃ t, exec (.pllLockTimeout p) s = .next t
        ∧ Logged (s.updPll n (fun c => { c with tries := c.tries + 1, running := decide (c.tries < 2) })) t [(0, 11)])
  ∧ (∀ (temps : List Int) (s : State), s.powered = true → temps.length = 64 → ∃ t, exec (.thermalSample temps) s = .next t
      ∧ (∀ i v, temps[i]? = some v → t.temp i = v)
      ∧ (t.hot = true → s.fwUp = true → t.life.phase = .tripped ∧ (t.logs.word 0).getLsbD 6 = true)
      ∧ (t.hot = false → t.life.phase = s.life.phase) ∧ t.excluded = (List.range 32).filterMap (s.readTemps temps).excludedOf
      ∧ { t.supply with waiting := s.supply.waiting } = s.supply ∧ (∀ a, inAway a = false → t.mem.read .board a = s.mem.read .board a)
      ∧ (∀ sp a, sp ≠ Space.board → t.mem.read sp a = s.mem.read sp a) ∧ (s.img.active = none → t.mem = s.mem)
      ∧ t.opt = s.opt ∧ t.trust = s.trust ∧ t.img = s.img ∧ t.ctxs = s.ctxs)
  ∧ (∀ (k : Nat) (s : State), s.powered = true → k < 4 → 1000 ≤ s.stackTemp k → 2 < (s.clk k).thermStep → ∃ t, exec (.throttleStepDown k) s = .next t
      ∧ Logged (s.updClk k (fun c => { c with thermStep := c.thermStep - 1 })) t (if (s.clk k).thermStep = 8 then [(0, 5)] else []))
  ∧ (∀ (k : Nat) (s : State), s.powered = true → k < 4 → s.stackTemp k < 970 → (s.clk k).thermStep < (s.clk k).budgetStep →
      exec (.throttleStepUp k) s = .next (s.updClk k (fun c => { c with thermStep := min 8 (c.thermStep + 1) })))
  ∧ (∀ (draw pkg : Nat) (estimates : List (Nat × Nat)) (s : State), s.powered = true →
      ∃ t, exec (.budgetClockStep { draw := draw, pkg := pkg, estimates := estimates }) s = .next t ∧ t.supply.draw = draw
      ∧ (∀ c e, estimates = [(c, e)] → (s.ctx c).live = true → (t.ctx c).estimate = e)
      ∧ (draw ≤ s.inForce → pkg ≤ 3400 → t.supply.cutting = false ∧ t.clks = s.clks ∧ t.logs = s.logs ∧ (estimates = [] → t.ctxs = s.ctxs))
      ∧ (s.inForce < draw ∨ 3400 < pkg → t.supply.cutting = true ∧ ∀ k, k < 4 → (s.clk k).running = true → 2 < (s.clk k).step →
          (t.clk k).budgetStep = (s.clk k).step - 1 ∧ (t.logs.word 0).getLsbD 8 = true)
      ∧ t.mem = s.mem ∧ t.opt = s.opt ∧ t.trust = s.trust ∧ t.img = s.img)

/-- A cold start that is due (a feed in range on an unpowered module, or a halted one), with a valid option copy, oscillator,
locked base-die PLLs and a bank that boots, and a warm restart that is due on a halted module, with a valid option copy,
oscillator and a bank that boots, run to their end: the next state is Ready, its queue as before, its power-on count greater,
its commit stamp at least 2^32 above the stored one, and at a warm restart above the last one too. A start that lacks one of
these ends in the boot state with that cause: no valid option copy, no oscillator, PLLs that failed (a cold start, which sets
PLL), no bank that boots; Kennel is then locked and no session is open. A warm restart whose retention checks fail raises
RETAINLOST and goes on as a cold start. (R424, R434, R483, R484, R489, R490, R491, R493, R525, R526) -/
def Obligations.StartsTakeEffect : Prop :=
  (∀ (b : BootFacts) (s : State) (o : Options) (n : Nat) (fall : Bool), s.coldDue b = true → s.opt.atReset b = some o → b.tcxoOk = true →
      ((s.startFeeds b).resetTo o b true false).bootPllsFail b = false → ({ s with opt := o } : State).bootBank b = some (n, fall) →
      ∃ t, exec (.coldStart b) s = .next t ∧ t.life.phase = .ready ∧ t.pending = s.pending ∧ s.life.poc < t.life.poc
        ∧ s.life.storedStamp + 2 ^ 32 ≤ t.life.commit)
  ∧ (∀ (b : BootFacts) (s : State) (o : Options) (n : Nat) (fall : Bool), s.life.phase = .halted → s.life.due = some .warm → b.retainOk = true →
      s.opt.atReset b = some o → b.tcxoOk = true → ({ s with opt := o } : State).bootBank b = some (n, fall) →
      ∃ t, exec (.warmRestart b) s = .next t ∧ t.life.phase = .ready ∧ t.pending = s.pending ∧ s.life.poc < t.life.poc
        ∧ s.life.commit < t.life.commit ∧ s.life.storedStamp + 2 ^ 32 ≤ t.life.commit)
  ∧ (∀ (b : BootFacts) (s : State), s.coldDue b = true →
      (s.opt.atReset b = none → ∃ t, exec (.coldStart b) s = .next t ∧ t.life.phase = .bootHeld ∧ t.life.cause = .noOption ∧ t.sids = [] ∧ t.kennel = {})
      ∧ ∀ o, s.opt.atReset b = some o →
        (b.tcxoOk = false → ∃ t, exec (.coldStart b) s = .next t ∧ t.life.phase = .bootHeld ∧ t.life.cause = .tcxo ∧ t.sids = [] ∧ t.kennel = {})
        ∧ (b.tcxoOk = true → ((s.startFeeds b).resetTo o b true false).bootPllsFail b = true → ∃ t, exec (.coldStart b) s = .next t
            ∧ t.life.phase = .bootHeld ∧ t.life.cause = .pll ∧ (t.logs.word 0).getLsbD 11 = true ∧ t.sids = [] ∧ t.kennel = {})
        ∧ (b.tcxoOk = true → ((s.startFeeds b).resetTo o b true false).bootPllsFail b = false → ({ s with opt := o } : State).bootBank b = none →
            ∃ t, exec (.coldStart b) s = .next t ∧ t.life.phase = .bootHeld ∧ t.life.cause = .noBank ∧ t.sids = [] ∧ t.kennel = {}))
  ∧ (∀ (b : BootFacts) (s : State), s.life.phase = .halted → s.life.due = some .warm →
      (s.opt.atReset b = none → ∃ t, exec (.warmRestart b) s = .next t ∧ t.life.phase = .bootHeld ∧ t.life.cause = .noOption ∧ t.sids = [] ∧ t.kennel = {})
      ∧ (b.retainOk = false → exec (.warmRestart b) s = .next ((s.raise 1 14 12).startFrom b true true true)))

/-- Where the conditions of Rest hold, REST_ENTER makes the phase Rest and stops every PLL of the base die and leaves on only the
always-on, stream-ingress and command-port domains. DOMAIN_GATE of a domain that is on and may be off turns it off, and stops
the PLLs of a stack with its last cluster common domain. DOMAIN_POWER_UP_DONE of a domain that is waking and has what it needs
turns it on; for a cluster common domain with no image in force every byte of that cluster's SRAM, core SRAM and engine SRAM
reads 0 after and every other byte of every memory as before. ENGINE_CLOCK_GATE of an engine in a core with no running thread,
no load and no codebook load stops its clock. Everything else stays. (R51, R65, R67, R68, R69, R70, R72, R378, R436) -/
def Obligations.DomainCommandsTakeEffect : Prop :=
  (∀ s : State, s.mayRest = true → exec .restEnter s = .next { s with
      life := { s.life with phase := .rest }, plls := [], doms := s.doms.filter (fun e => decide (e.1 = 106 ∨ e.1 = 107 ∨ e.1 = 111)) })
  ∧ (∀ (d : Dom) (s : State), s.domOn d = true → s.mayGate d = true →
      (∀ c, d ≠ .clusterCommon c) → exec (.domainGate d) s = .next (s.setDom d .off))
  ∧ (∀ (c : Nat) (s : State), s.domOn (.clusterCommon c) = true → s.mayGate (.clusterCommon c) = true →
      ∃ t, exec (.domainGate (.clusterCommon c)) s = .next t ∧ t.doms = Tab.set .off s.doms (64 + c) .off ∧ { t with doms := s.doms, clks := s.clks } = s
        ∧ ((∀ i, i < 8 → i ≠ c % 8 → s.dom (.clusterCommon (8 * (c / 8) + i)) = .off) → (t.clk (c / 8)).running = false)
        ∧ ((∃ i, i < 8 ∧ i ≠ c % 8 ∧ s.dom (.clusterCommon (8 * (c / 8) + i)) ≠ .off) → t.clks = s.clks))
  ∧ (∀ (d : Dom) (ok : Bool) (s : State), s.dom d = .waking → s.powered = true → d.exists? = true → s.domReady d = true →
      ((∀ c, d ≠ .clusterCommon c) → exec (.domainPowerUpDone d ok) s = .next (s.setDom d .on))
      ∧ (∀ c, d = .clusterCommon c → s.image = none → ∃ t, exec (.domainPowerUpDone d ok) s = .next t ∧ t.dom d = .on
        ∧ (∀ (sp : Space) (x : Nat), t.mem.read sp x =
            if (sp = .cluster ∧ 4194304 * c ≤ x ∧ x < 4194304 * (c + 1)) ∨ (sp = .core ∧ 4194304 * c ≤ x ∧ x < 4194304 * (c + 1))
              ∨ (sp = .engine ∧ 4718592 * c ≤ x ∧ x < 4718592 * (c + 1)) then 0 else s.mem.read sp x)
        ∧ { t with doms := s.doms, mem := s.mem, ing := s.ing } = s))
  ∧ (∀ (e : Nat) (s : State), (∀ t, t ∈ coreThreads (e / 9) → (s.thread t).state ≠ .running) → (s.engine e).load = none → (s.engine e).cbLoading = [] →
      exec (.engineClockGate e) s = .next (s.updEngine e (fun x => { x with clockOn := false })))

/-- A step that its core issues, with operands inside their SRAM, runs and then waits for its completion; it writes within its
destination operand only (a vector operation that keeps a state also at its C operand), changes no other thread, and of the
rest only engines, cores and what a memory event touches. A panel step whose plane is active, in service, with its pump on
writes no memory, and every accumulator it leaves lies in the INT32 range. A digital matmul whose codebook stands in its slot,
a vector operation that is no reserved one, a rotation and a requantisation complete on every operand value. (R96, R125, R147,
R150, R152, R153, R246, R248, R252, 04_numbers.md) -/
def Obligations.ComputeStepsRun : Prop :=
  (∀ (th : Nat) (dev : List (List Int)) (s : State), s.issues th 0 = true →
      s.badRef th [({ space := 1, engine := rf (s.recordOf th) 247 245, offset := rf (s.recordOf th) 217 202 },
        panelIn (rf (s.recordOf th) 229 227) (rf (s.recordOf th) 235 230 *
          rowsOf (s.blockAt (s.panelAt th (s.recordOf th)).1 (s.panelAt th (s.recordOf th)).2).file.gsize))] = none →
      s.planeAway (s.panelAt th (s.recordOf th)).1 (s.panelAt th (s.recordOf th)).2 = false →
      s.domOn (.chargePump ((s.panelAt th (s.recordOf th)).1 / 576)) = true →
      (s.engine (s.panelAt th (s.recordOf th)).1).active = some (s.panelAt th (s.recordOf th)).2 →
      ∃ t, exec (.panelMatvec th dev) s = .next t ∧ StepRan s t th []
        ∧ ((∀ j, -(2 ^ 31) ≤ Tab.get 0 (s.engine (s.physEngine (th / 16) (rf (s.recordOf th) 247 245))).accs j
              ∧ Tab.get 0 (s.engine (s.physEngine (th / 16) (rf (s.recordOf th) 247 245))).accs j ≤ 2 ^ 31 - 1) →
            ∀ j, -(2 ^ 31) ≤ Tab.get 0 (t.engine (s.physEngine (th / 16) (rf (s.recordOf th) 247 245))).accs j
              ∧ Tab.get 0 (t.engine (s.physEngine (th / 16) (rf (s.recordOf th) 247 245))).accs j ≤ 2 ^ 31 - 1))
  ∧ (∀ (th : Nat) (s : State), s.issues th 1 = true →
      s.badRef th [({ space := 1, engine := (mmRec (s.recordOf th)).engine, offset := (mmRec (s.recordOf th)).waddr },
          wBytes (mmRec (s.recordOf th)).mode (mmRec (s.recordOf th)).wcode ((mmRec (s.recordOf th)).kt * (mmRec (s.recordOf th)).nt)),
        ({ space := 1, engine := (mmRec (s.recordOf th)).engine, offset := (mmRec (s.recordOf th)).xaddr },
          xBytes (mmRec (s.recordOf th)).mode ((mmRec (s.recordOf th)).b * (mmRec (s.recordOf th)).kt * 16)),
        ({ space := 1, engine := (mmRec (s.recordOf th)).engine, offset := (mmRec (s.recordOf th)).oaddr },
          4 * (mmRec (s.recordOf th)).b * (mmRec (s.recordOf th)).nt * 16)] = none →
      ((mmRec (s.recordOf th)).wcode = 0 ∨ (s.engine (s.physEngine (th / 16) (mmRec (s.recordOf th)).engine)).cbLoading.contains (mmRec (s.recordOf th)).slot = false
          ∧ Tab.get [] (s.engine (s.physEngine (th / 16) (mmRec (s.recordOf th)).engine)).codebooks (mmRec (s.recordOf th)).slot
        = mmBook (mmRec (s.recordOf th)) (s.fetch th { space := 1, engine := (mmRec (s.recordOf th)).engine, offset := (mmRec (s.recordOf th)).waddr }
            (wBytes (mmRec (s.recordOf th)).mode (mmRec (s.recordOf th)).wcode ((mmRec (s.recordOf th)).kt * (mmRec (s.recordOf th)).nt))).1) →
      ∃ t, exec (.digitalMatmul th) s = .next t ∧ StepRan s t th
        [({ space := 1, engine := (mmRec (s.recordOf th)).engine, offset := (mmRec (s.recordOf th)).oaddr }, 4 * (mmRec (s.recordOf th)).b * (mmRec (s.recordOf th)).nt * 16)])
  ∧ (∀ (th la lb lc ld : Nat) (gap : Bool) (s : State), s.issues th 2 = true →
      vLens (rf (s.recordOf th) 247 240) (vCount (s.recordOf th)) (vSize (rf (s.recordOf th) 223 222)) (s.layerOf th (rf (s.recordOf th) 125 110)).size = some (la, lb, lc, ld) →
      s.badRef th [(rRef (s.recordOf th) 198, la), (rRef (s.recordOf th) 174, lb), (rRef (s.recordOf th) 150, lc), (rRef (s.recordOf th) 126, ld)] = none →
      ∃ t, exec (.vectorOp { thread := th, gap := gap }) s = .next t ∧ StepRan s t th
        ((rRef (s.recordOf th) 126, ld) :: (if rf (s.recordOf th) 247 240 = 0x28 ∨ rf (s.recordOf th) 247 240 = 0x2B then [(rRef (s.recordOf th) 150, lc)] else [])))
  ∧ (∀ (th : Nat) (s : State), s.issues th 3 = true →
      s.badRef th [(rRef (s.recordOf th) 220, 4 * rf (s.recordOf th) 171 156), (rRef (s.recordOf th) 196, 4 * rf (s.recordOf th) 171 156),
        (rRef (s.recordOf th) 172, rf (s.recordOf th) 171 156 / 8)] = none →
      ∃ t, exec (.rotate th) s = .next t ∧ StepRan s t th [(rRef (s.recordOf th) 196, 4 * rf (s.recordOf th) 171 156)])
  ∧ (∀ (th : Nat) (gap : Bool) (s : State), s.issues th 4 = true →
      s.badRef th [(rRef (s.recordOf th) 172, outBytes (rf (s.recordOf th) 243 241) (rf (s.recordOf th) 147 132)),
        (rRef (s.recordOf th) 148, 4 * rf (s.recordOf th) 147 132),
        (rRef (s.recordOf th) 197, if rf (s.recordOf th) 247 247 = 0 ∧ rf (s.recordOf th) 196 196 = 0 then 0 else 4 * rf (s.recordOf th) 147 132)] = none →
      ∃ t, exec (.requant th gap) s = .next t
        ∧ StepRan s t th [(rRef (s.recordOf th) 172, outBytes (rf (s.recordOf th) 243 241) (rf (s.recordOf th) 147 132))])

/-- A submit, issued or no longer stalled, makes K more descriptors of its ring eligible, sets the bases that it names, and is
done, while one that does not fit stalls its thread on the ring. A local signal record puts one signal behind those on their
way. A wait with an expected value of OFFSET + STRIDE times ITER in 64-bit signed arithmetic at most the value of its bound
counter, or not above 0, is done; with a higher one, and an entry free, the thread sleeps and stands last among the counter's
waiters. A fence of scope module is done. A barrier arrive within the module on a bound counter signals 1. A stall on a
codebook or a plane file that is no longer loading ends. A completed step of a live context that is not its program's last
makes the thread Ready at the next record, and one of a context that is not started leaves it Faulted where that context is
Faulted, and frees it otherwise. Nothing else changes but what is named. (R223, R246, R252, R257, R258, R259, R268, R272,
07_threads_and_counters.md) -/
def Obligations.SyncStepsRun : Prop :=
  (∀ (c : Instr) (th : Nat) (s : State) (x : Ring), (s.ring (ringNo th (s.recordOf th))).submit (rf (s.recordOf th) 241 231) false = some x →
      ((c = .shuttleSubmit th ∧ s.issues th 5 = true) ∨ (c = .shuttleSubmitUnstall th ∧ (s.thread th).state = .stalled
          ∧ (s.thread th).waits = .ring ∧ (s.thread th).catchUp = false)) →
      ∃ t, exec c s = .next t ∧ (t.thread th).state = .running ∧ (t.thread th).done = true
        ∧ t.ring (ringNo th (s.recordOf th)) = { x with sbase := if rf (s.recordOf th) 230 230 = 1 then rf (s.recordOf th) 228 189 else x.sbase
                                                        dbase := if rf (s.recordOf th) 229 229 = 1 then rf (s.recordOf th) 188 149 else x.dbase }
        ∧ (∀ n, n ≠ ringNo th (s.recordOf th) → t.ring n = s.ring n) ∧ (∀ u, u ≠ th → t.thread u = s.thread u)
        ∧ { t with rings := s.rings, threads := s.threads } = s)
  ∧ (∀ (th : Nat) (s : State), s.issues th 5 = true → (s.ring (ringNo th (s.recordOf th))).submit (rf (s.recordOf th) 241 231) false = none →
      exec (.shuttleSubmit th) s = .next (s.updThread th (fun x => { x with state := .stalled, done := false, waits := .ring })))
  ∧ (∀ (th : Nat) (s : State), s.issues th 6 = true → rf (s.recordOf th) 203 203 ≠ 1 →
      ∃ t, exec (.counterSignal th) s = .next t ∧ StepRan { s with sync := { s.sync with signals := s.sync.signals ++
        [{ who := th, ctx := (s.thread th).ctx, id := rf (s.recordOf th) 247 236, delta := rf (s.recordOf th) 235 204 }] } } t th [])
  ∧ (∀ (th : Nat) (s : State) (e : Int), s.issues th 7 = true →
      e = signed 64 (unsigned 64 (signed 48 (rf (s.recordOf th) 235 188) + (rf (s.recordOf th) 187 172 * (s.thread th).iter : Nat))) →
      ∃ t, exec (.counterWait th) s = .next t
        ∧ (e ≤ 0 → StepRan s t th [] ∧ (t.thread th).wstat = 0)
        ∧ (∀ p, 0 < e → s.physOf (s.thread th).ctx (rf (s.recordOf th) 247 236) = some p → (s.counter p).orphaned = false →
            (e ≤ ((s.counter p).value : Int) → StepRan s t th [] ∧ (t.thread th).wstat = 0)
            ∧ (((s.counter p).value : Int) < e → s.usedAt (homeOf p) < 1024 →
                (t.thread th).state = .sleeping ∧ (t.counter p).waiters = (s.counter p).waiters ++ [{ who := .thread th, expect := e.toNat }]
                  ∧ (t.counter p).value = (s.counter p).value ∧ t.usedAt (homeOf p) = s.usedAt (homeOf p) + 1
                  ∧ (∀ q, q ≠ p → t.counter q = s.counter q) ∧ (∀ u, u ≠ th → t.thread u = s.thread u) ∧ { t with sync := s.sync, threads := s.threads } = s)))
  ∧ (∀ (th : Nat) (s : State), s.issues th 8 = true → rf (s.recordOf th) 247 246 = 0 →
      ∃ t, exec (.fence th) s = .next t ∧ StepRan s t th [] ∧ (t.thread th).unseen = [])
  ∧ (∀ (th : Nat) (s : State), s.issues th 9 = true → rf (s.recordOf th) 203 203 ≠ 1 →
      (∃ p, s.physOf (s.thread th).ctx (rf (s.recordOf th) 247 236) = some p ∧ (s.counter p).orphaned = false) →
      ∃ t, exec (.barrierArrive th) s = .next t ∧ (t.thread th).unseen = [] ∧ (t.thread th).pc = (s.thread th).pc
        ∧ t.sync.signals = s.sync.signals ++ [{ who := th, ctx := (s.thread th).ctx, id := rf (s.recordOf th) 247 236, delta := 1 }] ∧ t.mem = s.mem ∧ t.pack = s.pack)
  ∧ (∀ (th : Nat) (s : State), (s.thread th).state = .stalled →
      (((s.thread th).waits = .codebook ∧ (s.engine (s.physEngine (th / 16) (mmRec (s.recordOf th)).engine)).cbLoading.contains (mmRec (s.recordOf th)).slot = false)
        ∨ ((s.thread th).waits = .planeFile ∧ (s.engine (s.panelAt th (s.recordOf th)).1).load = none)) →
      exec (.unitBusyStallEnd th) s = .next (s.updThread th (fun x => { x with state := .ready, waits := .none })))
  ∧ (∀ (th : Nat) (s : State), (s.thread th).state = .running → (s.thread th).done = true →
      ((s.ctx (s.thread th).ctx).started = false → ∀ tok, exec (.stepComplete th tok) s
        = .next (s.updThread th (fun y => if (s.ctx (s.thread th).ctx).state = .faulted then { y with state := .faulted, done := false, waits := .none } else y.freed)))
      ∧ ((s.ctx (s.thread th).ctx).live = true → (s.thread th).catchUp = false → rEnd (s.recordOf th) = false →
          ∃ t, exec (.stepComplete th none) s = .next t ∧ (t.thread th).state = .ready ∧ (t.thread th).pc = (s.thread th).pc + 1
            ∧ (t.thread th).iter = (s.thread th).iter ∧ (∀ u, u ≠ th → t.thread u = s.thread u) ∧ { t with threads := s.threads, ctxs := s.ctxs } = s
            ∧ ∀ c, c ≠ (s.thread th).ctx → t.ctx c = s.ctx c))

/-- PLANE_FILE_LOAD_DONE of an engine that loads a file puts that plane in the shadow bank, ends the load and leaves the active
bank alone; but for the records and refetches that uncorrectable words of the file ask for, everything else stands.
CODEBOOK_LOAD_DONE of a slot that loads and that no running step uses ends that slot's load; the engine's other slots stand.
READING_CLOSE of a reading whose 1,024 evaluations are complete takes it off those that wait; a gain outside 0.8 to 1.25 of
nominal makes a plane that is neither degraded nor away degraded, forgets the kept readings and sets the trouble bit, another
gain is kept first with at most two before it. Other readings, other engines, and all memory but the away region stand. (R83,
R98, R99, R101, R118, R121, 03_array_panels.md) -/
def Obligations.LoadsAndReadingsEnd : Prop :=
  (∀ (e : Nat) (s : State) (l : PlaneLoad), (s.engine e).load = some l → ∃ t, exec (.planeFileLoadDone e) s = .next t
      ∧ (t.engine e).load = none ∧ (t.engine e).shadow = some l.plane ∧ (t.engine e).active = (s.engine e).active
      ∧ (t.engine e).activeFile = (s.engine e).activeFile ∧ (∀ k, k ≠ e → t.engine k = s.engine k) ∧ (s.mem.poison = [] → { t with engines := s.engines } = s)
      ∧ { t with engines := s.engines, mem := { t.mem with tainted := s.mem.tainted, refetch := s.mem.refetch }, logs := s.logs, comms := s.comms, out := s.out
                 life := { t.life with commit := s.life.commit, storedStamp := s.life.storedStamp } } = s)
  ∧ (∀ (e slot : Nat) (s : State), (s.engine e).cbLoading.contains slot = true → s.slotBusy e slot = false → ∃ t, exec (.codebookLoadDone e slot) s = .next t
      ∧ (t.engine e).cbLoading = (s.engine e).cbLoading.filter (· ≠ slot)
      ∧ (∀ k, k ≠ slot → Tab.get [] (t.engine e).codebooks k = Tab.get [] (s.engine e).codebooks k)
      ∧ (∀ k, k ≠ e → t.engine k = s.engine k) ∧ { t with engines := s.engines } = s)
  ∧ (∀ (e lp g : Nat) (s : State) (f : PlaneFile) (y : Nat × Nat × Nat) (rest : List (Nat × Nat × Nat)), (s.engine e).fileOf lp = some f →
      ((s.engine e).reading lp g).due = y :: rest → y.1 ≠ 0 → f.vmax ≠ 0 → g < 32 → ∃ t, exec (.readingClose e lp g) s = .next t
      ∧ ((t.engine e).reading lp g).due = rest ∧ ((t.engine e).reading lp g).n = ((s.engine e).reading lp g).n
      ∧ (∀ lp2 g2, g2 < 32 → (lp2, g2) ≠ (lp, g) → (t.engine e).reading lp2 g2 = (s.engine e).reading lp2 g2)
      ∧ (∀ k, k ≠ e → t.engine k = s.engine k)
      ∧ (gainRefused f (readingValues f y).1 = true →
          ((t.engine e).reading lp g).gains = [] ∧ ((t.engine e).reading lp g).closed = 0 ∧ (t.logs.word 1).getLsbD 18 = true
            ∧ (Tab.get 0 (s.engine e).cond lp ≤ 1 → Tab.get 0 (t.engine e).cond lp = 2) ∧ t.mem = s.mem)
      ∧ (gainRefused f (readingValues f y).1 = false →
          ((t.engine e).reading lp g).gains = ((q32 (readingValues f y).1).v :: ((s.engine e).reading lp g).gains).take 3
            ∧ ((t.engine e).reading lp g).offs = ((q32 (readingValues f y).2).v :: ((s.engine e).reading lp g).offs).take 3
            ∧ ((t.engine e).reading lp g).closedAt = some s.life.now ∧ t.logs = s.logs)
      ∧ (∀ a, inAway a = false → t.mem.read .board a = s.mem.read .board a) ∧ (∀ sp a, sp ≠ Space.board → t.mem.read sp a = s.mem.read sp a)
      ∧ t.ctxs = s.ctxs ∧ t.threads = s.threads ∧ t.cores = s.cores ∧ t.img = s.img ∧ t.opt = s.opt ∧ t.trust = s.trust ∧ t.supply = s.supply)

/-- A signal on its way, with no earlier one for the same id and its home powered, leaves the way; at a bound counter that is not
orphaned the value rises by the delta, stopping at 2^64 - 1 with SAT, the compares it meets leave the table and no other
counter changes; at an unbound id or an orphaned counter a signal of a step leaves every value and sets the misuse bit. A
barrier release that arrives wakes each thread of its cluster that waits for it. WAITER_WAKE of a sleeping thread that its
counter met makes it Ready at its next record. A registration tried again at a powered home enters the table where an entry is
free and the value is still too low, and wakes its thread where the value is reached. WATCHDOG_EXPIRE of a live context with a
thread in progress, its watchdog time passed and no stop owed faults it with cause 0x300 and sets the fault bit. No memory
changes. (R257, R258, R260, R261, R265, R266, R272, R277, R278, 07_threads_and_counters.md) -/
def Obligations.CounterEventsTakeEffect : Prop :=
  (∀ (k : Nat) (s : State) (g : Signal), s.sync.signals[k]? = some g → (s.sync.signals.take k).any (fun e => decide (e.ctx = g.ctx ∧ e.id = g.id)) = false →
      (∀ p, s.physOf g.ctx g.id = some p → s.homeUp p = true) →
      ∃ t, exec (.counterSignalApply k) s = .next t ∧ t.sync.signals = s.sync.signals.eraseIdx k ∧ t.mem = s.mem
        ∧ (∀ p, s.physOf g.ctx g.id = some p → (s.counter p).orphaned = false →
            (t.counter p).value = min ((s.counter p).value + g.delta) (2 ^ 64 - 1)
            ∧ (t.counter p).sat = ((s.counter p).sat || decide (2 ^ 64 - 1 < (s.counter p).value + g.delta)) ∧ (t.counter p).lastSig = g.who
            ∧ (t.counter p).waiters = (s.counter p).waiters.filter (fun w => decide ((t.counter p).value < w.expect))
            ∧ ∀ q, q ≠ p → t.counter q = s.counter q)
        ∧ (g.from_ = none → (s.physOf g.ctx g.id = none ∨ ∃ p, s.physOf g.ctx g.id = some p ∧ (s.counter p).orphaned = true) →
            (t.logs.word 2).getLsbD 1 = true ∧ ∀ q, (t.counter q).value = (s.counter q).value ∧ (t.counter q).waiters = (s.counter q).waiters))
  ∧ (∀ (k : Nat) (s : State) (m : ReleaseMsg), s.sync.releases[k]? = some m → ∃ t, exec (.barrierReleaseReceipt k) s = .next t
      ∧ t.sync.releases = s.sync.releases.eraseIdx k ∧ t.sync.woken = s.sync.woken ++ s.barrierThreads m ∧ t.sync.counters = s.sync.counters ∧ t.mem = s.mem)
  ∧ (∀ (th : Nat) (s : State), s.sync.woken.contains th = true → s.coreUp th = true → (s.thread th).state = .sleeping → (s.thread th).wstat = 0 →
      (s.thread th).catchUp = false → (s.ctx (s.thread th).ctx).live = true → rEnd (s.recordOf th) = false → ∃ t, exec (.waiterWake th) s = .next t
        ∧ (t.thread th).state = .ready ∧ (t.thread th).pc = (s.thread th).pc + 1 ∧ t.sync.woken = s.sync.woken.filter (· ≠ th)
        ∧ (∀ u, u ≠ th → t.thread u = s.thread u) ∧ { t with threads := s.threads, ctxs := s.ctxs, sync := s.sync } = s)
  ∧ (∀ (k : Nat) (s : State) (p : Nat) (w : Compare), s.sync.blocked[k]? = some (p, w) → s.homeUp p = true → (s.counter p).orphaned = false →
      ((s.counter p).value < w.expect → s.usedAt (homeOf p) < 1024 → ∃ t, exec (.compareRegistrationRetry k) s = .next t
        ∧ t.sync.blocked = s.sync.blocked.eraseIdx k ∧ (t.counter p).waiters = (s.counter p).waiters ++ [w] ∧ t.usedAt (homeOf p) = s.usedAt (homeOf p) + 1
        ∧ (∀ q, q ≠ p → t.counter q = s.counter q) ∧ { t with sync := s.sync } = s)
      ∧ (∀ th, w.who = .thread th → w.expect ≤ (s.counter p).value → ∃ t, exec (.compareRegistrationRetry k) s = .next t
        ∧ t.sync.blocked = s.sync.blocked.eraseIdx k ∧ t.sync.woken = s.sync.woken ++ [th] ∧ (t.thread th).wstat = 0 ∧ t.sync.counters = s.sync.counters ∧ t.mem = s.mem))
  ∧ (∀ (c : Nat) (s : State), s.isReady = true → (s.ctx c).live = true → s.idle c = false → (s.ctx c).alive + 1000 * (s.ctx c).wdog ≤ s.life.now → (s.ctx c).stopReq = none → ∃ t, exec (.watchdogExpire c) s = .next t
      ∧ (t.ctx c).state = .faulted ∧ (t.ctx c).cause = 0x300 ∧ (t.ctx c).pass = none ∧ (t.ctx c).pend = none ∧ (t.logs.word 2).getLsbD 0 = true
      ∧ t.mem = s.mem ∧ t.engines = s.engines ∧ { t.supply with waiting := s.supply.waiting } = s.supply ∧ t.img = s.img ∧ t.opt = s.opt ∧ t.trust = s.trust ∧ t.upk = s.upk)

/-- DESCRIPTOR_START of a ring that can start its head descriptor, ranks first in its cluster, has no domain to wait for, whose
word is good and which is skipped, a fetch or free of error, puts a flight of that descriptor behind those of the channel, and
the ring has one fewer eligible and one more in flight; its flight knows the bytes of its destination that others wrote
before; with a fence and descriptors in flight it waits. CHUNK_DONE of a fill to SRAM or board memory with no other flight
writing there and no address below 0 moves one chunk of up to 4 KiB: no byte outside the destination of the chunk's bytes
changes. DESCRIPTOR_COMPLETE of the first flight that has moved all its bytes and waits for no acknowledgement takes it off
the channel, leaves its ring with one fewer in flight, and sends its signals in order; one of a firmware ring leaves the
home's bytes with the engine that asked for them. No thread, option, trust or image state changes. (R216, R223, R224, R226,
R227, R233, R235, 06_tiers_and_shuttles.md) -/
def Obligations.ShuttleDescriptorsMove : Prop :=
  (∀ (r ch : Nat) (s : State) (f : Flight), ch / 4 = r / 64 → s.ringReady r = true → s.ringFirst r = true →
      f = { ring := r, desc := (s.ring r).headDesc, sbase := (s.ring r).sbase, dbase := (s.ring r).dbase, ctx := s.descCtx r (s.ring r).headDesc
            skip := (s.ring r).skipped.headD false, moved := if (s.ring r).skipped.headD false then dTotal (s.ring r).headDesc else 0 } →
      s.domOn (.clusterCommon (r / 64)) = true → (f.skip = true ∨ s.descDomains f.desc = []) → (f.skip = true ∨ f.isFetch = true ∨ s.descErr f = 0) →
      ∃ t, exec (.descriptorStart r { channel := ch }) s = .next t
        ∧ t.channel ch = s.channel ch ++ [{ f with rivals := s.writtenBefore f }]
        ∧ t.ring r = (s.ring r).started ∧ (∀ n, n ≠ r → t.ring n = s.ring n) ∧ (∀ n, n ≠ ch → t.channel n = s.channel n)
        ∧ { t with rings := s.rings, channels := s.channels } = s)
  ∧ (∀ (r : Nat) (pick : ChannelPick) (s : State), dFence (s.ring r).headDesc = true → (s.ring r).inflight ≠ 0 → exec (.descriptorStart r pick) s = .next s)
  ∧ (∀ (ch i : Nat) (s : State) (f : Flight), s.chunkFlight ch = some i → (s.channel ch)[i]? = some f → dDtier f.desc ≠ 6 → dMode f.desc = 2 → f.rivals = [] →
      f.isFetch = false → s.domOn (.clusterCommon (ch / 4)) = true →
      (∀ p, 0 ≤ runAddr (dDaddr f.desc f.dbase) (dSize f.desc) (df f.desc 271 240) p) →
      ∃ t, exec (.chunkDone ch []) s = .next t
        ∧ (t.channel ch).length = (s.channel ch).length ∧ (∃ g, g ∈ t.channel ch ∧ g.ring = f.ring ∧ g.desc = f.desc ∧ g.moved = f.moved + min 4096 (dTotal f.desc - f.moved))
        ∧ (∀ (sp : Space) (x : Nat), (∀ p, f.moved ≤ p → p < f.moved + min 4096 (dTotal f.desc - f.moved) → s.dstAt f p ≠ (sp, x)) → t.mem.read sp x = s.mem.read sp x)
        ∧ { t with channels := s.channels, mem := s.mem, life := { t.life with commit := s.life.commit, storedStamp := s.life.storedStamp },
                   logs := s.logs, comms := s.comms, out := s.out } = s)
  ∧ (∀ (ch i : Nat) (s : State) (f : Flight), (s.channel ch).findIdx? (fun f => decide (dTotal f.desc ≤ f.moved) && f.outstanding == 0) = some i →
      (s.channel ch)[i]? = some f → f.isFetch = false → ∃ t, exec (.descriptorComplete ch) s = .next t
        ∧ t.channel ch = (s.channel ch).eraseIdx i ∧ t.ring f.ring = (s.ring f.ring).finished ∧ (∀ n, n ≠ f.ring → t.ring n = s.ring n)
        ∧ t.sync.signals = s.sync.signals ++ (dSigs f.desc).map (fun p =>
            { who := word [(1, 13), (ch, 0)], ctx := f.ctx, id := p.1, delta := p.2, from_ := some (f.ring, dTag f.desc) })
        ∧ { t with channels := s.channels, rings := s.rings, sync := s.sync, ctxs := s.ctxs, mem := s.mem, io := s.io } = s
        ∧ (dDtier f.desc ≠ 6 → t.mem = s.mem))
  ∧ (∀ (ch i : Nat) (s : State) (f : Flight), (s.channel ch).findIdx? (fun f => decide (dTotal f.desc ≤ f.moved) && f.outstanding == 0) = some i →
      (s.channel ch)[i]? = some f → f.isFetch = true → dDtier f.desc ≠ 6 → ∃ t, exec (.descriptorComplete ch) s = .next t
        ∧ t.channel ch = (s.channel ch).eraseIdx i ∧ t.ring f.ring = (s.ring f.ring).finished
        ∧ (dTag f.desc / 32, dTag f.desc % 32, s.homeBytes (locToEngine (dDunit f.desc)) (dTag f.desc % 32)) ∈ (t.engine (locToEngine (dDunit f.desc))).fetched
        ∧ { t with channels := s.channels, rings := s.rings, engines := s.engines } = s)

/-- On a Ready module, PERIOD_RELEASE of a waiting watch context whose next period's last token is held, with every thread at its
boundary and nothing that awaits it, releases the period behind the last one: PT tokens, the deadline 2 PT - 1 + ALLOW tokens
after its first, every thread Ready at its base. MANDATORY_COMPLETION with every token answered and every mandatory record
done ends the mandatory part and issues the period's records. ITERATION_RELEASE of an inspect context with a running pass
starts every thread at its base. INSPECT_PASS_START on a module of its own opens a ready pass whose range is still held with
the range clipped to the oldest token held, and the pass is no longer pending. Memory keeps its bytes where no state restarts.
(R31, R34, R35, R36, R254, R285, R286, R287, R289, R306, 08_periods_and_budgets.md) -/
def Obligations.ScheduleEventsTakeEffect : Prop :=
  (∀ s : State, s.isReady = true → s.standalone = true → s.periodReady = true → (s.ctx 0).state = .waiting → s.idle 0 = true → s.watch.mandatory = false →
      s.swapDue s.nextPeriod = false → s.watch.short = none → s.watch.rebase = false → s.watch.zeroDue = false → (s.ctx 0).poisoned = false →
      (s.ctx 0).stopReq = none → (s.ctx 0).pendPt = none → (s.ctx 0).pendAllow = none → (s.ctx 0).pendRint = none → s.upk.replan = none →
      (∀ e, e ∈ s.ctxs → e.2.shedQ = false) → s.projectedLive 2 ≤ s.inForce →
      ∃ t, exec .periodRelease s = .next t ∧ t.watch.first = s.watch.first + s.watch.len ∧ t.watch.len = (s.ctx 0).pt ∧ t.watch.evaluated = 0
        ∧ t.watch.deadline = s.watch.first + s.watch.len + 2 * (s.ctx 0).pt - 1 + (s.ctx 0).allow ∧ t.watch.mandatory = true ∧ t.watch.deferrable = false
        ∧ t.watch.period = (if s.watch.len = 0 then s.watch.period else s.watch.period + 1)
        ∧ ((s.ctx 0).catchUp = false → ∀ th, th ∈ s.threadsOf 0 → (t.thread th).state = .ready ∧ (t.thread th).pc = (s.thread th).base)
        ∧ (∀ (sp : Space) (x : Nat), t.mem.read sp x = s.mem.read sp x)
        ∧ t.hist = s.hist ∧ t.img = s.img ∧ t.opt = s.opt ∧ t.trust = s.trust ∧ t.results = s.results ∧ t.store = s.store)
  ∧ (∀ s : State, s.isReady = true → s.standalone = true → s.pack.handover = none → s.watch.mandatory = true → (s.ctx 0).live = true → s.mandatoryDone = true →
      (s.skipGaps s.watch.len).watch.len ≤ (s.skipGaps s.watch.len).watch.evaluated →
      ∃ t, exec .mandatoryCompletion s = .next t ∧ t.watch.mandatory = false ∧ t.watch.deferrable = true ∧ t.watch.ready = []
        ∧ (t.ctx 0).late = (if (s.skipGaps s.watch.len).isLate then satAdd 32 (s.ctx 0).late 1 else (s.ctx 0).late)
        ∧ ((s.skipGaps s.watch.len).isLate = false → (s.ctx 0).catchUp = false → (t.ctx 0).catchUp = false)
        ∧ ((s.skipGaps s.watch.len).isLate = true → (s.ctx 0).catchUp = false → (t.ctx 0).catchUp = true)
        ∧ t.mem = s.mem ∧ t.threads = s.threads ∧ t.hist = s.hist ∧ t.img = s.img ∧ t.opt = s.opt ∧ t.trust = s.trust ∧ t.supply = s.supply)
  ∧ (∀ (c : Nat) (s : State) (p : Pass), c ≠ 0 → s.isReady = true → (s.ctx c).live = true → s.idle c = true → (s.ctx c).stopReq = none → (s.ctx c).poisoned = false →
      (s.ctx c).pass = some p → p.cancel = false → s.watchStill = false → s.supply.stopped.contains c = false →
      ∃ t, exec (.iterationRelease c) s = .next t ∧ (t.ctx c).inIter = true ∧ (t.ctx c).pass = some p
        ∧ (∀ th, th ∈ s.threadsOf c → (t.thread th).state = .ready ∧ (t.thread th).pc = (s.thread th).base)
        ∧ (∀ th, th ∉ s.threadsOf c → t.thread th = s.thread th) ∧ (∀ k, k ≠ c → t.ctx k = s.ctx k)
        ∧ (∀ (sp : Space) (x : Nat), t.mem.read sp x = s.mem.read sp x)
        ∧ { t with threads := s.threads, ctxs := s.ctxs, mem := s.mem } = s)
  ∧ (∀ (c : Nat) (s : State) (p : PendPass), c ≠ 0 → s.isReady = true → s.solo = true → s.passReady c = some p →
      s.heldNos.any (fun n => decide (max p.first (s.oldestNo.getD s.hist.appended) ≤ n ∧ n ≤ p.last)) = true →
      ∃ t, exec (.inspectPassStart c) s = .next t ∧ (t.ctx c).pend = none
        ∧ (t.ctx c).pass = some { no := p.no, first := max p.first (s.oldestNo.getD s.hist.appended), last := some p.last,
                                  next := max p.first (s.oldestNo.getD s.hist.appended), segFirst := max p.first (s.oldestNo.getD s.hist.appended),
                                  askedBy := p.askedBy, sfirst := p.sfirst, slast := p.slast }
        ∧ (t.ctx c).poisoned = false ∧ t.hist = s.hist ∧ t.threads = s.threads ∧ t.img = s.img ∧ t.opt = s.opt ∧ t.trust = s.trust ∧ t.results = s.results)

/-- A good stream frame that its powered port takes, of a consuming slot with room, files each of its samples at its own index
with the frame's marks and counts the frame; no other slot and nothing else changes but for what an event touches. A
sampled-values frame with one ASDU that only that slot takes, without simulation or test mark, of good quality and without a
jump, files the value shifted and saturated to 24 bits at the next index. A port answers an ARP, neighbor or echo request for
its own address with one frame and nothing else changes; any other address has no answer. (R357, R358, R360, R365, R366, R367,
R368, R370, R371, 10_stream_ingress.md) -/
def Obligations.StreamFramesAreFiled : Prop :=
  (∀ (p : Nat) (f : StreamFrame) (s : State) (n : Nat) (c : SlotCfg), s.portPower p = true → p < 4 → portTakes (s.portCfg p) f.env true = .take →
      s.slotOf p f = some n → f.good c = true → HasRoom s n c f.sidx f.samples.length →
      ∃ t, exec (.streamFrame p f) s = .next t
        ∧ TookSamples s t n f.sidx (f.samples.map (fun v => (v, (if f.flags.testBit 1 then 1 else 0) + (if f.ue then 2 else 0)))))
  ∧ (∀ (p : Nat) (f : SvFrame) (a : Asdu) (s : State) (n : Nat) (c : SlotCfg) (conf elem idx : Nat) (v : Int) (q : BitVec 32), s.portPower p = true → p < 4 →
      portTakes (s.portCfg p) f.env false = .take → f.env.ethertype = 0x88BA → f.security = false → f.simulate = false → f.asdus = [a] → a.elements.length ≤ 24 →
      (s.ing.slots.map Prod.fst).Nodup → n ∈ s.ing.slots.map Prod.fst → c.ports.testBit p = true → c.source = .sv f.dmac f.appid conf elem a.svid → a.confRev = conf →
      (a.smpRate = none ∨ a.smpRate = some c.nomrate) → a.elements[elem]? = some (v, q) → qTest q = false → qInvalid q = false →
      (∀ m d cf el, m ≠ n → (s.slot m).cfg = some d → d.source ≠ .sv f.dmac f.appid cf el a.svid) →
      svStep (s.slot n).svIndex c.wrap (s.ownRw n c.rw) a.smpCnt = (idx, false) → HasRoom s n c idx 1 →
      ∃ t, exec (.sampledValuesFrame p f) s = .next t
        ∧ TookSamples s t n idx [(clampInt (-8388608) 8388607 (v / (2 ^ c.shift : Nat)), if qDoubt q then 1 else 0)])
  ∧ (∀ (p addr : Nat) (data : List Byte) (v6 : Bool) (s : State),
      (s.hasAddr p false addr = true → exec (.arpRequest p addr) s = .next { s with out := s.out ++ [.arpReply p addr] })
      ∧ (s.hasAddr p true addr = true → exec (.neighborDiscovery p addr) s = .next { s with out := s.out ++ [.neighborReply p addr] })
      ∧ (s.hasAddr p v6 addr = true → exec (.echoRequest p v6 addr data) s = .next { s with out := s.out ++ [.echoReply p v6 addr data] })
      ∧ (s.hasAddr p false addr = false → exec (.arpRequest p addr) s = .next s)
      ∧ (s.hasAddr p true addr = false → exec (.neighborDiscovery p addr) s = .next s)
      ∧ (s.hasAddr p v6 addr = false → exec (.echoRequest p v6 addr data) s = .next s))

/-- SPILL_MOVE of a consuming ring more than three quarters full moves a quarter of it while its share has room (the amount is the
model's choice, assumption 28). SILENT_TIMEOUT of a configured slot makes it quiet, and while it is consuming sets its Silent
fault and STREAM. RATE_CHECK gives every configured slot the rate error of the second that ends and starts its count again.
TOKEN_FORM on a module of its own, with every sample of the next token final and its Filet regions on, appends one token at
the history slot whose turn it is; memory changes within that record and the 16-byte index entries of its group, and of the
group left over where a new s0 begins, only. FILET_FUNCTION_RUN with a buffer announced writes within its result only and
sends the one signal of its output counter. (R211, R213, R214, R372, R376, R377, R384, R387, 10_stream_ingress.md) -/
def Obligations.TokensAndSlotTimersTakeEffect : Prop :=
  (∀ (n : Nat) (s : State) (c : SlotCfg), (s.slot n).cfg = some c → s.consuming n = true → (s.slot n).unread.isSome = true → s.life.phase = .ready →
      3 * c.cap < 4 * ((s.slot n).high.getD 0 - (s.slot n).unread.getD 0 - (s.slot n).spilled) → (s.slot n).spilled + c.cap / 4 ≤ c.spillCap →
      exec (.spillMove n) s = .next (s.updSlot n (fun x => { x with spilled := x.spilled + c.cap / 4 })))
  ∧ (∀ (n : Nat) (s : State), (s.slot n).cfg.isSome = true → ∃ t, exec (.silentTimeout n) s = .next t ∧ (t.slot n).quiet = true
      ∧ (s.consuming n = true → (t.slot n).silent = true ∧ (t.logs.word 2).getLsbD 7 = true)
      ∧ (s.consuming n = false → (t.slot n).silent = (s.slot n).silent ∧ t.logs = s.logs)
      ∧ (t.slot n).ring = (s.slot n).ring ∧ (∀ k, k ≠ n → t.slot k = s.slot k) ∧ t.mem = s.mem ∧ t.hist = s.hist ∧ t.ctxs = s.ctxs)
  ∧ (∀ s : State, s.portsUp = true → (s.ing.slots.map Prod.fst).Nodup → ∃ t, exec .rateCheck s = .next t
      ∧ (∀ n c, n ∈ s.ing.slots.map Prod.fst → (s.slot n).cfg = some c → (t.slot n).rateCount = 0 ∧ (t.slot n).ratePpm = (rateError c.nomrate (s.slot n).rateCount).1
          ∧ ((rateError c.nomrate (s.slot n).rateCount).2 = true → s.consuming n = true → (t.slot n).rate = true ∧ (t.logs.word 2).getLsbD 7 = true)
          ∧ (t.slot n).ring = (s.slot n).ring)
      ∧ t.mem = s.mem ∧ t.hist = s.hist ∧ t.ctxs = s.ctxs)
  ∧ (∀ (facts : TokenFacts) (s : State) (i : Image) (o : Nat), s.image = some i → s.ing.s0 = some o → s.fwUp = true → s.solo = true → s.ing.running = true →
      s.ing.feOk = true → s.tokenSpan ≠ 0 → (s.inputsInOrder i).length = i.inputs.length → s.inputsInOrder i ≠ [] →
      (s.inputsInOrder i).all (s.patchFinal (o + s.ing.nextToken * s.tokenSpan)) = true → s.domOn (.clusterCommon 0) = true → s.domOn (.clusterCommon 1) = true →
      s.hist.cap ≠ 0 → ∃ t, exec (.tokenForm facts) s = .next t ∧ t.ing.nextToken = s.ing.nextToken + 1 ∧ t.hist.appended = s.hist.appended + 1
        ∧ (t.hslot s.hist.nextSlot).sidx = o + s.ing.nextToken * s.tokenSpan ∧ (t.hslot s.hist.nextSlot).no = s.hist.appended
        ∧ (t.hslot s.hist.nextSlot).token = s.ing.nextToken ∧ (t.hslot s.hist.nextSlot).holds = true
        ∧ t.hist.write = (if s.hist.cap ≤ s.hist.nextSlot + 1 then 0 else s.hist.nextSlot + 1)
        ∧ (∀ (sp : Space) (x : Nat), ¬ (sp = .board ∧ ((s.hist.base + s.hist.nextSlot * s.hist.width ≤ x ∧ x < s.hist.base + (s.hist.nextSlot + 1) * s.hist.width)
              ∨ x / 16 = s.hist.nextSlot / 16 ∨ (s.hist.leftover ≠ [] ∧ x / 16 = s.hist.write / 16))) →
            t.mem.read sp x = s.mem.read sp x)
        ∧ t.threads = s.threads ∧ t.img = s.img ∧ t.opt = s.opt ∧ t.trust = s.trust ∧ t.results = s.results ∧ t.supply = s.supply)
  ∧ (∀ (k : Nat) (s : State) (f : FiletFn) (c : Nat), (s.image.bind (fun i => i.functions[k]?)) = some f → s.filetCtx f = some c → s.domOn (.clusterCommon f.region) = true →
      ∃ t, exec (.filetFunctionRun k) s = .next t
        ∧ t.sync.signals = s.sync.signals ++ [{ who := 5 * 2 ^ 13 + f.region, ctx := c, id := f.outCtr, delta := 1 }]
        ∧ (∀ (sp : Space) (x : Nat), ¬ (sp = .cluster ∧ 4194304 * f.region + f.dst ≤ x ∧ x < 4194304 * f.region + f.dst + (if f.wide then 2 else 1) * f.elems) →
            t.mem.read sp x = s.mem.read sp x)
        ∧ { t with life := { t.life with commit := s.life.commit, storedStamp := s.life.storedStamp }, logs := s.logs, comms := s.comms, out := s.out,
                   sync := { t.sync with signals := s.sync.signals }, mem := s.mem } = s)

/-- A session's MODULE_INFO, STATUS, UNIT_READ of each kind of unit, THERMAL, FPCOUNT, CLIP_READ of a point and channel that its
member has or, the model's own form of assumption 74, of an engine's columns, POWER_READ, PACK_READ, UPKEEP_READ and
PLANE_READ, where no role, form, boot or lead rule refuses it, is answered OK with the values of the state read, in the
reply's order of parameters and in the widths of the words, at the present commit stamp; nothing but the session itself
changes. A unit, core or plane that no location word names, a kind above 3, a point or channel that the member lacks are
refused with BAD_PARAM at the parameter at fault. (R4, R66, R152, R303, R315, R319, R400, R408, R411, R425, R529, R548) -/
def Obligations.ReadsOfTheModuleAnswer : Prop :=
  ∀ (s : State) (sid : Nat) (x : Session) (p : Packet),
    (Asks s 0x0101 sid x p → ∃ t, exec (.moduleInfo sid) s = .next t ∧ ReadDone s t sid x p
      [textOf s.optv.order, textOf s.optv.serial, be 2 s.optv.level, be 4 s.life.fwver, be 1 s.life.bank, be 4 s.life.poc, be 12 s.optv.mac, be 16 s.imageId])
    ∧ (Asks s 0x0102 sid x p → ∃ t, exec (.status sid) s = .next t ∧ ReadDone s t sid x p
      [s.logs.bytes, (List.range 64).flatMap (fun n => be 8 ((s.ctx n).word n s.life.now)), be 1 s.feedNo, be 2 (s.inForce / 10), be 2 s.supply.draw,
        be 2 (unsigned 16 s.tmax), be 1 (healthByte s.hsense s.healthy s.io.inputs)])
    ∧ (Asks s 0x0103 sid x p →
        (p.num 2 = 0 → locOk (p.num 1) 4 = true → ∃ t, exec (.unitRead sid) s = .next t ∧ ReadDone s t sid x p
          [(List.range 16).flatMap (fun i => be 16 (s.threadWord (16 * locToCore (p.num 1) + i)))])
        ∧ (p.num 2 = 1 → locOk (p.num 1) 2 = true → ∃ t, exec (.unitRead sid) s = .next t ∧ ReadDone s t sid x p
          [(List.range 64).flatMap (fun i => be 8 (s.ring (64 * locToCluster (p.num 1) + i)).word)])
        ∧ (p.num 2 = 2 → locOk (p.num 1) 5 = true → ∃ t, exec (.unitRead sid) s = .next t ∧ ReadDone s t sid x p
          [(List.range 16).flatMap (fun i => be 4 (settingWord (s.blockAt (locToEngine (p.num 1)) i).file
            (s.condOf (locToEngine (p.num 1)) i)))])
        ∧ (p.num 2 = 3 → locOk (p.num 1) 5 = true → ∃ t, exec (.unitRead sid) s = .next t ∧ ReadDone s t sid x p
          [be 4 (s.panel (locToEngine (p.num 1))).word])
        ∧ (3 < p.num 2 → ∃ t, exec (.unitRead sid) s = .next t ∧ Refused s t sid x p .badParam (p.off 2)))
    ∧ (Asks s 0x0104 sid x p → ∃ t, exec (.thermal sid) s = .next t ∧ ReadDone s t sid x p
      [(List.range 64).flatMap (fun i => be 2 (unsigned 16 (s.temp i))), (List.range 4).flatMap (fun k => be 1 (s.clk k).step)])
    ∧ (Asks s 0x0105 sid x p →
        (locOk (p.num 1) 4 = true → ∃ t, exec (.fpcount sid) s = .next t ∧ ReadDone s t sid x p
          [be 4 (s.core (locToCore (p.num 1))).invalids ++ be 4 (s.core (locToCore (p.num 1))).overflows ++ be 4 (s.core (locToCore (p.num 1))).divZeros])
        ∧ (locOk (p.num 1) 4 = false → ∃ t, exec (.fpcount sid) s = .next t ∧ Refused s t sid x p .badParam (p.off 1)))
    ∧ (Asks s 0x0106 sid x p →
        (4096 ≤ p.num 1 →
          (p.num 1 - 4096 < 2304 → p.num 2 < 256 → ∃ t, exec (.clipRead sid) s = .next t
            ∧ ReadDone s t sid x p [(List.range (min (min (p.num 3) (s.room sid 0 / 16)) (256 - p.num 2))).flatMap (fun i =>
              be 16 ({ Tab.get ({} : ClipRec) (s.engine (p.num 1 - 4096)).clipSnap (p.num 2 + i) with kind := 2 } : ClipRec).word)])
          ∧ (p.num 1 - 4096 < 2304 → 256 ≤ p.num 2 → ∃ t, exec (.clipRead sid) s = .next t ∧ Refused s t sid x p .badParam (p.off 2))
          ∧ (2304 ≤ p.num 1 - 4096 → ∃ t, exec (.clipRead sid) s = .next t ∧ Refused s t sid x p .badParam (p.off 1)))
        ∧ (p.num 1 < 4096 → ∀ (m : Member), s.member p.ctx = some m →
          (∀ q, m.points.find? (fun q => decide (q.point = p.num 1)) = some q → p.num 2 < q.channels → ∃ t, exec (.clipRead sid) s = .next t
            ∧ ReadDone s t sid x p [(List.range (min (min (p.num 3) (s.room sid 0 / 16)) (q.channels - p.num 2))).flatMap (fun i => be 16 (s.snapRec p.ctx q (p.num 2 + i)))])
          ∧ (∀ q, m.points.find? (fun q => decide (q.point = p.num 1)) = some q → q.channels ≤ p.num 2 → ∃ t, exec (.clipRead sid) s = .next t
            ∧ Refused s t sid x p .badParam (p.off 2))
          ∧ (m.points.find? (fun q => decide (q.point = p.num 1)) = none → ∃ t, exec (.clipRead sid) s = .next t ∧ Refused s t sid x p .badParam (p.off 1))))
    ∧ (Asks s 0x0702 sid x p → ∃ t, exec (.powerRead sid) s = .next t ∧ ReadDone s t sid x p
      [be 1 s.feedNo, be 2 s.supply.mainBudget, be 2 s.supply.backupBudget, be 2 (s.inForce / 10), be 2 s.supply.draw,
        (List.range 4).flatMap (fun k => be 1 (s.clk k).step), (s.ctxs.filter (fun e => e.2.started)).flatMap (fun e => be 1 e.1 ++ be 2 (min e.2.estimate 65535))])
    ∧ (Asks s 0x0802 sid x p → ∃ t, exec (.packRead sid) s = .next t ∧ ReadDone s t sid x p
      [be 16 s.packWord, (List.range 4).flatMap (fun k => be 4 (s.pport k).word)])
    ∧ (Asks s 0x0A01 sid x p → ∃ t, exec (.upkeepRead sid) s = .next t ∧ ReadDone s t sid x p
      [(List.range 7).flatMap (fun k => be 2 (min 65535 (s.upk.queue.filter (fun w => decide (w.prio = k + 1))).length)), be 8 s.newestSeq])
    ∧ (Asks s 0x0A02 sid x p →
        (locOk (p.num 1) 6 = true → ∃ t, exec (.planeRead sid) s = .next t ∧ ReadDone s t sid x p
          [be 16 (s.planeWord (17 * locToEngine (p.num 1) + locToPlane (p.num 1)))])
        ∧ (locOk (p.num 1) 6 = false → ∃ t, exec (.planeRead sid) s = .next t ∧ Refused s t sid x p .badParam (p.off 1)))

/-- A session's IMG_INFO, SWAP_STATUS with and without a swap, MEMBER_READ of a member that the image in force has, SLOT_READ of a
configured and of an unconfigured slot, PORT_READ of a port, STREAM_STATUS of a slot, CTX_READ with and without the thread
words, and QUOTA_READ, where no role, form, boot or lead rule refuses it, is answered OK with the values of the state read, at
the present commit stamp; nothing but the session itself changes. A member that the image lacks, a slot above 31 and a port
above 5 are refused with BAD_PARAM at the parameter at fault. (R34, R193, R300, R358, R360, R388, R389, R400, R408, R411,
R425, R426) -/
def Obligations.ReadsOfImagesSlotsContextsAnswer : Prop :=
  ∀ (s : State) (sid : Nat) (x : Session) (p : Packet),
    (Asks s 0x0204 sid x p → ∃ t, exec (.imgInfo sid) s = .next t ∧ ReadDone s t sid x p [s.img.slot0.info ++ s.img.slot1.info])
    ∧ (Asks s 0x0206 sid x p →
        (∀ w, s.img.swap = some w → ∃ t, exec (.swapStatus sid) s = .next t ∧ ReadDone s t sid x p [be 1 w.phase, be 4 w.done, be 4 w.total])
        ∧ (s.img.swap = none → ∃ t, exec (.swapStatus sid) s = .next t ∧ ReadDone s t sid x p [be 1 0, be 4 0, be 4 0]))
    ∧ (Asks s 0x0207 sid x p →
        (∀ m, s.image.bind (fun i => if p.num 1 = 0 then i.watch else if p.num 1 = 1 then i.inspect else none) = some m →
          ∃ t, exec (.memberRead sid) s = .next t ∧ ReadDone s t sid x p [m.desc.bytes])
        ∧ (s.image.bind (fun i => if p.num 1 = 0 then i.watch else if p.num 1 = 1 then i.inspect else none) = none →
          ∃ t, exec (.memberRead sid) s = .next t ∧ Refused s t sid x p .badParam (p.off 1)))
    ∧ (Asks s 0x0302 sid x p →
        (31 < p.num 1 → ∃ t, exec (.slotRead sid) s = .next t ∧ Refused s t sid x p .badParam (p.off 1))
        ∧ (p.num 1 ≤ 31 → (s.slot (p.num 1)).cfg = none → ∃ t, exec (.slotRead sid) s = .next t ∧ ReadDone s t sid x p [be 1 (p.num 1)])
        ∧ (∀ c, p.num 1 ≤ 31 → (s.slot (p.num 1)).cfg = some c → ∃ t, exec (.slotRead sid) s = .next t ∧ ReadDone s t sid x p
          [be 1 (p.num 1), be 1 c.kind, be 1 c.ports, c.source.bytes, be 1 c.format, be 1 c.shift, be 4 c.nomrate, be 4 c.wrap, be 1 c.input, be 4 c.rw,
            be 1 (flag c.startArr)]))
    ∧ (Asks s 0x0305 sid x p →
        (5 < p.num 1 → ∃ t, exec (.portRead sid) s = .next t ∧ Refused s t sid x p .badParam (p.off 1))
        ∧ (p.num 1 ≤ 5 → ∃ t, exec (.portRead sid) s = .next t ∧ Replied s t sid x (replyOf p .ok 0 (s.portTlvs (p.num 1)) s.life.commit)
          ∧ { t with comms := s.comms, out := s.out } = s ∧ ∀ n, n ≠ sid → t.sess n = s.sess n))
    ∧ (Asks s 0x0306 sid x p →
        (31 < p.num 1 → ∃ t, exec (.streamStatus sid) s = .next t ∧ Refused s t sid x p .badParam (p.off 1))
        ∧ (p.num 1 ≤ 31 → ∃ t, exec (.streamStatus sid) s = .next t
          ∧ ReadDone s t sid x p [be 8 ((s.slot (p.num 1)).word (s.consuming (p.num 1)) (decide (s.refSlot = some (p.num 1)))), (s.slot (p.num 1)).counters]))
    ∧ (Asks s 0x0404 sid x p → ∃ t, exec (.ctxRead sid) s = .next t ∧ ReadDone s t sid x p
      ([be 8 ((s.ctx p.ctx).word p.ctx s.life.now), be 1 (s.prioOf p.ctx), be 4 (s.ctx p.ctx).wdog, be 4 (s.ctx p.ctx).pt, be 4 (s.ctx p.ctx).allow,
        be 4 (s.ctx p.ctx).rint, be 4 (s.ctx p.ctx).sched,
        be 1 (4 * flag (s.ctx p.ctx).pendPt.isSome + 8 * flag (s.ctx p.ctx).pendAllow.isSome + 16 * flag (s.ctx p.ctx).pendRint.isSome)]
        ++ if p.num 1 = 0 then [] else [((s.threadsOf p.ctx).flatMap (fun t => be 16 (s.threadWord t))).take (s.room sid 88 / 16 * 16)]))
    ∧ (Asks s 0x0407 sid x p → ∃ t, exec (.quotaRead sid) s = .next t ∧ ReadDone s t sid x p
      [be 2 (s.ctx p.ctx).quota.threads, be 2 (s.ctx p.ctx).quota.counters, be 2 (s.ctx p.ctx).quota.rings, be 8 (s.ctx p.ctx).quota.bytes,
        be 2 (s.ctx p.ctx).quota.power, be 2 (s.threadsOf p.ctx).length, be 2 (s.owned p.ctx).length, be 2 (s.ringsOf p.ctx).length,
        be 8 (s.ctx p.ctx).buffers, be 2 (((s.ctx p.ctx).estimate + 9) / 10)])

/-- A session's RESULT_READ of a held record, ADVISORY_READ, CTR_READ of an exported counter and of a physical one by the Service
role, CTR_LIST, TROUBLE_READ, LOG_READ, ATTEST, IDENTITY_READ, ANCHOR_READ, OPTION_READ, SESSION_INFO and KEEPALIVE, where no
role, form, boot or lead rule refuses it, is answered with the values of the state read, as many bytes as the reply holds, at
the present commit stamp; nothing but the session itself changes. A result record that is not held, or an offset beyond it, is
refused with BAD_PARAM, and the reply still names the oldest and the newest record held; an id above 4,095, a physical counter
above 16,383 and an offset beyond the identity chain are refused with BAD_PARAM, and an id that is not exported with
NOT_PERMITTED. (R261, R281, R400, R404, R411, R412, R418, R425, R461, R502, R506, 14_power_up_and_trust.md) -/
def Obligations.ReadsOfResultsCountersLogTrustAnswer : Prop :=
  ∀ (s : State) (sid : Nat) (x : Session) (p : Packet),
    (Asks s 0x0501 sid x p →
        (∀ r, s.results.find? (fun r => decide (r.ctx = p.ctx ∧ r.resno = p.num 1)) = some r → p.num 2 < r.len → ∃ t, exec (.resultRead sid) s = .next t
          ∧ Replied s t sid x (replyOf p r.status 0 [(1, (r.bytes.drop (p.num 2)).take (s.room sid 24)), (2, be 8 (s.heldRange p.ctx).1), (3, be 8 (s.heldRange p.ctx).2)]
              s.life.commit)
          ∧ { t with comms := s.comms, out := s.out } = s ∧ ∀ n, n ≠ sid → t.sess n = s.sess n)
        ∧ (∀ r, s.results.find? (fun r => decide (r.ctx = p.ctx ∧ r.resno = p.num 1)) = some r → r.len ≤ p.num 2 → ∃ t, exec (.resultRead sid) s = .next t
          ∧ Replied s t sid x (replyOf p .badParam (p.off 2) [(2, be 8 (s.heldRange p.ctx).1), (3, be 8 (s.heldRange p.ctx).2)] s.life.commit)
          ∧ { t with comms := s.comms, out := s.out } = s)
        ∧ (s.results.find? (fun r => decide (r.ctx = p.ctx ∧ r.resno = p.num 1)) = none → ∃ t, exec (.resultRead sid) s = .next t
          ∧ Replied s t sid x (replyOf p .badParam (p.off 1) [(2, be 8 (s.heldRange p.ctx).1), (3, be 8 (s.heldRange p.ctx).2)] s.life.commit)
          ∧ { t with comms := s.comms, out := s.out } = s))
    ∧ (Asks s 0x0504 sid x p → ∃ t, exec (.advisoryRead sid) s = .next t ∧ ReadDone s t sid x p
      [be 1 s.outputs.toNat, (List.range ((s.image.map (fun i => i.rules.length)).getD 0)).flatMap (fun n => (Tab.get ({} : RuleState) s.io.rules n).bytes)])
    ∧ (Asks s 0x0602 sid x p →
        (∀ id, p.num? 1 = some id → p.num? 2 = none → p.ctx ≤ 63 → id ≤ 4095 →
          (∀ k, s.physOf p.ctx id = some k → s.exported p.ctx id = true → ∃ t, exec (.ctrRead sid) s = .next t ∧ ReadDone s t sid x p [be 32 (s.inspect k)])
          ∧ ((s.physOf p.ctx id = none ∨ s.exported p.ctx id = false) → ∃ t, exec (.ctrRead sid) s = .next t ∧ Refused s t sid x p .notPermitted 0))
        ∧ (∀ id, p.num? 1 = some id → p.num? 2 = none → p.ctx ≤ 63 → 4095 < id → ∃ t, exec (.ctrRead sid) s = .next t ∧ Refused s t sid x p .badParam (p.off 1))
        ∧ (∀ k, p.num? 1 = none → p.num? 2 = some k → x.role = 3 → p.ctx = 0xFFFF →
          (k ≤ 16383 → ∃ t, exec (.ctrRead sid) s = .next t ∧ ReadDone s t sid x p [be 32 (s.inspect k)])
          ∧ (16383 < k → ∃ t, exec (.ctrRead sid) s = .next t ∧ Refused s t sid x p .badParam (p.off 2))))
    ∧ (Asks s 0x0607 sid x p → ∃ t, exec (.ctrList sid) s = .next t ∧ ReadDone s t sid x p
      [(((s.sync.exports.filter (fun e => decide (e.1 / 4096 = p.ctx))).map (fun e => e.1 % 4096)).flatMap (be 2)).take (s.room sid 0)])
    ∧ (Asks s 0x0901 sid x p → ∃ t, exec (.troubleRead sid) s = .next t ∧ ReadDone s t sid x p [s.logs.bytes])
    ∧ (Asks s 0x0903 sid x p → ∃ t rs, exec (.logRead sid) s = .next t
      ∧ rs = (s.logs.all.filter (fun r => decide (p.num 1 ≤ r.lseq))).take (min ((p.num? 2).getD (s.room sid 24 / 64)) (s.room sid 24 / 64))
      ∧ ReadDone s t sid x p [rs.flatMap LogRec.bytes, be 8 (match rs.getLast? with | some r => r.lseq + 1 | none => max (p.num 1) s.logs.oldest), be 8 s.logs.oldest])
    ∧ (Asks s 0x0B01 sid x p → ∃ t, exec (.attest sid) s = .next t ∧ ReadDone s t sid x p [(s.attestReport ((p.val 1).getD [])).take (s.room sid 0)])
    ∧ (Asks s 0x0B02 sid x p →
        (p.num 1 ≤ Config.identityChain.length → ∃ t, exec (.identityRead sid) s = .next t
          ∧ ReadDone s t sid x p [(Config.identityChain.drop (p.num 1)).take (s.room sid 8), be 4 Config.identityChain.length])
        ∧ (Config.identityChain.length < p.num 1 → ∃ t, exec (.identityRead sid) s = .next t ∧ Refused s t sid x p .badParam (p.off 1)))
    ∧ (Asks s 0x0B03 sid x p → ∃ t, exec (.anchorRead sid) s = .next t ∧ ReadDone s t sid x p [(s.trust.anchors.flatMap Anchor.entry).take (s.room sid 0)])
    ∧ (Asks s 0x0C05 sid x p → ∃ t, exec (.optionRead sid) s = .next t ∧ ReadDone s t sid x p [s.opt.shadow.bytes])
    ∧ (Asks s 0x0008 sid x p → ∃ t, exec (.sessionInfo sid) s = .next t
      ∧ ReadDone s t sid x p [be 2 sid, be 1 x.role, be 4 ((x.nextSeq + 1) % 2 ^ 32), be 2 x.notifies.length, be 4 x.nlost])
    ∧ (Asks s 0x0004 sid x p → ∃ t, exec (.keepalive sid) s = .next t ∧ ReadDone s t sid x p [])

/-- Where no role, form, boot or lead rule refuses it and no swap runs, IMG_BEGIN of 1 to 7,449,083,904 bytes opens a transfer
with a new number and marks the inactive slot as loading; IMG_END names the first missing offset or, with none missing, is
accepted; IMG_ABORT gives the transfer up and empties the slot; SWAP of a loaded inactive slot whose copies fit the away
region is accepted. Each answers with the stamp of its own commit where it changes something; each other case is refused with
the status of its rule and changes nothing. IMAGE_VALIDATION_DONE ends the transfer and reads the image back from the slot's
bytes and leaves the slot loaded where it passes every check and empty where it does not. SWAP_STEP4_DONE moves a swap whose
panels are all done to step 5. SWAP_BOUNDARY, on a module of its own at a boundary, puts the new image in force and makes the
old slot loaded; options, trust and results stand. (R190, R191, R193, R194, R195, R205, R210, R407, R409, R411, R423, R467) -/
def Obligations.ImageCommandsTakeEffect : Prop :=
  (∀ (s : State) (sid : Nat) (x : Session) (p : Packet), Asks s 0x0201 sid x p →
      (s.img.swap = none → 1 ≤ p.num 1 → p.num 1 ≤ 7449083904 → ∃ t, exec (.imgBegin sid) s = .next t
        ∧ WriteDone s t sid x p .ok [be 4 (s.img.lastXfer + 1), be 4 Config.chunkSize]
          { s.commit.setSlot s.inactive 3 none with img := { (s.commit.setSlot s.inactive 3 none).img with
              lastXfer := s.img.lastXfer + 1, xfer := some { no := s.img.lastXfer + 1, length := p.num 1, chunk := Config.chunkSize } } }
        ∧ (t.imgSlot s.inactive).state = 3 ∧ (t.imgSlot s.inactive).image = none ∧ t.imgSlot (1 - s.inactive) = s.imgSlot (1 - s.inactive))
      ∧ (s.img.swap.isSome = true → ∃ t, exec (.imgBegin sid) s = .next t ∧ Refused s t sid x p .busy 0)
      ∧ (s.img.swap = none → 7449083904 < p.num 1 → ∃ t, exec (.imgBegin sid) s = .next t ∧ Refused s t sid x p .noResource 0)
      ∧ (s.img.swap = none → p.num 1 = 0 → ∃ t, exec (.imgBegin sid) s = .next t ∧ Refused s t sid x p .badParam (p.off 1)))
  ∧ (∀ (s : State) (sid : Nat) (x : Session) (p : Packet), Asks s 0x0202 sid x p →
      (s.img.xfer = none → ∃ t, exec (.imgEnd sid) s = .next t ∧ Refused s t sid x p .busy 0)
      ∧ (∀ f, s.img.xfer = some f → f.ending.isSome = true → ∃ t, exec (.imgEnd sid) s = .next t ∧ Refused s t sid x p .busy 0)
      ∧ (∀ f, s.img.xfer = some f → f.ending = none → f.missing ≠ top 64 → ∃ t, exec (.imgEnd sid) s = .next t ∧ ReadDone s t sid x p [be 8 f.missing])
      ∧ (∀ f, s.img.xfer = some f → f.ending = none → f.missing = top 64 → ∃ t, exec (.imgEnd sid) s = .next t
        ∧ WriteDone s t sid x p .accepted [be 8 (top 64)] { s.commit with img := { s.img with xfer := some { f with ending := some (sid, p.seq), digest := p.num 1 } } }))
  ∧ (∀ (given img : Image) (s : State) (f : Xfer) (who : Nat × Nat), s.fwUp = true → s.img.xfer = some f → f.ending = some who →
      img = readImage (s.imgSlot s.inactive).bytes f.length f.digest given →
      ∃ t, exec (.imageValidationDone given) s = .next t ∧ t.img.xfer = none ∧ t.life.commit = s.life.commit + 1
        ∧ (f.failed = false → img.verdict s.mem.banksOut s.optv.level s.opt.shadow.imgCtr s.imageAnchors = .ok → t.imgSlot s.inactive = { s.imgSlot s.inactive with state := 2, image := some img })
        ∧ ((f.failed = true ∨ img.verdict s.mem.banksOut s.optv.level s.opt.shadow.imgCtr s.imageAnchors ≠ .ok) → t.imgSlot s.inactive = { state := 0 })
        ∧ t.imgSlot (1 - s.inactive) = s.imgSlot (1 - s.inactive)
        ∧ { t with img := s.img, comms := s.comms, out := s.out, store := s.store, life := { t.life with commit := s.life.commit, storedStamp := s.life.storedStamp } } = s)
  ∧ (∀ (s : State) (sid : Nat) (x : Session) (p : Packet), Asks s 0x0203 sid x p →
      (s.img.xfer = none → ∃ t, exec (.imgAbort sid) s = .next t ∧ ReadDone s t sid x p [])
      ∧ (s.img.xfer.isSome = true → ∃ t, exec (.imgAbort sid) s = .next t
        ∧ WriteDone s t sid x p .ok [] (State.setSlot { s.commit with img := { s.img with xfer := none } } s.inactive 0 none)
        ∧ t.img.xfer = none ∧ t.imgSlot s.inactive = { state := 0 }))
  ∧ (∀ (s : State) (sid : Nat) (x : Session) (p : Packet), Asks s 0x0205 sid x p →
      ((s.img.swap.isSome = true ∨ (s.imgSlot s.inactive).state ≠ 2) → ∃ t, exec (.swap sid) s = .next t ∧ Refused s t sid x p .busy 0)
      ∧ (∀ i, s.img.swap = none → (s.imgSlot s.inactive).state = 2 → (s.imgSlot s.inactive).image = some i → s.awayFits i = false →
          ∃ t, exec (.swap sid) s = .next t ∧ Refused s t sid x p .noResource 0)
      ∧ (∀ i, s.img.swap = none → (s.imgSlot s.inactive).state = 2 → (s.imgSlot s.inactive).image = some i → s.awayFits i = true →
          ∃ t w, exec (.swap sid) s = .next t ∧ WriteDone s t sid x p .accepted [] (s.commit.beginSwap i (some (sid, p.seq)))
            ∧ t.img.swap = some w ∧ w.askedBy = some (sid, p.seq) ∧ w.slot = s.inactive ∧ w.todo = w.panels ∧ t.img.active = s.img.active
            ∧ t.upk.queue = s.upk.queue ++ s.swapWork i))
  ∧ (∀ (s : State) (w : Swap), s.solo = true → s.img.swap = some w → w.phase = 3 → w.todo = [] → s.upk.queue.any (fun x => decide (x.why = .swap) || x.newImage) = false →
      exec .swapStep4Done s = .next { s with img := { s.img with swap := some { w with phase := 5, doneAt := some s.life.now, released := false } } })
  ∧ (∀ (s : State) (w : Swap) (i : Image), s.solo = true → s.img.swap = some w → w.slot ≤ 1 → (s.imgSlot w.slot).image = some i → s.atSwapBoundary = true →
      ∃ t, exec .swapBoundary s = .next t ∧ t.img.active = some w.slot ∧ t.img.swap = none ∧ t.img.good = true ∧ t.imgSlot w.slot = { s.imgSlot w.slot with state := 1, image := some i }
        ∧ (s.img.active = some (1 - w.slot) → (t.imgSlot (1 - w.slot)).state = 2 ∧ (t.imgSlot (1 - w.slot)).image = (s.imgSlot (1 - w.slot)).image)
        ∧ t.opt = s.opt ∧ t.trust = s.trust ∧ t.results = s.results ∧ { t.supply with waiting := s.supply.waiting } = s.supply ∧ t.kennel = s.kennel)

/-- Where no role, form, boot or lead rule refuses it: SLOT_SET of a slot that is not consuming, with parameters in their ranges
that clash with no other slot, leaves the slot with that setting, an empty ring and clear counters, and asks for stream
ingress's power where that is off; SLOT_FREE leaves a slot unconfigured; PORT_SET with settings in their ranges changes that
port in the option shadows; STREAM_CLEAR clears the bits and counters of its mask and answers the status word after. Each is
one commit, whose stamp its reply has, and changes nothing else. A parameter out of its range or in clash is BAD_PARAM at its
place, and a slot that consumes is BUSY; then nothing changes. (R358, R360, R361, R362, R373, R388, R389, R392, R411, R423,
R486) -/
def Obligations.StreamSettingsTakeEffect : Prop :=
  (∀ (s : State) (sid : Nat) (x : Session) (p : Packet), Asks s 0x0301 sid x p →
      (∀ c, slotAsked p = .ok c → s.consuming (p.num 1) = false → s.slotClash (p.num 1) c = none → ∃ t, exec (.slotSet sid) s = .next t
        ∧ WriteDone s t sid x p .ok [] (((s.commit.updSlot (p.num 1) (fun _ => { cfg := some c })).askPower .streamIngress 0).configChanged)
        ∧ t.slot (p.num 1) = { cfg := some c } ∧ ∀ k, k ≠ p.num 1 → t.slot k = s.slot k)
      ∧ (∀ ty, slotAsked p = .error ty → ∃ t, exec (.slotSet sid) s = .next t ∧ Refused s t sid x p .badParam (p.off ty))
      ∧ (∀ c, slotAsked p = .ok c → s.consuming (p.num 1) = true → ∃ t, exec (.slotSet sid) s = .next t ∧ Refused s t sid x p .busy 0)
      ∧ (∀ c ty, slotAsked p = .ok c → s.consuming (p.num 1) = false → s.slotClash (p.num 1) c = some ty → ∃ t, exec (.slotSet sid) s = .next t
        ∧ Refused s t sid x p .badParam (p.off ty)))
  ∧ (∀ (s : State) (sid : Nat) (x : Session) (p : Packet), Asks s 0x0303 sid x p →
      (p.num 1 ≤ 31 → s.consuming (p.num 1) = false → ∃ t, exec (.slotFree sid) s = .next t
        ∧ WriteDone s t sid x p .ok [] ((s.commit.updSlot (p.num 1) (fun _ => {})).configChanged)
        ∧ t.slot (p.num 1) = {} ∧ ∀ k, k ≠ p.num 1 → t.slot k = s.slot k)
      ∧ (p.num 1 ≤ 31 → s.consuming (p.num 1) = true → ∃ t, exec (.slotFree sid) s = .next t ∧ Refused s t sid x p .busy 0)
      ∧ (31 < p.num 1 → ∃ t, exec (.slotFree sid) s = .next t ∧ Refused s t sid x p .badParam (p.off 1)))
  ∧ (∀ (s : State) (sid : Nat) (x : Session) (p : Packet), Asks s 0x0304 sid x p →
      (p.num 1 ≤ 5 → p.tlvs.find? (fun t => !portFieldOk (p.num 1) t.1 t.2) = none → ∃ t, exec (.portSet sid) s = .next t
        ∧ WriteDone s t sid x p .ok [] (s.commit.setPort (p.num 1) p.tlvs)
        ∧ Tab.get {} t.opt.shadow.ports (p.num 1) = p.tlvs.foldl PortCfg.put (Tab.get {} s.opt.shadow.ports (p.num 1))
        ∧ (∀ k, k ≠ p.num 1 → Tab.get {} t.opt.shadow.ports k = Tab.get {} s.opt.shadow.ports k) ∧ t.opt.loaded = s.opt.loaded)
      ∧ (p.num 1 ≤ 5 → ∀ f, p.tlvs.find? (fun t => !portFieldOk (p.num 1) t.1 t.2) = some f → ∃ t, exec (.portSet sid) s = .next t ∧ Refused s t sid x p .badParam (p.off f.1))
      ∧ (5 < p.num 1 → ∃ t, exec (.portSet sid) s = .next t ∧ Refused s t sid x p .badParam (p.off 1)))
  ∧ (∀ (s : State) (sid : Nat) (x : Session) (p : Packet), Asks s 0x0307 sid x p →
      (p.num 1 ≤ 31 → p.num 2 &&& 0x1FF000003FF = p.num 2 → ∃ t, exec (.streamClear sid) s = .next t
        ∧ WriteDone s t sid x p .ok [be 8 ((s.updSlot (p.num 1) (fun y => y.clear (p.num 2))).slotWord (p.num 1))] (s.commit.updSlot (p.num 1) (fun y => y.clear (p.num 2)))
        ∧ ((p.num 2).testBit 39 = true → (t.slot (p.num 1)).gap = false) ∧ ((p.num 2).testBit 39 = false → (t.slot (p.num 1)).gap = (s.slot (p.num 1)).gap)
        ∧ ((p.num 2).testBit 8 = true → (t.slot (p.num 1)).frames = 0) ∧ ((p.num 2).testBit 8 = false → (t.slot (p.num 1)).frames = (s.slot (p.num 1)).frames)
        ∧ (t.slot (p.num 1)).cfg = (s.slot (p.num 1)).cfg ∧ (t.slot (p.num 1)).ring = (s.slot (p.num 1)).ring ∧ ∀ k, k ≠ p.num 1 → t.slot k = s.slot k)
      ∧ (p.num 1 ≤ 31 → p.num 2 &&& 0x1FF000003FF ≠ p.num 2 → ∃ t, exec (.streamClear sid) s = .next t ∧ Refused s t sid x p .badParam (p.off 2))
      ∧ (31 < p.num 1 → ∃ t, exec (.streamClear sid) s = .next t ∧ Refused s t sid x p .badParam (p.off 1)))

/-- Where no role, form, boot or lead rule refuses it: CTX_SET with parameters in their ranges sets priority, watchdog and
schedule at its commit; PT, ALLOW and RINT of a context that is started, shed or faulted wait, with ACCEPTED, and the reply
names what waits; of one that is free or stopped they are in force at once, with OK. QUOTA_SET sets the quotas it names, where
each lies within the module's total and each raised one fits beside those of the other contexts; else it is refused with
BAD_PARAM or NO_RESOURCE. BUDGET_SET of 60 W to 410 W sets the budgets it names, and one that lowers the budget in force
begins a cut. PACK_CONFIG in its ranges changes the option shadows, not what is loaded. Each is one commit, whose stamp its
reply has, and changes nothing else. (R31, R277, R285, R294, R300, R301, R302, R304, R311, R411, R423, R426) -/
def Obligations.ContextAndBudgetSettingsTakeEffect : Prop :=
  (∀ (s : State) (sid : Nat) (x : Session) (p : Packet), Asks s 0x0405 sid x p →
      (∀ ty, (s.ctx p.ctx).setBad p.ctx p = some ty → ∃ t, exec (.ctxSet sid) s = .next t ∧ Refused s t sid x p .badParam (p.off ty))
      ∧ ((s.ctx p.ctx).setBad p.ctx p = none → ∃ t st, exec (.ctxSet sid) s = .next t
        ∧ st = (if ((p.num? 3).isSome || (p.num? 4).isSome || (p.num? 5).isSome) = true ∧ (s.ctx p.ctx).holds = true then Status.accepted else Status.ok)
        ∧ WriteDone s t sid x p st [be 1 (t.ctx p.ctx).pendingByte] ((s.commit.updCtx p.ctx (fun y => (y.setNow p.ctx p).setLater p)).configChanged)
        ∧ ((s.ctx p.ctx).holds = true → (t.ctx p.ctx).pt = (s.ctx p.ctx).pt ∧ (t.ctx p.ctx).allow = (s.ctx p.ctx).allow ∧ (t.ctx p.ctx).rint = (s.ctx p.ctx).rint
          ∧ ∀ v, p.num? 3 = some v → (t.ctx p.ctx).pendPt = some v)
        ∧ ((s.ctx p.ctx).holds = false → (t.ctx p.ctx).pt = (p.num? 3).getD (s.ctx p.ctx).pt ∧ (t.ctx p.ctx).allow = (p.num? 4).getD (s.ctx p.ctx).allow
          ∧ (t.ctx p.ctx).rint = (p.num? 5).getD (s.ctx p.ctx).rint)
        ∧ (t.ctx p.ctx).wdog = (p.num? 2).getD (s.ctx p.ctx).wdog ∧ (t.ctx p.ctx).sched = (p.num? 6).getD (s.ctx p.ctx).sched
        ∧ (p.ctx ≠ 0 → (t.ctx p.ctx).prio = (p.num? 1).getD (s.ctx p.ctx).prio) ∧ ((s.ctx p.ctx).state = .free → (t.ctx p.ctx).state = .stopped)
        ∧ ∀ k, k ≠ p.ctx → t.ctx k = s.ctx k))
  ∧ (∀ (s : State) (sid : Nat) (x : Session) (p : Packet), Asks s 0x0406 sid x p →
      (∀ ty, [1, 2, 3, 4, 5].find? (fun ty => decide (s.quotaTotal ty < (p.num? ty).getD 0)) = some ty → ∃ t, exec (.quotaSet sid) s = .next t
        ∧ Refused s t sid x p .badParam (p.off ty))
      ∧ ([1, 2, 3, 4, 5].find? (fun ty => decide (s.quotaTotal ty < (p.num? ty).getD 0)) = none →
          (∃ ty, ty ∈ [1, 2, 3, 4, 5] ∧ (s.ctx p.ctx).quota.at_ ty < ((s.ctx p.ctx).quota.put p).at_ ty
            ∧ s.quotaTotal ty < s.quotaSum p.ctx (fun y => y.at_ ty) + ((s.ctx p.ctx).quota.put p).at_ ty) →
          ∃ t, exec (.quotaSet sid) s = .next t ∧ Refused s t sid x p .noResource 0)
      ∧ ([1, 2, 3, 4, 5].find? (fun ty => decide (s.quotaTotal ty < (p.num? ty).getD 0)) = none →
          (∀ ty, ty ∈ [1, 2, 3, 4, 5] → (s.ctx p.ctx).quota.at_ ty < ((s.ctx p.ctx).quota.put p).at_ ty →
            s.quotaSum p.ctx (fun y => y.at_ ty) + ((s.ctx p.ctx).quota.put p).at_ ty ≤ s.quotaTotal ty) →
          ∃ t, exec (.quotaSet sid) s = .next t ∧ WriteDone s t sid x p .ok []
            ((s.commit.updCtx p.ctx (fun y => { y with quota := (s.ctx p.ctx).quota.put p, state := if y.state = .free then .stopped else y.state })).configChanged)
          ∧ (t.ctx p.ctx).quota = (s.ctx p.ctx).quota.put p ∧ ∀ k, k ≠ p.ctx → t.ctx k = s.ctx k))
  ∧ (∀ (s : State) (sid : Nat) (x : Session) (p : Packet), Asks s 0x0701 sid x p →
      (∀ ty v, ty ∈ [1, 2] → (ty = 2 → ∀ w, p.num? 1 = some w → 60 ≤ w ∧ w ≤ 410) → p.num? ty = some v → (v < 60 ∨ 410 < v) → ∃ t, exec (.budgetSet sid) s = .next t
        ∧ Refused s t sid x p .badParam (p.off ty))
      ∧ ((∀ ty v, ty ∈ [1, 2] → p.num? ty = some v → 60 ≤ v ∧ v ≤ 410) → ∃ t, exec (.budgetSet sid) s = .next t
        ∧ Replied s t sid x (replyOf p .ok 0 [] (s.life.commit + 1))
        ∧ t.supply.mainBudget = (p.num? 1).getD s.supply.mainBudget ∧ t.supply.backupBudget = (p.num? 2).getD s.supply.backupBudget
        ∧ (t.inForce < s.inForce → t.supply.cutting = true) ∧ (s.inForce ≤ t.inForce → t.supply.cutting = s.supply.cutting) ∧ t.ckpt.timer = true
        ∧ { t with comms := s.comms, out := s.out, life := s.life, ckpt := { t.ckpt with timer := s.ckpt.timer },
                   supply := { t.supply with mainBudget := s.supply.mainBudget, backupBudget := s.supply.backupBudget, cutting := s.supply.cutting } } = s))
  ∧ (∀ (s : State) (sid : Nat) (x : Session) (p : Packet), Asks s 0x0801 sid x p →
      (∀ ty, packBad (p.num 2) (p.num 3) (p.num 4) (p.num? 5) = some ty → ∃ t, exec (.packConfig sid) s = .next t ∧ Refused s t sid x p .badParam (p.off ty))
      ∧ (packBad (p.num 2) (p.num 3) (p.num 4) (p.num? 5) = none → ∃ t, exec (.packConfig sid) s = .next t
        ∧ WriteDone s t sid x p .ok [] (s.commit.writeOption (fun o =>
            { o with packId := p.num 1, psize := p.num 2, ppos := p.num 3, psource := p.num 4, pstandby := (p.num? 5).getD 0xFF }))
        ∧ t.opt.shadow.packId = p.num 1 ∧ t.opt.shadow.psize = p.num 2 ∧ t.opt.shadow.ppos = p.num 3 ∧ t.opt.shadow.psource = p.num 4 ∧ t.opt.loaded = s.opt.loaded
        ∧ t.opt.shadow.mainBud = s.opt.shadow.mainBud ∧ t.opt.shadow.lock = s.opt.shadow.lock ∧ t.opt.shadow.svcEn = s.opt.shadow.svcEn))

/-- On a module of its own, where no role, form, boot or lead rule refuses it: CTX_START of a context whose start is possible
leaves it Waiting with its counts, passes and owed stops clear, with OK, or Shed with BUDGET where the draw test fails; a
start that is not possible changes nothing and answers why. CTX_STOP of a Free or Stopped context is OK and changes nothing;
of one with a period or iteration in progress it is accepted and owed; of another it takes effect at once. CTX_RESET stops a
context at once and keeps every byte of memory. RUN with a range that the module can take is accepted with the next pass
number and waits; a range that ends before it begins, a context that is not started, has a pass waiting or is faulted, and
context 0 are refused. RUN_CANCEL marks the pass that runs, and drops the one that waits. (R38, R278, R295, R296, R297, R298,
R306, R309, R409, R410, R411, R426) -/
def Obligations.ContextCommandsTakeEffect : Prop :=
  (∀ (s : State) (sid : Nat) (x : Session) (p : Packet), Asks s 0x0401 sid x p → s.solo = true →
      (((s.taken sid p).startCtx p.ctx).1 = .ok → ∃ t, exec (.ctxStart sid) s = .next t
        ∧ WriteDone s t sid x p .ok [] ((s.taken sid p).startCtx p.ctx).2.configChanged ∧ (t.ctx p.ctx).state = .waiting
        ∧ (t.ctx p.ctx).late = 0 ∧ (t.ctx p.ctx).cause = 0 ∧ (t.ctx p.ctx).pass = none ∧ (t.ctx p.ctx).pend = none ∧ (t.ctx p.ctx).stopReq = none ∧ t.ckpt.timer = true)
      ∧ (((s.taken sid p).startCtx p.ctx).1 = .budget → ∃ t, exec (.ctxStart sid) s = .next t
        ∧ WriteDone s t sid x p .budget [] ((s.taken sid p).startCtx p.ctx).2.configChanged ∧ (t.ctx p.ctx).state = .shed ∧ (t.logs.word 0).getLsbD 7 = true)
      ∧ (¬ ((s.taken sid p).startCtx p.ctx).1.code < 0x10 → ∃ t, exec (.ctxStart sid) s = .next t ∧ Refused s t sid x p ((s.taken sid p).startCtx p.ctx).1 0)
      ∧ (∀ i m, s.image = some i → s.member p.ctx = some m → (s.ctx p.ctx).started = true → ∃ t, exec (.ctxStart sid) s = .next t ∧ Refused s t sid x p .busy 0)
      ∧ (∀ i, s.image = some i → s.member p.ctx = none → ∃ t, exec (.ctxStart sid) s = .next t ∧ Refused s t sid x p .badParam 0))
  ∧ (∀ (s : State) (sid : Nat) (x : Session) (p : Packet), Asks s 0x0402 sid x p → s.solo = true →
      (((s.ctx p.ctx).state = .free ∨ (s.ctx p.ctx).state = .stopped) → ∃ t, exec (.ctxStop sid) s = .next t ∧ ReadDone s t sid x p [])
      ∧ ((s.ctx p.ctx).live = true → (s.idle p.ctx = false ∨ (p.ctx = 0 ∧ s.watch.mandatory = true)) → ∃ t, exec (.ctxStop sid) s = .next t
        ∧ WriteDone s t sid x p .accepted [] ((s.commit.updCtx p.ctx (fun y => { y with stopReq := some (y.stopReq.getD [] ++ [(sid, p.seq)]), pend := none })).configChanged)
        ∧ (t.ctx p.ctx).state = (s.ctx p.ctx).state ∧ t.threads = s.threads)
      ∧ (((s.ctx p.ctx).state = .shed ∨ (s.ctx p.ctx).state = .faulted ∨ ((s.ctx p.ctx).live = true ∧ s.idle p.ctx = true ∧ (p.ctx ≠ 0 ∨ s.watch.mandatory = false))) → ∃ t, exec (.ctxStop sid) s = .next t
        ∧ Replied s t sid x (replyOf p .accepted 0 [] (s.life.commit + 1)) ∧ (t.ctx p.ctx).state = .stopped ∧ (t.ctx p.ctx).stopReq = none
        ∧ (t.ctx p.ctx).pend = none ∧ (t.ctx p.ctx).pass = none ∧ t.mem = s.mem ∧ t.img = s.img ∧ t.opt = s.opt ∧ { t.supply with waiting := s.supply.waiting } = s.supply))
  ∧ (∀ (s : State) (sid : Nat) (x : Session) (p : Packet), Asks s 0x0403 sid x p → s.solo = true →
      (((s.ctx p.ctx).state = .free ∨ (s.ctx p.ctx).state = .stopped) → ∃ t, exec (.ctxReset sid) s = .next t ∧ ReadDone s t sid x p [])
      ∧ ((s.ctx p.ctx).state ≠ .free → (s.ctx p.ctx).state ≠ .stopped → ∃ t, exec (.ctxReset sid) s = .next t
        ∧ Replied s t sid x (replyOf p .ok 0 [] (s.life.commit + 1)) ∧ (t.ctx p.ctx).state = .stopped ∧ (t.ctx p.ctx).cause = 0 ∧ (t.ctx p.ctx).stopReq = none
        ∧ (t.ctx p.ctx).pend = none ∧ (t.ctx p.ctx).pass = none ∧ t.mem = s.mem ∧ t.img = s.img ∧ t.opt = s.opt ∧ { t.supply with waiting := s.supply.waiting } = s.supply ∧ t.results = s.results))
  ∧ (∀ (s : State) (sid : Nat) (x : Session) (p : Packet), Asks s 0x0408 sid x p → s.solo = true →
      (∀ a b f l, p.num 1 = a → p.num 2 = b → p.ctx ≠ 0 → ((s.ctx p.ctx).live = true ∨ (s.ctx p.ctx).state = .shed) → a ≤ b → s.ing.s0.isSome = true → (s.ctx p.ctx).pend = none →
          s.runRange a b = .ok (f, l) → ∃ t, exec (.run sid) s = .next t
        ∧ WriteDone s t sid x p .accepted [be 4 ((s.ctx p.ctx).passNo + 1)] (s.commit.updCtx p.ctx (fun y => { y with passNo := y.passNo + 1, pend := some { no := y.passNo + 1, first := f, last := l, run := 1, askedBy := some (sid, p.seq), sfirst := a, slast := b } })))
      ∧ (p.ctx = 0 → ∃ t, exec (.run sid) s = .next t ∧ Refused s t sid x p .badParam 0)
      ∧ (p.ctx ≠ 0 → ((s.ctx p.ctx).state = .free ∨ (s.ctx p.ctx).state = .stopped) → ∃ t, exec (.run sid) s = .next t ∧ Refused s t sid x p .busy 0)
      ∧ (p.ctx ≠ 0 → (s.ctx p.ctx).state = .faulted → ∃ t, exec (.run sid) s = .next t ∧ Refused s t sid x p .watchdog (s.ctx p.ctx).cause)
      ∧ (p.ctx ≠ 0 → (s.ctx p.ctx).live = true → p.num 2 < p.num 1 → ∃ t, exec (.run sid) s = .next t ∧ Refused s t sid x p .badParam (p.off 2))
      ∧ (p.ctx ≠ 0 → (s.ctx p.ctx).live = true → p.num 1 ≤ p.num 2 → (s.ctx p.ctx).pend.isSome = true → ∃ t, exec (.run sid) s = .next t ∧ Refused s t sid x p .busy 0))
  ∧ (∀ (s : State) (sid : Nat) (x : Session) (p : Packet), Asks s 0x0409 sid x p →
      (p.ctx = 0 → ∃ t, exec (.runCancel sid) s = .next t ∧ Refused s t sid x p .badParam 0)
      ∧ (p.ctx ≠ 0 → 1 < p.num 1 → ∃ t, exec (.runCancel sid) s = .next t ∧ Refused s t sid x p .badParam (p.off 1))
      ∧ (p.ctx ≠ 0 → p.num 1 ≤ 1 → (s.ctx p.ctx).pend = none → (p.num 1 = 1 ∨ (s.ctx p.ctx).pass = none) → ∃ t, exec (.runCancel sid) s = .next t ∧ ReadDone s t sid x p [])
      ∧ (p.ctx ≠ 0 → p.num 1 = 1 → (s.ctx p.ctx).pend.isSome = true → ∃ t, exec (.runCancel sid) s = .next t
        ∧ WriteDone s t sid x p .ok [] (s.commit.updCtx p.ctx (fun y => { y with pend := none })))
      ∧ (p.ctx ≠ 0 → p.num 1 = 0 → ((s.ctx p.ctx).pend.isSome = true ∨ (s.ctx p.ctx).pass.isSome = true) → ∃ t, exec (.runCancel sid) s = .next t
        ∧ WriteDone s t sid x p .ok [] (s.commit.updCtx p.ctx (fun y => { y with pend := none, pass := y.pass.map (fun q => { q with cancel := true }) }))))

/-- Where no role, form or boot rule refuses it: RESULT_SUB adds the context to those whose results the session takes, unless the
session has 64 subscriptions already (NO_RESOURCE); RESULT_UNSUB takes it out; EVENT_SUB with a mask over defined bits sets
the session's mask and whether it takes advisories, and refuses a mask with another bit; EVENT_UNSUB clears both; each has the
stamp of its own commit in its reply and keeps everything but its session. NOTIFY_ACK takes the notifies up to the number it
names out of the session's ring and makes no commit. CLOSE answers and then ends the session: nothing of it is left, and every
other session stands. (R274, R401, R404, R411, R418, R420, R421) -/
def Obligations.SubscriptionCommandsTakeEffect : Prop :=
  (∀ (s : State) (sid : Nat) (x : Session) (p : Packet), Asks s 0x0502 sid x p →
      ((x.results.contains p.ctx = true ∨ s.subsOf sid < 64) → ∃ t y, exec (.resultSub sid) s = .next t ∧ Replied s t sid x (replyOf p .ok 0 [] (s.life.commit + 1))
        ∧ t.sess sid = some y ∧ y.results = (if x.results.contains p.ctx then x.results else x.results ++ [p.ctx]) ∧ y.role = x.role
        ∧ { t with comms := s.comms, out := s.out, life := s.life } = s ∧ t.life.commit = s.life.commit + 1 ∧ ∀ n, n ≠ sid → t.sess n = s.sess n)
      ∧ (x.results.contains p.ctx = false → 64 ≤ s.subsOf sid → ∃ t, exec (.resultSub sid) s = .next t ∧ Refused s t sid x p .noResource 0))
  ∧ (∀ (s : State) (sid : Nat) (x : Session) (p : Packet), Asks s 0x0503 sid x p →
      ∃ t y, exec (.resultUnsub sid) s = .next t ∧ Replied s t sid x (replyOf p .ok 0 [] (s.life.commit + 1))
        ∧ t.sess sid = some y ∧ y.results = x.results.filter (· ≠ p.ctx) ∧ y.events = x.events
        ∧ { t with comms := s.comms, out := s.out, life := s.life } = s ∧ t.life.commit = s.life.commit + 1 ∧ ∀ n, n ≠ sid → t.sess n = s.sess n)
  ∧ (∀ (s : State) (sid : Nat) (x : Session) (p : Packet), Asks s 0x0505 sid x p →
      (p.num 1 &&& maskBits = p.num 1 → p.num 2 ≤ 1 → (x.events.isSome = true ∨ s.subsOf sid < 64) → ∃ t y, exec (.eventSub sid) s = .next t
        ∧ Replied s t sid x (replyOf p .ok 0 [] (s.life.commit + 1)) ∧ t.sess sid = some y ∧ y.events = some (p.num 1) ∧ y.advisories = decide (p.num 2 = 1)
        ∧ y.results = x.results ∧ { t with comms := s.comms, out := s.out, life := s.life } = s ∧ t.life.commit = s.life.commit + 1 ∧ ∀ n, n ≠ sid → t.sess n = s.sess n)
      ∧ (p.num 1 &&& maskBits ≠ p.num 1 → ∃ t, exec (.eventSub sid) s = .next t ∧ Refused s t sid x p .badParam (p.off 1))
      ∧ (p.num 1 &&& maskBits = p.num 1 → 1 < p.num 2 → ∃ t, exec (.eventSub sid) s = .next t ∧ Refused s t sid x p .badParam (p.off 2))
      ∧ (p.num 1 &&& maskBits = p.num 1 → p.num 2 ≤ 1 → x.events = none → 64 ≤ s.subsOf sid → ∃ t, exec (.eventSub sid) s = .next t ∧ Refused s t sid x p .noResource 0))
  ∧ (∀ (s : State) (sid : Nat) (x : Session) (p : Packet), Asks s 0x0506 sid x p →
      ∃ t y, exec (.eventUnsub sid) s = .next t ∧ Replied s t sid x (replyOf p .ok 0 [] (s.life.commit + 1)) ∧ t.sess sid = some y ∧ y.events = none
        ∧ y.advisories = false ∧ y.results = x.results ∧ { t with comms := s.comms, out := s.out, life := s.life } = s ∧ t.life.commit = s.life.commit + 1
        ∧ ∀ n, n ≠ sid → t.sess n = s.sess n)
  ∧ (∀ (s : State) (sid : Nat) (x : Session) (p : Packet), Asks s 0x0006 sid x p →
      ∃ t y, exec (.notifyAck sid) s = .next t ∧ Replied s t sid x (replyOf p .ok 0 [] s.life.commit) ∧ t.sess sid = some y
        ∧ y.notifies = x.notifies.filter (fun n => decide ((2 ^ 31 : Nat) ≤ (p.num 1 + 2 ^ 32 - n.nseq) % 2 ^ 32))
        ∧ { t with comms := s.comms, out := s.out } = s ∧ ∀ n, n ≠ sid → t.sess n = s.sess n)
  ∧ (∀ (s : State) (sid : Nat) (x : Session) (p : Packet), Asks s 0x0005 sid x p →
      ∃ t, exec (.close sid) s = .next t ∧ Replied s t sid x (replyOf p .ok 0 [] (s.life.commit + 1)) ∧ t.sess sid = none ∧ (∀ n, n ≠ sid → t.sess n = s.sess n)
        ∧ (∀ k th, th ∈ (t.counter k).thresholds → th.sid ≠ sid)
        ∧ { t with comms := s.comms, out := s.out, life := s.life, sync := s.sync, ckpt := s.ckpt, ctxs := s.ctxs, img := s.img, upk := s.upk } = s)

/-- Where no role, form or boot rule refuses it: CTR_SIGNAL of an exported counter that is not orphaned adds its delta, saturating
with SAT at the top of 64 bits, and records who signalled and by how much; no other counter's value changes. A delta of zero
is BAD_PARAM, an id that is not exported NOT_PERMITTED and an orphaned counter ORPHANED, and each of them marks MISUSE and
changes no value. CTR_SUB arms a threshold above the value, or notifies one that is reached, and answers its number; CTR_UNSUB
takes it away. BIND of a free counter binds it at value 0, of an orphaned one keeps its value; an id or counter in use is
BUSY. CTR_CLEAR clears the flags of its mask and keeps the value. What the reply says carries the stamp of the commit. (R257,
R261, R263, R264, R274, R279, R281, R411, R420, R423) -/
def Obligations.CounterCommandsTakeEffect : Prop :=
  (∀ (s : State) (sid : Nat) (x : Session) (p : Packet), Asks s 0x0601 sid x p → p.num 1 ≤ 4095 →
      (∀ k, p.num 2 ≠ 0 → s.exportOf p.ctx (p.num 1) = some k → (s.counter k).orphaned = false → ∃ t, exec (.ctrSignal sid) s = .next t
        ∧ Replied s t sid x (replyOf p .ok 0 [] (s.life.commit + 1))
        ∧ (t.counter k).value = min ((s.counter k).value + p.num 2) (2 ^ 64 - 1)
        ∧ (t.counter k).sat = ((s.counter k).sat || decide (2 ^ 64 - 1 < (s.counter k).value + p.num 2))
        ∧ (t.counter k).lastSig = word [(2, 13), (sid, 0)] ∧ (t.counter k).lastDelta = min (p.num 2) (2 ^ 32 - 1)
        ∧ (∀ j, j ≠ k → (t.counter j).value = (s.counter j).value) ∧ t.mem = s.mem ∧ t.hist = s.hist ∧ t.img = s.img ∧ t.opt = s.opt ∧ { t.supply with waiting := s.supply.waiting } = s.supply)
      ∧ (p.num 2 = 0 → ∃ t, exec (.ctrSignal sid) s = .next t ∧ Replied s t sid x (replyOf p .badParam (p.off 2) [] s.life.commit)
        ∧ (t.logs.word 2).getLsbD 1 = true ∧ ∀ j, (t.counter j).value = (s.counter j).value)
      ∧ (p.num 2 ≠ 0 → s.exportOf p.ctx (p.num 1) = none → ∃ t, exec (.ctrSignal sid) s = .next t ∧ Replied s t sid x (replyOf p .notPermitted 0 [] s.life.commit)
        ∧ (t.logs.word 2).getLsbD 1 = true ∧ (∀ q, s.physOf p.ctx (p.num 1) = some q → (t.counter q).misuse = true) ∧ ∀ j, (t.counter j).value = (s.counter j).value)
      ∧ (∀ k, p.num 2 ≠ 0 → s.exportOf p.ctx (p.num 1) = some k → (s.counter k).orphaned = true → ∃ t, exec (.ctrSignal sid) s = .next t
        ∧ Replied s t sid x (replyOf p .orphaned 0 [] s.life.commit) ∧ (t.counter k).misuse = true ∧ ∀ j, (t.counter j).value = (s.counter j).value))
  ∧ (∀ (s : State) (sid : Nat) (x : Session) (p : Packet) (k : Nat), Asks s 0x0603 sid x p → p.num 1 ≤ 4095 → s.exportOf p.ctx (p.num 1) = some k →
      (s.counter k).orphaned = false →
      ((64 ≤ s.subsOf sid ∨ 2048 ≤ s.armed (fun _ => true)) → ∃ t, exec (.ctrSub sid) s = .next t ∧ Refused s t sid x p .noResource 0)
      ∧ (s.subsOf sid < 64 → s.armed (fun _ => true) < 2048 → ∃ t, exec (.ctrSub sid) s = .next t
        ∧ Replied s t sid x (replyOf p .ok 0 [(1, be 2 s.sync.nextSub)] (s.life.commit + 1)) ∧ t.sync.nextSub = (s.sync.nextSub + 1) % 65536
        ∧ (t.counter k).thresholds = (if p.num 2 ≤ (s.counter k).value then (s.counter k).thresholds
            else (s.counter k).thresholds ++ [{ sid := sid, subId := s.sync.nextSub, level := p.num 2 }])
        ∧ (t.counter k).value = (s.counter k).value ∧ (∀ j, j ≠ k → t.counter j = s.counter j)
        ∧ { t with comms := s.comms, out := s.out, life := s.life, sync := s.sync } = s))
  ∧ (∀ (s : State) (sid : Nat) (x : Session) (p : Packet), Asks s 0x0604 sid x p →
      (∀ k c, s.sync.counters.find? (fun e => e.2.thresholds.any (fun t => t.sid == sid && t.subId == p.num 1)) = some (k, c) → ∃ t, exec (.ctrUnsub sid) s = .next t
        ∧ WriteDone s t sid x p .ok [] (s.commit.updCounter k (fun c => { c with thresholds := c.thresholds.filter (fun t => !(t.sid == sid && t.subId == p.num 1)) })))
      ∧ (s.sync.counters.find? (fun e => e.2.thresholds.any (fun t => t.sid == sid && t.subId == p.num 1)) = none → ∃ t, exec (.ctrUnsub sid) s = .next t
        ∧ Refused s t sid x p .badParam (p.off 1)))
  ∧ (∀ (s : State) (sid : Nat) (x : Session) (p : Packet), Asks s 0x0605 sid x p → p.num 1 ≤ 4095 → p.num 2 ≤ 16383 →
      (((s.counter (p.num 2)).bound = true ∧ (s.counter (p.num 2)).orphaned = false) → ∃ t, exec (.bind sid) s = .next t ∧ Refused s t sid x p .busy 0)
      ∧ (s.physOf p.ctx (p.num 1) = none → (s.counter (p.num 2)).bound = false → (s.counter (p.num 2)).orphaned = false → (s.owned p.ctx).length < (s.ctx p.ctx).quota.counters →
          ∃ t, exec (.bind sid) s = .next t ∧ Replied s t sid x (replyOf p .ok 0 [] (s.life.commit + 1)) ∧ t.physOf p.ctx (p.num 1) = some (p.num 2)
        ∧ t.counter (p.num 2) = { owner := p.ctx, localId := p.num 1, bound := true } ∧ (∀ j, j ≠ p.num 2 → t.counter j = s.counter j) ∧ t.mem = s.mem ∧ t.threads = s.threads)
      ∧ (s.physOf p.ctx (p.num 1) = none → (s.counter (p.num 2)).orphaned = true → (s.counter (p.num 2)).owner ≠ p.ctx → (s.owned p.ctx).length < (s.ctx p.ctx).quota.counters →
          ∃ t, exec (.bind sid) s = .next t ∧ Replied s t sid x (replyOf p .ok 0 [] (s.life.commit + 1)) ∧ t.physOf p.ctx (p.num 1) = some (p.num 2)
        ∧ t.counter (p.num 2) = { s.counter (p.num 2) with owner := p.ctx, localId := p.num 1, orphaned := false }
        ∧ ∀ j, j ≠ p.num 2 → t.counter j = s.counter j))
  ∧ (∀ (s : State) (sid : Nat) (x : Session) (p : Packet), Asks s 0x0606 sid x p → p.num 1 ≤ 4095 →
      (7 < p.num 2 → ∃ t, exec (.ctrClear sid) s = .next t ∧ Refused s t sid x p .badParam (p.off 2))
      ∧ (p.num 2 ≤ 7 → s.exportOf p.ctx (p.num 1) = none → ∃ t, exec (.ctrClear sid) s = .next t ∧ Refused s t sid x p .notPermitted 0)
      ∧ (∀ k, p.num 2 ≤ 7 → s.exportOf p.ctx (p.num 1) = some k → ∃ t, exec (.ctrClear sid) s = .next t
        ∧ WriteDone s t sid x p .ok [] (s.commit.updCounter k (fun c =>
            { c with sat := c.sat && !(p.num 2).testBit 2, overtaken := c.overtaken && !(p.num 2).testBit 1, misuse := c.misuse && !(p.num 2).testBit 0 }))
        ∧ (t.counter k).value = (s.counter k).value))

/-- Where the command ports answer: the first fragment of an OPEN with an id that no handshake has begins a handshake, unless 8
are in progress; then it changes nothing. An OPEN whose whole message has arrived, whose chain ends at an anchor that the
module accepts, takes two random values and a session number that is neither open nor assigned, and ACCEPT leaves; one whose
chain is not accepted ends the handshake and nothing leaves. A CONFIRM whose whole message has arrived opens the session with
the role of its anchor, at SEQ 1, with an OK reply as its first record where its signature is good, and ends the handshake
without one where it is not. A timeout drops the handshake. Nothing but handshakes, the session and what leaves changes; a
module in Rest is Ready again. (R68, R394, R397, R398, R399, R401, R404, 11_command_packets.md) -/
def Obligations.HandshakesOpenSessions : Prop :=
  (∀ (port addr msg session hsid frag frags : Nat) (data : List Byte) (s : State), s.wake.portsUp = true → frag < frags → frags ≤ 32 →
      ((frag + 1 = frags ∧ data.length ≤ 1200) ∨ data.length = 1200) → s.hs hsid = none → msg = 1 → session = 0xFFFF →
      (s.comms.handshakes.length < 8 → exec (.handshakeRecord port addr msg session hsid frag frags data) s = .next
        { s.wake with comms := { s.comms with handshakes := s.comms.handshakes ++ [{ hsid := hsid, addr := addr, port := port, parts := [(1, frag, data)], frags := frags }] } })
      ∧ (8 ≤ s.comms.handshakes.length → exec (.handshakeRecord port addr msg session hsid frag frags data) s = .next s.wake))
  ∧ (∀ (port addr hsid frag frags n : Nat) (data : List Byte) (s : State) (h : Handshake), s.wake.portsUp = true → frag < frags → frags ≤ 32 →
      ((frag + 1 = frags ∧ data.length ≤ 1200) ∨ data.length = 1200) → s.hs hsid = some h → h.session = some n → ∃ t g,
        exec (.handshakeRecord port addr 3 n hsid frag frags data) s = .next t ∧ t.hs hsid = some g ∧ g.session = some n ∧ g.role = h.role ∧ (3, frag, data) ∈ g.parts
        ∧ { t with comms := { t.comms with handshakes := s.comms.handshakes } } = s.wake)
  ∧ (∀ (hsid : Nat) (chain : Chain) (s : State) (h : Handshake) (m : List Byte), s.hs hsid = some h → h.message 1 = some m → s.portsUp = true → h.session = none →
      (∀ a n, s.acceptsChain chain = some a → s.freeSession = some n → ∃ t g, exec (.openMsg hsid chain) s = .next t ∧ t.hs hsid = some g ∧ g.session = some n ∧ g.role = a.role
        ∧ g.chain = chain ∧ t.draws = s.draws + 2 ∧ s.sess n = none ∧ t.out = s.out ++ [.accept h.port h.addr hsid n (acceptMessage s.draws m)]
        ∧ { t with comms := { t.comms with handshakes := s.comms.handshakes }, out := s.out, draws := s.draws } = s)
      ∧ ((s.acceptsChain chain = none ∨ s.freeSession = none) → exec (.openMsg hsid chain) s = .next (s.dropHs hsid)))
  ∧ (∀ (hsid : Nat) (sigOk : Bool) (s : State) (h : Handshake) (m : List Byte) (n : Nat), s.hs hsid = some h → h.session = some n → h.message 3 = some m → s.portsUp = true →
      (sigOk = true → ∃ t y, exec (.confirm hsid sigOk) s = .next t ∧ t.sess n = some y ∧ y.role = h.role ∧ y.anchor = h.chain.anchor.getD 0 ∧ y.nextSeq = 1 ∧ y.ring = []
        ∧ t.hs hsid = none ∧ t.out = s.out ++ [.reply n 1 (if s.comms.prp then 6 else h.port) { opcode := 0x0003, seq := 0, status := .ok, commit := s.life.commit }]
        ∧ (∀ k, k ≠ n → t.sess k = s.sess k) ∧ { t with comms := s.comms, out := s.out } = s)
      ∧ (sigOk = false → exec (.confirm hsid sigOk) s = .next (s.dropHs hsid)))
  ∧ (∀ (hsid : Nat) (s : State), exec (.handshakeTimeout hsid) s = .next { s with comms := { s.comms with handshakes := s.comms.handshakes.filter (fun h => h.hsid != hsid) } })

/-- Where the command ports answer: a protected record whose tag fails, or whose number was seen or lies more than 1,024 below the
highest, is dropped and counted, and nothing else changes. One that is good is seen, moves the session to its port and
address, and a command packet within the next 16 sequence numbers that is not waiting yet waits in the session's ring. A
record for a session that is not open is answered once per address with a refusal. A session idle for 30 s ends and every
other one stands. Notifies that no acknowledgement covers go again, in order, and stay in the ring. In PRP mode a supervision
frame leaves both command ports. The oldest bulk packet of a session leaves its ring; where it is a whole chunk of the image
transfer its bytes are in the inactive slot and the chunk has arrived, and where it fits no transfer nothing else changes.
(R68, R393, R395, R396, R401, R404, R405, R407, R421, 11_command_packets.md) -/
def Obligations.RecordsAndSessionTimersTakeEffect : Prop :=
  (∀ (port addr sid recno : Nat) (tagOk : Bool) (payload : List Byte) (s : State) (x : Session), s.wake.portsUp = true → s.sess sid = some x →
      ((tagOk = false ∨ recno = 0 ∨ recno + 1024 < x.rxHigh ∨ x.rxSeen.contains recno = true) → exec (.protectedRecord port addr sid recno tagOk payload) s =
        .next { s.wake with comms := { s.comms with dropped := s.comms.dropped + 1 } })
      ∧ (tagOk = true → 1 ≤ recno → x.rxHigh ≤ recno + 1024 → x.rxSeen.contains recno = false → headerOk payload = true → isBulk payload = false →
          ((readPacket payload).seq + 2 ^ 32 - x.nextSeq) % 2 ^ 32 < 16 → x.ring.any (fun q => q.seq == (readPacket payload).seq) = false →
          (cmdRow (readPacket payload).opcode).isSome = true → ((x.headCmd.map (fun q => (cmdRow q.opcode).isSome)).getD true) = true →
          ∃ t, exec (.protectedRecord port addr sid recno tagOk payload) s = .next t
        ∧ t.sess sid = some { x with rxHigh := max x.rxHigh recno, rxSeen := recno :: x.rxSeen.filter (fun n => decide (max x.rxHigh recno ≤ n + 1024)), port := port, addr := addr,
                                     ring := x.ring ++ [readPacket payload] }
        ∧ (∀ n, n ≠ sid → t.sess n = s.sess n) ∧ { t with comms := s.comms } = s.wake))
  ∧ (∀ (port addr sid recno : Nat) (tagOk : Bool) (payload : List Byte) (s : State), s.wake.portsUp = true → s.sess sid = none → s.comms.refusedTo.contains addr = false →
      exec (.protectedRecord port addr sid recno tagOk payload) s =
        .next { s.wake with comms := { s.comms with refusedTo := addr :: s.comms.refusedTo }, out := s.out ++ [.refusal port addr sid] })
  ∧ (∀ (sid : Nat) (s : State), s.portsUp = true → ∃ t, exec (.sessionIdleTimeout sid) s = .next t ∧ t.sess sid = none ∧ (∀ n, n ≠ sid → t.sess n = s.sess n)
      ∧ { t with comms := s.comms, out := s.out, sync := s.sync, ckpt := s.ckpt, ctxs := s.ctxs, img := s.img, upk := s.upk } = s)
  ∧ (∀ (sid : Nat) (s : State) (x : Session), s.portsUp = true → s.sess sid = some x → ∃ t y, exec (.notifyResend sid) s = .next t ∧ t.sess sid = some y
      ∧ y = { x with txNext := x.txNext + x.notifies.length } ∧ (∀ n, n ≠ sid → t.sess n = s.sess n) ∧ { t with comms := s.comms, out := s.out } = s
      ∧ t.out = s.out ++ (x.notifies.zip (List.range x.notifies.length)).map (fun e => .notify sid (x.txNext + e.2) (s.outPort x) e.1))
  ∧ (∀ (s : State), s.portsUp = true → s.comms.prp = true → exec .prpSupervision s = .next { s with out := s.out ++ [.supervision 4, .supervision 5] })
  ∧ (∀ (sid no off : Nat) (data : List Byte) (rest : List (Nat × Nat × List Byte)) (s : State) (x : Session), s.sess sid = some x → x.bulk = (no, off, data) :: rest → s.fwUp = true →
      (∀ f, s.img.xfer = some f → f.takes no off data.length = true → ∃ t, exec (.bulk sid) s = .next t ∧ t.sess sid = some { x with bulk := rest }
        ∧ t.img.xfer = some { f with got := Tab.set 0 f.got (off / max 1 f.chunk) 1 } ∧ (t.imgSlot s.inactive).bytes = putBytes (s.imgSlot s.inactive).bytes off data
        ∧ (∀ i, i < data.length → Tab.get 0 (t.imgSlot s.inactive).bytes (off + i) = data.getD i 0) ∧ { t with comms := s.comms, img := s.img } = s)
      ∧ (s.img.xfer = none → s.img.fwXfer = none → exec (.bulk sid) s = .next (s.setSess sid (some { x with bulk := rest }))))

/-- Where no role, form, boot or lead rule refuses it: TROUBLE_CLEAR over defined bits clears those bits of the word it names, and
no other bit, and answers the words. REPLAN of a retired panel with 16 free planes of its core is accepted, names those
targets and queues a programming of each; while another replan or a swap runs it is BUSY, with too few planes NO_RESOURCE.
SWEEP of a panel is accepted and queues a level read of its 17 planes. RETIRE of a board page takes a spare page, logged; of a
board bank or of an SRAM bank takes it out; addresses outside are BAD_PARAM, and units without a spare NO_RESOURCE. CHECKPOINT
is accepted and waits for its checkpoint; RESTART takes a checkpoint first and is then due. Each is one commit, whose stamp
its reply has; a refused one changes nothing. (R174, R182, R411, R423, R448, R450, R451, R452, R507, 12_keeping_data_whole.md) -/
def Obligations.ServiceCommandsTakeEffect : Prop :=
  (∀ (s : State) (sid : Nat) (x : Session) (p : Packet), Asks s 0x0902 sid x p →
      (2 < p.num 1 → ∃ t, exec (.troubleClear sid) s = .next t ∧ Refused s t sid x p .badParam (p.off 1))
      ∧ (p.num 1 ≤ 2 → p.num 2 &&& troubleBits (p.num 1) ≠ p.num 2 → ∃ t, exec (.troubleClear sid) s = .next t ∧ Refused s t sid x p .badParam (p.off 2))
      ∧ (p.num 1 ≤ 2 → p.num 2 &&& troubleBits (p.num 1) = p.num 2 → ∃ t, exec (.troubleClear sid) s = .next t
        ∧ WriteDone s t sid x p .ok [t.logs.bytes] (s.commit.clearTrouble (p.num 1) (p.num 2))
        ∧ ∀ v b, v < 3 → b < 32 → (t.logs.word v).getLsbD b = ((s.logs.word v).getLsbD b && !(decide (v = p.num 1) && (p.num 2).testBit b))))
  ∧ (∀ (s : State) (sid : Nat) (x : Session) (p : Packet), Asks s 0x0A03 sid x p →
      ((locOk (p.num 1) 5 = false ∨ (s.panel (locToEngine (p.num 1))).pstate ≠ 3 ∨ (s.panel (locToEngine (p.num 1))).replanned = true) → ∃ t, exec (.replan sid) s = .next t
        ∧ Refused s t sid x p .badParam (p.off 1))
      ∧ (locOk (p.num 1) 5 = true → (s.panel (locToEngine (p.num 1))).pstate = 3 → (s.panel (locToEngine (p.num 1))).replanned = false →
          ((s.upk.replan.isSome = true ∨ s.img.swap.isSome = true) → ∃ t, exec (.replan sid) s = .next t ∧ Refused s t sid x p .busy 0)
        ∧ (s.upk.replan = none → s.img.swap = none → (s.freePlanes (locToEngine (p.num 1))).length < 16 → ∃ t, exec (.replan sid) s = .next t ∧ Refused s t sid x p .noResource 0)
        ∧ (s.upk.replan = none → s.img.swap = none → 16 ≤ (s.freePlanes (locToEngine (p.num 1))).length → ∃ t, exec (.replan sid) s = .next t
          ∧ Replied s t sid x (replyOf p .accepted 0 [] (s.life.commit + 1))
          ∧ t.upk.replan = some { engine := locToEngine (p.num 1), targets := (s.freePlanes (locToEngine (p.num 1))).take 16,
                                  left := (s.freePlanes (locToEngine (p.num 1))).take 16, askedBy := some (sid, p.seq) }
          ∧ (∀ e, e ∈ (s.freePlanes (locToEngine (p.num 1))).take 16 → ({ prio := 3, engine := e.1, plane := e.2, op := .program, why := .replan } : Work) ∈ t.upk.queue)
          ∧ (∀ w, w ∈ s.upk.queue → w ∈ t.upk.queue) ∧ { t with comms := s.comms, out := s.out, life := s.life, upk := s.upk } = s)))
  ∧ (∀ (s : State) (sid : Nat) (x : Session) (p : Packet), Asks s 0x0A04 sid x p →
      (locOk (p.num 1) 5 = false → ∃ t, exec (.sweep sid) s = .next t ∧ Refused s t sid x p .badParam (p.off 1))
      ∧ (locOk (p.num 1) 5 = true → ∃ t, exec (.sweep sid) s = .next t ∧ Replied s t sid x (replyOf p .accepted 0 [] (s.life.commit + 1))
        ∧ t.upk.sweepAsked = s.upk.sweepAsked ++ [(locToEngine (p.num 1), sid, p.seq)]
        ∧ (∀ k, k < 17 → ({ prio := 6, engine := locToEngine (p.num 1), plane := k, op := .levelRead, why := .sweep } : Work) ∈ t.upk.queue)
        ∧ (∀ w, w ∈ s.upk.queue → w ∈ t.upk.queue) ∧ { t with comms := s.comms, out := s.out, life := s.life, upk := s.upk } = s))
  ∧ (∀ (s : State) (sid : Nat) (x : Session) (p : Packet), Asks s 0x0A05 sid x p →
      (2 < p.num 1 → ∃ t, exec (.retire sid) s = .next t ∧ Refused s t sid x p .badParam (p.off 1))
      ∧ (p.num 1 = 0 → Space.board.size ≤ p.num 2 → ∃ t, exec (.retire sid) s = .next t ∧ Refused s t sid x p .badParam (p.off 2))
      ∧ (p.num 1 = 0 → p.num 2 < Space.board.size → 4096 ≤ s.mem.spares → ∃ t, exec (.retire sid) s = .next t ∧ Refused s t sid x p .noResource 0)
      ∧ (p.num 1 = 0 → p.num 2 < Space.board.size → s.mem.spares < 4096 → ∃ t, exec (.retire sid) s = .next t ∧ Replied s t sid x (replyOf p .ok 0 [] (s.life.commit + 1))
        ∧ Tab.get 0 t.mem.remap (p.num 2 / 4096) = s.mem.spares + 1 ∧ t.mem.spares = s.mem.spares + 1 ∧ t.upk.dirty = true
        ∧ ∀ (sp : Space) (a : Nat), t.mem.read sp a = s.mem.read sp a)
      ∧ (p.num 1 = 1 → p.num 2 < Space.board.size → s.mem.banks.contains (bankKey (p.num 2)) = false → 4 ≤ s.mem.banks.length → ∃ t, exec (.retire sid) s = .next t
        ∧ Refused s t sid x p .noResource 0)
      ∧ (p.num 1 = 1 → p.num 2 < Space.board.size → s.mem.banks.contains (bankKey (p.num 2)) = false → s.mem.banks.length < 4 → s.image = none → ∃ t, exec (.retire sid) s = .next t
        ∧ Replied s t sid x (replyOf p .ok 0 [] (s.life.commit + 1)) ∧ t.mem.banks = s.mem.banks ++ [bankKey (p.num 2)] ∧ t.upk.dirty = true)
      ∧ (∀ u size, p.num 1 = 2 → sramUnit (p.num 2 / 2 ^ 32) (p.num 2 % 2 ^ 32) = some (u, size) → p.num 2 % 2 ^ 32 < size → p.num 2 % 2 ^ 32 % 8192 = 0 →
          (Tab.get 0 s.mem.sramBanks u = 0 → ∃ t, exec (.retire sid) s = .next t ∧ Replied s t sid x (replyOf p .ok 0 [] (s.life.commit + 1))
            ∧ Tab.get 0 t.mem.sramBanks u = p.num 2 % 2 ^ 32 + 1 ∧ t.upk.dirty = true)
          ∧ (Tab.get 0 s.mem.sramBanks u ≠ 0 → ∃ t, exec (.retire sid) s = .next t ∧ Replied s t sid x (replyOf p .noResource 0 [] s.life.commit)
            ∧ t.mem = s.mem ∧ (t.logs.word 1).getLsbD 21 = true)))
  ∧ (∀ (s : State) (sid : Nat) (x : Session) (p : Packet), Asks s 0x0A06 sid x p → ∃ t, exec (.checkpoint sid) s = .next t
      ∧ Replied s t sid x (replyOf p .accepted 0 [] (s.life.commit + 1)) ∧ t.ckpt.asked = s.ckpt.asked ++ [(sid, p.seq)]
      ∧ (t.ckpt.due = true ∨ t.ckpt.staging.isSome = true) ∧ (s.watchRuns = true → t.ckpt.due = true ∧ t.ckpt.staging = s.ckpt.staging)
      ∧ t.ckpt.inForce = s.ckpt.inForce ∧ { t with comms := s.comms, out := s.out, life := s.life, ckpt := s.ckpt } = s)
  ∧ (∀ (s : State) (sid : Nat) (x : Session) (p : Packet), Asks s 0x0C04 sid x p →
      (1 < p.num 1 → ∃ t, exec (.restart sid) s = .next t ∧ Refused s t sid x p .badParam (p.off 1))
      ∧ (p.num 1 ≤ 1 → ∃ t, exec (.restart sid) s = .next t ∧ Replied s t sid x (replyOf p .ok 0 [] (s.life.commit + 1))
        ∧ t.ckpt.restart = some (if p.num 1 = 0 then .warm else .cold) ∧ (t.ckpt.due = true ∨ t.ckpt.staging.isSome = true)
        ∧ t.life.phase = s.life.phase ∧ t.life.due = s.life.due ∧ { t with comms := s.comms, out := s.out, life := s.life, ckpt := s.ckpt } = s))

/-- CONFIG_CHECKPOINT_TIMER after a change of configuration takes a checkpoint where no watch context runs, the staging is free
and no state is poisoned, and makes one due where a watch context runs. CHECKPOINT_STORED of a staged checkpoint puts it in
force, in the other set, and raises the stored stamp to its stamp; where its write has failed nothing comes into force and
CKPTFAIL is set. Where no later checkpoint is due, nobody waits for one any more, and a commanded restart is due with every
session ended and the module halted. Memory, contexts' states and options stand. (R424, R442, R473, R507,
14_power_up_and_trust.md) -/
def Obligations.CheckpointsAreStored : Prop :=
  (∀ s : State, s.ckpt.timer = true →
      (s.watchRuns = true → exec .configCheckpointTimer s = .next { s with ckpt := { s.ckpt with due := true } })
      ∧ (s.watchRuns = false → s.statePoisoned 0 = false → s.ckpt.staging = none →
          exec .configCheckpointTimer s = .next { s with ckpt := { s.ckpt with staging := some s.ckptNow, due := false, timer := false } })
      ∧ (s.watchRuns = false → (s.statePoisoned 0 = true ∨ s.ckpt.staging.isSome = true) → exec .configCheckpointTimer s = .next { s with ckpt := { s.ckpt with due := true } }))
  ∧ (∀ (s : State) (c : Ckpt), s.ckpt.staging = some c → ∃ t, exec (.checkpointStored true) s = .next t
      ∧ t.ckpt.inForce = some c ∧ t.ckpt.set = 1 - s.ckpt.set ∧ t.life.storedStamp = max s.life.storedStamp c.stamp
      ∧ (s.ckpt.due = false → t.ckpt.staging = none ∧ t.ckpt.asked = [] ∧ t.ckpt.restart = none)
      ∧ (∀ k, s.ckpt.due = false → s.ckpt.restart = some k → t.life.phase = .halted ∧ t.life.due = some k ∧ ∀ n, t.sess n = none)
      ∧ (s.ckpt.due = false → s.ckpt.restart = none → t.life.phase = s.life.phase)
      ∧ t.mem = s.mem ∧ t.hist = s.hist ∧ t.opt = s.opt ∧ t.trust = s.trust ∧ t.results = s.results ∧ t.logs = s.logs)
  ∧ (∀ (s : State) (c : Ckpt), s.ckpt.staging = some c → s.ckpt.due = false → ∃ t, exec (.checkpointStored false) s = .next t
      ∧ t.ckpt.inForce = s.ckpt.inForce ∧ t.ckpt.set = s.ckpt.set ∧ t.ckpt.staging = none ∧ t.ckpt.asked = [] ∧ (t.logs.word 2).getLsbD 15 = true
      ∧ t.mem = s.mem ∧ t.hist = s.hist ∧ t.opt = s.opt ∧ t.trust = s.trust ∧ t.results = s.results)

/-- Where no role, form or lead rule refuses it: ANCHOR_ADD of a kind that has room, with a certificate, a role where the kind
asks for one, and, for a firmware anchor, while LOCK is 0, puts the anchor at the lowest free index and answers it; beyond the
limit of its kind it is NO_RESOURCE, a firmware anchor while LOCK is 1 NOT_PERMITTED. ANCHOR_REMOVE takes the anchor out and
ends the sessions that rest on it, but not the last image anchor, nor a firmware anchor while LOCK is 1. DENY_ADD of a new
serial number puts it on the list and ends the sessions whose chain has it. FW_BEGIN opens a transfer into the bank not
booted; FW_END names the first missing offset or is accepted; FIRMWARE_VALIDATION_DONE leaves the bank valid where the
container, read back from the bytes that arrived, passes every check and empty where it does not; FW_ACTIVATE names a valid
bank for the next restart. Measurement 3 follows the trust area at its commit. (R407, R411, R423, R493, R500, R502, R503,
R504, R560, 14_power_up_and_trust.md) -/
def Obligations.TrustAndFirmwareCommandsTakeEffect : Prop :=
  (∀ (s : State) (sid : Nat) (x : Session) (p : Packet), Asks s 0x0B04 sid x p → ∀ cert, p.val 3 = some cert → cert ≠ [] → p.num 1 ≤ 2 → (p.num? 2).getD 0 ≤ 3 →
      (p.num 1 = 0 → (p.num? 2).isSome = true) →
      ((p.num 1 ≠ 2 ∨ s.opt.shadow.lock ≠ 1) → (s.trust.ofKind (p.num 1)).length < anchorMax (p.num 1) → ∃ t a, exec (.anchorAdd sid) s = .next t
        ∧ Replied s t sid x (replyOf p .ok 0 [(1, be 1 s.trust.freeIndex)] (s.life.commit + 1))
        ∧ a = { index := s.trust.freeIndex, kind := p.num 1, role := if p.num 1 = 0 then (p.num? 2).getD 0 else 0, cert := cert }
        ∧ t.trust = { s.trust with anchors := insertAnchor a s.trust.anchors } ∧ a ∈ t.trust.anchors ∧ (∀ b, b ∈ s.trust.anchors → b ∈ t.trust.anchors)
        ∧ t.life.measures = s.life.measures.set 3 t.trust.digest ∧ { t with comms := s.comms, out := s.out, life := s.life, trust := s.trust } = s)
      ∧ (p.num 1 = 2 → s.opt.shadow.lock = 1 → ∃ t, exec (.anchorAdd sid) s = .next t ∧ Refused s t sid x p .notPermitted 0)
      ∧ ((p.num 1 ≠ 2 ∨ s.opt.shadow.lock ≠ 1) → anchorMax (p.num 1) ≤ (s.trust.ofKind (p.num 1)).length → ∃ t, exec (.anchorAdd sid) s = .next t ∧ Refused s t sid x p .noResource 0))
  ∧ (∀ (s : State) (sid : Nat) (x : Session) (p : Packet), Asks s 0x0B05 sid x p →
      (s.trust.anchors.find? (fun a => a.index == p.num 1) = none → ∃ t, exec (.anchorRemove sid) s = .next t ∧ Refused s t sid x p .badParam (p.off 1))
      ∧ (∀ a, s.trust.anchors.find? (fun a => a.index == p.num 1) = some a →
          ((a.kind = 1 → (s.trust.ofKind 1).length ≤ 1 → ∃ t, exec (.anchorRemove sid) s = .next t ∧ Refused s t sid x p .notPermitted 0)
          ∧ (a.kind = 2 → s.opt.shadow.lock = 1 → ∃ t, exec (.anchorRemove sid) s = .next t ∧ Refused s t sid x p .notPermitted 0)
          ∧ (((a.kind = 1 ∧ 1 < (s.trust.ofKind 1).length) ∨ (a.kind = 2 ∧ s.opt.shadow.lock ≠ 1) ∨ (a.kind = 0 ∧ a.role ≠ 3) ∨ (a.kind = 0 ∧ s.opt.shadow.lock ≠ 1)) →
              ∃ t, exec (.anchorRemove sid) s = .next t ∧ Replied s t sid x (replyOf p .ok 0 [] (s.life.commit + 1))
              ∧ t.trust = { s.trust with anchors := s.trust.anchors.filter (fun b => b.index != p.num 1) } ∧ t.life.measures = s.life.measures.set 3 t.trust.digest
              ∧ (∀ n y, t.sess n = some y → a.kind = 0 → n ≠ sid → y.anchor ≠ p.num 1) ∧ t.opt = s.opt ∧ t.mem = s.mem ∧ t.logs = s.logs))))
  ∧ (∀ (s : State) (sid : Nat) (x : Session) (p : Packet), Asks s 0x0B06 sid x p → ∀ n, p.val 1 = some n →
      ((n.length < 1 ∨ 20 < n.length) → ∃ t, exec (.denyAdd sid) s = .next t ∧ Refused s t sid x p .badParam (p.off 1))
      ∧ (1 ≤ n.length → n.length ≤ 20 → s.trust.deny.contains n = true → ∃ t, exec (.denyAdd sid) s = .next t ∧ ReadDone s t sid x p [])
      ∧ (1 ≤ n.length → n.length ≤ 20 → s.trust.deny.contains n = false → 256 ≤ s.trust.deny.length → ∃ t, exec (.denyAdd sid) s = .next t ∧ Refused s t sid x p .noResource 0)
      ∧ (1 ≤ n.length → n.length ≤ 20 → s.trust.deny.contains n = false → s.trust.deny.length < 256 → ∃ t, exec (.denyAdd sid) s = .next t
        ∧ Replied s t sid x (replyOf p .ok 0 [] (s.life.commit + 1)) ∧ t.trust = { s.trust with deny := s.trust.deny ++ [n] }
        ∧ t.life.measures = s.life.measures.set 3 t.trust.digest ∧ (∀ k y, t.sess k = some y → k ≠ sid → y.serials.contains n = false) ∧ t.opt = s.opt ∧ t.mem = s.mem))
  ∧ (∀ (s : State) (sid : Nat) (x : Session) (p : Packet), Asks s 0x0C01 sid x p →
      (2 ^ 26 < p.num 1 → ∃ t, exec (.fwBegin sid) s = .next t ∧ Refused s t sid x p .noResource 0)
      ∧ (p.num 1 = 0 → ∃ t, exec (.fwBegin sid) s = .next t ∧ Refused s t sid x p .badParam (p.off 1))
      ∧ (1 ≤ p.num 1 → p.num 1 ≤ 2 ^ 26 → s.life.bank ≤ 1 → ∃ t, exec (.fwBegin sid) s = .next t
        ∧ Replied s t sid x (replyOf p .ok 0 [(1, be 4 (s.img.lastXfer + 1)), (2, be 4 Config.chunkSize), (3, be 1 (1 - s.life.bank))] (s.life.commit + 1))
        ∧ t.img.fwXfer = some { no := s.img.lastXfer + 1, length := p.num 1, chunk := Config.chunkSize } ∧ t.img.fwBytes = [] ∧ (t.img.bank (1 - s.life.bank)).1 = 2
        ∧ t.img.bank s.life.bank = s.img.bank s.life.bank ∧ t.img.xfer = s.img.xfer ∧ { t with comms := s.comms, out := s.out, life := s.life, img := s.img, store := s.store } = s))
  ∧ (∀ (s : State) (sid : Nat) (x : Session) (p : Packet), Asks s 0x0C02 sid x p →
      ((s.img.fwXfer = none ∨ (s.img.fwXfer.bind (·.ending)).isSome = true) → ∃ t, exec (.fwEnd sid) s = .next t ∧ Refused s t sid x p .busy 0)
      ∧ (∀ f, s.img.fwXfer = some f → f.ending = none → f.missing ≠ top 64 → ∃ t, exec (.fwEnd sid) s = .next t ∧ ReadDone s t sid x p [be 8 f.missing])
      ∧ (∀ f, s.img.fwXfer = some f → f.ending = none → f.missing = top 64 → ∃ t, exec (.fwEnd sid) s = .next t
        ∧ WriteDone s t sid x p .accepted [be 8 (top 64)] { s.commit with img := { s.img with fwXfer := some { f with ending := some (sid, p.seq), digest := p.num 1 } } }))
  ∧ (∀ (given fw : Firmware) (s : State) (f : Xfer) (who : Nat × Nat), s.fwUp = true → s.img.fwXfer = some f → f.ending = some who → s.life.bank ≤ 1 →
      fw = readFirmware s.img.fwBytes f.length f.digest given → ∃ t, exec (.firmwareValidationDone given) s = .next t ∧ t.img.fwXfer = none ∧ t.life.commit = s.life.commit + 1 ∧ t.img.bank s.life.bank = s.img.bank s.life.bank
        ∧ (f.failed = false → fw.verdict s.optv.level s.opt.shadow.fwCtr = .ok → t.img.bank (1 - s.life.bank) = (1, fw))
        ∧ ((f.failed = true ∨ fw.verdict s.optv.level s.opt.shadow.fwCtr ≠ .ok) → t.img.bank (1 - s.life.bank) = (0, {}))
        ∧ { t with img := s.img, comms := s.comms, out := s.out, store := s.store, life := s.life } = s)
  ∧ (∀ (s : State) (sid : Nat) (x : Session) (p : Packet), Asks s 0x0C03 sid x p →
      ((1 < p.num 1 ∨ (s.img.bank (p.num 1)).1 ≠ 1) → ∃ t, exec (.fwActivate sid) s = .next t ∧ Refused s t sid x p .badParam (p.off 1))
      ∧ (p.num 1 ≤ 1 → (s.img.bank (p.num 1)).1 = 1 → ∃ t, exec (.fwActivate sid) s = .next t
        ∧ WriteDone s t sid x p .ok [] (s.commit.writeOption (fun o => { o with bootBank := p.num 1 })) ∧ t.opt.shadow.bootBank = p.num 1 ∧ t.life.bank = s.life.bank))

/-- Where no role or form rule refuses it: OPTION_SET of BOOTFALL, of a budget of 60 W to 410 W or of LOCK changes that field in
the option shadows at its commit and no other field but the copy's sequence number, and a store write of the shadows begins or
is owed; a value out of its range, and LOCK back to 0, are BAD_PARAM, and any other field is NOT_PERMITTED. SERVICE_PORT sets
SVCEN in the same way, and with SVCEN 0 Kennel is locked at once. OPTION_WRITE_DONE puts the written copy into its place as
the newest, and starts the write that is owed. What was loaded at reset stays in force. (R304, R411, R423, R478, R480, R485,
R486, R504, R556) -/
def Obligations.OptionCommandsTakeEffect : Prop :=
  (∀ (s : State) (sid : Nat) (x : Session) (p : Packet), Asks s 0x0C06 sid x p → ∀ v, p.val 2 = some v →
      (∀ o, optField s.opt.shadow (p.num 1) v = .ok o → ∃ t, exec (.optionSet sid) s = .next t ∧ WriteDone s t sid x p .ok [] (s.commit.writeOption (fun _ => o))
        ∧ { t.opt.shadow with seq := o.seq } = o ∧ t.opt.loaded = s.opt.loaded ∧ t.opt.writing.isSome = true
        ∧ (s.opt.writing.isSome = true → t.opt.writing = s.opt.writing ∧ t.opt.again = true)
        ∧ (s.opt.writing = none → t.opt.writing = some (1 - s.opt.newest, t.opt.shadow)))
      ∧ (p.num 1 = 172 → v.length = 2 → 60 ≤ ofBytes v → ofBytes v ≤ 410 → optField s.opt.shadow 172 v = .ok { s.opt.shadow with mainBud := ofBytes v })
      ∧ (p.num 1 = 177 → v.length = 1 → ofBytes v < s.opt.shadow.lock → ∃ t, exec (.optionSet sid) s = .next t ∧ Refused s t sid x p .badParam (p.off 2))
      ∧ (p.num 1 ∉ [145, 172, 174, 177] → ∃ t, exec (.optionSet sid) s = .next t ∧ Refused s t sid x p .notPermitted 0))
  ∧ (∀ (s : State) (sid : Nat) (x : Session) (p : Packet), Asks s 0x0C07 sid x p →
      (1 < p.num 1 → ∃ t, exec (.servicePort sid) s = .next t ∧ Refused s t sid x p .badParam (p.off 1))
      ∧ (p.num 1 ≤ 1 → ∃ t, exec (.servicePort sid) s = .next t ∧ Replied s t sid x (replyOf p .ok 0 [] (s.life.commit + 1)) ∧ t.opt.shadow.svcEn = p.num 1
        ∧ t.opt.loaded = s.opt.loaded ∧ t.opt.shadow.lock = s.opt.shadow.lock ∧ (p.num 1 = 0 → t.kennel.state = .locked ∧ t.kennel.challenge = none)
        ∧ (p.num 1 = 1 → t.kennel = s.kennel) ∧ { t with comms := s.comms, out := s.out, life := s.life, opt := s.opt, store := s.store, upk := s.upk, kennel := s.kennel } = s))
  ∧ (∀ (pulses k : Nat) (v : OptCopy) (s : State), s.opt.writing = some (k, v) → k ≤ 1 → ∃ t, exec (.optionWriteDone pulses) s = .next t
      ∧ t.opt.newest = k ∧ (if k = 0 then t.opt.copy0 else t.opt.copy1) = v ∧ (if k = 0 then t.opt.copy1 else t.opt.copy0) = (if k = 0 then s.opt.copy1 else s.opt.copy0)
      ∧ t.opt.loaded = s.opt.loaded ∧ t.opt.again = false
      ∧ (s.opt.again = false → t.opt.writing = none ∧ t.opt.shadow = s.opt.shadow)
      ∧ (s.opt.again = true → t.opt.writing = some (1 - k, t.opt.shadow) ∧ { t.opt.shadow with seq := s.opt.shadow.seq } = s.opt.shadow)
      ∧ { t with opt := s.opt, kennel := s.kennel, out := s.out, store := s.store, upk := s.upk } = s)

/-- While SVCEN is 1, firmware runs and Kennel is not Locked, each read of Table 17.1 is answered OK with the fields of the words
it names, by the names of their tables, at the present commit stamp; nothing changes but Kennel's line buffer, and a module in
Rest is Ready again. A number beyond its range, a location word of another level and an id that is not bound are answered
BAD_PARAM. (R557, R561, R562, R563, 17_kennel_and_field_service.md) -/
def Obligations.KennelReadsAnswer : Prop :=
  ∀ s : State, s.kennelUp = true → s.kennel.state ≠ .locked →
    (exec .kennelStatus s = .next (s.heard.kennelSay s.life.commit [[("WORD0", s.logs.word0.toNat), ("WORD1", s.logs.word1.toNat), ("WORD2", s.logs.word2.toNat),
        ("FEED", s.feedNo), ("INFORCE", s.inForce / 10), ("DRAW", s.supply.draw), ("TMAX", unsigned 16 s.tmax)],
        fieldsOf (healthByte s.heard.hsense s.heard.healthy s.io.inputs) [("HSENSE", 5, 5), ("HEALTHY", 4, 4), ("INPUTS", 3, 0)]] .ok))
    ∧ (∀ (first count : Option Nat), count.getD 16 ≤ 256 → exec (.kennelLog first count) s = .next (s.heard.kennelSay s.life.commit
        (match first with
         | some l => ((s.logs.all.filter (fun r => decide (l ≤ r.lseq))).take (count.getD 16)).map LogRec.line
         | none => (s.logs.all.drop (s.logs.all.length - count.getD 16)).map LogRec.line) .ok))
    ∧ (∀ (first count : Option Nat), 256 < count.getD 16 → ∃ t, exec (.kennelLog first count) s = .next t ∧ KennelRefused s t .badParam)
    ∧ (exec (.kennelCtx none) s = .next (s.heard.kennelSay s.life.commit ((List.range 64).map s.ctxLine) .ok))
    ∧ (∀ c, c ≤ 63 → exec (.kennelCtx (some c)) s = .next (s.heard.kennelSay s.life.commit [s.ctxLine c] .ok))
    ∧ (∀ c, 63 < c → (∃ t, exec (.kennelCtx (some c)) s = .next t ∧ KennelRefused s t .badParam) ∧ ∃ t, exec (.kennelWaits c) s = .next t ∧ KennelRefused s t .badParam)
    ∧ (∀ c, c ≤ 63 → exec (.kennelWaits c) s = .next (s.heard.kennelSay s.life.commit
        (((s.threadsOf c).filter (fun t => decide ((s.thread t).state = .sleeping))).map s.waitLine) .ok))
    ∧ (∀ c id k, c ≤ 63 → id ≤ 4095 → s.physOf c id = some k → exec (.kennelCtr c id) s = .next (s.heard.kennelSay s.life.commit [fieldsOf (s.inspect k) counterMap] .ok))
    ∧ (∀ c id, (63 < c ∨ 4095 < id ∨ s.physOf c id = none) → ∃ t, exec (.kennelCtr c id) s = .next t ∧ KennelRefused s t .badParam)
    ∧ (∀ k, k ≤ 16383 → exec (.kennelCtrp k) s = .next (s.heard.kennelSay s.life.commit [fieldsOf (s.inspect k) counterMap] .ok))
    ∧ (∀ k, 16383 < k → ∃ t, exec (.kennelCtrp k) s = .next t ∧ KennelRefused s t .badParam)
    ∧ (∀ loc : BitVec 32, (locOk loc.toNat 4 = true → exec (.kennelThread loc) s = .next (s.heard.kennelSay s.life.commit ((List.range 16).map (fun i =>
          ("THREAD", 16 * locToCore loc.toNat + i) :: fieldsOf (s.threadWord (16 * locToCore loc.toNat + i)) threadMap)) .ok))
        ∧ (locOk loc.toNat 4 = false → ∃ t, exec (.kennelThread loc) s = .next t ∧ KennelRefused s t .badParam)
        ∧ (locOk loc.toNat 2 = true → exec (.kennelRing loc) s = .next (s.heard.kennelSay s.life.commit ((List.range 64).map (fun i =>
          ("RING", 64 * locToCluster loc.toNat + i) :: fieldsOf (s.ring (64 * locToCluster loc.toNat + i)).word ringMap)) .ok))
        ∧ (locOk loc.toNat 2 = false → ∃ t, exec (.kennelRing loc) s = .next t ∧ KennelRefused s t .badParam)
        ∧ (locOk loc.toNat 5 = true → exec (.kennelPlanes loc) s = .next (s.heard.kennelSay s.life.commit
          (fieldsOf (s.panel (locToEngine loc.toNat)).word panelMap :: (List.range 17).map (fun k =>
            ("PLANE", k) :: fieldsOf (s.planeWord (17 * locToEngine loc.toNat + k)) planeMap)) .ok))
        ∧ (locOk loc.toNat 5 = false → ∃ t, exec (.kennelPlanes loc) s = .next t ∧ KennelRefused s t .badParam))
    ∧ (exec (.kennelWear none) s = .next (s.heard.kennelSay s.life.commit ((List.range 256).map s.wearLine) .ok))
    ∧ (∀ k, k ≤ 3 → exec (.kennelWear (some k)) s = .next (s.heard.kennelSay s.life.commit ((List.range 64).map (fun i => s.wearLine (64 * k + i))) .ok))
    ∧ (∀ k, 3 < k → ∃ t, exec (.kennelWear (some k)) s = .next t ∧ KennelRefused s t .badParam)
    ∧ (exec .kennelPack s = .next (s.heard.kennelSay s.life.commit s.packLines .ok))
    ∧ (exec .kennelStore s = .next (s.heard.kennelSay s.life.commit s.storeLines .ok))
    ∧ (∀ n, n ≤ 31 → exec (.kennelStream n) s = .next (s.heard.kennelSay s.life.commit [fieldsOf (s.heard.slotWord n) streamMap, (s.slot n).counterLine] .ok))
    ∧ (∀ n, 31 < n → ∃ t, exec (.kennelStream n) s = .next t ∧ KennelRefused s t .badParam)
    ∧ (exec .kennelUpkeep s = .next (s.heard.kennelSay s.life.commit s.upkeepLines .ok))
    ∧ (∀ block arg bs, s.heard.rawBlock block arg = some bs → exec (.kennelRaw block arg) s = .next (s.heard.kennelSay s.life.commit (hexLines 1024 bs) .ok))
    ∧ (∀ block arg, s.heard.rawBlock block arg = none → ∃ t, exec (.kennelRaw block arg) s = .next t ∧ KennelRefused s t .badParam)

/-- Of a Kennel that answers: help and info are answered in every state; an unknown line is BAD_OPCODE. A Locked Kennel with no
lockout is unlocked at once by unlock while LOCK is 0, logged, and the unlock shows in the attestation flags; while LOCK is
not 0 a challenge with a fresh random nonce takes the place of an older one. A response within 5 min whose chain ends at an
accepted client anchor of role Service and whose signature is good unlocks; another answers NOT_PERMITTED, counts, and the
third in a row locks unlock out until the lockout expires. unlock of an opened Kennel or in a lockout is NOT_PERMITTED. lock
and 10 min without a line lock; service on and off change between unlocked and service mode. Held characters count up to
1,024, and those beyond are lost. (R399, R504, R556, R557, R558, R559, R561, R564, 17_kennel_and_field_service.md) -/
def Obligations.KennelUnlocksAndLocks : Prop :=
  (∀ s : State, s.kennelUp = true →
      exec .kennelHelp s = .next (s.heard.kennelSay s.life.commit [s.heard.kennelNames.map (fun n => (n, 0))] .ok)
      ∧ exec .kennelInfo s = .next (s.heard.kennelSay s.life.commit [[("ORDER", ofBytes (textOf s.optv.order)), ("SERIAL", ofBytes (textOf s.optv.serial)),
          ("LEVEL", s.optv.level), ("FWVER", s.life.fwver), ("BANK", s.life.bank), ("POC", s.life.poc), ("MAC", s.optv.mac), ("IMAGEID", s.imageId),
          ("LOCK", s.opt.shadow.lock), ("SVCEN", s.opt.shadow.svcEn)]] .ok)
      ∧ (∃ t, exec .kennelUnknownCommand s = .next t ∧ KennelRefused s t .badOpcode)
      ∧ ((s.kennel.state ≠ .locked ∨ s.kennel.lockout = true) → ∃ t, exec .kennelUnlock s = .next t ∧ KennelRefused s t .notPermitted)
      ∧ (s.kennel.state = .locked → s.kennel.lockout = false → s.opt.shadow.lock = 0 → ∃ t, exec .kennelUnlock s = .next t ∧ t.kennel.state = .unlocked
        ∧ t.kennel.challenge = none ∧ t.kennel.fails = 0 ∧ t.life.unlockedOnce = true ∧ Answered s t t.life.commit [] .ok
        ∧ t.opt = s.opt ∧ t.trust = s.trust ∧ t.mem = s.mem ∧ t.comms = s.comms)
      ∧ (s.kennel.state = .locked → s.kennel.lockout = false → s.opt.shadow.lock ≠ 0 → ∃ t n, exec .kennelUnlock s = .next t ∧ n = Config.random s.draws % 2 ^ 256
        ∧ t.kennel.state = .locked ∧ t.kennel.challenge = some (n, true) ∧ t.draws = s.draws + 1 ∧ t.out = s.out ++ [.challenge n s.kennel.lost] ∧ t.trust = s.trust)
      ∧ (∀ (chain : Chain) (sigOk fresh : Bool) (n : Nat), s.kennel.challenge = some (n, fresh) →
          (∀ a, s.acceptsChain chain = some a → fresh = true → sigOk = true → a.role = 3 → ∃ t, exec (.kennelChallengeResponse chain sigOk) s = .next t
            ∧ t.kennel.state = .unlocked ∧ t.kennel.challenge = none ∧ t.kennel.fails = 0 ∧ Answered s t t.life.commit [] .ok)
          ∧ ((s.acceptsChain chain = none ∨ fresh = false ∨ sigOk = false ∨ ∀ a, s.acceptsChain chain = some a → a.role ≠ 3) → ∃ t,
            exec (.kennelChallengeResponse chain sigOk) s = .next t ∧ t.kennel.state = s.kennel.state ∧ t.kennel.challenge = none
            ∧ (s.kennel.fails < 2 → t.kennel.fails = s.kennel.fails + 1 ∧ t.kennel.lockout = s.kennel.lockout ∧ Answered s t t.life.commit [] .notPermitted)
            ∧ (2 ≤ s.kennel.fails → t.kennel.fails = 0 ∧ t.kennel.lockout = true ∧ Answered s t t.life.commit [] .notPermitted)))
      ∧ (s.kennel.state ≠ .locked → exec .kennelLock s = .next (s.heard.lockKennel.kennelSay s.life.commit [] .ok))
      ∧ exec .kennelIdleTimeout s = .next { s with kennel := { s.kennel with state := .locked, challenge := none } }
      ∧ (s.kennel.state ≠ .locked → ∃ t, exec .kennelServiceOn s = .next t ∧ t.kennel.state = .service ∧ Answered s t s.life.commit [] .ok ∧ t.opt = s.opt ∧ t.mem = s.mem)
      ∧ (s.kennel.state = .service → ∃ t, exec .kennelServiceOff s = .next t ∧ t.kennel.state = .unlocked ∧ Answered s t s.life.commit [] .ok ∧ t.opt = s.opt ∧ t.mem = s.mem)
      ∧ ∀ n, exec (.serviceLineCharacter n) s = .next { s with kennel := { s.kennel with held := min 1024 (s.kennel.held + n), lost := s.kennel.lost || decide (1024 < s.kennel.held + n) } })
  ∧ (∀ (s : State) (n : Nat), s.kennel.challenge = some (n, true) → exec .kennelChallengeExpire s = .next { s with kennel := { s.kennel with challenge := some (n, false) } })
  ∧ (∀ s : State, exec .kennelLockoutExpire s = .next { s with kennel := { s.kennel with lockout := false } })

/-- On a Ready module of its own whose Kennel answers: ctx start of a context whose start is possible, ctx stop and ctx reset do
what the session's command does and answer with the stamp of the command's commit. In service mode anchor list, anchor add,
anchor remove, pack set, port set, option set, trouble clear, retire, restart and lock set change exactly what the session's
command changes, with one commit and one record, and answer its stamp; a bad argument, a refused anchor or option and an
unconfirmed lock set change nothing and answer the status. (R311, R448, R452, R485, R486, R502, R504, R507, R557, R560, R563,
17_kennel_and_field_service.md) -/
def Obligations.KennelChangesTakeEffect : Prop :=
  (∀ (s : State) (c : Nat), s.kennelUp = true → s.isReady = true → s.kennel.state ≠ .locked → s.solo = true → s.isLead = true → c ≤ 63 →
      ((((s.heard.kennelCommit 6).startCtx c).1 = .ok) → ∃ t, exec (.kennelCtxStart c) s = .next t ∧ (t.ctx c).state = .waiting ∧ (t.ctx c).pass = none ∧ t.ckpt.timer = true
        ∧ Answered s t (s.life.commit + 1) [] .ok)
      ∧ (((s.ctx c).state = .free ∨ (s.ctx c).state = .stopped) → (∃ t, exec (.kennelCtxStop c) s = .next t ∧ KennelRefused s t .ok)
        ∧ ∃ t, exec (.kennelCtxReset c) s = .next t ∧ KennelRefused s t .ok)
      ∧ ((s.ctx c).live = true → s.idle c = false → ∃ t, exec (.kennelCtxStop c) s = .next t ∧ (t.ctx c).stopReq.isSome = true ∧ (t.ctx c).pend = none
        ∧ (t.ctx c).state = (s.ctx c).state ∧ t.threads = s.threads ∧ Answered s t (s.life.commit + 1) [] .accepted)
      ∧ (((s.ctx c).state = .shed ∨ (s.ctx c).state = .faulted ∨ ((s.ctx c).live = true ∧ s.idle c = true)) → ∃ t, exec (.kennelCtxStop c) s = .next t
        ∧ (t.ctx c).state = .stopped ∧ (t.ctx c).pass = none ∧ Answered s t (s.life.commit + 1) [] .accepted)
      ∧ ((s.ctx c).state ≠ .free → (s.ctx c).state ≠ .stopped → ∃ t, exec (.kennelCtxReset c) s = .next t ∧ (t.ctx c).state = .stopped ∧ (t.ctx c).cause = 0
        ∧ (t.ctx c).pass = none ∧ t.mem = s.mem ∧ t.opt = s.opt ∧ Answered s t (s.life.commit + 1) [] .ok))
  ∧ (∀ s : State, s.kennelUp = true → s.isReady = true → s.kennel.state = .service →
      (exec .kennelAnchorList s = .next (s.heard.kennelSay s.life.commit (s.trust.anchors.map (fun a =>
          [("INDEX", a.index), ("KIND", a.kind), ("ROLE", a.role), ("DIGEST", Config.sha3 a.cert)])) .ok))
      ∧ (∀ kind role cert n u, s.anchorAdd kind role cert = .ok (n, u) → ∃ t, exec (.kennelAnchorAdd kind role cert) s = .next t ∧ t.trust = u.trust ∧ n = s.trust.freeIndex
          ∧ t.life.measures = u.life.measures ∧ t.opt = s.opt ∧ t.mem = s.mem ∧ Answered s t (s.life.commit + 1) [[("INDEX", n)]] .ok)
      ∧ (∀ kind role cert st, s.anchorAdd kind role cert = .error st → ∃ t, exec (.kennelAnchorAdd kind role cert) s = .next t ∧ KennelRefused s t st)
      ∧ (∀ index u, s.anchorRemove index = .ok u → ∃ t, exec (.kennelAnchorRemove index) s = .next t ∧ t.trust = u.trust ∧ t.life.measures = u.life.measures
          ∧ t.opt = s.opt ∧ t.mem = s.mem ∧ Answered s t (s.life.commit + 1) [] .ok)
      ∧ (∀ index st, s.anchorRemove index = .error st → ∃ t, exec (.kennelAnchorRemove index) s = .next t ∧ KennelRefused s t st)
      ∧ (∀ packId size pos source standby, packBad size pos source standby = none → packId < 2 ^ 64 → ∃ t, exec (.kennelPackSet packId size pos source standby) s = .next t
          ∧ t.opt.shadow.packId = packId ∧ t.opt.shadow.psize = size ∧ t.opt.shadow.ppos = pos ∧ t.opt.shadow.psource = source ∧ t.opt.shadow.pstandby = standby.getD 0xFF
          ∧ t.opt.loaded = s.opt.loaded ∧ t.trust = s.trust ∧ t.mem = s.mem ∧ Answered s t (s.life.commit + 1) [] .ok)
      ∧ (∀ packId size pos source standby, (packBad size pos source standby).isSome = true → ∃ t, exec (.kennelPackSet packId size pos source standby) s = .next t ∧ KennelRefused s t .badParam)
      ∧ (∀ port v, port ≤ 5 → v.length = 2 → portFieldOk port 6 v = true → ∃ t, exec (.kennelPortSet port [(6, v)]) s = .next t
          ∧ (Tab.get {} t.opt.shadow.ports port).mtu = ofBytes v ∧ (∀ k, k ≠ port → Tab.get {} t.opt.shadow.ports k = Tab.get {} s.opt.shadow.ports k)
          ∧ t.opt.loaded = s.opt.loaded ∧ t.mem = s.mem ∧ Answered s t (s.life.commit + 1) [] .ok)
      ∧ (∀ port args, 5 < port → ∃ t, exec (.kennelPortSet port args) s = .next t ∧ KennelRefused s t .badParam)
      ∧ (∀ off v o, optField s.opt.shadow off v = .ok o → ∃ t, exec (.kennelOptionSet off v) s = .next t ∧ { t.opt.shadow with seq := o.seq } = o ∧ t.opt.loaded = s.opt.loaded
          ∧ t.trust = s.trust ∧ t.mem = s.mem ∧ Answered s t (s.life.commit + 1) [] .ok)
      ∧ (∀ off v st, optField s.opt.shadow off v = .error st → ∃ t, exec (.kennelOptionSet off v) s = .next t ∧ KennelRefused s t st)
      ∧ (∀ w (mask : BitVec 32), w ≤ 2 → mask.toNat &&& troubleBits w = mask.toNat → ∃ t, exec (.kennelTroubleClear w mask) s = .next t
          ∧ (∀ v b, v < 3 → b < 32 → (t.logs.word v).getLsbD b = ((s.logs.word v).getLsbD b && !(decide (v = w) && mask.getLsbD b)))
          ∧ t.opt = s.opt ∧ t.mem = s.mem ∧ Answered s t (s.life.commit + 1) [] .ok)
      ∧ (∀ w (mask : BitVec 32), (2 < w ∨ mask.toNat &&& troubleBits w ≠ mask.toNat) → ∃ t, exec (.kennelTroubleClear w mask) s = .next t ∧ KennelRefused s t .badParam)
      ∧ (∀ a, a < Space.board.size → s.mem.spares < 4096 → ∃ t, exec (.kennelRetire 0 a) s = .next t ∧ Tab.get 0 t.mem.remap (a / 4096) = s.mem.spares + 1
          ∧ t.mem.spares = s.mem.spares + 1 ∧ (∀ (sp : Space) (x : Nat), t.mem.read sp x = s.mem.read sp x) ∧ Answered s t (s.life.commit + 1) [] .ok)
      ∧ (∀ kind a, 2 < kind → ∃ t, exec (.kennelRetire kind a) s = .next t ∧ KennelRefused s t .badParam)
      ∧ (∀ kind, kind ≤ 1 → ∃ t, exec (.kennelRestart kind) s = .next t ∧ t.ckpt.restart = some (if kind = 0 then .warm else .cold)
          ∧ (t.ckpt.due = true ∨ t.ckpt.staging.isSome = true) ∧ t.life.due = s.life.due ∧ t.mem = s.mem ∧ Answered s t (s.life.commit + 1) [] .ok)
      ∧ (∀ kind, 1 < kind → ∃ t, exec (.kennelRestart kind) s = .next t ∧ KennelRefused s t .badParam)
      ∧ (∃ t, exec (.kennelLockSet true) s = .next t ∧ t.opt.shadow.lock = 1 ∧ t.opt.loaded = s.opt.loaded ∧ t.opt.shadow.svcEn = s.opt.shadow.svcEn ∧ t.trust = s.trust
          ∧ Answered s t (s.life.commit + 1) [] .ok)
      ∧ ∃ t, exec (.kennelLockSet false) s = .next t ∧ KennelRefused s t .badParam)

/-- While no firmware bank boots and SVCEN is 1: bootlog lists the staged records; on an opened Kennel fwload puts the container
into the bank it names, valid where it passes every check and empty where it does not, and answers the check's status;
bootbank and bootfall of 0 or 1 change that field of the option shadows and owe their answer until it is stored; restart cold
answers and the module is due for a cold restart. While Kennel is Locked the last three but restart answer NOT_PERMITTED. With
firmware running, a line of the boot subset alone is BAD_OPCODE and changes nothing. (R458, R492, R493, R495, R507, R563,
R567, 17_kennel_and_field_service.md) -/
def Obligations.BootCodeServesTheBootSubset : Prop :=
  (∀ s : State, s.kennelBoot = true →
      (exec .kennelBootlog s = .next (s.heard.kennelSay s.life.commit (s.logs.staged.map LogRec.line) .ok))
      ∧ (∀ bank got, s.kennel.state = .locked → (∃ t, exec (.kennelFwload bank got) s = .next t ∧ KennelRefused s t .notPermitted)
          ∧ (∃ t, exec (.kennelBootbank bank) s = .next t ∧ KennelRefused s t .notPermitted) ∧ ∃ t, exec (.kennelBootfall bank) s = .next t ∧ KennelRefused s t .notPermitted)
      ∧ (s.kennel.state ≠ .locked →
          (∀ bank got, bank ≤ 1 → ∃ t, exec (.kennelFwload bank got) s = .next t
            ∧ (got.container.verdict s.optv.level s.opt.shadow.fwCtr = .ok → t.img.bank bank = (1, got.container)) ∧ (got.container.verdict s.optv.level s.opt.shadow.fwCtr ≠ .ok → t.img.bank bank = (0, {}))
            ∧ t.img.bank (1 - bank) = s.img.bank (1 - bank) ∧ Answered s t (s.life.commit + 1) [] (got.container.verdict s.optv.level s.opt.shadow.fwCtr)
            ∧ t.life.phase = s.life.phase ∧ t.opt = s.opt ∧ t.trust = s.trust ∧ t.mem = s.mem)
          ∧ (∀ bank, bank ≤ 1 → (∃ t, exec (.kennelBootbank bank) s = .next t ∧ t.opt.shadow.bootBank = bank ∧ t.kennel.owes = true ∧ t.opt.writing.isSome = true ∧ t.out = s.out
              ∧ t.opt.loaded = s.opt.loaded)
            ∧ ∃ t, exec (.kennelBootfall bank) s = .next t ∧ t.opt.shadow.bootFall = bank ∧ t.kennel.owes = true ∧ t.opt.writing.isSome = true ∧ t.out = s.out)
          ∧ (∀ bank got, 1 < bank → (∃ t, exec (.kennelFwload bank got) s = .next t ∧ KennelRefused s t .badParam)
            ∧ (∃ t, exec (.kennelBootbank bank) s = .next t ∧ KennelRefused s t .badParam) ∧ ∃ t, exec (.kennelBootfall bank) s = .next t ∧ KennelRefused s t .badParam))
      ∧ (∃ t, exec (.kennelRestart 1) s = .next t ∧ t.life.phase = .halted ∧ t.life.due = some .cold ∧ t.mem = s.mem ∧ Answered s t (s.life.commit + 1) [] .ok)
      ∧ (∃ t, exec (.kennelRestart 0) s = .next t ∧ KennelRefused s t .notPermitted)
      ∧ ∃ t, exec .kennelStatus s = .next t ∧ KennelRefused s t .notPermitted)
  ∧ (∀ s : State, s.kennelUp = true → (∃ t, exec .kennelBootlog s = .next t ∧ KennelRefused s t .badOpcode)
      ∧ ∀ bank got, (∃ t, exec (.kennelFwload bank got) s = .next t ∧ KennelRefused s t .badOpcode) ∧ (∃ t, exec (.kennelBootbank bank) s = .next t ∧ KennelRefused s t .badOpcode)
        ∧ ∃ t, exec (.kennelBootfall bank) s = .next t ∧ KennelRefused s t .badOpcode)

/-- In every state with LOCK 1 whose trust area has at most one client anchor of role Service, a session's ANCHOR_REMOVE of that
anchor, which no role, form or lead rule refuses, is answered NOT_PERMITTED and changes nothing but the session; and Kennel's
anchor remove of it, on a Ready module whose Kennel answers, in whatever state Kennel is, is answered NOT_PERMITTED and
changes nothing but Kennel's line buffer. (R560) -/
def Obligations.LastServiceAnchorStaysWhileLocked : Prop :=
  ∀ (s : State) (a : Anchor) (index : Nat), s.opt.shadow.lock = 1 → s.trust.anchors.find? (fun b => b.index == index) = some a → a.kind = 0 → a.role = 3 →
    (s.trust.anchors.filter (fun b => decide (b.kind = 0 ∧ b.role = 3))).length ≤ 1 →
    (∀ (sid : Nat) (x : Session) (p : Packet), Asks s 0x0B05 sid x p → p.num 1 = index → ∃ t, exec (.anchorRemove sid) s = .next t ∧ Refused s t sid x p .notPermitted 0)
    ∧ (s.kennelUp = true → s.isReady = true → ∃ t, exec (.kennelAnchorRemove index) s = .next t ∧ KennelRefused s t .notPermitted)

/-- In every state whose SVCEN is not 1, every line of Kennel, every response to a challenge and every character on the service
line leaves the whole state as it is, so nothing leaves on J3. SVCEN is 1 in the reset state. A session's SERVICE_PORT of 0 or
1, which no role or form rule refuses, sets SVCEN in force at its own commit; where it sets SVCEN to 0, Kennel is Locked and
answers no more, neither from the firmware nor from the boot code. (R556) -/
def Obligations.ServicePortSilencesKennel : Prop :=
  (∀ (i : Instr) (s : State), isLine i = true → s.opt.shadow.svcEn ≠ 1 → exec i s = .next s)
  ∧ State.reset.opt.shadow.svcEn = 1
  ∧ (∀ (s : State) (sid : Nat) (x : Session) (p : Packet), Asks s 0x0C07 sid x p → p.num 1 ≤ 1 → ∃ t, exec (.servicePort sid) s = .next t
      ∧ Replied s t sid x (replyOf p .ok 0 [] (s.life.commit + 1)) ∧ t.opt.shadow.svcEn = p.num 1
      ∧ (p.num 1 = 0 → t.kennel.state = .locked ∧ t.kennelUp = false ∧ t.kennelBoot = false ∧ ∀ i : Instr, isLine i = true → exec i t = .next t))

/-- For every output range, zero point and multiplier, the core requantisation of a value that is a NaN gives the zero point and
counts as a clip; for every finite multiplier above zero, that of an infinity gives the upper bound of the range where it is
positive and the lower bound where it is negative, and counts as a clip. (R130) -/
def Obligations.CoreRequantisationOfNanAndInfinity : Prop :=
  ∀ (lo hi z : Int) (m a : F32),
    ((val32 a).isNan = true → (coreConv lo hi z (fmul a m).v).y = z ∧ (coreConv lo hi z (fmul a m).v).clip = true)
    ∧ (∀ neg, val32 a = .inf neg → flt 0 m = true → (∀ n, val32 m ≠ .inf n) →
        (coreConv lo hi z (fmul a m).v).y = (if neg then lo else hi) ∧ (coreConv lo hi z (fmul a m).v).clip = true)

/-- At the close of an interval, a unit whose TOTAL is 0 keeps EXP, DOWNRUN and SATRUN; every other unit's exponent, where it lies
within -16 to +16, stays within it, changes by at most one, and a change that would pass a bound leaves it at the bound. When
an exponent that was not at a bound reaches one, the event SCALE_BOUND sets its bit in the run, sync and pack trouble word; a
unit that stays at its bound raises it no more: without another event the state stands. For one update of an adaptive unit of
two to four live members or a module of its own, a clip share above 2^-10 raises the exponent and clears DOWNRUN, and sixteen
quiet intervals in a row lower it. (R138) -/
def Obligations.ScalesAdaptAtTheCloseOfAnInterval : Prop :=
  (∀ (p : ReqPoint) (large : Bool) (u : UnitStat) (x : UnitScale),
      (u.total = 0 → adapted p large u x = x)
      ∧ (-16 ≤ x.exp → x.exp ≤ 16 → -16 ≤ (adapted p large u x).exp ∧ (adapted p large u x).exp ≤ 16
        ∧ (large = false → (adapted p large u x).exp - x.exp ≤ 1 ∧ x.exp - (adapted p large u x).exp ≤ 1))
      ∧ (u.total ≠ 0 → large = false → u.total < u.clips * 1024 → (adapted p large u x).exp = max (-16) (min 16 (x.exp + 1)) ∧ (adapted p large u x).downrun = 0)
      ∧ (u.total ≠ 0 → large = false → u.clips = 0 → (2 * u.peak : Int) < max ((p.zout : Int) - (outRange p.fmt).1) ((outRange p.fmt).2 - p.zout) → x.downrun = 15 →
          (adapted p large u x).exp = max (-16) (min 16 (x.exp - 1)) ∧ (adapted p large u x).downrun = 0)
      ∧ (u.total ≠ 0 → large = false → u.clips = 0 → (2 * u.peak : Int) < max ((p.zout : Int) - (outRange p.fmt).1) ((outRange p.fmt).2 - p.zout) → x.downrun < 15 →
          (adapted p large u x).exp = x.exp ∧ (adapted p large u x).downrun = x.downrun + 1))
  ∧ (∀ (s : State) (p : ReqPoint) (c : Nat) (x y : UnitScale),
      (x.exp ≠ y.exp → (y.exp = 16 ∨ y.exp = -16) → ((s.scaleEvents p c x y).logs.word 2).getLsbD 5 = true)
      ∧ (x.exp = y.exp → x.satrun = y.satrun → s.scaleEvents p c x y = s))

/-- A used port that is in training, down or miswired and has trained sends HELLO, with sequence numbers at 0, no frame held and
full credits. A HELLO that fits brings the link into use and names the peer; one that does not fit marks the port miswired and
raises the pack-wiring trouble bit and no other. An IDLE frees the frames that its ACK covers. A port with nothing to send
sends IDLE; a frame that fails its CRC is answered with NAK and the LSEQ expected; credits owed go back as one CREDIT, and a
CREDIT of ver 1 adds its credits, up to the receive buffers. No other port and nothing else changes. (R317, R318, R319, R320,
R325, R326, 09_stretches_and_packs.md) -/
def Obligations.PackLinksTrainAndCarryControl : Prop :=
  (∀ (s : State) (port : Nat), s.packUp = true → portUsed port s.optv.psize = true → (s.pport port).state ∈ [1, 4, 5] →
      ∃ t, exec (.linkTrained port) s = .next t ∧ OnPort s t port
        ∧ t.pport port = { s.pport port with state := 2, txSeq := 0, rxSeq := 0, replay := [], credits := [], owed := [], queue := [] }
        ∧ t.out = s.out ++ [.frame port { src := s.optv.ppos, len := 40, ack := 65535 } (s.hello port)])
  ∧ (∀ (s : State) (port : Nat) (h : PackHdr) (packId pos size peer epoch imageId level : Nat), s.packUp = true → portUsed port s.optv.psize = true → h.ver = 1 →
      (s.pport port).state = 2 →
      (packId = s.optv.packId → pos = peerPos port s.optv.ppos s.optv.psize → peer = peerPort port → level = s.optv.level → s.helloConflict port pos = false →
        ∃ t, exec (.helloFrame port h packId pos size peer epoch imageId level) s = .next t ∧ OnPort s t port ∧ t.out = s.out
          ∧ t.pport port = { s.pport port with state := 3, peer := pos, peerPort := peer, imageId := imageId })
      ∧ ((packId ≠ s.optv.packId ∨ pos ≠ peerPos port s.optv.ppos s.optv.psize ∨ peer ≠ peerPort port ∨ level ≠ s.optv.level) →
        ∃ t, exec (.helloFrame port h packId pos size peer epoch imageId level) s = .next t
          ∧ Logged (s.updPort port (fun p => { p with state := 5, peer := pos % 64, peerPort := peer % 4, imageId := imageId })) t [(2, 12)]))
  ∧ (∀ (s : State) (port : Nat) (h : PackHdr) (i : Nat), s.packUp = true → s.portLive port = true → h.ver = 1 → (s.pport port).queue = [] →
      (s.pport port).replay.findIdx? (fun r => decide (r.1.lseq = h.ack)) = some i →
      exec (.idleFrame port h) s = .next (s.updPort port (fun p => { p with replay := p.replay.drop (i + 1) })))
  ∧ (∀ (s : State) (port : Nat), s.packUp = true → s.portLive port = true →
      ((s.pport port).queue = [] → exec (.idleSend port) s
        = .next { s with out := s.out ++ [.frame port { src := s.optv.ppos, dst := (s.pport port).peer, ack := ((s.pport port).rxSeq + 65535) % 65536 } .idle] })
      ∧ exec (.packFrameCrcFail port) s
        = .next { s with out := s.out ++ [.frame port { src := s.optv.ppos, dst := (s.pport port).peer, len := 4, ack := ((s.pport port).rxSeq + 65535) % 65536 }
            (.nak (s.pport port).rxSeq)] }
      ∧ ((s.pport port).owed ≠ [] → ∃ t, exec (.creditReturn port) s = .next t ∧ OnPort s t port ∧ t.pport port = { s.pport port with owed := [] }
        ∧ t.out = s.out ++ [.frame port { src := s.optv.ppos, dst := (s.pport port).peer, len := 12, ack := ((s.pport port).rxSeq + 65535) % 65536 }
            (.credit ((List.range 6).map (fun i => Tab.get 0 (s.pport port).owed (i + 1))))]))
  ∧ (∀ (s : State) (port : Nat) (h : PackHdr) (credits : List Nat), s.packUp = true → s.portLive port = true → h.ver = 1 → (s.pport port).queue = [] →
      ∃ t, exec (.creditFrame port h credits) s = .next t ∧ OnPort s t port ∧ t.out = s.out ∧ (t.pport port).state = 3 ∧ (t.pport port).txSeq = (s.pport port).txSeq
        ∧ ∀ c, 1 ≤ c → c ≤ 6 → Tab.get (creditMax c) (t.pport port).credits c
          = min (creditMax c) (Tab.get (creditMax c) (s.pport port).credits c + credits.getD (c - 1) 0))

/-- On a link in use, a frame of classes 1 to 6 that is not the one expected is answered with NAK, and one of a wrong VER is
dropped and counted; the expected one for this member is taken: the LSEQ expected steps on and its credits are owed back; one
for another member goes on towards it with HOPS raised, or is dropped and counted at 15 hops. Receiving changes ports and
frames sent only. NAK sends every frame from the LSEQ it names on again, in order, and counts each; where one has gone 16
times the link falls. LINK_CRC_TIMEOUT of a port in use or in HELLO takes its link down: no frame held, full credits, one more
fall counted, its trouble bit set. (R319, R320, R325, R326, 09_stretches_and_packs.md) -/
def Obligations.PackFramesAreNumberedAndReplayed : Prop :=
  (∀ (s : State) (port : Nat) (h : PackHdr) (b : PackBody), s.fwUp = true → s.portLive port = true → b.cls ≠ 0 →
      (h.ver ≠ 1 → s.recv port h b = .drop (s.updPort port (fun p => { p with dropped := p.dropped + 1 })))
      ∧ (h.ver = 1 → h.lseq ≠ (s.pport port).rxSeq → s.recv port h b
        = .drop { s with out := s.out ++ [.frame port { src := s.optv.ppos, dst := h.src, len := 4, ack := ((s.pport port).rxSeq + 65535) % 65536 } (.nak (s.pport port).rxSeq)] })
      ∧ (h.ver = 1 → h.lseq = (s.pport port).rxSeq → b.flooded = false → h.dst = s.optv.ppos → ∃ u, s.recv port h b = .take u ∧ OnPort s u port
        ∧ (u.pport port).rxSeq = ((s.pport port).rxSeq + 1) % 65536 ∧ (u.pport port).state = 3
        ∧ Tab.get 0 (u.pport port).owed b.cls = Tab.get 0 (s.pport port).owed b.cls + (20 + h.len + 63) / 64)
      ∧ (h.ver = 1 → h.lseq = (s.pport port).rxSeq → b.flooded = false → h.dst ≠ s.optv.ppos → ∃ u, s.recv port h b = .drop u ∧ OnPorts s u
        ∧ (14 ≤ h.hops → (u.pport port).dropped = (s.pport port).dropped + 1 ∧ ∀ q, q ≠ port → u.pport q = s.pport q))
      ∧ (b.flooded = true → h.src ≠ s.optv.ppos → h.ver = 1 → h.lseq = (s.pport port).rxSeq → ∃ u, s.recv port h b = .take u ∧ OnPorts s u))
  ∧ (∀ (s : State) (port : Nat) (h : PackHdr) (expected i : Nat), s.packUp = true → s.portLive port = true → h.ver = 1 → (s.pport port).queue = [] →
      (∀ r, r ∈ (s.pport port).replay → r.1.lseq ≠ h.ack) → (s.pport port).replay.findIdx? (fun r => decide (r.1.lseq = expected)) = some i →
      ((∀ r, r ∈ (s.pport port).replay.drop i → r.2.2 < 15) → ∃ t, exec (.nakFrame port h expected) s = .next t ∧ OnPort s t port
        ∧ t.out = s.out ++ ((s.pport port).replay.drop i).map (fun r => .frame port { r.1 with ack := ((s.pport port).rxSeq + 65535) % 65536 } r.2.1)
        ∧ (t.pport port).replay = (s.pport port).replay.take i ++ ((s.pport port).replay.drop i).map (fun r => (r.1, r.2.1, r.2.2 + 1))
        ∧ (t.pport port).replays = min 8191 ((s.pport port).replays + ((s.pport port).replay.length - i)))
      ∧ ((∃ r, r ∈ (s.pport port).replay.drop i ∧ 15 ≤ r.2.2) → ∃ t, exec (.nakFrame port h expected) s = .next t ∧ (t.pport port).state = 4
        ∧ (t.pport port).replay = [] ∧ (t.logs.word 2).getLsbD 11 = true ∧ t.mem = s.mem ∧ t.hist = s.hist ∧ t.ctxs = s.ctxs ∧ t.sync = s.sync))
  ∧ (∀ (s : State) (port : Nat), s.packUp = true → (s.pport port).state ∈ [2, 3] → ∃ t, exec (.linkCrcTimeout port) s = .next t
      ∧ (t.pport port).state = 4 ∧ (t.pport port).replay = [] ∧ (t.pport port).credits = [] ∧ (t.pport port).owed = [] ∧ (t.pport port).txSeq = 0 ∧ (t.pport port).rxSeq = 0
      ∧ (t.pport port).downs = min 255 ((s.pport port).downs + 1) ∧ (t.logs.word 2).getLsbD 11 = true
      ∧ (∀ v b, v < 3 → (v, b) ≠ (2, 11) → (t.logs.word v).getLsbD b = (s.logs.word v).getLsbD b)
      ∧ t.pack.passes = s.pack.passes ∧ t.pack.live = s.pack.live ∧ t.mem = s.mem ∧ t.hist = s.hist ∧ t.ctxs = s.ctxs ∧ t.sync = s.sync ∧ t.rings = s.rings ∧ t.results = s.results)

/-- A WRITE that is taken and lies in the image's working buffers stores its bytes at its address and no other byte, counts one
write done for its context and sender, and answers WRITE_DONE; outside the buffers no byte changes. A WRITE_DONE raises the
count of covered writes of its context and sender, up to those sent, and takes its count from the descriptors of that context
and target, and from no other; a pack fence, where one waits, is complete as soon as every write that it covers is covered by
WRITE_DONE, and waits on otherwise. REMOTE_WRITE_TIMEOUT ends the channel's oldest descriptor with writes under way: its ring
halts with ERR 4, the fault bit is set; where a pack fence of the context covers one of these writes the context, started,
faults with cause 0x340. (R328, R330, R331, 09_stretches_and_packs.md) -/
def Obligations.RemoteWritesAreDoneOrTimeOut : Prop :=
  (∀ (s u : State) (port : Nat) (h : PackHdr) (data : List Byte), s.recv port h (.write data) = .take u →
      (u.inBuffers h.addr data.length = true → ∃ (v t : State), exec (.writeFrame port h data) s = .next t ∧ t = v.packSend h.src h.ctx (.writeDone 1)
        ∧ Tab.get 0 t.pack.wdone (64 * h.ctx + h.src) = (Tab.get 0 s.pack.wdone (64 * h.ctx + h.src) + 1) % 2 ^ 32
        ∧ (∀ k, k ≠ 64 * h.ctx + h.src → Tab.get 0 t.pack.wdone k = Tab.get 0 s.pack.wdone k)
        ∧ (∀ i b, data[i]? = some b → t.mem.read .board (h.addr + i) = b)
        ∧ (∀ sp a, (sp ≠ .board ∨ a < h.addr ∨ h.addr + data.length ≤ a) → t.mem.read sp a = s.mem.read sp a)
        ∧ { v with mem := u.mem, pack := { v.pack with wdone := u.pack.wdone } } = u ∧ { t with mem := s.mem, pack := s.pack, out := s.out } = s)
      ∧ (u.inBuffers h.addr data.length = false → ∃ t, exec (.writeFrame port h data) s = .next t ∧ Logged u t []))
  ∧ (∀ (s u : State) (port : Nat) (h : PackHdr) (n : Nat), s.recv port h (.writeDone n) = .take u →
      ∃ t, exec (.writeDone port h n) s = .next t
        ∧ Tab.get 0 t.pack.wacked (64 * h.ctx + h.src) = min (Tab.get 0 s.pack.wsent (64 * h.ctx + h.src)) (Tab.get 0 s.pack.wacked (64 * h.ctx + h.src) + n)
        ∧ (∀ k, k ≠ 64 * h.ctx + h.src → Tab.get 0 t.pack.wacked k = Tab.get 0 s.pack.wacked k)
        ∧ (s.fencing h.ctx = [] → { t with channels := s.channels, pack := { t.pack with wacked := u.pack.wacked } } = u
          ∧ (∀ (ch i : Nat) (f : Flight), (s.channel ch)[i]? = some f → ∃ g : Flight, (t.channel ch)[i]? = some g ∧ { g with outstanding := f.outstanding } = f ∧ g.outstanding ≤ f.outstanding
            ∧ f.outstanding ≤ g.outstanding + n ∧ ((f.ctx ≠ h.ctx ∨ dDtier f.desc ≠ 6 ∨ dDunit f.desc / 2 ^ 26 ≠ h.src) → g = f))
          ∧ (∀ (ch : Nat) (f : Flight), s.channels = [(ch, [f])] → f.ctx = h.ctx → dDtier f.desc = 6 → dDunit f.desc / 2 ^ 26 = h.src →
            t.channel ch = [{ f with outstanding := f.outstanding - n }]))
        ∧ (∀ (th : Nat) (v : State), s.fencing h.ctx = [th] → v.pack = { u.pack with wacked := t.pack.wacked } → rKind (s.recordOf th) ≠ 9 →
            (v.writesOpen (s.thread th).fence = true → t.thread th = s.thread th)
            ∧ (v.writesOpen (s.thread th).fence = false → (t.thread th).state = .running ∧ (t.thread th).done = true ∧ (t.thread th).waits = .none))
        ∧ t.mem = s.mem ∧ t.results = s.results)
  ∧ (∀ (s : State) (channel i : Nat) (f : Flight), (s.channel channel).findIdx? (fun f => decide (0 < f.outstanding)) = some i → (s.channel channel)[i]? = some f →
      ((∀ th, th ∈ s.fencing f.ctx → Tab.get 0 (s.thread th).fence (64 * f.ctx + dDunit f.desc / 2 ^ 26) ≤ f.wfrom) → ∃ t, exec (.remoteWriteTimeout channel) s = .next t
        ∧ t.channel channel = (s.channel channel).eraseIdx i
        ∧ (∀ k, k ≠ channel → t.channel k = s.channel k) ∧ (t.ring f.ring).state = 2 ∧ (t.ring f.ring).err = 4 ∧ (t.ring f.ring).inflight = (s.ring f.ring).inflight - 1
        ∧ (∀ r, r ≠ f.ring → t.ring r = s.ring r) ∧ f.ctx ∈ t.pack.failedWrites
        ∧ Tab.get 0 t.pack.wacked (64 * f.ctx + dDunit f.desc / 2 ^ 26) = Tab.get 0 s.pack.wacked (64 * f.ctx + dDunit f.desc / 2 ^ 26) + f.outstanding
        ∧ (t.logs.word 2).getLsbD 0 = true ∧ t.mem = s.mem ∧ t.threads = s.threads ∧ t.ctxs = s.ctxs ∧ t.sync = s.sync ∧ t.hist = s.hist)
      ∧ (∀ th, th ∈ s.fencing f.ctx → f.wfrom < Tab.get 0 (s.thread th).fence (64 * f.ctx + dDunit f.desc / 2 ^ 26) → (s.ctx f.ctx).started = true → (s.ctx f.ctx).stopReq = none →
        ∃ t, exec (.remoteWriteTimeout channel) s = .next t ∧ (t.ctx f.ctx).state = .faulted ∧ (t.ctx f.ctx).cause = 0x340 ∧ (t.logs.word 2).getLsbD 0 = true ∧ t.mem = s.mem))

/-- A SIGNAL that is taken, for a bound counter that is not orphaned, adds its delta there, stopping at 2^64 - 1 with SAT; one
that is not fenced and finds fewer writes done than it counts marks the counter overtaken; at an unbound id or an orphaned
counter every value stands and the misuse bit is set. A RELEASE above the mirror raises it and wakes the waiters that it
satisfies; any other changes nothing. An ADVISORY of a live position with a higher ASEQ sets the outputs that it asks for and
ends cut-offs that nothing asks for; any other changes nothing. A TALLY at the lead is kept, and its counter takes the sum of
the members' tallies; elsewhere it changes nothing. No byte of memory changes. (R257, R329, R331, R338, R349, R350,
09_stretches_and_packs.md) -/
def Obligations.PackSignalsReleasesAndTalliesTakeEffect : Prop :=
  (∀ (s u : State) (port : Nat) (h : PackHdr) (id delta : Nat) (fenced : Bool) (wsent : Nat), s.recv port h (.signal id delta fenced wsent) = .take u →
      ∃ t, exec (.signalFrame port h id delta fenced wsent) s = .next t ∧ t.mem = s.mem ∧ t.hist = s.hist
        ∧ (∀ p, s.physOf h.ctx (id % 4096) = some p → (s.counter p).orphaned = false →
            (t.counter p).value = min ((s.counter p).value + delta) (2 ^ 64 - 1) ∧ (t.counter p).sat = ((s.counter p).sat || decide (2 ^ 64 - 1 < (s.counter p).value + delta))
            ∧ (∀ q, q ≠ p → t.counter q = s.counter q)
            ∧ (fenced = false → 0 < (wsent + 2 ^ 32 - Tab.get 0 s.pack.wdone (64 * h.ctx + h.src)) % 2 ^ 32 →
                (wsent + 2 ^ 32 - Tab.get 0 s.pack.wdone (64 * h.ctx + h.src)) % 2 ^ 32 < 2 ^ 31 → (t.counter p).overtaken = true ∧ (t.logs.word 2).getLsbD 3 = true)
            ∧ ((fenced = true ∨ (wsent + 2 ^ 32 - Tab.get 0 s.pack.wdone (64 * h.ctx + h.src)) % 2 ^ 32 = 0) → (t.counter p).overtaken = (s.counter p).overtaken))
        ∧ ((s.physOf h.ctx (id % 4096) = none ∨ ∃ p, s.physOf h.ctx (id % 4096) = some p ∧ (s.counter p).orphaned = true) →
            (t.logs.word 2).getLsbD 1 = true ∧ ∀ q, (t.counter q).value = (s.counter q).value))
  ∧ (∀ (s u : State) (port : Nat) (h : PackHdr) (id value : Nat), s.recv port h (.release id value) = .take u →
      (value ≤ Tab.get 0 s.pack.mirrors (4096 * h.ctx + id % 4096) → exec (.releaseFrame port h id value) s = .next u)
      ∧ (Tab.get 0 s.pack.mirrors (4096 * h.ctx + id % 4096) < value → ∃ t, exec (.releaseFrame port h id value) s = .next t
        ∧ Tab.get 0 t.pack.mirrors (4096 * h.ctx + id % 4096) = value
        ∧ (∀ k, k ≠ 4096 * h.ctx + id % 4096 → Tab.get 0 t.pack.mirrors k = Tab.get 0 s.pack.mirrors k)
        ∧ t.pack.mirrorWait = s.pack.mirrorWait.filter (fun m => !decide (m.2.1 = h.ctx ∧ m.2.2.1 = id % 4096 ∧ m.2.2.2 ≤ value))
        ∧ t.sync.woken = s.sync.woken ++ (s.pack.mirrorWait.filter (fun m => decide (m.2.1 = h.ctx ∧ m.2.2.1 = id % 4096 ∧ m.2.2.2 ≤ value))).map (·.1)
        ∧ t.sync.counters = s.sync.counters ∧ t.mem = s.mem ∧ t.hist = s.hist ∧ t.rings = s.rings))
  ∧ (∀ (s u : State) (port : Nat) (h : PackHdr) (pos : Nat) (outputs : BitVec 4) (aseq sidx : Nat), s.recv port h (.advisory pos outputs aseq sidx) = .take u →
      (s.pack.live.testBit pos = true → Tab.get 0 s.io.packSeq pos < aseq → ∃ t, exec (.advisoryFrame port h pos outputs aseq sidx) s = .next t
        ∧ Tab.get 0 t.io.packOutputs pos = outputs ∧ Tab.get 0 t.io.packSeq pos = aseq ∧ t.io.cutOff = s.io.cutOff &&& t.asked
        ∧ (∀ q, q ≠ pos → Tab.get 0 t.io.packOutputs q = Tab.get 0 s.io.packOutputs q ∧ Tab.get 0 t.io.packSeq q = Tab.get 0 s.io.packSeq q)
        ∧ t.io.rules = s.io.rules ∧ { t with io := u.io } = u)
      ∧ ((s.pack.live.testBit pos = false ∨ aseq ≤ Tab.get 0 s.io.packSeq pos) → exec (.advisoryFrame port h pos outputs aseq sidx) s = .next u))
  ∧ (∀ (s u : State) (port : Nat) (h : PackHdr) (pos c id v : Nat), s.recv port h (.tally pos [(c, id, v)]) = .take u →
      (s.leads = false → exec (.tallyFrame port h pos [(c, id, v)]) s = .next u)
      ∧ (∀ p, s.leads = true → s.physOf c (id % 4096) = some p → ∃ t, exec (.tallyFrame port h pos [(c, id, v)]) s = .next t
        ∧ Tab.get 0 t.pack.tallyFrom (2 ^ 18 * pos + 4096 * c + id % 4096) = v
        ∧ (t.counter p).value = Tab.get 0 s.pack.tallies (4096 * c + id % 4096)
            + ((s.livePos.filter (· ≠ s.optv.ppos)).map (fun q => Tab.get 0 t.pack.tallyFrom (2 ^ 18 * q + (4096 * c + id % 4096)))).sum
        ∧ (∀ q, q ≠ p → t.counter q = s.counter q) ∧ t.mem = s.mem ∧ t.hist = s.hist))

/-- A TOKEN that the admitted filling module takes, on the grid of its run and newer than its newest token, is appended at the
slot whose turn it is, with its index, flags and a POISON that travels with the frame; bytes change within that record and its
index entries only; a record it holds already changes nothing but ports; either way TOKEN_ACK of its newest token goes to the
source and the standby. At a module that does not fill, or is not admitted, nothing but ports changes. A TOKEN_ACK releases
every forwarded record up to the token it names, keeps the later ones, and notes how far the sender holds. (R213, R214, R333,
R442, 09_stretches_and_packs.md) -/
def Obligations.ForwardedTokensAreAppended : Prop :=
  (∀ (s u : State) (port : Nat) (h : PackHdr) (sidx flagCode o : Nat) (bytes : List Byte), s.Takes port h (.token sidx flagCode bytes) u →
      s.pack.handover = none → s.pack.fill = s.optv.ppos → s.pack.admitted = true → s.hist.cap ≠ 0 → s.hist.nextSlot < s.hist.cap → s.ing.s0 = some o → o ≤ sidx →
      (sidx - o) % max 1 s.tokenSpan = 0 →
      ((∀ x, s.newest = some x → x.run = s.ing.run → x.sidx < sidx) → ∃ (v t : State), exec (.tokenFrame port h sidx flagCode bytes) s = .next t
        ∧ (s.pack.source ≠ s.optv.ppos → s.pack.source ≠ 0xFF → s.pack.standby = 0xFF → t = v.packSend s.pack.source 0 (.tokenAck sidx)) ∧ v.pack = u.pack ∧ (∃ more, v.out = u.out ++ more)
        ∧ OnPorts v t ∧ t.hist.appended = s.hist.appended + 1 ∧ (t.hslot s.hist.nextSlot).sidx = sidx ∧ (t.hslot s.hist.nextSlot).no = s.hist.appended
        ∧ (t.hslot s.hist.nextSlot).flags = (flagCode ||| (if h.poison then 2 else 0)) % 8 ∧ (t.hslot s.hist.nextSlot).run = s.ing.run
        ∧ t.hist.write = (if s.hist.cap ≤ s.hist.nextSlot + 1 then 0 else s.hist.nextSlot + 1)
        ∧ (∀ (sp : Space) (x : Nat), ¬ (sp = .board ∧ s.hist.base + s.hist.nextSlot * s.hist.width ≤ x ∧ x < s.hist.base + (s.hist.nextSlot + 1) * s.hist.width) →
            (∀ g, g = s.hist.nextSlot / 16 ∨ g = s.hist.write / 16 → ¬ (sp = .board ∧ 16 * g ≤ x ∧ x < 16 * g + 16)) →
            t.mem.read sp x = s.mem.read sp x)
        ∧ t.threads = s.threads ∧ t.ing = s.ing ∧ t.results = s.results)
      ∧ (∀ x, s.newest = some x → x.run = s.ing.run → sidx ≤ x.sidx → ∃ t, exec (.tokenFrame port h sidx flagCode bytes) s = .next t ∧ OnPorts s t))
  ∧ (∀ (s u : State) (port : Nat) (h : PackHdr) (sidx flagCode : Nat) (bytes : List Byte), s.Takes port h (.token sidx flagCode bytes) u →
      ((s.pack.handover = none ∧ s.pack.fill ≠ s.optv.ppos) ∨ s.pack.admitted = false) → exec (.tokenFrame port h sidx flagCode bytes) s = .next u)
  ∧ (∀ (s u : State) (port : Nat) (h : PackHdr) (sidx : Nat), s.Takes port h (.tokenAck sidx) u → ∃ t, exec (.tokenAck port h sidx) s = .next t
      ∧ (∀ r, r ∈ t.pack.forwarded ↔ r ∈ s.pack.forwarded ∧ sidx < r.1) ∧ Tab.get 0 t.pack.heldBy h.src = sidx + 1
      ∧ (∀ p, p ≠ h.src → Tab.get 0 t.pack.heldBy p = Tab.get 0 s.pack.heldBy p)
      ∧ { t with pack := { t.pack with forwarded := u.pack.forwarded, heldBy := u.pack.heldBy } } = u)

/-- A member that knows another lead sends it MEMBER_HB with its epoch, position, roles, port states, newest token and RSEQ. The
lead floods LEAD_HB with the membership, its own ports in the link map. A MEMBER_HB at a member that does not lead counts as
an answer to its own claim and nothing else; at the lead, from a live member, it gives that member's links and newest token,
and a gap in its records is asked for; from one that is not live it makes the next epoch with that member, or is refused and
logged where its image differs. A LEAD_HB of a higher epoch is adopted with its lead, roles, live members and RUN; one of a
lower epoch changes nothing. A member not heard for 5 ms leaves with the next epoch, logged; without a quorum the lead is lead
no more. (R312, R321, R333, R354, R355, 09_stretches_and_packs.md) -/
def Obligations.MembershipsAreHeardAndAdopted : Prop :=
  (∀ s : State, s.packUp = true → s.pack.hasLead = true → s.pack.lead ≠ s.optv.ppos →
      exec .memberHbSend s = .next (s.packSend s.pack.lead 0 (.memberHb s.pack.epoch s.optv.ppos s.hbFlags ((List.range 4).map (fun p => (s.pport p).state)) 0xFF
        (s.newest.map (·.sidx)) s.pack.rseq))
      ∧ s.hbFlags.testBit 0 = (decide (s.pack.fill = s.optv.ppos) && s.pack.admitted) ∧ s.hbFlags.testBit 1 = decide (s.pack.source = s.optv.ppos)
      ∧ s.hbFlags.testBit 2 = decide (s.pack.standby = s.optv.ppos) ∧ s.hbFlags.testBit 3 = s.pack.detached)
  ∧ (∀ s : State, s.packUp = true → s.leads = true → s.pack.gave = none → ∃ u : State, exec .leadHbSend s
      = .next (u.flood 0 (.leadHb s.pack.epoch s.optv.ppos s.pack.fill s.pack.source (if s.pack.standby = 0xFF then none else some s.pack.standby) s.pack.live
          ((List.range 64).map (fun p => Tab.get 0 u.pack.linkMap p)) s.optv.psize s.pack.run ((List.range 64).map (fun p => s.issuedTo p))))
      ∧ Tab.get 0 u.pack.linkMap s.optv.ppos = s.portBits ∧ (∀ p, p ≠ s.optv.ppos → Tab.get 0 u.pack.linkMap p = Tab.get 0 s.pack.linkMap p)
      ∧ { u with pack := { u.pack with linkMap := s.pack.linkMap } } = s)
  ∧ (∀ (s u : State) (port : Nat) (h : PackHdr) (epoch pos flags : Nat) (ports : List Nat) (answer : Nat) (held : Option Nat) (rsent : Nat),
      s.recv port h (.memberHb epoch pos flags ports answer held rsent) = .take u →
      (s.leads = false → s.pack.claim = none → exec (.memberHb port h epoch pos flags ports answer held rsent) s = .next u)
      ∧ (∀ e l, s.leads = false → s.pack.claim = some (e, l) → answer = s.optv.ppos → l.contains pos = false → exec (.memberHb port h epoch pos flags ports answer held rsent) s
          = .next { u with pack := { u.pack with claim := some (e, l ++ [pos]) } })
      ∧ (s.leads = true → s.pack.claim = none → s.pack.live.testBit pos = true → s.img.swap = none → s.pack.prepAt = none →
          ∃ (v t : State), exec (.memberHb port h epoch pos flags ports answer held rsent) s = .next t
            ∧ Tab.get 0 t.pack.linkMap pos = ((List.range 4).map (fun p => if ports.getD p 0 = 3 then 2 ^ (3 - p) else 0)).sum
            ∧ Tab.get 0 t.pack.heldBy pos = (match held with | some x => x + 1 | none => 0)
            ∧ (∀ p, p ≠ pos → Tab.get 0 t.pack.linkMap p = Tab.get 0 s.pack.linkMap p ∧ Tab.get 0 t.pack.heldBy p = Tab.get 0 s.pack.heldBy p)
            ∧ (rsent ≤ Tab.get 0 s.pack.rseen pos → t = v)
            ∧ (Tab.get 0 s.pack.rseen pos < rsent → t = v.packSend pos 0 (.resend { epoch := s.pack.epoch } 8 (Tab.get 0 s.pack.rseen pos + 1) rsent))
            ∧ { v with pack := { v.pack with linkMap := u.pack.linkMap, heldBy := u.pack.heldBy } } = u)
      ∧ (s.leads = true → s.pack.claim = none → s.pack.live.testBit pos = false → answer = 0xFF → u.imageOf pos ≠ u.imageId →
          ∃ t, exec (.memberHb port h epoch pos flags ports answer held rsent) s = .next t ∧ Logged u t [])
      ∧ (s.leads = true → s.pack.claim = none → s.pack.live.testBit pos = false → answer = 0xFF → u.imageOf pos = u.imageId → s.pack.live.testBit s.optv.ppos = true →
          s.optv.ppos < s.optv.psize → quorumOf s.optv.psize (s.livePos ++ [pos]) = true → ∃ t, exec (.memberHb port h epoch pos flags ports answer held rsent) s = .next t
            ∧ t.pack.epoch = s.pack.epoch + 1 ∧ t.pack.live = bitsOf (s.livePos ++ [pos]) ∧ t.pack.hasLead = true ∧ t.pack.lead = (s.livePos ++ [pos]).foldl min (s.livePos.headD 0)
            ∧ t.opt = s.opt ∧ t.trust = s.trust ∧ t.supply = s.supply))
  ∧ (∀ (s u : State) (port : Nat) (h : PackHdr) (epoch lead fill source : Nat) (standby : Option Nat) (live : Nat) (linkMap : List Nat) (size run : Nat) (issued : List Nat),
      s.recv port h (.leadHb epoch lead fill source standby live linkMap size run issued) = .take u →
      (epoch < s.pack.epoch → exec (.leadHb port h epoch lead fill source standby live linkMap size run issued) s = .next u)
      ∧ (s.pack.epoch < epoch → live.testBit s.optv.ppos = true → ∃ t, exec (.leadHb port h epoch lead fill source standby live linkMap size run issued) s = .next t
        ∧ t.pack.epoch = epoch ∧ t.pack.lead = lead ∧ t.pack.source = source ∧ t.pack.standby = standby.getD 0xFF ∧ t.pack.live = live ∧ t.pack.run = run
        ∧ t.pack.hasLead = true ∧ t.pack.admitted = true ∧ t.pack.detached = false ∧ t.pack.electing = false
        ∧ (s.pack.took = none → s.pack.gave = none → t.pack.fill = fill) ∧ t.opt = s.opt ∧ t.trust = s.trust ∧ t.supply = s.supply)
      ∧ (s.pack.epoch < epoch → live.testBit s.optv.ppos = false → ∃ t, exec (.leadHb port h epoch lead fill source standby live linkMap size run issued) s = .next t
        ∧ t.pack.epoch = epoch ∧ t.pack.lead = lead ∧ t.pack.hasLead = true ∧ t.pack.admitted = false ∧ t.pack.passes = [] ∧ t.mem = s.mem ∧ t.hist = s.hist ∧ t.ctxs = s.ctxs))
  ∧ (∀ (s : State) (pos : Nat), s.packUp = true → s.leads = true → s.pack.live.testBit pos = true → pos ≠ s.optv.ppos →
      (quorumOf s.optv.psize (s.livePos.filter (· ≠ pos)) = true → pos < s.optv.psize → s.pack.live.testBit s.optv.ppos = true → s.optv.ppos < s.optv.psize →
        ∃ t, exec (.memberTimeout pos) s = .next t ∧ t.pack.epoch = s.pack.epoch + 1 ∧ t.pack.live = bitsOf (s.livePos.filter (· ≠ pos)) ∧ (t.logs.word 2).getLsbD 10 = true
          ∧ t.opt = s.opt ∧ t.trust = s.trust)
      ∧ (quorumOf s.optv.psize (s.livePos.filter (· ≠ pos)) = false → ∃ t, exec (.memberTimeout pos) s = .next t ∧ t.pack.hasLead = false ∧ t.pack.electing = true
          ∧ t.pack.epoch = s.pack.epoch ∧ t.mem = s.mem ∧ t.hist = s.hist ∧ t.ctxs = s.ctxs))

/-- A member without LEAD_HB for 5 ms knows no lead and starts its election delay; after it, with no claim of a lower position
known, it floods LEAD_CLAIM with the next epoch. A claim of a higher epoch, of the lowest position so far, is answered with
MEMBER_HB that names the claimer, and ends a claim of its own; any other changes nothing. With a quorum of answers, itself
among them, the claimer opens the epoch that it claimed with the live members; without one its claim ends, to be repeated. A
member 20 ms without a lead with a quorum is detached: no member is live to it, no pass runs, it is admitted no more, and the
trouble bit is set. (R313, R314, 09_stretches_and_packs.md) -/
def Obligations.LeadsAreElectedAndMembersDetach : Prop :=
  (∀ s : State, s.packUp = true → s.leads = false → s.pack.electing = false →
      exec .leadLossTimeout s = .next { s with pack := { s.pack with hasLead := false, electing := true, claim := none, lowestClaim := none } })
  ∧ (∀ s : State, s.packUp = true → s.pack.electing = true → s.pack.claim = none →
      ((∀ p, s.pack.lowestClaim = some p → s.optv.ppos ≤ p) → exec .claimDelayExpire s
        = .next (({ s with pack := { s.pack with claim := some (s.pack.epoch + 1, []), lowestClaim := some s.optv.ppos } } : State).flood 0 (.leadClaim (s.pack.epoch + 1) s.optv.ppos)))
      ∧ (∀ p, s.pack.lowestClaim = some p → p < s.optv.ppos → exec .claimDelayExpire s = .next s ∧ exec .claimRepeat s = .next s)
      ∧ (s.pack.lowestClaim = some s.optv.ppos → exec .claimRepeat s = exec .claimDelayExpire s))
  ∧ (∀ (s u : State) (port : Nat) (h : PackHdr) (epoch pos : Nat), s.recv port h (.leadClaim epoch pos) = .take u →
      ((epoch ≤ s.pack.epoch ∨ ∃ p, s.pack.lowestClaim = some p ∧ p < pos) → exec (.leadClaim port h epoch pos) s = .next u)
      ∧ (s.pack.epoch < epoch → (∀ p, s.pack.lowestClaim = some p → pos ≤ p) → exec (.leadClaim port h epoch pos) s
        = .next (({ u with pack := { u.pack with lowestClaim := some pos, claim := none } } : State).packSend pos 0
            (.memberHb s.pack.epoch s.optv.ppos s.hbFlags ((List.range 4).map (fun p => (u.pport p).state)) pos (s.newest.map (·.sidx)) s.pack.rseq))))
  ∧ (∀ (s : State) (e : Nat) (answers : List Nat), s.packUp = true → s.pack.claim = some (e, answers) →
      (quorumOf s.optv.psize (s.optv.ppos :: answers) = false → exec .claimQuorumTimeout s = .next { s with pack := { s.pack with claim := none } })
      ∧ (∀ l, quorumOf s.optv.psize (s.optv.ppos :: answers) = true → s.optv.ppos < s.optv.psize →
          l = (List.range s.optv.psize).filter (fun p => decide (p = s.optv.ppos) || ((answers.contains p || (s.pack.live.testBit p && decide (p ≠ s.pack.lead)))
            && (s.pack.live.testBit p || decide (s.imageOf p = s.imageId)))) → quorumOf s.optv.psize l = true →
          ∃ t, exec .claimQuorumTimeout s = .next t ∧ t.pack.epoch = e ∧ t.pack.live = bitsOf l ∧ t.pack.hasLead = true ∧ t.pack.lead = l.foldl min (l.headD 0)
            ∧ t.pack.claim = none ∧ t.pack.electing = false ∧ t.pack.admitted = true ∧ t.opt = s.opt ∧ t.trust = s.trust))
  ∧ (∀ s : State, s.packUp = true → s.pack.detached = false → (s.pack.hasLead = false ∨ s.pack.admitted = false) → ∃ t, exec .detachTimeout s = .next t
      ∧ t.pack.detached = true ∧ t.pack.live = 0 ∧ t.pack.passes = [] ∧ t.pack.claim = none ∧ t.pack.handover = none ∧ t.pack.admitted = false ∧ (t.logs.word 2).getLsbD 9 = true
      ∧ (s.pack.source ≠ s.optv.ppos → t.pack.fill = s.pack.fill ∧ t.mem = s.mem) ∧ (s.pack.source = s.optv.ppos → t.pack.fill = s.optv.ppos)
      ∧ t.results = s.results ∧ t.img = s.img ∧ t.opt = s.opt ∧ t.trust = s.trust)

/-- PASS_START at an admitted member that is not lead opens the pass of its context with the range and slots named; elsewhere it
changes nothing. PASS1_COMPLETE records a share's pairs, each the product of the decays in token order with the final state
from zero, and ends it. A scan message or halo of the present epoch and pass is kept for the slot it concerns, poisoning it
where it carries poison; one of another epoch or pass changes nothing. REPLAY_COMPLETE compares the local states, corrected
with the entering ones, with those recorded, sends the records of its slot, takes the pairs of a share not longer than the
replay span, and a failed horizon check degrades the pass and sets the horizon bit. PASS_DONE at the lead notes the member. No
scan message changes memory or history. (R156, R322, R339, R340, R341, R343, R344, R345, R346, R347,
09_stretches_and_packs.md) -/
def Obligations.PackPassesRunTheirShares : Prop :=
  (∀ (s u : State) (port : Nat) (h : PackHdr) (pass epoch first last p0 n : Nat) (both : Bool), s.recv port h (.passStart pass epoch first last p0 n both) = .take u →
      (s.isReady = true → s.standalone = false → s.pack.detached = false → s.pack.admitted = true → h.ctx ≠ 0 → s.isLead = false →
        ∃ t p, exec (.passStart port h pass epoch first last p0 n both) s = .next t ∧ t.packPass h.ctx = some p ∧ p.ctx = h.ctx ∧ p.pass = pass ∧ p.epoch = epoch
          ∧ p.first = first ∧ p.last = last ∧ p.p0 = p0 ∧ p.n = n ∧ p.both = both ∧ p.coord = false ∧ p.pass1 = [] ∧ p.replayed = []
          ∧ (∀ q, q ∈ p.mine → q < n ∧ s.slotPos p q = s.optv.ppos) ∧ (∀ q, q ∈ p.holes ↔ q < n ∧ s.pack.live.testBit (s.slotPos p q) = false)
          ∧ t.opt = s.opt ∧ t.trust = s.trust ∧ t.store = s.store)
      ∧ ((s.isReady = false ∨ s.pack.detached = true ∨ s.pack.admitted = false ∨ h.ctx = 0 ∨ s.isLead = true) →
          exec (.passStart port h pass epoch first last p0 n both) s = .next u))
  ∧ (∀ (s : State) (slot : Nat) (f : Pass1Facts) (p : PackPass), s.solo = false → s.isLead = false → s.packPass p.ctx = some p →
      s.pack.passes.find? (fun p => decide (p.cur = some slot) && (s.ctx p.ctx).pass.isNone && (s.ctx p.ctx).live && !p.pass1.contains slot) = some p →
      ∃ t p', exec (.pass1Complete slot f) s = .next t ∧ t.packPass p.ctx = some p' ∧ p'.pass1 = p.pass1 ++ [slot]
        ∧ (∀ k v, f.finals[k]? = some v → Tab.get [] p'.pairs (slotKey slot k) = pairsOf (f.decays.getD k []) v) ∧ (∀ k v, f.marks[k]? = some v → Tab.get [] p'.marks (slotKey slot k) = v)
        ∧ ((∀ q, q ∈ p.mine → q = slot ∨ q ∈ p.pass1) → p'.cur = none ∧ t.mem = s.mem) ∧ p'.replayed = p.replayed ∧ t.hist = s.hist ∧ t.threads = s.threads)
  ∧ (∀ (s u : State) (port : Nat) (h : PackHdr) (ex : ExHdr) (from_ : Nat) (hole : Bool) (v : List (F32 × F32)) (p : PackPass), s.packPass h.ctx = some p →
      (s.Takes port h (.scanPrefix ex from_ hole v) u →
        ((ex.epoch ≠ s.pack.epoch ∨ ex.pass ≠ p.pass) → exec (.scanPrefix port h ex from_ hole v) s = .next u)
        ∧ (ex.epoch = s.pack.epoch → ex.pass = p.pass → from_ + 1 ∈ p.mine → from_ ∉ p.mine → ∃ t p', exec (.scanPrefix port h ex from_ hole v) s = .next t
          ∧ t.packPass h.ctx = some p' ∧ Tab.get [] p'.prefixes (slotKey (from_ + 1) ex.layer) = v ∧ (h.poison = true → p'.bad (from_ + 1) = true) ∧ t.mem = s.mem ∧ t.hist = s.hist))
      ∧ (s.Takes port h (.scanSuffix ex from_ hole v) u →
        ((ex.epoch ≠ s.pack.epoch ∨ ex.pass ≠ p.pass) → exec (.scanSuffix port h ex from_ hole v) s = .next u)
        ∧ (∀ q, ex.epoch = s.pack.epoch → ex.pass = p.pass → p.liveLeft from_ = some q → q ∈ p.mine → (∀ r, r ∈ p.mine → p.liveLeft r ≠ some q) →
          ∃ t p', exec (.scanSuffix port h ex from_ hole v) s = .next t ∧ t.packPass h.ctx = some p' ∧ Tab.get [] p'.suffixes (slotKey q ex.layer) = v
          ∧ (h.poison = true → p'.bad q = true) ∧ t.mem = s.mem ∧ t.hist = s.hist))
      ∧ (s.Takes port h (.scanColumn ex from_ hole v) u →
        ((ex.epoch ≠ s.pack.epoch ∨ ex.pass ≠ p.pass) → exec (.scanColumn port h ex from_ hole v) s = .next u)
        ∧ (ex.epoch = s.pack.epoch → ex.pass = p.pass → (∀ r, r ∈ p.mine → r / 8 ≠ from_ / 8) → ∃ t p', exec (.scanColumn port h ex from_ hole v) s = .next t
          ∧ t.packPass h.ctx = some p' ∧ Tab.get [] p'.columns (slotKey (from_ / 8 + 1) ex.layer) = v
          ∧ (h.poison = true → ∀ q, q ∈ p.mine → q / 8 = from_ / 8 + 1 → p'.bad q = true) ∧ t.mem = s.mem ∧ t.hist = s.hist)))
  ∧ (∀ (s u : State) (port : Nat) (h : PackHdr) (ex : ExHdr) (from_ : Nat) (bytes : List Byte) (p : PackPass), s.packPass h.ctx = some p →
      s.Takes port h (.halo ex from_ bytes) u →
      ((ex.epoch ≠ s.pack.epoch ∨ ex.pass ≠ p.pass) → exec (.haloMsg port h ex from_ bytes) s = .next u)
      ∧ (ex.epoch = s.pack.epoch → ex.pass = p.pass → from_ + 1 ∈ p.mine → from_ ∉ p.mine → ∃ t p', exec (.haloMsg port h ex from_ bytes) s = .next t
          ∧ t.packPass h.ctx = some p' ∧ Tab.get none p'.halos (slotKey (from_ + 1) ex.layer) = some bytes ∧ (h.poison = true → p'.bad (from_ + 1) = true)
          ∧ t.mem = s.mem ∧ t.hist = s.hist))
  ∧ (∀ (s : State) (slot : Nat) (f : ReplayFacts) (p : PackPass) (states : List (List F32)), s.solo = false → s.isLead = false → s.packPass p.ctx = some p →
      s.pack.passes.find? (fun p => s.replayReady p slot) = some p →
      states = (List.range f.finals.length).map (fun l => correctStates (pairsOf (f.decays.getD l []) (f.finals.getD l [])) ((s.hIn p slot l).getD [])) →
      ∃ t p', exec (.replayComplete slot f) s = .next t ∧ t.packPass p.ctx = some p'
        ∧ p'.replayed = p.replayed ++ [slot] ∧ p'.degraded = (p.degraded || !(s.horizonFails p slot states).isEmpty) ∧ p'.records = p.records.filter (fun r => decide (r.1 ≠ slot))
        ∧ (∀ k v, f.finals[k]? = some v → Tab.get 0 p.shares slot ≤ s.replaySpan p.ctx → Tab.get [] p'.pairs (slotKey slot k) = pairsOf (f.decays.getD k []) v)
        ∧ (s.replaySpan p.ctx < Tab.get 0 p.shares slot → p'.pairs = p.pairs ∧ p'.tails = p.tails)
        ∧ t.pack.rseq = s.pack.rseq + (p.records.filter (fun r => decide (r.1 = slot))).length
        ∧ (s.horizonFails p slot states ≠ [] → (t.logs.word 2).getLsbD 14 = true) ∧ (s.horizonFails p slot states = [] → t.logs = s.logs)
        ∧ t.mem = s.mem ∧ t.hist = s.hist ∧ t.threads = s.threads)
  ∧ (∀ (s u : State) (port : Nat) (h : PackHdr) (pass pos status tokens rseq : Nat), s.recv port h (.passDone pass pos status tokens rseq) = .take u →
      ((s.isLead = false ∨ (∀ p, s.packPass h.ctx = some p → p.pass ≠ pass)) → exec (.passDone port h pass pos status tokens rseq) s = .next u)
      ∧ (∀ p, s.isLead = true → s.packPass h.ctx = some p → p.pass = pass →
          (s.passOver { p with done := p.done.filter (fun d => decide (d.1 ≠ pos)) ++ [(pos, rseq)] } = false → ∃ t, exec (.passDone port h pass pos status tokens rseq) s = .next t
            ∧ t.packPass h.ctx = some { p with done := p.done.filter (fun d => decide (d.1 ≠ pos)) ++ [(pos, rseq)] } ∧ OnPorts u { t with pack := { t.pack with passes := u.pack.passes } })
          ∧ (s.passOver { p with done := p.done.filter (fun d => decide (d.1 ≠ pos)) ++ [(pos, rseq)] } = true → ∃ t, exec (.passDone port h pass pos status tokens rseq) s = .next t
            ∧ t.packPass h.ctx = none ∧ (∀ r, p.back = some r → { r.2.2 with rkind := 2, resno := s.nextResno r.2.2.ctx } ∈ t.results ∨ (t.logs.word 2).getLsbD 16 = true)
            ∧ t.mem = s.mem ∧ t.hist = s.hist)))

/-- A RESULT at a member that does not lead, or a copy, changes nothing but ports; one that leaves a gap has the missing records
asked for; the next one counts as seen and is issued under the next result number, or waits as the newest record of its pass.
RESEND sends again every record, or message to that member, that it names and this member holds; one of an older epoch sends
nothing. EXCHANGE_STALL_TIMEOUT asks the sender of the k-th message due for it again. An inspect context's SNAPSHOT is kept at
the lead, the latest of each member, until every live member's is there and the rule is applied to them; elsewhere, and for
the watch context of a pack of up to four, it changes nothing; a SCALE_SET's exponents wait for the context's next pass and
stand in the interval snapshot at once. No byte of memory changes. (R142, R322, R323, R339, R352, R415,
09_stretches_and_packs.md) -/
def Obligations.PackRecordsAndScalesTravel : Prop :=
  (∀ (s u : State) (port : Nat) (h : PackHdr) (ex : ExHdr) (rseq : Nat) (r : ResultRec), s.Takes port h (.result ex rseq r) u →
      ((s.leads = false ∨ rseq ≤ Tab.get 0 s.pack.rseen h.src) → exec (.resultMsg port h ex rseq r) s = .next u)
      ∧ (s.leads = true → Tab.get 0 s.pack.rseen h.src + 1 < rseq → exec (.resultMsg port h ex rseq r) s
          = .next (u.packSend h.src r.ctx (.resend { epoch := s.pack.epoch, pass := r.pass } 8 (Tab.get 0 s.pack.rseen h.src + 1) rseq)))
      ∧ (s.leads = true → rseq = Tab.get 0 s.pack.rseen h.src + 1 → s.packPass r.ctx = none → ∃ t, exec (.resultMsg port h ex rseq r) s = .next t
          ∧ Tab.get 0 t.pack.rseen h.src = rseq ∧ (t.ctx r.ctx).resno = s.nextResno r.ctx
          ∧ ({ r with resno := s.nextResno r.ctx } ∈ t.results ∨ (t.logs.word 2).getLsbD 16 = true) ∧ t.mem = s.mem ∧ t.hist = s.hist)
      ∧ (∀ p, s.leads = true → rseq = Tab.get 0 s.pack.rseen h.src + 1 → s.packPass r.ctx = some p → p.pass = r.pass → r.member ≠ 0 → p.back = none →
          ({ u with pack := { u.pack with rseen := Tab.set 0 u.pack.rseen h.src rseq } } : State).passOver p = false →
          ∃ t p', exec (.resultMsg port h ex rseq r) s = .next t ∧ t.packPass r.ctx = some p' ∧ p' = { p with back := some (h.src, rseq, r) }
          ∧ Tab.get 0 t.pack.rseen h.src = rseq ∧ t.results = s.results ∧ t.mem = s.mem ∧ t.hist = s.hist ∧ t.ctxs = s.ctxs))
  ∧ (∀ (s u : State) (port : Nat) (h : PackHdr) (ex : ExHdr) (type first last : Nat), s.Takes port h (.resend ex type first last) u →
      (ex.epoch < s.pack.epoch → exec (.resendMsg port h ex type first last) s = .next u)
      ∧ (s.pack.epoch ≤ ex.epoch → ∃ t, exec (.resendMsg port h ex type first last) s = .next t ∧ OnPorts u t
        ∧ (∀ k, type = 8 → s.pack.kept.filter (fun k => decide (first ≤ k.1 ∧ k.1 ≤ last)) = [k] →
            t = u.packSend h.src k.2.ctx (.result { epoch := s.pack.epoch, pass := k.2.pass } k.1 k.2))
        ∧ (∀ x : Sent, type ≠ 8 → s.pack.sent.filter (fun (x : Sent) => decide (x.dst = h.src ∧ x.type = type ∧ (5 ≤ type ∨ (x.ctx = h.ctx ∧ first ≤ x.layer ∧ x.layer ≤ last)))) = [x] →
            t = u.packSend x.dst x.ctx x.body)))
  ∧ (∀ (s : State) (k src c type layer : Nat), s.packUp = true → s.awaiting[k]? = some (src, c, type, layer) → exec (.exchangeStallTimeout k) s
      = .next (s.packSend src c (.resend { epoch := s.pack.epoch, pass := if type = 5 then 0 else ((s.pack.passes.find? (fun p => decide (p.ctx = c))).map (·.pass)).getD 0 }
          type layer layer)))
  ∧ (∀ (s : State) (k : Nat), s.awaiting[k]? = none → exec (.exchangeStallTimeout k) s = .next s)
  ∧ (∀ (s u : State) (port : Nat) (h : PackHdr) (ex : ExHdr) (units : List UnitStat), s.Takes port h (.snapshot ex units) u →
      (s.isLead = false → exec (.snapshotMsg port h ex units) s = .next u)
      ∧ (s.isLead = true → h.ctx = 0 → s.isLarge = false → exec (.snapshotMsg port h ex units) s = .next u)
      ∧ (∀ l, s.isLead = true → h.ctx ≠ 0 → l = (Tab.get [] s.pack.snaps h.ctx).filter (fun x => decide (x.1 ≠ h.src)) ++ [(h.src, units)] →
        (s.livePos.all (fun q => l.any (fun x => x.1 == q)) = false → ∃ t, exec (.snapshotMsg port h ex units) s = .next t ∧ Tab.get [] t.pack.snaps h.ctx = l
          ∧ (∀ c, c ≠ h.ctx → Tab.get [] t.pack.snaps c = Tab.get [] s.pack.snaps c) ∧ { t with pack := { t.pack with snaps := u.pack.snaps } } = u)
        ∧ (s.livePos.all (fun q => l.any (fun x => x.1 == q)) = true → exec (.snapshotMsg port h ex units) s
          = .next (({ u with pack := { u.pack with snaps := Tab.set [] u.pack.snaps h.ctx l } } : State).applySnaps h.ctx))))
  ∧ (∀ (s u : State) (port : Nat) (h : PackHdr) (ex : ExHdr) (units : List UnitScale), s.Takes port h (.scaleSet ex units) u → ∃ t v, exec (.scaleSet port h ex units) s = .next t
      ∧ Tab.get [] v.pack.scaleDue h.ctx = units ∧ (∀ c, c ≠ h.ctx → Tab.get [] v.pack.scaleDue c = Tab.get [] s.pack.scaleDue c)
      ∧ { v with pack := { v.pack with scaleDue := u.pack.scaleDue } } = u
      ∧ (s.member h.ctx = none → t = v) ∧ (∀ m, s.member h.ctx = some m → t = v.snapUnits h.ctx m units))

/-- HANDOVER_PREP that names an admitted member has it remember the handover and acknowledge it to the filling module and the
source; an acknowledgement in time marks the handover acknowledged while a period runs; one of another handover changes
nothing. HANDOVER_MSG of the handover remembered starts the watch context where its start is granted, with the period,
coverage, catch-up counts and, where state is carried, the rule states of the message, and this member fills; any other
changes nothing but ports. SWAP_READY is counted at the lead, and elsewhere begins the swap where the image is loaded; SWAP_AT
sets the period of the swap, SWAP_COMMIT puts the new image in force; for another image they change nothing. (R200, R334,
R335, R337, R353, 09_stretches_and_packs.md) -/
def Obligations.HandoversAndPackSwapsTakeEffect : Prop :=
  (∀ (s u : State) (port : Nat) (h : PackHdr) (period sidx from_ to_ : Nat),
      (s.recv port h (.handoverPrep period sidx from_ to_ false) = .take u → to_ = s.optv.ppos → s.pack.admitted = true → from_ ≠ to_ → s.pack.source = from_ →
        exec (.handoverPrep port h period sidx from_ to_ false) s
          = .next (({ u with pack := { u.pack with prepAt := some (period, sidx, to_), handover := some { period := period, sidx := sidx, from_ := from_, to_ := to_, acked := true } } } : State).packSend from_ 0 (.handoverPrep period sidx from_ to_ true)))
      ∧ (s.recv port h (.handoverPrep period sidx from_ to_ false) = .take u → to_ ≠ s.optv.ppos →
        exec (.handoverPrep port h period sidx from_ to_ false) s
          = .next { u with pack := { u.pack with prepAt := some (period, sidx, to_), handover := if s.pack.source = s.optv.ppos then some { period := period, sidx := sidx, from_ := from_, to_ := to_ } else s.pack.handover } })
      ∧ (∀ r, s.recv port h (.handoverPrep period sidx from_ to_ true) = .take u → s.pack.handover = some r →
        ((r.period ≠ period ∨ r.to_ ≠ to_ ∨ s.prepInTime r = false) → exec (.handoverPrep port h period sidx from_ to_ true) s = .next u)
        ∧ (r.period = period → r.to_ = to_ → s.prepInTime r = true → s.watch.mandatory = true →
          exec (.handoverPrep port h period sidx from_ to_ true) s = .next { u with pack := { u.pack with handover := some { r with acked := true } } })
        ∧ (r.period = period → r.to_ = to_ → s.prepInTime r = true → s.pack.fill = s.optv.ppos → to_ ≠ s.optv.ppos → s.watch.mandatory = false → s.idle 0 = true →
          (s.ctx 0).live = true → s.watch.period + 1 = period → ∃ t, exec (.handoverPrep port h period sidx from_ to_ true) s = .next t
            ∧ t.pack.fill = to_ ∧ t.pack.gave = some to_ ∧ t.pack.handover = none ∧ (t.ctx 0).state = .stopped ∧ t.mem = s.mem)))
  ∧ (∀ (s u : State) (port : Nat) (h : PackHdr) (ex : ExHdr) (m : HandoverMsg), s.Takes port h (.handover ex m) u →
      ((s.pack.handover = none ∨ s.pack.admitted = false ∨ ∃ r, s.pack.handover = some r ∧ (r.to_ ≠ s.optv.ppos ∨ r.period ≠ m.period)) →
          exec (.handoverMsg port h ex m) s = .next u)
      ∧ (∀ r v d, s.pack.handover = some r → s.pack.admitted = true → r.to_ = s.optv.ppos → r.period = m.period →
          v = (if r.placed then u else u.placeRing.newRun).runFor r.sidx → (v.startCtx 0).1.code < 0x10 → s.member 0 = some d → ∃ t, exec (.handoverMsg port h ex m) s = .next t
          ∧ t.pack.fill = s.optv.ppos ∧ t.pack.took = some r.from_ ∧ t.pack.handover = none ∧ (t.ctx 0).holds = true
          ∧ t.watch.period = m.period ∧ t.watch.cover = (if m.carried then m.cover else 0) ∧ (t.ctx 0).catchUp = m.catchUp ∧ (t.ctx 0).cup = m.cup
          ∧ (t.ctx 0).poisoned = (m.poisoned || h.poison)
          ∧ (∀ n x, m.carried = true → m.rules[n]? = some x → Tab.get {} t.io.rules n = ruleOf x) ∧ t.results = s.results ∧ t.img = s.img ∧ t.opt = s.opt))
  ∧ (∀ (s u : State) (port : Nat) (h : PackHdr) (imageId pos period : Nat),
      (s.recv port h (.swapReady imageId pos) = .take u →
        (∀ i, s.leads = true → s.swapImage = some i → i.imageId = imageId → ∃ t, exec (.swapReady port h imageId pos) s = .next t ∧ pos ∈ t.pack.swapReady
          ∧ (∀ p, p ∈ s.pack.swapReady → p ∈ t.pack.swapReady) ∧ t.mem = s.mem ∧ t.img.active = s.img.active)
        ∧ (s.leads = false → s.img.swap.isSome = true → exec (.swapReady port h imageId pos) s = .next u)
        ∧ (∀ i, s.leads = false → s.img.swap = none → (s.imgSlot s.inactive).image = some i → i.imageId ≠ imageId → exec (.swapReady port h imageId pos) s = .next u)
        ∧ (∀ i, s.leads = false → s.img.swap = none → (s.imgSlot s.inactive).image = some i → i.imageId = imageId → (s.imgSlot s.inactive).state = 2 → s.awayFits i = true →
          ∃ t w, exec (.swapReady port h imageId pos) s = .next t ∧ t.img.swap = some w ∧ w.slot = s.inactive ∧ w.phase = 3 ∧ w.askedBy = none
          ∧ t.img.active = s.img.active ∧ (∀ (sp : Space) (x : Nat), ¬ (sp = .board ∧ inAway x = true) → t.mem.read sp x = s.mem.read sp x) ∧ t.ctxs = s.ctxs ∧ (∀ x, x ∈ s.upk.queue → x ∈ t.upk.queue)))
      ∧ (s.recv port h (.swapAt imageId period) = .take u →
        ((∀ i, s.swapImage = some i → i.imageId ≠ imageId) → exec (.swapAt port h imageId period) s = .next u)
        ∧ (∀ i w, s.swapImage = some i → i.imageId = imageId → s.img.swap = some w → exec (.swapAt port h imageId period) s
            = .next { u with img := { u.img with swap := some { w with atPeriod := some period } } }))
      ∧ (s.recv port h (.swapCommit imageId period) = .take u →
        ((∀ i, s.swapImage = some i → i.imageId ≠ imageId) → exec (.swapCommit port h imageId period) s = .next u)
        ∧ (∀ i w, s.swapImage = some i → i.imageId = imageId → s.img.swap = some w → w.phase < 5 → exec (.swapCommit port h imageId period) s = .next u)
        ∧ (∀ i w, s.swapImage = some i → i.imageId = imageId → s.img.swap = some w → 5 ≤ w.phase → w.slot ≤ 1 → ∃ t, exec (.swapCommit port h imageId period) s = .next t
          ∧ t.img.active = some w.slot ∧ t.img.swap = none ∧ t.img.good = true ∧ t.imgSlot w.slot = { state := 1, image := some i } ∧ t.results = s.results ∧ t.opt = s.opt)))

/-- The work that upkeep takes next is pending, may start, no other that may start has a higher priority, and a due sweep is it
only while nothing else is pending. UPKEEP_START on its engine takes it from the queue once its domains are on, and copies the
panel away first where it serves blocks; else the operation begins. A finished copy takes the panel away. An erase passes once
every cell lies below level 0 by the margin of erase verify, within 8 pulses: it is journalled, clears touch-ups and fails,
counts where R178 counts it, and a program goes on to its pulses as soon as the temperature allows; one that fails is tried
once more, a second failure marks the plane failed. Pulses go on until no cell is short of its band or the limit is reached;
then follow the relaxation and the final verify. A program that verifies puts its plane in use with its T_prog, corrections,
reference levels and mean pulse; a touch-up is counted, or becomes a rewrite where a cell stays beyond or short. (R161, R162,
R163, R164, R165, R172, R177, R178, R183, R186, R187, 05_array_upkeep_and_images.md) -/
def Obligations.ArrayOperationsRunStageByStage : Prop :=
  (∀ (s : State) (w : Work), s.nextWork = some w → w ∈ s.upk.queue ∧ s.startable w = true ∧ (∀ v, v ∈ s.upk.queue → s.startable v = true → w.prio ≤ v.prio)
      ∧ (7 ≤ w.prio → ∀ v, v ∈ s.upk.queue → 7 ≤ v.prio))
  ∧ (∀ (s : State) (w : Work), s.fwUp = true → s.nextWork = some w →
      ((∃ d, d ∈ upDoms w.engine ∧ s.wake.domOn d = false) → ∃ t, exec (.upkeepStart w.engine) s = .next t ∧ t.upk = s.upk ∧ t.engines = s.engines ∧ t.mem = s.mem)
      ∧ ((∀ d, d ∈ upDoms w.engine → s.wake.domOn d = true) → s.needsCopy w.engine = true → exec (.upkeepStart w.engine) s
          = .next ({ s.wake with upk := { s.upk with queue := s.upk.queue.erase w, ops := Tab.set none s.upk.ops w.engine (some { work := w, stage := .copying }) } }))
      ∧ ((∀ d, d ∈ upDoms w.engine → s.wake.domOn d = true) → s.needsCopy w.engine = false → ∃ t, exec (.upkeepStart w.engine) s = .next t ∧ t.upk.queue = s.upk.queue.erase w
          ∧ t.op w.engine = some { work := s.asDue w, stage := (s.asDue w).op.firstStage }
          ∧ (∀ e, e ≠ w.engine → t.op e = s.op e) ∧ { t with upk := s.upk } = s.wake)
      ∧ (∀ e, e ≠ w.engine → s.op e = none → exec (.upkeepStart e) s = .next s))
  ∧ (∀ (s : State) (e : Nat) (r : OpRun), s.op e = some r →
      (r.stage = .copying → s.panelBusy e = false → s.tempOk r.work = true → r.work.engine = e → ∃ t, exec (.awayCopyDone e) s = .next t
        ∧ t.panel e = { s.panel e with pstate := 2, awayWhy := r.work.op.away } ∧ t.op e = some { work := s.asDue r.work, stage := (s.asDue r.work).op.firstStage }
        ∧ t.upk.queue = s.upk.queue ∧ (∀ (sp : Space) (x : Nat), ¬ (sp = .board ∧ inAway x = true) → t.mem.read sp x = s.mem.read sp x) ∧ { t with upk := s.upk, mem := s.mem } = s)
      ∧ (r.stage = .copying → (s.panelBusy e = true ∨ s.tempOk r.work = false) → exec (.awayCopyDone e) s = .next s)
      ∧ (r.stage = .waiting → s.fwUp = true → s.tempIn e 300 700 = true → r.work.engine = e → ∃ t, exec (.upkeepStart e) s = .next t ∧ t.op e = some { work := r.work, stage := .pulsing }
        ∧ (t.cells (17 * e + r.work.plane)).level = (s.workBlock r.work).levels ∧ t.upk.queue = s.upk.queue ∧ { t with upk := s.upk } = s)
      ∧ (r.stage = .relaxing → exec (.relaxWaitExpire e) s = .next (s.setOp e (some { r with stage := .verifying }))))
  ∧ (∀ (s : State) (e k used pulses : Nat) (x : Cells) (moved : List (Tab Int)) (r : OpRun), s.op e = some r → r.stage = .erasing → r.work.engine = e → k = 17 * e + r.work.plane →
      erasePulses (s.cells k) r.pulses (pulseMoves moved pulses) = (x, used) →
      (used ≠ 0 → x.erased = true → r.work.op = .program → s.tempIn e 300 700 = true → ∃ t, exec (.eraseDone e moved pulses) s = .next t ∧ t.op e = some { work := r.work, stage := .pulsing }
        ∧ (t.plane k).erases = min 2047 ((s.plane k).erases + 1) ∧ (t.plane k).touchups = 0 ∧ (t.plane k).fails = 0 ∧ (t.cells k).g = x.g ∧ (t.cells k).level = (s.workBlock r.work).levels
        ∧ (∃ j, j ∈ t.upk.journal ∧ j.kind = 0x02 ∧ j.loc = locPlane e r.work.plane ∧ j.seq = s.upk.nextSeq) ∧ t.upk.nextSeq = s.upk.nextSeq + 2
        ∧ (∀ n, n ≠ k → t.plane n = s.plane n ∧ t.cells n = s.cells n) ∧ t.upk.queue = s.upk.queue ∧ { t with upk := s.upk } = s)
      ∧ (used ≠ 0 → x.erased = true → r.work.op = .program → s.tempIn e 300 700 = false → ∃ t, exec (.eraseDone e moved pulses) s = .next t ∧ t.op e = some { work := r.work, stage := .waiting }
        ∧ t.cells k = x ∧ { t with upk := s.upk } = s)
      ∧ (used ≠ 0 → x.erased = true → r.work.op = .erase → r.work.why = .touchUp → ∃ t, exec (.eraseDone e moved pulses) s = .next t ∧ t.op e = none ∧ t.cells k = x
        ∧ (t.plane k).erases = (s.plane k).erases ∧ (t.plane k).touchups = 0 ∧ (t.plane k).state = (if (s.plane k).state = 1 then 0 else (s.plane k).state) ∧ { t with upk := s.upk } = s)
      ∧ (used < 8 → (used = 0 ∨ x.erased = false) → exec (.eraseDone e moved pulses) s = .next ((s.updCells k (fun _ => x)).setOp e (some { r with pulses := used })))
      ∧ (8 ≤ used → x.erased = false → r.work.op = .program → r.work.retry = false → s.tempOk r.work = true → ∃ t, exec (.eraseDone e moved pulses) s = .next t
        ∧ t.op e = some { work := { r.work with retry := true }, stage := .erasing } ∧ (t.plane k).fails = min 15 ((s.plane k).fails + 1)
        ∧ (t.plane k).erases = min 2047 ((s.plane k).erases + 1) ∧ (t.logs.word 1).getLsbD 17 = true ∧ t.mem = s.mem)
      ∧ (8 ≤ used → x.erased = false → r.work.retry = true → ∃ t, exec (.eraseDone e moved pulses) s = .next t ∧ t.op e = none ∧ (t.plane k).state = 4 ∧ (t.logs.word 1).getLsbD 17 = true
        ∧ (r.work.plane ≠ 16 → (s.panel e).plane16 = false → t.mem = s.mem ∧ (t.plane (17 * e + 16)).lplane = (s.logical e r.work.plane).getD r.work.plane
          ∧ ({ prio := 2, engine := e, plane := 16, op := .program, why := .spare, newImage := r.work.newImage } : Work) ∈ t.upk.queue)))
  ∧ (∀ (s : State) (e k : Nat) (pulses : List (Tab Int)) (r : OpRun) (cb : List Int) (p : Pulsed), s.op e = some r → r.stage = .pulsing → r.work.engine = e → k = 17 * e + r.work.plane →
      cb = (s.workBlock r.work).file.codebook → p = progPulses cb (decide (r.work.op = .touchUp)) (r.pulsed (s.cells k)) pulses →
      (p.ended cb = false → exec (.programPassDone e pulses) s = .next ((s.updCells k (fun _ => p.cells)).setOp e (some (r.after p))))
      ∧ (p.ended cb = true → p.limit cb = false → p.cells.beyond cb = false →
          exec (.programPassDone e pulses) s = .next ((s.updCells k (fun _ => p.cells)).setOp e (some { r.after p with stage := .relaxing })))
      ∧ (p.ended cb = true → (p.limit cb = true ∨ p.cells.beyond cb = true) → r.work.op = .touchUp → s.tempIn e (-200) 1000 = true →
          ∃ t, exec (.programPassDone e pulses) s = .next t ∧ t.op e = some { work := { r.work with op := .program }, stage := .erasing } ∧ { t with upk := s.upk } = s))
  ∧ (∀ (s : State) (e k : Nat) (f : VerifyFacts) (r : OpRun) (cb : List Int) (p : Pulsed), s.op e = some r → r.stage = .verifying → r.work.engine = e → k = 17 * e + r.work.plane →
      cb = (s.workBlock r.work).file.codebook → p = progPulses cb (decide (r.work.op = .touchUp)) ((r.pulsed ((s.cells k).moved f.found)).note cb) f.pulses →
      (p.ended cb = false → exec (.finalVerifyDone e f) s = .next ((s.updCells k (fun _ => p.cells)).setOp e (some (r.after p))))
      ∧ (p.ended cb = true → p.limit cb = false → p.cells.beyond cb = false → r.work.op = .program → r.work.why = .overdue → ∃ t, exec (.finalVerifyDone e f) s = .next t
        ∧ t.op e = none ∧ (t.plane k).state = 1 ∧ t.cells k = p.cells
        ∧ (t.plane k).tprog = tprogOf (s.arrayTemp (engCluster e)) ∧ (t.plane k).te = 0 ∧ (t.plane k).drift = 0
        ∧ (t.plane k).gains = f.gains ∧ (t.plane k).levels = f.levels ∧ (t.plane k).meanPulse = min 255 p.mean8
        ∧ (112 < p.mean8 → (t.logs.word 1).getLsbD 15 = true) ∧ (∀ n, n ≠ k → t.plane n = s.plane n) ∧ t.mem = s.mem ∧ t.hist = s.hist ∧ t.threads = s.threads)
      ∧ (p.ended cb = true → p.limit cb = false → p.cells.beyond cb = false → r.work.op = .touchUp → r.work.why = .overdue → ∃ t, exec (.finalVerifyDone e f) s = .next t
        ∧ t.op e = none ∧ t.cells k = p.cells ∧ (t.plane k).touchups = min 64 ((s.plane k).touchups + 1) ∧ (t.plane k).levels = f.levels
        ∧ (∀ lp, s.logical e r.work.plane = some lp → Tab.get 0 (t.engine e).cond lp = 0) ∧ { t with upk := s.upk, engines := s.engines } = s)
      ∧ (p.ended cb = true → (p.limit cb = true ∨ p.cells.beyond cb = true) → r.work.op = .touchUp → s.tempIn e (-200) 1000 = true → ∃ t, exec (.finalVerifyDone e f) s = .next t
        ∧ t.op e = some { work := { r.work with op := .program }, stage := .erasing } ∧ { t with upk := s.upk } = s)
      ∧ (p.ended cb = true → (p.limit cb = true ∨ p.cells.beyond cb = true) → r.work.op = .program → r.work.retry = false → s.tempOk r.work = true → ∃ t, exec (.finalVerifyDone e f) s = .next t
        ∧ t.op e = some { work := { r.work with retry := true }, stage := .erasing } ∧ (t.logs.word 1).getLsbD 17 = true ∧ t.mem = s.mem)
      ∧ (p.ended cb = true → (p.limit cb = true ∨ p.cells.beyond cb = true) → r.work.op = .program → r.work.retry = true → ∃ t, exec (.finalVerifyDone e f) s = .next t
        ∧ t.op e = none ∧ (t.plane k).state = 4 ∧ (t.logs.word 1).getLsbD 17 = true))

/-- A level read that ends is journalled and finishes its operation: a plane whose codes and rows are right is marked swept and
passed; one with a failing cell is logged and its rewrite is queued; one with a failing row has its touch-up queued, which
begins as a rewrite after 64 touch-ups; an erased or spare plane that is not blank has its erase queued. SWEEP_DUE of a plane
30 days after its last sweep queues one level read of it, of a higher priority 7 days later, and ends Rest; an earlier one
changes nothing. A panel away with nothing left to do, and not in use, returns to service, unless a partner of a plane
operated on does not pass, whose touch-up is queued. UPKEEP_TABLE_WRITE stores the plane and panel tables with the newest
journal number that they cover. (R68, R173, R174, R175, R183, R185, R188, 05_array_upkeep_and_images.md) -/
def Obligations.SweepsReturnsAndTablesTakeEffect : Prop :=
  (∀ (s u : State) (e k : Nat) (r : LevelRead) (o : OpRun), s.op e = some o → o.stage = .reading → o.work.engine = e → o.work.why = .degraded ∨ o.work.why = .touchUp →
      k = 17 * e + o.work.plane → u = s.updCells k (fun x => x.moved r.found) →
      ∃ t, exec (.digitalLevelReadDone e r) s = .next t ∧ t.op e = none ∧ t.mem = s.mem ∧ t.engines = s.engines ∧ t.cells k = u.cells k
        ∧ (∃ j, j ∈ t.upk.journal ∧ j.kind = 0x07 ∧ j.loc = locPlane e o.work.plane ∧ j.seq = s.upk.nextSeq)
        ∧ (∀ n, n ≠ k → t.plane n = s.plane n) ∧ (∀ w, w ∈ s.upk.queue → w ∈ t.upk.queue)
        ∧ (((s.plane k).state = 0 ∨ (s.plane k).state = 2) → (u.cells k).erased = true → t.upk.queue = s.upk.queue
            ∧ (t.plane k).sweepRes = 0 ∧ (t.plane k).sweepH = 0 ∧ t.logs = s.logs)
        ∧ (((s.plane k).state = 0 ∨ (s.plane k).state = 2) → (u.cells k).erased = false → (t.plane k).sweepRes = 2
            ∧ ∃ w, w ∈ t.upk.queue ∧ w.engine = e ∧ w.plane = o.work.plane ∧ w.op = .erase)
        ∧ ((s.plane k).state ≠ 0 → (s.plane k).state ≠ 1 → (s.plane k).state ≠ 2 → (t.plane k).sweepRes = 0 ∧ t.upk.queue = s.upk.queue ∧ t.logs = s.logs)
        ∧ ((s.plane k).state = 1 → (u.readPlane e o.work.plane).2 ≠ 0 → (t.plane k).sweepRes = 2
            ∧ ∃ w, w ∈ t.upk.queue ∧ w.engine = e ∧ w.plane = o.work.plane ∧ w.op = .program)
        ∧ ((s.plane k).state = 1 → (u.readPlane e o.work.plane).2 = 0 → ((u.readPlane e o.work.plane).1 ≠ 0 ∨ o.work.why = .degraded) →
            (t.plane k).sweepRes = 1 ∧ t.logs = s.logs ∧ ∃ w, w ∈ t.upk.queue ∧ w.engine = e ∧ w.plane = o.work.plane ∧ w.op = .touchUp)
        ∧ ((s.plane k).state = 1 → (u.readPlane e o.work.plane).2 = 0 → (u.readPlane e o.work.plane).1 = 0 → o.work.why = .touchUp →
            (t.plane k).sweepRes = 0 ∧ t.upk.queue = s.upk.queue ∧ t.logs = s.logs))
  ∧ (∀ (s : State) (w : Work), (s.asDue w).op = (if w.op = .touchUp ∧ 64 ≤ (s.plane (17 * w.engine + w.plane)).touchups then .program else w.op))
  ∧ (∀ (s : State) (e p : Nat), s.fwUp = true → e < 2304 → p < 17 →
      ((s.plane (17 * e + p)).hours s.life.now < 720 → exec (.sweepDue e p) s = .next s)
      ∧ (720 ≤ (s.plane (17 * e + p)).hours s.life.now → ∃ t, exec (.sweepDue e p) s = .next t
        ∧ ({ prio := if 888 < (s.plane (17 * e + p)).hours s.life.now then 6 else 7, engine := e, plane := p, op := .levelRead, why := .sweep } : Work) ∈ t.upk.queue
        ∧ (∀ w, w ∈ t.upk.queue → w.engine = e → w.plane = p → w.op = .levelRead → w.why = .sweep → w.retry = false → w.newImage = false →
            w.prio = if 888 < (s.plane (17 * e + p)).hours s.life.now then 6 else 7)
        ∧ (∀ w, (w.engine ≠ e ∨ w.plane ≠ p ∨ w.op ≠ .levelRead ∨ w.why ≠ .sweep) → (w ∈ t.upk.queue ↔ w ∈ s.upk.queue)) ∧ { t with upk := s.upk } = s.wake))
  ∧ (∀ (s : State) (e : Nat), (s.panel e).pstate = 2 →
      (s.staysAway e = false → s.panelBusy e = false → s.badPartners e = [] → ∃ t, exec (.panelReturn e) s = .next t ∧ t.panel e = { s.panel e with pstate := 0, awayWhy := 0 }
        ∧ (∀ k, k ≠ e → t.panel k = s.panel k)
        ∧ { t with upk := { t.upk with panels := s.upk.panels, dirty := s.upk.dirty, operated := s.upk.operated, copies := s.upk.copies } } = s)
      ∧ (s.staysAway e = false → s.panelBusy e = false → s.badPartners e ≠ [] → ∃ t, exec (.panelReturn e) s = .next t ∧ (∀ k, t.panel k = s.panel k)
        ∧ (∀ q, q ∈ s.badPartners e → ({ prio := 1, engine := e, plane := q, op := .touchUp, why := .partner } : Work) ∈ t.upk.queue)
        ∧ { t with upk := { t.upk with queue := s.upk.queue, operated := s.upk.operated } } = s)
      ∧ ((s.staysAway e = true ∨ s.panelBusy e = true) → exec (.panelReturn e) s = .next s))
  ∧ (∀ s : State, (s.fwUp = true → s.upk.dirty = true → ∃ t, exec .upkeepTableWrite s = .next t ∧ t.upk.stored = s.newestSeq ∧ t.upk.dirty = false ∧ t.upk.storedPanels = s.upk.panels
        ∧ t.upk.storedPlacement = s.upk.placement
        ∧ (∀ k, (Tab.get (planeShipped k) t.upk.storedPlanes k).erases = (s.plane k).erases ∧ (Tab.get (planeShipped k) t.upk.storedPlanes k).state = (s.plane k).state
          ∧ (Tab.get (planeShipped k) t.upk.storedPlanes k).lplane = (s.plane k).lplane)
        ∧ t.upk.planes = s.upk.planes
        ∧ { t with upk := { t.upk with stored := s.upk.stored, dirty := true, storedPlanes := s.upk.storedPlanes, storedPanels := s.upk.storedPanels, storedPlacement := s.upk.storedPlacement } } = s)
      ∧ (s.upk.dirty = false → exec .upkeepTableWrite s = .next s))

/-- A scrub read of a good beat only counts it; one corrected sets the corrected bit of its memory, and one uncorrectable poisons
its word and sets the uncorrectable bit; a block whose valid bit is clear is skipped. No stored byte changes. SCRUB_PASS_END
writes the pass record and starts the counts again; SCRUB_DEADLINE marks the pass late and sets SCRUB_LATE.
WEIGHT_REFETCH_DONE, of the oldest refetch, with a golden copy that is uncorrectable leaves the blocks as they are and sets
its bit; a page of board memory goes to a spare page, its poison gone; the files that cover an SRAM word stand in SRAM again.
Each ends Rest. (R430, R431, R436, R438, R440, R441, R445, R446, R447, R449, 12_keeping_data_whole.md) -/
def Obligations.ScrubFindsAndRepairs : Prop :=
  (∀ (s : State) (f : EccFinding), s.fwUp = true →
      (f.space = .board → s.mem.clear (f.addr / 4096) = true → exec (.patrolScrubRead f) s = .next s)
      ∧ ((f.space ≠ .board ∨ s.mem.clear (f.addr / 4096) = false) → ∃ t, exec (.patrolScrubRead f) s = .next t
        ∧ t.mem.findings = s.mem.findings.set f.cls (s.mem.findings.getD f.cls 0 + 1) ∧ (∀ (sp : Space) (a : Nat), t.mem.read sp a = s.mem.read sp a)
        ∧ t.threads = s.threads ∧ t.ctxs = s.ctxs ∧ t.hist = s.hist ∧ t.rings = s.rings
        ∧ (f.cls = 0 → t.logs = s.logs ∧ t.mem.poison = s.mem.poison)
        ∧ (f.space = .board → (f.cls = 1 ∨ f.cls = 2) → (t.logs.word 1).getLsbD 0 = true ∧ t.mem.poison = s.mem.poison)
        ∧ (f.space = .board → f.cls = 3 → (t.logs.word 1).getLsbD 2 = true ∧ Tab.get false t.mem.poison (poisonKey .board f.addr) = true)
        ∧ (f.space ≠ .board → f.cls = 1 → (t.logs.word 1).getLsbD 4 = true ∧ t.mem.poison = s.mem.poison)
        ∧ (f.space ≠ .board → f.cls = 3 → (t.logs.word 1).getLsbD 5 = true ∧ Tab.get false t.mem.poison (poisonKey f.space f.addr) = true)
        ∧ (f.space = .board → f.cls = 3 → (s.inImage f.addr = true ∨ inAway f.addr = true) →
            (t.logs.word 1).getLsbD 10 = true
            ∧ t.mem.refetch = (if (true, f.addr / 4096) ∈ s.mem.refetch then s.mem.refetch else s.mem.refetch ++ [(true, f.addr / 4096)]))))
  ∧ (∀ s : State, s.fwUp = true → (∃ t, exec .scrubPassEnd s = .next t ∧ t.mem.findings = [0, 0, 0, 0, 0, 0] ∧ t.mem.scrubBlocks = [] ∧ t.mem.scrubLate = false
        ∧ Logged { s.wake with mem := { s.mem with findings := [0, 0, 0, 0, 0, 0], scrubBlocks := [], scrubLate := false } } t [])
      ∧ ∃ t, exec .scrubDeadline s = .next t ∧ Logged { s.wake with mem := { s.mem with scrubLate := true } } t [(1, 13)])
  ∧ (∀ (s v : State) (board : Bool) (n : Nat) (more : List (Bool × Nat)), s.fwUp = true → s.mem.refetch = (board, n) :: more →
      v = { s.wake with mem := { s.mem with refetch := more } } →
      (∃ t, exec (.weightRefetchDone false) s = .next t ∧ Logged { v with mem := { v.mem with goldenBad := true } } t [(1, 19)])
      ∧ (∀ i, board = false → s.image = some i → exec (.weightRefetchDone true) s = .next (v.putFiles ((v.filesOf i (fun _ => true)).filter (fun f =>
          (List.range f.2.2.length).any (fun j => decide (poisonKey f.1 (f.2.1 + j) = n))))))
      ∧ (board = false → s.image = none → exec (.weightRefetchDone true) s = .next v)
      ∧ (board = true → 4096 ≤ s.mem.spares → exec (.weightRefetchDone true) s = .next v)
      ∧ (board = true → s.mem.spares < 4096 → ∃ t, exec (.weightRefetchDone true) s = .next t ∧ t.mem.refetch = more ∧ Tab.get 0 t.mem.remap n = s.mem.spares + 1
          ∧ t.mem.spares = s.mem.spares + 1 ∧ (∀ p, p ≠ n → Tab.get 0 t.mem.remap p = Tab.get 0 s.mem.remap p)
          ∧ (∀ a, a / 4096 = n → Tab.get false t.mem.poison (poisonKey .board a) = false) ∧ (∀ (sp : Space) (a : Nat), t.mem.read sp a = s.mem.read sp a)
          ∧ (3072 ≤ s.mem.spares + 1 → (t.logs.word 1).getLsbD 11 = true)))
  ∧ (∀ (s : State) (b : Bool), s.mem.refetch = [] → exec (.weightRefetchDone b) s = .next s)

/-- A program of a main block's next page that verifies makes that page stand and changes nothing else but Rest; in a full block
there is none; one that fails sets its trouble bit and retires the block, and what it held moves to a free spare of its plane.
An erase whose intent stands and that verifies is counted with its done record; one that fails retires a main block. A read
with up to 24 bit errors changes nothing but Rest; with up to 40 it sets the corrected bit and has the block refreshed, now
where a spare is free and it is not open; above, it sets the uncorrectable bit, and of the active image's slot the golden-copy
bit. A patrol read does the same and counts its block, the last one ending the pass. Memory and history stand. (R437, R447,
R469, R470, R471, R478, R480, R482, 13_store.md) -/
def Obligations.StoreOperationsTakeEffect : Prop :=
  (∀ (s : State) (b : Nat), s.storeUp = true → isMain b = true →
      ((Tab.get {} s.store.pages b).full = true → ∀ ok, exec (.storeProgramDone b ok) s = .next s)
      ∧ ((Tab.get {} s.store.pages b).full = false → ∃ t, exec (.storeProgramDone b true) s = .next t
        ∧ (Tab.get {} t.store.pages b).count = (Tab.get {} s.store.pages b).count + 1
        ∧ (∀ k, k ≠ b → Tab.get {} t.store.pages k = Tab.get {} s.store.pages k) ∧ { t with store := { t.store with pages := s.store.pages } } = s.wake)
      ∧ ((Tab.get {} s.store.pages b).full = false → s.store.retired.contains b = false → ∃ t, exec (.storeProgramDone b false) s = .next t ∧ (t.logs.word 1).getLsbD 8 = true ∧ b ∈ t.store.retired ∧ t.mem = s.mem ∧ t.hist = s.hist
        ∧ (∀ l sp rest, s.store.holds b = some l → s.store.spares (planeOf b) = sp :: rest → t.store.mainOf l = sp ∧ t.img = s.img)
        ∧ (s.store.holds b = none → t.store.map = s.store.map ∧ t.img = s.img)))
  ∧ (∀ (s : State) (unit phys n : Nat), s.storeUp = true → s.store.erasing unit phys = true →
      (unit ≠ 0 → ∃ t, exec (.storeEraseDone unit phys true n) s = .next t ∧ t.store.eraseCount unit phys = s.store.eraseCount unit phys + 1
        ∧ (∃ r, t.store.journal.getLast? = some r ∧ r.kind = 0x22 ∧ r.unit = unit ∧ r.phys = phys ∧ r.arg = n) ∧ { t with store := s.store } = s.wake)
      ∧ (unit = 0 → ∃ t, exec (.storeEraseDone unit phys true n) s = .next t ∧ t.store.eraseCount 0 phys = s.store.eraseCount 0 phys + 1
        ∧ (s.store.refresh = [] → ∃ r, r ∈ t.store.journal ∧ r.kind = 0x22 ∧ r.phys = phys ∧ r.seq = s.store.nextSeq) ∧ t.mem = s.mem ∧ t.img = s.img)
      ∧ (unit = 0 → s.store.retired.contains phys = false → ∃ t, exec (.storeEraseDone unit phys false n) s = .next t ∧ (t.logs.word 1).getLsbD 8 = true ∧ phys ∈ t.store.retired ∧ t.mem = s.mem)
      ∧ (unit ≠ 0 → ∃ t, exec (.storeEraseDone unit phys false n) s = .next t ∧ Logged s.wake t [(1, 8)]))
  ∧ (∀ (s : State) (b n : Nat), s.storeUp = true → isMain b = true →
      (n ≤ 24 → exec (.storeRead b n) s = .next s.wake)
      ∧ (24 < n → n ≤ 40 → ∃ t, exec (.storeRead b n) s = .next t ∧ (t.logs.word 1).getLsbD 6 = true ∧ t.mem = s.mem ∧ t.img = s.img
        ∧ (∀ l sp rest, s.store.refresh = [] → s.store.holds b = some l → s.store.spares (planeOf b) = sp :: rest → s.openBlock l = false →
            t.store.mainOf l = sp ∧ t.store.refresh = [] ∧ t.store.refreshes = s.store.refreshes + 1)
        ∧ (∀ l, s.store.refresh = [] → s.store.holds b = some l → (s.store.spares (planeOf b) = [] ∨ s.openBlock l = true) → t.store.refresh = [b] ∧ t.store.map = s.store.map))
      ∧ (40 < n → ∃ t, exec (.storeRead b n) s = .next t ∧ (t.logs.word 1).getLsbD 7 = true ∧ (s.img.swap = none → t.store = s.store)
        ∧ (∀ l a, s.store.holds b = some l → s.img.active = some a → inSlot a l = true → t.mem.goldenBad = true ∧ (t.logs.word 1).getLsbD 19 = true)
        ∧ (s.store.holds b = none → Logged s.wake t [(1, 7)]))
      ∧ (n ≤ 24 → s.store.patrol + 1 ≠ 16375 → exec (.storePatrolRead b n) s = .next { s.wake with store := { s.store with patrol := s.store.patrol + 1 } })
      ∧ (n ≤ 24 → s.store.patrol + 1 = 16375 → exec (.storePatrolRead b n) s = .next { s.wake with store := { s.store with patrol := 0, lastFull := s.life.now } })
      ∧ (24 < n → ∃ t, exec (.storePatrolRead b n) s = .next t ∧ t.store.patrol = (if s.store.patrol + 1 = 16375 then 0 else s.store.patrol + 1)
        ∧ (t.logs.word 1).getLsbD (if n ≤ 40 then 6 else 7) = true))

/-- LOG_PAGE_WRITE stores up to 256 staged records, oldest first, and stages the rest; a full area loses its oldest block.
LOG_RATE_SECOND_END writes one summary record for each code and location that was suppressed, each with a commit of its own
and the count of what was suppressed, and starts every per-second count again. TROUBLE_LEVEL_REASSERT sets every level bit
whose condition holds and no other bit: a feed out, hold-up low, excluded sensors, output mismatch, an erased device,
remapping low or full, wear, retired panels, a bad golden copy, detachment. (R396, R431, R452, R458, R460,
12_keeping_data_whole.md) -/
def Obligations.LogAndLevelEventsTakeEffect : Prop :=
  (∀ s : State, s.storeUp = true →
      (s.logs.staged = [] → exec .logPageWrite s = .next s)
      ∧ (s.logs.staged ≠ [] → ∃ t, exec .logPageWrite s = .next t ∧ t.logs.staged = s.logs.staged.drop 256
        ∧ (s.logs.stored.length + min 256 s.logs.staged.length ≤ 524288 → t.logs.stored = s.logs.stored ++ s.logs.staged.take 256)
        ∧ (524288 < s.logs.stored.length + min 256 s.logs.staged.length → t.logs.stored = (s.logs.stored ++ s.logs.staged.take 256).drop 8192)
        ∧ (∀ w, t.logs.word w = s.logs.word w) ∧ { t with logs := s.logs } = s.wake))
  ∧ (∀ s : State, s.portsUp = true → ∃ t, exec .logRateSecondEnd s = .next t ∧ t.logs.written = [] ∧ t.logs.suppressed = [] ∧ t.comms = { s.comms with refusedTo := [] }
      ∧ t.mem = { s.mem with corrected := [] } ∧ (∀ p, (t.pport p).replays = 0 ∧ (t.pport p).state = (s.pport p).state ∧ (t.pport p).txSeq = (s.pport p).txSeq)
      ∧ t.life.commit = s.life.commit + s.logs.suppressed.length ∧ t.logs.nextLseq = s.logs.nextLseq + s.logs.suppressed.length ∧ (∀ w, t.logs.word w = s.logs.word w)
      ∧ (∀ key n, s.logs.suppressed = [(key, n)] → ∃ r, t.logs.staged = s.logs.staged ++ [r] ∧ r.code = key / 2 ^ 32 ∧ r.loc = key % 2 ^ 32 ∧ r.summary = true ∧ r.rep = min n 65535
          ∧ r.lseq = s.logs.nextLseq)
      ∧ t.hist = s.hist ∧ t.ctxs = s.ctxs ∧ t.out = s.out)
  ∧ (∀ s : State, s.portsUp = true → ∃ t, exec .troubleLevelReassert s = .next t
      ∧ (s.supply.main.out = true → (t.logs.word 0).getLsbD 0 = true) ∧ (s.supply.backup.out = true → (t.logs.word 0).getLsbD 2 = true)
      ∧ (s.supply.holdupMj < 4920 → (t.logs.word 0).getLsbD 4 = true) ∧ (s.excluded ≠ [] → (t.logs.word 0).getLsbD 10 = true) ∧ (s.outputBad = true → (t.logs.word 0).getLsbD 13 = true)
      ∧ (s.mem.erased ≠ [] → (t.logs.word 1).getLsbD 1 = true) ∧ (3072 ≤ s.mem.spares → (t.logs.word 1).getLsbD 11 = true) ∧ (4096 ≤ s.mem.spares → (t.logs.word 1).getLsbD 12 = true)
      ∧ ((∃ e, e ∈ s.upk.planes ∧ e.2.worn = true) → (t.logs.word 1).getLsbD 15 = true) ∧ ((∃ e, e ∈ s.upk.panels ∧ e.2.pstate = 3) → (t.logs.word 1).getLsbD 16 = true)
      ∧ (s.mem.goldenBad = true → (t.logs.word 1).getLsbD 19 = true) ∧ (s.pack.detached = true → (t.logs.word 2).getLsbD 9 = true)
      ∧ (∀ v b, v < 3 → (v, b) ∉ [(0, 0), (0, 2), (0, 4), (0, 10), (0, 13), (1, 1), (1, 11), (1, 12), (1, 15), (1, 16), (1, 19), (2, 9)] →
          (t.logs.word v).getLsbD b = (s.logs.word v).getLsbD b)
      ∧ { t with life := { t.life with commit := s.life.commit, storedStamp := s.life.storedStamp }, logs := s.logs, comms := s.comms, out := s.out } = s)

/-- On a powered module OUTPUT_SENSE_MISMATCH of output n notes that the output is sensed at the other state than the one
commanded, HEALTH_SENSE_MISMATCH notes the same of the health contact, and each sets the output trouble bit and no other bit.
OUTPUT_OVERCURRENT of an output that is on cuts that output off and no other, with the same bit; one that is off changes
nothing. INPUT_SAMPLE changes a debounced input only where ten samples in a row have read it otherwise: above 18 V reads 1,
below 10 V reads 0, between them the last reading stands. Nothing but the pins' state changes. (R544, R545, R546, R548,
16_connectors_and_mechanics.md) -/
def Obligations.PinsAreSensedAndSampled : Prop :=
  (∀ (s : State) (n : Nat), s.powered = true → n < 4 → ∃ t, exec (.outputSenseMismatch n) s = .next t
      ∧ Logged { s with io := { s.io with stuck := s.io.stuck.filter (fun (p : Nat × Bool) => decide (p.1 ≠ n)) ++ [(n, !s.outputs.getLsbD n)] } } t [(0, 13)])
  ∧ (∀ (s : State) (n : Nat), n < 4 →
      (s.outputs.getLsbD n = true → ∃ t, exec (.outputOvercurrent n) s = .next t ∧ t.outputs.getLsbD n = false ∧ (∀ m, m < 4 → m ≠ n → t.outputs.getLsbD m = s.outputs.getLsbD m)
        ∧ Logged { s with io := { s.io with cutOff := s.io.cutOff ||| (1#4 <<< n) } } t [(0, 13)])
      ∧ (s.outputs.getLsbD n = false → exec (.outputOvercurrent n) s = .next s))
  ∧ (∀ s : State, s.powered = true → ∃ t, exec .healthSenseMismatch s = .next t ∧ Logged { s with io := { s.io with hStuck := some (!s.healthy) } } t [(0, 13)])
  ∧ (∀ (s : State) (mv : List Int), s.powered = true → s.io.runs.length = 4 → ∃ t, exec (.inputSample mv) s = .next t ∧ { t with io := s.io } = s
      ∧ { t.io with inputs := s.io.inputs, raw := s.io.raw, runs := s.io.runs } = s.io
      ∧ ∀ n, n < 4 →
          (18000 < mv.getD n 0 → t.io.raw.getLsbD n = true) ∧ (mv.getD n 0 < 10000 → t.io.raw.getLsbD n = false)
          ∧ (10000 ≤ mv.getD n 0 → mv.getD n 0 ≤ 18000 → t.io.raw.getLsbD n = s.io.raw.getLsbD n)
          ∧ (t.io.raw.getLsbD n = s.io.inputs.getLsbD n → t.io.inputs.getLsbD n = s.io.inputs.getLsbD n ∧ t.io.runs.getD n 0 = 0)
          ∧ (t.io.raw.getLsbD n ≠ s.io.inputs.getLsbD n → s.io.runs.getD n 0 < 9 → t.io.inputs.getLsbD n = s.io.inputs.getLsbD n ∧ t.io.runs.getD n 0 = s.io.runs.getD n 0 + 1)
          ∧ (t.io.raw.getLsbD n ≠ s.io.inputs.getLsbD n → 9 ≤ s.io.runs.getD n 0 → t.io.inputs.getLsbD n = t.io.raw.getLsbD n ∧ t.io.runs.getD n 0 = 0))

/-- For every command that a session can send, at the head of its session's ring: where the role of the session is below the
command's, the answer is NOT_PERMITTED; else, where a parameter is missing, unknown or of a wrong length, BAD_PARAM with its
offset; else, while the module is not Ready, BUSY for a command that changes something and is not of the firmware group; else,
of a command for the lead at another member, NOT_PERMITTED with the lead's position. Each such answer has the present stamp
and no value, and nothing changes but the session itself. The order of these refusals is the model's choice. (R400, R403,
R404, R411, R416, R487, 11_command_packets.md) -/
def Obligations.RefusedCommandsChangeNothing : Prop :=
  (∀ (c : Instr) (op sid : Nat) (s : State) (x : Session) (p : Packet) (st : Status) (d : Nat), (c, op) ∈ ([
        (.keepalive sid, 0x0004), (.close sid, 0x0005), (.notifyAck sid, 0x0006), (.sessionInfo sid, 0x0008), (.moduleInfo sid, 0x0101), (.status sid, 0x0102),
        (.unitRead sid, 0x0103), (.thermal sid, 0x0104), (.fpcount sid, 0x0105), (.clipRead sid, 0x0106), (.imgBegin sid, 0x0201), (.imgEnd sid, 0x0202),
        (.imgAbort sid, 0x0203), (.imgInfo sid, 0x0204), (.swap sid, 0x0205), (.swapStatus sid, 0x0206), (.memberRead sid, 0x0207), (.slotSet sid, 0x0301),
        (.slotRead sid, 0x0302), (.slotFree sid, 0x0303), (.portSet sid, 0x0304), (.portRead sid, 0x0305), (.streamStatus sid, 0x0306), (.streamClear sid, 0x0307),
        (.ctxStart sid, 0x0401), (.ctxStop sid, 0x0402), (.ctxReset sid, 0x0403), (.ctxRead sid, 0x0404), (.ctxSet sid, 0x0405), (.quotaSet sid, 0x0406),
        (.quotaRead sid, 0x0407), (.run sid, 0x0408), (.runCancel sid, 0x0409), (.resultRead sid, 0x0501), (.resultSub sid, 0x0502), (.resultUnsub sid, 0x0503),
        (.advisoryRead sid, 0x0504), (.eventSub sid, 0x0505), (.eventUnsub sid, 0x0506), (.ctrSignal sid, 0x0601), (.ctrRead sid, 0x0602), (.ctrSub sid, 0x0603),
        (.ctrUnsub sid, 0x0604), (.bind sid, 0x0605), (.ctrClear sid, 0x0606), (.ctrList sid, 0x0607), (.budgetSet sid, 0x0701), (.powerRead sid, 0x0702),
        (.packConfig sid, 0x0801), (.packRead sid, 0x0802), (.troubleRead sid, 0x0901), (.troubleClear sid, 0x0902), (.logRead sid, 0x0903),
        (.upkeepRead sid, 0x0A01), (.planeRead sid, 0x0A02), (.replan sid, 0x0A03), (.sweep sid, 0x0A04), (.retire sid, 0x0A05), (.checkpoint sid, 0x0A06),
        (.attest sid, 0x0B01), (.identityRead sid, 0x0B02), (.anchorRead sid, 0x0B03), (.anchorAdd sid, 0x0B04), (.anchorRemove sid, 0x0B05),
        (.denyAdd sid, 0x0B06), (.fwBegin sid, 0x0C01), (.fwEnd sid, 0x0C02), (.fwActivate sid, 0x0C03), (.restart sid, 0x0C04), (.optionRead sid, 0x0C05),
        (.optionSet sid, 0x0C06), (.servicePort sid, 0x0C07)] : List (Instr × Nat)) →
      s.portsUp = true → s.sess sid = some x → x.headCmd = some p → p.opcode = op → s.refuses x p = some (st, d) → ∃ t, exec c s = .next t ∧ Refused s t sid x p st d)
  ∧ (∀ (s : State) (x : Session) (p : Packet) (row : CmdRow), cmdRow p.opcode = some row →
      (x.role < row.role → s.refuses x p = some (.notPermitted, 0))
      ∧ (∀ d, row.role ≤ x.role → formBad row p = some d → s.refuses x p = some (.badParam, d))
      ∧ (row.role ≤ x.role → formBad row p = none → s.isReady = false → isRead p.opcode = false → p.opcode / 256 ≠ 0x0C → s.refuses x p = some (.busy, 0))
      ∧ (row.role ≤ x.role → formBad row p = none → s.isReady = true → row.lead = true → s.isLead = false → s.refuses x p = some (.notPermitted, 0x01000000 + s.pack.lead)))

/-- For every opcode and context below 2^16, SEQ below 2^32 and every list of TLVs with types and lengths below 2^16 whose bytes
are fewer than 2^32, the packet laid out by the header of Table 11.5 and the TLV rule has a good header, is no bulk packet,
and is read as that opcode, context, SEQ, byte count and those TLVs, each at the offset where it stands, with nothing against
its form. With any byte of the reserved fields of the header nonzero it counts as bad at offset 0, the model's reading of the
rule of reserved fields. (R16, R402, R403, R416, 11_command_packets.md) -/
def Obligations.CommandPacketsAreReadAsLaidOut : Prop :=
  (∀ (opcode ctx seq : Nat) (vs : List Tlv), opcode < 2 ^ 16 → ctx < 2 ^ 16 → seq < 2 ^ 32 → (∀ v, v ∈ vs → v.1 < 2 ^ 16 ∧ v.2.length < 2 ^ 16) →
      (bodyBytes vs).length < 2 ^ 32 →
      headerOk (commandBytes opcode ctx seq vs) = true ∧ isBulk (commandBytes opcode ctx seq vs) = false
        ∧ readPacket (commandBytes opcode ctx seq vs)
            = { opcode := opcode, ctx := ctx, seq := seq, badAt := 0, plen := (bodyBytes vs).length, tlvs := vs, offs := tlvOffsets 0 vs })
  ∧ (∀ (bs : List Byte) (i : Nat) (b : Byte), bs[i]? = some b → (i ∈ [10, 11, 20, 21, 22, 23] : Prop) → b ≠ 0 → (readPacket bs).badAt = 1)
end

