-- ==== Sys2Proof/Laws/KeptBase.lean ====
section
/-! SUPPORT. `Kept` through the plain constructions: a record update, a choice, a fold. -/

namespace Sys2Proof.Machine

open Sys2Proof

variable {q : List Instr} {m : Marks} {s : State}

/-- The parts of `Kept` as a state that is written out has them. -/
@[simp] theorem keptAt_of (h : Kept q m s) :
    KeptAt q m s.pending s.life.commit s.life.storedStamp s.life.poc s.logs.nextLseq s.store.nextSeq s.upk.nextSeq := h

@[simp] theorem kept_ite (c : Prop) [Decidable c] {a b : State} (ha : Kept q m a) (hb : Kept q m b) :
    Kept q m (if c then a else b) := by
  split <;> assumption

@[simp] theorem kept_foldl {α : Type} (f : State → α → State) (hf : ∀ s x, Kept q m s → Kept q m (f s x)) (l : List α) (h : Kept q m s) :
    Kept q m (l.foldl f s) := by
  induction l generalizing s with
  | nil => exact h
  | cons x xs ih => exact ih (hf _ _ h)

@[simp] theorem kept_each {α : Type} (f : State → α → State) (hf : ∀ s x, Kept q m s → Kept q m (f s x)) (l : List α) (h : Kept q m s) :
    Kept q m (s.each l f) := by
  induction l generalizing s with
  | nil => exact h
  | cons x xs ih => exact ih (hf _ _ h)

/-- A state that is written out. -/
@[simp] theorem kept_mk (pe li a0 a1 a2 a3 a4 a5 a6 a7 a8 a9 b1 b2 b3 b4 b5 b6 b7 b8 b9 c1 c2 lo up st c6 c7 c8 c9 d1 d2 d3) :
    Kept q m (State.mk pe li a0 a1 a2 a3 a4 a5 a6 a7 a8 a9 b1 b2 b3 b4 b5 b6 b7 b8 b9 c1 c2 lo up st c6 c7 c8 c9 d1 d2 d3)
      ↔ KeptAt q m pe li.commit li.storedStamp li.poc lo.nextLseq st.nextSeq up.nextSeq := Iff.rfl

/-- One commit. -/
@[simp] theorem keptAt_commit {pe : List Instr} {c d po l t u : Nat} (h : KeptAt q m pe c d po l t u) :
    KeptAt q m pe (c + 1) (if (c + 1) % 2147483648 = 0 then c + 1 else d) po l t u := by
  obtain ⟨h1, h2, h3, h4⟩ := h
  refine ⟨h1, by omega, ?_, h4⟩
  split <;> omega

/-- A number of the log, the store or the upkeep journal advances. -/
@[simp] theorem keptAt_lseq {pe : List Instr} {c d po l t u : Nat} (h : KeptAt q m pe c d po l t u) : KeptAt q m pe c d po (l + 1) t u := by
  obtain ⟨h1, h2, h3, h4, h5, h6⟩ := h
  exact ⟨h1, h2, h3, h4, by omega, h6⟩

@[simp] theorem keptAt_store {pe : List Instr} {c d po l t u : Nat} (h : KeptAt q m pe c d po l t u) : KeptAt q m pe c d po l (t + 1) u := by
  obtain ⟨h1, h2, h3, h4, h5, h6, h7⟩ := h
  exact ⟨h1, h2, h3, h4, h5, by omega, h7⟩

@[simp] theorem keptAt_upkeep {pe : List Instr} {c d po l t u : Nat} (h : KeptAt q m pe c d po l t u) : KeptAt q m pe c d po l t (u + 1) := by
  obtain ⟨h1, h2, h3, h4, h5, h6, h7⟩ := h
  exact ⟨h1, h2, h3, h4, h5, h6, by omega⟩

/-- Every next state that an outcome holds is kept. -/
def KeptOut (q : List Instr) (m : Marks) (o : Outc) : Prop := ∀ t, o = .next t → Kept q m t

@[simp] theorem keptOut_next {t : State} : KeptOut q m (.next t) ↔ Kept q m t :=
  ⟨fun h => h t rfl, fun h _ e => by cases e; exact h⟩

@[simp] theorem keptOut_fault (f : Fault) : KeptOut q m (.fault f) := fun _ e => by cases e

@[simp] theorem keptOut_ite (c : Prop) [Decidable c] {a b : Outc} (ha : KeptOut q m a) (hb : KeptOut q m b) :
    KeptOut q m (if c then a else b) := by
  split <;> assumption

/-- A commit stamp that is written alone. -/
theorem keptAt_stamp {pe : List Instr} {c d po l t u x y : Nat} (h : KeptAt q m pe c d po l t u) (hx : c ≤ x) (hy : x / 2 ^ 31 ≤ y / 2 ^ 31) :
    KeptAt q m pe x y po l t u := by
  obtain ⟨h1, h2, h3, h4⟩ := h
  exact ⟨h1, by omega, hy, h4⟩

end Sys2Proof.Machine
end

