-- ==== Sys2Proof/Laws/KeptOps.lean ====
section
/-! SUPPORT. `Kept` through the operations of Machine/Ops.lean. -/

namespace Sys2Proof.Machine

open Sys2Proof

variable {qq : List Instr} {mm : Marks}

@[simp] theorem State_updEngine_kept (s : State) (e : Nat) (f : Engine → Engine) (hk : Kept qq mm s) : Kept qq mm (State.updEngine s e f) := by
  unfold State.updEngine
  simp (maxDischargeDepth := 60) [hk]

@[simp] theorem State_updCore_kept (s : State) (k : Nat) (f : Core → Core) (hk : Kept qq mm s) : Kept qq mm (State.updCore s k f) := by
  unfold State.updCore
  simp (maxDischargeDepth := 60) [hk]

@[simp] theorem State_updThread_kept (s : State) (t : Nat) (f : Thread → Thread) (hk : Kept qq mm s) : Kept qq mm (State.updThread s t f) := by
  unfold State.updThread
  simp (maxDischargeDepth := 60) [hk]

@[simp] theorem State_updRing_kept (s : State) (r : Nat) (f : Ring → Ring) (hk : Kept qq mm s) : Kept qq mm (State.updRing s r f) := by
  unfold State.updRing
  simp (maxDischargeDepth := 60) [hk]

@[simp] theorem State_setChannel_kept (s : State) (c : Nat) (v : List Flight) (hk : Kept qq mm s) : Kept qq mm (State.setChannel s c v) := by
  unfold State.setChannel
  simp (maxDischargeDepth := 60) [hk]

@[simp] theorem State_updCounter_kept (s : State) (p : Nat) (f : Counter → Counter) (hk : Kept qq mm s) : Kept qq mm (State.updCounter s p f) := by
  unfold State.updCounter
  simp (maxDischargeDepth := 60) [hk]

@[simp] theorem State_updCtx_kept (s : State) (c : Nat) (f : Ctx → Ctx) (hk : Kept qq mm s) : Kept qq mm (State.updCtx s c f) := by
  unfold State.updCtx
  simp (maxDischargeDepth := 60) [hk]

@[simp] theorem State_updSlot_kept (s : State) (n : Nat) (f : Slot → Slot) (hk : Kept qq mm s) : Kept qq mm (State.updSlot s n f) := by
  unfold State.updSlot
  simp (maxDischargeDepth := 60) [hk]

@[simp] theorem State_setSess_kept (s : State) (n : Nat) (v : Option Session) (hk : Kept qq mm s) : Kept qq mm (State.setSess s n v) := by
  unfold State.setSess
  simp (maxDischargeDepth := 60) [hk]

@[simp] theorem State_updSess_kept (s : State) (n : Nat) (f : Session → Session) (hk : Kept qq mm s) : Kept qq mm (State.updSess s n f) := by
  unfold State.updSess
  simp (maxDischargeDepth := 60) [hk]

@[simp] theorem State_updClk_kept (s : State) (k : Nat) (f : StackClk → StackClk) (hk : Kept qq mm s) : Kept qq mm (State.updClk s k f) := by
  unfold State.updClk
  simp (maxDischargeDepth := 60) [hk]

@[simp] theorem State_updPort_kept (s : State) (p : Nat) (f : PackPort → PackPort) (hk : Kept qq mm s) : Kept qq mm (State.updPort s p f) := by
  unfold State.updPort
  simp (maxDischargeDepth := 60) [hk]

@[simp] theorem State_setOp_kept (s : State) (e : Nat) (v : Option OpRun) (hk : Kept qq mm s) : Kept qq mm (State.setOp s e v) := by
  unfold State.setOp
  simp (maxDischargeDepth := 60) [hk]

@[simp] theorem State_updPanel_kept (s : State) (e : Nat) (f : Panel → Panel) (hk : Kept qq mm s) : Kept qq mm (State.updPanel s e f) := by
  unfold State.updPanel
  simp (maxDischargeDepth := 60) [hk]

@[simp] theorem State_updPlane_kept (s : State) (k : Nat) (f : PlaneEnt → PlaneEnt) (hk : Kept qq mm s) : Kept qq mm (State.updPlane s k f) := by
  unfold State.updPlane
  simp (maxDischargeDepth := 60) [hk]

@[simp] theorem State_emit_kept (s : State) (o : Out) (hk : Kept qq mm s) : Kept qq mm (State.emit s o) := by
  unfold State.emit
  simp (maxDischargeDepth := 60) [hk]

@[simp] theorem State_draw_kept (s : State) (hk : Kept qq mm s) : Kept qq mm (State.draw s) := by
  unfold State.draw
  simp (maxDischargeDepth := 60) [hk]

@[simp] theorem State_wake_kept (s : State) (hk : Kept qq mm s) : Kept qq mm (State.wake s) := by
  unfold State.wake
  simp (maxDischargeDepth := 60) [hk]

@[simp] theorem State_commit_kept (s : State) (hk : Kept qq mm s) : Kept qq mm (State.commit s) := by
  unfold State.commit
  simp (maxDischargeDepth := 60) [hk]

@[simp] theorem State_updImgSlot_kept (s : State) (n : Nat) (f : ImgSlot → ImgSlot) (hk : Kept qq mm s) : Kept qq mm (State.updImgSlot s n f) := by
  unfold State.updImgSlot
  simp (maxDischargeDepth := 60) [hk]

@[simp] theorem State_releaseCut_kept (s : State) (hk : Kept qq mm s) : Kept qq mm (State.releaseCut s) := by
  unfold State.releaseCut
  simp (maxDischargeDepth := 60) [hk]

@[simp] theorem State_sendNotify_kept (s : State) (sid : Nat) (n : Notify) (hk : Kept qq mm s) : Kept qq mm (State.sendNotify s sid n) := by
  unfold State.sendNotify
  (repeat' split) <;> simp (maxDischargeDepth := 60) [hk]

@[simp] theorem State_notify_kept (s : State) (sid opcode ctx : Nat) (st : Status) (detail : Nat) (tlvs : List Tlv) (hk : Kept qq mm s) : Kept qq mm (State.notify s sid opcode ctx st detail tlvs) := by
  unfold State.notify
  (repeat' split) <;> simp (maxDischargeDepth := 60) [hk]

@[simp] theorem State_complete_kept (s : State) (who : Option (Nat × Nat)) (opcode ctx : Nat) (st : Status) (detail : Nat) (tlvs : List Tlv) (hk : Kept qq mm s) : Kept qq mm (State.complete s who opcode ctx st detail tlvs) := by
  unfold State.complete
  (repeat' split) <;> simp (maxDischargeDepth := 60) [hk]

@[simp] theorem State_putLog_kept (s : State) (r : LogRec) (hk : Kept qq mm s) : Kept qq mm (State.putLog s r) := by
  unfold State.putLog
  simp (maxDischargeDepth := 60) [hk]

@[simp] theorem State_logLimited_kept (s : State) (e : LogEv) (tb : Option (Nat × Nat)) (hk : Kept qq mm s) : Kept qq mm (State.logLimited s e tb) := by
  unfold State.logLimited
  simp (maxDischargeDepth := 60) [hk]

@[simp] theorem State_log_kept (s : State) (e : LogEv) (hk : Kept qq mm s) : Kept qq mm (State.log s e) := by
  unfold State.log
  simp (maxDischargeDepth := 60) [hk]

@[simp] theorem State_eventNotify_kept (s : State) (w b : Nat) (r : LogRec) (hk : Kept qq mm s) : Kept qq mm (State.eventNotify s w b r) := by
  unfold State.eventNotify
  refine kept_each _ (fun s sid hs => ?_) _ hk
  split
  · exact hs
  · split
    · simp (maxDischargeDepth := 60) [hs]
    · exact hs

/-- Setting a trouble word leaves the next LSEQ. -/
@[simp] theorem Logs_setWord_nextLseq (l : Logs) (w : Nat) (v : BitVec 32) : (l.setWord w v).nextLseq = l.nextLseq := by
  unfold Logs.setWord
  split
  · rfl
  · split <;> rfl

@[simp] theorem State_troubleAs_kept (s : State) (w b : Nat) (e : LogEv) (hk : Kept qq mm s) : Kept qq mm (State.troubleAs s w b e) := by
  unfold State.troubleAs
  simp (maxDischargeDepth := 60) [hk]

@[simp] theorem State_trouble_kept (s : State) (w b : Nat) (loc bunit ctx : Nat) (detail : List Nat) (hk : Kept qq mm s) : Kept qq mm (State.trouble s w b loc bunit ctx detail) := by
  unfold State.trouble
  simp (maxDischargeDepth := 60) [hk]

@[simp] theorem State_raise_kept (s : State) (w b bunit : Nat) (hk : Kept qq mm s) : Kept qq mm (State.raise s w b bunit) := by
  unfold State.raise
  simp (maxDischargeDepth := 60) [hk]

@[simp] theorem State_sendReply_kept (s : State) (sid : Nat) (r : Reply) (hk : Kept qq mm s) : Kept qq mm (State.sendReply s sid r) := by
  unfold State.sendReply
  (repeat' split) <;> simp (maxDischargeDepth := 60) [hk]

@[simp] theorem State_forget_kept (s : State) (sid : Nat) (hk : Kept qq mm s) : Kept qq mm (State.forget s sid) := by
  unfold State.forget
  simp (maxDischargeDepth := 60) [hk]

@[simp] theorem State_dropThresholds_kept (s : State) (sid : Nat) (hk : Kept qq mm s) : Kept qq mm (State.dropThresholds s sid) := by
  unfold State.dropThresholds
  (repeat' split) <;> simp_all (maxDischargeDepth := 60)

@[simp] theorem State_endSession_kept (s : State) (sid cause : Nat) (hk : Kept qq mm s) : Kept qq mm (State.endSession s sid cause) := by
  unfold State.endSession
  (repeat' split) <;> simp (maxDischargeDepth := 60) [hk]

@[simp] theorem State_endSessions_kept (s : State) (cause : Nat) (hk : Kept qq mm s) : Kept qq mm (State.endSessions s cause) := by
  unfold State.endSessions
  (repeat' split) <;> simp_all (maxDischargeDepth := 60)

@[simp] theorem State_updMem_kept (s : State) (f : Memory → Memory) (hk : Kept qq mm s) : Kept qq mm (State.updMem s f) := by
  unfold State.updMem
  simp (maxDischargeDepth := 60) [hk]

@[simp] theorem State_clearIndex_kept (s : State) (hk : Kept qq mm s) : Kept qq mm (State.clearIndex s) := by
  unfold State.clearIndex
  (repeat' split) <;> simp_all (maxDischargeDepth := 60)

@[simp] theorem State_homeEvent_kept (s : State) (sp : Space) (a ctx : Nat) (hk : Kept qq mm s) : Kept qq mm (State.homeEvent s sp a ctx) := by
  unfold State.homeEvent
  simp (maxDischargeDepth := 60) [hk]

end Sys2Proof.Machine
end

