-- ==== Sys2Proof/Laws/KeptStoreRecords.lean ====
section
/-! SUPPORT. `Kept` through the operations of Machine/StoreRecords.lean. -/

namespace Sys2Proof.Machine

open Sys2Proof

variable {qq : List Instr} {mm : Marks}

@[simp] theorem State_storeRec_kept (s : State) (r : SRec) (hk : Kept qq mm s) : Kept qq mm (State.storeRec s r) := by
  unfold State.storeRec
  simp (maxDischargeDepth := 60) [hk]

@[simp] theorem State_cutPrograms_kept (s : State) (hk : Kept qq mm s) : Kept qq mm (State.cutPrograms s) := by
  unfold State.cutPrograms
  simp (maxDischargeDepth := 60) [hk]

@[simp] theorem State_eraseIntent_kept (s : State) (unit phys : Nat) (hk : Kept qq mm s) : Kept qq mm (State.eraseIntent s unit phys) := by
  unfold State.eraseIntent
  simp (maxDischargeDepth := 60) [hk]

@[simp] theorem State_eraseDone_kept (s : State) (unit phys pulses : Nat) (hk : Kept qq mm s) : Kept qq mm (State.eraseDone s unit phys pulses) := by
  unfold State.eraseDone
  simp (maxDischargeDepth := 60) [hk]

@[simp] theorem State_areaRec_kept (s : State) (r : SRec) (hk : Kept qq mm s) : Kept qq mm (State.areaRec s r) := by
  unfold State.areaRec
  simp (maxDischargeDepth := 60) [hk]

@[simp] theorem State_slotRec_kept (s : State) (slot state secver : Nat) (hk : Kept qq mm s) : Kept qq mm (State.slotRec s slot state secver) := by
  unfold State.slotRec
  simp (maxDischargeDepth := 60) [hk]

@[simp] theorem State_bankRec_kept (s : State) (bank state ver : Nat) (hk : Kept qq mm s) : Kept qq mm (State.bankRec s bank state ver) := by
  unfold State.bankRec
  simp (maxDischargeDepth := 60) [hk]

@[simp] theorem State_storeTables_kept (s : State) (hk : Kept qq mm s) : Kept qq mm (State.storeTables s) := by
  unfold State.storeTables
  simp (maxDischargeDepth := 60) [hk]

@[simp] theorem State_journalRoom_kept (s : State) (hk : Kept qq mm s) : Kept qq mm (State.journalRoom s) := by
  unfold State.journalRoom
  simp (maxDischargeDepth := 60) [hk]

@[simp] theorem State_journalRoom_seq (s : State) : s.journalRoom.upk.nextSeq = s.upk.nextSeq := by
  unfold State.journalRoom State.storeTables
  repeat' split
  all_goals rfl

@[simp] theorem State_journal_kept (s : State) (kind status loc arg : Nat) (hk : Kept qq mm s) :
    Kept qq mm (State.journal s kind status loc arg) := by
  have h := State_journalRoom_kept s hk
  unfold State.journal
  refine (kept_mk ..).2 ?_
  have h2 := keptAt_upkeep h
  rw [State_journalRoom_seq] at h2
  exact h2

end Sys2Proof.Machine
end

