-- ==== Sys2Proof/Laws/KeptDomains.lean ====
section
/-! SUPPORT. `Kept` through the operations of Machine/Domains.lean. -/

namespace Sys2Proof.Machine

open Sys2Proof

variable {qq : List Instr} {mm : Marks}

@[simp] theorem State_setDom_kept (s : State) (d : Dom) (v : DomState) (hk : Kept qq mm s) : Kept qq mm (State.setDom s d v) := by
  unfold State.setDom
  simp (maxDischargeDepth := 60) [hk]

@[simp] theorem State_holdPower_kept (s : State) (d : Dom) (ctx : Nat) (hk : Kept qq mm s) : Kept qq mm (State.holdPower s d ctx) := by
  unfold State.holdPower
  dsimp only
  (repeat' split) <;> simp (maxDischargeDepth := 60) [hk]

@[simp] theorem State_startPlls_kept (s : State) (k : Nat) (hk : Kept qq mm s) : Kept qq mm (State.startPlls s k) := by
  unfold State.startPlls
  simp (maxDischargeDepth := 60) [hk]

@[simp] theorem State_wakeDom_kept (s : State) (d : Dom) (hk : Kept qq mm s) : Kept qq mm (State.wakeDom s d) := by
  unfold State.wakeDom
  (repeat' split) <;> simp (maxDischargeDepth := 60) [hk]

@[simp] theorem State_askPower_kept (s : State) (d : Dom) (ctx : Nat) (hk : Kept qq mm s) : Kept qq mm (State.askPower s d ctx) := by
  unfold State.askPower
  simp (maxDischargeDepth := 60) [hk]

end Sys2Proof.Machine
end

