-- ==== Sys2Proof/Laws/KeptLink.lean ====
section
/-! SUPPORT. `Kept` through the operations of Machine/Link.lean. -/

namespace Sys2Proof.Machine

open Sys2Proof

variable {qq : List Instr} {mm : Marks}

@[simp] theorem State_startFrame_kept (s : State) (port : Nat) (h : PackHdr) (b : PackBody) (hk : Kept qq mm s) : Kept qq mm (State.startFrame s port h b) := by
  unfold State.startFrame
  simp (maxDischargeDepth := 60) [hk]

@[simp] theorem State_drainPort_kept (s : State) (port n : Nat) (hk : Kept qq mm s) : Kept qq mm (s.drainPort port n) := by
  induction n generalizing s with
  | zero => exact hk
  | succ n ih =>
    unfold State.drainPort
    dsimp only
    split
    · exact hk
    · split
      · exact hk
      · exact ih _ (by simp (maxDischargeDepth := 60) [hk])

@[simp] theorem State_sendFrames_kept (s : State) (port : Nat) (hs : List PackHdr) (b : PackBody) (hk : Kept qq mm s) : Kept qq mm (State.sendFrames s port hs b) := by
  unfold State.sendFrames
  simp (maxDischargeDepth := 60) [hk]

@[simp] theorem State_sendOn_kept (s : State) (port : Nat) (h : PackHdr) (b : PackBody) (hk : Kept qq mm s) : Kept qq mm (State.sendOn s port h b) := by
  unfold State.sendOn
  simp (maxDischargeDepth := 60) [hk]

@[simp] theorem State_packSend_kept (s : State) (dst ctx : Nat) (b : PackBody) (hk : Kept qq mm s) : Kept qq mm (State.packSend s dst ctx b) := by
  unfold State.packSend
  (repeat' split) <;> simp (maxDischargeDepth := 60) [hk]

@[simp] theorem State_floodFrom_kept (s : State) (except_ : Option Nat) (h : PackHdr) (b : PackBody) (hk : Kept qq mm s) : Kept qq mm (State.floodFrom s except_ h b) := by
  unfold State.floodFrom
  (repeat' split) <;> simp_all (maxDischargeDepth := 60)

@[simp] theorem State_flood_kept (s : State) (ctx : Nat) (b : PackBody) (hk : Kept qq mm s) : Kept qq mm (State.flood s ctx b) := by
  unfold State.flood
  simp (maxDischargeDepth := 60) [hk]

@[simp] theorem State_packSendP_kept (s : State) (dst ctx : Nat) (poison : Bool) (b : PackBody) (hk : Kept qq mm s) : Kept qq mm (State.packSendP s dst ctx poison b) := by
  unfold State.packSendP
  (repeat' split) <;> simp (maxDischargeDepth := 60) [hk]

@[simp] theorem State_takeAck_kept (s : State) (port ack : Nat) (hk : Kept qq mm s) : Kept qq mm (State.takeAck s port ack) := by
  unfold State.takeAck
  simp (maxDischargeDepth := 60) [hk]

/-- The state that a reception leaves is kept. -/
def RecvKept (q : List Instr) (m : Marks) : Recv → Prop
  | .drop t => Kept q m t
  | .take t => Kept q m t

@[simp] theorem recvKept_drop (t : State) : RecvKept qq mm (.drop t) ↔ Kept qq mm t := Iff.rfl

@[simp] theorem recvKept_take (t : State) : RecvKept qq mm (.take t) ↔ Kept qq mm t := Iff.rfl

@[simp] theorem recvKept_ite (c : Prop) [Decidable c] {a b : Recv} (ha : RecvKept qq mm a) (hb : RecvKept qq mm b) :
    RecvKept qq mm (if c then a else b) := by
  split <;> assumption

/-- What a received frame leaves before its type is looked at. -/
theorem State_recv_kept (s : State) (port : Nat) (h : PackHdr) (b : PackBody) (hk : Kept qq mm s) : RecvKept qq mm (s.recv port h b) := by
  unfold State.recv
  have h1 : Kept qq mm ((s.takeAck port h.ack).updPort port (fun p =>
      { p with rxSeq := (p.rxSeq + 1) % 65536, owed := Tab.upd 0 p.owed b.cls (· + frameCost h.len) })) := by
    simp (maxDischargeDepth := 60) [hk]
  revert h1
  generalize (s.takeAck port h.ack).updPort port (fun p =>
      { p with rxSeq := (p.rxSeq + 1) % 65536, owed := Tab.upd 0 p.owed b.cls (· + frameCost h.len) }) = s1
  intro h1
  dsimp only
  refine recvKept_ite _ hk (recvKept_ite _ ?_ (recvKept_ite _ ?_ (recvKept_ite _ (recvKept_ite _ h1 ?_)
    (recvKept_ite _ h1 (recvKept_ite _ ?_ ?_)))))
  · simp (maxDischargeDepth := 60) [hk]
  · simp (maxDischargeDepth := 60) [hk]
  · simp (maxDischargeDepth := 60) [h1]
  · simp (maxDischargeDepth := 60) [h1]
  · split <;> simp (maxDischargeDepth := 60) [h1]

@[simp] theorem State_gather_kept (s : State) (h : PackHdr) (b : PackBody) (hk : Kept qq mm s) : Kept qq mm (s.gather h b).1 := by
  unfold State.gather
  (repeat' split) <;> first | exact hk | (dsimp only; (repeat' split) <;> exact hk)

/-- What a received frame leaves is kept where its own effect keeps it. -/
@[simp] theorem State_onFrame_kept (s : State) (port : Nat) (h : PackHdr) (b : PackBody) (f : State → State)
    (hf : ∀ t, Kept qq mm t → Kept qq mm (f t)) (hk : Kept qq mm s) : KeptOut qq mm (s.onFrame port h b f) := by
  have hr := State_recv_kept s port h b hk
  unfold State.onFrame
  split
  · next t e => rw [e] at hr; exact keptOut_next.2 hr
  · next t e =>
    rw [e] at hr
    exact keptOut_next.2 (kept_ite _ (hf _ (State_gather_kept _ _ _ hr)) (State_gather_kept _ _ _ hr))

@[simp] theorem State_linkDown_kept (s : State) (port : Nat) (hk : Kept qq mm s) : Kept qq mm (State.linkDown s port) := by
  unfold State.linkDown
  simp (maxDischargeDepth := 60) [hk]

end Sys2Proof.Machine
end

