-- ==== Sys2Proof/Laws/KeptCounters.lean ====
section
/-! SUPPORT. `Kept` through the operations of Machine/Counters.lean. -/

namespace Sys2Proof.Machine

open Sys2Proof

variable {qq : List Instr} {mm : Marks}

@[simp] theorem State_setEntry_kept (s : State) (ctx id : Nat) (p : Option Nat) (exp : Bool) (hk : Kept qq mm s) : Kept qq mm (State.setEntry s ctx id p exp) := by
  unfold State.setEntry
  simp (maxDischargeDepth := 60) [hk]

@[simp] theorem State_misuse_kept (s : State) (p : Option Nat) (ctx : Nat) (hk : Kept qq mm s) : Kept qq mm (State.misuse s p ctx) := by
  unfold State.misuse
  (repeat' split) <;> simp (maxDischargeDepth := 60) [hk]

@[simp] theorem State_descErr3_kept (s : State) (ring tag : Nat) (p : Option Nat) (ctx : Nat) (hk : Kept qq mm s) : Kept qq mm (State.descErr3 s ring tag p ctx) := by
  unfold State.descErr3
  (repeat' split) <;> simp (maxDischargeDepth := 60) [hk]

@[simp] theorem State_takeLine_kept (s : State) (cluster p expect : Nat) (hk : Kept qq mm s) : Kept qq mm (State.takeLine s cluster p expect) := by
  unfold State.takeLine
  dsimp only
  (repeat' split) <;> simp (maxDischargeDepth := 60) [hk]

@[simp] theorem State_freeLines_kept (s : State) (p expect : Nat) (hk : Kept qq mm s) : Kept qq mm (State.freeLines s p expect) := by
  unfold State.freeLines
  simp (maxDischargeDepth := 60) [hk]

@[simp] theorem State_wakeThread_kept (s : State) (t wstat : Nat) (hk : Kept qq mm s) : Kept qq mm (State.wakeThread s t wstat) := by
  unfold State.wakeThread
  simp (maxDischargeDepth := 60) [hk]

@[simp] theorem State_fireOne_kept (s : State) (p : Nat) (w : Compare) (hk : Kept qq mm s) : Kept qq mm (State.fireOne s p w) := by
  unfold State.fireOne
  (repeat' split) <;> simp (maxDischargeDepth := 60) [hk]

@[simp] theorem State_fireAll_kept (s : State) (p : Nat) (rec_ : List Compare) (hk : Kept qq mm s) : Kept qq mm (State.fireAll s p rec_) := by
  induction rec_ generalizing s with
  | nil => simp (maxDischargeDepth := 60) [State.fireAll, hk]
  | cons y ys ih =>
    simp (maxDischargeDepth := 60) [State.fireAll, hk, ih]

@[simp] theorem State_setUsed_kept (s : State) (home n : Nat) (hk : Kept qq mm s) : Kept qq mm (State.setUsed s home n) := by
  unfold State.setUsed
  simp (maxDischargeDepth := 60) [hk]

@[simp] theorem State_thresholdNotify_kept (s : State) (p : Nat) (t : Threshold) (st : Status) (hk : Kept qq mm s) : Kept qq mm (State.thresholdNotify s p t st) := by
  unfold State.thresholdNotify
  simp (maxDischargeDepth := 60) [hk]

@[simp] theorem State_thresholdsNotify_kept (s : State) (p : Nat) (st : Status) (rec_ : List Threshold) (hk : Kept qq mm s) : Kept qq mm (State.thresholdsNotify s p st rec_) := by
  induction rec_ generalizing s with
  | nil => simp (maxDischargeDepth := 60) [State.thresholdsNotify, hk]
  | cons y ys ih =>
    simp (maxDischargeDepth := 60) [State.thresholdsNotify, hk, ih]

@[simp] theorem State_enterCompare_kept (s : State) (p : Nat) (w : Compare) (hk : Kept qq mm s) : Kept qq mm (State.enterCompare s p w) := by
  unfold State.enterCompare
  (repeat' split) <;> simp (maxDischargeDepth := 60) [hk]

@[simp] theorem State_register_kept (s : State) (ctx p : Nat) (w : Compare) (hk : Kept qq mm s) : Kept qq mm (State.register s ctx p w) := by
  unfold State.register
  simp (maxDischargeDepth := 60) [hk]

@[simp] theorem State_withdraw_kept (s : State) (t : Nat) (hk : Kept qq mm s) : Kept qq mm (State.withdraw s t) := by
  unfold State.withdraw
  (repeat' split) <;> simp_all (maxDischargeDepth := 60)

@[simp] theorem State_raiseMirror_kept (s : State) (ctx id v : Nat) (hk : Kept qq mm s) : Kept qq mm (State.raiseMirror s ctx id v) := by
  unfold State.raiseMirror
  (repeat' split) <;> simp_all (maxDischargeDepth := 60)

@[simp] theorem State_releaseBarrier_kept (s : State) (ctx id before now : Nat) (hk : Kept qq mm s) : Kept qq mm (State.releaseBarrier s ctx id before now) := by
  unfold State.releaseBarrier
  (repeat' split) <;> simp (maxDischargeDepth := 60) [hk]

@[simp] theorem State_signalAt_kept (s : State) (p who delta : Nat) (hk : Kept qq mm s) : Kept qq mm (State.signalAt s p who delta) := by
  unfold State.signalAt
  simp (maxDischargeDepth := 60) [hk]

@[simp] theorem State_applySignal_kept (s : State) (g : Signal) (hk : Kept qq mm s) : Kept qq mm (State.applySignal s g) := by
  unfold State.applySignal
  (repeat' split) <;> simp (maxDischargeDepth := 60) [hk]

@[simp] theorem State_sendSignal_kept (s : State) (g : Signal) (hk : Kept qq mm s) : Kept qq mm (State.sendSignal s g) := by
  unfold State.sendSignal
  simp (maxDischargeDepth := 60) [hk]

@[simp] theorem State_orphanWake_kept (s : State) (p : Nat) (rec_ : List Compare) (hk : Kept qq mm s) : Kept qq mm (State.orphanWake s p rec_) := by
  induction rec_ generalizing s with
  | nil => simp (maxDischargeDepth := 60) [State.orphanWake, hk]
  | cons y ys ih =>
    unfold State.orphanWake
    (repeat' split) <;> simp (maxDischargeDepth := 60) [hk, ih]

@[simp] theorem State_orphan_kept (s : State) (p : Nat) (hk : Kept qq mm s) : Kept qq mm (State.orphan s p) := by
  unfold State.orphan
  simp (maxDischargeDepth := 60) [hk]

@[simp] theorem State_freeCounter_kept (s : State) (p : Nat) (hk : Kept qq mm s) : Kept qq mm (State.freeCounter s p) := by
  unfold State.freeCounter
  simp (maxDischargeDepth := 60) [hk]

@[simp] theorem State_orphanAll_kept (s : State) (ctx : Nat) (hk : Kept qq mm s) : Kept qq mm (State.orphanAll s ctx) := by
  unfold State.orphanAll
  (repeat' split) <;> simp_all (maxDischargeDepth := 60)

@[simp] theorem State_endCounter_kept (s : State) (ctx p : Nat) (hk : Kept qq mm s) : Kept qq mm (State.endCounter s ctx p) := by
  unfold State.endCounter
  simp (maxDischargeDepth := 60) [hk]

@[simp] theorem State_pairsEnd_kept (s : State) (ctx : Nat) (hk : Kept qq mm s) : Kept qq mm (State.pairsEnd s ctx) := by
  unfold State.pairsEnd
  (repeat' split) <;> simp_all (maxDischargeDepth := 60)

@[simp] theorem State_endCounters_kept (s : State) (ctx : Nat) (hk : Kept qq mm s) : Kept qq mm (State.endCounters s ctx) := by
  unfold State.endCounters
  (repeat' split) <;> simp_all (maxDischargeDepth := 60)

@[simp] theorem execCounterSignalApply_kept (k : Nat) (s : State) (hk : Kept qq mm s) : KeptOut qq mm (execCounterSignalApply k s) := by
  unfold execCounterSignalApply
  (repeat' split) <;> simp (maxDischargeDepth := 60) [hk]

@[simp] theorem execBarrierReleaseReceipt_kept (k : Nat) (s : State) (hk : Kept qq mm s) : KeptOut qq mm (execBarrierReleaseReceipt k s) := by
  unfold execBarrierReleaseReceipt
  (repeat' split) <;> simp_all (maxDischargeDepth := 60)

@[simp] theorem execCompareRegistrationRetry_kept (k : Nat) (s : State) (hk : Kept qq mm s) : KeptOut qq mm (execCompareRegistrationRetry k s) := by
  unfold execCompareRegistrationRetry
  (repeat' split) <;> simp (maxDischargeDepth := 60) [hk]

end Sys2Proof.Machine
end

