-- ==== Sys2Proof/Laws/KeptContexts.lean ====
section
/-! SUPPORT. `Kept` through the operations of Machine/Contexts.lean. -/

namespace Sys2Proof.Machine

open Sys2Proof

variable {qq : List Instr} {mm : Marks}

@[simp] theorem State_refreshCtx_kept (s : State) (c : Nat) (hk : Kept qq mm s) : Kept qq mm (State.refreshCtx s c) := by
  unfold State.refreshCtx
  simp (maxDischargeDepth := 60) [hk]

@[simp] theorem State_syncIngest_kept (s : State) (hk : Kept qq mm s) : Kept qq mm (State.syncIngest s) := by
  unfold State.syncIngest
  simp (maxDischargeDepth := 60) [hk]

@[simp] theorem State_freeThreads_kept (s : State) (c : Nat) (hk : Kept qq mm s) : Kept qq mm (State.freeThreads s c) := by
  unfold State.freeThreads
  (repeat' split) <;> simp_all (maxDischargeDepth := 60)

@[simp] theorem State_unbindRings_kept (s : State) (c : Nat) (hk : Kept qq mm s) : Kept qq mm (State.unbindRings s c) := by
  unfold State.unbindRings
  (repeat' split) <;> simp_all (maxDischargeDepth := 60)

theorem State_bindCounter_kept (s t : State) (c : Nat) (d : CtrDecl) (hk : Kept qq mm s) (h : s.bindCounter c d = some t) :
    Kept qq mm t := by
  unfold State.bindCounter at h
  rw [Option.map_eq_some_iff] at h
  obtain ⟨p, -, rfl⟩ := h
  simp (maxDischargeDepth := 60) [hk]

theorem State_bindCounters_kept (s t : State) (c : Nat) (ds : List CtrDecl) (hk : Kept qq mm s) (h : s.bindCounters c ds = some t) :
    Kept qq mm t := by
  induction ds generalizing s with
  | nil => cases h; exact hk
  | cons d ds ih =>
    unfold State.bindCounters at h
    rw [Option.bind_eq_some_iff] at h
    obtain ⟨s1, h1, h2⟩ := h
    exact ih s1 (State_bindCounter_kept s s1 c d hk h1) h2

@[simp] theorem State_bindThread_kept (s : State) (c t : Nat) (hk : Kept qq mm s) : Kept qq mm (State.bindThread s c t) := by
  unfold State.bindThread
  simp (maxDischargeDepth := 60) [hk]

@[simp] theorem State_bindRing_kept (s : State) (c : Nat) (r : RingList) (hk : Kept qq mm s) : Kept qq mm (State.bindRing s c r) := by
  unfold State.bindRing
  simp (maxDischargeDepth := 60) [hk]

theorem State_bindCtx_kept (s t : State) (c : Nat) (i : Image) (m : Member) (hk : Kept qq mm s) (h : s.bindCtx c i m = some t) :
    Kept qq mm t := by
  have h0 : Kept qq mm ((s.freeThreads c).unbindRings c) := by simp (maxDischargeDepth := 60) [hk]
  unfold State.bindCtx at h
  dsimp only at h
  split at h
  · cases h
  · split at h
    · cases h
    · split at h
      · cases h
      · rw [Option.map_eq_some_iff] at h
        obtain ⟨s2, h2, rfl⟩ := h
        have h3 : Kept qq mm s2 := by
          refine State_bindCounters_kept _ _ _ _ ?_ h2
          exact h0
        refine State_updCtx_kept _ _ _ (kept_each _ (fun s k hs => ?_) _ (kept_each _ (fun s t hs => ?_) _ h3))
        · split
          · simp (maxDischargeDepth := 60) [hs]
          · exact hs
        · simp (maxDischargeDepth := 60) [hs]

@[simp] theorem State_zeroState_kept (s : State) (m : Member) (hk : Kept qq mm s) : Kept qq mm (State.zeroState s m) := by
  unfold State.zeroState
  simp (maxDischargeDepth := 60) [hk]

@[simp] theorem State_shedCtx_kept (s : State) (c : Nat) (hk : Kept qq mm s) : Kept qq mm (State.shedCtx s c) := by
  unfold State.shedCtx
  simp (maxDischargeDepth := 60) [hk]

@[simp] theorem State_startCtx_kept (s : State) (c : Nat) (hk : Kept qq mm s) : Kept qq mm (s.startCtx c).2 := by
  unfold State.startCtx
  split
  · exact hk
  · split
    · exact hk
    · split
      · exact hk
      · split
        · exact hk
        · split
          · exact hk
          · dsimp only
            split
            · simp (maxDischargeDepth := 60) [hk]
            · split
              · simp (maxDischargeDepth := 60) [hk]
              · next i _ m _ _ _ _ _ s2 h2 =>
                have h3 : Kept qq mm s2 := State_bindCtx_kept _ _ _ _ _ (by simp (maxDischargeDepth := 60) [hk]) h2
                split
                · split <;> simp (maxDischargeDepth := 60) [h3]
                · split <;> simp (maxDischargeDepth := 60) [h3]

@[simp] theorem State_leavePass_kept (s : State) (c : Nat) (hk : Kept qq mm s) : Kept qq mm (State.leavePass s c) := by
  unfold State.leavePass
  simp (maxDischargeDepth := 60) [hk]

@[simp] theorem State_endCtx_kept (s : State) (c : Nat) (hk : Kept qq mm s) : Kept qq mm (State.endCtx s c) := by
  unfold State.endCtx
  simp (maxDischargeDepth := 60) [hk]

@[simp] theorem State_stopDone_kept (s : State) (c : Nat) (who : List (Nat × Nat)) (hk : Kept qq mm s) : Kept qq mm (State.stopDone s c who) := by
  unfold State.stopDone
  (repeat' split) <;> simp_all (maxDischargeDepth := 60)

@[simp] theorem State_stopNow_kept (s : State) (c : Nat) (hk : Kept qq mm s) : Kept qq mm (State.stopNow s c) := by
  unfold State.stopNow
  simp (maxDischargeDepth := 60) [hk]

@[simp] theorem State_runFailed_kept (s : State) (c : Nat) (who : Option (Nat × Nat)) (no cause : Nat) (hk : Kept qq mm s) : Kept qq mm (State.runFailed s c who no cause) := by
  unfold State.runFailed
  simp (maxDischargeDepth := 60) [hk]

@[simp] theorem State_runsFailed_kept (s : State) (c cause : Nat) (hk : Kept qq mm s) : Kept qq mm (State.runsFailed s c cause) := by
  unfold State.runsFailed
  dsimp only
  (repeat' split) <;> simp (maxDischargeDepth := 60) [hk]

@[simp] theorem State_faultThreads_kept (s : State) (c : Nat) (hk : Kept qq mm s) : Kept qq mm (State.faultThreads s c) := by
  unfold State.faultThreads
  (repeat' split) <;> simp_all (maxDischargeDepth := 60)

@[simp] theorem State_dropCtx_kept (s : State) (c cause : Nat) (hk : Kept qq mm s) : Kept qq mm (State.dropCtx s c cause) := by
  unfold State.dropCtx
  simp (maxDischargeDepth := 60) [hk]

@[simp] theorem State_faultCtx_kept (s : State) (c b code loc : Nat) (detail : List Nat) (hk : Kept qq mm s) : Kept qq mm (State.faultCtx s c b code loc detail) := by
  unfold State.faultCtx
  dsimp only
  (repeat' split) <;> simp (maxDischargeDepth := 60) [hk]

@[simp] theorem execWatchdogExpire_kept (ctx : Nat) (s : State) (hk : Kept qq mm s) : KeptOut qq mm (execWatchdogExpire ctx s) := by
  unfold execWatchdogExpire
  simp (maxDischargeDepth := 60) [hk]

end Sys2Proof.Machine
end

