-- ==== Sys2Proof/Laws/KeptSkips.lean ====
section
/-! SUPPORT. `Kept` through the operations of Machine/Skips.lean. -/

namespace Sys2Proof.Machine

open Sys2Proof

variable {qq : List Instr} {mm : Marks}

@[simp] theorem State_remoteSignal_kept (s : State) (t ctx id delta dst : Nat) (fenced : Bool) (hk : Kept qq mm s) : Kept qq mm (State.remoteSignal s t ctx id delta dst fenced) := by
  unfold State.remoteSignal
  simp (maxDischargeDepth := 60) [hk]

@[simp] theorem State_signalRecord_kept (s : State) (t : Nat) (r : BitVec 256) (hk : Kept qq mm s) : Kept qq mm (State.signalRecord s t r) := by
  unfold State.signalRecord
  simp (maxDischargeDepth := 60) [hk]

@[simp] theorem State_arriveRecord_kept (s : State) (t : Nat) (r : BitVec 256) (fenced : Bool) (hk : Kept qq mm s) : Kept qq mm (State.arriveRecord s t r fenced) := by
  unfold State.arriveRecord
  simp (maxDischargeDepth := 60) [hk]

@[simp] theorem State_passEnd_kept (s : State) (t : Nat) (hk : Kept qq mm s) : Kept qq mm (State.passEnd s t) := by
  unfold State.passEnd
  simp (maxDischargeDepth := 60) [hk]

theorem State_skipRecord_kept (s u : State) (t : Nat) (r : BitVec 256) (hk : Kept qq mm s) (h : s.skipRecord t r = some u) :
    Kept qq mm u := by
  unfold State.skipRecord at h
  split at h
  · rw [Option.map_eq_some_iff] at h
    obtain ⟨x, -, rfl⟩ := h
    simp (maxDischargeDepth := 60) [hk]
  · cases h
    simp (maxDischargeDepth := 60) [hk]
  · cases h
    simp (maxDischargeDepth := 60) [hk]
  · cases h
    exact hk

@[simp] theorem State_skipFrom_kept (s : State) (t n : Nat) (hk : Kept qq mm s) : Kept qq mm (s.skipFrom t n) := by
  induction n generalizing s with
  | zero => exact hk
  | succ n ih =>
    unfold State.skipFrom
    dsimp only
    split
    · split
      · simp (maxDischargeDepth := 60) [hk]
      · next u h =>
        have hu := State_skipRecord_kept _ _ _ _ hk h
        split
        · simp (maxDischargeDepth := 60) [hu]
        · exact ih _ (by simp (maxDischargeDepth := 60) [hu])
    · exact hk

@[simp] theorem State_readyAt_kept (s : State) (t : Nat) (hk : Kept qq mm s) : Kept qq mm (State.readyAt s t) := by
  unfold State.readyAt
  simp (maxDischargeDepth := 60) [hk]

@[simp] theorem State_proceed_kept (s0 : State) (t : Nat) (hk : Kept qq mm s0) : Kept qq mm (State.proceed s0 t) := by
  unfold State.proceed
  simp (maxDischargeDepth := 60) [hk]

end Sys2Proof.Machine
end

