-- ==== Sys2Proof/Laws/KeptScales.lean ====
section
/-! SUPPORT. `Kept` through the operations of Machine/Scales.lean. -/

namespace Sys2Proof.Machine

open Sys2Proof

variable {qq : List Instr} {mm : Marks}

@[simp] theorem State_updClip_kept (s : State) (ctx core point channel : Nat) (f : ClipRec → ClipRec) (hk : Kept qq mm s) : Kept qq mm (State.updClip s ctx core point channel f) := by
  unfold State.updClip
  simp (maxDischargeDepth := 60) [hk]

@[simp] theorem State_setScale_kept (s : State) (ctx : Nat) (p : ReqPoint) (k : Nat) (u : UnitScale) (hk : Kept qq mm s) : Kept qq mm (State.setScale s ctx p k u) := by
  unfold State.setScale
  (repeat' split) <;> simp_all (maxDischargeDepth := 60)

@[simp] theorem State_scaleEvents_kept (s : State) (p : ReqPoint) (ctx : Nat) (x y : UnitScale) (hk : Kept qq mm s) : Kept qq mm (State.scaleEvents s p ctx x y) := by
  unfold State.scaleEvents
  simp (maxDischargeDepth := 60) [hk]

@[simp] theorem State_zeroScales_kept (s : State) (c : Nat) (m : Member) (hk : Kept qq mm s) : Kept qq mm (State.zeroScales s c m) := by
  unfold State.zeroScales
  (repeat' split) <;> simp_all (maxDischargeDepth := 60)

@[simp] theorem State_adaptAll_kept (s : State) (c : Nat) (m : Member) (large events : Bool) (stat : State → ReqPoint → Nat → Nat → UnitStat) (hk : Kept qq mm s) : Kept qq mm (State.adaptAll s c m large events stat) := by
  unfold State.adaptAll
  try dsimp only
  repeat' (first | assumption | (simp (maxDischargeDepth := 60) [*]; done) | refine kept_foldl _ (fun s x hs => ?_) _ ?_ | refine kept_each _ (fun s x hs => ?_) _ ?_ | split | dsimp only)

@[simp] theorem State_updSnap_kept (s : State) (ctx core point channel : Nat) (f : ClipRec → ClipRec) (hk : Kept qq mm s) : Kept qq mm (State.updSnap s ctx core point channel f) := by
  unfold State.updSnap
  simp (maxDischargeDepth := 60) [hk]

@[simp] theorem State_snapCounts_kept (s : State) (c : Nat) (m : Member) (hk : Kept qq mm s) : Kept qq mm (State.snapCounts s c m) := by
  unfold State.snapCounts
  (repeat' split) <;> simp_all (maxDischargeDepth := 60)

@[simp] theorem State_zeroCounts_kept (s : State) (c : Nat) (m : Member) (hk : Kept qq mm s) : Kept qq mm (State.zeroCounts s c m) := by
  unfold State.zeroCounts
  (repeat' split) <;> simp_all (maxDischargeDepth := 60)

@[simp] theorem State_snapScales_kept (s : State) (c : Nat) (m : Member) (hk : Kept qq mm s) : Kept qq mm (State.snapScales s c m) := by
  unfold State.snapScales
  (repeat' split) <;> simp_all (maxDischargeDepth := 60)

@[simp] theorem State_setUnits_kept (s : State) (c : Nat) (m : Member) (l : List UnitScale) (hk : Kept qq mm s) : Kept qq mm (State.setUnits s c m l) := by
  unfold State.setUnits
  try dsimp only
  repeat' (first | assumption | (simp (maxDischargeDepth := 60) [*]; done) | refine kept_foldl _ (fun s x hs => ?_) _ ?_ | refine kept_each _ (fun s x hs => ?_) _ ?_ | split | dsimp only)

@[simp] theorem State_snapUnits_kept (s : State) (c : Nat) (m : Member) (l : List UnitScale) (hk : Kept qq mm s) : Kept qq mm (State.snapUnits s c m l) := by
  unfold State.snapUnits
  try dsimp only
  repeat' (first | assumption | (simp (maxDischargeDepth := 60) [*]; done) | refine kept_foldl _ (fun s x hs => ?_) _ ?_ | refine kept_each _ (fun s x hs => ?_) _ ?_ | split | dsimp only)

@[simp] theorem State_closeColumns_kept (s : State) (c : Nat) (hk : Kept qq mm s) : Kept qq mm (State.closeColumns s c) := by
  unfold State.closeColumns
  (repeat' split) <;> simp_all (maxDischargeDepth := 60)

@[simp] theorem State_applySnaps_kept (s : State) (c : Nat) (hk : Kept qq mm s) : Kept qq mm (State.applySnaps s c) := by
  unfold State.applySnaps
  (repeat' split) <;> simp (maxDischargeDepth := 60) [hk]

@[simp] theorem State_noteSnap_kept (s : State) (c pos : Nat) (u : List UnitStat) (hk : Kept qq mm s) : Kept qq mm (State.noteSnap s c pos u) := by
  unfold State.noteSnap
  (repeat' split) <;> simp (maxDischargeDepth := 60) [hk]

@[simp] theorem State_giveSnap_kept (s : State) (c : Nat) (u : List UnitStat) (hk : Kept qq mm s) : Kept qq mm (State.giveSnap s c u) := by
  unfold State.giveSnap
  simp (maxDischargeDepth := 60) [hk]

@[simp] theorem State_closeLocal_kept (s : State) (c : Nat) (m : Member) (hk : Kept qq mm s) : Kept qq mm (State.closeLocal s c m) := by
  unfold State.closeLocal
  simp (maxDischargeDepth := 60) [hk]

@[simp] theorem State_closeInterval_kept (s : State) (c : Nat) (hk : Kept qq mm s) : Kept qq mm (State.closeInterval s c) := by
  unfold State.closeInterval
  (repeat' split) <;> simp (maxDischargeDepth := 60) [hk]

end Sys2Proof.Machine
end

