-- ==== Sys2Proof/Laws/KeptResults.lean ====
section
/-! SUPPORT. `Kept` through the operations of Machine/Results.lean. -/

namespace Sys2Proof.Machine

open Sys2Proof

variable {qq : List Instr} {mm : Marks}

@[simp] theorem State_resultNotify_kept (s : State) (sid : Nat) (r : ResultRec) (hk : Kept qq mm s) : Kept qq mm (State.resultNotify s sid r) := by
  unfold State.resultNotify
  simp (maxDischargeDepth := 60) [hk]

@[simp] theorem State_issueOne_kept (s : State) (r : ResultRec) (hk : Kept qq mm s) : Kept qq mm (State.issueOne s r) := by
  unfold State.issueOne
  try dsimp only
  repeat' (first | assumption | (simp (maxDischargeDepth := 60) [*]; done) | refine kept_foldl _ (fun s x hs => ?_) _ ?_ | refine kept_each _ (fun s x hs => ?_) _ ?_ | split | dsimp only)

@[simp] theorem State_issueTroubles_kept (s : State) (rs : List ResultRec) (hk : Kept qq mm s) : Kept qq mm (s.issueTroubles rs) := by
  unfold State.issueTroubles
  generalize trimPool s.results.length s.results = kept
  have h1 : Kept qq mm (if kept.length < s.results.length then ({ s with results := kept }).raise 2 16 1 else s) := by
    simp (maxDischargeDepth := 60) [hk]
  refine kept_foldl _ (fun s x hs => ?_) _ h1
  split
  · exact State_trouble_kept _ _ _ _ _ _ _ hs
  · exact hs

@[simp] theorem State_sendRecord_kept (s : State) (r : ResultRec) (hk : Kept qq mm s) : Kept qq mm (State.sendRecord s r) := by
  unfold State.sendRecord
  simp (maxDischargeDepth := 60) [hk]

@[simp] theorem State_issue_kept (s : State) (rs : List ResultRec) (hk : Kept qq mm s) : Kept qq mm (State.issue s rs) := by
  unfold State.issue
  (repeat' split) <;> simp_all (maxDischargeDepth := 60)

end Sys2Proof.Machine
end

