-- ==== Sys2Proof/Laws/KeptAdvisory.lean ====
section
/-! SUPPORT. `Kept` through the operations of Machine/Advisory.lean. -/

namespace Sys2Proof.Machine

open Sys2Proof

variable {qq : List Instr} {mm : Marks}

@[simp] theorem State_advisoryNotify_kept (s : State) (n : Nat) (on : Bool) (k : TokInfo) (hk : Kept qq mm s) : Kept qq mm (State.advisoryNotify s n on k) := by
  unfold State.advisoryNotify
  try dsimp only
  repeat' (first | assumption | (simp (maxDischargeDepth := 60) [*]; done) | refine kept_foldl _ (fun s x hs => ?_) _ ?_ | refine kept_each _ (fun s x hs => ?_) _ ?_ | split | dsimp only)

@[simp] theorem State_advisoryFlood_kept (s : State) (sidx : Nat) (hk : Kept qq mm s) : Kept qq mm (State.advisoryFlood s sidx) := by
  unfold State.advisoryFlood
  simp (maxDischargeDepth := 60) [hk]

@[simp] theorem State_evalRule_kept (s : State) (n : Nat) (r : Rule) (k : TokInfo) (tok : TokenOut) (hk : Kept qq mm s) : Kept qq mm (State.evalRule s n r k tok) := by
  unfold State.evalRule
  simp (maxDischargeDepth := 60) [hk]

@[simp] theorem State_evalRules_kept (s : State) (k : TokInfo) (tok : TokenOut) (hk : Kept qq mm s) : Kept qq mm (State.evalRules s k tok) := by
  unfold State.evalRules
  try dsimp only
  repeat' (first | assumption | (simp (maxDischargeDepth := 60) [*]; done) | refine kept_foldl _ (fun s x hs => ?_) _ ?_ | refine kept_each _ (fun s x hs => ?_) _ ?_ | split | dsimp only)

@[simp] theorem State_pendRange_kept (s : State) (c first last sfirst slast : Nat) (hk : Kept qq mm s) : Kept qq mm (State.pendRange s c first last sfirst slast) := by
  unfold State.pendRange
  simp (maxDischargeDepth := 60) [hk]

@[simp] theorem State_trigger_kept (s : State) (c n sidx : Nat) (schedule : Bool) (hk : Kept qq mm s) : Kept qq mm (State.trigger s c n sidx schedule) := by
  unfold State.trigger
  (repeat' split) <;> simp (maxDischargeDepth := 60) [hk]

@[simp] theorem State_gapRules_kept (s : State) (member : Nat) (hk : Kept qq mm s) : Kept qq mm (State.gapRules s member) := by
  unfold State.gapRules
  try dsimp only
  repeat' (first | assumption | (simp (maxDischargeDepth := 60) [*]; done) | refine kept_foldl _ (fun s x hs => ?_) _ ?_ | refine kept_each _ (fun s x hs => ?_) _ ?_ | split | dsimp only)

@[simp] theorem State_evalTriggers_kept (s : State) (k : TokInfo) (tok : TokenOut) (n : Nat) (hk : Kept qq mm s) : Kept qq mm (State.evalTriggers s k tok n) := by
  unfold State.evalTriggers
  try dsimp only
  repeat' (first | assumption | (simp (maxDischargeDepth := 60) [*]; done) | refine kept_foldl _ (fun s x hs => ?_) _ ?_ | refine kept_each _ (fun s x hs => ?_) _ ?_ | split | dsimp only)

@[simp] theorem State_countSchedules_kept (s : State) (n sidx : Nat) (hk : Kept qq mm s) : Kept qq mm (State.countSchedules s n sidx) := by
  unfold State.countSchedules
  (repeat' split) <;> simp_all (maxDischargeDepth := 60)

end Sys2Proof.Machine
end

