-- ==== Sys2Proof/Laws/KeptBudget.lean ====
section
/-! SUPPORT. `Kept` through the operations of Machine/Budget.lean. -/

namespace Sys2Proof.Machine

open Sys2Proof

variable {qq : List Instr} {mm : Marks}

@[simp] theorem State_shedMarked_kept (s : State) (hk : Kept qq mm s) : Kept qq mm (State.shedMarked s) := by
  unfold State.shedMarked
  (repeat' split) <;> simp_all (maxDischargeDepth := 60)

@[simp] theorem State_shedInspects_kept (s : State) (rec_ : Nat) (hk : Kept qq mm s) : Kept qq mm (State.shedInspects s rec_) := by
  induction rec_ generalizing s with
  | zero => simp (maxDischargeDepth := 60) [State.shedInspects, hk]
  | succ n ih =>
    unfold State.shedInspects
    (repeat' split) <;> simp (maxDischargeDepth := 60) [hk, ih]

@[simp] theorem State_shedWatch_kept (s : State) (hk : Kept qq mm s) : Kept qq mm (State.shedWatch s) := by
  unfold State.shedWatch
  simp (maxDischargeDepth := 60) [hk]

@[simp] theorem State_fitClock_kept (s : State) (hk : Kept qq mm s) : Kept qq mm (State.fitClock s) := by
  unfold State.fitClock
  (repeat' split) <;> simp_all (maxDischargeDepth := 60)

@[simp] theorem State_restoreCtx_kept (s : State) (c : Nat) (hk : Kept qq mm s) : Kept qq mm (State.restoreCtx s c) := by
  unfold State.restoreCtx
  (repeat' split) <;> simp_all (maxDischargeDepth := 60)

@[simp] theorem State_restoreAll_kept (s : State) (rec_ : List Nat) (hk : Kept qq mm s) : Kept qq mm (State.restoreAll s rec_) := by
  induction rec_ generalizing s with
  | nil => simp (maxDischargeDepth := 60) [State.restoreAll, hk]
  | cons y ys ih =>
    simp (maxDischargeDepth := 60) [State.restoreAll, hk, ih]

@[simp] theorem State_retryHeld_kept (s : State) (hk : Kept qq mm s) : Kept qq mm (State.retryHeld s) := by
  unfold State.retryHeld
  (repeat' split) <;> simp_all (maxDischargeDepth := 60)

@[simp] theorem State_scheduleBoundary_kept (s : State) (hk : Kept qq mm s) : Kept qq mm (State.scheduleBoundary s) := by
  unfold State.scheduleBoundary
  simp (maxDischargeDepth := 60) [hk]

end Sys2Proof.Machine
end

