-- ==== Sys2Proof/Laws/KeptPasses.lean ====
section
/-! SUPPORT. `Kept` through the operations of Machine/Passes.lean. -/

namespace Sys2Proof.Machine

open Sys2Proof

variable {qq : List Instr} {mm : Marks}

@[simp] theorem State_setPass_kept (s : State) (c : Nat) (p : Option Pass) (hk : Kept qq mm s) : Kept qq mm (State.setPass s c p) := by
  unfold State.setPass
  simp (maxDischargeDepth := 60) [hk]

@[simp] theorem State_updPass_kept (s : State) (c : Nat) (f : PackPass → PackPass) (hk : Kept qq mm s) : Kept qq mm (State.updPass s c f) := by
  unfold State.updPass
  simp (maxDischargeDepth := 60) [hk]

@[simp] theorem State_leadTake_kept (s : State) (pos rseq : Nat) (r : ResultRec) (hk : Kept qq mm s) : Kept qq mm (State.leadTake s pos rseq r) := by
  unfold State.leadTake
  (repeat' split) <;> simp (maxDischargeDepth := 60) [hk]

@[simp] theorem State_finishBack_kept (s : State) (c : Nat) (hk : Kept qq mm s) : Kept qq mm (State.finishBack s c) := by
  unfold State.finishBack
  (repeat' split) <;> simp (maxDischargeDepth := 60) [hk]

@[simp] theorem State_sendShare_kept (s : State) (r : ResultRec) (hk : Kept qq mm s) : Kept qq mm (State.sendShare s r) := by
  unfold State.sendShare
  simp (maxDischargeDepth := 60) [hk]

@[simp] theorem State_issueSeg_kept (s : State) (c : Nat) (r : ResultRec) (hk : Kept qq mm s) : Kept qq mm (State.issueSeg s c r) := by
  unfold State.issueSeg
  (repeat' split) <;> simp (maxDischargeDepth := 60) [hk]

@[simp] theorem State_endPass_kept (s : State) (c : Nat) (hk : Kept qq mm s) : Kept qq mm (State.endPass s c) := by
  unfold State.endPass
  (repeat' split) <;> simp (maxDischargeDepth := 60) [hk]

@[simp] theorem State_afterToken_kept (s : State) (c : Nat) (hk : Kept qq mm s) : Kept qq mm (State.afterToken s c) := by
  unfold State.afterToken
  (repeat' split) <;> simp (maxDischargeDepth := 60) [hk]

@[simp] theorem State_loseToken_kept (s : State) (c : Nat) (p : Pass) (hk : Kept qq mm s) : Kept qq mm (State.loseToken s c p) := by
  unfold State.loseToken
  simp (maxDischargeDepth := 60) [hk]

@[simp] theorem State_skipLost_kept (s : State) (c : Nat) (rec_ : Nat) (hk : Kept qq mm s) : Kept qq mm (State.skipLost s c rec_) := by
  induction rec_ generalizing s with
  | zero => simp (maxDischargeDepth := 60) [State.skipLost, hk]
  | succ n ih =>
    unfold State.skipLost
    (repeat' split) <;> simp (maxDischargeDepth := 60) [hk, ih]

@[simp] theorem State_inspectToken_kept (s : State) (c : Nat) (tok : TokenOut) (hk : Kept qq mm s) : Kept qq mm (State.inspectToken s c tok) := by
  unfold State.inspectToken
  dsimp only
  (repeat' split) <;> simp (maxDischargeDepth := 60) [hk]

@[simp] theorem State_startPass_kept (s : State) (c : Nat) (p : PendPass) (hk : Kept qq mm s) : Kept qq mm (State.startPass s c p) := by
  unfold State.startPass
  try dsimp only
  repeat' (first | with_reducible assumption | with_reducible refine cmdKept_ite _ ?_ ?_ | with_reducible refine keptOut_ite _ ?_ ?_ | with_reducible refine kept_ite _ ?_ ?_ | with_reducible refine kept_foldl _ (fun s x hs => ?_) _ ?_ | with_reducible refine kept_each _ (fun s x hs => ?_) _ ?_ | with_reducible apply State_updCtx_kept | with_reducible apply State_zeroState_kept | with_reducible apply State_askPower_kept | with_reducible apply State_endPass_kept | with_reducible apply State_closeInterval_kept | split | (with_reducible refine (kept_mk ..).2 (keptAt_of ?_)) | with_reducible refine keptOut_next.2 ?_ | with_reducible refine State_runCmd_kept _ _ _ _ _ (fun t p ht => ?_) ?_ | with_reducible refine State_onFrame_kept _ _ _ _ _ (fun t ht => ?_) ?_ | with_reducible refine State_sendOnce_kept _ _ _ _ _ _ (fun t ht => ?_) ?_ | with_reducible refine State_kennelCmd_kept _ _ _ _ _ (fun t ht => ?_) ?_ | with_reducible refine State_kennelBoth_kept _ _ _ _ (fun t ht => ?_) ?_ | with_reducible refine State_kennelRead_kept _ _ (fun t ht => ?_) ?_ | with_reducible refine State_kennelSet_kept _ _ _ (fun t ht => ?_) ?_ | with_reducible refine State_kennelBootCmd_kept _ _ _ (fun t ht => ?_) ?_ | with_reducible refine koutKept_ite _ ?_ ?_ | with_reducible apply koutKept_some | with_reducible apply koutKept_none | with_reducible exact koutKept_bad | with_reducible apply koutKept_of | with_reducible apply cmdKept_done | with_reducible apply cmdKept_accepted | with_reducible exact cmdKept_no _ | with_reducible exact cmdKept_bad _ _ | with_reducible exact cmdKept_read _ |  (simp (maxDischargeDepth := 60) [*]; done) | dsimp only)

@[simp] theorem State_unpoison_kept (s : State) (c : Nat) (hk : Kept qq mm s) : Kept qq mm (State.unpoison s c) := by
  unfold State.unpoison
  (repeat' split) <;> simp (maxDischargeDepth := 60) [hk]

@[simp] theorem State_cutPass_kept (s : State) (c : Nat) (hk : Kept qq mm s) : Kept qq mm (State.cutPass s c) := by
  unfold State.cutPass
  simp (maxDischargeDepth := 60) [hk]

@[simp] theorem State_releaseThreads_kept (s : State) (c : Nat) (catchUp : Bool) (hk : Kept qq mm s) : Kept qq mm (State.releaseThreads s c catchUp) := by
  unfold State.releaseThreads
  (repeat' split) <;> simp_all (maxDischargeDepth := 60)

@[simp] theorem State_stopBoundary_kept (s : State) (c : Nat) (hk : Kept qq mm s) : Kept qq mm (State.stopBoundary s c) := by
  unfold State.stopBoundary
  simp (maxDischargeDepth := 60) [hk]

@[simp] theorem State_iterEnd_kept (s : State) (c : Nat) (hk : Kept qq mm s) : Kept qq mm (State.iterEnd s c) := by
  unfold State.iterEnd
  simp (maxDischargeDepth := 60) [hk]

@[simp] theorem execIterationRelease_kept (ctx : Nat) (s : State) (hk : Kept qq mm s) : KeptOut qq mm (execIterationRelease ctx s) := by
  unfold execIterationRelease
  simp (maxDischargeDepth := 60) [hk]

end Sys2Proof.Machine
end

