-- ==== Sys2Proof/Laws/KeptCheckpoint.lean ====
section
/-! SUPPORT. `Kept` through the operations of Machine/Checkpoint.lean. -/

namespace Sys2Proof.Machine

open Sys2Proof

variable {qq : List Instr} {mm : Marks}

@[simp] theorem State_takeCkpt_kept (s : State) (hk : Kept qq mm s) : Kept qq mm (State.takeCkpt s) := by
  unfold State.takeCkpt
  simp (maxDischargeDepth := 60) [hk]

@[simp] theorem State_askCkpt_kept (s : State) (hk : Kept qq mm s) : Kept qq mm (State.askCkpt s) := by
  unfold State.askCkpt
  simp (maxDischargeDepth := 60) [hk]

@[simp] theorem State_configChanged_kept (s : State) (hk : Kept qq mm s) : Kept qq mm (State.configChanged s) := by
  unfold State.configChanged
  simp (maxDischargeDepth := 60) [hk]

@[simp] theorem State_ckptBoundary_kept (s : State) (k : Nat) (hk : Kept qq mm s) : Kept qq mm (State.ckptBoundary s k) := by
  unfold State.ckptBoundary
  simp (maxDischargeDepth := 60) [hk]

@[simp] theorem execConfigCheckpointTimer_kept (s : State) (hk : Kept qq mm s) : KeptOut qq mm (execConfigCheckpointTimer s) := by
  unfold execConfigCheckpointTimer
  simp (maxDischargeDepth := 60) [hk]

/-- The stored stamp rises with a checkpoint that is stored. -/
@[simp] theorem keptAt_max {pe : List Instr} {c d po l t u : Nat} (x : Nat) (h : KeptAt qq mm pe c d po l t u) :
    KeptAt qq mm pe c (max d x) po l t u := by
  obtain ⟨h1, h2, h3, h4⟩ := h
  exact ⟨h1, h2, by omega, h4⟩

@[simp] theorem State_endCkpt_kept (s : State) (c : Ckpt) (stored : Bool) (hk : Kept qq mm s) : Kept qq mm (s.endCkpt c stored) := by
  unfold State.endCkpt
  split
  · refine (kept_mk ..).2 ?_
    dsimp only
    exact keptAt_max _ (keptAt_of hk)
  · simp (maxDischargeDepth := 60) [hk]

@[simp] theorem execCheckpointStored_kept (stored : Bool) (s : State) (hk : Kept qq mm s) : KeptOut qq mm (execCheckpointStored stored s) := by
  unfold execCheckpointStored
  try dsimp only
  repeat' (first | with_reducible assumption | with_reducible refine cmdKept_ite _ ?_ ?_ | with_reducible refine keptOut_ite _ ?_ ?_ | with_reducible refine kept_ite _ ?_ ?_ | with_reducible refine kept_foldl _ (fun s x hs => ?_) _ ?_ | with_reducible refine kept_each _ (fun s x hs => ?_) _ ?_ | with_reducible apply State_endCkpt_kept | with_reducible apply State_takeCkpt_kept | with_reducible apply State_complete_kept | with_reducible apply State_endSessions_kept | split | (with_reducible refine (kept_mk ..).2 (keptAt_of ?_)) | with_reducible refine keptOut_next.2 ?_ | with_reducible refine State_runCmd_kept _ _ _ _ _ (fun t p ht => ?_) ?_ | with_reducible refine State_onFrame_kept _ _ _ _ _ (fun t ht => ?_) ?_ | with_reducible refine State_sendOnce_kept _ _ _ _ _ _ (fun t ht => ?_) ?_ | with_reducible refine State_kennelCmd_kept _ _ _ _ _ (fun t ht => ?_) ?_ | with_reducible refine State_kennelBoth_kept _ _ _ _ (fun t ht => ?_) ?_ | with_reducible refine State_kennelRead_kept _ _ (fun t ht => ?_) ?_ | with_reducible refine State_kennelSet_kept _ _ _ (fun t ht => ?_) ?_ | with_reducible refine State_kennelBootCmd_kept _ _ _ (fun t ht => ?_) ?_ | with_reducible refine koutKept_ite _ ?_ ?_ | with_reducible apply koutKept_some | with_reducible apply koutKept_none | with_reducible exact koutKept_bad | with_reducible apply koutKept_of | with_reducible apply cmdKept_done | with_reducible apply cmdKept_accepted | with_reducible exact cmdKept_no _ | with_reducible exact cmdKept_bad _ _ | with_reducible exact cmdKept_read _ |  (simp (maxDischargeDepth := 60) [*]; done) | dsimp only)

end Sys2Proof.Machine
end

