-- ==== Sys2Proof/Laws/KeptReplans.lean ====
section
/-! SUPPORT. `Kept` through the operations of Machine/Replans.lean. -/

namespace Sys2Proof.Machine

open Sys2Proof

variable {qq : List Instr} {mm : Marks}

@[simp] theorem State_replanCommit_kept (s : State) (hk : Kept qq mm s) : Kept qq mm (State.replanCommit s) := by
  unfold State.replanCommit
  try dsimp only
  repeat' (first | with_reducible assumption | with_reducible refine cmdKept_ite _ ?_ ?_ | with_reducible refine keptOut_ite _ ?_ ?_ | with_reducible refine kept_ite _ ?_ ?_ | with_reducible refine kept_foldl _ (fun s x hs => ?_) _ ?_ | with_reducible refine kept_each _ (fun s x hs => ?_) _ ?_ | with_reducible apply State_updPlane_kept | with_reducible apply State_updPanel_kept | with_reducible apply State_journal_kept | with_reducible apply State_complete_kept | split | (with_reducible refine (kept_mk ..).2 (keptAt_of ?_)) | with_reducible refine keptOut_next.2 ?_ | with_reducible refine State_runCmd_kept _ _ _ _ _ (fun t p ht => ?_) ?_ | with_reducible refine State_onFrame_kept _ _ _ _ _ (fun t ht => ?_) ?_ | with_reducible refine State_sendOnce_kept _ _ _ _ _ _ (fun t ht => ?_) ?_ | with_reducible refine State_kennelCmd_kept _ _ _ _ _ (fun t ht => ?_) ?_ | with_reducible refine State_kennelBoth_kept _ _ _ _ (fun t ht => ?_) ?_ | with_reducible refine State_kennelRead_kept _ _ (fun t ht => ?_) ?_ | with_reducible refine State_kennelSet_kept _ _ _ (fun t ht => ?_) ?_ | with_reducible refine State_kennelBootCmd_kept _ _ _ (fun t ht => ?_) ?_ | with_reducible refine koutKept_ite _ ?_ ?_ | with_reducible apply koutKept_some | with_reducible apply koutKept_none | with_reducible exact koutKept_bad | with_reducible apply koutKept_of | with_reducible apply cmdKept_done | with_reducible apply cmdKept_accepted | with_reducible exact cmdKept_no _ | with_reducible exact cmdKept_bad _ _ | with_reducible exact cmdKept_read _ |  (simp (maxDischargeDepth := 60) [*]; done) | dsimp only)

end Sys2Proof.Machine
end

