-- ==== Sys2Proof/Laws/KeptHandover.lean ====
section
/-! SUPPORT. `Kept` through the operations of Machine/Handover.lean. -/

namespace Sys2Proof.Machine

open Sys2Proof

variable {qq : List Instr} {mm : Marks}

@[simp] theorem State_tryHandover_kept (s : State) (hk : Kept qq mm s) : Kept qq mm (State.tryHandover s) := by
  unfold State.tryHandover
  (repeat' split) <;> simp (maxDischargeDepth := 60) [hk]

@[simp] theorem State_handoverStart_kept (s : State) (hk : Kept qq mm s) : Kept qq mm (State.handoverStart s) := by
  unfold State.handoverStart
  try dsimp only
  repeat' (first | assumption | (simp (maxDischargeDepth := 60) [*]; done) | refine kept_foldl _ (fun s x hs => ?_) _ ?_ | refine kept_each _ (fun s x hs => ?_) _ ?_ | split | dsimp only)

end Sys2Proof.Machine
end

