-- ==== Sys2Proof/Laws/KeptWatch.lean ====
section
/-! SUPPORT. `Kept` through the operations of Machine/Watch.lean. -/

namespace Sys2Proof.Machine

open Sys2Proof

variable {qq : List Instr} {mm : Marks}

@[simp] theorem State_closeReport_kept (s : State) (hk : Kept qq mm s) : Kept qq mm (State.closeReport s) := by
  unfold State.closeReport
  simp (maxDischargeDepth := 60) [hk]

@[simp] theorem State_afterWatch_kept (s : State) (n : Nat) (hk : Kept qq mm s) : Kept qq mm (State.afterWatch s n) := by
  unfold State.afterWatch
  simp (maxDischargeDepth := 60) [hk]

@[simp] theorem State_skipGaps_kept (s : State) (rec_ : Nat) (hk : Kept qq mm s) : Kept qq mm (State.skipGaps s rec_) := by
  induction rec_ generalizing s with
  | zero => simp (maxDischargeDepth := 60) [State.skipGaps, hk]
  | succ n ih =>
    simp (maxDischargeDepth := 60) [State.skipGaps, hk, ih]

@[simp] theorem State_watchToken_kept (s : State) (tok : TokenOut) (hk : Kept qq mm s) : Kept qq mm (State.watchToken s tok) := by
  unfold State.watchToken
  dsimp only
  (repeat' split) <;> simp (maxDischargeDepth := 60) [hk]

@[simp] theorem State_overrun_kept (s : State) (hk : Kept qq mm s) : Kept qq mm (State.overrun s) := by
  unfold State.overrun
  simp (maxDischargeDepth := 60) [hk]

@[simp] theorem State_catchUpAfter_kept (s : State) (late : Bool) (hk : Kept qq mm s) : Kept qq mm (State.catchUpAfter s late) := by
  unfold State.catchUpAfter
  simp (maxDischargeDepth := 60) [hk]

@[simp] theorem execMandatoryCompletion_kept (s : State) (hk : Kept qq mm s) : KeptOut qq mm (execMandatoryCompletion s) := by
  unfold execMandatoryCompletion
  simp (maxDischargeDepth := 60) [hk]

@[simp] theorem State_endInterval_kept (s : State) (hk : Kept qq mm s) : Kept qq mm (State.endInterval s) := by
  unfold State.endInterval
  simp (maxDischargeDepth := 60) [hk]

@[simp] theorem State_takePending_kept (s : State) (hk : Kept qq mm s) : Kept qq mm (State.takePending s) := by
  unfold State.takePending
  simp (maxDischargeDepth := 60) [hk]

@[simp] theorem State_restartState_kept (s : State) (hk : Kept qq mm s) : Kept qq mm (State.restartState s) := by
  unfold State.restartState
  (repeat' split) <;> simp (maxDischargeDepth := 60) [hk]

@[simp] theorem State_rebaseNow_kept (s : State) (hk : Kept qq mm s) : Kept qq mm (State.rebaseNow s) := by
  unfold State.rebaseNow
  simp (maxDischargeDepth := 60) [hk]

@[simp] theorem State_cutDeferrable_kept (s : State) (hk : Kept qq mm s) : Kept qq mm (State.cutDeferrable s) := by
  unfold State.cutDeferrable
  try dsimp only
  repeat' (first | assumption | (simp (maxDischargeDepth := 60) [*]; done) | refine kept_foldl _ (fun s x hs => ?_) _ ?_ | refine kept_each _ (fun s x hs => ?_) _ ?_ | split | dsimp only)

@[simp] theorem State_autoRestart_kept (s : State) (hk : Kept qq mm s) : Kept qq mm s.autoRestart := by
  unfold State.autoRestart
  dsimp only
  split
  · exact hk
  · split
    · simp (maxDischargeDepth := 60) [hk]
    · split
      · split
        · split
          · exact hk
          · simp (maxDischargeDepth := 60) [hk]
        · next i m _ _ _ s1 h1 =>
          have h3 : Kept qq mm s1 := by
            refine State_bindCtx_kept _ _ _ _ _ ?_ h1
            simp (maxDischargeDepth := 60) [hk]
          simp (maxDischargeDepth := 60) [h3]
      · exact hk

@[simp] theorem State_releasePeriod_kept (s : State) (hk : Kept qq mm s) : Kept qq mm (State.releasePeriod s) := by
  unfold State.releasePeriod
  simp (maxDischargeDepth := 60) [hk]

@[simp] theorem State_periodBoundary_kept (s : State) (hk : Kept qq mm s) : Kept qq mm (State.periodBoundary s) := by
  unfold State.periodBoundary
  simp (maxDischargeDepth := 60) [hk]

@[simp] theorem State_idleBoundary_kept (s : State) (hk : Kept qq mm s) : Kept qq mm (State.idleBoundary s) := by
  unfold State.idleBoundary
  simp (maxDischargeDepth := 60) [hk]

@[simp] theorem execPeriodRelease_kept (s : State) (hk : Kept qq mm s) : KeptOut qq mm (execPeriodRelease s) := by
  unfold execPeriodRelease
  (repeat' split) <;> simp (maxDischargeDepth := 60) [hk]

end Sys2Proof.Machine
end

