-- ==== Sys2Proof/Laws/KeptFlights.lean ====
section
/-! SUPPORT. `Kept` through the operations of Machine/Flights.lean. -/

namespace Sys2Proof.Machine

open Sys2Proof

variable {qq : List Instr} {mm : Marks}

@[simp] theorem State_homeWrite_kept (s : State) (sp : Space) (a n ctx : Nat) (hk : Kept qq mm s) : Kept qq mm (State.homeWrite s sp a n ctx) := by
  unfold State.homeWrite
  (repeat' split) <;> simp (maxDischargeDepth := 60) [hk]

end Sys2Proof.Machine
end

