-- ==== Sys2Proof/Laws/KeptCells.lean ====
section
/-! SUPPORT. `Kept` through the operations of Machine/Cells.lean. -/

namespace Sys2Proof.Machine

open Sys2Proof

variable {qq : List Instr} {mm : Marks}

@[simp] theorem State_updCells_kept (s : State) (k : Nat) (f : Cells → Cells) (hk : Kept qq mm s) : Kept qq mm (State.updCells s k f) := by
  unfold State.updCells
  simp (maxDischargeDepth := 60) [hk]

end Sys2Proof.Machine
end

