-- ==== Sys2Proof/Laws/KeptStepBase.lean ====
section
/-! SUPPORT. `Kept` through the operations of Machine/StepBase.lean. -/

namespace Sys2Proof.Machine

open Sys2Proof

variable {qq : List Instr} {mm : Marks}

@[simp] theorem State_weightUe_kept (s : State) (sp : Space) (a : Nat) (ctx : Option Nat) (hk : Kept qq mm s) : Kept qq mm (State.weightUe s sp a ctx) := by
  unfold State.weightUe
  (repeat' split) <;> simp (maxDischargeDepth := 60) [hk]

@[simp] theorem State_stepDone_kept (s : State) (t : Nat) (hk : Kept qq mm s) : Kept qq mm (State.stepDone s t) := by
  unfold State.stepDone
  simp (maxDischargeDepth := 60) [hk]

@[simp] theorem State_stall_kept (s : State) (t : Nat) (w : TWait) (hk : Kept qq mm s) : Kept qq mm (State.stall s t w) := by
  unfold State.stall
  simp (maxDischargeDepth := 60) [hk]

@[simp] theorem State_view_kept (s : State) (who : Option Nat) (sp : Space) (a n : Nat) (hk : Kept qq mm s) : Kept qq mm (State.view s who sp a n).2.2 := by
  unfold State.view
  (repeat' split) <;> simp (maxDischargeDepth := 60) [hk]

@[simp] theorem State_fetch_kept (s : State) (t : Nat) (x : Ref) (n : Nat) (hk : Kept qq mm s) : Kept qq mm (State.fetch s t x n).2.2 := by
  unfold State.fetch
  dsimp only
  (repeat' split) <;> simp (maxDischargeDepth := 60) [hk]

@[simp] theorem State_markPoison_kept (s : State) (t : Nat) (p : Bool) (hk : Kept qq mm s) : Kept qq mm (State.markPoison s t p) := by
  unfold State.markPoison
  simp (maxDischargeDepth := 60) [hk]

@[simp] theorem State_writeRef_kept (s : State) (t : Nat) (x : Ref) (bs : List Byte) (p : Bool) (hk : Kept qq mm s) : Kept qq mm (State.writeRef s t x bs p) := by
  unfold State.writeRef
  simp (maxDischargeDepth := 60) [hk]

@[simp] theorem State_countFp_kept (s : State) (core : Nat) (l : List FpR) (hk : Kept qq mm s) : Kept qq mm (State.countFp s core l) := by
  unfold State.countFp
  simp (maxDischargeDepth := 60) [hk]

@[simp] theorem State_markAdapted_kept (s : State) (t : Nat) (b : Bool) (hk : Kept qq mm s) : Kept qq mm (State.markAdapted s t b) := by
  unfold State.markAdapted
  simp (maxDischargeDepth := 60) [hk]

@[simp] theorem State_countColumns_kept (s : State) (e : Nat) (l : List (Nat × Nat × Nat)) (hk : Kept qq mm s) : Kept qq mm (State.countColumns s e l) := by
  unfold State.countColumns
  simp (maxDischargeDepth := 60) [hk]

end Sys2Proof.Machine
end

