-- ==== Sys2Proof/Laws/KeptPanelSteps.lean ====
section
/-! SUPPORT. `Kept` through the operations of Machine/PanelSteps.lean. -/

namespace Sys2Proof.Machine

open Sys2Proof

variable {qq : List Instr} {mm : Marks}

@[simp] theorem State_panelRun_kept (s : State) (t e lp bank : Nat) (r : BitVec 256) (dev : List (List Int)) (hk : Kept qq mm s) : Kept qq mm (State.panelRun s t e lp bank r dev) := by
  unfold State.panelRun
  simp (maxDischargeDepth := 60) [hk]

@[simp] theorem State_postFetch_kept (s : State) (t e lp : Nat) (hk : Kept qq mm s) : Kept qq mm (State.postFetch s t e lp) := by
  unfold State.postFetch
  simp (maxDischargeDepth := 60) [hk]

@[simp] theorem State_panelEmulated_kept (s : State) (t bank : Nat) (r : BitVec 256) (home : List Byte × Bool) (hk : Kept qq mm s) : Kept qq mm (State.panelEmulated s t bank r home) := by
  unfold State.panelEmulated
  simp (maxDischargeDepth := 60) [hk]

@[simp] theorem State_startLoad_kept (s : State) (e lp : Nat) (r : BitVec 256) (hk : Kept qq mm s) : Kept qq mm (State.startLoad s e lp r) := by
  unfold State.startLoad
  simp (maxDischargeDepth := 60) [hk]

@[simp] theorem State_prefetch_kept (s : State) (e : Nat) (hk : Kept qq mm s) : Kept qq mm (State.prefetch s e) := by
  unfold State.prefetch
  dsimp only
  (repeat' split) <;> simp (maxDischargeDepth := 60) [hk]

@[simp] theorem execPanelMatvec_kept (thread : Nat) (dev : List (List Int)) (s : State) (hk : Kept qq mm s) : KeptOut qq mm (execPanelMatvec thread dev s) := by
  unfold execPanelMatvec
  dsimp only
  (repeat' split) <;> simp (maxDischargeDepth := 60) [hk]

@[simp] theorem State_badFile_kept (s : State) (e lp : Nat) (bad : List Nat) (sp : Space) (a : Nat) (hk : Kept qq mm s) : Kept qq mm (State.badFile s e lp bad sp a) := by
  unfold State.badFile
  (repeat' split) <;> simp_all (maxDischargeDepth := 60)

@[simp] theorem execPlaneFileLoadDone_kept (engine : Nat) (s : State) (hk : Kept qq mm s) : KeptOut qq mm (execPlaneFileLoadDone engine s) := by
  unfold execPlaneFileLoadDone
  (repeat' split) <;> simp (maxDischargeDepth := 60) [hk]

@[simp] theorem execEngineClockGate_kept (engine : Nat) (s : State) (hk : Kept qq mm s) : KeptOut qq mm (execEngineClockGate engine s) := by
  unfold execEngineClockGate
  simp (maxDischargeDepth := 60) [hk]

end Sys2Proof.Machine
end

