-- ==== Sys2Proof/Laws/KeptDigitalSteps.lean ====
section
/-! SUPPORT. `Kept` through the operations of Machine/DigitalSteps.lean. -/

namespace Sys2Proof.Machine

open Sys2Proof

variable {qq : List Instr} {mm : Marks}

@[simp] theorem execDigitalMatmul_kept (thread : Nat) (s : State) (hk : Kept qq mm s) : KeptOut qq mm (execDigitalMatmul thread s) := by
  unfold execDigitalMatmul
  dsimp only
  (repeat' split) <;> simp (maxDischargeDepth := 60) [hk]

@[simp] theorem execCodebookLoadDone_kept (engine slot : Nat) (s : State) (hk : Kept qq mm s) : KeptOut qq mm (execCodebookLoadDone engine slot s) := by
  unfold execCodebookLoadDone
  simp (maxDischargeDepth := 60) [hk]

end Sys2Proof.Machine
end

