-- ==== Sys2Proof/Laws/KeptVectorSteps.lean ====
section
/-! SUPPORT. `Kept` through the operations of Machine/VectorSteps.lean. -/

namespace Sys2Proof.Machine

open Sys2Proof

variable {qq : List Instr} {mm : Marks}

@[simp] theorem State_countConvs_kept (s : State) (ctx core point : Nat) (l : List Conv) (skip : Bool) (hk : Kept qq mm s) : Kept qq mm (State.countConvs s ctx core point l skip) := by
  unfold State.countConvs
  try dsimp only
  repeat' (first | assumption | (simp (maxDischargeDepth := 60) [*]; done) | refine kept_foldl _ (fun s x hs => ?_) _ ?_ | refine kept_each _ (fun s x hs => ?_) _ ?_ | split | dsimp only)

@[simp] theorem execVectorOp_kept (issue : VectorIssue) (s : State) (hk : Kept qq mm s) : KeptOut qq mm (execVectorOp issue s) := by
  unfold execVectorOp
  dsimp only
  (repeat' split) <;> simp (maxDischargeDepth := 60) [hk]

@[simp] theorem execRotate_kept (thread : Nat) (s : State) (hk : Kept qq mm s) : KeptOut qq mm (execRotate thread s) := by
  unfold execRotate
  dsimp only
  (repeat' split) <;> simp (maxDischargeDepth := 60) [hk]

@[simp] theorem execRequant_kept (thread : Nat) (gap : Bool) (s : State) (hk : Kept qq mm s) : KeptOut qq mm (execRequant thread gap s) := by
  unfold execRequant
  dsimp only
  (repeat' split) <;> simp (maxDischargeDepth := 60) [hk]

end Sys2Proof.Machine
end

