-- ==== Sys2Proof/Laws/KeptSyncSteps.lean ====
section
/-! SUPPORT. `Kept` through the operations of Machine/SyncSteps.lean. -/

namespace Sys2Proof.Machine

open Sys2Proof

variable {qq : List Instr} {mm : Marks}

@[simp] theorem State_refuseWait_kept (s : State) (t : Nat) (hk : Kept qq mm s) : Kept qq mm (State.refuseWait s t) := by
  unfold State.refuseWait
  simp (maxDischargeDepth := 60) [hk]

@[simp] theorem State_orphanedWait_kept (s : State) (t : Nat) (hk : Kept qq mm s) : Kept qq mm (State.orphanedWait s t) := by
  unfold State.orphanedWait
  simp (maxDischargeDepth := 60) [hk]

@[simp] theorem State_waitOn_kept (s : State) (t id : Nat) (expect : Int) (hk : Kept qq mm s) : Kept qq mm (State.waitOn s t id expect) := by
  unfold State.waitOn
  dsimp only
  (repeat' split) <;> simp (maxDischargeDepth := 60) [hk]

@[simp] theorem State_fenceFails_kept (s : State) (c : Nat) (hk : Kept qq mm s) : Kept qq mm (State.fenceFails s c) := by
  unfold State.fenceFails
  simp (maxDischargeDepth := 60) [hk]

@[simp] theorem State_clearUnfenced_kept (s : State) (c : Nat) (l : List (Nat × Nat)) (hk : Kept qq mm s) : Kept qq mm (State.clearUnfenced s c l) := by
  unfold State.clearUnfenced
  simp (maxDischargeDepth := 60) [hk]

@[simp] theorem State_arrive_kept (s : State) (t : Nat) (hk : Kept qq mm s) : Kept qq mm (State.arrive s t) := by
  unfold State.arrive
  simp (maxDischargeDepth := 60) [hk]

@[simp] theorem State_afterFence_kept (s : State) (t : Nat) (hk : Kept qq mm s) : Kept qq mm (State.afterFence s t) := by
  unfold State.afterFence
  simp (maxDischargeDepth := 60) [hk]

@[simp] theorem State_packFence_kept (s : State) (t : Nat) (hk : Kept qq mm s) : Kept qq mm (State.packFence s t) := by
  unfold State.packFence
  simp (maxDischargeDepth := 60) [hk]

@[simp] theorem State_submit_kept (s : State) (t : Nat) (hk : Kept qq mm s) : Kept qq mm (State.submit s t) := by
  unfold State.submit
  dsimp only
  (repeat' split) <;> simp (maxDischargeDepth := 60) [hk]

@[simp] theorem execShuttleSubmit_kept (thread : Nat) (s : State) (hk : Kept qq mm s) : KeptOut qq mm (execShuttleSubmit thread s) := by
  unfold execShuttleSubmit
  simp (maxDischargeDepth := 60) [hk]

@[simp] theorem execShuttleSubmitUnstall_kept (thread : Nat) (s : State) (hk : Kept qq mm s) : KeptOut qq mm (execShuttleSubmitUnstall thread s) := by
  unfold execShuttleSubmitUnstall
  simp (maxDischargeDepth := 60) [hk]

@[simp] theorem execCounterSignal_kept (thread : Nat) (s : State) (hk : Kept qq mm s) : KeptOut qq mm (execCounterSignal thread s) := by
  unfold execCounterSignal
  simp (maxDischargeDepth := 60) [hk]

@[simp] theorem execCounterWait_kept (thread : Nat) (s : State) (hk : Kept qq mm s) : KeptOut qq mm (execCounterWait thread s) := by
  unfold execCounterWait
  simp (maxDischargeDepth := 60) [hk]

@[simp] theorem execFence_kept (thread : Nat) (s : State) (hk : Kept qq mm s) : KeptOut qq mm (execFence thread s) := by
  unfold execFence
  simp (maxDischargeDepth := 60) [hk]

@[simp] theorem execBarrierArrive_kept (thread : Nat) (s : State) (hk : Kept qq mm s) : KeptOut qq mm (execBarrierArrive thread s) := by
  unfold execBarrierArrive
  simp (maxDischargeDepth := 60) [hk]

@[simp] theorem execUnitBusyStallEnd_kept (thread : Nat) (s : State) (hk : Kept qq mm s) : KeptOut qq mm (execUnitBusyStallEnd thread s) := by
  unfold execUnitBusyStallEnd
  dsimp only
  (repeat' split) <;> simp (maxDischargeDepth := 60) [hk]

@[simp] theorem State_settle_kept (s : State) (c : Nat) (hk : Kept qq mm s) : Kept qq mm (State.settle s c) := by
  unfold State.settle
  simp (maxDischargeDepth := 60) [hk]

@[simp] theorem State_headOutputs_kept (s : State) (c : Nat) (tok : Option TokenOut) (hk : Kept qq mm s) : Kept qq mm (State.headOutputs s c tok) := by
  unfold State.headOutputs
  (repeat' split) <;> simp (maxDischargeDepth := 60) [hk]

@[simp] theorem State_poisonState_kept (s : State) (c : Nat) (hk : Kept qq mm s) : Kept qq mm (State.poisonState s c) := by
  unfold State.poisonState
  simp (maxDischargeDepth := 60) [hk]

@[simp] theorem execStepComplete_kept (thread : Nat) (tok : Option TokenOut) (s : State) (hk : Kept qq mm s) : KeptOut qq mm (execStepComplete thread tok s) := by
  unfold execStepComplete
  simp (maxDischargeDepth := 60) [hk]

@[simp] theorem execWaiterWake_kept (thread : Nat) (s : State) (hk : Kept qq mm s) : KeptOut qq mm (execWaiterWake thread s) := by
  unfold execWaiterWake
  simp (maxDischargeDepth := 60) [hk]

end Sys2Proof.Machine
end

