-- ==== Sys2Proof/Laws/KeptEcc.lean ====
section
/-! SUPPORT. `Kept` through the operations of Machine/Ecc.lean. -/

namespace Sys2Proof.Machine

open Sys2Proof

variable {qq : List Instr} {mm : Marks}

@[simp] theorem State_remapBits_kept (s : State) (hk : Kept qq mm s) : Kept qq mm (State.remapBits s) := by
  unfold State.remapBits
  simp (maxDischargeDepth := 60) [hk]

@[simp] theorem State_retirePage_kept (s : State) (a : Nat) (hk : Kept qq mm s) : Kept qq mm (State.retirePage s a) := by
  unfold State.retirePage
  simp (maxDischargeDepth := 60) [hk]

@[simp] theorem State_listPoison_kept (s : State) (block : Nat) (hk : Kept qq mm s) : Kept qq mm (State.listPoison s block) := by
  unfold State.listPoison
  simp (maxDischargeDepth := 60) [hk]

@[simp] theorem State_markErased_kept (s : State) (a dev : Nat) (hk : Kept qq mm s) : Kept qq mm (State.markErased s a dev) := by
  unfold State.markErased
  simp (maxDischargeDepth := 60) [hk]

@[simp] theorem State_countSymbol_kept (s : State) (a dev : Nat) (scrub : Bool) (hk : Kept qq mm s) : Kept qq mm (State.countSymbol s a dev scrub) := by
  unfold State.countSymbol
  simp (maxDischargeDepth := 60) [hk]

@[simp] theorem State_eccFinding_kept (s : State) (f : EccFinding) (ctx : Option Nat) (hk : Kept qq mm s) : Kept qq mm (State.eccFinding s f ctx) := by
  unfold State.eccFinding
  (repeat' split) <;> simp (maxDischargeDepth := 60) [hk]

@[simp] theorem State_writeParity_kept (s : State) (a : Nat) (hk : Kept qq mm s) : Kept qq mm (State.writeParity s a) := by
  unfold State.writeParity
  simp (maxDischargeDepth := 60) [hk]

end Sys2Proof.Machine
end

