-- ==== Sys2Proof/Laws/KeptShuttle.lean ====
section
/-! SUPPORT. `Kept` through the operations of Machine/Shuttle.lean. -/

namespace Sys2Proof.Machine

open Sys2Proof

variable {qq : List Instr} {mm : Marks}

@[simp] theorem State_descFails_kept (s : State) (r ctx tag err : Nat) (hk : Kept qq mm s) : Kept qq mm (State.descFails s r ctx tag err) := by
  unfold State.descFails
  simp (maxDischargeDepth := 60) [hk]

@[simp] theorem execDescriptorStart_kept (ring : Nat) (pick : ChannelPick) (s : State) (hk : Kept qq mm s) : KeptOut qq mm (execDescriptorStart ring pick s) := by
  unfold execDescriptorStart
  try dsimp only
  repeat' (first | with_reducible assumption | with_reducible refine cmdKept_ite _ ?_ ?_ | with_reducible refine keptOut_ite _ ?_ ?_ | with_reducible refine kept_ite _ ?_ ?_ | with_reducible refine kept_foldl _ (fun s x hs => ?_) _ ?_ | with_reducible refine kept_each _ (fun s x hs => ?_) _ ?_ | with_reducible apply State_updRing_kept | with_reducible apply State_setChannel_kept | with_reducible apply State_askPower_kept | with_reducible apply State_descFails_kept | split | (with_reducible refine (kept_mk ..).2 (keptAt_of ?_)) | with_reducible refine keptOut_next.2 ?_ | with_reducible refine State_runCmd_kept _ _ _ _ _ (fun t p ht => ?_) ?_ | with_reducible refine State_onFrame_kept _ _ _ _ _ (fun t ht => ?_) ?_ | with_reducible refine State_sendOnce_kept _ _ _ _ _ _ (fun t ht => ?_) ?_ | with_reducible refine State_kennelCmd_kept _ _ _ _ _ (fun t ht => ?_) ?_ | with_reducible refine State_kennelBoth_kept _ _ _ _ (fun t ht => ?_) ?_ | with_reducible refine State_kennelRead_kept _ _ (fun t ht => ?_) ?_ | with_reducible refine State_kennelSet_kept _ _ _ (fun t ht => ?_) ?_ | with_reducible refine State_kennelBootCmd_kept _ _ _ (fun t ht => ?_) ?_ | with_reducible refine koutKept_ite _ ?_ ?_ | with_reducible apply koutKept_some | with_reducible apply koutKept_none | with_reducible exact koutKept_bad | with_reducible apply koutKept_of | with_reducible apply cmdKept_done | with_reducible apply cmdKept_accepted | with_reducible exact cmdKept_no _ | with_reducible exact cmdKept_bad _ _ | with_reducible exact cmdKept_read _ |  (simp (maxDischargeDepth := 60) [*]; done) | dsimp only)

@[simp] theorem State_noteRivals_kept (s : State) (sp : Space) (ps : List Piece) (hk : Kept qq mm s) : Kept qq mm (State.noteRivals s sp ps) := by
  unfold State.noteRivals
  simp (maxDischargeDepth := 60) [hk]

@[simp] theorem State_movePiece_kept (s : State) (f : Flight) (bad : Bool) (x : Piece) (hk : Kept qq mm s) : Kept qq mm (State.movePiece s f bad x) := by
  unfold State.movePiece
  dsimp only
  (repeat' split) <;> simp (maxDischargeDepth := 60) [hk]

@[simp] theorem State_vacate_kept (s : State) (f : Flight) (p len : Nat) (hk : Kept qq mm s) : Kept qq mm (State.vacate s f p len) := by
  unfold State.vacate
  (repeat' split) <;> simp_all (maxDischargeDepth := 60)

@[simp] theorem State_sendWrites_kept (s : State) (f : Flight) (rec_ : List Piece) (hk : Kept qq mm s) : Kept qq mm (State.sendWrites s f rec_) := by
  induction rec_ generalizing s with
  | nil => simp (maxDischargeDepth := 60) [State.sendWrites, hk]
  | cons y ys ih =>
    unfold State.sendWrites
    dsimp only
    (repeat' split) <;> simp (maxDischargeDepth := 60) [hk, ih]

@[simp] theorem State_chunkFindings_kept (s : State) (f : Flight) (found : List EccFinding) (hk : Kept qq mm s) : Kept qq mm (State.chunkFindings s f found) := by
  unfold State.chunkFindings
  (repeat' split) <;> simp_all (maxDischargeDepth := 60)

@[simp] theorem execChunkDone_kept (channel : Nat) (found : List EccFinding) (s : State) (hk : Kept qq mm s) : KeptOut qq mm (execChunkDone channel found s) := by
  unfold execChunkDone
  (repeat' split) <;> simp_all (maxDischargeDepth := 60)

@[simp] theorem State_histLost_kept (s : State) (f : Flight) (hk : Kept qq mm s) : Kept qq mm (State.histLost s f) := by
  unfold State.histLost
  simp (maxDischargeDepth := 60) [hk]

@[simp] theorem State_fetchEnds_kept (s : State) (f : Flight) (hk : Kept qq mm s) : Kept qq mm (State.fetchEnds s f) := by
  unfold State.fetchEnds
  simp (maxDischargeDepth := 60) [hk]

@[simp] theorem execDescriptorComplete_kept (channel : Nat) (s : State) (hk : Kept qq mm s) : KeptOut qq mm (execDescriptorComplete channel s) := by
  unfold execDescriptorComplete
  (repeat' split) <;> simp_all (maxDischargeDepth := 60)

end Sys2Proof.Machine
end

