-- ==== Sys2Proof/Laws/KeptHistory.lean ====
section
/-! SUPPORT. `Kept` through the operations of Machine/History.lean. -/

namespace Sys2Proof.Machine

open Sys2Proof

variable {qq : List Instr} {mm : Marks}

@[simp] theorem State_appendToken_kept (s : State) (sidx flags run token : Nat) (bytes : List Byte) (hk : Kept qq mm s) : Kept qq mm (State.appendToken s sidx flags run token bytes) := by
  unfold State.appendToken
  simp (maxDischargeDepth := 60) [hk]

@[simp] theorem State_signalTokens_kept (s : State) (hk : Kept qq mm s) : Kept qq mm (State.signalTokens s) := by
  unfold State.signalTokens
  (repeat' split) <;> simp_all (maxDischargeDepth := 60)

@[simp] theorem State_takeToken_kept (s : State) (sidx flags run token : Nat) (bytes : List Byte) (hk : Kept qq mm s) : Kept qq mm (State.takeToken s sidx flags run token bytes) := by
  unfold State.takeToken
  simp (maxDischargeDepth := 60) [hk]

end Sys2Proof.Machine
end

