-- ==== Sys2Proof/Laws/KeptStream.lean ====
section
/-! SUPPORT. `Kept` through the operations of Machine/Stream.lean. -/

namespace Sys2Proof.Machine

open Sys2Proof

variable {qq : List Instr} {mm : Marks}

@[simp] theorem State_slotFault_kept (s : State) (n : Nat) (was : Bool) (f : Slot → Slot) (hk : Kept qq mm s) : Kept qq mm (State.slotFault s n was f) := by
  unfold State.slotFault
  (repeat' split) <;> simp (maxDischargeDepth := 60) [hk]

@[simp] theorem State_badFrame_kept (s : State) (n : Nat) (hk : Kept qq mm s) : Kept qq mm (State.badFrame s n) := by
  unfold State.badFrame
  simp (maxDischargeDepth := 60) [hk]

@[simp] theorem State_portDrop_kept (s : State) (port : Nat) (hk : Kept qq mm s) : Kept qq mm (State.portDrop s port) := by
  unfold State.portDrop
  simp (maxDischargeDepth := 60) [hk]

@[simp] theorem State_startArrival_kept (s : State) (n : Nat) (c : SlotCfg) (hk : Kept qq mm s) : Kept qq mm (State.startArrival s n c) := by
  unfold State.startArrival
  simp (maxDischargeDepth := 60) [hk]

@[simp] theorem State_setUnread_kept (s : State) (n u : Nat) (hk : Kept qq mm s) : Kept qq mm (State.setUnread s n u) := by
  unfold State.setUnread
  simp (maxDischargeDepth := 60) [hk]

@[simp] theorem State_setOrigin_kept (s : State) (idx : Nat) (hk : Kept qq mm s) : Kept qq mm (State.setOrigin s idx) := by
  unfold State.setOrigin
  (repeat' split) <;> simp_all (maxDischargeDepth := 60)

@[simp] theorem State_watchShort_kept (s : State) (old : Nat) (hk : Kept qq mm s) : Kept qq mm (State.watchShort s old) := by
  unfold State.watchShort
  simp (maxDischargeDepth := 60) [hk]

@[simp] theorem State_clipRuns_kept (s : State) (hk : Kept qq mm s) : Kept qq mm (State.clipRuns s) := by
  unfold State.clipRuns
  simp (maxDischargeDepth := 60) [hk]

@[simp] theorem State_newOrigin_kept (s : State) (idx : Nat) (hk : Kept qq mm s) : Kept qq mm (State.newOrigin s idx) := by
  unfold State.newOrigin
  (repeat' split) <;> simp_all (maxDischargeDepth := 60)

@[simp] theorem State_filed_kept (s : State) (n port u idx : Nat) (vals : List (Int × Nat)) (hk : Kept qq mm s) : Kept qq mm (State.filed s n port u idx vals) := by
  unfold State.filed
  simp (maxDischargeDepth := 60) [hk]

@[simp] theorem State_filedFirst_kept (s : State) (n port idx : Nat) (vals : List (Int × Nat)) (hk : Kept qq mm s) : Kept qq mm (State.filedFirst s n port idx vals) := by
  unfold State.filedFirst
  simp (maxDischargeDepth := 60) [hk]

@[simp] theorem State_fileFrame_kept (s : State) (n port idx : Nat) (vals : List (Int × Nat)) (jump : Bool) (hk : Kept qq mm s) : Kept qq mm (State.fileFrame s n port idx vals jump) := by
  unfold State.fileFrame
  dsimp only
  (repeat' split) <;> simp (maxDischargeDepth := 60) [hk]

@[simp] theorem execStreamFrame_kept (port : Nat) (f : StreamFrame) (s : State) (hk : Kept qq mm s) : KeptOut qq mm (execStreamFrame port f s) := by
  unfold execStreamFrame
  (repeat' split) <;> simp (maxDischargeDepth := 60) [hk]

@[simp] theorem State_dropAsdu_kept (s : State) (n : Nat) (hk : Kept qq mm s) : Kept qq mm (State.dropAsdu s n) := by
  unfold State.dropAsdu
  simp (maxDischargeDepth := 60) [hk]

@[simp] theorem State_takeAsdu_kept (s : State) (n port : Nat) (f : SvFrame) (a : Asdu) (c : SlotCfg) (conf elem : Nat) (hk : Kept qq mm s) : Kept qq mm (State.takeAsdu s n port f a c conf elem) := by
  unfold State.takeAsdu
  (repeat' split) <;> simp (maxDischargeDepth := 60) [hk]

@[simp] theorem State_takeAsdus_kept (s : State) (port : Nat) (f : SvFrame) (l : List Asdu) (hk : Kept qq mm s) :
    Kept qq mm (s.takeAsdus port f l) := by
  induction l generalizing s with
  | nil => exact hk
  | cons y ys ih =>
    unfold State.takeAsdus
    refine ih _ (kept_each _ (fun s x hs => ?_) _ hk)
    cases (s.slot x).cfg with
    | none => exact hs
    | some c =>
      dsimp only
      cases c.source with
      | frame => exact hs
      | sv =>
        exact kept_ite _ (kept_ite _ (State_badFrame_kept _ _ hs) (State_takeAsdu_kept _ _ _ _ _ _ _ _ hs)) hs

@[simp] theorem execSampledValuesFrame_kept (port : Nat) (f : SvFrame) (s : State) (hk : Kept qq mm s) : KeptOut qq mm (execSampledValuesFrame port f s) := by
  unfold execSampledValuesFrame
  (repeat' split) <;> simp (maxDischargeDepth := 60) [hk]

@[simp] theorem State_joinGroups_kept (s : State) (port : Nat) (hk : Kept qq mm s) : Kept qq mm (State.joinGroups s port) := by
  unfold State.joinGroups
  simp (maxDischargeDepth := 60) [hk]

@[simp] theorem execArpRequest_kept (port addr : Nat) (s : State) (hk : Kept qq mm s) : KeptOut qq mm (execArpRequest port addr s) := by
  unfold execArpRequest
  simp (maxDischargeDepth := 60) [hk]

@[simp] theorem execNeighborDiscovery_kept (port addr : Nat) (s : State) (hk : Kept qq mm s) : KeptOut qq mm (execNeighborDiscovery port addr s) := by
  unfold execNeighborDiscovery
  simp (maxDischargeDepth := 60) [hk]

@[simp] theorem execEchoRequest_kept (port : Nat) (v6 : Bool) (addr : Nat) (data : List Byte) (s : State) (hk : Kept qq mm s) : KeptOut qq mm (execEchoRequest port v6 addr data s) := by
  unfold execEchoRequest
  simp (maxDischargeDepth := 60) [hk]

@[simp] theorem execSpillMove_kept (slot : Nat) (s : State) (hk : Kept qq mm s) : KeptOut qq mm (execSpillMove slot s) := by
  unfold execSpillMove
  dsimp only
  (repeat' split) <;> simp (maxDischargeDepth := 60) [hk]

@[simp] theorem execSilentTimeout_kept (slot : Nat) (s : State) (hk : Kept qq mm s) : KeptOut qq mm (execSilentTimeout slot s) := by
  unfold execSilentTimeout
  simp (maxDischargeDepth := 60) [hk]

@[simp] theorem State_rateSlot_kept (s : State) (n : Nat) (hk : Kept qq mm s) : Kept qq mm (State.rateSlot s n) := by
  unfold State.rateSlot
  (repeat' split) <;> simp (maxDischargeDepth := 60) [hk]

@[simp] theorem execRateCheck_kept (s : State) (hk : Kept qq mm s) : KeptOut qq mm (execRateCheck s) := by
  unfold execRateCheck
  (repeat' split) <;> simp_all (maxDischargeDepth := 60)

end Sys2Proof.Machine
end

