-- ==== Sys2Proof/Laws/KeptFrontEnd.lean ====
section
/-! SUPPORT. `Kept` through the operations of Machine/FrontEnd.lean. -/

namespace Sys2Proof.Machine

open Sys2Proof

variable {qq : List Instr} {mm : Marks}

@[simp] theorem State_formInput_kept (s : State) (sidx : Nat) (e : Nat × Input) (hk : Kept qq mm s) : Kept qq mm (State.formInput s sidx e).1 := by
  unfold State.formInput
  dsimp only
  (repeat' split) <;> simp (maxDischargeDepth := 60) [hk]

@[simp] theorem State_formAll_kept (s : State) (sidx : Nat) (l : List (Nat × Input)) (hk : Kept qq mm s) : Kept qq mm (s.formAll sidx l).1 := by
  induction l generalizing s with
  | nil => exact hk
  | cons e es ih => exact ih _ (State_formInput_kept _ _ _ hk)

/-- A fold over pairs keeps what each step keeps. -/
theorem kept_foldl_fst {α β : Type} (f : State × β → α → State × β) (hf : ∀ a x, Kept qq mm a.1 → Kept qq mm (f a x).1)
    (l : List α) (a : State × β) (h : Kept qq mm a.1) : Kept qq mm (l.foldl f a).1 := by
  induction l generalizing a with
  | nil => exact h
  | cons x xs ih => exact ih _ (hf _ _ h)

@[simp] theorem State_runDetectors_kept (s : State) (i : Image) (fs : List Formed) (hk : Kept qq mm s) :
    Kept qq mm (s.runDetectors i fs).1 := by
  unfold State.runDetectors
  refine kept_foldl_fst _ (fun a n ha => ?_) _ _ hk
  cases i.detectors[n]? with
  | none => exact ha
  | some d =>
    dsimp only
    cases fs[d.input]? with
    | none => exact ha
    | some f => exact (kept_mk ..).2 (keptAt_of ha)

@[simp] theorem State_forwardToken_kept (s : State) (sidx flags : Nat) (bytes : List Byte) (hk : Kept qq mm s) : Kept qq mm (State.forwardToken s sidx flags bytes) := by
  unfold State.forwardToken
  simp (maxDischargeDepth := 60) [hk]

@[simp] theorem State_placeRing_kept (s : State) (hk : Kept qq mm s) : Kept qq mm (State.placeRing s) := by
  unfold State.placeRing
  simp (maxDischargeDepth := 60) [hk]

@[simp] theorem State_placeFor_kept (s : State) (sidx : Nat) (hk : Kept qq mm s) : Kept qq mm (State.placeFor s sidx) := by
  unfold State.placeFor
  (repeat' split) <;> simp (maxDischargeDepth := 60) [hk]

@[simp] theorem State_ackStandby_kept (s : State) (sidx : Nat) (hk : Kept qq mm s) : Kept qq mm (State.ackStandby s sidx) := by
  unfold State.ackStandby
  simp (maxDischargeDepth := 60) [hk]

@[simp] theorem State_sealToken_kept (s : State) (sidx flags : Nat) (bytes : List Byte) (hk : Kept qq mm s) : Kept qq mm (State.sealToken s sidx flags bytes) := by
  unfold State.sealToken
  simp (maxDischargeDepth := 60) [hk]

@[simp] theorem execTokenForm_kept (facts : TokenFacts) (s : State) (hk : Kept qq mm s) : KeptOut qq mm (execTokenForm facts s) := by
  unfold execTokenForm
  cases s.image with
  | none => exact keptOut_next.2 hk
  | some i =>
    cases s.ing.s0 with
    | none => exact keptOut_next.2 hk
    | some o =>
      dsimp only
      have h1 := State_formAll_kept s (o + s.ing.nextToken * s.tokenSpan) (s.inputsInOrder i) hk
      revert h1
      generalize s.formAll (o + s.ing.nextToken * s.tokenSpan) (s.inputsInOrder i) = p
      intro h1
      have h2 := State_runDetectors_kept p.1 i (p.2.map Prod.snd) h1
      revert h2
      generalize p.1.runDetectors i (p.2.map Prod.snd) = r
      intro h2
      refine keptOut_ite _ (keptOut_next.2 hk) (keptOut_ite _ ?_ ?_) <;> refine keptOut_next.2 ?_
      · exact State_askPower_kept _ _ _ (State_askPower_kept _ _ _ (State_wake_kept _ hk))
      · exact kept_foldl _ (fun s c hs => State_trigger_kept _ _ _ _ _ hs) _ (State_sealToken_kept _ _ _ _ h2)

@[simp] theorem execFiletFunctionRun_kept (k : Nat) (s : State) (hk : Kept qq mm s) : KeptOut qq mm (execFiletFunctionRun k s) := by
  unfold execFiletFunctionRun
  (repeat' split) <;> simp (maxDischargeDepth := 60) [hk]

end Sys2Proof.Machine
end

