-- ==== Sys2Proof/Laws/KeptUpkeep.lean ====
section
/-! SUPPORT. `Kept` through the operations of Machine/Upkeep.lean. -/

namespace Sys2Proof.Machine

open Sys2Proof

variable {qq : List Instr} {mm : Marks}

@[simp] theorem State_pushWork_kept (s : State) (w : Work) (hk : Kept qq mm s) : Kept qq mm (State.pushWork s w) := by
  unfold State.pushWork
  simp (maxDischargeDepth := 60) [hk]

@[simp] theorem State_copyBlock_kept (s : State) (slot e lp : Nat) (hk : Kept qq mm s) : Kept qq mm (State.copyBlock s slot e lp) := by
  unfold State.copyBlock
  (repeat' split) <;> simp (maxDischargeDepth := 60) [hk]

@[simp] theorem State_copyPanel_kept (s : State) (e : Nat) (hk : Kept qq mm s) : Kept qq mm (State.copyPanel s e) := by
  unfold State.copyPanel
  (repeat' split) <;> simp_all (maxDischargeDepth := 60)

@[simp] theorem State_releasePanel_kept (s : State) (e : Nat) (hk : Kept qq mm s) : Kept qq mm (State.releasePanel s e) := by
  unfold State.releasePanel
  simp (maxDischargeDepth := 60) [hk]

@[simp] theorem State_setDrift_kept (s : State) (e p drift : Nat) (hk : Kept qq mm s) : Kept qq mm (State.setDrift s e p drift) := by
  unfold State.setDrift
  dsimp only
  (repeat' split) <;> simp (maxDischargeDepth := 60) [hk]

@[simp] theorem State_refuseReading_kept (s : State) (e lp g : Nat) (rd : Reading) (hk : Kept qq mm s) : Kept qq mm (State.refuseReading s e lp g rd) := by
  unfold State.refuseReading
  simp (maxDischargeDepth := 60) [hk]

@[simp] theorem execReadingClose_kept (engine plane group : Nat) (s : State) (hk : Kept qq mm s) : KeptOut qq mm (execReadingClose engine plane group s) := by
  unfold execReadingClose
  dsimp only
  (repeat' split) <;> simp (maxDischargeDepth := 60) [hk]

@[simp] theorem State_upkeepPower_kept (s : State) (prio : Nat) (d : Dom) (hk : Kept qq mm s) : Kept qq mm (State.upkeepPower s prio d) := by
  unfold State.upkeepPower
  simp (maxDischargeDepth := 60) [hk]

@[simp] theorem State_beginOp_kept (s : State) (w0 : Work) (hk : Kept qq mm s) : Kept qq mm (State.beginOp s w0) := by
  unfold State.beginOp
  dsimp only
  (repeat' split) <;> simp (maxDischargeDepth := 60) [hk]

@[simp] theorem State_beginProgram_kept (s : State) (w : Work) (hk : Kept qq mm s) : Kept qq mm (State.beginProgram s w) := by
  unfold State.beginProgram
  simp (maxDischargeDepth := 60) [hk]

theorem State_resumeOp_kept (s t : State) (e : Nat) (hk : Kept qq mm s) (h : s.resumeOp e = some t) : Kept qq mm t := by
  unfold State.resumeOp at h
  split at h
  · split at h
    · exact Option.some.inj h ▸ State_beginProgram_kept _ _ hk
    · cases h
  · cases h

@[simp] theorem execUpkeepStart_kept (engine : Nat) (s : State) (hk : Kept qq mm s) : KeptOut qq mm (execUpkeepStart engine s) := by
  unfold execUpkeepStart
  refine keptOut_ite _ (keptOut_next.2 hk) ?_
  cases h : s.resumeOp engine with
  | some t => exact keptOut_next.2 (State_resumeOp_kept s t engine hk h)
  | none =>
    cases s.nextWork with
    | none => exact keptOut_next.2 hk
    | some w =>
      have h0 := State_wake_kept s hk
      dsimp only
      generalize s.wake = s0 at h0 ⊢
      have h1 : Kept qq mm { s0 with upk := { s0.upk with queue := s0.upk.queue.erase w } } := h0
      exact keptOut_ite _ (keptOut_next.2 hk) (keptOut_ite _
        (keptOut_next.2 (kept_foldl _ (fun s d hs => State_upkeepPower_kept s w.prio d hs) _ h0))
        (keptOut_ite _ (keptOut_next.2 (State_setOp_kept _ _ _ h1)) (keptOut_next.2 (State_beginOp_kept _ _ h1))))

@[simp] theorem execAwayCopyDone_kept (engine : Nat) (s : State) (hk : Kept qq mm s) : KeptOut qq mm (execAwayCopyDone engine s) := by
  unfold execAwayCopyDone
  (repeat' split) <;> simp (maxDischargeDepth := 60) [hk]

@[simp] theorem State_swapPanelDone_kept (s : State) (e : Nat) (hk : Kept qq mm s) : Kept qq mm (State.swapPanelDone s e) := by
  unfold State.swapPanelDone
  simp (maxDischargeDepth := 60) [hk]

@[simp] theorem State_retirePanel_kept (s : State) (e : Nat) (hk : Kept qq mm s) : Kept qq mm (State.retirePanel s e) := by
  unfold State.retirePanel
  simp (maxDischargeDepth := 60) [hk]

@[simp] theorem State_spareEngine_kept (s : State) (e : Nat) (w : Work) (hk : Kept qq mm s) : Kept qq mm (State.spareEngine s e w) := by
  unfold State.spareEngine
  (repeat' split) <;> simp_all (maxDischargeDepth := 60)

@[simp] theorem State_sparePlane_kept (s : State) (w : Work) (hk : Kept qq mm s) : Kept qq mm (State.sparePlane s w) := by
  unfold State.sparePlane
  try dsimp only
  repeat' (first | assumption | (simp (maxDischargeDepth := 60) [*]; done) | refine kept_foldl _ (fun s x hs => ?_) _ ?_ | refine kept_each _ (fun s x hs => ?_) _ ?_ | split | dsimp only)

@[simp] theorem State_planeFails_kept (s : State) (r : OpRun) (kind : Nat) (hk : Kept qq mm s) : Kept qq mm (State.planeFails s r kind) := by
  unfold State.planeFails
  simp (maxDischargeDepth := 60) [hk]

@[simp] theorem State_sweepDone_kept (s : State) (e : Nat) (hk : Kept qq mm s) : Kept qq mm (State.sweepDone s e) := by
  unfold State.sweepDone
  (repeat' split) <;> simp_all (maxDischargeDepth := 60)

@[simp] theorem State_engineSpared_kept (s : State) (spare : Nat) (hk : Kept qq mm s) : Kept qq mm (State.engineSpared s spare) := by
  unfold State.engineSpared
  simp (maxDischargeDepth := 60) [hk]

@[simp] theorem State_spared_kept (s : State) (w : Work) (hk : Kept qq mm s) : Kept qq mm (State.spared s w) := by
  unfold State.spared
  simp (maxDischargeDepth := 60) [hk]

@[simp] theorem State_replanDone_kept (s : State) (e p : Nat) (hk : Kept qq mm s) : Kept qq mm (State.replanDone s e p) := by
  unfold State.replanDone
  simp (maxDischargeDepth := 60) [hk]

@[simp] theorem State_workDone_kept (s : State) (w : Work) (hk : Kept qq mm s) : Kept qq mm (State.workDone s w) := by
  unfold State.workDone
  (repeat' split) <;> simp (maxDischargeDepth := 60) [hk]

@[simp] theorem State_refreshed_kept (s : State) (e p : Nat) (f : VerifyFacts) (hk : Kept qq mm s) : Kept qq mm (State.refreshed s e p f) := by
  unfold State.refreshed
  dsimp only
  (repeat' split) <;> simp (maxDischargeDepth := 60) [hk]

@[simp] theorem execEraseDone_kept (engine : Nat) (moved : List (Tab Int)) (pulses : Nat) (s : State) (hk : Kept qq mm s) : KeptOut qq mm (execEraseDone engine moved pulses s) := by
  unfold execEraseDone
  dsimp only
  (repeat' split) <;> simp (maxDischargeDepth := 60) [hk]

@[simp] theorem State_pulsesFail_kept (s : State) (r : OpRun) (hk : Kept qq mm s) : Kept qq mm (State.pulsesFail s r) := by
  unfold State.pulsesFail
  simp (maxDischargeDepth := 60) [hk]

@[simp] theorem execProgramPassDone_kept (engine : Nat) (pulses : List (Tab Int)) (s : State) (hk : Kept qq mm s) : KeptOut qq mm (execProgramPassDone engine pulses s) := by
  unfold execProgramPassDone
  (repeat' split) <;> simp (maxDischargeDepth := 60) [hk]

@[simp] theorem execRelaxWaitExpire_kept (engine : Nat) (s : State) (hk : Kept qq mm s) : KeptOut qq mm (execRelaxWaitExpire engine s) := by
  unfold execRelaxWaitExpire
  (repeat' split) <;> simp (maxDischargeDepth := 60) [hk]

@[simp] theorem State_bootDrift_kept (s : State) (k d : Nat) (hk : Kept qq mm s) : Kept qq mm (State.bootDrift s k d) := by
  unfold State.bootDrift
  simp (maxDischargeDepth := 60) [hk]

@[simp] theorem State_programmed_kept (s : State) (r : OpRun) (mean8 : Nat) (f : VerifyFacts) (hk : Kept qq mm s) : Kept qq mm (State.programmed s r mean8 f) := by
  unfold State.programmed
  simp (maxDischargeDepth := 60) [hk]

@[simp] theorem execFinalVerifyDone_kept (engine : Nat) (f : VerifyFacts) (s : State) (hk : Kept qq mm s) : KeptOut qq mm (execFinalVerifyDone engine f s) := by
  unfold execFinalVerifyDone
  (repeat' split) <;> simp (maxDischargeDepth := 60) [hk]

@[simp] theorem State_actOnRead_kept (s : State) (e p : Nat) (why : UpWhy) (prio : Nat) (hk : Kept qq mm s) : Kept qq mm (State.actOnRead s e p why prio) := by
  unfold State.actOnRead
  simp (maxDischargeDepth := 60) [hk]

@[simp] theorem execDigitalLevelReadDone_kept (engine : Nat) (r : LevelRead) (s : State) (hk : Kept qq mm s) : KeptOut qq mm (execDigitalLevelReadDone engine r s) := by
  unfold execDigitalLevelReadDone
  (repeat' split) <;> simp (maxDischargeDepth := 60) [hk]

@[simp] theorem execSweepDue_kept (engine plane : Nat) (s : State) (hk : Kept qq mm s) : KeptOut qq mm (execSweepDue engine plane s) := by
  unfold execSweepDue
  simp (maxDischargeDepth := 60) [hk]

@[simp] theorem execPanelReturn_kept (engine : Nat) (s : State) (hk : Kept qq mm s) : KeptOut qq mm (execPanelReturn engine s) := by
  unfold execPanelReturn
  (repeat' split) <;> simp_all (maxDischargeDepth := 60)

@[simp] theorem execUpkeepTableWrite_kept (s : State) (hk : Kept qq mm s) : KeptOut qq mm (execUpkeepTableWrite s) := by
  unfold execUpkeepTableWrite
  simp (maxDischargeDepth := 60) [hk]

end Sys2Proof.Machine
end

