-- ==== Sys2Proof/Laws/KeptSession.lean ====
section
/-! SUPPORT. `Kept` through the operations of Machine/Session.lean. -/

namespace Sys2Proof.Machine

open Sys2Proof

variable {qq : List Instr} {mm : Marks}

@[simp] theorem State_dropHs_kept (s : State) (hsid : Nat) (hk : Kept qq mm s) : Kept qq mm (State.dropHs s hsid) := by
  unfold State.dropHs
  simp (maxDischargeDepth := 60) [hk]

@[simp] theorem State_putHs_kept (s : State) (h : Handshake) (hk : Kept qq mm s) : Kept qq mm (State.putHs s h) := by
  unfold State.putHs
  simp (maxDischargeDepth := 60) [hk]

@[simp] theorem execHandshakeRecord_kept (port addr msg session hsid frag frags : Nat) (data : List Byte) (s0 : State) (hk : Kept qq mm s0) : KeptOut qq mm (execHandshakeRecord port addr msg session hsid frag frags data s0) := by
  unfold execHandshakeRecord
  dsimp only
  (repeat' split) <;> simp (maxDischargeDepth := 60) [hk]

@[simp] theorem execOpenMsg_kept (hsid : Nat) (chain : Chain) (s : State) (hk : Kept qq mm s) : KeptOut qq mm (execOpenMsg hsid chain s) := by
  unfold execOpenMsg
  (repeat' split) <;> simp (maxDischargeDepth := 60) [hk]

@[simp] theorem execConfirm_kept (hsid : Nat) (sigOk : Bool) (s : State) (hk : Kept qq mm s) : KeptOut qq mm (execConfirm hsid sigOk s) := by
  unfold execConfirm
  (repeat' split) <;> simp (maxDischargeDepth := 60) [hk]

@[simp] theorem execHandshakeTimeout_kept (hsid : Nat) (s : State) (hk : Kept qq mm s) : KeptOut qq mm (execHandshakeTimeout hsid s) := by
  unfold execHandshakeTimeout
  simp (maxDischargeDepth := 60) [hk]

@[simp] theorem State_answer_kept (s : State) (sid : Nat) (r : Reply) (hk : Kept qq mm s) : Kept qq mm (State.answer s sid r) := by
  unfold State.answer
  simp (maxDischargeDepth := 60) [hk]

@[simp] theorem State_popCmd_kept (s : State) (sid : Nat) (p : Packet) (hk : Kept qq mm s) : Kept qq mm (State.popCmd s sid p) := by
  unfold State.popCmd
  simp (maxDischargeDepth := 60) [hk]

@[simp] theorem State_drainBad_kept (s : State) (sid : Nat) (rec_ : Nat) (hk : Kept qq mm s) : Kept qq mm (State.drainBad s sid rec_) := by
  induction rec_ generalizing s with
  | zero => simp (maxDischargeDepth := 60) [State.drainBad, hk]
  | succ n ih =>
    unfold State.drainBad
    (repeat' split) <;> simp (maxDischargeDepth := 60) [hk, ih]

@[simp] theorem State_replyAt_kept (s t : State) (sid recno port : Nat) (r : Reply) (hk : Kept qq mm t) : Kept qq mm (State.replyAt s t sid recno port r) := by
  unfold State.replyAt
  simp (maxDischargeDepth := 60) [hk]

/-- The state that a command's own rules leave is kept. -/
def CmdKept (q : List Instr) (m : Marks) (r : CmdOut) : Prop := ∀ t, r.next = some t → Kept q m t

@[simp] theorem cmdKept_read (vs : List (List Byte)) : CmdKept qq mm (.read vs) := fun _ h => by cases h

@[simp] theorem cmdKept_no (st : Status) : CmdKept qq mm (.no st) := fun _ h => by cases h

@[simp] theorem cmdKept_bad (p : Packet) (ty : Nat) : CmdKept qq mm (.bad p ty) := fun _ h => by cases h

@[simp] theorem cmdKept_done (t : State) (vs : List (List Byte)) (hk : Kept qq mm t) : CmdKept qq mm (.done t vs) :=
  fun _ h => by cases h; exact hk

@[simp] theorem cmdKept_accepted (t : State) (vs : List (List Byte)) (hk : Kept qq mm t) : CmdKept qq mm (.accepted t vs) :=
  fun _ h => by cases h; exact hk

@[simp] theorem cmdKept_none (st : Status) (d : Nat) (l : List Tlv) : CmdKept qq mm ⟨st, d, l, none⟩ := fun _ h => by cases h

@[simp] theorem cmdKept_some (st : Status) (d : Nat) (l : List Tlv) (t : State) (hk : Kept qq mm t) : CmdKept qq mm ⟨st, d, l, some t⟩ :=
  fun _ h => by cases h; exact hk

@[simp] theorem cmdKept_ite (c : Prop) [Decidable c] {a b : CmdOut} (ha : CmdKept qq mm a) (hb : CmdKept qq mm b) :
    CmdKept qq mm (if c then a else b) := by
  split <;> assumption

/-- A command keeps what its own rules keep. -/
@[simp] theorem State_runCmd_kept (s : State) (op : Nat) (wr : Bool) (sid : Nat) (f : State → Packet → CmdOut)
    (hf : ∀ t p, Kept qq mm t → CmdKept qq mm (f t p)) (hk : Kept qq mm s) : Kept qq mm (s.runCmd op wr sid f) := by
  unfold State.runCmd
  cases s.headOf op sid with
  | none => exact hk
  | some e =>
    obtain ⟨x, p⟩ := e
    have h0 := State_popCmd_kept s sid p hk
    dsimp only
    cases s.refuses x p with
    | some r => exact State_drainBad_kept _ _ _ (State_answer_kept _ _ _ h0)
    | none =>
      dsimp only
      have hh : ∀ t : State, Kept qq mm t → Kept qq mm (t.updSess sid (fun y => { y with txNext := y.txNext + 1 })) := fun t ht => by
        simp (maxDischargeDepth := 60) [ht]
      refine State_drainBad_kept _ _ _ (State_replyAt_kept _ _ _ _ _ _ ?_)
      have hb : Kept qq mm (if wr = true then (s.popCmd sid p).commit else s.popCmd sid p) := by
        simp (maxDischargeDepth := 60) [h0]
      have h1 := hf _ p (hh _ hb)
      have h2 := hf _ p (hh _ h0)
      have h3 : CmdKept qq mm (if (f ((if wr = true then (s.popCmd sid p).commit else s.popCmd sid p).updSess sid
          (fun y => { y with txNext := y.txNext + 1 })) p).st.code < 16
          then f ((if wr = true then (s.popCmd sid p).commit else s.popCmd sid p).updSess sid
            (fun y => { y with txNext := y.txNext + 1 })) p
          else f ((s.popCmd sid p).updSess sid (fun y => { y with txNext := y.txNext + 1 })) p) := cmdKept_ite _ h1 h2
      split
      · next t ht => exact h3 t ht
      · exact hh _ h0

@[simp] theorem State_takePacket_kept (s : State) (sid : Nat) (x : Session) (p : Packet) (hk : Kept qq mm s) : Kept qq mm (State.takePacket s sid x p) := by
  unfold State.takePacket
  (repeat' split) <;> simp (maxDischargeDepth := 60) [hk]

@[simp] theorem execProtectedRecord_kept (port addr session recno : Nat) (tagOk : Bool) (payload : List Byte) (s0 : State) (hk : Kept qq mm s0) : KeptOut qq mm (execProtectedRecord port addr session recno tagOk payload s0) := by
  unfold execProtectedRecord
  dsimp only
  (repeat' split) <;> simp (maxDischargeDepth := 60) [hk]

@[simp] theorem execSessionIdleTimeout_kept (sid : Nat) (s : State) (hk : Kept qq mm s) : KeptOut qq mm (execSessionIdleTimeout sid s) := by
  unfold execSessionIdleTimeout
  simp (maxDischargeDepth := 60) [hk]

@[simp] theorem State_resendAll_kept (s : State) (sid : Nat) (rec_ : List Notify) (hk : Kept qq mm s) : Kept qq mm (State.resendAll s sid rec_) := by
  induction rec_ generalizing s with
  | nil => simp (maxDischargeDepth := 60) [State.resendAll, hk]
  | cons y ys ih =>
    simp (maxDischargeDepth := 60) [State.resendAll, hk, ih]

@[simp] theorem execNotifyResend_kept (sid : Nat) (s : State) (hk : Kept qq mm s) : KeptOut qq mm (execNotifyResend sid s) := by
  unfold execNotifyResend
  (repeat' split) <;> simp (maxDischargeDepth := 60) [hk]

@[simp] theorem execPrpSupervision_kept (s : State) (hk : Kept qq mm s) : KeptOut qq mm (execPrpSupervision s) := by
  unfold execPrpSupervision
  simp (maxDischargeDepth := 60) [hk]

@[simp] theorem execKeepalive_kept (sid : Nat) (s : State) (hk : Kept qq mm s) : KeptOut qq mm (execKeepalive sid s) := by
  unfold execKeepalive
  refine keptOut_next.2 (State_runCmd_kept _ _ _ _ _ (fun t p ht => ?_) hk)
  try dsimp only
  repeat' (first | with_reducible assumption | with_reducible refine cmdKept_ite _ ?_ ?_ | with_reducible refine keptOut_ite _ ?_ ?_ | with_reducible refine kept_ite _ ?_ ?_ | with_reducible refine kept_foldl _ (fun s x hs => ?_) _ ?_ | with_reducible refine kept_each _ (fun s x hs => ?_) _ ?_ | split | (with_reducible refine (kept_mk ..).2 (keptAt_of ?_)) | with_reducible refine keptOut_next.2 ?_ | with_reducible refine State_runCmd_kept _ _ _ _ _ (fun t p ht => ?_) ?_ | with_reducible refine State_onFrame_kept _ _ _ _ _ (fun t ht => ?_) ?_ | with_reducible refine State_sendOnce_kept _ _ _ _ _ _ (fun t ht => ?_) ?_ | with_reducible refine State_kennelCmd_kept _ _ _ _ _ (fun t ht => ?_) ?_ | with_reducible refine State_kennelBoth_kept _ _ _ _ (fun t ht => ?_) ?_ | with_reducible refine State_kennelRead_kept _ _ (fun t ht => ?_) ?_ | with_reducible refine State_kennelSet_kept _ _ _ (fun t ht => ?_) ?_ | with_reducible refine State_kennelBootCmd_kept _ _ _ (fun t ht => ?_) ?_ | with_reducible refine koutKept_ite _ ?_ ?_ | with_reducible apply koutKept_some | with_reducible apply koutKept_none | with_reducible exact koutKept_bad | with_reducible apply koutKept_of | with_reducible apply cmdKept_done | with_reducible apply cmdKept_accepted | with_reducible exact cmdKept_no _ | with_reducible exact cmdKept_bad _ _ | with_reducible exact cmdKept_read _ |  (simp (maxDischargeDepth := 60) [*]; done) | dsimp only)

@[simp] theorem execClose_kept (sid : Nat) (s : State) (hk : Kept qq mm s) : KeptOut qq mm (execClose sid s) := by
  unfold execClose
  refine keptOut_next.2 (State_runCmd_kept _ _ _ _ _ (fun t p ht => ?_) hk)
  try dsimp only
  repeat' (first | with_reducible assumption | with_reducible refine cmdKept_ite _ ?_ ?_ | with_reducible refine keptOut_ite _ ?_ ?_ | with_reducible refine kept_ite _ ?_ ?_ | with_reducible refine kept_foldl _ (fun s x hs => ?_) _ ?_ | with_reducible refine kept_each _ (fun s x hs => ?_) _ ?_ | with_reducible apply State_endSession_kept | split | (with_reducible refine (kept_mk ..).2 (keptAt_of ?_)) | with_reducible refine keptOut_next.2 ?_ | with_reducible refine State_runCmd_kept _ _ _ _ _ (fun t p ht => ?_) ?_ | with_reducible refine State_onFrame_kept _ _ _ _ _ (fun t ht => ?_) ?_ | with_reducible refine State_sendOnce_kept _ _ _ _ _ _ (fun t ht => ?_) ?_ | with_reducible refine State_kennelCmd_kept _ _ _ _ _ (fun t ht => ?_) ?_ | with_reducible refine State_kennelBoth_kept _ _ _ _ (fun t ht => ?_) ?_ | with_reducible refine State_kennelRead_kept _ _ (fun t ht => ?_) ?_ | with_reducible refine State_kennelSet_kept _ _ _ (fun t ht => ?_) ?_ | with_reducible refine State_kennelBootCmd_kept _ _ _ (fun t ht => ?_) ?_ | with_reducible refine koutKept_ite _ ?_ ?_ | with_reducible apply koutKept_some | with_reducible apply koutKept_none | with_reducible exact koutKept_bad | with_reducible apply koutKept_of | with_reducible apply cmdKept_done | with_reducible apply cmdKept_accepted | with_reducible exact cmdKept_no _ | with_reducible exact cmdKept_bad _ _ | with_reducible exact cmdKept_read _ |  (simp (maxDischargeDepth := 60) [*]; done) | dsimp only)

@[simp] theorem execNotifyAck_kept (sid : Nat) (s : State) (hk : Kept qq mm s) : KeptOut qq mm (execNotifyAck sid s) := by
  unfold execNotifyAck
  refine keptOut_next.2 (State_runCmd_kept _ _ _ _ _ (fun t p ht => ?_) hk)
  try dsimp only
  repeat' (first | with_reducible assumption | with_reducible refine cmdKept_ite _ ?_ ?_ | with_reducible refine keptOut_ite _ ?_ ?_ | with_reducible refine kept_ite _ ?_ ?_ | with_reducible refine kept_foldl _ (fun s x hs => ?_) _ ?_ | with_reducible refine kept_each _ (fun s x hs => ?_) _ ?_ | with_reducible apply State_updSess_kept | split | (with_reducible refine (kept_mk ..).2 (keptAt_of ?_)) | with_reducible refine keptOut_next.2 ?_ | with_reducible refine State_runCmd_kept _ _ _ _ _ (fun t p ht => ?_) ?_ | with_reducible refine State_onFrame_kept _ _ _ _ _ (fun t ht => ?_) ?_ | with_reducible refine State_sendOnce_kept _ _ _ _ _ _ (fun t ht => ?_) ?_ | with_reducible refine State_kennelCmd_kept _ _ _ _ _ (fun t ht => ?_) ?_ | with_reducible refine State_kennelBoth_kept _ _ _ _ (fun t ht => ?_) ?_ | with_reducible refine State_kennelRead_kept _ _ (fun t ht => ?_) ?_ | with_reducible refine State_kennelSet_kept _ _ _ (fun t ht => ?_) ?_ | with_reducible refine State_kennelBootCmd_kept _ _ _ (fun t ht => ?_) ?_ | with_reducible refine koutKept_ite _ ?_ ?_ | with_reducible apply koutKept_some | with_reducible apply koutKept_none | with_reducible exact koutKept_bad | with_reducible apply koutKept_of | with_reducible apply cmdKept_done | with_reducible apply cmdKept_accepted | with_reducible exact cmdKept_no _ | with_reducible exact cmdKept_bad _ _ | with_reducible exact cmdKept_read _ |  (simp (maxDischargeDepth := 60) [*]; done) | dsimp only)

@[simp] theorem execSessionInfo_kept (sid : Nat) (s : State) (hk : Kept qq mm s) : KeptOut qq mm (execSessionInfo sid s) := by
  unfold execSessionInfo
  refine keptOut_next.2 (State_runCmd_kept _ _ _ _ _ (fun t p ht => ?_) hk)
  try dsimp only
  repeat' (first | with_reducible assumption | with_reducible refine cmdKept_ite _ ?_ ?_ | with_reducible refine keptOut_ite _ ?_ ?_ | with_reducible refine kept_ite _ ?_ ?_ | with_reducible refine kept_foldl _ (fun s x hs => ?_) _ ?_ | with_reducible refine kept_each _ (fun s x hs => ?_) _ ?_ | split | (with_reducible refine (kept_mk ..).2 (keptAt_of ?_)) | with_reducible refine keptOut_next.2 ?_ | with_reducible refine State_runCmd_kept _ _ _ _ _ (fun t p ht => ?_) ?_ | with_reducible refine State_onFrame_kept _ _ _ _ _ (fun t ht => ?_) ?_ | with_reducible refine State_sendOnce_kept _ _ _ _ _ _ (fun t ht => ?_) ?_ | with_reducible refine State_kennelCmd_kept _ _ _ _ _ (fun t ht => ?_) ?_ | with_reducible refine State_kennelBoth_kept _ _ _ _ (fun t ht => ?_) ?_ | with_reducible refine State_kennelRead_kept _ _ (fun t ht => ?_) ?_ | with_reducible refine State_kennelSet_kept _ _ _ (fun t ht => ?_) ?_ | with_reducible refine State_kennelBootCmd_kept _ _ _ (fun t ht => ?_) ?_ | with_reducible refine koutKept_ite _ ?_ ?_ | with_reducible apply koutKept_some | with_reducible apply koutKept_none | with_reducible exact koutKept_bad | with_reducible apply koutKept_of | with_reducible apply cmdKept_done | with_reducible apply cmdKept_accepted | with_reducible exact cmdKept_no _ | with_reducible exact cmdKept_bad _ _ | with_reducible exact cmdKept_read _ |  (simp (maxDischargeDepth := 60) [*]; done) | dsimp only)

end Sys2Proof.Machine
end

