-- ==== Sys2Proof/Laws/KeptImageChecks.lean ====
section
/-! SUPPORT. `Kept` through the operations of Machine/ImageChecks.lean. -/

namespace Sys2Proof.Machine

open Sys2Proof

variable {qq : List Instr} {mm : Marks}

end Sys2Proof.Machine
end

