-- ==== Sys2Proof/Laws/KeptImages.lean ====
section
/-! SUPPORT. `Kept` through the operations of Machine/Images.lean. -/

namespace Sys2Proof.Machine

open Sys2Proof

variable {qq : List Instr} {mm : Marks}

@[simp] theorem State_placePrograms_kept (s : State) (i : Image) (hk : Kept qq mm s) : Kept qq mm (State.placePrograms s i) := by
  unfold State.placePrograms
  (repeat' split) <;> simp_all (maxDischargeDepth := 60)

@[simp] theorem State_placeBlocks_kept (s : State) (i : Image) (hk : Kept qq mm s) : Kept qq mm (State.placeBlocks s i) := by
  unfold State.placeBlocks
  simp (maxDischargeDepth := 60) [hk]

@[simp] theorem State_setDefaults_kept (s : State) (i : Image) (hk : Kept qq mm s) : Kept qq mm (State.setDefaults s i) := by
  unfold State.setDefaults
  (repeat' split) <;> simp_all (maxDischargeDepth := 60)

@[simp] theorem State_placeHistory_kept (s : State) (i : Image) (keep : Bool) (hk : Kept qq mm s) : Kept qq mm (State.placeHistory s i keep) := by
  unfold State.placeHistory
  simp (maxDischargeDepth := 60) [hk]

@[simp] theorem State_putFiles_kept (s : State) (l : List (Space × Nat × List Byte)) (hk : Kept qq mm s) : Kept qq mm (State.putFiles s l) := by
  unfold State.putFiles
  simp (maxDischargeDepth := 60) [hk]

@[simp] theorem State_placeFiles_kept (s : State) (i : Image) (here : Nat → Bool) (hk : Kept qq mm s) : Kept qq mm (State.placeFiles s i here) := by
  unfold State.placeFiles
  (repeat' split) <;> simp_all (maxDischargeDepth := 60)

@[simp] theorem State_placeImage_kept (s : State) (i : Image) (hk : Kept qq mm s) : Kept qq mm (State.placeImage s i) := by
  unfold State.placeImage
  simp (maxDischargeDepth := 60) [hk]

@[simp] theorem execBulk_kept (sid : Nat) (s : State) (hk : Kept qq mm s) : KeptOut qq mm (execBulk sid s) := by
  unfold execBulk
  (repeat' split) <;> simp (maxDischargeDepth := 60) [hk]

@[simp] theorem State_setSlot_kept (s : State) (n state : Nat) (img : Option Image) (hk : Kept qq mm s) : Kept qq mm (State.setSlot s n state img) := by
  unfold State.setSlot
  simp (maxDischargeDepth := 60) [hk]

@[simp] theorem execImgBegin_kept (sid : Nat) (s : State) (hk : Kept qq mm s) : KeptOut qq mm (execImgBegin sid s) := by
  unfold execImgBegin
  refine keptOut_next.2 (State_runCmd_kept _ _ _ _ _ (fun t p ht => ?_) hk)
  try dsimp only
  repeat' (first | with_reducible assumption | with_reducible refine cmdKept_ite _ ?_ ?_ | with_reducible refine keptOut_ite _ ?_ ?_ | with_reducible refine kept_ite _ ?_ ?_ | with_reducible refine kept_foldl _ (fun s x hs => ?_) _ ?_ | with_reducible refine kept_each _ (fun s x hs => ?_) _ ?_ | with_reducible apply State_setSlot_kept | split | (with_reducible refine (kept_mk ..).2 (keptAt_of ?_)) | with_reducible refine keptOut_next.2 ?_ | with_reducible refine State_runCmd_kept _ _ _ _ _ (fun t p ht => ?_) ?_ | with_reducible refine State_onFrame_kept _ _ _ _ _ (fun t ht => ?_) ?_ | with_reducible refine State_sendOnce_kept _ _ _ _ _ _ (fun t ht => ?_) ?_ | with_reducible refine State_kennelCmd_kept _ _ _ _ _ (fun t ht => ?_) ?_ | with_reducible refine State_kennelBoth_kept _ _ _ _ (fun t ht => ?_) ?_ | with_reducible refine State_kennelRead_kept _ _ (fun t ht => ?_) ?_ | with_reducible refine State_kennelSet_kept _ _ _ (fun t ht => ?_) ?_ | with_reducible refine State_kennelBootCmd_kept _ _ _ (fun t ht => ?_) ?_ | with_reducible refine koutKept_ite _ ?_ ?_ | with_reducible apply koutKept_some | with_reducible apply koutKept_none | with_reducible exact koutKept_bad | with_reducible apply koutKept_of | with_reducible apply cmdKept_done | with_reducible apply cmdKept_accepted | with_reducible exact cmdKept_no _ | with_reducible exact cmdKept_bad _ _ | with_reducible exact cmdKept_read _ |  (simp (maxDischargeDepth := 60) [*]; done) | dsimp only)

@[simp] theorem execImgEnd_kept (sid : Nat) (s : State) (hk : Kept qq mm s) : KeptOut qq mm (execImgEnd sid s) := by
  unfold execImgEnd
  refine keptOut_next.2 (State_runCmd_kept _ _ _ _ _ (fun t p ht => ?_) hk)
  try dsimp only
  repeat' (first | with_reducible assumption | with_reducible refine cmdKept_ite _ ?_ ?_ | with_reducible refine keptOut_ite _ ?_ ?_ | with_reducible refine kept_ite _ ?_ ?_ | with_reducible refine kept_foldl _ (fun s x hs => ?_) _ ?_ | with_reducible refine kept_each _ (fun s x hs => ?_) _ ?_ | split | (with_reducible refine (kept_mk ..).2 (keptAt_of ?_)) | with_reducible refine keptOut_next.2 ?_ | with_reducible refine State_runCmd_kept _ _ _ _ _ (fun t p ht => ?_) ?_ | with_reducible refine State_onFrame_kept _ _ _ _ _ (fun t ht => ?_) ?_ | with_reducible refine State_sendOnce_kept _ _ _ _ _ _ (fun t ht => ?_) ?_ | with_reducible refine State_kennelCmd_kept _ _ _ _ _ (fun t ht => ?_) ?_ | with_reducible refine State_kennelBoth_kept _ _ _ _ (fun t ht => ?_) ?_ | with_reducible refine State_kennelRead_kept _ _ (fun t ht => ?_) ?_ | with_reducible refine State_kennelSet_kept _ _ _ (fun t ht => ?_) ?_ | with_reducible refine State_kennelBootCmd_kept _ _ _ (fun t ht => ?_) ?_ | with_reducible refine koutKept_ite _ ?_ ?_ | with_reducible apply koutKept_some | with_reducible apply koutKept_none | with_reducible exact koutKept_bad | with_reducible apply koutKept_of | with_reducible apply cmdKept_done | with_reducible apply cmdKept_accepted | with_reducible exact cmdKept_no _ | with_reducible exact cmdKept_bad _ _ | with_reducible exact cmdKept_read _ |  (simp (maxDischargeDepth := 60) [*]; done) | dsimp only)

@[simp] theorem execImageValidationDone_kept (given : Image) (s : State) (hk : Kept qq mm s) : KeptOut qq mm (execImageValidationDone given s) := by
  unfold execImageValidationDone
  (repeat' split) <;> simp (maxDischargeDepth := 60) [hk]

@[simp] theorem execImgAbort_kept (sid : Nat) (s : State) (hk : Kept qq mm s) : KeptOut qq mm (execImgAbort sid s) := by
  unfold execImgAbort
  refine keptOut_next.2 (State_runCmd_kept _ _ _ _ _ (fun t p ht => ?_) hk)
  try dsimp only
  repeat' (first | with_reducible assumption | with_reducible refine cmdKept_ite _ ?_ ?_ | with_reducible refine keptOut_ite _ ?_ ?_ | with_reducible refine kept_ite _ ?_ ?_ | with_reducible refine kept_foldl _ (fun s x hs => ?_) _ ?_ | with_reducible refine kept_each _ (fun s x hs => ?_) _ ?_ | with_reducible apply State_setSlot_kept | split | (with_reducible refine (kept_mk ..).2 (keptAt_of ?_)) | with_reducible refine keptOut_next.2 ?_ | with_reducible refine State_runCmd_kept _ _ _ _ _ (fun t p ht => ?_) ?_ | with_reducible refine State_onFrame_kept _ _ _ _ _ (fun t ht => ?_) ?_ | with_reducible refine State_sendOnce_kept _ _ _ _ _ _ (fun t ht => ?_) ?_ | with_reducible refine State_kennelCmd_kept _ _ _ _ _ (fun t ht => ?_) ?_ | with_reducible refine State_kennelBoth_kept _ _ _ _ (fun t ht => ?_) ?_ | with_reducible refine State_kennelRead_kept _ _ (fun t ht => ?_) ?_ | with_reducible refine State_kennelSet_kept _ _ _ (fun t ht => ?_) ?_ | with_reducible refine State_kennelBootCmd_kept _ _ _ (fun t ht => ?_) ?_ | with_reducible refine koutKept_ite _ ?_ ?_ | with_reducible apply koutKept_some | with_reducible apply koutKept_none | with_reducible exact koutKept_bad | with_reducible apply koutKept_of | with_reducible apply cmdKept_done | with_reducible apply cmdKept_accepted | with_reducible exact cmdKept_no _ | with_reducible exact cmdKept_bad _ _ | with_reducible exact cmdKept_read _ |  (simp (maxDischargeDepth := 60) [*]; done) | dsimp only)

@[simp] theorem execImgInfo_kept (sid : Nat) (s : State) (hk : Kept qq mm s) : KeptOut qq mm (execImgInfo sid s) := by
  unfold execImgInfo
  refine keptOut_next.2 (State_runCmd_kept _ _ _ _ _ (fun t p ht => ?_) hk)
  try dsimp only
  repeat' (first | with_reducible assumption | with_reducible refine cmdKept_ite _ ?_ ?_ | with_reducible refine keptOut_ite _ ?_ ?_ | with_reducible refine kept_ite _ ?_ ?_ | with_reducible refine kept_foldl _ (fun s x hs => ?_) _ ?_ | with_reducible refine kept_each _ (fun s x hs => ?_) _ ?_ | split | (with_reducible refine (kept_mk ..).2 (keptAt_of ?_)) | with_reducible refine keptOut_next.2 ?_ | with_reducible refine State_runCmd_kept _ _ _ _ _ (fun t p ht => ?_) ?_ | with_reducible refine State_onFrame_kept _ _ _ _ _ (fun t ht => ?_) ?_ | with_reducible refine State_sendOnce_kept _ _ _ _ _ _ (fun t ht => ?_) ?_ | with_reducible refine State_kennelCmd_kept _ _ _ _ _ (fun t ht => ?_) ?_ | with_reducible refine State_kennelBoth_kept _ _ _ _ (fun t ht => ?_) ?_ | with_reducible refine State_kennelRead_kept _ _ (fun t ht => ?_) ?_ | with_reducible refine State_kennelSet_kept _ _ _ (fun t ht => ?_) ?_ | with_reducible refine State_kennelBootCmd_kept _ _ _ (fun t ht => ?_) ?_ | with_reducible refine koutKept_ite _ ?_ ?_ | with_reducible apply koutKept_some | with_reducible apply koutKept_none | with_reducible exact koutKept_bad | with_reducible apply koutKept_of | with_reducible apply cmdKept_done | with_reducible apply cmdKept_accepted | with_reducible exact cmdKept_no _ | with_reducible exact cmdKept_bad _ _ | with_reducible exact cmdKept_read _ |  (simp (maxDischargeDepth := 60) [*]; done) | dsimp only)

@[simp] theorem State_copyImage_kept (s : State) (hk : Kept qq mm s) : Kept qq mm (State.copyImage s) := by
  unfold State.copyImage
  (repeat' split) <;> simp_all (maxDischargeDepth := 60)

@[simp] theorem State_beginSwap_kept (s : State) (i : Image) (who : Option (Nat × Nat)) (hk : Kept qq mm s) : Kept qq mm (State.beginSwap s i who) := by
  unfold State.beginSwap
  simp (maxDischargeDepth := 60) [hk]

@[simp] theorem execSwap_kept (sid : Nat) (s : State) (hk : Kept qq mm s) : KeptOut qq mm (execSwap sid s) := by
  unfold execSwap
  refine keptOut_next.2 (State_runCmd_kept _ _ _ _ _ (fun t p ht => ?_) hk)
  try dsimp only
  repeat' (first | with_reducible assumption | with_reducible refine cmdKept_ite _ ?_ ?_ | with_reducible refine keptOut_ite _ ?_ ?_ | with_reducible refine kept_ite _ ?_ ?_ | with_reducible refine kept_foldl _ (fun s x hs => ?_) _ ?_ | with_reducible refine kept_each _ (fun s x hs => ?_) _ ?_ | with_reducible apply State_beginSwap_kept | split | (with_reducible refine (kept_mk ..).2 (keptAt_of ?_)) | with_reducible refine keptOut_next.2 ?_ | with_reducible refine State_runCmd_kept _ _ _ _ _ (fun t p ht => ?_) ?_ | with_reducible refine State_onFrame_kept _ _ _ _ _ (fun t ht => ?_) ?_ | with_reducible refine State_sendOnce_kept _ _ _ _ _ _ (fun t ht => ?_) ?_ | with_reducible refine State_kennelCmd_kept _ _ _ _ _ (fun t ht => ?_) ?_ | with_reducible refine State_kennelBoth_kept _ _ _ _ (fun t ht => ?_) ?_ | with_reducible refine State_kennelRead_kept _ _ (fun t ht => ?_) ?_ | with_reducible refine State_kennelSet_kept _ _ _ (fun t ht => ?_) ?_ | with_reducible refine State_kennelBootCmd_kept _ _ _ (fun t ht => ?_) ?_ | with_reducible refine koutKept_ite _ ?_ ?_ | with_reducible apply koutKept_some | with_reducible apply koutKept_none | with_reducible exact koutKept_bad | with_reducible apply koutKept_of | with_reducible apply cmdKept_done | with_reducible apply cmdKept_accepted | with_reducible exact cmdKept_no _ | with_reducible exact cmdKept_bad _ _ | with_reducible exact cmdKept_read _ |  (simp (maxDischargeDepth := 60) [*]; done) | dsimp only)

@[simp] theorem State_trySwapAt_kept (s : State) (hk : Kept qq mm s) : Kept qq mm (State.trySwapAt s) := by
  unfold State.trySwapAt
  (repeat' split) <;> simp (maxDischargeDepth := 60) [hk]

@[simp] theorem State_swapReadySent_kept (s : State) (hk : Kept qq mm s) : Kept qq mm (State.swapReadySent s) := by
  unfold State.swapReadySent
  (repeat' split) <;> simp_all (maxDischargeDepth := 60)

@[simp] theorem execSwapStep4Done_kept (s : State) (hk : Kept qq mm s) : KeptOut qq mm (execSwapStep4Done s) := by
  unfold execSwapStep4Done
  (repeat' split) <;> simp (maxDischargeDepth := 60) [hk]

@[simp] theorem State_releaseRules_kept (s : State) (i : Image) (hk : Kept qq mm s) : Kept qq mm (State.releaseRules s i) := by
  unfold State.releaseRules
  try dsimp only
  repeat' (first | assumption | (simp (maxDischargeDepth := 60) [*]; done) | refine kept_foldl _ (fun s x hs => ?_) _ ?_ | refine kept_each _ (fun s x hs => ?_) _ ?_ | split | dsimp only)

@[simp] theorem State_rebindCtx_kept (s : State) (i : Image) (c : Nat) (hk : Kept qq mm s) : Kept qq mm (s.rebindCtx i c) := by
  unfold State.rebindCtx
  split
  · exact State_endCtx_kept _ _ hk
  · next m _ =>
    have h1 : Kept qq mm ((((s.freeThreads c).unbindRings c).endCounters c).updCtx c (fun x =>
      { x with quota := m.quota, estimate := 10 * m.drawW, state := if x.state = .shed then .shed else .waiting, inIter := false, poisoned := false })) := by
      simp (maxDischargeDepth := 60) [hk]
    revert h1
    generalize (((s.freeThreads c).unbindRings c).endCounters c).updCtx c (fun x =>
      { x with quota := m.quota, estimate := 10 * m.drawW, state := if x.state = .shed then .shed else .waiting, inIter := false, poisoned := false }) = s1
    intro h1
    dsimp only
    split
    · next s2 h2 =>
      have h3 := State_bindCtx_kept _ _ _ _ _ h1 h2
      split
      · exact State_zeroState_kept _ _ h3
      · exact h3
    · exact State_faultCtx_kept _ _ _ _ _ _ h1

@[simp] theorem State_clearScales_kept (s : State) (hk : Kept qq mm s) : Kept qq mm (State.clearScales s) := by
  unfold State.clearScales
  simp (maxDischargeDepth := 60) [hk]

@[simp] theorem State_newFront_kept (s : State) (hk : Kept qq mm s) : Kept qq mm (State.newFront s) := by
  unfold State.newFront
  simp (maxDischargeDepth := 60) [hk]

@[simp] theorem State_swapNow_kept (s : State) (hk : Kept qq mm s) : Kept qq mm (State.swapNow s) := by
  unfold State.swapNow
  (repeat' split) <;> simp_all (maxDischargeDepth := 60)

@[simp] theorem execSwapBoundary_kept (s : State) (hk : Kept qq mm s) : KeptOut qq mm (execSwapBoundary s) := by
  unfold execSwapBoundary
  (repeat' split) <;> simp (maxDischargeDepth := 60) [hk]

@[simp] theorem State_swapFails_kept (s : State) (hk : Kept qq mm s) : Kept qq mm (State.swapFails s) := by
  unfold State.swapFails
  (repeat' split) <;> simp (maxDischargeDepth := 60) [hk]

@[simp] theorem execSwapStatus_kept (sid : Nat) (s : State) (hk : Kept qq mm s) : KeptOut qq mm (execSwapStatus sid s) := by
  unfold execSwapStatus
  refine keptOut_next.2 (State_runCmd_kept _ _ _ _ _ (fun t p ht => ?_) hk)
  try dsimp only
  repeat' (first | with_reducible assumption | with_reducible refine cmdKept_ite _ ?_ ?_ | with_reducible refine keptOut_ite _ ?_ ?_ | with_reducible refine kept_ite _ ?_ ?_ | with_reducible refine kept_foldl _ (fun s x hs => ?_) _ ?_ | with_reducible refine kept_each _ (fun s x hs => ?_) _ ?_ | split | (with_reducible refine (kept_mk ..).2 (keptAt_of ?_)) | with_reducible refine keptOut_next.2 ?_ | with_reducible refine State_runCmd_kept _ _ _ _ _ (fun t p ht => ?_) ?_ | with_reducible refine State_onFrame_kept _ _ _ _ _ (fun t ht => ?_) ?_ | with_reducible refine State_sendOnce_kept _ _ _ _ _ _ (fun t ht => ?_) ?_ | with_reducible refine State_kennelCmd_kept _ _ _ _ _ (fun t ht => ?_) ?_ | with_reducible refine State_kennelBoth_kept _ _ _ _ (fun t ht => ?_) ?_ | with_reducible refine State_kennelRead_kept _ _ (fun t ht => ?_) ?_ | with_reducible refine State_kennelSet_kept _ _ _ (fun t ht => ?_) ?_ | with_reducible refine State_kennelBootCmd_kept _ _ _ (fun t ht => ?_) ?_ | with_reducible refine koutKept_ite _ ?_ ?_ | with_reducible apply koutKept_some | with_reducible apply koutKept_none | with_reducible exact koutKept_bad | with_reducible apply koutKept_of | with_reducible apply cmdKept_done | with_reducible apply cmdKept_accepted | with_reducible exact cmdKept_no _ | with_reducible exact cmdKept_bad _ _ | with_reducible exact cmdKept_read _ |  (simp (maxDischargeDepth := 60) [*]; done) | dsimp only)

@[simp] theorem execMemberRead_kept (sid : Nat) (s : State) (hk : Kept qq mm s) : KeptOut qq mm (execMemberRead sid s) := by
  unfold execMemberRead
  refine keptOut_next.2 (State_runCmd_kept _ _ _ _ _ (fun t p ht => ?_) hk)
  try dsimp only
  repeat' (first | with_reducible assumption | with_reducible refine cmdKept_ite _ ?_ ?_ | with_reducible refine keptOut_ite _ ?_ ?_ | with_reducible refine kept_ite _ ?_ ?_ | with_reducible refine kept_foldl _ (fun s x hs => ?_) _ ?_ | with_reducible refine kept_each _ (fun s x hs => ?_) _ ?_ | split | (with_reducible refine (kept_mk ..).2 (keptAt_of ?_)) | with_reducible refine keptOut_next.2 ?_ | with_reducible refine State_runCmd_kept _ _ _ _ _ (fun t p ht => ?_) ?_ | with_reducible refine State_onFrame_kept _ _ _ _ _ (fun t ht => ?_) ?_ | with_reducible refine State_sendOnce_kept _ _ _ _ _ _ (fun t ht => ?_) ?_ | with_reducible refine State_kennelCmd_kept _ _ _ _ _ (fun t ht => ?_) ?_ | with_reducible refine State_kennelBoth_kept _ _ _ _ (fun t ht => ?_) ?_ | with_reducible refine State_kennelRead_kept _ _ (fun t ht => ?_) ?_ | with_reducible refine State_kennelSet_kept _ _ _ (fun t ht => ?_) ?_ | with_reducible refine State_kennelBootCmd_kept _ _ _ (fun t ht => ?_) ?_ | with_reducible refine koutKept_ite _ ?_ ?_ | with_reducible apply koutKept_some | with_reducible apply koutKept_none | with_reducible exact koutKept_bad | with_reducible apply koutKept_of | with_reducible apply cmdKept_done | with_reducible apply cmdKept_accepted | with_reducible exact cmdKept_no _ | with_reducible exact cmdKept_bad _ _ | with_reducible exact cmdKept_read _ |  (simp (maxDischargeDepth := 60) [*]; done) | dsimp only)

end Sys2Proof.Machine
end

