-- ==== Sys2Proof/Laws/KeptPower.lean ====
section
/-! SUPPORT. `Kept` through the operations of Machine/Power.lean. -/

namespace Sys2Proof.Machine

open Sys2Proof

variable {qq : List Instr} {mm : Marks}

@[simp] theorem State_updFeed_kept (s : State) (f : FeedId) (g : Feed → Feed) (hk : Kept qq mm s) : Kept qq mm (State.updFeed s f g) := by
  unfold State.updFeed
  (repeat' split) <;> simp (maxDischargeDepth := 60) [hk]

@[simp] theorem execFeedExcursion_kept (f : FeedId) (mv : Int) (s : State) (hk : Kept qq mm s) : KeptOut qq mm (execFeedExcursion f mv s) := by
  unfold execFeedExcursion
  simp (maxDischargeDepth := 60) [hk]

@[simp] theorem State_gateAll_kept (s : State) (hk : Kept qq mm s) : Kept qq mm (State.gateAll s) := by
  unfold State.gateAll
  simp (maxDischargeDepth := 60) [hk]

@[simp] theorem State_gaspWrite_kept (s : State) (hk : Kept qq mm s) : Kept qq mm (State.gaspWrite s) := by
  unfold State.gaspWrite
  simp (maxDischargeDepth := 60) [hk]

@[simp] theorem State_gaspActions_kept (s : State) (hk : Kept qq mm s) : Kept qq mm (State.gaspActions s) := by
  unfold State.gaspActions
  simp (maxDischargeDepth := 60) [hk]

@[simp] theorem State_lastGasp_kept (s : State) (hk : Kept qq mm s) : Kept qq mm (State.lastGasp s) := by
  unfold State.lastGasp
  simp (maxDischargeDepth := 60) [hk]

@[simp] theorem State_switchTo_kept (s : State) (f : FeedId) (g : Supply → Supply) (hk : Kept qq mm s) : Kept qq mm (State.switchTo s f g) := by
  unfold State.switchTo
  simp (maxDischargeDepth := 60) [hk]

@[simp] theorem State_transfer_kept (s : State) (hk : Kept qq mm s) : Kept qq mm (State.transfer s) := by
  unfold State.transfer
  simp (maxDischargeDepth := 60) [hk]

@[simp] theorem State_backToMain_kept (s : State) (hk : Kept qq mm s) : Kept qq mm (State.backToMain s) := by
  unfold State.backToMain
  simp (maxDischargeDepth := 60) [hk]

@[simp] theorem execFeedOut_kept (f : FeedId) (s : State) (hk : Kept qq mm s) : KeptOut qq mm (execFeedOut f s) := by
  unfold execFeedOut
  (repeat' split) <;> simp (maxDischargeDepth := 60) [hk]

@[simp] theorem execFeedAvailable_kept (f : FeedId) (s : State) (hk : Kept qq mm s) : KeptOut qq mm (execFeedAvailable f s) := by
  unfold execFeedAvailable
  simp (maxDischargeDepth := 60) [hk]

@[simp] theorem execMainReturnQualified_kept (s : State) (hk : Kept qq mm s) : KeptOut qq mm (execMainReturnQualified s) := by
  unfold execMainReturnQualified
  simp (maxDischargeDepth := 60) [hk]

@[simp] theorem State_powerGone_kept (s0 : State) (hk : Kept qq mm s0) : Kept qq mm (State.powerGone s0) := by
  unfold State.powerGone
  simp (maxDischargeDepth := 60) [hk]

@[simp] theorem execLastGaspEnd_kept (s : State) (hk : Kept qq mm s) : KeptOut qq mm (execLastGaspEnd s) := by
  unfold execLastGaspEnd
  simp (maxDischargeDepth := 60) [hk]

@[simp] theorem execConverterFault_kept (s : State) (hk : Kept qq mm s) : KeptOut qq mm (execConverterFault s) := by
  unfold execConverterFault
  simp (maxDischargeDepth := 60) [hk]

@[simp] theorem State_holdTcxo_kept (s : State) (was : Phase) (hk : Kept qq mm s) : Kept qq mm (State.holdTcxo s was) := by
  unfold State.holdTcxo
  simp (maxDischargeDepth := 60) [hk]

@[simp] theorem execTcxoFail_kept (s : State) (hk : Kept qq mm s) : KeptOut qq mm (execTcxoFail s) := by
  unfold execTcxoFail
  simp (maxDischargeDepth := 60) [hk]

@[simp] theorem execHoldupMeasure_kept (mj : Nat) (s : State) (hk : Kept qq mm s) : KeptOut qq mm (execHoldupMeasure mj s) := by
  unfold execHoldupMeasure
  simp (maxDischargeDepth := 60) [hk]

@[simp] theorem execLockstepMismatch_kept (s : State) (hk : Kept qq mm s) : KeptOut qq mm (execLockstepMismatch s) := by
  unfold execLockstepMismatch
  simp (maxDischargeDepth := 60) [hk]

@[simp] theorem execShepherdWatchdogExpire_kept (s : State) (hk : Kept qq mm s) : KeptOut qq mm (execShepherdWatchdogExpire s) := by
  unfold execShepherdWatchdogExpire
  simp (maxDischargeDepth := 60) [hk]

@[simp] theorem State_updPll_kept (s : State) (n : Nat) (f : BasePll → BasePll) (hk : Kept qq mm s) : Kept qq mm (State.updPll s n f) := by
  unfold State.updPll
  simp (maxDischargeDepth := 60) [hk]

@[simp] theorem execPllLock_kept (p : Pll) (s : State) (hk : Kept qq mm s) : KeptOut qq mm (execPllLock p s) := by
  unfold execPllLock
  (repeat' split) <;> simp (maxDischargeDepth := 60) [hk]

@[simp] theorem State_stackOff_kept (s : State) (k : Nat) (hk : Kept qq mm s) : Kept qq mm (State.stackOff s k) := by
  unfold State.stackOff
  simp (maxDischargeDepth := 60) [hk]

@[simp] theorem State_stackDead_kept (s : State) (k : Nat) (hk : Kept qq mm s) : Kept qq mm (State.stackDead s k) := by
  unfold State.stackDead
  (repeat' split) <;> simp_all (maxDischargeDepth := 60)

@[simp] theorem State_pllFails_kept (s : State) (k which : Nat) (tries : StackClk → Nat) (put : StackClk → Nat → StackClk) (hk : Kept qq mm s) : Kept qq mm (State.pllFails s k which tries put) := by
  unfold State.pllFails
  simp (maxDischargeDepth := 60) [hk]

@[simp] theorem State_basePllFails_kept (s : State) (n : Nat) (hk : Kept qq mm s) : Kept qq mm (State.basePllFails s n) := by
  unfold State.basePllFails
  simp (maxDischargeDepth := 60) [hk]

@[simp] theorem execPllLockTimeout_kept (p : Pll) (s : State) (hk : Kept qq mm s) : KeptOut qq mm (execPllLockTimeout p s) := by
  unfold execPllLockTimeout
  (repeat' split) <;> simp (maxDischargeDepth := 60) [hk]

@[simp] theorem State_agePlane_kept (s : State) (k : Nat) (hk : Kept qq mm s) : Kept qq mm (State.agePlane s k) := by
  unfold State.agePlane
  simp (maxDischargeDepth := 60) [hk]

@[simp] theorem State_latchDefaults_kept (s : State) (hk : Kept qq mm s) : Kept qq mm (State.latchDefaults s) := by
  unfold State.latchDefaults
  (repeat' split) <;> simp_all (maxDischargeDepth := 60)

@[simp] theorem State_runPostponed_kept (s : State) (hk : Kept qq mm s) : Kept qq mm (State.runPostponed s) := by
  unfold State.runPostponed
  (repeat' split) <;> simp_all (maxDischargeDepth := 60)

@[simp] theorem State_trip_kept (s : State) (hk : Kept qq mm s) : Kept qq mm (State.trip s) := by
  unfold State.trip
  simp (maxDischargeDepth := 60) [hk]

@[simp] theorem State_readTemps_kept (s : State) (temps : List Int) (hk : Kept qq mm s) : Kept qq mm (State.readTemps s temps) := by
  unfold State.readTemps
  simp (maxDischargeDepth := 60) [hk]

@[simp] theorem State_excludeSensors_kept (s : State) (hk : Kept qq mm s) : Kept qq mm (State.excludeSensors s) := by
  unfold State.excludeSensors
  simp (maxDischargeDepth := 60) [hk]

@[simp] theorem execThermalSample_kept (temps : List Int) (s : State) (hk : Kept qq mm s) : KeptOut qq mm (execThermalSample temps s) := by
  unfold execThermalSample
  (repeat' split) <;> simp_all (maxDischargeDepth := 60)

@[simp] theorem execThrottleStepDown_kept (stack : Nat) (s : State) (hk : Kept qq mm s) : KeptOut qq mm (execThrottleStepDown stack s) := by
  unfold execThrottleStepDown
  simp (maxDischargeDepth := 60) [hk]

@[simp] theorem execThrottleStepUp_kept (stack : Nat) (s : State) (hk : Kept qq mm s) : KeptOut qq mm (execThrottleStepUp stack s) := by
  unfold execThrottleStepUp
  simp (maxDischargeDepth := 60) [hk]

@[simp] theorem execTripRecovery_kept (s : State) (hk : Kept qq mm s) : KeptOut qq mm (execTripRecovery s) := by
  unfold execTripRecovery
  simp (maxDischargeDepth := 60) [hk]

@[simp] theorem State_cutStep_kept (s : State) (hk : Kept qq mm s) : Kept qq mm (State.cutStep s) := by
  unfold State.cutStep
  (repeat' split) <;> simp_all (maxDischargeDepth := 60)

@[simp] theorem execBudgetClockStep_kept (reading : PowerReading) (s0 : State) (hk : Kept qq mm s0) : KeptOut qq mm (execBudgetClockStep reading s0) := by
  unfold execBudgetClockStep
  (repeat' split) <;> simp_all (maxDischargeDepth := 60)

@[simp] theorem execRestEnter_kept (s : State) (hk : Kept qq mm s) : KeptOut qq mm (execRestEnter s) := by
  unfold execRestEnter
  simp (maxDischargeDepth := 60) [hk]

@[simp] theorem State_fillCluster_kept (s : State) (c : Nat) (hk : Kept qq mm s) : Kept qq mm (State.fillCluster s c) := by
  unfold State.fillCluster
  try dsimp only
  repeat' (first | with_reducible assumption | with_reducible refine cmdKept_ite _ ?_ ?_ | with_reducible refine keptOut_ite _ ?_ ?_ | with_reducible refine kept_ite _ ?_ ?_ | with_reducible refine kept_foldl _ (fun s x hs => ?_) _ ?_ | with_reducible refine kept_each _ (fun s x hs => ?_) _ ?_ | with_reducible apply State_updMem_kept | with_reducible apply State_placeFiles_kept | split | (with_reducible refine (kept_mk ..).2 (keptAt_of ?_)) | with_reducible refine keptOut_next.2 ?_ | with_reducible refine State_runCmd_kept _ _ _ _ _ (fun t p ht => ?_) ?_ | with_reducible refine State_onFrame_kept _ _ _ _ _ (fun t ht => ?_) ?_ | with_reducible refine State_sendOnce_kept _ _ _ _ _ _ (fun t ht => ?_) ?_ | with_reducible refine State_kennelCmd_kept _ _ _ _ _ (fun t ht => ?_) ?_ | with_reducible refine State_kennelBoth_kept _ _ _ _ (fun t ht => ?_) ?_ | with_reducible refine State_kennelRead_kept _ _ (fun t ht => ?_) ?_ | with_reducible refine State_kennelSet_kept _ _ _ (fun t ht => ?_) ?_ | with_reducible refine State_kennelBootCmd_kept _ _ _ (fun t ht => ?_) ?_ | with_reducible refine koutKept_ite _ ?_ ?_ | with_reducible apply koutKept_some | with_reducible apply koutKept_none | with_reducible exact koutKept_bad | with_reducible apply koutKept_of | with_reducible apply cmdKept_done | with_reducible apply cmdKept_accepted | with_reducible exact cmdKept_no _ | with_reducible exact cmdKept_bad _ _ | with_reducible exact cmdKept_read _ |  (simp (maxDischargeDepth := 60) [*]; done) | dsimp only)

@[simp] theorem State_loadRegion_kept (s : State) (r : Nat) (crcOk : Bool) (hk : Kept qq mm s) : Kept qq mm (State.loadRegion s r crcOk) := by
  unfold State.loadRegion
  (repeat' split) <;> simp_all (maxDischargeDepth := 60)

@[simp] theorem execDomainPowerUpDone_kept (d : Dom) (crcOk : Bool) (s : State) (hk : Kept qq mm s) : KeptOut qq mm (execDomainPowerUpDone d crcOk s) := by
  unfold execDomainPowerUpDone
  (repeat' split) <;> simp (maxDischargeDepth := 60) [hk]

@[simp] theorem State_stopPlls_kept (s : State) (k : Nat) (hk : Kept qq mm s) : Kept qq mm (State.stopPlls s k) := by
  unfold State.stopPlls
  simp (maxDischargeDepth := 60) [hk]

@[simp] theorem execDomainGate_kept (d : Dom) (s : State) (hk : Kept qq mm s) : KeptOut qq mm (execDomainGate d s) := by
  unfold execDomainGate
  (repeat' split) <;> simp (maxDischargeDepth := 60) [hk]

end Sys2Proof.Machine
end

