-- ==== Sys2Proof/Laws/KeptStart.lean ====
section
/-! SUPPORT. `Kept` through the operations of Machine/Start.lean. -/

namespace Sys2Proof.Machine

open Sys2Proof

variable {qq : List Instr} {mm : Marks}

@[simp] theorem State_startFeeds_kept (s : State) (b : BootFacts) (hk : Kept qq mm s) : Kept qq mm (State.startFeeds s b) := by
  unfold State.startFeeds
  simp (maxDischargeDepth := 60) [hk]

@[simp] theorem State_resetTo_kept (s : State) (o : Options) (b : BootFacts) (cold keepTime : Bool) (hk : Kept qq mm s) : Kept qq mm (State.resetTo s o b cold keepTime) := by
  unfold State.resetTo
  try dsimp only
  repeat' (first | assumption | (simp (maxDischargeDepth := 60) [*]; done) | refine kept_foldl _ (fun s x hs => ?_) _ ?_ | refine kept_each _ (fun s x hs => ?_) _ ?_ | split | dsimp only)

@[simp] theorem State_holdBoot_kept (s : State) (c : HoldCause) (hk : Kept qq mm s) : Kept qq mm (State.holdBoot s c) := by
  unfold State.holdBoot
  simp (maxDischargeDepth := 60) [hk]

@[simp] theorem State_bootFirmware_kept (s : State) (n : Nat) (fall : Bool) (hk : Kept qq mm s) : Kept qq mm (State.bootFirmware s n fall) := by
  unfold State.bootFirmware
  simp (maxDischargeDepth := 60) [hk]

@[simp] theorem State_resumeStamp_kept (s : State) (kept : Bool) (hk : Kept qq mm s) : Kept qq mm (s.resumeStamp kept) := by
  obtain ⟨h1, h2, h3, h4, h5⟩ := hk
  unfold State.resumeStamp
  refine (kept_mk ..).2 ⟨h1, ?_, ?_, ?_, h5⟩
  · dsimp only
    (repeat' split) <;> omega
  · dsimp only
    (repeat' split) <;> omega
  · dsimp only
    omega

@[simp] theorem State_copyGasp_kept (s : State) (hk : Kept qq mm s) : Kept qq mm (State.copyGasp s) := by
  unfold State.copyGasp
  simp (maxDischargeDepth := 60) [hk]

@[simp] theorem State_bootLog_kept (s : State) (cold last : Bool) (hk : Kept qq mm s) : Kept qq mm (State.bootLog s cold last) := by
  unfold State.bootLog
  try dsimp only
  repeat' (first | with_reducible assumption | with_reducible refine cmdKept_ite _ ?_ ?_ | with_reducible refine keptOut_ite _ ?_ ?_ | with_reducible refine kept_ite _ ?_ ?_ | with_reducible refine kept_foldl _ (fun s x hs => ?_) _ ?_ | with_reducible refine kept_each _ (fun s x hs => ?_) _ ?_ | with_reducible apply State_copyGasp_kept | with_reducible apply State_commit_kept | with_reducible apply State_log_kept | split | (with_reducible refine (kept_mk ..).2 (keptAt_of ?_)) | with_reducible refine keptOut_next.2 ?_ | with_reducible refine State_runCmd_kept _ _ _ _ _ (fun t p ht => ?_) ?_ | with_reducible refine State_onFrame_kept _ _ _ _ _ (fun t ht => ?_) ?_ | with_reducible refine State_sendOnce_kept _ _ _ _ _ _ (fun t ht => ?_) ?_ | with_reducible refine State_kennelCmd_kept _ _ _ _ _ (fun t ht => ?_) ?_ | with_reducible refine State_kennelBoth_kept _ _ _ _ (fun t ht => ?_) ?_ | with_reducible refine State_kennelRead_kept _ _ (fun t ht => ?_) ?_ | with_reducible refine State_kennelSet_kept _ _ _ (fun t ht => ?_) ?_ | with_reducible refine State_kennelBootCmd_kept _ _ _ (fun t ht => ?_) ?_ | with_reducible refine koutKept_ite _ ?_ ?_ | with_reducible apply koutKept_some | with_reducible apply koutKept_none | with_reducible exact koutKept_bad | with_reducible apply koutKept_of | with_reducible apply cmdKept_done | with_reducible apply cmdKept_accepted | with_reducible exact cmdKept_no _ | with_reducible exact cmdKept_bad _ _ | with_reducible exact cmdKept_read _ |  (simp (maxDischargeDepth := 60) [*]; done) | dsimp only)

@[simp] theorem State_replayRec_kept (s : State) (r : JRec) (hk : Kept qq mm s) : Kept qq mm (State.replayRec s r) := by
  unfold State.replayRec
  (repeat' split) <;> simp (maxDischargeDepth := 60) [hk]

@[simp] theorem State_mapPlanes_kept (s : State) (hk : Kept qq mm s) : Kept qq mm (State.mapPlanes s) := by
  unfold State.mapPlanes
  (repeat' split) <;> simp_all (maxDischargeDepth := 60)

@[simp] theorem State_recover_kept (s : State) (e p : Nat) (op : UpOp) (hk : Kept qq mm s) : Kept qq mm (State.recover s e p op) := by
  unfold State.recover
  simp (maxDischargeDepth := 60) [hk]

@[simp] theorem State_recoverPartner_kept (s : State) (e p : Nat) (hk : Kept qq mm s) : Kept qq mm (State.recoverPartner s e p) := by
  unfold State.recoverPartner
  simp (maxDischargeDepth := 60) [hk]

@[simp] theorem State_recoverPlane_kept (s : State) (l : List JRec) (e p : Nat) (hk : Kept qq mm s) : Kept qq mm (State.recoverPlane s l e p) := by
  unfold State.recoverPlane
  (repeat' split) <;> simp (maxDischargeDepth := 60) [hk]

@[simp] theorem State_recoverSwap_kept (s : State) (hk : Kept qq mm s) : Kept qq mm (State.recoverSwap s) := by
  unfold State.recoverSwap
  (repeat' split) <;> simp_all (maxDischargeDepth := 60)

@[simp] theorem State_recoverReplan_kept (s : State) (hk : Kept qq mm s) : Kept qq mm (State.recoverReplan s) := by
  unfold State.recoverReplan
  (repeat' split) <;> simp_all (maxDischargeDepth := 60)

@[simp] theorem State_replay_kept (s : State) (hk : Kept qq mm s) : Kept qq mm (State.replay s) := by
  unfold State.replay
  (repeat' split) <;> simp_all (maxDischargeDepth := 60)

@[simp] theorem State_homesInUse_kept (s : State) (hk : Kept qq mm s) : Kept qq mm (State.homesInUse s) := by
  unfold State.homesInUse
  (repeat' split) <;> simp_all (maxDischargeDepth := 60)

@[simp] theorem State_loadImage_kept (s : State) (b : BootFacts) (cold : Bool) (hk : Kept qq mm s) : Kept qq mm (State.loadImage s b cold) := by
  unfold State.loadImage
  (repeat' split) <;> simp (maxDischargeDepth := 60) [hk]

@[simp] theorem State_bootReading_kept (s : State) (b : BootFacts) (k : Nat) (hk : Kept qq mm s) : Kept qq mm (State.bootReading s b k) := by
  unfold State.bootReading
  simp (maxDischargeDepth := 60) [hk]

@[simp] theorem State_homesAway_kept (s : State) (hk : Kept qq mm s) : Kept qq mm (State.homesAway s) := by
  unfold State.homesAway
  (repeat' split) <;> simp_all (maxDischargeDepth := 60)

@[simp] theorem State_checkArrays_kept (s : State) (b : BootFacts) (cold : Bool) (hk : Kept qq mm s) : Kept qq mm (State.checkArrays s b cold) := by
  unfold State.checkArrays
  (repeat' split) <;> simp_all (maxDischargeDepth := 60)

@[simp] theorem State_restoreCfg_kept (s : State) (c : Ckpt) (hk : Kept qq mm s) : Kept qq mm (State.restoreCfg s c) := by
  unfold State.restoreCfg
  (repeat' split) <;> simp_all (maxDischargeDepth := 60)

@[simp] theorem State_restoreScales_kept (s : State) (c : Ckpt) (hk : Kept qq mm s) : Kept qq mm (State.restoreScales s c) := by
  unfold State.restoreScales
  (repeat' split) <;> simp_all (maxDischargeDepth := 60)

@[simp] theorem State_restoreWatch_kept (s : State) (m : Member) (c : Ckpt) (hk : Kept qq mm s) : Kept qq mm (State.restoreWatch s m c) := by
  unfold State.restoreWatch
  simp (maxDischargeDepth := 60) [hk]

@[simp] theorem State_startRestored_kept (s : State) (l : List (Nat × CtxCfg)) (hk : Kept qq mm s) : Kept qq mm (State.startRestored s l) := by
  unfold State.startRestored
  (repeat' split) <;> simp_all (maxDischargeDepth := 60)

@[simp] theorem State_lateCheck_kept (s : State) (b : BootFacts) (cold : Bool) (hk : Kept qq mm s) : Kept qq mm (State.lateCheck s b cold) := by
  unfold State.lateCheck
  (repeat' split) <;> simp_all (maxDischargeDepth := 60)

@[simp] theorem State_becomeReady_kept (s : State) (b : BootFacts) (cold : Bool) (hk : Kept qq mm s) : Kept qq mm (State.becomeReady s b cold) := by
  unfold State.becomeReady
  try dsimp only
  repeat' (first | assumption | (simp (maxDischargeDepth := 60) [*]; done) | refine kept_foldl _ (fun s x hs => ?_) _ ?_ | refine kept_each _ (fun s x hs => ?_) _ ?_ | split | dsimp only)

@[simp] theorem State_startTroubles_kept (s : State) (hk : Kept qq mm s) : Kept qq mm (State.startTroubles s) := by
  unfold State.startTroubles
  simp (maxDischargeDepth := 60) [hk]

@[simp] theorem State_bootOn_kept (s : State) (b : BootFacts) (cold kept : Bool) (hk : Kept qq mm s) : Kept qq mm (State.bootOn s b cold kept) := by
  unfold State.bootOn
  dsimp only
  (repeat' split) <;> simp (maxDischargeDepth := 60) [hk]

@[simp] theorem State_startFrom_kept (s : State) (b : BootFacts) (cold keepTime kept : Bool) (hk : Kept qq mm s) : Kept qq mm (State.startFrom s b cold keepTime kept) := by
  unfold State.startFrom
  (repeat' split) <;> simp (maxDischargeDepth := 60) [hk]

@[simp] theorem execColdStart_kept (b : BootFacts) (s : State) (hk : Kept qq mm s) : KeptOut qq mm (execColdStart b s) := by
  unfold execColdStart
  simp (maxDischargeDepth := 60) [hk]

@[simp] theorem execWarmRestart_kept (b : BootFacts) (s : State) (hk : Kept qq mm s) : KeptOut qq mm (execWarmRestart b s) := by
  unfold execWarmRestart
  simp (maxDischargeDepth := 60) [hk]

end Sys2Proof.Machine
end

