-- ==== Sys2Proof/Laws/KeptIo.lean ====
section
/-! SUPPORT. `Kept` through the operations of Machine/Io.lean. -/

namespace Sys2Proof.Machine

open Sys2Proof

variable {qq : List Instr} {mm : Marks}

@[simp] theorem execOutputSenseMismatch_kept (n : Nat) (s : State) (hk : Kept qq mm s) : KeptOut qq mm (execOutputSenseMismatch n s) := by
  unfold execOutputSenseMismatch
  simp (maxDischargeDepth := 60) [hk]

@[simp] theorem execOutputOvercurrent_kept (n : Nat) (s : State) (hk : Kept qq mm s) : KeptOut qq mm (execOutputOvercurrent n s) := by
  unfold execOutputOvercurrent
  simp (maxDischargeDepth := 60) [hk]

@[simp] theorem execHealthSenseMismatch_kept (s : State) (hk : Kept qq mm s) : KeptOut qq mm (execHealthSenseMismatch s) := by
  unfold execHealthSenseMismatch
  simp (maxDischargeDepth := 60) [hk]

@[simp] theorem execInputSample_kept (mv : List Int) (s : State) (hk : Kept qq mm s) : KeptOut qq mm (execInputSample mv s) := by
  unfold execInputSample
  simp (maxDischargeDepth := 60) [hk]

end Sys2Proof.Machine
end

