-- ==== Sys2Proof/Laws/KeptStoreOps.lean ====
section
/-! SUPPORT. `Kept` through the operations of Machine/StoreOps.lean. -/

namespace Sys2Proof.Machine

open Sys2Proof

variable {qq : List Instr} {mm : Marks}

@[simp] theorem execPatrolScrubRead_kept (f : EccFinding) (s : State) (hk : Kept qq mm s) : KeptOut qq mm (execPatrolScrubRead f s) := by
  unfold execPatrolScrubRead
  simp (maxDischargeDepth := 60) [hk]

@[simp] theorem execScrubPassEnd_kept (s : State) (hk : Kept qq mm s) : KeptOut qq mm (execScrubPassEnd s) := by
  unfold execScrubPassEnd
  simp (maxDischargeDepth := 60) [hk]

@[simp] theorem execScrubDeadline_kept (s : State) (hk : Kept qq mm s) : KeptOut qq mm (execScrubDeadline s) := by
  unfold execScrubDeadline
  simp (maxDischargeDepth := 60) [hk]

@[simp] theorem State_reloadWord_kept (s : State) (k : Nat) (hk : Kept qq mm s) : Kept qq mm (State.reloadWord s k) := by
  unfold State.reloadWord
  (repeat' split) <;> simp (maxDischargeDepth := 60) [hk]

@[simp] theorem execWeightRefetchDone_kept (goldenOk : Bool) (s : State) (hk : Kept qq mm s) : KeptOut qq mm (execWeightRefetchDone goldenOk s) := by
  unfold execWeightRefetchDone
  (repeat' split) <;> simp (maxDischargeDepth := 60) [hk]

@[simp] theorem State_mapBlock_kept (s : State) (l b : Nat) (hk : Kept qq mm s) : Kept qq mm (State.mapBlock s l b) := by
  unfold State.mapBlock
  simp (maxDischargeDepth := 60) [hk]

@[simp] theorem State_relocate_kept (s : State) (l to_ : Nat) (hk : Kept qq mm s) : Kept qq mm (State.relocate s l to_) := by
  unfold State.relocate
  simp (maxDischargeDepth := 60) [hk]

@[simp] theorem State_moveBlock_kept (s : State) (l to_ : Nat) (hk : Kept qq mm s) : Kept qq mm (State.moveBlock s l to_) := by
  unfold State.moveBlock
  simp (maxDischargeDepth := 60) [hk]

@[simp] theorem State_runRefresh_kept (s : State) (hk : Kept qq mm s) : Kept qq mm (State.runRefresh s) := by
  unfold State.runRefresh
  try dsimp only
  repeat' (first | assumption | (simp (maxDischargeDepth := 60) [*]; done) | refine kept_foldl _ (fun s x hs => ?_) _ ?_ | refine kept_each _ (fun s x hs => ?_) _ ?_ | split | dsimp only)

@[simp] theorem State_writeFails_kept (s : State) (l : Nat) (hk : Kept qq mm s) : Kept qq mm (s.writeFails l) := by
  have hi : ∀ i : Images, Kept qq mm { s with img := i } := fun i => (kept_mk ..).2 (keptAt_of hk)
  unfold State.writeFails
  refine kept_ite _ ?_ (kept_ite _ ?_ (kept_ite _ ?_ hk))
  · generalize s.img.xfer = x
    split
    · exact State_complete_kept _ _ _ _ _ _ _ (State_setSlot_kept _ _ _ _ (State_commit_kept _ (hi _)))
    · exact hi _
  · generalize s.img.fwXfer = x
    split
    · exact State_complete_kept _ _ _ _ _ _ _ (State_setBank_kept _ _ _ _ (State_commit_kept _ (hi _)))
    · exact hi _
  · generalize s.ckpt.staging = x
    have h1 := execCheckpointStored_kept false s hk
    revert h1
    generalize execCheckpointStored false s = o
    intro h1
    cases x with
    | none => exact hk
    | some c =>
      cases o with
      | next t => exact keptOut_next.1 h1
      | fault f => exact hk
      | refused r => exact hk

@[simp] theorem State_retireBlock_kept (s : State) (b : Nat) (hk : Kept qq mm s) : Kept qq mm (State.retireBlock s b) := by
  unfold State.retireBlock
  dsimp only
  (repeat' split) <;> simp (maxDischargeDepth := 60) [hk]

@[simp] theorem State_blockFails_kept (s : State) (b : Nat) (hk : Kept qq mm s) : Kept qq mm (State.blockFails s b) := by
  unfold State.blockFails
  simp (maxDischargeDepth := 60) [hk]

@[simp] theorem execStoreProgramDone_kept (block : Nat) (verified : Bool) (s : State) (hk : Kept qq mm s) : KeptOut qq mm (execStoreProgramDone block verified s) := by
  unfold execStoreProgramDone
  simp (maxDischargeDepth := 60) [hk]

@[simp] theorem State_levelWear_kept (s : State) (plane : Nat) (hk : Kept qq mm s) : Kept qq mm (State.levelWear s plane) := by
  unfold State.levelWear
  (repeat' split) <;> simp (maxDischargeDepth := 60) [hk]

@[simp] theorem execStoreEraseDone_kept (unit phys : Nat) (verified : Bool) (pulses : Nat) (s : State) (hk : Kept qq mm s) : KeptOut qq mm (execStoreEraseDone unit phys verified pulses s) := by
  unfold execStoreEraseDone
  simp (maxDischargeDepth := 60) [hk]

@[simp] theorem State_sectorRead_kept (s : State) (b errs : Nat) (hk : Kept qq mm s) : Kept qq mm (State.sectorRead s b errs) := by
  unfold State.sectorRead
  dsimp only
  (repeat' split) <;> simp (maxDischargeDepth := 60) [hk]

@[simp] theorem execStoreRead_kept (block bitErrors : Nat) (s : State) (hk : Kept qq mm s) : KeptOut qq mm (execStoreRead block bitErrors s) := by
  unfold execStoreRead
  simp (maxDischargeDepth := 60) [hk]

@[simp] theorem execStorePatrolRead_kept (block bitErrors : Nat) (s : State) (hk : Kept qq mm s) : KeptOut qq mm (execStorePatrolRead block bitErrors s) := by
  unfold execStorePatrolRead
  dsimp only
  (repeat' split) <;> simp (maxDischargeDepth := 60) [hk]

@[simp] theorem execLogPageWrite_kept (s : State) (hk : Kept qq mm s) : KeptOut qq mm (execLogPageWrite s) := by
  unfold execLogPageWrite
  simp (maxDischargeDepth := 60) [hk]

@[simp] theorem State_summary_kept (s : State) (key n : Nat) (hk : Kept qq mm s) : Kept qq mm (State.summary s key n) := by
  unfold State.summary
  simp (maxDischargeDepth := 60) [hk]

@[simp] theorem execLogRateSecondEnd_kept (s : State) (hk : Kept qq mm s) : KeptOut qq mm (execLogRateSecondEnd s) := by
  unfold execLogRateSecondEnd
  (repeat' split) <;> simp_all (maxDischargeDepth := 60)

@[simp] theorem execTroubleLevelReassert_kept (s : State) (hk : Kept qq mm s) : KeptOut qq mm (execTroubleLevelReassert s) := by
  unfold execTroubleLevelReassert
  (repeat' split) <;> simp_all (maxDischargeDepth := 60)

end Sys2Proof.Machine
end

