-- ==== Sys2Proof/Laws/KeptPackLink.lean ====
section
/-! SUPPORT. `Kept` through the operations of Machine/PackLink.lean. -/

namespace Sys2Proof.Machine

open Sys2Proof

variable {qq : List Instr} {mm : Marks}

@[simp] theorem State_sendHello_kept (s : State) (port : Nat) (hk : Kept qq mm s) : Kept qq mm (State.sendHello s port) := by
  unfold State.sendHello
  simp (maxDischargeDepth := 60) [hk]

@[simp] theorem execLinkTrained_kept (port : Nat) (s : State) (hk : Kept qq mm s) : KeptOut qq mm (execLinkTrained port s) := by
  unfold execLinkTrained
  simp (maxDischargeDepth := 60) [hk]

@[simp] theorem execHelloFrame_kept (port : Nat) (h : PackHdr) (packId pos size peer epoch imageId level : Nat) (s : State) (hk : Kept qq mm s) : KeptOut qq mm (execHelloFrame port h packId pos size peer epoch imageId level s) := by
  unfold execHelloFrame
  simp (maxDischargeDepth := 60) [hk]

@[simp] theorem State_askAgain_kept (s : State) (a : Nat × Nat × Nat × Nat) (hk : Kept qq mm s) : Kept qq mm (State.askAgain s a) := by
  unfold State.askAgain
  simp (maxDischargeDepth := 60) [hk]

@[simp] theorem execExchangeStallTimeout_kept (k : Nat) (s : State) (hk : Kept qq mm s) : KeptOut qq mm (execExchangeStallTimeout k s) := by
  unfold execExchangeStallTimeout
  (repeat' split) <;> simp (maxDischargeDepth := 60) [hk]

@[simp] theorem State_portDown_kept (s : State) (port : Nat) (hk : Kept qq mm s) : Kept qq mm (State.portDown s port) := by
  unfold State.portDown
  (repeat' split) <;> simp_all (maxDischargeDepth := 60)

@[simp] theorem execLinkCrcTimeout_kept (port : Nat) (s : State) (hk : Kept qq mm s) : KeptOut qq mm (execLinkCrcTimeout port s) := by
  unfold execLinkCrcTimeout
  simp (maxDischargeDepth := 60) [hk]

@[simp] theorem execPackFrameCrcFail_kept (port : Nat) (s : State) (hk : Kept qq mm s) : KeptOut qq mm (execPackFrameCrcFail port s) := by
  unfold execPackFrameCrcFail
  simp (maxDischargeDepth := 60) [hk]

@[simp] theorem execIdleFrame_kept (port : Nat) (h : PackHdr) (s : State) (hk : Kept qq mm s) : KeptOut qq mm (execIdleFrame port h s) := by
  unfold execIdleFrame
  simp (maxDischargeDepth := 60) [hk]

@[simp] theorem execIdleSend_kept (port : Nat) (s : State) (hk : Kept qq mm s) : KeptOut qq mm (execIdleSend port s) := by
  unfold execIdleSend
  simp (maxDischargeDepth := 60) [hk]

@[simp] theorem State_replayFrom_kept (s : State) (port expected : Nat) (hk : Kept qq mm s) : Kept qq mm (State.replayFrom s port expected) := by
  unfold State.replayFrom
  try dsimp only
  repeat' (first | assumption | (simp (maxDischargeDepth := 60) [*]; done) | refine kept_foldl _ (fun s x hs => ?_) _ ?_ | refine kept_each _ (fun s x hs => ?_) _ ?_ | split | dsimp only)

@[simp] theorem execNakFrame_kept (port : Nat) (h : PackHdr) (expected : Nat) (s : State) (hk : Kept qq mm s) : KeptOut qq mm (execNakFrame port h expected s) := by
  unfold execNakFrame
  simp (maxDischargeDepth := 60) [hk]

@[simp] theorem execCreditFrame_kept (port : Nat) (h : PackHdr) (credits : List Nat) (s : State) (hk : Kept qq mm s) : KeptOut qq mm (execCreditFrame port h credits s) := by
  unfold execCreditFrame
  simp (maxDischargeDepth := 60) [hk]

@[simp] theorem execCreditReturn_kept (port : Nat) (s : State) (hk : Kept qq mm s) : KeptOut qq mm (execCreditReturn port s) := by
  unfold execCreditReturn
  simp (maxDischargeDepth := 60) [hk]

@[simp] theorem execWriteFrame_kept (port : Nat) (h : PackHdr) (data : List Byte) (s : State) (hk : Kept qq mm s) : KeptOut qq mm (execWriteFrame port h data s) := by
  unfold execWriteFrame
  (repeat' split) <;> simp_all (maxDischargeDepth := 60)

@[simp] theorem State_writesDone_kept (s : State) (c dst : Nat) (l : List Nat) (n : Nat) (hk : Kept qq mm s) :
    Kept qq mm (s.writesDone c dst l n) := by
  induction l generalizing s n with
  | nil => exact hk
  | cons ch chs ih =>
    unfold State.writesDone
    exact ih _ _ (State_setChannel_kept _ _ _ hk)

@[simp] theorem execWriteDone_kept (port : Nat) (h : PackHdr) (n : Nat) (s : State) (hk : Kept qq mm s) :
    KeptOut qq mm (execWriteDone port h n s) := by
  unfold execWriteDone
  refine State_onFrame_kept _ _ _ _ _ (fun t ht => ?_) hk
  have h1 := State_writesDone_kept t h.ctx h.src (t.channels.map Prod.fst) n ht
  revert h1
  generalize t.writesDone h.ctx h.src (t.channels.map Prod.fst) n = u
  intro h1
  have h2 : ∀ w, Kept qq mm { u with pack := { u.pack with wacked := w } } := fun w => (kept_mk ..).2 (keptAt_of h1)
  dsimp only
  refine kept_foldl _ (fun s x hs => State_settle_kept _ _ (State_afterFence_kept _ _ hs)) _ (h2 _)

@[simp] theorem execRemoteWriteTimeout_kept (channel : Nat) (s : State) (hk : Kept qq mm s) : KeptOut qq mm (execRemoteWriteTimeout channel s) := by
  unfold execRemoteWriteTimeout
  (repeat' split) <;> simp (maxDischargeDepth := 60) [hk]

@[simp] theorem State_overtake_kept (s : State) (p src behind : Nat) (hk : Kept qq mm s) : Kept qq mm (State.overtake s p src behind) := by
  unfold State.overtake
  simp (maxDischargeDepth := 60) [hk]

@[simp] theorem execSignalFrame_kept (port : Nat) (h : PackHdr) (id delta : Nat) (fenced : Bool) (wsent : Nat) (s : State) (hk : Kept qq mm s) : KeptOut qq mm (execSignalFrame port h id delta fenced wsent s) := by
  unfold execSignalFrame
  try dsimp only
  repeat' (first | with_reducible assumption | with_reducible refine cmdKept_ite _ ?_ ?_ | with_reducible refine keptOut_ite _ ?_ ?_ | with_reducible refine kept_ite _ ?_ ?_ | with_reducible refine kept_foldl _ (fun s x hs => ?_) _ ?_ | with_reducible refine kept_each _ (fun s x hs => ?_) _ ?_ | with_reducible apply State_applySignal_kept | with_reducible apply State_overtake_kept | split | (with_reducible refine (kept_mk ..).2 (keptAt_of ?_)) | with_reducible refine keptOut_next.2 ?_ | with_reducible refine State_runCmd_kept _ _ _ _ _ (fun t p ht => ?_) ?_ | with_reducible refine State_onFrame_kept _ _ _ _ _ (fun t ht => ?_) ?_ | with_reducible refine State_sendOnce_kept _ _ _ _ _ _ (fun t ht => ?_) ?_ | with_reducible refine State_kennelCmd_kept _ _ _ _ _ (fun t ht => ?_) ?_ | with_reducible refine State_kennelBoth_kept _ _ _ _ (fun t ht => ?_) ?_ | with_reducible refine State_kennelRead_kept _ _ (fun t ht => ?_) ?_ | with_reducible refine State_kennelSet_kept _ _ _ (fun t ht => ?_) ?_ | with_reducible refine State_kennelBootCmd_kept _ _ _ (fun t ht => ?_) ?_ | with_reducible refine koutKept_ite _ ?_ ?_ | with_reducible apply koutKept_some | with_reducible apply koutKept_none | with_reducible exact koutKept_bad | with_reducible apply koutKept_of | with_reducible apply cmdKept_done | with_reducible apply cmdKept_accepted | with_reducible exact cmdKept_no _ | with_reducible exact cmdKept_bad _ _ | with_reducible exact cmdKept_read _ |  (simp (maxDischargeDepth := 60) [*]; done) | dsimp only)

@[simp] theorem execReleaseFrame_kept (port : Nat) (h : PackHdr) (id value : Nat) (s : State) (hk : Kept qq mm s) : KeptOut qq mm (execReleaseFrame port h id value s) := by
  unfold execReleaseFrame
  (repeat' split) <;> simp_all (maxDischargeDepth := 60)

@[simp] theorem execAdvisoryFrame_kept (port : Nat) (h : PackHdr) (pos : Nat) (outputs : BitVec 4) (aseq sidx : Nat) (s : State) (hk : Kept qq mm s) : KeptOut qq mm (execAdvisoryFrame port h pos outputs aseq sidx s) := by
  unfold execAdvisoryFrame
  (repeat' split) <;> simp_all (maxDischargeDepth := 60)

end Sys2Proof.Machine
end

