-- ==== Sys2Proof/Laws/KeptPackPass.lean ====
section
/-! SUPPORT. `Kept` through the operations of Machine/PackPass.lean. -/

namespace Sys2Proof.Machine

open Sys2Proof

variable {qq : List Instr} {mm : Marks}

@[simp] theorem State_sendScan_kept (s : State) (c q to_ l : Nat) (hole : Bool) (m : ScanMsg) (hk : Kept qq mm s) : Kept qq mm (State.sendScan s c q to_ l hole m) := by
  unfold State.sendScan
  (repeat' split) <;> simp (maxDischargeDepth := 60) [hk]

theorem State_sendOnce_kept (s : State) (c q l type : Nat) (f : State → State) (hf : ∀ t, Kept qq mm t → Kept qq mm (f t))
    (hk : Kept qq mm s) : Kept qq mm (s.sendOnce c q l type f) := by
  unfold State.sendOnce
  split
  · exact hk
  · dsimp only
    exact kept_ite _ hk (hf _ (State_updPass_kept _ _ _ hk))

@[simp] theorem State_scanHalo_kept (s : State) (c q : Nat) (s0 : State) (p : PackPass) (l : Nat) (hk : Kept qq mm s0) :
    Kept qq mm (s.scanHalo c q s0 p l) := by
  unfold State.scanHalo
  split
  · exact kept_ite _ (State_sendOnce_kept _ _ _ _ _ _ (fun t ht => State_sendScan_kept _ _ _ _ _ _ _ ht) hk) hk
  · exact hk

@[simp] theorem State_scanPrefix_kept (s : State) (c q : Nat) (s0 : State) (p : PackPass) (l : Nat) (hk : Kept qq mm s0) :
    Kept qq mm (s.scanPrefix c q s0 p l) := by
  unfold State.scanPrefix
  split
  · exact kept_ite _ (State_sendOnce_kept _ _ _ _ _ _ (fun t ht => State_sendScan_kept _ _ _ _ _ _ _ ht) hk) hk
  · exact hk

@[simp] theorem State_scanSuffix_kept (s : State) (c q : Nat) (s0 : State) (p : PackPass) (l : Nat) (hk : Kept qq mm s0) :
    Kept qq mm (s.scanSuffix c q s0 p l) := by
  unfold State.scanSuffix
  split
  · exact State_sendOnce_kept _ _ _ _ _ _ (fun t ht => State_sendScan_kept _ _ _ _ _ _ _ ht) hk
  · exact hk

@[simp] theorem State_scanColumn_kept (s : State) (c q : Nat) (s0 : State) (p : PackPass) (l : Nat) (hk : Kept qq mm s0) :
    Kept qq mm (s.scanColumn c q s0 p l) := by
  unfold State.scanColumn
  split
  · exact kept_ite _ hk (State_sendOnce_kept _ _ _ _ _ _ (fun t ht => kept_foldl _ (fun u x hu => State_sendScan_kept _ _ _ _ _ _ _ hu) _ ht) hk)
  · exact hk

@[simp] theorem State_scanLayer_kept (s : State) (c q : Nat) (s0 : State) (l : Nat) (hk : Kept qq mm s0) : Kept qq mm (State.scanLayer s c q s0 l) := by
  unfold State.scanLayer
  (repeat' split) <;> simp (maxDischargeDepth := 60) [hk]

@[simp] theorem State_scanOn_kept (s : State) (c : Nat) (rec_ : Nat) (hk : Kept qq mm s) : Kept qq mm (State.scanOn s c rec_) := by
  induction rec_ generalizing s with
  | zero => simp (maxDischargeDepth := 60) [State.scanOn, hk]
  | succ n ih =>
    unfold State.scanOn
    (repeat' split) <;> simp_all (maxDischargeDepth := 60)

@[simp] theorem State_flushSlot_kept (s : State) (c q : Nat) (hk : Kept qq mm s) : Kept qq mm (State.flushSlot s c q) := by
  unfold State.flushSlot
  (repeat' split) <;> simp_all (maxDischargeDepth := 60)

@[simp] theorem State_tryPassOver_kept (s : State) (c : Nat) (hk : Kept qq mm s) : Kept qq mm (State.tryPassOver s c) := by
  unfold State.tryPassOver
  (repeat' split) <;> simp (maxDischargeDepth := 60) [hk]

@[simp] theorem State_leadDone_kept (s : State) (c pass pos rseq : Nat) (hk : Kept qq mm s) : Kept qq mm (State.leadDone s c pass pos rseq) := by
  unfold State.leadDone
  (repeat' split) <;> simp (maxDischargeDepth := 60) [hk]

@[simp] theorem State_sayDone_kept (s : State) (c : Nat) (hk : Kept qq mm s) : Kept qq mm (State.sayDone s c) := by
  unfold State.sayDone
  (repeat' split) <;> simp (maxDischargeDepth := 60) [hk]

@[simp] theorem State_tryDone_kept (s : State) (c : Nat) (hk : Kept qq mm s) : Kept qq mm (State.tryDone s c) := by
  unfold State.tryDone
  (repeat' split) <;> simp (maxDischargeDepth := 60) [hk]

@[simp] theorem State_openShare_kept (s : State) (c q : Nat) (hk : Kept qq mm s) : Kept qq mm (State.openShare s c q) := by
  unfold State.openShare
  try dsimp only
  repeat' (first | assumption | (simp (maxDischargeDepth := 60) [*]; done) | refine kept_foldl _ (fun s x hs => ?_) _ ?_ | refine kept_each _ (fun s x hs => ?_) _ ?_ | split | dsimp only)

@[simp] theorem State_takeScales_kept (s : State) (c : Nat) (hk : Kept qq mm s) : Kept qq mm (State.takeScales s c) := by
  unfold State.takeScales
  try dsimp only
  repeat' (first | assumption | (simp (maxDischargeDepth := 60) [*]; done) | refine kept_foldl _ (fun s x hs => ?_) _ ?_ | refine kept_each _ (fun s x hs => ?_) _ ?_ | split | dsimp only)

@[simp] theorem State_beginPackPass_kept (s : State) (p0 : PackPass) (hk : Kept qq mm s) : Kept qq mm (State.beginPackPass s p0) := by
  unfold State.beginPackPass
  dsimp only
  (repeat' split) <;> simp (maxDischargeDepth := 60) [hk]

@[simp] theorem execPassStart_kept (port : Nat) (h : PackHdr) (pass epoch first last p0 n : Nat) (both : Bool) (s : State) (hk : Kept qq mm s) : KeptOut qq mm (execPassStart port h pass epoch first last p0 n both s) := by
  unfold execPassStart
  (repeat' split) <;> simp_all (maxDischargeDepth := 60)

@[simp] theorem execPass1Complete_kept (slot : Nat) (f : Pass1Facts) (s : State) (hk : Kept qq mm s) : KeptOut qq mm (execPass1Complete slot f s) := by
  unfold execPass1Complete
  (repeat' split) <;> simp (maxDischargeDepth := 60) [hk]

@[simp] theorem State_onScan_kept (s : State) (c : Nat) (h : ExHdr) (from_ : Nat) (poison : Bool) (m : ScanMsg) (hk : Kept qq mm s) : Kept qq mm (State.onScan s c h from_ poison m) := by
  unfold State.onScan
  (repeat' split) <;> simp (maxDischargeDepth := 60) [hk]

@[simp] theorem execScanPrefix_kept (port : Nat) (h : PackHdr) (ex : ExHdr) (fromSlot : Nat) (hole : Bool) (pairs : List (F32 × F32)) (s : State) (hk : Kept qq mm s) : KeptOut qq mm (execScanPrefix port h ex fromSlot hole pairs s) := by
  unfold execScanPrefix
  (repeat' split) <;> simp_all (maxDischargeDepth := 60)

@[simp] theorem execScanSuffix_kept (port : Nat) (h : PackHdr) (ex : ExHdr) (fromSlot : Nat) (hole : Bool) (pairs : List (F32 × F32)) (s : State) (hk : Kept qq mm s) : KeptOut qq mm (execScanSuffix port h ex fromSlot hole pairs s) := by
  unfold execScanSuffix
  (repeat' split) <;> simp_all (maxDischargeDepth := 60)

@[simp] theorem execScanColumn_kept (port : Nat) (h : PackHdr) (ex : ExHdr) (fromSlot : Nat) (hole : Bool) (pairs : List (F32 × F32)) (s : State) (hk : Kept qq mm s) : KeptOut qq mm (execScanColumn port h ex fromSlot hole pairs s) := by
  unfold execScanColumn
  (repeat' split) <;> simp_all (maxDischargeDepth := 60)

@[simp] theorem execHaloMsg_kept (port : Nat) (h : PackHdr) (ex : ExHdr) (fromSlot : Nat) (bytes : List Byte) (s : State) (hk : Kept qq mm s) : KeptOut qq mm (execHaloMsg port h ex fromSlot bytes s) := by
  unfold execHaloMsg
  (repeat' split) <;> simp_all (maxDischargeDepth := 60)

@[simp] theorem execReplayComplete_kept (slot : Nat) (f : ReplayFacts) (s : State) (hk : Kept qq mm s) : KeptOut qq mm (execReplayComplete slot f s) := by
  unfold execReplayComplete
  (repeat' split) <;> simp_all (maxDischargeDepth := 60)

@[simp] theorem execPassDone_kept (port : Nat) (h : PackHdr) (pass pos status tokens rseq : Nat) (s : State) (hk : Kept qq mm s) : KeptOut qq mm (execPassDone port h pass pos status tokens rseq s) := by
  unfold execPassDone
  (repeat' split) <;> simp_all (maxDischargeDepth := 60)

@[simp] theorem State_restartScan_kept (s : State) (c : Nat) (hk : Kept qq mm s) : Kept qq mm (State.restartScan s c) := by
  unfold State.restartScan
  try dsimp only
  repeat' (first | with_reducible assumption | with_reducible refine cmdKept_ite _ ?_ ?_ | with_reducible refine keptOut_ite _ ?_ ?_ | with_reducible refine kept_ite _ ?_ ?_ | with_reducible refine kept_foldl _ (fun s x hs => ?_) _ ?_ | with_reducible refine kept_each _ (fun s x hs => ?_) _ ?_ | with_reducible apply State_updPass_kept | with_reducible apply State_flushSlot_kept | with_reducible apply State_scanOn_kept | with_reducible apply State_tryDone_kept | with_reducible apply State_tryPassOver_kept | split | (with_reducible refine (kept_mk ..).2 (keptAt_of ?_)) | with_reducible refine keptOut_next.2 ?_ | with_reducible refine State_runCmd_kept _ _ _ _ _ (fun t p ht => ?_) ?_ | with_reducible refine State_onFrame_kept _ _ _ _ _ (fun t ht => ?_) ?_ | with_reducible refine State_sendOnce_kept _ _ _ _ _ _ (fun t ht => ?_) ?_ | with_reducible refine State_kennelCmd_kept _ _ _ _ _ (fun t ht => ?_) ?_ | with_reducible refine State_kennelBoth_kept _ _ _ _ (fun t ht => ?_) ?_ | with_reducible refine State_kennelRead_kept _ _ (fun t ht => ?_) ?_ | with_reducible refine State_kennelSet_kept _ _ _ (fun t ht => ?_) ?_ | with_reducible refine State_kennelBootCmd_kept _ _ _ (fun t ht => ?_) ?_ | with_reducible refine koutKept_ite _ ?_ ?_ | with_reducible apply koutKept_some | with_reducible apply koutKept_none | with_reducible exact koutKept_bad | with_reducible apply koutKept_of | with_reducible apply cmdKept_done | with_reducible apply cmdKept_accepted | with_reducible exact cmdKept_no _ | with_reducible exact cmdKept_bad _ _ | with_reducible exact cmdKept_read _ |  (simp (maxDischargeDepth := 60) [*]; done) | dsimp only)

@[simp] theorem State_passesNewEpoch_kept (s : State) (hk : Kept qq mm s) : Kept qq mm (State.passesNewEpoch s) := by
  unfold State.passesNewEpoch
  (repeat' split) <;> simp_all (maxDischargeDepth := 60)

@[simp] theorem State_sendScales_kept (s : State) (c : Nat) (hk : Kept qq mm s) : Kept qq mm (State.sendScales s c) := by
  unfold State.sendScales
  try dsimp only
  repeat' (first | assumption | (simp (maxDischargeDepth := 60) [*]; done) | refine kept_foldl _ (fun s x hs => ?_) _ ?_ | refine kept_each _ (fun s x hs => ?_) _ ?_ | split | dsimp only)

@[simp] theorem State_packPassStart_kept (s : State) (c : Nat) (p : PendPass) (hk : Kept qq mm s) : Kept qq mm (State.packPassStart s c p) := by
  unfold State.packPassStart
  simp (maxDischargeDepth := 60) [hk]

@[simp] theorem execInspectPassStart_kept (ctx : Nat) (s : State) (hk : Kept qq mm s) : KeptOut qq mm (execInspectPassStart ctx s) := by
  unfold execInspectPassStart
  (repeat' split) <;> simp (maxDischargeDepth := 60) [hk]

@[simp] theorem execSnapshotMsg_kept (port : Nat) (h : PackHdr) (ex : ExHdr) (units : List UnitStat) (s : State) (hk : Kept qq mm s) : KeptOut qq mm (execSnapshotMsg port h ex units s) := by
  unfold execSnapshotMsg
  (repeat' split) <;> simp_all (maxDischargeDepth := 60)

@[simp] theorem execScaleSet_kept (port : Nat) (h : PackHdr) (ex : ExHdr) (units : List UnitScale) (s : State) (hk : Kept qq mm s) : KeptOut qq mm (execScaleSet port h ex units s) := by
  unfold execScaleSet
  try dsimp only
  repeat' (first | with_reducible assumption | with_reducible refine cmdKept_ite _ ?_ ?_ | with_reducible refine keptOut_ite _ ?_ ?_ | with_reducible refine kept_ite _ ?_ ?_ | with_reducible refine kept_foldl _ (fun s x hs => ?_) _ ?_ | with_reducible refine kept_each _ (fun s x hs => ?_) _ ?_ | with_reducible apply State_snapUnits_kept | split | (with_reducible refine (kept_mk ..).2 (keptAt_of ?_)) | with_reducible refine keptOut_next.2 ?_ | with_reducible refine State_runCmd_kept _ _ _ _ _ (fun t p ht => ?_) ?_ | with_reducible refine State_onFrame_kept _ _ _ _ _ (fun t ht => ?_) ?_ | with_reducible refine State_sendOnce_kept _ _ _ _ _ _ (fun t ht => ?_) ?_ | with_reducible refine State_kennelCmd_kept _ _ _ _ _ (fun t ht => ?_) ?_ | with_reducible refine State_kennelBoth_kept _ _ _ _ (fun t ht => ?_) ?_ | with_reducible refine State_kennelRead_kept _ _ (fun t ht => ?_) ?_ | with_reducible refine State_kennelSet_kept _ _ _ (fun t ht => ?_) ?_ | with_reducible refine State_kennelBootCmd_kept _ _ _ (fun t ht => ?_) ?_ | with_reducible refine koutKept_ite _ ?_ ?_ | with_reducible apply koutKept_some | with_reducible apply koutKept_none | with_reducible exact koutKept_bad | with_reducible apply koutKept_of | with_reducible apply cmdKept_done | with_reducible apply cmdKept_accepted | with_reducible exact cmdKept_no _ | with_reducible exact cmdKept_bad _ _ | with_reducible exact cmdKept_read _ |  (simp (maxDischargeDepth := 60) [*]; done) | dsimp only)

end Sys2Proof.Machine
end

