-- ==== Sys2Proof/Laws/KeptPackMember.lean ====
section
/-! SUPPORT. `Kept` through the operations of Machine/PackMember.lean. -/

namespace Sys2Proof.Machine

open Sys2Proof

variable {qq : List Instr} {mm : Marks}

@[simp] theorem State_endLead_kept (s : State) (newLead : Nat) (hk : Kept qq mm s) : Kept qq mm (State.endLead s newLead) := by
  unfold State.endLead
  try dsimp only
  repeat' (first | assumption | (simp (maxDischargeDepth := 60) [*]; done) | refine kept_foldl _ (fun s x hs => ?_) _ ?_ | refine kept_each _ (fun s x hs => ?_) _ ?_ | split | dsimp only)

@[simp] theorem State_sendKept_kept (s : State) (hk : Kept qq mm s) : Kept qq mm (State.sendKept s) := by
  unfold State.sendKept
  (repeat' split) <;> simp_all (maxDischargeDepth := 60)

@[simp] theorem execResultMsg_kept (port : Nat) (h : PackHdr) (ex : ExHdr) (rseq : Nat) (r : ResultRec) (s : State) (hk : Kept qq mm s) : KeptOut qq mm (execResultMsg port h ex rseq r s) := by
  unfold execResultMsg
  (repeat' split) <;> simp_all (maxDischargeDepth := 60)

@[simp] theorem execResendMsg_kept (port : Nat) (h : PackHdr) (ex : ExHdr) (type first last : Nat) (s : State) (hk : Kept qq mm s) : KeptOut qq mm (execResendMsg port h ex type first last s) := by
  unfold execResendMsg
  (repeat' split) <;> simp_all (maxDischargeDepth := 60)

@[simp] theorem State_sendTallies_kept (s : State) (hk : Kept qq mm s) : Kept qq mm (State.sendTallies s) := by
  unfold State.sendTallies
  (repeat' split) <;> simp_all (maxDischargeDepth := 60)

@[simp] theorem State_tallyCounter_kept (s : State) (ctx id : Nat) (hk : Kept qq mm s) : Kept qq mm (s.tallyCounter ctx id) := by
  unfold State.tallyCounter
  have hb : ∀ d : CtrDecl, Kept qq mm ((s.bindCounter ctx d).getD s) := fun d => by
    cases h : s.bindCounter ctx d with
    | none => exact hk
    | some t => exact State_bindCounter_kept _ _ _ _ hk h
  cases s.physOf ctx id with
  | none =>
    dsimp only
    split
    · exact hb _
    · exact State_releaseBarrier_kept _ _ _ _ _ (State_updCounter_kept _ _ _ (hb _))
  | some p =>
    dsimp only
    split
    · exact hk
    · exact State_releaseBarrier_kept _ _ _ _ _ (State_updCounter_kept _ _ _ hk)

@[simp] theorem execTallyFrame_kept (port : Nat) (h : PackHdr) (pos : Nat) (entries : List (Nat × Nat × Nat)) (s : State) (hk : Kept qq mm s) : KeptOut qq mm (execTallyFrame port h pos entries s) := by
  unfold execTallyFrame
  (repeat' split) <;> simp_all (maxDischargeDepth := 60)

@[simp] theorem State_putState_kept (s : State) (m : Member) (bytes : List Byte) (poison : Bool) (hk : Kept qq mm s) : Kept qq mm (State.putState s m bytes poison) := by
  unfold State.putState
  simp (maxDischargeDepth := 60) [hk]

@[simp] theorem State_startWith_kept (s : State) (m : HandoverMsg) (sidx : Nat) (hk : Kept qq mm s) : Kept qq mm (State.startWith s m sidx) := by
  unfold State.startWith
  (repeat' split) <;> simp (maxDischargeDepth := 60) [hk]

@[simp] theorem State_newRun_kept (s : State) (hk : Kept qq mm s) : Kept qq mm (State.newRun s) := by
  unfold State.newRun
  simp (maxDischargeDepth := 60) [hk]

@[simp] theorem State_takeRole_kept (s : State) (hk : Kept qq mm s) : Kept qq mm (State.takeRole s) := by
  unfold State.takeRole
  simp (maxDischargeDepth := 60) [hk]

@[simp] theorem State_resumeRole_kept (s : State) (hk : Kept qq mm s) : Kept qq mm (State.resumeRole s) := by
  unfold State.resumeRole
  (repeat' split) <;> simp (maxDischargeDepth := 60) [hk]

@[simp] theorem State_resendTokens_kept (s : State) (hk : Kept qq mm s) : Kept qq mm (State.resendTokens s) := by
  unfold State.resendTokens
  (repeat' split) <;> simp_all (maxDischargeDepth := 60)

@[simp] theorem State_promote_kept (s : State) (hk : Kept qq mm s) : Kept qq mm (State.promote s) := by
  unfold State.promote
  simp (maxDischargeDepth := 60) [hk]

@[simp] theorem State_joinPack_kept (s : State) (hk : Kept qq mm s) : Kept qq mm (State.joinPack s) := by
  unfold State.joinPack
  simp (maxDischargeDepth := 60) [hk]

@[simp] theorem State_adoptOutside_kept (s : State) (m : Membership) (hk : Kept qq mm s) : Kept qq mm (State.adoptOutside s m) := by
  unfold State.adoptOutside
  simp (maxDischargeDepth := 60) [hk]

@[simp] theorem State_setMembership_kept (s : State) (m : Membership) (hk : Kept qq mm s) : Kept qq mm (State.setMembership s m) := by
  unfold State.setMembership
  simp (maxDischargeDepth := 60) [hk]

@[simp] theorem State_leadMoved_kept (s : State) (wasLead : Bool) (m : Membership) (hk : Kept qq mm s) : Kept qq mm (State.leadMoved s wasLead m) := by
  unfold State.leadMoved
  (repeat' split) <;> simp_all (maxDischargeDepth := 60)

@[simp] theorem State_followRun_kept (s : State) (hk : Kept qq mm s) : Kept qq mm (State.followRun s) := by
  unfold State.followRun
  (repeat' split) <;> simp_all (maxDischargeDepth := 60)

@[simp] theorem State_followRoles_kept (s : State) (before : Pack) (hk : Kept qq mm s) : Kept qq mm (State.followRoles s before) := by
  unfold State.followRoles
  dsimp only
  (repeat' split) <;> simp (maxDischargeDepth := 60) [hk]

@[simp] theorem State_adopt_kept (s : State) (m : Membership) (hk : Kept qq mm s) : Kept qq mm (State.adopt s m) := by
  unfold State.adopt
  simp (maxDischargeDepth := 60) [hk]

@[simp] theorem State_sendLeadHb_kept (s : State) (hk : Kept qq mm s) : Kept qq mm (State.sendLeadHb s) := by
  unfold State.sendLeadHb
  simp (maxDischargeDepth := 60) [hk]

@[simp] theorem State_loseOffice_kept (s : State) (hk : Kept qq mm s) : Kept qq mm (State.loseOffice s) := by
  unfold State.loseOffice
  simp (maxDischargeDepth := 60) [hk]

@[simp] theorem State_newEpoch_kept (s : State) (epoch : Nat) (live : List Nat) (fill : Option Nat) (hk : Kept qq mm s) : Kept qq mm (State.newEpoch s epoch live fill) := by
  unfold State.newEpoch
  (repeat' split) <;> simp_all (maxDischargeDepth := 60)

@[simp] theorem execLeadHbSend_kept (s : State) (hk : Kept qq mm s) : KeptOut qq mm (execLeadHbSend s) := by
  unfold execLeadHbSend
  simp (maxDischargeDepth := 60) [hk]

@[simp] theorem execMemberTimeout_kept (pos : Nat) (s : State) (hk : Kept qq mm s) : KeptOut qq mm (execMemberTimeout pos s) := by
  unfold execMemberTimeout
  simp (maxDischargeDepth := 60) [hk]

@[simp] theorem State_admitPos_kept (s : State) (pos flags : Nat) (hk : Kept qq mm s) : Kept qq mm (State.admitPos s pos flags) := by
  unfold State.admitPos
  simp (maxDischargeDepth := 60) [hk]

@[simp] theorem State_heardMember_kept (s : State) (pos flags : Nat) (ports : List Nat) (held : Option Nat) (rsent : Nat) (hk : Kept qq mm s) : Kept qq mm (State.heardMember s pos flags ports held rsent) := by
  unfold State.heardMember
  simp (maxDischargeDepth := 60) [hk]

@[simp] theorem execMemberHb_kept (port : Nat) (h : PackHdr) (epoch pos flags : Nat) (ports : List Nat) (answer : Nat) (held : Option Nat) (rsent : Nat) (s : State) (hk : Kept qq mm s) : KeptOut qq mm (execMemberHb port h epoch pos flags ports answer held rsent s) := by
  unfold execMemberHb
  try dsimp only
  repeat' (first | with_reducible assumption | with_reducible refine cmdKept_ite _ ?_ ?_ | with_reducible refine keptOut_ite _ ?_ ?_ | with_reducible refine kept_ite _ ?_ ?_ | with_reducible refine kept_foldl _ (fun s x hs => ?_) _ ?_ | with_reducible refine kept_each _ (fun s x hs => ?_) _ ?_ | with_reducible apply State_answer_kept | with_reducible apply State_heardMember_kept | with_reducible apply State_admitPos_kept | split | (with_reducible refine (kept_mk ..).2 (keptAt_of ?_)) | with_reducible refine keptOut_next.2 ?_ | with_reducible refine State_runCmd_kept _ _ _ _ _ (fun t p ht => ?_) ?_ | with_reducible refine State_onFrame_kept _ _ _ _ _ (fun t ht => ?_) ?_ | with_reducible refine State_sendOnce_kept _ _ _ _ _ _ (fun t ht => ?_) ?_ | with_reducible refine State_kennelCmd_kept _ _ _ _ _ (fun t ht => ?_) ?_ | with_reducible refine State_kennelBoth_kept _ _ _ _ (fun t ht => ?_) ?_ | with_reducible refine State_kennelRead_kept _ _ (fun t ht => ?_) ?_ | with_reducible refine State_kennelSet_kept _ _ _ (fun t ht => ?_) ?_ | with_reducible refine State_kennelBootCmd_kept _ _ _ (fun t ht => ?_) ?_ | with_reducible refine koutKept_ite _ ?_ ?_ | with_reducible apply koutKept_some | with_reducible apply koutKept_none | with_reducible exact koutKept_bad | with_reducible apply koutKept_of | with_reducible apply cmdKept_done | with_reducible apply cmdKept_accepted | with_reducible exact cmdKept_no _ | with_reducible exact cmdKept_bad _ _ | with_reducible exact cmdKept_read _ |  (simp (maxDischargeDepth := 60) [*]; done) | dsimp only)

@[simp] theorem State_sendMemberHb_kept (s : State) (dst answer : Nat) (hk : Kept qq mm s) : Kept qq mm (State.sendMemberHb s dst answer) := by
  unfold State.sendMemberHb
  simp (maxDischargeDepth := 60) [hk]

@[simp] theorem execMemberHbSend_kept (s : State) (hk : Kept qq mm s) : KeptOut qq mm (execMemberHbSend s) := by
  unfold execMemberHbSend
  simp (maxDischargeDepth := 60) [hk]

@[simp] theorem execLeadHb_kept (port : Nat) (h : PackHdr) (epoch lead fill source : Nat) (standby : Option Nat) (live : Nat) (linkMap : List Nat) (size run : Nat) (issued : List Nat) (s : State) (hk : Kept qq mm s) : KeptOut qq mm (execLeadHb port h epoch lead fill source standby live linkMap size run issued s) := by
  unfold execLeadHb
  (repeat' split) <;> simp_all (maxDischargeDepth := 60)

@[simp] theorem execLeadLossTimeout_kept (s : State) (hk : Kept qq mm s) : KeptOut qq mm (execLeadLossTimeout s) := by
  unfold execLeadLossTimeout
  simp (maxDischargeDepth := 60) [hk]

@[simp] theorem State_claimNow_kept (s : State) (hk : Kept qq mm s) : Kept qq mm (State.claimNow s) := by
  unfold State.claimNow
  simp (maxDischargeDepth := 60) [hk]

@[simp] theorem execClaimDelayExpire_kept (s : State) (hk : Kept qq mm s) : KeptOut qq mm (execClaimDelayExpire s) := by
  unfold execClaimDelayExpire
  simp (maxDischargeDepth := 60) [hk]

@[simp] theorem execLeadClaim_kept (port : Nat) (h : PackHdr) (epoch pos : Nat) (s : State) (hk : Kept qq mm s) : KeptOut qq mm (execLeadClaim port h epoch pos s) := by
  unfold execLeadClaim
  (repeat' split) <;> simp_all (maxDischargeDepth := 60)

@[simp] theorem execClaimQuorumTimeout_kept (s : State) (hk : Kept qq mm s) : KeptOut qq mm (execClaimQuorumTimeout s) := by
  unfold execClaimQuorumTimeout
  (repeat' split) <;> simp (maxDischargeDepth := 60) [hk]

@[simp] theorem execClaimRepeat_kept (s : State) (hk : Kept qq mm s) : KeptOut qq mm (execClaimRepeat s) := by
  unfold execClaimRepeat
  simp (maxDischargeDepth := 60) [hk]

@[simp] theorem State_leaveAll_kept (s : State) (hk : Kept qq mm s) : Kept qq mm (State.leaveAll s) := by
  unfold State.leaveAll
  (repeat' split) <;> simp_all (maxDischargeDepth := 60)

@[simp] theorem State_fillAlone_kept (s : State) (hk : Kept qq mm s) : Kept qq mm (State.fillAlone s) := by
  unfold State.fillAlone
  dsimp only
  (repeat' split) <;> simp (maxDischargeDepth := 60) [hk]

@[simp] theorem State_cutOff_kept (s : State) (hk : Kept qq mm s) : Kept qq mm (State.cutOff s) := by
  unfold State.cutOff
  simp (maxDischargeDepth := 60) [hk]

@[simp] theorem State_notAdmitted_kept (s : State) (hk : Kept qq mm s) : Kept qq mm (State.notAdmitted s) := by
  unfold State.notAdmitted
  simp (maxDischargeDepth := 60) [hk]

@[simp] theorem State_sourceAlone_kept (s : State) (hk : Kept qq mm s) : Kept qq mm (State.sourceAlone s) := by
  unfold State.sourceAlone
  simp (maxDischargeDepth := 60) [hk]

@[simp] theorem execDetachTimeout_kept (s : State) (hk : Kept qq mm s) : KeptOut qq mm (execDetachTimeout s) := by
  unfold execDetachTimeout
  simp (maxDischargeDepth := 60) [hk]

@[simp] theorem State_runFor_kept (s : State) (sidx : Nat) (hk : Kept qq mm s) : Kept qq mm (State.runFor s sidx) := by
  unfold State.runFor
  (repeat' split) <;> simp (maxDischargeDepth := 60) [hk]

@[simp] theorem execTokenFrame_kept (port : Nat) (h : PackHdr) (sidx flagCode : Nat) (bytes : List Byte) (s : State) (hk : Kept qq mm s) : KeptOut qq mm (execTokenFrame port h sidx flagCode bytes s) := by
  unfold execTokenFrame
  try dsimp only
  repeat' (first | with_reducible assumption | with_reducible refine cmdKept_ite _ ?_ ?_ | with_reducible refine keptOut_ite _ ?_ ?_ | with_reducible refine kept_ite _ ?_ ?_ | with_reducible refine kept_foldl _ (fun s x hs => ?_) _ ?_ | with_reducible refine kept_each _ (fun s x hs => ?_) _ ?_ | with_reducible apply State_placeFor_kept | with_reducible apply State_newRun_kept | with_reducible apply State_runFor_kept | with_reducible apply State_takeToken_kept | with_reducible apply State_packSend_kept | split | (with_reducible refine (kept_mk ..).2 (keptAt_of ?_)) | with_reducible refine keptOut_next.2 ?_ | with_reducible refine State_runCmd_kept _ _ _ _ _ (fun t p ht => ?_) ?_ | with_reducible refine State_onFrame_kept _ _ _ _ _ (fun t ht => ?_) ?_ | with_reducible refine State_sendOnce_kept _ _ _ _ _ _ (fun t ht => ?_) ?_ | with_reducible refine State_kennelCmd_kept _ _ _ _ _ (fun t ht => ?_) ?_ | with_reducible refine State_kennelBoth_kept _ _ _ _ (fun t ht => ?_) ?_ | with_reducible refine State_kennelRead_kept _ _ (fun t ht => ?_) ?_ | with_reducible refine State_kennelSet_kept _ _ _ (fun t ht => ?_) ?_ | with_reducible refine State_kennelBootCmd_kept _ _ _ (fun t ht => ?_) ?_ | with_reducible refine koutKept_ite _ ?_ ?_ | with_reducible apply koutKept_some | with_reducible apply koutKept_none | with_reducible exact koutKept_bad | with_reducible apply koutKept_of | with_reducible apply cmdKept_done | with_reducible apply cmdKept_accepted | with_reducible exact cmdKept_no _ | with_reducible exact cmdKept_bad _ _ | with_reducible exact cmdKept_read _ |  (simp (maxDischargeDepth := 60) [*]; done) | dsimp only)

@[simp] theorem execTokenAck_kept (port : Nat) (h : PackHdr) (sidx : Nat) (s : State) (hk : Kept qq mm s) : KeptOut qq mm (execTokenAck port h sidx s) := by
  unfold execTokenAck
  (repeat' split) <;> simp_all (maxDischargeDepth := 60)

@[simp] theorem execHandoverPrep_kept (port : Nat) (h : PackHdr) (period sidx fromPos toPos : Nat) (isAck : Bool) (s : State) (hk : Kept qq mm s) : KeptOut qq mm (execHandoverPrep port h period sidx fromPos toPos isAck s) := by
  unfold execHandoverPrep
  try dsimp only
  repeat' (first | with_reducible assumption | with_reducible refine cmdKept_ite _ ?_ ?_ | with_reducible refine keptOut_ite _ ?_ ?_ | with_reducible refine kept_ite _ ?_ ?_ | with_reducible refine kept_foldl _ (fun s x hs => ?_) _ ?_ | with_reducible refine kept_each _ (fun s x hs => ?_) _ ?_ | with_reducible apply State_tryHandover_kept | with_reducible apply State_packSend_kept | split | (with_reducible refine (kept_mk ..).2 (keptAt_of ?_)) | with_reducible refine keptOut_next.2 ?_ | with_reducible refine State_runCmd_kept _ _ _ _ _ (fun t p ht => ?_) ?_ | with_reducible refine State_onFrame_kept _ _ _ _ _ (fun t ht => ?_) ?_ | with_reducible refine State_sendOnce_kept _ _ _ _ _ _ (fun t ht => ?_) ?_ | with_reducible refine State_kennelCmd_kept _ _ _ _ _ (fun t ht => ?_) ?_ | with_reducible refine State_kennelBoth_kept _ _ _ _ (fun t ht => ?_) ?_ | with_reducible refine State_kennelRead_kept _ _ (fun t ht => ?_) ?_ | with_reducible refine State_kennelSet_kept _ _ _ (fun t ht => ?_) ?_ | with_reducible refine State_kennelBootCmd_kept _ _ _ (fun t ht => ?_) ?_ | with_reducible refine koutKept_ite _ ?_ ?_ | with_reducible apply koutKept_some | with_reducible apply koutKept_none | with_reducible exact koutKept_bad | with_reducible apply koutKept_of | with_reducible apply cmdKept_done | with_reducible apply cmdKept_accepted | with_reducible exact cmdKept_no _ | with_reducible exact cmdKept_bad _ _ | with_reducible exact cmdKept_read _ |  (simp (maxDischargeDepth := 60) [*]; done) | dsimp only)

@[simp] theorem execHandoverMsg_kept (port : Nat) (h : PackHdr) (ex : ExHdr) (m : HandoverMsg) (s : State) (hk : Kept qq mm s) :
    KeptOut qq mm (execHandoverMsg port h ex m s) := by
  unfold execHandoverMsg
  refine State_onFrame_kept _ _ _ _ _ (fun t ht => ?_) hk
  split
  · exact ht
  · next r _ =>
    refine kept_ite _ ht ?_
    have h1 : Kept qq mm ((((if r.placed then t else t.placeRing.newRun).runFor r.sidx).startWith
        { m with poisoned := m.poisoned || h.poison } r.sidx)) := by
      simp (maxDischargeDepth := 60) [ht]
    exact kept_ite _ (State_syncIngest_kept _ ((kept_mk ..).2 (keptAt_of h1))) h1

@[simp] theorem execSwapReady_kept (port : Nat) (h : PackHdr) (imageId pos : Nat) (s : State) (hk : Kept qq mm s) : KeptOut qq mm (execSwapReady port h imageId pos s) := by
  unfold execSwapReady
  try dsimp only
  repeat' (first | with_reducible assumption | with_reducible refine cmdKept_ite _ ?_ ?_ | with_reducible refine keptOut_ite _ ?_ ?_ | with_reducible refine kept_ite _ ?_ ?_ | with_reducible refine kept_foldl _ (fun s x hs => ?_) _ ?_ | with_reducible refine kept_each _ (fun s x hs => ?_) _ ?_ | with_reducible apply State_trySwapAt_kept | with_reducible apply State_beginSwap_kept | split | (with_reducible refine (kept_mk ..).2 (keptAt_of ?_)) | with_reducible refine keptOut_next.2 ?_ | with_reducible refine State_runCmd_kept _ _ _ _ _ (fun t p ht => ?_) ?_ | with_reducible refine State_onFrame_kept _ _ _ _ _ (fun t ht => ?_) ?_ | with_reducible refine State_sendOnce_kept _ _ _ _ _ _ (fun t ht => ?_) ?_ | with_reducible refine State_kennelCmd_kept _ _ _ _ _ (fun t ht => ?_) ?_ | with_reducible refine State_kennelBoth_kept _ _ _ _ (fun t ht => ?_) ?_ | with_reducible refine State_kennelRead_kept _ _ (fun t ht => ?_) ?_ | with_reducible refine State_kennelSet_kept _ _ _ (fun t ht => ?_) ?_ | with_reducible refine State_kennelBootCmd_kept _ _ _ (fun t ht => ?_) ?_ | with_reducible refine koutKept_ite _ ?_ ?_ | with_reducible apply koutKept_some | with_reducible apply koutKept_none | with_reducible exact koutKept_bad | with_reducible apply koutKept_of | with_reducible apply cmdKept_done | with_reducible apply cmdKept_accepted | with_reducible exact cmdKept_no _ | with_reducible exact cmdKept_bad _ _ | with_reducible exact cmdKept_read _ |  (simp (maxDischargeDepth := 60) [*]; done) | dsimp only)

@[simp] theorem execSwapAt_kept (port : Nat) (h : PackHdr) (imageId period : Nat) (s : State) (hk : Kept qq mm s) : KeptOut qq mm (execSwapAt port h imageId period s) := by
  unfold execSwapAt
  (repeat' split) <;> simp_all (maxDischargeDepth := 60)

@[simp] theorem execSwapCommit_kept (port : Nat) (h : PackHdr) (imageId period : Nat) (s : State) (hk : Kept qq mm s) : KeptOut qq mm (execSwapCommit port h imageId period s) := by
  unfold execSwapCommit
  (repeat' split) <;> simp_all (maxDischargeDepth := 60)

end Sys2Proof.Machine
end

