-- ==== Sys2Proof/Laws/Tab.lean ====
section
/-! SUPPORT. Tables: a read after a write, and the canonical form that every write keeps. -/

namespace Sys2Proof

variable {α : Type} {d : α}

theorem Tab.get_drop (t : Tab α) (k j : Nat) : Tab.get d (Tab.drop t k) j = if k = j then d else Tab.get d t j := by
  induction t with
  | nil => simp [Tab.drop, Tab.get]
  | cons e t ih =>
    obtain ⟨a, v⟩ := e
    by_cases hk : a = k
    · by_cases hj : k = j
      · simp_all [Tab.drop, Tab.get]
      · have : ¬ a = j := by omega
        simp_all [Tab.drop, Tab.get]
    · by_cases hj : a = j
      · have : ¬ k = j := by omega
        simp_all [Tab.drop, Tab.get]
      · simp_all [Tab.drop, Tab.get]

theorem Tab.get_put (t : Tab α) (k j : Nat) (v : α) : Tab.get d (Tab.put t k v) j = if k = j then v else Tab.get d t j := by
  induction t with
  | nil => simp [Tab.put, Tab.get]
  | cons e t ih =>
    obtain ⟨a, w⟩ := e
    by_cases ha : a < k
    · by_cases hj : a = j
      · have : ¬ k = j := by omega
        simp_all [Tab.put, Tab.get]
      · simp_all [Tab.put, Tab.get]
    · simp [Tab.put, Tab.get, ha]

theorem Tab.above_drop [DecidableEq α] (t : Tab α) (lo k : Nat) (h : Tab.above d lo t = true) : Tab.above d lo (Tab.drop t k) = true := by
  induction t generalizing lo with
  | nil => rfl
  | cons e t ih =>
    obtain ⟨a, v⟩ := e
    simp only [Tab.above, Bool.and_eq_true, decide_eq_true_eq] at h
    by_cases hk : a = k
    · simp only [Tab.drop, hk, if_true]
      refine ih lo ?_
      have h2 := h.2
      clear ih
      cases t with
      | nil => rfl
      | cons e t =>
        obtain ⟨b, w⟩ := e
        simp only [Tab.above, Bool.and_eq_true, decide_eq_true_eq] at h2 ⊢
        exact ⟨⟨by omega, h2.1.2⟩, h2.2⟩
    · simp only [Tab.drop, hk, if_false, Tab.above, Bool.and_eq_true, decide_eq_true_eq]
      exact ⟨h.1, ih a h.2⟩

theorem Tab.above_put [DecidableEq α] (t : Tab α) (lo k : Nat) (v : α) (hv : v ≠ d) (hk : lo < k) (hn : ∀ e ∈ t, e.1 ≠ k)
    (h : Tab.above d lo t = true) : Tab.above d lo (Tab.put t k v) = true := by
  induction t generalizing lo with
  | nil => simp [Tab.put, Tab.above, hk, hv]
  | cons e t ih =>
    obtain ⟨a, w⟩ := e
    have ha : a ≠ k := hn (a, w) (by simp)
    simp only [Tab.above, Bool.and_eq_true, decide_eq_true_eq] at h
    by_cases hlt : a < k
    · simp only [Tab.put, hlt, if_true, Tab.above, Bool.and_eq_true, decide_eq_true_eq]
      exact ⟨h.1, ih a hlt (fun e he => hn e (by simp [he])) h.2⟩
    · simp only [Tab.put, hlt, if_false, Tab.above, Bool.and_eq_true, decide_eq_true_eq]
      exact ⟨⟨hk, hv⟩, ⟨by omega, h.1.2⟩, h.2⟩

theorem Tab.drop_no (t : Tab α) (k : Nat) : ∀ e ∈ Tab.drop t k, e.1 ≠ k := by
  induction t with
  | nil => simp [Tab.drop]
  | cons e t ih =>
    obtain ⟨a, v⟩ := e
    by_cases hk : a = k
    · simpa [Tab.drop, hk] using ih
    · simp only [Tab.drop, hk, if_false, List.mem_cons, forall_eq_or_imp, ne_eq, not_false_eq_true, true_and]
      exact ih

theorem Tab.wf_drop [DecidableEq α] (t : Tab α) (k : Nat) (h : Tab.wf d t = true) : Tab.wf d (Tab.drop t k) = true := by
  induction t with
  | nil => rfl
  | cons e t ih =>
    obtain ⟨a, v⟩ := e
    simp only [Tab.wf, Bool.and_eq_true, decide_eq_true_eq] at h
    by_cases hk : a = k
    · simp only [Tab.drop, hk, if_true]
      refine ih ?_
      have h2 := h.2
      clear ih
      cases t with
      | nil => rfl
      | cons e t =>
        obtain ⟨b, w⟩ := e
        simp only [Tab.above, Tab.wf, Bool.and_eq_true, decide_eq_true_eq] at h2 ⊢
        exact ⟨h2.1.2, h2.2⟩
    · simp only [Tab.drop, hk, if_false, Tab.wf, Bool.and_eq_true, decide_eq_true_eq]
      exact ⟨h.1, Tab.above_drop _ _ _ h.2⟩

theorem Tab.wf_put [DecidableEq α] (t : Tab α) (k : Nat) (v : α) (hv : v ≠ d) (hn : ∀ e ∈ t, e.1 ≠ k) (h : Tab.wf d t = true) :
    Tab.wf d (Tab.put t k v) = true := by
  cases t with
  | nil => simp [Tab.put, Tab.wf, Tab.above, hv]
  | cons e t =>
    obtain ⟨a, w⟩ := e
    have ha : a ≠ k := hn (a, w) (by simp)
    simp only [Tab.wf, Bool.and_eq_true, decide_eq_true_eq] at h
    by_cases hlt : a < k
    · simp only [Tab.put, hlt, if_true, Tab.wf, Bool.and_eq_true, decide_eq_true_eq]
      exact ⟨h.1, Tab.above_put _ _ _ _ hv hlt (fun e he => hn e (by simp [he])) h.2⟩
    · simp only [Tab.put, hlt, if_false, Tab.wf, Tab.above, Bool.and_eq_true, decide_eq_true_eq]
      exact ⟨hv, ⟨by omega, h.1⟩, h.2⟩

/-- A read after a write: the value written at its number, every other value as before. -/
theorem Tab.get_set [DecidableEq α] (t : Tab α) (k j : Nat) (v : α) : Tab.get d (Tab.set d t k v) j = if k = j then v else Tab.get d t j := by
  unfold Tab.set
  split
  · next h => rw [Tab.get_drop, h]
  · rw [Tab.get_put, Tab.get_drop]
    split <;> simp_all

@[simp] theorem Tab.get_set_same [DecidableEq α] (t : Tab α) (k : Nat) (v : α) : Tab.get d (Tab.set d t k v) k = v := by
  rw [Tab.get_set, if_pos rfl]

theorem Tab.get_set_ne [DecidableEq α] (t : Tab α) (k j : Nat) (v : α) (h : k ≠ j) : Tab.get d (Tab.set d t k v) j = Tab.get d t j := by
  rw [Tab.get_set, if_neg h]

@[simp] theorem Tab.get_upd_same [DecidableEq α] (t : Tab α) (k : Nat) (f : α → α) : Tab.get d (Tab.upd d t k f) k = f (Tab.get d t k) :=
  Tab.get_set_same _ _ _

theorem Tab.get_upd_ne [DecidableEq α] (t : Tab α) (k j : Nat) (f : α → α) (h : k ≠ j) : Tab.get d (Tab.upd d t k f) j = Tab.get d t j :=
  Tab.get_set_ne _ _ _ _ h

/-- A write keeps the canonical form. -/
theorem Tab.wf_set [DecidableEq α] (t : Tab α) (k : Nat) (v : α) (h : Tab.wf d t = true) : Tab.wf d (Tab.set d t k v) = true := by
  unfold Tab.set
  split
  · exact Tab.wf_drop _ _ h
  · next hv => exact Tab.wf_put _ _ _ hv (Tab.drop_no _ _) (Tab.wf_drop _ _ h)

theorem Tab.above_filter [DecidableEq α] (p : Nat × α → Bool) (t : Tab α) (lo : Nat) (h : Tab.above d lo t = true) :
    Tab.above d lo (t.filter p) = true := by
  induction t generalizing lo with
  | nil => rfl
  | cons e t ih =>
    obtain ⟨a, v⟩ := e
    simp only [Tab.above, Bool.and_eq_true, decide_eq_true_eq] at h
    have hm : Tab.above d lo t = true := by
      have h2 := h.2
      clear ih
      cases t with
      | nil => rfl
      | cons e t =>
        obtain ⟨b, w⟩ := e
        simp only [Tab.above, Bool.and_eq_true, decide_eq_true_eq] at h2 ⊢
        exact ⟨⟨by omega, h2.1.2⟩, h2.2⟩
    by_cases hp : p (a, v) = true
    · simp only [List.filter_cons, hp, if_true, Tab.above, Bool.and_eq_true, decide_eq_true_eq]
      exact ⟨h.1, ih a h.2⟩
    · simp only [List.filter_cons, hp, if_false]
      exact ih lo hm

/-- Entries that are dropped leave the canonical form. -/
theorem Tab.wf_filter [DecidableEq α] (p : Nat × α → Bool) (t : Tab α) (h : Tab.wf d t = true) : Tab.wf d (t.filter p) = true := by
  induction t with
  | nil => rfl
  | cons e t ih =>
    obtain ⟨a, v⟩ := e
    simp only [Tab.wf, Bool.and_eq_true, decide_eq_true_eq] at h
    have hm : Tab.wf d t = true := by
      have h2 := h.2
      clear ih
      cases t with
      | nil => rfl
      | cons e t =>
        obtain ⟨b, w⟩ := e
        simp only [Tab.above, Tab.wf, Bool.and_eq_true, decide_eq_true_eq] at h2 ⊢
        exact ⟨h2.1.2, h2.2⟩
    by_cases hp : p (a, v) = true
    · simp only [List.filter_cons, hp, if_true, Tab.wf, Bool.and_eq_true, decide_eq_true_eq]
      exact ⟨h.1, Tab.above_filter _ _ _ h.2⟩
    · simp only [List.filter_cons, hp]
      exact ih hm

theorem Tab.get_filter (p : Nat → Bool) (t : Tab α) (j : Nat) :
    Tab.get d (t.filter (fun e => p e.1)) j = if p j then Tab.get d t j else d := by
  induction t with
  | nil => simp [Tab.get]
  | cons e t ih =>
    obtain ⟨a, v⟩ := e
    by_cases hp : p a = true
    · by_cases hj : a = j
      · subst hj
        simp [List.filter_cons, hp, Tab.get]
      · simp [List.filter_cons, hp, Tab.get, hj, ih]
    · by_cases hj : a = j
      · subst hj
        simp [List.filter_cons, hp, ih]
      · simp [List.filter_cons, hp, Tab.get, hj, ih]

end Sys2Proof
end

