-- ==== Sys2Proof/Laws/State.lean ====
section
/-! SUPPORT. What each plain update of the state leaves as it was, field by field, and what it writes. -/

namespace Sys2Proof.Machine

open Sys2Proof

variable (s : State)

/-! ## Fields that an update leaves -/

@[simp] theorem State.updEngine_pending (e : Nat) (f : Engine → Engine) : (s.updEngine e f).pending = s.pending := rfl
@[simp] theorem State.updEngine_life (e : Nat) (f : Engine → Engine) : (s.updEngine e f).life = s.life := rfl
@[simp] theorem State.updEngine_supply (e : Nat) (f : Engine → Engine) : (s.updEngine e f).supply = s.supply := rfl
@[simp] theorem State.updEngine_clks (e : Nat) (f : Engine → Engine) : (s.updEngine e f).clks = s.clks := rfl
@[simp] theorem State.updEngine_plls (e : Nat) (f : Engine → Engine) : (s.updEngine e f).plls = s.plls := rfl
@[simp] theorem State.updEngine_doms (e : Nat) (f : Engine → Engine) : (s.updEngine e f).doms = s.doms := rfl
@[simp] theorem State.updEngine_temps (e : Nat) (f : Engine → Engine) : (s.updEngine e f).temps = s.temps := rfl
@[simp] theorem State.updEngine_excluded (e : Nat) (f : Engine → Engine) : (s.updEngine e f).excluded = s.excluded := rfl
@[simp] theorem State.updEngine_cores (e : Nat) (f : Engine → Engine) : (s.updEngine e f).cores = s.cores := rfl
@[simp] theorem State.updEngine_threads (e : Nat) (f : Engine → Engine) : (s.updEngine e f).threads = s.threads := rfl
@[simp] theorem State.updEngine_rings (e : Nat) (f : Engine → Engine) : (s.updEngine e f).rings = s.rings := rfl
@[simp] theorem State.updEngine_channels (e : Nat) (f : Engine → Engine) : (s.updEngine e f).channels = s.channels := rfl
@[simp] theorem State.updEngine_sync (e : Nat) (f : Engine → Engine) : (s.updEngine e f).sync = s.sync := rfl
@[simp] theorem State.updEngine_ctxs (e : Nat) (f : Engine → Engine) : (s.updEngine e f).ctxs = s.ctxs := rfl
@[simp] theorem State.updEngine_watch (e : Nat) (f : Engine → Engine) : (s.updEngine e f).watch = s.watch := rfl
@[simp] theorem State.updEngine_mem (e : Nat) (f : Engine → Engine) : (s.updEngine e f).mem = s.mem := rfl
@[simp] theorem State.updEngine_hist (e : Nat) (f : Engine → Engine) : (s.updEngine e f).hist = s.hist := rfl
@[simp] theorem State.updEngine_ing (e : Nat) (f : Engine → Engine) : (s.updEngine e f).ing = s.ing := rfl
@[simp] theorem State.updEngine_comms (e : Nat) (f : Engine → Engine) : (s.updEngine e f).comms = s.comms := rfl
@[simp] theorem State.updEngine_img (e : Nat) (f : Engine → Engine) : (s.updEngine e f).img = s.img := rfl
@[simp] theorem State.updEngine_results (e : Nat) (f : Engine → Engine) : (s.updEngine e f).results = s.results := rfl
@[simp] theorem State.updEngine_io (e : Nat) (f : Engine → Engine) : (s.updEngine e f).io = s.io := rfl
@[simp] theorem State.updEngine_logs (e : Nat) (f : Engine → Engine) : (s.updEngine e f).logs = s.logs := rfl
@[simp] theorem State.updEngine_upk (e : Nat) (f : Engine → Engine) : (s.updEngine e f).upk = s.upk := rfl
@[simp] theorem State.updEngine_store (e : Nat) (f : Engine → Engine) : (s.updEngine e f).store = s.store := rfl
@[simp] theorem State.updEngine_opt (e : Nat) (f : Engine → Engine) : (s.updEngine e f).opt = s.opt := rfl
@[simp] theorem State.updEngine_trust (e : Nat) (f : Engine → Engine) : (s.updEngine e f).trust = s.trust := rfl
@[simp] theorem State.updEngine_ckpt (e : Nat) (f : Engine → Engine) : (s.updEngine e f).ckpt = s.ckpt := rfl
@[simp] theorem State.updEngine_kennel (e : Nat) (f : Engine → Engine) : (s.updEngine e f).kennel = s.kennel := rfl
@[simp] theorem State.updEngine_pack (e : Nat) (f : Engine → Engine) : (s.updEngine e f).pack = s.pack := rfl
@[simp] theorem State.updEngine_out (e : Nat) (f : Engine → Engine) : (s.updEngine e f).out = s.out := rfl
@[simp] theorem State.updEngine_draws (e : Nat) (f : Engine → Engine) : (s.updEngine e f).draws = s.draws := rfl

@[simp] theorem State.updCore_pending (k : Nat) (f : Core → Core) : (s.updCore k f).pending = s.pending := rfl
@[simp] theorem State.updCore_life (k : Nat) (f : Core → Core) : (s.updCore k f).life = s.life := rfl
@[simp] theorem State.updCore_supply (k : Nat) (f : Core → Core) : (s.updCore k f).supply = s.supply := rfl
@[simp] theorem State.updCore_clks (k : Nat) (f : Core → Core) : (s.updCore k f).clks = s.clks := rfl
@[simp] theorem State.updCore_plls (k : Nat) (f : Core → Core) : (s.updCore k f).plls = s.plls := rfl
@[simp] theorem State.updCore_doms (k : Nat) (f : Core → Core) : (s.updCore k f).doms = s.doms := rfl
@[simp] theorem State.updCore_temps (k : Nat) (f : Core → Core) : (s.updCore k f).temps = s.temps := rfl
@[simp] theorem State.updCore_excluded (k : Nat) (f : Core → Core) : (s.updCore k f).excluded = s.excluded := rfl
@[simp] theorem State.updCore_engines (k : Nat) (f : Core → Core) : (s.updCore k f).engines = s.engines := rfl
@[simp] theorem State.updCore_threads (k : Nat) (f : Core → Core) : (s.updCore k f).threads = s.threads := rfl
@[simp] theorem State.updCore_rings (k : Nat) (f : Core → Core) : (s.updCore k f).rings = s.rings := rfl
@[simp] theorem State.updCore_channels (k : Nat) (f : Core → Core) : (s.updCore k f).channels = s.channels := rfl
@[simp] theorem State.updCore_sync (k : Nat) (f : Core → Core) : (s.updCore k f).sync = s.sync := rfl
@[simp] theorem State.updCore_ctxs (k : Nat) (f : Core → Core) : (s.updCore k f).ctxs = s.ctxs := rfl
@[simp] theorem State.updCore_watch (k : Nat) (f : Core → Core) : (s.updCore k f).watch = s.watch := rfl
@[simp] theorem State.updCore_mem (k : Nat) (f : Core → Core) : (s.updCore k f).mem = s.mem := rfl
@[simp] theorem State.updCore_hist (k : Nat) (f : Core → Core) : (s.updCore k f).hist = s.hist := rfl
@[simp] theorem State.updCore_ing (k : Nat) (f : Core → Core) : (s.updCore k f).ing = s.ing := rfl
@[simp] theorem State.updCore_comms (k : Nat) (f : Core → Core) : (s.updCore k f).comms = s.comms := rfl
@[simp] theorem State.updCore_img (k : Nat) (f : Core → Core) : (s.updCore k f).img = s.img := rfl
@[simp] theorem State.updCore_results (k : Nat) (f : Core → Core) : (s.updCore k f).results = s.results := rfl
@[simp] theorem State.updCore_io (k : Nat) (f : Core → Core) : (s.updCore k f).io = s.io := rfl
@[simp] theorem State.updCore_logs (k : Nat) (f : Core → Core) : (s.updCore k f).logs = s.logs := rfl
@[simp] theorem State.updCore_upk (k : Nat) (f : Core → Core) : (s.updCore k f).upk = s.upk := rfl
@[simp] theorem State.updCore_store (k : Nat) (f : Core → Core) : (s.updCore k f).store = s.store := rfl
@[simp] theorem State.updCore_opt (k : Nat) (f : Core → Core) : (s.updCore k f).opt = s.opt := rfl
@[simp] theorem State.updCore_trust (k : Nat) (f : Core → Core) : (s.updCore k f).trust = s.trust := rfl
@[simp] theorem State.updCore_ckpt (k : Nat) (f : Core → Core) : (s.updCore k f).ckpt = s.ckpt := rfl
@[simp] theorem State.updCore_kennel (k : Nat) (f : Core → Core) : (s.updCore k f).kennel = s.kennel := rfl
@[simp] theorem State.updCore_pack (k : Nat) (f : Core → Core) : (s.updCore k f).pack = s.pack := rfl
@[simp] theorem State.updCore_out (k : Nat) (f : Core → Core) : (s.updCore k f).out = s.out := rfl
@[simp] theorem State.updCore_draws (k : Nat) (f : Core → Core) : (s.updCore k f).draws = s.draws := rfl

@[simp] theorem State.updThread_pending (t : Nat) (f : Thread → Thread) : (s.updThread t f).pending = s.pending := rfl
@[simp] theorem State.updThread_life (t : Nat) (f : Thread → Thread) : (s.updThread t f).life = s.life := rfl
@[simp] theorem State.updThread_supply (t : Nat) (f : Thread → Thread) : (s.updThread t f).supply = s.supply := rfl
@[simp] theorem State.updThread_clks (t : Nat) (f : Thread → Thread) : (s.updThread t f).clks = s.clks := rfl
@[simp] theorem State.updThread_plls (t : Nat) (f : Thread → Thread) : (s.updThread t f).plls = s.plls := rfl
@[simp] theorem State.updThread_doms (t : Nat) (f : Thread → Thread) : (s.updThread t f).doms = s.doms := rfl
@[simp] theorem State.updThread_temps (t : Nat) (f : Thread → Thread) : (s.updThread t f).temps = s.temps := rfl
@[simp] theorem State.updThread_excluded (t : Nat) (f : Thread → Thread) : (s.updThread t f).excluded = s.excluded := rfl
@[simp] theorem State.updThread_engines (t : Nat) (f : Thread → Thread) : (s.updThread t f).engines = s.engines := rfl
@[simp] theorem State.updThread_cores (t : Nat) (f : Thread → Thread) : (s.updThread t f).cores = s.cores := rfl
@[simp] theorem State.updThread_rings (t : Nat) (f : Thread → Thread) : (s.updThread t f).rings = s.rings := rfl
@[simp] theorem State.updThread_channels (t : Nat) (f : Thread → Thread) : (s.updThread t f).channels = s.channels := rfl
@[simp] theorem State.updThread_sync (t : Nat) (f : Thread → Thread) : (s.updThread t f).sync = s.sync := rfl
@[simp] theorem State.updThread_ctxs (t : Nat) (f : Thread → Thread) : (s.updThread t f).ctxs = s.ctxs := rfl
@[simp] theorem State.updThread_watch (t : Nat) (f : Thread → Thread) : (s.updThread t f).watch = s.watch := rfl
@[simp] theorem State.updThread_mem (t : Nat) (f : Thread → Thread) : (s.updThread t f).mem = s.mem := rfl
@[simp] theorem State.updThread_hist (t : Nat) (f : Thread → Thread) : (s.updThread t f).hist = s.hist := rfl
@[simp] theorem State.updThread_ing (t : Nat) (f : Thread → Thread) : (s.updThread t f).ing = s.ing := rfl
@[simp] theorem State.updThread_comms (t : Nat) (f : Thread → Thread) : (s.updThread t f).comms = s.comms := rfl
@[simp] theorem State.updThread_img (t : Nat) (f : Thread → Thread) : (s.updThread t f).img = s.img := rfl
@[simp] theorem State.updThread_results (t : Nat) (f : Thread → Thread) : (s.updThread t f).results = s.results := rfl
@[simp] theorem State.updThread_io (t : Nat) (f : Thread → Thread) : (s.updThread t f).io = s.io := rfl
@[simp] theorem State.updThread_logs (t : Nat) (f : Thread → Thread) : (s.updThread t f).logs = s.logs := rfl
@[simp] theorem State.updThread_upk (t : Nat) (f : Thread → Thread) : (s.updThread t f).upk = s.upk := rfl
@[simp] theorem State.updThread_store (t : Nat) (f : Thread → Thread) : (s.updThread t f).store = s.store := rfl
@[simp] theorem State.updThread_opt (t : Nat) (f : Thread → Thread) : (s.updThread t f).opt = s.opt := rfl
@[simp] theorem State.updThread_trust (t : Nat) (f : Thread → Thread) : (s.updThread t f).trust = s.trust := rfl
@[simp] theorem State.updThread_ckpt (t : Nat) (f : Thread → Thread) : (s.updThread t f).ckpt = s.ckpt := rfl
@[simp] theorem State.updThread_kennel (t : Nat) (f : Thread → Thread) : (s.updThread t f).kennel = s.kennel := rfl
@[simp] theorem State.updThread_pack (t : Nat) (f : Thread → Thread) : (s.updThread t f).pack = s.pack := rfl
@[simp] theorem State.updThread_out (t : Nat) (f : Thread → Thread) : (s.updThread t f).out = s.out := rfl
@[simp] theorem State.updThread_draws (t : Nat) (f : Thread → Thread) : (s.updThread t f).draws = s.draws := rfl

@[simp] theorem State.updRing_pending (r : Nat) (f : Ring → Ring) : (s.updRing r f).pending = s.pending := rfl
@[simp] theorem State.updRing_life (r : Nat) (f : Ring → Ring) : (s.updRing r f).life = s.life := rfl
@[simp] theorem State.updRing_supply (r : Nat) (f : Ring → Ring) : (s.updRing r f).supply = s.supply := rfl
@[simp] theorem State.updRing_clks (r : Nat) (f : Ring → Ring) : (s.updRing r f).clks = s.clks := rfl
@[simp] theorem State.updRing_plls (r : Nat) (f : Ring → Ring) : (s.updRing r f).plls = s.plls := rfl
@[simp] theorem State.updRing_doms (r : Nat) (f : Ring → Ring) : (s.updRing r f).doms = s.doms := rfl
@[simp] theorem State.updRing_temps (r : Nat) (f : Ring → Ring) : (s.updRing r f).temps = s.temps := rfl
@[simp] theorem State.updRing_excluded (r : Nat) (f : Ring → Ring) : (s.updRing r f).excluded = s.excluded := rfl
@[simp] theorem State.updRing_engines (r : Nat) (f : Ring → Ring) : (s.updRing r f).engines = s.engines := rfl
@[simp] theorem State.updRing_cores (r : Nat) (f : Ring → Ring) : (s.updRing r f).cores = s.cores := rfl
@[simp] theorem State.updRing_threads (r : Nat) (f : Ring → Ring) : (s.updRing r f).threads = s.threads := rfl
@[simp] theorem State.updRing_channels (r : Nat) (f : Ring → Ring) : (s.updRing r f).channels = s.channels := rfl
@[simp] theorem State.updRing_sync (r : Nat) (f : Ring → Ring) : (s.updRing r f).sync = s.sync := rfl
@[simp] theorem State.updRing_ctxs (r : Nat) (f : Ring → Ring) : (s.updRing r f).ctxs = s.ctxs := rfl
@[simp] theorem State.updRing_watch (r : Nat) (f : Ring → Ring) : (s.updRing r f).watch = s.watch := rfl
@[simp] theorem State.updRing_mem (r : Nat) (f : Ring → Ring) : (s.updRing r f).mem = s.mem := rfl
@[simp] theorem State.updRing_hist (r : Nat) (f : Ring → Ring) : (s.updRing r f).hist = s.hist := rfl
@[simp] theorem State.updRing_ing (r : Nat) (f : Ring → Ring) : (s.updRing r f).ing = s.ing := rfl
@[simp] theorem State.updRing_comms (r : Nat) (f : Ring → Ring) : (s.updRing r f).comms = s.comms := rfl
@[simp] theorem State.updRing_img (r : Nat) (f : Ring → Ring) : (s.updRing r f).img = s.img := rfl
@[simp] theorem State.updRing_results (r : Nat) (f : Ring → Ring) : (s.updRing r f).results = s.results := rfl
@[simp] theorem State.updRing_io (r : Nat) (f : Ring → Ring) : (s.updRing r f).io = s.io := rfl
@[simp] theorem State.updRing_logs (r : Nat) (f : Ring → Ring) : (s.updRing r f).logs = s.logs := rfl
@[simp] theorem State.updRing_upk (r : Nat) (f : Ring → Ring) : (s.updRing r f).upk = s.upk := rfl
@[simp] theorem State.updRing_store (r : Nat) (f : Ring → Ring) : (s.updRing r f).store = s.store := rfl
@[simp] theorem State.updRing_opt (r : Nat) (f : Ring → Ring) : (s.updRing r f).opt = s.opt := rfl
@[simp] theorem State.updRing_trust (r : Nat) (f : Ring → Ring) : (s.updRing r f).trust = s.trust := rfl
@[simp] theorem State.updRing_ckpt (r : Nat) (f : Ring → Ring) : (s.updRing r f).ckpt = s.ckpt := rfl
@[simp] theorem State.updRing_kennel (r : Nat) (f : Ring → Ring) : (s.updRing r f).kennel = s.kennel := rfl
@[simp] theorem State.updRing_pack (r : Nat) (f : Ring → Ring) : (s.updRing r f).pack = s.pack := rfl
@[simp] theorem State.updRing_out (r : Nat) (f : Ring → Ring) : (s.updRing r f).out = s.out := rfl
@[simp] theorem State.updRing_draws (r : Nat) (f : Ring → Ring) : (s.updRing r f).draws = s.draws := rfl

@[simp] theorem State.setChannel_pending (c : Nat) (v : List Flight) : (s.setChannel c v).pending = s.pending := rfl
@[simp] theorem State.setChannel_life (c : Nat) (v : List Flight) : (s.setChannel c v).life = s.life := rfl
@[simp] theorem State.setChannel_supply (c : Nat) (v : List Flight) : (s.setChannel c v).supply = s.supply := rfl
@[simp] theorem State.setChannel_clks (c : Nat) (v : List Flight) : (s.setChannel c v).clks = s.clks := rfl
@[simp] theorem State.setChannel_plls (c : Nat) (v : List Flight) : (s.setChannel c v).plls = s.plls := rfl
@[simp] theorem State.setChannel_doms (c : Nat) (v : List Flight) : (s.setChannel c v).doms = s.doms := rfl
@[simp] theorem State.setChannel_temps (c : Nat) (v : List Flight) : (s.setChannel c v).temps = s.temps := rfl
@[simp] theorem State.setChannel_excluded (c : Nat) (v : List Flight) : (s.setChannel c v).excluded = s.excluded := rfl
@[simp] theorem State.setChannel_engines (c : Nat) (v : List Flight) : (s.setChannel c v).engines = s.engines := rfl
@[simp] theorem State.setChannel_cores (c : Nat) (v : List Flight) : (s.setChannel c v).cores = s.cores := rfl
@[simp] theorem State.setChannel_threads (c : Nat) (v : List Flight) : (s.setChannel c v).threads = s.threads := rfl
@[simp] theorem State.setChannel_rings (c : Nat) (v : List Flight) : (s.setChannel c v).rings = s.rings := rfl
@[simp] theorem State.setChannel_sync (c : Nat) (v : List Flight) : (s.setChannel c v).sync = s.sync := rfl
@[simp] theorem State.setChannel_ctxs (c : Nat) (v : List Flight) : (s.setChannel c v).ctxs = s.ctxs := rfl
@[simp] theorem State.setChannel_watch (c : Nat) (v : List Flight) : (s.setChannel c v).watch = s.watch := rfl
@[simp] theorem State.setChannel_mem (c : Nat) (v : List Flight) : (s.setChannel c v).mem = s.mem := rfl
@[simp] theorem State.setChannel_hist (c : Nat) (v : List Flight) : (s.setChannel c v).hist = s.hist := rfl
@[simp] theorem State.setChannel_ing (c : Nat) (v : List Flight) : (s.setChannel c v).ing = s.ing := rfl
@[simp] theorem State.setChannel_comms (c : Nat) (v : List Flight) : (s.setChannel c v).comms = s.comms := rfl
@[simp] theorem State.setChannel_img (c : Nat) (v : List Flight) : (s.setChannel c v).img = s.img := rfl
@[simp] theorem State.setChannel_results (c : Nat) (v : List Flight) : (s.setChannel c v).results = s.results := rfl
@[simp] theorem State.setChannel_io (c : Nat) (v : List Flight) : (s.setChannel c v).io = s.io := rfl
@[simp] theorem State.setChannel_logs (c : Nat) (v : List Flight) : (s.setChannel c v).logs = s.logs := rfl
@[simp] theorem State.setChannel_upk (c : Nat) (v : List Flight) : (s.setChannel c v).upk = s.upk := rfl
@[simp] theorem State.setChannel_store (c : Nat) (v : List Flight) : (s.setChannel c v).store = s.store := rfl
@[simp] theorem State.setChannel_opt (c : Nat) (v : List Flight) : (s.setChannel c v).opt = s.opt := rfl
@[simp] theorem State.setChannel_trust (c : Nat) (v : List Flight) : (s.setChannel c v).trust = s.trust := rfl
@[simp] theorem State.setChannel_ckpt (c : Nat) (v : List Flight) : (s.setChannel c v).ckpt = s.ckpt := rfl
@[simp] theorem State.setChannel_kennel (c : Nat) (v : List Flight) : (s.setChannel c v).kennel = s.kennel := rfl
@[simp] theorem State.setChannel_pack (c : Nat) (v : List Flight) : (s.setChannel c v).pack = s.pack := rfl
@[simp] theorem State.setChannel_out (c : Nat) (v : List Flight) : (s.setChannel c v).out = s.out := rfl
@[simp] theorem State.setChannel_draws (c : Nat) (v : List Flight) : (s.setChannel c v).draws = s.draws := rfl

@[simp] theorem State.updCounter_pending (p : Nat) (f : Counter → Counter) : (s.updCounter p f).pending = s.pending := rfl
@[simp] theorem State.updCounter_life (p : Nat) (f : Counter → Counter) : (s.updCounter p f).life = s.life := rfl
@[simp] theorem State.updCounter_supply (p : Nat) (f : Counter → Counter) : (s.updCounter p f).supply = s.supply := rfl
@[simp] theorem State.updCounter_clks (p : Nat) (f : Counter → Counter) : (s.updCounter p f).clks = s.clks := rfl
@[simp] theorem State.updCounter_plls (p : Nat) (f : Counter → Counter) : (s.updCounter p f).plls = s.plls := rfl
@[simp] theorem State.updCounter_doms (p : Nat) (f : Counter → Counter) : (s.updCounter p f).doms = s.doms := rfl
@[simp] theorem State.updCounter_temps (p : Nat) (f : Counter → Counter) : (s.updCounter p f).temps = s.temps := rfl
@[simp] theorem State.updCounter_excluded (p : Nat) (f : Counter → Counter) : (s.updCounter p f).excluded = s.excluded := rfl
@[simp] theorem State.updCounter_engines (p : Nat) (f : Counter → Counter) : (s.updCounter p f).engines = s.engines := rfl
@[simp] theorem State.updCounter_cores (p : Nat) (f : Counter → Counter) : (s.updCounter p f).cores = s.cores := rfl
@[simp] theorem State.updCounter_threads (p : Nat) (f : Counter → Counter) : (s.updCounter p f).threads = s.threads := rfl
@[simp] theorem State.updCounter_rings (p : Nat) (f : Counter → Counter) : (s.updCounter p f).rings = s.rings := rfl
@[simp] theorem State.updCounter_channels (p : Nat) (f : Counter → Counter) : (s.updCounter p f).channels = s.channels := rfl
@[simp] theorem State.updCounter_ctxs (p : Nat) (f : Counter → Counter) : (s.updCounter p f).ctxs = s.ctxs := rfl
@[simp] theorem State.updCounter_watch (p : Nat) (f : Counter → Counter) : (s.updCounter p f).watch = s.watch := rfl
@[simp] theorem State.updCounter_mem (p : Nat) (f : Counter → Counter) : (s.updCounter p f).mem = s.mem := rfl
@[simp] theorem State.updCounter_hist (p : Nat) (f : Counter → Counter) : (s.updCounter p f).hist = s.hist := rfl
@[simp] theorem State.updCounter_ing (p : Nat) (f : Counter → Counter) : (s.updCounter p f).ing = s.ing := rfl
@[simp] theorem State.updCounter_comms (p : Nat) (f : Counter → Counter) : (s.updCounter p f).comms = s.comms := rfl
@[simp] theorem State.updCounter_img (p : Nat) (f : Counter → Counter) : (s.updCounter p f).img = s.img := rfl
@[simp] theorem State.updCounter_results (p : Nat) (f : Counter → Counter) : (s.updCounter p f).results = s.results := rfl
@[simp] theorem State.updCounter_io (p : Nat) (f : Counter → Counter) : (s.updCounter p f).io = s.io := rfl
@[simp] theorem State.updCounter_logs (p : Nat) (f : Counter → Counter) : (s.updCounter p f).logs = s.logs := rfl
@[simp] theorem State.updCounter_upk (p : Nat) (f : Counter → Counter) : (s.updCounter p f).upk = s.upk := rfl
@[simp] theorem State.updCounter_store (p : Nat) (f : Counter → Counter) : (s.updCounter p f).store = s.store := rfl
@[simp] theorem State.updCounter_opt (p : Nat) (f : Counter → Counter) : (s.updCounter p f).opt = s.opt := rfl
@[simp] theorem State.updCounter_trust (p : Nat) (f : Counter → Counter) : (s.updCounter p f).trust = s.trust := rfl
@[simp] theorem State.updCounter_ckpt (p : Nat) (f : Counter → Counter) : (s.updCounter p f).ckpt = s.ckpt := rfl
@[simp] theorem State.updCounter_kennel (p : Nat) (f : Counter → Counter) : (s.updCounter p f).kennel = s.kennel := rfl
@[simp] theorem State.updCounter_pack (p : Nat) (f : Counter → Counter) : (s.updCounter p f).pack = s.pack := rfl
@[simp] theorem State.updCounter_out (p : Nat) (f : Counter → Counter) : (s.updCounter p f).out = s.out := rfl
@[simp] theorem State.updCounter_draws (p : Nat) (f : Counter → Counter) : (s.updCounter p f).draws = s.draws := rfl

@[simp] theorem State.updCtx_pending (c : Nat) (f : Ctx → Ctx) : (s.updCtx c f).pending = s.pending := rfl
@[simp] theorem State.updCtx_life (c : Nat) (f : Ctx → Ctx) : (s.updCtx c f).life = s.life := rfl
@[simp] theorem State.updCtx_supply (c : Nat) (f : Ctx → Ctx) : (s.updCtx c f).supply = s.supply := rfl
@[simp] theorem State.updCtx_clks (c : Nat) (f : Ctx → Ctx) : (s.updCtx c f).clks = s.clks := rfl
@[simp] theorem State.updCtx_plls (c : Nat) (f : Ctx → Ctx) : (s.updCtx c f).plls = s.plls := rfl
@[simp] theorem State.updCtx_doms (c : Nat) (f : Ctx → Ctx) : (s.updCtx c f).doms = s.doms := rfl
@[simp] theorem State.updCtx_temps (c : Nat) (f : Ctx → Ctx) : (s.updCtx c f).temps = s.temps := rfl
@[simp] theorem State.updCtx_excluded (c : Nat) (f : Ctx → Ctx) : (s.updCtx c f).excluded = s.excluded := rfl
@[simp] theorem State.updCtx_engines (c : Nat) (f : Ctx → Ctx) : (s.updCtx c f).engines = s.engines := rfl
@[simp] theorem State.updCtx_cores (c : Nat) (f : Ctx → Ctx) : (s.updCtx c f).cores = s.cores := rfl
@[simp] theorem State.updCtx_threads (c : Nat) (f : Ctx → Ctx) : (s.updCtx c f).threads = s.threads := rfl
@[simp] theorem State.updCtx_rings (c : Nat) (f : Ctx → Ctx) : (s.updCtx c f).rings = s.rings := rfl
@[simp] theorem State.updCtx_channels (c : Nat) (f : Ctx → Ctx) : (s.updCtx c f).channels = s.channels := rfl
@[simp] theorem State.updCtx_sync (c : Nat) (f : Ctx → Ctx) : (s.updCtx c f).sync = s.sync := rfl
@[simp] theorem State.updCtx_watch (c : Nat) (f : Ctx → Ctx) : (s.updCtx c f).watch = s.watch := rfl
@[simp] theorem State.updCtx_mem (c : Nat) (f : Ctx → Ctx) : (s.updCtx c f).mem = s.mem := rfl
@[simp] theorem State.updCtx_hist (c : Nat) (f : Ctx → Ctx) : (s.updCtx c f).hist = s.hist := rfl
@[simp] theorem State.updCtx_ing (c : Nat) (f : Ctx → Ctx) : (s.updCtx c f).ing = s.ing := rfl
@[simp] theorem State.updCtx_comms (c : Nat) (f : Ctx → Ctx) : (s.updCtx c f).comms = s.comms := rfl
@[simp] theorem State.updCtx_img (c : Nat) (f : Ctx → Ctx) : (s.updCtx c f).img = s.img := rfl
@[simp] theorem State.updCtx_results (c : Nat) (f : Ctx → Ctx) : (s.updCtx c f).results = s.results := rfl
@[simp] theorem State.updCtx_io (c : Nat) (f : Ctx → Ctx) : (s.updCtx c f).io = s.io := rfl
@[simp] theorem State.updCtx_logs (c : Nat) (f : Ctx → Ctx) : (s.updCtx c f).logs = s.logs := rfl
@[simp] theorem State.updCtx_upk (c : Nat) (f : Ctx → Ctx) : (s.updCtx c f).upk = s.upk := rfl
@[simp] theorem State.updCtx_store (c : Nat) (f : Ctx → Ctx) : (s.updCtx c f).store = s.store := rfl
@[simp] theorem State.updCtx_opt (c : Nat) (f : Ctx → Ctx) : (s.updCtx c f).opt = s.opt := rfl
@[simp] theorem State.updCtx_trust (c : Nat) (f : Ctx → Ctx) : (s.updCtx c f).trust = s.trust := rfl
@[simp] theorem State.updCtx_ckpt (c : Nat) (f : Ctx → Ctx) : (s.updCtx c f).ckpt = s.ckpt := rfl
@[simp] theorem State.updCtx_kennel (c : Nat) (f : Ctx → Ctx) : (s.updCtx c f).kennel = s.kennel := rfl
@[simp] theorem State.updCtx_pack (c : Nat) (f : Ctx → Ctx) : (s.updCtx c f).pack = s.pack := rfl
@[simp] theorem State.updCtx_out (c : Nat) (f : Ctx → Ctx) : (s.updCtx c f).out = s.out := rfl
@[simp] theorem State.updCtx_draws (c : Nat) (f : Ctx → Ctx) : (s.updCtx c f).draws = s.draws := rfl

@[simp] theorem State.updSlot_pending (n : Nat) (f : Slot → Slot) : (s.updSlot n f).pending = s.pending := rfl
@[simp] theorem State.updSlot_life (n : Nat) (f : Slot → Slot) : (s.updSlot n f).life = s.life := rfl
@[simp] theorem State.updSlot_supply (n : Nat) (f : Slot → Slot) : (s.updSlot n f).supply = s.supply := rfl
@[simp] theorem State.updSlot_clks (n : Nat) (f : Slot → Slot) : (s.updSlot n f).clks = s.clks := rfl
@[simp] theorem State.updSlot_plls (n : Nat) (f : Slot → Slot) : (s.updSlot n f).plls = s.plls := rfl
@[simp] theorem State.updSlot_doms (n : Nat) (f : Slot → Slot) : (s.updSlot n f).doms = s.doms := rfl
@[simp] theorem State.updSlot_temps (n : Nat) (f : Slot → Slot) : (s.updSlot n f).temps = s.temps := rfl
@[simp] theorem State.updSlot_excluded (n : Nat) (f : Slot → Slot) : (s.updSlot n f).excluded = s.excluded := rfl
@[simp] theorem State.updSlot_engines (n : Nat) (f : Slot → Slot) : (s.updSlot n f).engines = s.engines := rfl
@[simp] theorem State.updSlot_cores (n : Nat) (f : Slot → Slot) : (s.updSlot n f).cores = s.cores := rfl
@[simp] theorem State.updSlot_threads (n : Nat) (f : Slot → Slot) : (s.updSlot n f).threads = s.threads := rfl
@[simp] theorem State.updSlot_rings (n : Nat) (f : Slot → Slot) : (s.updSlot n f).rings = s.rings := rfl
@[simp] theorem State.updSlot_channels (n : Nat) (f : Slot → Slot) : (s.updSlot n f).channels = s.channels := rfl
@[simp] theorem State.updSlot_sync (n : Nat) (f : Slot → Slot) : (s.updSlot n f).sync = s.sync := rfl
@[simp] theorem State.updSlot_ctxs (n : Nat) (f : Slot → Slot) : (s.updSlot n f).ctxs = s.ctxs := rfl
@[simp] theorem State.updSlot_watch (n : Nat) (f : Slot → Slot) : (s.updSlot n f).watch = s.watch := rfl
@[simp] theorem State.updSlot_mem (n : Nat) (f : Slot → Slot) : (s.updSlot n f).mem = s.mem := rfl
@[simp] theorem State.updSlot_hist (n : Nat) (f : Slot → Slot) : (s.updSlot n f).hist = s.hist := rfl
@[simp] theorem State.updSlot_comms (n : Nat) (f : Slot → Slot) : (s.updSlot n f).comms = s.comms := rfl
@[simp] theorem State.updSlot_img (n : Nat) (f : Slot → Slot) : (s.updSlot n f).img = s.img := rfl
@[simp] theorem State.updSlot_results (n : Nat) (f : Slot → Slot) : (s.updSlot n f).results = s.results := rfl
@[simp] theorem State.updSlot_io (n : Nat) (f : Slot → Slot) : (s.updSlot n f).io = s.io := rfl
@[simp] theorem State.updSlot_logs (n : Nat) (f : Slot → Slot) : (s.updSlot n f).logs = s.logs := rfl
@[simp] theorem State.updSlot_upk (n : Nat) (f : Slot → Slot) : (s.updSlot n f).upk = s.upk := rfl
@[simp] theorem State.updSlot_store (n : Nat) (f : Slot → Slot) : (s.updSlot n f).store = s.store := rfl
@[simp] theorem State.updSlot_opt (n : Nat) (f : Slot → Slot) : (s.updSlot n f).opt = s.opt := rfl
@[simp] theorem State.updSlot_trust (n : Nat) (f : Slot → Slot) : (s.updSlot n f).trust = s.trust := rfl
@[simp] theorem State.updSlot_ckpt (n : Nat) (f : Slot → Slot) : (s.updSlot n f).ckpt = s.ckpt := rfl
@[simp] theorem State.updSlot_kennel (n : Nat) (f : Slot → Slot) : (s.updSlot n f).kennel = s.kennel := rfl
@[simp] theorem State.updSlot_pack (n : Nat) (f : Slot → Slot) : (s.updSlot n f).pack = s.pack := rfl
@[simp] theorem State.updSlot_out (n : Nat) (f : Slot → Slot) : (s.updSlot n f).out = s.out := rfl
@[simp] theorem State.updSlot_draws (n : Nat) (f : Slot → Slot) : (s.updSlot n f).draws = s.draws := rfl

@[simp] theorem State.setSess_pending (n : Nat) (v : Option Session) : (s.setSess n v).pending = s.pending := rfl
@[simp] theorem State.setSess_life (n : Nat) (v : Option Session) : (s.setSess n v).life = s.life := rfl
@[simp] theorem State.setSess_supply (n : Nat) (v : Option Session) : (s.setSess n v).supply = s.supply := rfl
@[simp] theorem State.setSess_clks (n : Nat) (v : Option Session) : (s.setSess n v).clks = s.clks := rfl
@[simp] theorem State.setSess_plls (n : Nat) (v : Option Session) : (s.setSess n v).plls = s.plls := rfl
@[simp] theorem State.setSess_doms (n : Nat) (v : Option Session) : (s.setSess n v).doms = s.doms := rfl
@[simp] theorem State.setSess_temps (n : Nat) (v : Option Session) : (s.setSess n v).temps = s.temps := rfl
@[simp] theorem State.setSess_excluded (n : Nat) (v : Option Session) : (s.setSess n v).excluded = s.excluded := rfl
@[simp] theorem State.setSess_engines (n : Nat) (v : Option Session) : (s.setSess n v).engines = s.engines := rfl
@[simp] theorem State.setSess_cores (n : Nat) (v : Option Session) : (s.setSess n v).cores = s.cores := rfl
@[simp] theorem State.setSess_threads (n : Nat) (v : Option Session) : (s.setSess n v).threads = s.threads := rfl
@[simp] theorem State.setSess_rings (n : Nat) (v : Option Session) : (s.setSess n v).rings = s.rings := rfl
@[simp] theorem State.setSess_channels (n : Nat) (v : Option Session) : (s.setSess n v).channels = s.channels := rfl
@[simp] theorem State.setSess_sync (n : Nat) (v : Option Session) : (s.setSess n v).sync = s.sync := rfl
@[simp] theorem State.setSess_ctxs (n : Nat) (v : Option Session) : (s.setSess n v).ctxs = s.ctxs := rfl
@[simp] theorem State.setSess_watch (n : Nat) (v : Option Session) : (s.setSess n v).watch = s.watch := rfl
@[simp] theorem State.setSess_mem (n : Nat) (v : Option Session) : (s.setSess n v).mem = s.mem := rfl
@[simp] theorem State.setSess_hist (n : Nat) (v : Option Session) : (s.setSess n v).hist = s.hist := rfl
@[simp] theorem State.setSess_ing (n : Nat) (v : Option Session) : (s.setSess n v).ing = s.ing := rfl
@[simp] theorem State.setSess_img (n : Nat) (v : Option Session) : (s.setSess n v).img = s.img := rfl
@[simp] theorem State.setSess_results (n : Nat) (v : Option Session) : (s.setSess n v).results = s.results := rfl
@[simp] theorem State.setSess_io (n : Nat) (v : Option Session) : (s.setSess n v).io = s.io := rfl
@[simp] theorem State.setSess_logs (n : Nat) (v : Option Session) : (s.setSess n v).logs = s.logs := rfl
@[simp] theorem State.setSess_upk (n : Nat) (v : Option Session) : (s.setSess n v).upk = s.upk := rfl
@[simp] theorem State.setSess_store (n : Nat) (v : Option Session) : (s.setSess n v).store = s.store := rfl
@[simp] theorem State.setSess_opt (n : Nat) (v : Option Session) : (s.setSess n v).opt = s.opt := rfl
@[simp] theorem State.setSess_trust (n : Nat) (v : Option Session) : (s.setSess n v).trust = s.trust := rfl
@[simp] theorem State.setSess_ckpt (n : Nat) (v : Option Session) : (s.setSess n v).ckpt = s.ckpt := rfl
@[simp] theorem State.setSess_kennel (n : Nat) (v : Option Session) : (s.setSess n v).kennel = s.kennel := rfl
@[simp] theorem State.setSess_pack (n : Nat) (v : Option Session) : (s.setSess n v).pack = s.pack := rfl
@[simp] theorem State.setSess_out (n : Nat) (v : Option Session) : (s.setSess n v).out = s.out := rfl
@[simp] theorem State.setSess_draws (n : Nat) (v : Option Session) : (s.setSess n v).draws = s.draws := rfl

@[simp] theorem State.updSess_pending (n : Nat) (f : Session → Session) : (s.updSess n f).pending = s.pending := rfl
@[simp] theorem State.updSess_life (n : Nat) (f : Session → Session) : (s.updSess n f).life = s.life := rfl
@[simp] theorem State.updSess_supply (n : Nat) (f : Session → Session) : (s.updSess n f).supply = s.supply := rfl
@[simp] theorem State.updSess_clks (n : Nat) (f : Session → Session) : (s.updSess n f).clks = s.clks := rfl
@[simp] theorem State.updSess_plls (n : Nat) (f : Session → Session) : (s.updSess n f).plls = s.plls := rfl
@[simp] theorem State.updSess_doms (n : Nat) (f : Session → Session) : (s.updSess n f).doms = s.doms := rfl
@[simp] theorem State.updSess_temps (n : Nat) (f : Session → Session) : (s.updSess n f).temps = s.temps := rfl
@[simp] theorem State.updSess_excluded (n : Nat) (f : Session → Session) : (s.updSess n f).excluded = s.excluded := rfl
@[simp] theorem State.updSess_engines (n : Nat) (f : Session → Session) : (s.updSess n f).engines = s.engines := rfl
@[simp] theorem State.updSess_cores (n : Nat) (f : Session → Session) : (s.updSess n f).cores = s.cores := rfl
@[simp] theorem State.updSess_threads (n : Nat) (f : Session → Session) : (s.updSess n f).threads = s.threads := rfl
@[simp] theorem State.updSess_rings (n : Nat) (f : Session → Session) : (s.updSess n f).rings = s.rings := rfl
@[simp] theorem State.updSess_channels (n : Nat) (f : Session → Session) : (s.updSess n f).channels = s.channels := rfl
@[simp] theorem State.updSess_sync (n : Nat) (f : Session → Session) : (s.updSess n f).sync = s.sync := rfl
@[simp] theorem State.updSess_ctxs (n : Nat) (f : Session → Session) : (s.updSess n f).ctxs = s.ctxs := rfl
@[simp] theorem State.updSess_watch (n : Nat) (f : Session → Session) : (s.updSess n f).watch = s.watch := rfl
@[simp] theorem State.updSess_mem (n : Nat) (f : Session → Session) : (s.updSess n f).mem = s.mem := rfl
@[simp] theorem State.updSess_hist (n : Nat) (f : Session → Session) : (s.updSess n f).hist = s.hist := rfl
@[simp] theorem State.updSess_ing (n : Nat) (f : Session → Session) : (s.updSess n f).ing = s.ing := rfl
@[simp] theorem State.updSess_img (n : Nat) (f : Session → Session) : (s.updSess n f).img = s.img := rfl
@[simp] theorem State.updSess_results (n : Nat) (f : Session → Session) : (s.updSess n f).results = s.results := rfl
@[simp] theorem State.updSess_io (n : Nat) (f : Session → Session) : (s.updSess n f).io = s.io := rfl
@[simp] theorem State.updSess_logs (n : Nat) (f : Session → Session) : (s.updSess n f).logs = s.logs := rfl
@[simp] theorem State.updSess_upk (n : Nat) (f : Session → Session) : (s.updSess n f).upk = s.upk := rfl
@[simp] theorem State.updSess_store (n : Nat) (f : Session → Session) : (s.updSess n f).store = s.store := rfl
@[simp] theorem State.updSess_opt (n : Nat) (f : Session → Session) : (s.updSess n f).opt = s.opt := rfl
@[simp] theorem State.updSess_trust (n : Nat) (f : Session → Session) : (s.updSess n f).trust = s.trust := rfl
@[simp] theorem State.updSess_ckpt (n : Nat) (f : Session → Session) : (s.updSess n f).ckpt = s.ckpt := rfl
@[simp] theorem State.updSess_kennel (n : Nat) (f : Session → Session) : (s.updSess n f).kennel = s.kennel := rfl
@[simp] theorem State.updSess_pack (n : Nat) (f : Session → Session) : (s.updSess n f).pack = s.pack := rfl
@[simp] theorem State.updSess_out (n : Nat) (f : Session → Session) : (s.updSess n f).out = s.out := rfl
@[simp] theorem State.updSess_draws (n : Nat) (f : Session → Session) : (s.updSess n f).draws = s.draws := rfl

@[simp] theorem State.updClk_pending (k : Nat) (f : StackClk → StackClk) : (s.updClk k f).pending = s.pending := rfl
@[simp] theorem State.updClk_life (k : Nat) (f : StackClk → StackClk) : (s.updClk k f).life = s.life := rfl
@[simp] theorem State.updClk_supply (k : Nat) (f : StackClk → StackClk) : (s.updClk k f).supply = s.supply := rfl
@[simp] theorem State.updClk_plls (k : Nat) (f : StackClk → StackClk) : (s.updClk k f).plls = s.plls := rfl
@[simp] theorem State.updClk_doms (k : Nat) (f : StackClk → StackClk) : (s.updClk k f).doms = s.doms := rfl
@[simp] theorem State.updClk_temps (k : Nat) (f : StackClk → StackClk) : (s.updClk k f).temps = s.temps := rfl
@[simp] theorem State.updClk_excluded (k : Nat) (f : StackClk → StackClk) : (s.updClk k f).excluded = s.excluded := rfl
@[simp] theorem State.updClk_engines (k : Nat) (f : StackClk → StackClk) : (s.updClk k f).engines = s.engines := rfl
@[simp] theorem State.updClk_cores (k : Nat) (f : StackClk → StackClk) : (s.updClk k f).cores = s.cores := rfl
@[simp] theorem State.updClk_threads (k : Nat) (f : StackClk → StackClk) : (s.updClk k f).threads = s.threads := rfl
@[simp] theorem State.updClk_rings (k : Nat) (f : StackClk → StackClk) : (s.updClk k f).rings = s.rings := rfl
@[simp] theorem State.updClk_channels (k : Nat) (f : StackClk → StackClk) : (s.updClk k f).channels = s.channels := rfl
@[simp] theorem State.updClk_sync (k : Nat) (f : StackClk → StackClk) : (s.updClk k f).sync = s.sync := rfl
@[simp] theorem State.updClk_ctxs (k : Nat) (f : StackClk → StackClk) : (s.updClk k f).ctxs = s.ctxs := rfl
@[simp] theorem State.updClk_watch (k : Nat) (f : StackClk → StackClk) : (s.updClk k f).watch = s.watch := rfl
@[simp] theorem State.updClk_mem (k : Nat) (f : StackClk → StackClk) : (s.updClk k f).mem = s.mem := rfl
@[simp] theorem State.updClk_hist (k : Nat) (f : StackClk → StackClk) : (s.updClk k f).hist = s.hist := rfl
@[simp] theorem State.updClk_ing (k : Nat) (f : StackClk → StackClk) : (s.updClk k f).ing = s.ing := rfl
@[simp] theorem State.updClk_comms (k : Nat) (f : StackClk → StackClk) : (s.updClk k f).comms = s.comms := rfl
@[simp] theorem State.updClk_img (k : Nat) (f : StackClk → StackClk) : (s.updClk k f).img = s.img := rfl
@[simp] theorem State.updClk_results (k : Nat) (f : StackClk → StackClk) : (s.updClk k f).results = s.results := rfl
@[simp] theorem State.updClk_io (k : Nat) (f : StackClk → StackClk) : (s.updClk k f).io = s.io := rfl
@[simp] theorem State.updClk_logs (k : Nat) (f : StackClk → StackClk) : (s.updClk k f).logs = s.logs := rfl
@[simp] theorem State.updClk_upk (k : Nat) (f : StackClk → StackClk) : (s.updClk k f).upk = s.upk := rfl
@[simp] theorem State.updClk_store (k : Nat) (f : StackClk → StackClk) : (s.updClk k f).store = s.store := rfl
@[simp] theorem State.updClk_opt (k : Nat) (f : StackClk → StackClk) : (s.updClk k f).opt = s.opt := rfl
@[simp] theorem State.updClk_trust (k : Nat) (f : StackClk → StackClk) : (s.updClk k f).trust = s.trust := rfl
@[simp] theorem State.updClk_ckpt (k : Nat) (f : StackClk → StackClk) : (s.updClk k f).ckpt = s.ckpt := rfl
@[simp] theorem State.updClk_kennel (k : Nat) (f : StackClk → StackClk) : (s.updClk k f).kennel = s.kennel := rfl
@[simp] theorem State.updClk_pack (k : Nat) (f : StackClk → StackClk) : (s.updClk k f).pack = s.pack := rfl
@[simp] theorem State.updClk_out (k : Nat) (f : StackClk → StackClk) : (s.updClk k f).out = s.out := rfl
@[simp] theorem State.updClk_draws (k : Nat) (f : StackClk → StackClk) : (s.updClk k f).draws = s.draws := rfl

@[simp] theorem State.updPort_pending (p : Nat) (f : PackPort → PackPort) : (s.updPort p f).pending = s.pending := rfl
@[simp] theorem State.updPort_life (p : Nat) (f : PackPort → PackPort) : (s.updPort p f).life = s.life := rfl
@[simp] theorem State.updPort_supply (p : Nat) (f : PackPort → PackPort) : (s.updPort p f).supply = s.supply := rfl
@[simp] theorem State.updPort_clks (p : Nat) (f : PackPort → PackPort) : (s.updPort p f).clks = s.clks := rfl
@[simp] theorem State.updPort_plls (p : Nat) (f : PackPort → PackPort) : (s.updPort p f).plls = s.plls := rfl
@[simp] theorem State.updPort_doms (p : Nat) (f : PackPort → PackPort) : (s.updPort p f).doms = s.doms := rfl
@[simp] theorem State.updPort_temps (p : Nat) (f : PackPort → PackPort) : (s.updPort p f).temps = s.temps := rfl
@[simp] theorem State.updPort_excluded (p : Nat) (f : PackPort → PackPort) : (s.updPort p f).excluded = s.excluded := rfl
@[simp] theorem State.updPort_engines (p : Nat) (f : PackPort → PackPort) : (s.updPort p f).engines = s.engines := rfl
@[simp] theorem State.updPort_cores (p : Nat) (f : PackPort → PackPort) : (s.updPort p f).cores = s.cores := rfl
@[simp] theorem State.updPort_threads (p : Nat) (f : PackPort → PackPort) : (s.updPort p f).threads = s.threads := rfl
@[simp] theorem State.updPort_rings (p : Nat) (f : PackPort → PackPort) : (s.updPort p f).rings = s.rings := rfl
@[simp] theorem State.updPort_channels (p : Nat) (f : PackPort → PackPort) : (s.updPort p f).channels = s.channels := rfl
@[simp] theorem State.updPort_sync (p : Nat) (f : PackPort → PackPort) : (s.updPort p f).sync = s.sync := rfl
@[simp] theorem State.updPort_ctxs (p : Nat) (f : PackPort → PackPort) : (s.updPort p f).ctxs = s.ctxs := rfl
@[simp] theorem State.updPort_watch (p : Nat) (f : PackPort → PackPort) : (s.updPort p f).watch = s.watch := rfl
@[simp] theorem State.updPort_mem (p : Nat) (f : PackPort → PackPort) : (s.updPort p f).mem = s.mem := rfl
@[simp] theorem State.updPort_hist (p : Nat) (f : PackPort → PackPort) : (s.updPort p f).hist = s.hist := rfl
@[simp] theorem State.updPort_ing (p : Nat) (f : PackPort → PackPort) : (s.updPort p f).ing = s.ing := rfl
@[simp] theorem State.updPort_comms (p : Nat) (f : PackPort → PackPort) : (s.updPort p f).comms = s.comms := rfl
@[simp] theorem State.updPort_img (p : Nat) (f : PackPort → PackPort) : (s.updPort p f).img = s.img := rfl
@[simp] theorem State.updPort_results (p : Nat) (f : PackPort → PackPort) : (s.updPort p f).results = s.results := rfl
@[simp] theorem State.updPort_io (p : Nat) (f : PackPort → PackPort) : (s.updPort p f).io = s.io := rfl
@[simp] theorem State.updPort_logs (p : Nat) (f : PackPort → PackPort) : (s.updPort p f).logs = s.logs := rfl
@[simp] theorem State.updPort_upk (p : Nat) (f : PackPort → PackPort) : (s.updPort p f).upk = s.upk := rfl
@[simp] theorem State.updPort_store (p : Nat) (f : PackPort → PackPort) : (s.updPort p f).store = s.store := rfl
@[simp] theorem State.updPort_opt (p : Nat) (f : PackPort → PackPort) : (s.updPort p f).opt = s.opt := rfl
@[simp] theorem State.updPort_trust (p : Nat) (f : PackPort → PackPort) : (s.updPort p f).trust = s.trust := rfl
@[simp] theorem State.updPort_ckpt (p : Nat) (f : PackPort → PackPort) : (s.updPort p f).ckpt = s.ckpt := rfl
@[simp] theorem State.updPort_kennel (p : Nat) (f : PackPort → PackPort) : (s.updPort p f).kennel = s.kennel := rfl
@[simp] theorem State.updPort_out (p : Nat) (f : PackPort → PackPort) : (s.updPort p f).out = s.out := rfl
@[simp] theorem State.updPort_draws (p : Nat) (f : PackPort → PackPort) : (s.updPort p f).draws = s.draws := rfl

@[simp] theorem State.setOp_pending (e : Nat) (v : Option OpRun) : (s.setOp e v).pending = s.pending := rfl
@[simp] theorem State.setOp_life (e : Nat) (v : Option OpRun) : (s.setOp e v).life = s.life := rfl
@[simp] theorem State.setOp_supply (e : Nat) (v : Option OpRun) : (s.setOp e v).supply = s.supply := rfl
@[simp] theorem State.setOp_clks (e : Nat) (v : Option OpRun) : (s.setOp e v).clks = s.clks := rfl
@[simp] theorem State.setOp_plls (e : Nat) (v : Option OpRun) : (s.setOp e v).plls = s.plls := rfl
@[simp] theorem State.setOp_doms (e : Nat) (v : Option OpRun) : (s.setOp e v).doms = s.doms := rfl
@[simp] theorem State.setOp_temps (e : Nat) (v : Option OpRun) : (s.setOp e v).temps = s.temps := rfl
@[simp] theorem State.setOp_excluded (e : Nat) (v : Option OpRun) : (s.setOp e v).excluded = s.excluded := rfl
@[simp] theorem State.setOp_engines (e : Nat) (v : Option OpRun) : (s.setOp e v).engines = s.engines := rfl
@[simp] theorem State.setOp_cores (e : Nat) (v : Option OpRun) : (s.setOp e v).cores = s.cores := rfl
@[simp] theorem State.setOp_threads (e : Nat) (v : Option OpRun) : (s.setOp e v).threads = s.threads := rfl
@[simp] theorem State.setOp_rings (e : Nat) (v : Option OpRun) : (s.setOp e v).rings = s.rings := rfl
@[simp] theorem State.setOp_channels (e : Nat) (v : Option OpRun) : (s.setOp e v).channels = s.channels := rfl
@[simp] theorem State.setOp_sync (e : Nat) (v : Option OpRun) : (s.setOp e v).sync = s.sync := rfl
@[simp] theorem State.setOp_ctxs (e : Nat) (v : Option OpRun) : (s.setOp e v).ctxs = s.ctxs := rfl
@[simp] theorem State.setOp_watch (e : Nat) (v : Option OpRun) : (s.setOp e v).watch = s.watch := rfl
@[simp] theorem State.setOp_mem (e : Nat) (v : Option OpRun) : (s.setOp e v).mem = s.mem := rfl
@[simp] theorem State.setOp_hist (e : Nat) (v : Option OpRun) : (s.setOp e v).hist = s.hist := rfl
@[simp] theorem State.setOp_ing (e : Nat) (v : Option OpRun) : (s.setOp e v).ing = s.ing := rfl
@[simp] theorem State.setOp_comms (e : Nat) (v : Option OpRun) : (s.setOp e v).comms = s.comms := rfl
@[simp] theorem State.setOp_img (e : Nat) (v : Option OpRun) : (s.setOp e v).img = s.img := rfl
@[simp] theorem State.setOp_results (e : Nat) (v : Option OpRun) : (s.setOp e v).results = s.results := rfl
@[simp] theorem State.setOp_io (e : Nat) (v : Option OpRun) : (s.setOp e v).io = s.io := rfl
@[simp] theorem State.setOp_logs (e : Nat) (v : Option OpRun) : (s.setOp e v).logs = s.logs := rfl
@[simp] theorem State.setOp_store (e : Nat) (v : Option OpRun) : (s.setOp e v).store = s.store := rfl
@[simp] theorem State.setOp_opt (e : Nat) (v : Option OpRun) : (s.setOp e v).opt = s.opt := rfl
@[simp] theorem State.setOp_trust (e : Nat) (v : Option OpRun) : (s.setOp e v).trust = s.trust := rfl
@[simp] theorem State.setOp_ckpt (e : Nat) (v : Option OpRun) : (s.setOp e v).ckpt = s.ckpt := rfl
@[simp] theorem State.setOp_kennel (e : Nat) (v : Option OpRun) : (s.setOp e v).kennel = s.kennel := rfl
@[simp] theorem State.setOp_pack (e : Nat) (v : Option OpRun) : (s.setOp e v).pack = s.pack := rfl
@[simp] theorem State.setOp_out (e : Nat) (v : Option OpRun) : (s.setOp e v).out = s.out := rfl
@[simp] theorem State.setOp_draws (e : Nat) (v : Option OpRun) : (s.setOp e v).draws = s.draws := rfl

@[simp] theorem State.updPanel_pending (e : Nat) (f : Panel → Panel) : (s.updPanel e f).pending = s.pending := rfl
@[simp] theorem State.updPanel_life (e : Nat) (f : Panel → Panel) : (s.updPanel e f).life = s.life := rfl
@[simp] theorem State.updPanel_supply (e : Nat) (f : Panel → Panel) : (s.updPanel e f).supply = s.supply := rfl
@[simp] theorem State.updPanel_clks (e : Nat) (f : Panel → Panel) : (s.updPanel e f).clks = s.clks := rfl
@[simp] theorem State.updPanel_plls (e : Nat) (f : Panel → Panel) : (s.updPanel e f).plls = s.plls := rfl
@[simp] theorem State.updPanel_doms (e : Nat) (f : Panel → Panel) : (s.updPanel e f).doms = s.doms := rfl
@[simp] theorem State.updPanel_temps (e : Nat) (f : Panel → Panel) : (s.updPanel e f).temps = s.temps := rfl
@[simp] theorem State.updPanel_excluded (e : Nat) (f : Panel → Panel) : (s.updPanel e f).excluded = s.excluded := rfl
@[simp] theorem State.updPanel_engines (e : Nat) (f : Panel → Panel) : (s.updPanel e f).engines = s.engines := rfl
@[simp] theorem State.updPanel_cores (e : Nat) (f : Panel → Panel) : (s.updPanel e f).cores = s.cores := rfl
@[simp] theorem State.updPanel_threads (e : Nat) (f : Panel → Panel) : (s.updPanel e f).threads = s.threads := rfl
@[simp] theorem State.updPanel_rings (e : Nat) (f : Panel → Panel) : (s.updPanel e f).rings = s.rings := rfl
@[simp] theorem State.updPanel_channels (e : Nat) (f : Panel → Panel) : (s.updPanel e f).channels = s.channels := rfl
@[simp] theorem State.updPanel_sync (e : Nat) (f : Panel → Panel) : (s.updPanel e f).sync = s.sync := rfl
@[simp] theorem State.updPanel_ctxs (e : Nat) (f : Panel → Panel) : (s.updPanel e f).ctxs = s.ctxs := rfl
@[simp] theorem State.updPanel_watch (e : Nat) (f : Panel → Panel) : (s.updPanel e f).watch = s.watch := rfl
@[simp] theorem State.updPanel_mem (e : Nat) (f : Panel → Panel) : (s.updPanel e f).mem = s.mem := rfl
@[simp] theorem State.updPanel_hist (e : Nat) (f : Panel → Panel) : (s.updPanel e f).hist = s.hist := rfl
@[simp] theorem State.updPanel_ing (e : Nat) (f : Panel → Panel) : (s.updPanel e f).ing = s.ing := rfl
@[simp] theorem State.updPanel_comms (e : Nat) (f : Panel → Panel) : (s.updPanel e f).comms = s.comms := rfl
@[simp] theorem State.updPanel_img (e : Nat) (f : Panel → Panel) : (s.updPanel e f).img = s.img := rfl
@[simp] theorem State.updPanel_results (e : Nat) (f : Panel → Panel) : (s.updPanel e f).results = s.results := rfl
@[simp] theorem State.updPanel_io (e : Nat) (f : Panel → Panel) : (s.updPanel e f).io = s.io := rfl
@[simp] theorem State.updPanel_logs (e : Nat) (f : Panel → Panel) : (s.updPanel e f).logs = s.logs := rfl
@[simp] theorem State.updPanel_store (e : Nat) (f : Panel → Panel) : (s.updPanel e f).store = s.store := rfl
@[simp] theorem State.updPanel_opt (e : Nat) (f : Panel → Panel) : (s.updPanel e f).opt = s.opt := rfl
@[simp] theorem State.updPanel_trust (e : Nat) (f : Panel → Panel) : (s.updPanel e f).trust = s.trust := rfl
@[simp] theorem State.updPanel_ckpt (e : Nat) (f : Panel → Panel) : (s.updPanel e f).ckpt = s.ckpt := rfl
@[simp] theorem State.updPanel_kennel (e : Nat) (f : Panel → Panel) : (s.updPanel e f).kennel = s.kennel := rfl
@[simp] theorem State.updPanel_pack (e : Nat) (f : Panel → Panel) : (s.updPanel e f).pack = s.pack := rfl
@[simp] theorem State.updPanel_out (e : Nat) (f : Panel → Panel) : (s.updPanel e f).out = s.out := rfl
@[simp] theorem State.updPanel_draws (e : Nat) (f : Panel → Panel) : (s.updPanel e f).draws = s.draws := rfl

@[simp] theorem State.updPlane_pending (k : Nat) (f : PlaneEnt → PlaneEnt) : (s.updPlane k f).pending = s.pending := rfl
@[simp] theorem State.updPlane_life (k : Nat) (f : PlaneEnt → PlaneEnt) : (s.updPlane k f).life = s.life := rfl
@[simp] theorem State.updPlane_supply (k : Nat) (f : PlaneEnt → PlaneEnt) : (s.updPlane k f).supply = s.supply := rfl
@[simp] theorem State.updPlane_clks (k : Nat) (f : PlaneEnt → PlaneEnt) : (s.updPlane k f).clks = s.clks := rfl
@[simp] theorem State.updPlane_plls (k : Nat) (f : PlaneEnt → PlaneEnt) : (s.updPlane k f).plls = s.plls := rfl
@[simp] theorem State.updPlane_doms (k : Nat) (f : PlaneEnt → PlaneEnt) : (s.updPlane k f).doms = s.doms := rfl
@[simp] theorem State.updPlane_temps (k : Nat) (f : PlaneEnt → PlaneEnt) : (s.updPlane k f).temps = s.temps := rfl
@[simp] theorem State.updPlane_excluded (k : Nat) (f : PlaneEnt → PlaneEnt) : (s.updPlane k f).excluded = s.excluded := rfl
@[simp] theorem State.updPlane_engines (k : Nat) (f : PlaneEnt → PlaneEnt) : (s.updPlane k f).engines = s.engines := rfl
@[simp] theorem State.updPlane_cores (k : Nat) (f : PlaneEnt → PlaneEnt) : (s.updPlane k f).cores = s.cores := rfl
@[simp] theorem State.updPlane_threads (k : Nat) (f : PlaneEnt → PlaneEnt) : (s.updPlane k f).threads = s.threads := rfl
@[simp] theorem State.updPlane_rings (k : Nat) (f : PlaneEnt → PlaneEnt) : (s.updPlane k f).rings = s.rings := rfl
@[simp] theorem State.updPlane_channels (k : Nat) (f : PlaneEnt → PlaneEnt) : (s.updPlane k f).channels = s.channels := rfl
@[simp] theorem State.updPlane_sync (k : Nat) (f : PlaneEnt → PlaneEnt) : (s.updPlane k f).sync = s.sync := rfl
@[simp] theorem State.updPlane_ctxs (k : Nat) (f : PlaneEnt → PlaneEnt) : (s.updPlane k f).ctxs = s.ctxs := rfl
@[simp] theorem State.updPlane_watch (k : Nat) (f : PlaneEnt → PlaneEnt) : (s.updPlane k f).watch = s.watch := rfl
@[simp] theorem State.updPlane_mem (k : Nat) (f : PlaneEnt → PlaneEnt) : (s.updPlane k f).mem = s.mem := rfl
@[simp] theorem State.updPlane_hist (k : Nat) (f : PlaneEnt → PlaneEnt) : (s.updPlane k f).hist = s.hist := rfl
@[simp] theorem State.updPlane_ing (k : Nat) (f : PlaneEnt → PlaneEnt) : (s.updPlane k f).ing = s.ing := rfl
@[simp] theorem State.updPlane_comms (k : Nat) (f : PlaneEnt → PlaneEnt) : (s.updPlane k f).comms = s.comms := rfl
@[simp] theorem State.updPlane_img (k : Nat) (f : PlaneEnt → PlaneEnt) : (s.updPlane k f).img = s.img := rfl
@[simp] theorem State.updPlane_results (k : Nat) (f : PlaneEnt → PlaneEnt) : (s.updPlane k f).results = s.results := rfl
@[simp] theorem State.updPlane_io (k : Nat) (f : PlaneEnt → PlaneEnt) : (s.updPlane k f).io = s.io := rfl
@[simp] theorem State.updPlane_logs (k : Nat) (f : PlaneEnt → PlaneEnt) : (s.updPlane k f).logs = s.logs := rfl
@[simp] theorem State.updPlane_store (k : Nat) (f : PlaneEnt → PlaneEnt) : (s.updPlane k f).store = s.store := rfl
@[simp] theorem State.updPlane_opt (k : Nat) (f : PlaneEnt → PlaneEnt) : (s.updPlane k f).opt = s.opt := rfl
@[simp] theorem State.updPlane_trust (k : Nat) (f : PlaneEnt → PlaneEnt) : (s.updPlane k f).trust = s.trust := rfl
@[simp] theorem State.updPlane_ckpt (k : Nat) (f : PlaneEnt → PlaneEnt) : (s.updPlane k f).ckpt = s.ckpt := rfl
@[simp] theorem State.updPlane_kennel (k : Nat) (f : PlaneEnt → PlaneEnt) : (s.updPlane k f).kennel = s.kennel := rfl
@[simp] theorem State.updPlane_pack (k : Nat) (f : PlaneEnt → PlaneEnt) : (s.updPlane k f).pack = s.pack := rfl
@[simp] theorem State.updPlane_out (k : Nat) (f : PlaneEnt → PlaneEnt) : (s.updPlane k f).out = s.out := rfl
@[simp] theorem State.updPlane_draws (k : Nat) (f : PlaneEnt → PlaneEnt) : (s.updPlane k f).draws = s.draws := rfl

@[simp] theorem State.emit_pending (o : Out) : (s.emit o).pending = s.pending := rfl
@[simp] theorem State.emit_life (o : Out) : (s.emit o).life = s.life := rfl
@[simp] theorem State.emit_supply (o : Out) : (s.emit o).supply = s.supply := rfl
@[simp] theorem State.emit_clks (o : Out) : (s.emit o).clks = s.clks := rfl
@[simp] theorem State.emit_plls (o : Out) : (s.emit o).plls = s.plls := rfl
@[simp] theorem State.emit_doms (o : Out) : (s.emit o).doms = s.doms := rfl
@[simp] theorem State.emit_temps (o : Out) : (s.emit o).temps = s.temps := rfl
@[simp] theorem State.emit_excluded (o : Out) : (s.emit o).excluded = s.excluded := rfl
@[simp] theorem State.emit_engines (o : Out) : (s.emit o).engines = s.engines := rfl
@[simp] theorem State.emit_cores (o : Out) : (s.emit o).cores = s.cores := rfl
@[simp] theorem State.emit_threads (o : Out) : (s.emit o).threads = s.threads := rfl
@[simp] theorem State.emit_rings (o : Out) : (s.emit o).rings = s.rings := rfl
@[simp] theorem State.emit_channels (o : Out) : (s.emit o).channels = s.channels := rfl
@[simp] theorem State.emit_sync (o : Out) : (s.emit o).sync = s.sync := rfl
@[simp] theorem State.emit_ctxs (o : Out) : (s.emit o).ctxs = s.ctxs := rfl
@[simp] theorem State.emit_watch (o : Out) : (s.emit o).watch = s.watch := rfl
@[simp] theorem State.emit_mem (o : Out) : (s.emit o).mem = s.mem := rfl
@[simp] theorem State.emit_hist (o : Out) : (s.emit o).hist = s.hist := rfl
@[simp] theorem State.emit_ing (o : Out) : (s.emit o).ing = s.ing := rfl
@[simp] theorem State.emit_comms (o : Out) : (s.emit o).comms = s.comms := rfl
@[simp] theorem State.emit_img (o : Out) : (s.emit o).img = s.img := rfl
@[simp] theorem State.emit_results (o : Out) : (s.emit o).results = s.results := rfl
@[simp] theorem State.emit_io (o : Out) : (s.emit o).io = s.io := rfl
@[simp] theorem State.emit_logs (o : Out) : (s.emit o).logs = s.logs := rfl
@[simp] theorem State.emit_upk (o : Out) : (s.emit o).upk = s.upk := rfl
@[simp] theorem State.emit_store (o : Out) : (s.emit o).store = s.store := rfl
@[simp] theorem State.emit_opt (o : Out) : (s.emit o).opt = s.opt := rfl
@[simp] theorem State.emit_trust (o : Out) : (s.emit o).trust = s.trust := rfl
@[simp] theorem State.emit_ckpt (o : Out) : (s.emit o).ckpt = s.ckpt := rfl
@[simp] theorem State.emit_kennel (o : Out) : (s.emit o).kennel = s.kennel := rfl
@[simp] theorem State.emit_pack (o : Out) : (s.emit o).pack = s.pack := rfl
@[simp] theorem State.emit_draws (o : Out) : (s.emit o).draws = s.draws := rfl

@[simp] theorem State.draw_pending : (s.draw).pending = s.pending := rfl
@[simp] theorem State.draw_life : (s.draw).life = s.life := rfl
@[simp] theorem State.draw_supply : (s.draw).supply = s.supply := rfl
@[simp] theorem State.draw_clks : (s.draw).clks = s.clks := rfl
@[simp] theorem State.draw_plls : (s.draw).plls = s.plls := rfl
@[simp] theorem State.draw_doms : (s.draw).doms = s.doms := rfl
@[simp] theorem State.draw_temps : (s.draw).temps = s.temps := rfl
@[simp] theorem State.draw_excluded : (s.draw).excluded = s.excluded := rfl
@[simp] theorem State.draw_engines : (s.draw).engines = s.engines := rfl
@[simp] theorem State.draw_cores : (s.draw).cores = s.cores := rfl
@[simp] theorem State.draw_threads : (s.draw).threads = s.threads := rfl
@[simp] theorem State.draw_rings : (s.draw).rings = s.rings := rfl
@[simp] theorem State.draw_channels : (s.draw).channels = s.channels := rfl
@[simp] theorem State.draw_sync : (s.draw).sync = s.sync := rfl
@[simp] theorem State.draw_ctxs : (s.draw).ctxs = s.ctxs := rfl
@[simp] theorem State.draw_watch : (s.draw).watch = s.watch := rfl
@[simp] theorem State.draw_mem : (s.draw).mem = s.mem := rfl
@[simp] theorem State.draw_hist : (s.draw).hist = s.hist := rfl
@[simp] theorem State.draw_ing : (s.draw).ing = s.ing := rfl
@[simp] theorem State.draw_comms : (s.draw).comms = s.comms := rfl
@[simp] theorem State.draw_img : (s.draw).img = s.img := rfl
@[simp] theorem State.draw_results : (s.draw).results = s.results := rfl
@[simp] theorem State.draw_io : (s.draw).io = s.io := rfl
@[simp] theorem State.draw_logs : (s.draw).logs = s.logs := rfl
@[simp] theorem State.draw_upk : (s.draw).upk = s.upk := rfl
@[simp] theorem State.draw_store : (s.draw).store = s.store := rfl
@[simp] theorem State.draw_opt : (s.draw).opt = s.opt := rfl
@[simp] theorem State.draw_trust : (s.draw).trust = s.trust := rfl
@[simp] theorem State.draw_ckpt : (s.draw).ckpt = s.ckpt := rfl
@[simp] theorem State.draw_kennel : (s.draw).kennel = s.kennel := rfl
@[simp] theorem State.draw_pack : (s.draw).pack = s.pack := rfl
@[simp] theorem State.draw_out : (s.draw).out = s.out := rfl

@[simp] theorem State.updMem_pending (f : Memory → Memory) : (s.updMem f).pending = s.pending := rfl
@[simp] theorem State.updMem_life (f : Memory → Memory) : (s.updMem f).life = s.life := rfl
@[simp] theorem State.updMem_supply (f : Memory → Memory) : (s.updMem f).supply = s.supply := rfl
@[simp] theorem State.updMem_clks (f : Memory → Memory) : (s.updMem f).clks = s.clks := rfl
@[simp] theorem State.updMem_plls (f : Memory → Memory) : (s.updMem f).plls = s.plls := rfl
@[simp] theorem State.updMem_doms (f : Memory → Memory) : (s.updMem f).doms = s.doms := rfl
@[simp] theorem State.updMem_temps (f : Memory → Memory) : (s.updMem f).temps = s.temps := rfl
@[simp] theorem State.updMem_excluded (f : Memory → Memory) : (s.updMem f).excluded = s.excluded := rfl
@[simp] theorem State.updMem_engines (f : Memory → Memory) : (s.updMem f).engines = s.engines := rfl
@[simp] theorem State.updMem_cores (f : Memory → Memory) : (s.updMem f).cores = s.cores := rfl
@[simp] theorem State.updMem_threads (f : Memory → Memory) : (s.updMem f).threads = s.threads := rfl
@[simp] theorem State.updMem_rings (f : Memory → Memory) : (s.updMem f).rings = s.rings := rfl
@[simp] theorem State.updMem_channels (f : Memory → Memory) : (s.updMem f).channels = s.channels := rfl
@[simp] theorem State.updMem_sync (f : Memory → Memory) : (s.updMem f).sync = s.sync := rfl
@[simp] theorem State.updMem_ctxs (f : Memory → Memory) : (s.updMem f).ctxs = s.ctxs := rfl
@[simp] theorem State.updMem_watch (f : Memory → Memory) : (s.updMem f).watch = s.watch := rfl
@[simp] theorem State.updMem_hist (f : Memory → Memory) : (s.updMem f).hist = s.hist := rfl
@[simp] theorem State.updMem_ing (f : Memory → Memory) : (s.updMem f).ing = s.ing := rfl
@[simp] theorem State.updMem_comms (f : Memory → Memory) : (s.updMem f).comms = s.comms := rfl
@[simp] theorem State.updMem_img (f : Memory → Memory) : (s.updMem f).img = s.img := rfl
@[simp] theorem State.updMem_results (f : Memory → Memory) : (s.updMem f).results = s.results := rfl
@[simp] theorem State.updMem_io (f : Memory → Memory) : (s.updMem f).io = s.io := rfl
@[simp] theorem State.updMem_logs (f : Memory → Memory) : (s.updMem f).logs = s.logs := rfl
@[simp] theorem State.updMem_upk (f : Memory → Memory) : (s.updMem f).upk = s.upk := rfl
@[simp] theorem State.updMem_store (f : Memory → Memory) : (s.updMem f).store = s.store := rfl
@[simp] theorem State.updMem_opt (f : Memory → Memory) : (s.updMem f).opt = s.opt := rfl
@[simp] theorem State.updMem_trust (f : Memory → Memory) : (s.updMem f).trust = s.trust := rfl
@[simp] theorem State.updMem_ckpt (f : Memory → Memory) : (s.updMem f).ckpt = s.ckpt := rfl
@[simp] theorem State.updMem_kennel (f : Memory → Memory) : (s.updMem f).kennel = s.kennel := rfl
@[simp] theorem State.updMem_pack (f : Memory → Memory) : (s.updMem f).pack = s.pack := rfl
@[simp] theorem State.updMem_out (f : Memory → Memory) : (s.updMem f).out = s.out := rfl
@[simp] theorem State.updMem_draws (f : Memory → Memory) : (s.updMem f).draws = s.draws := rfl

@[simp] theorem State.commit_pending : (s.commit).pending = s.pending := rfl
@[simp] theorem State.commit_supply : (s.commit).supply = s.supply := rfl
@[simp] theorem State.commit_clks : (s.commit).clks = s.clks := rfl
@[simp] theorem State.commit_plls : (s.commit).plls = s.plls := rfl
@[simp] theorem State.commit_doms : (s.commit).doms = s.doms := rfl
@[simp] theorem State.commit_temps : (s.commit).temps = s.temps := rfl
@[simp] theorem State.commit_excluded : (s.commit).excluded = s.excluded := rfl
@[simp] theorem State.commit_engines : (s.commit).engines = s.engines := rfl
@[simp] theorem State.commit_cores : (s.commit).cores = s.cores := rfl
@[simp] theorem State.commit_threads : (s.commit).threads = s.threads := rfl
@[simp] theorem State.commit_rings : (s.commit).rings = s.rings := rfl
@[simp] theorem State.commit_channels : (s.commit).channels = s.channels := rfl
@[simp] theorem State.commit_sync : (s.commit).sync = s.sync := rfl
@[simp] theorem State.commit_ctxs : (s.commit).ctxs = s.ctxs := rfl
@[simp] theorem State.commit_watch : (s.commit).watch = s.watch := rfl
@[simp] theorem State.commit_mem : (s.commit).mem = s.mem := rfl
@[simp] theorem State.commit_hist : (s.commit).hist = s.hist := rfl
@[simp] theorem State.commit_ing : (s.commit).ing = s.ing := rfl
@[simp] theorem State.commit_comms : (s.commit).comms = s.comms := rfl
@[simp] theorem State.commit_img : (s.commit).img = s.img := rfl
@[simp] theorem State.commit_results : (s.commit).results = s.results := rfl
@[simp] theorem State.commit_io : (s.commit).io = s.io := rfl
@[simp] theorem State.commit_logs : (s.commit).logs = s.logs := rfl
@[simp] theorem State.commit_upk : (s.commit).upk = s.upk := rfl
@[simp] theorem State.commit_store : (s.commit).store = s.store := rfl
@[simp] theorem State.commit_opt : (s.commit).opt = s.opt := rfl
@[simp] theorem State.commit_trust : (s.commit).trust = s.trust := rfl
@[simp] theorem State.commit_ckpt : (s.commit).ckpt = s.ckpt := rfl
@[simp] theorem State.commit_kennel : (s.commit).kennel = s.kennel := rfl
@[simp] theorem State.commit_pack : (s.commit).pack = s.pack := rfl
@[simp] theorem State.commit_out : (s.commit).out = s.out := rfl
@[simp] theorem State.commit_draws : (s.commit).draws = s.draws := rfl
@[simp] theorem State.commit_life_phase : (s.commit).life.phase = s.life.phase := rfl
@[simp] theorem State.commit_life_cause : (s.commit).life.cause = s.life.cause := rfl
@[simp] theorem State.commit_life_due : (s.commit).life.due = s.life.due := rfl
@[simp] theorem State.commit_life_poc : (s.commit).life.poc = s.life.poc := rfl
@[simp] theorem State.commit_life_startKind : (s.commit).life.startKind = s.life.startKind := rfl
@[simp] theorem State.commit_life_commit : (s.commit).life.commit = s.life.commit + 1 := rfl
@[simp] theorem State.commit_life_storedStamp :
    (s.commit).life.storedStamp = if (s.life.commit + 1) % 2 ^ 31 = 0 then s.life.commit + 1 else s.life.storedStamp := rfl
@[simp] theorem State.commit_life_now : (s.commit).life.now = s.life.now := rfl
@[simp] theorem State.commit_life_clock : (s.commit).life.clock = s.life.clock := rfl
@[simp] theorem State.commit_life_bank : (s.commit).life.bank = s.life.bank := rfl
@[simp] theorem State.commit_life_fwver : (s.commit).life.fwver = s.life.fwver := rfl
@[simp] theorem State.commit_life_usedFall : (s.commit).life.usedFall = s.life.usedFall := rfl
@[simp] theorem State.commit_life_unlockedOnce : (s.commit).life.unlockedOnce = s.life.unlockedOnce := rfl
@[simp] theorem State.commit_life_tcxoOk : (s.commit).life.tcxoOk = s.life.tcxoOk := rfl
@[simp] theorem State.commit_life_shepherdUp : (s.commit).life.shepherdUp = s.life.shepherdUp := rfl
@[simp] theorem State.commit_life_measures : (s.commit).life.measures = s.life.measures := rfl
@[simp] theorem State.commit_life_convFaults : (s.commit).life.convFaults = s.life.convFaults := rfl
@[simp] theorem State.commit_life_trips : (s.commit).life.trips = s.life.trips := rfl
@[simp] theorem State.commit_life_tripLatched : (s.commit).life.tripLatched = s.life.tripLatched := rfl
@[simp] theorem State.commit_life_retainOk : (s.commit).life.retainOk = s.life.retainOk := rfl

@[simp] theorem State.putLog_pending (r : LogRec) : (s.putLog r).pending = s.pending := rfl
@[simp] theorem State.putLog_life (r : LogRec) : (s.putLog r).life = s.life := rfl
@[simp] theorem State.putLog_supply (r : LogRec) : (s.putLog r).supply = s.supply := rfl
@[simp] theorem State.putLog_clks (r : LogRec) : (s.putLog r).clks = s.clks := rfl
@[simp] theorem State.putLog_plls (r : LogRec) : (s.putLog r).plls = s.plls := rfl
@[simp] theorem State.putLog_doms (r : LogRec) : (s.putLog r).doms = s.doms := rfl
@[simp] theorem State.putLog_temps (r : LogRec) : (s.putLog r).temps = s.temps := rfl
@[simp] theorem State.putLog_excluded (r : LogRec) : (s.putLog r).excluded = s.excluded := rfl
@[simp] theorem State.putLog_engines (r : LogRec) : (s.putLog r).engines = s.engines := rfl
@[simp] theorem State.putLog_cores (r : LogRec) : (s.putLog r).cores = s.cores := rfl
@[simp] theorem State.putLog_threads (r : LogRec) : (s.putLog r).threads = s.threads := rfl
@[simp] theorem State.putLog_rings (r : LogRec) : (s.putLog r).rings = s.rings := rfl
@[simp] theorem State.putLog_channels (r : LogRec) : (s.putLog r).channels = s.channels := rfl
@[simp] theorem State.putLog_sync (r : LogRec) : (s.putLog r).sync = s.sync := rfl
@[simp] theorem State.putLog_ctxs (r : LogRec) : (s.putLog r).ctxs = s.ctxs := rfl
@[simp] theorem State.putLog_watch (r : LogRec) : (s.putLog r).watch = s.watch := rfl
@[simp] theorem State.putLog_mem (r : LogRec) : (s.putLog r).mem = s.mem := rfl
@[simp] theorem State.putLog_hist (r : LogRec) : (s.putLog r).hist = s.hist := rfl
@[simp] theorem State.putLog_ing (r : LogRec) : (s.putLog r).ing = s.ing := rfl
@[simp] theorem State.putLog_comms (r : LogRec) : (s.putLog r).comms = s.comms := rfl
@[simp] theorem State.putLog_img (r : LogRec) : (s.putLog r).img = s.img := rfl
@[simp] theorem State.putLog_results (r : LogRec) : (s.putLog r).results = s.results := rfl
@[simp] theorem State.putLog_io (r : LogRec) : (s.putLog r).io = s.io := rfl
@[simp] theorem State.putLog_upk (r : LogRec) : (s.putLog r).upk = s.upk := rfl
@[simp] theorem State.putLog_store (r : LogRec) : (s.putLog r).store = s.store := rfl
@[simp] theorem State.putLog_opt (r : LogRec) : (s.putLog r).opt = s.opt := rfl
@[simp] theorem State.putLog_trust (r : LogRec) : (s.putLog r).trust = s.trust := rfl
@[simp] theorem State.putLog_ckpt (r : LogRec) : (s.putLog r).ckpt = s.ckpt := rfl
@[simp] theorem State.putLog_kennel (r : LogRec) : (s.putLog r).kennel = s.kennel := rfl
@[simp] theorem State.putLog_pack (r : LogRec) : (s.putLog r).pack = s.pack := rfl
@[simp] theorem State.putLog_out (r : LogRec) : (s.putLog r).out = s.out := rfl
@[simp] theorem State.putLog_draws (r : LogRec) : (s.putLog r).draws = s.draws := rfl

/-! ## What an update writes -/

@[simp] theorem State.updEngine_engine_same (e : Nat) (f : Engine → Engine) : (s.updEngine e f).engine e = f (s.engine e) := by
  simp [State.updEngine, State.engine]

theorem State.updEngine_engine_ne (e : Nat) (f : Engine → Engine) (j : Nat) (h : e ≠ j) : (s.updEngine e f).engine j = s.engine j :=
  Tab.get_upd_ne _ _ _ _ h

@[simp] theorem State.updCore_core_same (k : Nat) (f : Core → Core) : (s.updCore k f).core k = f (s.core k) := by
  simp [State.updCore, State.core]

theorem State.updCore_core_ne (k : Nat) (f : Core → Core) (j : Nat) (h : k ≠ j) : (s.updCore k f).core j = s.core j :=
  Tab.get_upd_ne _ _ _ _ h

@[simp] theorem State.updThread_thread_same (t : Nat) (f : Thread → Thread) : (s.updThread t f).thread t = f (s.thread t) := by
  simp [State.updThread, State.thread]

theorem State.updThread_thread_ne (t : Nat) (f : Thread → Thread) (j : Nat) (h : t ≠ j) : (s.updThread t f).thread j = s.thread j :=
  Tab.get_upd_ne _ _ _ _ h

@[simp] theorem State.updRing_ring_same (r : Nat) (f : Ring → Ring) : (s.updRing r f).ring r = f (s.ring r) := by
  simp [State.updRing, State.ring]

theorem State.updRing_ring_ne (r : Nat) (f : Ring → Ring) (j : Nat) (h : r ≠ j) : (s.updRing r f).ring j = s.ring j :=
  Tab.get_upd_ne _ _ _ _ h

@[simp] theorem State.setChannel_channel_same (c : Nat) (v : List Flight) : (s.setChannel c v).channel c = v := by
  simp [State.setChannel, State.channel]

theorem State.setChannel_channel_ne (c : Nat) (v : List Flight) (j : Nat) (h : c ≠ j) : (s.setChannel c v).channel j = s.channel j :=
  Tab.get_set_ne _ _ _ _ h

@[simp] theorem State.updCounter_counter_same (p : Nat) (f : Counter → Counter) : (s.updCounter p f).counter p = f (s.counter p) := by
  simp [State.updCounter, State.counter]

theorem State.updCounter_counter_ne (p : Nat) (f : Counter → Counter) (j : Nat) (h : p ≠ j) : (s.updCounter p f).counter j = s.counter j :=
  Tab.get_upd_ne _ _ _ _ h

@[simp] theorem State.updCtx_ctx_same (c : Nat) (f : Ctx → Ctx) : (s.updCtx c f).ctx c = f (s.ctx c) := by
  simp [State.updCtx, State.ctx]

theorem State.updCtx_ctx_ne (c : Nat) (f : Ctx → Ctx) (j : Nat) (h : c ≠ j) : (s.updCtx c f).ctx j = s.ctx j :=
  Tab.get_upd_ne _ _ _ _ h

@[simp] theorem State.updSlot_slot_same (n : Nat) (f : Slot → Slot) : (s.updSlot n f).slot n = f (s.slot n) := by
  simp [State.updSlot, State.slot]

theorem State.updSlot_slot_ne (n : Nat) (f : Slot → Slot) (j : Nat) (h : n ≠ j) : (s.updSlot n f).slot j = s.slot j :=
  Tab.get_upd_ne _ _ _ _ h

@[simp] theorem State.setSess_sess_same (n : Nat) (v : Option Session) : (s.setSess n v).sess n = v := by
  simp [State.setSess, State.sess]

theorem State.setSess_sess_ne (n : Nat) (v : Option Session) (j : Nat) (h : n ≠ j) : (s.setSess n v).sess j = s.sess j :=
  Tab.get_set_ne _ _ _ _ h

@[simp] theorem State.updClk_clk_same (k : Nat) (f : StackClk → StackClk) : (s.updClk k f).clk k = f (s.clk k) := by
  simp [State.updClk, State.clk]

theorem State.updClk_clk_ne (k : Nat) (f : StackClk → StackClk) (j : Nat) (h : k ≠ j) : (s.updClk k f).clk j = s.clk j :=
  Tab.get_upd_ne _ _ _ _ h

@[simp] theorem State.updPort_pport_same (p : Nat) (f : PackPort → PackPort) : (s.updPort p f).pport p = f (s.pport p) := by
  simp [State.updPort, State.pport]

theorem State.updPort_pport_ne (p : Nat) (f : PackPort → PackPort) (j : Nat) (h : p ≠ j) : (s.updPort p f).pport j = s.pport j :=
  Tab.get_upd_ne _ _ _ _ h

@[simp] theorem State.setOp_op_same (e : Nat) (v : Option OpRun) : (s.setOp e v).op e = v := by
  simp [State.setOp, State.op]

theorem State.setOp_op_ne (e : Nat) (v : Option OpRun) (j : Nat) (h : e ≠ j) : (s.setOp e v).op j = s.op j :=
  Tab.get_set_ne _ _ _ _ h

@[simp] theorem State.updSess_sess_same (n : Nat) (f : Session → Session) : (s.updSess n f).sess n = (s.sess n).map f := by
  simp [State.updSess]

theorem State.updSess_sess_ne (n : Nat) (f : Session → Session) (j : Nat) (h : n ≠ j) : (s.updSess n f).sess j = s.sess j :=
  Tab.get_set_ne _ _ _ _ h

@[simp] theorem State.emit_out_eq (o : Out) : (s.emit o).out = s.out ++ [o] := rfl

@[simp] theorem State.updMem_mem_eq (f : Memory → Memory) : (s.updMem f).mem = f s.mem := rfl

/-- Two states whose parts are the same are one state. -/
theorem State.ext_parts (a b : State)
    (h_pending : a.pending = b.pending) (h_life : a.life = b.life) (h_supply : a.supply = b.supply) (h_clks : a.clks =
    b.clks) (h_plls : a.plls = b.plls) (h_doms : a.doms = b.doms) (h_temps : a.temps = b.temps) (h_excluded : a.excluded = b.excluded) (h_engines :
    a.engines = b.engines) (h_cores : a.cores = b.cores) (h_threads : a.threads = b.threads) (h_rings : a.rings = b.rings)
    (h_channels : a.channels = b.channels) (h_sync : a.sync = b.sync) (h_ctxs : a.ctxs = b.ctxs) (h_watch : a.watch =
    b.watch) (h_mem : a.mem = b.mem) (h_hist : a.hist = b.hist) (h_ing : a.ing = b.ing) (h_comms : a.comms = b.comms)
    (h_img : a.img = b.img) (h_results : a.results = b.results) (h_io : a.io = b.io) (h_logs : a.logs = b.logs) (h_upk :
    a.upk = b.upk) (h_store : a.store = b.store) (h_opt : a.opt = b.opt) (h_trust : a.trust = b.trust) (h_ckpt : a.ckpt =
    b.ckpt) (h_kennel : a.kennel = b.kennel) (h_pack : a.pack = b.pack) (h_out : a.out = b.out) (h_draws : a.draws =
    b.draws) : a = b := by
  cases a
  cases b
  simp only at *
  subst_vars
  rfl

end Sys2Proof.Machine
end

