-- ==== Sys2Proof/Laws/Trouble.lean ====
section
/-! SUPPORT. What a notify, a log record and a trouble event do, said once: the stamp, the log and the trouble words, the
sessions, what leaves the module; nothing else. -/

namespace Sys2Proof.Machine

open Sys2Proof

theorem sendNotify_eq (s : State) (sid : Nat) (n : Notify) : ∃ co ou, s.sendNotify sid n = { s with comms := co, out := s.out ++ ou } := by
  unfold State.sendNotify
  split
  · exact ⟨s.comms, [], by simp⟩
  · exact ⟨_, _, rfl⟩

theorem notify_eq (s : State) (sid opcode ctx : Nat) (st : Status) (d : Nat) (l : List Tlv) :
    ∃ co ou, s.notify sid opcode ctx st d l = { s with comms := co, out := s.out ++ ou } := by
  unfold State.notify
  split
  · exact ⟨s.comms, [], by simp⟩
  · split
    · next x _ _ =>
      exact ⟨(s.setSess sid (some { x with nlost := satAdd 32 x.nlost 1, lossDue := true })).comms, [], by rw [List.append_nil]; rfl⟩
    · dsimp only
      obtain ⟨co, ou, h⟩ := sendNotify_eq (s.setSess sid (some _)) sid _
      exact ⟨co, ou, h⟩

/-- A fold of what changes sessions and what leaves the module changes no more. -/
theorem each_comms_eq (f : State → Nat → State) (hf : ∀ s n, ∃ co ou, f s n = { s with comms := co, out := s.out ++ ou }) (l : List Nat) (s : State) :
    ∃ co ou, s.each l f = { s with comms := co, out := s.out ++ ou } := by
  induction l generalizing s with
  | nil => exact ⟨s.comms, [], by simp [State.each]⟩
  | cons n ns ih =>
    obtain ⟨c1, o1, h1⟩ := hf s n
    obtain ⟨c2, o2, h2⟩ := ih (f s n)
    refine ⟨c2, o1 ++ o2, ?_⟩
    rw [State.each, h2, h1]
    simp

theorem eventNotify_eq (s : State) (w b : Nat) (r : LogRec) : ∃ co ou, s.eventNotify w b r = { s with comms := co, out := s.out ++ ou } := by
  refine each_comms_eq _ (fun s n => ?_) _ _
  split
  · exact ⟨s.comms, [], by simp⟩
  · split
    · exact notify_eq _ _ _ _ _ _ _
    · exact ⟨s.comms, [], by simp⟩

theorem complete_eq (s : State) (who : Option (Nat × Nat)) (opcode ctx : Nat) (st : Status) (d : Nat) (l : List Tlv) :
    ∃ co ou, s.complete who opcode ctx st d l = { s with comms := co, out := s.out ++ ou } := by
  unfold State.complete
  split
  · exact ⟨s.comms, [], by simp⟩
  · exact notify_eq _ _ _ _ _ _ _

/-- A log record changes the stamp and the log, and no trouble word. -/
theorem logLimited_eq (s : State) (e : LogEv) (tb : Option (Nat × Nat)) :
    ∃ c d lo, s.logLimited e tb = { s with life := { s.life with commit := c, storedStamp := d }, logs := lo }
      ∧ ∀ w, lo.word w = s.logs.word w := by
  unfold State.logLimited
  split
  · exact ⟨_, _, _, rfl, fun _ => rfl⟩
  · exact ⟨s.life.commit, s.life.storedStamp, _, rfl, fun _ => rfl⟩

theorem log_eq (s : State) (e : LogEv) :
    ∃ c d lo, s.log e = { s with life := { s.life with commit := c, storedStamp := d }, logs := lo } ∧ ∀ w, lo.word w = s.logs.word w :=
  logLimited_eq s e none

theorem word_setWord (l : Logs) (w v : Nat) (x : BitVec 32) (hw : w < 3) (hv : v < 3) : (l.setWord w x).word v = if w = v then x else l.word v := by
  match w, v, hw, hv with
  | 0, 0, _, _ | 0, 1, _, _ | 0, 2, _, _ | 1, 0, _, _ | 1, 1, _, _ | 1, 2, _, _ | 2, 0, _, _ | 2, 1, _, _ | 2, 2, _, _ => rfl

/-- A trouble event sets its bit and no other, and changes the stamp, the log, the sessions and what leaves the module. -/
theorem troubleAs_eq (s : State) (w b : Nat) (e : LogEv) (hw : w < 3) (hb : b < 32) :
    ∃ c d lo co ou, s.troubleAs w b e = { s with life := { s.life with commit := c, storedStamp := d }, logs := lo, comms := co, out := s.out ++ ou }
      ∧ ∀ v k, v < 3 → (lo.word v).getLsbD k = ((s.logs.word v).getLsbD k || decide (v = w ∧ k = b)) := by
  unfold State.troubleAs
  split
  · next hbit =>
    obtain ⟨c, d, lo, h, hl⟩ := logLimited_eq s e (some (w, b))
    refine ⟨c, d, lo, s.comms, [], by simp [h], fun v k _ => ?_⟩
    rw [hl]
    by_cases hvk : v = w ∧ k = b
    · obtain ⟨rfl, rfl⟩ := hvk
      simp [hbit]
    · simp [hvk]
  · dsimp only
    obtain ⟨co, ou, h⟩ := eventNotify_eq { (s.commit.putLog (s.commit.mkLog e (some (w, b)))) with
      logs := (s.commit.putLog (s.commit.mkLog e (some (w, b)))).logs.setWord w ((s.commit.putLog (s.commit.mkLog e (some (w, b)))).logs.word w ||| (1#32 <<< b)) }
      w b (s.commit.mkLog e (some (w, b)))
    refine ⟨_, _, _, co, ou, h, fun v k hv => ?_⟩
    rw [word_setWord _ _ _ _ hw hv]
    have e1 : ∀ v, (s.commit.putLog (s.commit.mkLog e (some (w, b)))).logs.word v = s.logs.word v := fun _ => rfl
    rw [e1, e1]
    by_cases hwv : w = v
    · subst hwv
      by_cases hk : k = b
      · subst hk
        simp [hb]
      · have : ¬ (k - b = 0 ∧ b ≤ k) := by omega
        by_cases h2 : k < b
        · simp [hk, h2]
        · have h3 : k - b ≠ 0 := by omega
          simp [hk, h3, BitVec.getLsbD_one]
    · have : ¬ v = w := fun h => hwv h.symm
      simp [hwv, this]

theorem trouble_eq (s : State) (w b loc bunit ctx : Nat) (l : List Nat) (hw : w < 3) (hb : b < 32) :
    ∃ c d lo co ou, s.trouble w b loc bunit ctx l = { s with life := { s.life with commit := c, storedStamp := d }, logs := lo, comms := co, out := s.out ++ ou }
      ∧ ∀ v k, v < 3 → (lo.word v).getLsbD k = ((s.logs.word v).getLsbD k || decide (v = w ∧ k = b)) :=
  troubleAs_eq _ _ _ _ hw hb

theorem raise_eq (s : State) (w b bunit : Nat) (hw : w < 3) (hb : b < 32) :
    ∃ c d lo co ou, s.raise w b bunit = { s with life := { s.life with commit := c, storedStamp := d }, logs := lo, comms := co, out := s.out ++ ou }
      ∧ ∀ v k, v < 3 → (lo.word v).getLsbD k = ((s.logs.word v).getLsbD k || decide (v = w ∧ k = b)) :=
  troubleAs_eq _ _ _ _ hw hb

theorem logged_refl (s : State) : Logged s s [] := ⟨rfl, ⟨[], by simp⟩, fun v k _ => by simp⟩

theorem logged_log (s : State) (e : LogEv) : Logged s (s.log e) [] := by
  obtain ⟨c, d, lo, h, hl⟩ := log_eq s e
  rw [h]
  exact ⟨rfl, ⟨[], by simp⟩, fun v k _ => by simp [hl]⟩

theorem logged_trouble (s : State) (w b loc bunit ctx : Nat) (l : List Nat) (hw : w < 3) (hb : b < 32) :
    Logged s (s.trouble w b loc bunit ctx l) [(w, b)] := by
  obtain ⟨c, d, lo, co, ou, h, hl⟩ := trouble_eq s w b loc bunit ctx l hw hb
  rw [h]
  exact ⟨rfl, ⟨ou, rfl⟩, fun v k hv => by simp [hl v k hv]⟩

theorem logged_raise (s : State) (w b bunit : Nat) (hw : w < 3) (hb : b < 32) : Logged s (s.raise w b bunit) [(w, b)] :=
  logged_trouble s w b 0 bunit 0xFF [] hw hb

end Sys2Proof.Machine
end

