-- ==== Sys2Proof/Laws/Events.lean ====
section
/-! SUPPORT. What a notify, a record and a trouble event leave as it was, field by field. -/

namespace Sys2Proof.Machine

open Sys2Proof

variable (s : State)

/-- A trouble event whatever its bit. -/
theorem trouble_parts (w b loc bunit ctx : Nat) (l : List Nat) : ∃ c d lo co ou,
    s.trouble w b loc bunit ctx l = { s with life := { s.life with commit := c, storedStamp := d }, logs := lo, comms := co, out := s.out ++ ou } := by
  unfold State.trouble State.troubleAs
  split
  · obtain ⟨c, d, lo, h, -⟩ := logLimited_eq s { code := bitCode w b, loc := loc, bunit := bunit, ctx := ctx, detail := l } (some (w, b))
    exact ⟨c, d, lo, s.comms, [], by simp [h]⟩
  · dsimp only
    obtain ⟨co, ou, h⟩ := eventNotify_eq _ w b (s.commit.mkLog { code := bitCode w b, loc := loc, bunit := bunit, ctx := ctx, detail := l } (some (w, b)))
    rw [h]
    exact ⟨_, _, _, _, _, rfl⟩

theorem State.notify_frame (sid opcode ctx : Nat) (st : Status) (d : Nat) (l : List Tlv) : { s.notify sid opcode ctx st d l with comms := s.comms, out := s.out } = s := by
  obtain ⟨co, ou, h⟩ := notify_eq s sid opcode ctx st d l
  rw [h]

@[simp] theorem State.notify_pending (sid opcode ctx : Nat) (st : Status) (d : Nat) (l : List Tlv) : (s.notify sid opcode ctx st d l).pending = s.pending := by have h := congrArg State.pending (State.notify_frame s sid opcode ctx st d l); exact h
@[simp] theorem State.notify_life (sid opcode ctx : Nat) (st : Status) (d : Nat) (l : List Tlv) : (s.notify sid opcode ctx st d l).life = s.life := by have h := congrArg State.life (State.notify_frame s sid opcode ctx st d l); exact h
@[simp] theorem State.notify_supply (sid opcode ctx : Nat) (st : Status) (d : Nat) (l : List Tlv) : (s.notify sid opcode ctx st d l).supply = s.supply := by have h := congrArg State.supply (State.notify_frame s sid opcode ctx st d l); exact h
@[simp] theorem State.notify_clks (sid opcode ctx : Nat) (st : Status) (d : Nat) (l : List Tlv) : (s.notify sid opcode ctx st d l).clks = s.clks := by have h := congrArg State.clks (State.notify_frame s sid opcode ctx st d l); exact h
@[simp] theorem State.notify_doms (sid opcode ctx : Nat) (st : Status) (d : Nat) (l : List Tlv) : (s.notify sid opcode ctx st d l).doms = s.doms := by have h := congrArg State.doms (State.notify_frame s sid opcode ctx st d l); exact h
@[simp] theorem State.notify_temps (sid opcode ctx : Nat) (st : Status) (d : Nat) (l : List Tlv) : (s.notify sid opcode ctx st d l).temps = s.temps := by have h := congrArg State.temps (State.notify_frame s sid opcode ctx st d l); exact h
@[simp] theorem State.notify_excluded (sid opcode ctx : Nat) (st : Status) (d : Nat) (l : List Tlv) : (s.notify sid opcode ctx st d l).excluded = s.excluded := by have h := congrArg State.excluded (State.notify_frame s sid opcode ctx st d l); exact h
@[simp] theorem State.notify_engines (sid opcode ctx : Nat) (st : Status) (d : Nat) (l : List Tlv) : (s.notify sid opcode ctx st d l).engines = s.engines := by have h := congrArg State.engines (State.notify_frame s sid opcode ctx st d l); exact h
@[simp] theorem State.notify_cores (sid opcode ctx : Nat) (st : Status) (d : Nat) (l : List Tlv) : (s.notify sid opcode ctx st d l).cores = s.cores := by have h := congrArg State.cores (State.notify_frame s sid opcode ctx st d l); exact h
@[simp] theorem State.notify_threads (sid opcode ctx : Nat) (st : Status) (d : Nat) (l : List Tlv) : (s.notify sid opcode ctx st d l).threads = s.threads := by have h := congrArg State.threads (State.notify_frame s sid opcode ctx st d l); exact h
@[simp] theorem State.notify_rings (sid opcode ctx : Nat) (st : Status) (d : Nat) (l : List Tlv) : (s.notify sid opcode ctx st d l).rings = s.rings := by have h := congrArg State.rings (State.notify_frame s sid opcode ctx st d l); exact h
@[simp] theorem State.notify_channels (sid opcode ctx : Nat) (st : Status) (d : Nat) (l : List Tlv) : (s.notify sid opcode ctx st d l).channels = s.channels := by have h := congrArg State.channels (State.notify_frame s sid opcode ctx st d l); exact h
@[simp] theorem State.notify_sync (sid opcode ctx : Nat) (st : Status) (d : Nat) (l : List Tlv) : (s.notify sid opcode ctx st d l).sync = s.sync := by have h := congrArg State.sync (State.notify_frame s sid opcode ctx st d l); exact h
@[simp] theorem State.notify_ctxs (sid opcode ctx : Nat) (st : Status) (d : Nat) (l : List Tlv) : (s.notify sid opcode ctx st d l).ctxs = s.ctxs := by have h := congrArg State.ctxs (State.notify_frame s sid opcode ctx st d l); exact h
@[simp] theorem State.notify_watch (sid opcode ctx : Nat) (st : Status) (d : Nat) (l : List Tlv) : (s.notify sid opcode ctx st d l).watch = s.watch := by have h := congrArg State.watch (State.notify_frame s sid opcode ctx st d l); exact h
@[simp] theorem State.notify_mem (sid opcode ctx : Nat) (st : Status) (d : Nat) (l : List Tlv) : (s.notify sid opcode ctx st d l).mem = s.mem := by have h := congrArg State.mem (State.notify_frame s sid opcode ctx st d l); exact h
@[simp] theorem State.notify_hist (sid opcode ctx : Nat) (st : Status) (d : Nat) (l : List Tlv) : (s.notify sid opcode ctx st d l).hist = s.hist := by have h := congrArg State.hist (State.notify_frame s sid opcode ctx st d l); exact h
@[simp] theorem State.notify_ing (sid opcode ctx : Nat) (st : Status) (d : Nat) (l : List Tlv) : (s.notify sid opcode ctx st d l).ing = s.ing := by have h := congrArg State.ing (State.notify_frame s sid opcode ctx st d l); exact h
@[simp] theorem State.notify_img (sid opcode ctx : Nat) (st : Status) (d : Nat) (l : List Tlv) : (s.notify sid opcode ctx st d l).img = s.img := by have h := congrArg State.img (State.notify_frame s sid opcode ctx st d l); exact h
@[simp] theorem State.notify_results (sid opcode ctx : Nat) (st : Status) (d : Nat) (l : List Tlv) : (s.notify sid opcode ctx st d l).results = s.results := by have h := congrArg State.results (State.notify_frame s sid opcode ctx st d l); exact h
@[simp] theorem State.notify_io (sid opcode ctx : Nat) (st : Status) (d : Nat) (l : List Tlv) : (s.notify sid opcode ctx st d l).io = s.io := by have h := congrArg State.io (State.notify_frame s sid opcode ctx st d l); exact h
@[simp] theorem State.notify_logs (sid opcode ctx : Nat) (st : Status) (d : Nat) (l : List Tlv) : (s.notify sid opcode ctx st d l).logs = s.logs := by have h := congrArg State.logs (State.notify_frame s sid opcode ctx st d l); exact h
@[simp] theorem State.notify_upk (sid opcode ctx : Nat) (st : Status) (d : Nat) (l : List Tlv) : (s.notify sid opcode ctx st d l).upk = s.upk := by have h := congrArg State.upk (State.notify_frame s sid opcode ctx st d l); exact h
@[simp] theorem State.notify_store (sid opcode ctx : Nat) (st : Status) (d : Nat) (l : List Tlv) : (s.notify sid opcode ctx st d l).store = s.store := by have h := congrArg State.store (State.notify_frame s sid opcode ctx st d l); exact h
@[simp] theorem State.notify_opt (sid opcode ctx : Nat) (st : Status) (d : Nat) (l : List Tlv) : (s.notify sid opcode ctx st d l).opt = s.opt := by have h := congrArg State.opt (State.notify_frame s sid opcode ctx st d l); exact h
@[simp] theorem State.notify_trust (sid opcode ctx : Nat) (st : Status) (d : Nat) (l : List Tlv) : (s.notify sid opcode ctx st d l).trust = s.trust := by have h := congrArg State.trust (State.notify_frame s sid opcode ctx st d l); exact h
@[simp] theorem State.notify_ckpt (sid opcode ctx : Nat) (st : Status) (d : Nat) (l : List Tlv) : (s.notify sid opcode ctx st d l).ckpt = s.ckpt := by have h := congrArg State.ckpt (State.notify_frame s sid opcode ctx st d l); exact h
@[simp] theorem State.notify_kennel (sid opcode ctx : Nat) (st : Status) (d : Nat) (l : List Tlv) : (s.notify sid opcode ctx st d l).kennel = s.kennel := by have h := congrArg State.kennel (State.notify_frame s sid opcode ctx st d l); exact h
@[simp] theorem State.notify_pack (sid opcode ctx : Nat) (st : Status) (d : Nat) (l : List Tlv) : (s.notify sid opcode ctx st d l).pack = s.pack := by have h := congrArg State.pack (State.notify_frame s sid opcode ctx st d l); exact h
@[simp] theorem State.notify_draws (sid opcode ctx : Nat) (st : Status) (d : Nat) (l : List Tlv) : (s.notify sid opcode ctx st d l).draws = s.draws := by have h := congrArg State.draws (State.notify_frame s sid opcode ctx st d l); exact h

theorem State.complete_frame (who : Option (Nat × Nat)) (opcode ctx : Nat) (st : Status) (d : Nat) (l : List Tlv) : { s.complete who opcode ctx st d l with comms := s.comms, out := s.out } = s := by
  obtain ⟨co, ou, h⟩ := complete_eq s who opcode ctx st d l
  rw [h]

@[simp] theorem State.complete_pending (who : Option (Nat × Nat)) (opcode ctx : Nat) (st : Status) (d : Nat) (l : List Tlv) : (s.complete who opcode ctx st d l).pending = s.pending := by have h := congrArg State.pending (State.complete_frame s who opcode ctx st d l); exact h
@[simp] theorem State.complete_life (who : Option (Nat × Nat)) (opcode ctx : Nat) (st : Status) (d : Nat) (l : List Tlv) : (s.complete who opcode ctx st d l).life = s.life := by have h := congrArg State.life (State.complete_frame s who opcode ctx st d l); exact h
@[simp] theorem State.complete_supply (who : Option (Nat × Nat)) (opcode ctx : Nat) (st : Status) (d : Nat) (l : List Tlv) : (s.complete who opcode ctx st d l).supply = s.supply := by have h := congrArg State.supply (State.complete_frame s who opcode ctx st d l); exact h
@[simp] theorem State.complete_clks (who : Option (Nat × Nat)) (opcode ctx : Nat) (st : Status) (d : Nat) (l : List Tlv) : (s.complete who opcode ctx st d l).clks = s.clks := by have h := congrArg State.clks (State.complete_frame s who opcode ctx st d l); exact h
@[simp] theorem State.complete_doms (who : Option (Nat × Nat)) (opcode ctx : Nat) (st : Status) (d : Nat) (l : List Tlv) : (s.complete who opcode ctx st d l).doms = s.doms := by have h := congrArg State.doms (State.complete_frame s who opcode ctx st d l); exact h
@[simp] theorem State.complete_temps (who : Option (Nat × Nat)) (opcode ctx : Nat) (st : Status) (d : Nat) (l : List Tlv) : (s.complete who opcode ctx st d l).temps = s.temps := by have h := congrArg State.temps (State.complete_frame s who opcode ctx st d l); exact h
@[simp] theorem State.complete_excluded (who : Option (Nat × Nat)) (opcode ctx : Nat) (st : Status) (d : Nat) (l : List Tlv) : (s.complete who opcode ctx st d l).excluded = s.excluded := by have h := congrArg State.excluded (State.complete_frame s who opcode ctx st d l); exact h
@[simp] theorem State.complete_engines (who : Option (Nat × Nat)) (opcode ctx : Nat) (st : Status) (d : Nat) (l : List Tlv) : (s.complete who opcode ctx st d l).engines = s.engines := by have h := congrArg State.engines (State.complete_frame s who opcode ctx st d l); exact h
@[simp] theorem State.complete_cores (who : Option (Nat × Nat)) (opcode ctx : Nat) (st : Status) (d : Nat) (l : List Tlv) : (s.complete who opcode ctx st d l).cores = s.cores := by have h := congrArg State.cores (State.complete_frame s who opcode ctx st d l); exact h
@[simp] theorem State.complete_threads (who : Option (Nat × Nat)) (opcode ctx : Nat) (st : Status) (d : Nat) (l : List Tlv) : (s.complete who opcode ctx st d l).threads = s.threads := by have h := congrArg State.threads (State.complete_frame s who opcode ctx st d l); exact h
@[simp] theorem State.complete_rings (who : Option (Nat × Nat)) (opcode ctx : Nat) (st : Status) (d : Nat) (l : List Tlv) : (s.complete who opcode ctx st d l).rings = s.rings := by have h := congrArg State.rings (State.complete_frame s who opcode ctx st d l); exact h
@[simp] theorem State.complete_channels (who : Option (Nat × Nat)) (opcode ctx : Nat) (st : Status) (d : Nat) (l : List Tlv) : (s.complete who opcode ctx st d l).channels = s.channels := by have h := congrArg State.channels (State.complete_frame s who opcode ctx st d l); exact h
@[simp] theorem State.complete_sync (who : Option (Nat × Nat)) (opcode ctx : Nat) (st : Status) (d : Nat) (l : List Tlv) : (s.complete who opcode ctx st d l).sync = s.sync := by have h := congrArg State.sync (State.complete_frame s who opcode ctx st d l); exact h
@[simp] theorem State.complete_ctxs (who : Option (Nat × Nat)) (opcode ctx : Nat) (st : Status) (d : Nat) (l : List Tlv) : (s.complete who opcode ctx st d l).ctxs = s.ctxs := by have h := congrArg State.ctxs (State.complete_frame s who opcode ctx st d l); exact h
@[simp] theorem State.complete_watch (who : Option (Nat × Nat)) (opcode ctx : Nat) (st : Status) (d : Nat) (l : List Tlv) : (s.complete who opcode ctx st d l).watch = s.watch := by have h := congrArg State.watch (State.complete_frame s who opcode ctx st d l); exact h
@[simp] theorem State.complete_mem (who : Option (Nat × Nat)) (opcode ctx : Nat) (st : Status) (d : Nat) (l : List Tlv) : (s.complete who opcode ctx st d l).mem = s.mem := by have h := congrArg State.mem (State.complete_frame s who opcode ctx st d l); exact h
@[simp] theorem State.complete_hist (who : Option (Nat × Nat)) (opcode ctx : Nat) (st : Status) (d : Nat) (l : List Tlv) : (s.complete who opcode ctx st d l).hist = s.hist := by have h := congrArg State.hist (State.complete_frame s who opcode ctx st d l); exact h
@[simp] theorem State.complete_ing (who : Option (Nat × Nat)) (opcode ctx : Nat) (st : Status) (d : Nat) (l : List Tlv) : (s.complete who opcode ctx st d l).ing = s.ing := by have h := congrArg State.ing (State.complete_frame s who opcode ctx st d l); exact h
@[simp] theorem State.complete_img (who : Option (Nat × Nat)) (opcode ctx : Nat) (st : Status) (d : Nat) (l : List Tlv) : (s.complete who opcode ctx st d l).img = s.img := by have h := congrArg State.img (State.complete_frame s who opcode ctx st d l); exact h
@[simp] theorem State.complete_results (who : Option (Nat × Nat)) (opcode ctx : Nat) (st : Status) (d : Nat) (l : List Tlv) : (s.complete who opcode ctx st d l).results = s.results := by have h := congrArg State.results (State.complete_frame s who opcode ctx st d l); exact h
@[simp] theorem State.complete_io (who : Option (Nat × Nat)) (opcode ctx : Nat) (st : Status) (d : Nat) (l : List Tlv) : (s.complete who opcode ctx st d l).io = s.io := by have h := congrArg State.io (State.complete_frame s who opcode ctx st d l); exact h
@[simp] theorem State.complete_logs (who : Option (Nat × Nat)) (opcode ctx : Nat) (st : Status) (d : Nat) (l : List Tlv) : (s.complete who opcode ctx st d l).logs = s.logs := by have h := congrArg State.logs (State.complete_frame s who opcode ctx st d l); exact h
@[simp] theorem State.complete_upk (who : Option (Nat × Nat)) (opcode ctx : Nat) (st : Status) (d : Nat) (l : List Tlv) : (s.complete who opcode ctx st d l).upk = s.upk := by have h := congrArg State.upk (State.complete_frame s who opcode ctx st d l); exact h
@[simp] theorem State.complete_store (who : Option (Nat × Nat)) (opcode ctx : Nat) (st : Status) (d : Nat) (l : List Tlv) : (s.complete who opcode ctx st d l).store = s.store := by have h := congrArg State.store (State.complete_frame s who opcode ctx st d l); exact h
@[simp] theorem State.complete_opt (who : Option (Nat × Nat)) (opcode ctx : Nat) (st : Status) (d : Nat) (l : List Tlv) : (s.complete who opcode ctx st d l).opt = s.opt := by have h := congrArg State.opt (State.complete_frame s who opcode ctx st d l); exact h
@[simp] theorem State.complete_trust (who : Option (Nat × Nat)) (opcode ctx : Nat) (st : Status) (d : Nat) (l : List Tlv) : (s.complete who opcode ctx st d l).trust = s.trust := by have h := congrArg State.trust (State.complete_frame s who opcode ctx st d l); exact h
@[simp] theorem State.complete_ckpt (who : Option (Nat × Nat)) (opcode ctx : Nat) (st : Status) (d : Nat) (l : List Tlv) : (s.complete who opcode ctx st d l).ckpt = s.ckpt := by have h := congrArg State.ckpt (State.complete_frame s who opcode ctx st d l); exact h
@[simp] theorem State.complete_kennel (who : Option (Nat × Nat)) (opcode ctx : Nat) (st : Status) (d : Nat) (l : List Tlv) : (s.complete who opcode ctx st d l).kennel = s.kennel := by have h := congrArg State.kennel (State.complete_frame s who opcode ctx st d l); exact h
@[simp] theorem State.complete_pack (who : Option (Nat × Nat)) (opcode ctx : Nat) (st : Status) (d : Nat) (l : List Tlv) : (s.complete who opcode ctx st d l).pack = s.pack := by have h := congrArg State.pack (State.complete_frame s who opcode ctx st d l); exact h
@[simp] theorem State.complete_draws (who : Option (Nat × Nat)) (opcode ctx : Nat) (st : Status) (d : Nat) (l : List Tlv) : (s.complete who opcode ctx st d l).draws = s.draws := by have h := congrArg State.draws (State.complete_frame s who opcode ctx st d l); exact h

theorem State.log_frame (e : LogEv) : { s.log e with life := s.life, logs := s.logs } = s := by
  obtain ⟨c, d, lo, h, -⟩ := log_eq s e
  rw [h]

theorem State.log_life (e : LogEv) : { (s.log e).life with commit := s.life.commit, storedStamp := s.life.storedStamp } = s.life := by
  obtain ⟨c, d, lo, h, -⟩ := log_eq s e
  rw [h]

@[simp] theorem State.log_pending (e : LogEv) : (s.log e).pending = s.pending := by have h := congrArg State.pending (State.log_frame s e); exact h
@[simp] theorem State.log_supply (e : LogEv) : (s.log e).supply = s.supply := by have h := congrArg State.supply (State.log_frame s e); exact h
@[simp] theorem State.log_clks (e : LogEv) : (s.log e).clks = s.clks := by have h := congrArg State.clks (State.log_frame s e); exact h
@[simp] theorem State.log_doms (e : LogEv) : (s.log e).doms = s.doms := by have h := congrArg State.doms (State.log_frame s e); exact h
@[simp] theorem State.log_temps (e : LogEv) : (s.log e).temps = s.temps := by have h := congrArg State.temps (State.log_frame s e); exact h
@[simp] theorem State.log_excluded (e : LogEv) : (s.log e).excluded = s.excluded := by have h := congrArg State.excluded (State.log_frame s e); exact h
@[simp] theorem State.log_engines (e : LogEv) : (s.log e).engines = s.engines := by have h := congrArg State.engines (State.log_frame s e); exact h
@[simp] theorem State.log_cores (e : LogEv) : (s.log e).cores = s.cores := by have h := congrArg State.cores (State.log_frame s e); exact h
@[simp] theorem State.log_threads (e : LogEv) : (s.log e).threads = s.threads := by have h := congrArg State.threads (State.log_frame s e); exact h
@[simp] theorem State.log_rings (e : LogEv) : (s.log e).rings = s.rings := by have h := congrArg State.rings (State.log_frame s e); exact h
@[simp] theorem State.log_channels (e : LogEv) : (s.log e).channels = s.channels := by have h := congrArg State.channels (State.log_frame s e); exact h
@[simp] theorem State.log_sync (e : LogEv) : (s.log e).sync = s.sync := by have h := congrArg State.sync (State.log_frame s e); exact h
@[simp] theorem State.log_ctxs (e : LogEv) : (s.log e).ctxs = s.ctxs := by have h := congrArg State.ctxs (State.log_frame s e); exact h
@[simp] theorem State.log_watch (e : LogEv) : (s.log e).watch = s.watch := by have h := congrArg State.watch (State.log_frame s e); exact h
@[simp] theorem State.log_mem (e : LogEv) : (s.log e).mem = s.mem := by have h := congrArg State.mem (State.log_frame s e); exact h
@[simp] theorem State.log_hist (e : LogEv) : (s.log e).hist = s.hist := by have h := congrArg State.hist (State.log_frame s e); exact h
@[simp] theorem State.log_ing (e : LogEv) : (s.log e).ing = s.ing := by have h := congrArg State.ing (State.log_frame s e); exact h
@[simp] theorem State.log_comms (e : LogEv) : (s.log e).comms = s.comms := by have h := congrArg State.comms (State.log_frame s e); exact h
@[simp] theorem State.log_img (e : LogEv) : (s.log e).img = s.img := by have h := congrArg State.img (State.log_frame s e); exact h
@[simp] theorem State.log_results (e : LogEv) : (s.log e).results = s.results := by have h := congrArg State.results (State.log_frame s e); exact h
@[simp] theorem State.log_io (e : LogEv) : (s.log e).io = s.io := by have h := congrArg State.io (State.log_frame s e); exact h
@[simp] theorem State.log_upk (e : LogEv) : (s.log e).upk = s.upk := by have h := congrArg State.upk (State.log_frame s e); exact h
@[simp] theorem State.log_store (e : LogEv) : (s.log e).store = s.store := by have h := congrArg State.store (State.log_frame s e); exact h
@[simp] theorem State.log_opt (e : LogEv) : (s.log e).opt = s.opt := by have h := congrArg State.opt (State.log_frame s e); exact h
@[simp] theorem State.log_trust (e : LogEv) : (s.log e).trust = s.trust := by have h := congrArg State.trust (State.log_frame s e); exact h
@[simp] theorem State.log_ckpt (e : LogEv) : (s.log e).ckpt = s.ckpt := by have h := congrArg State.ckpt (State.log_frame s e); exact h
@[simp] theorem State.log_kennel (e : LogEv) : (s.log e).kennel = s.kennel := by have h := congrArg State.kennel (State.log_frame s e); exact h
@[simp] theorem State.log_pack (e : LogEv) : (s.log e).pack = s.pack := by have h := congrArg State.pack (State.log_frame s e); exact h
@[simp] theorem State.log_out (e : LogEv) : (s.log e).out = s.out := by have h := congrArg State.out (State.log_frame s e); exact h
@[simp] theorem State.log_draws (e : LogEv) : (s.log e).draws = s.draws := by have h := congrArg State.draws (State.log_frame s e); exact h
@[simp] theorem State.log_life_phase (e : LogEv) : (s.log e).life.phase = s.life.phase := by have h := congrArg Life.phase (State.log_life s e); exact h
@[simp] theorem State.log_life_cause (e : LogEv) : (s.log e).life.cause = s.life.cause := by have h := congrArg Life.cause (State.log_life s e); exact h
@[simp] theorem State.log_life_due (e : LogEv) : (s.log e).life.due = s.life.due := by have h := congrArg Life.due (State.log_life s e); exact h
@[simp] theorem State.log_life_poc (e : LogEv) : (s.log e).life.poc = s.life.poc := by have h := congrArg Life.poc (State.log_life s e); exact h
@[simp] theorem State.log_life_startKind (e : LogEv) : (s.log e).life.startKind = s.life.startKind := by have h := congrArg Life.startKind (State.log_life s e); exact h
@[simp] theorem State.log_life_now (e : LogEv) : (s.log e).life.now = s.life.now := by have h := congrArg Life.now (State.log_life s e); exact h
@[simp] theorem State.log_life_clock (e : LogEv) : (s.log e).life.clock = s.life.clock := by have h := congrArg Life.clock (State.log_life s e); exact h
@[simp] theorem State.log_life_bank (e : LogEv) : (s.log e).life.bank = s.life.bank := by have h := congrArg Life.bank (State.log_life s e); exact h
@[simp] theorem State.log_life_fwver (e : LogEv) : (s.log e).life.fwver = s.life.fwver := by have h := congrArg Life.fwver (State.log_life s e); exact h
@[simp] theorem State.log_life_usedFall (e : LogEv) : (s.log e).life.usedFall = s.life.usedFall := by have h := congrArg Life.usedFall (State.log_life s e); exact h
@[simp] theorem State.log_life_unlockedOnce (e : LogEv) : (s.log e).life.unlockedOnce = s.life.unlockedOnce := by have h := congrArg Life.unlockedOnce (State.log_life s e); exact h
@[simp] theorem State.log_life_tcxoOk (e : LogEv) : (s.log e).life.tcxoOk = s.life.tcxoOk := by have h := congrArg Life.tcxoOk (State.log_life s e); exact h
@[simp] theorem State.log_life_shepherdUp (e : LogEv) : (s.log e).life.shepherdUp = s.life.shepherdUp := by have h := congrArg Life.shepherdUp (State.log_life s e); exact h
@[simp] theorem State.log_life_measures (e : LogEv) : (s.log e).life.measures = s.life.measures := by have h := congrArg Life.measures (State.log_life s e); exact h
@[simp] theorem State.log_life_convFaults (e : LogEv) : (s.log e).life.convFaults = s.life.convFaults := by have h := congrArg Life.convFaults (State.log_life s e); exact h
@[simp] theorem State.log_life_trips (e : LogEv) : (s.log e).life.trips = s.life.trips := by have h := congrArg Life.trips (State.log_life s e); exact h
@[simp] theorem State.log_life_tripLatched (e : LogEv) : (s.log e).life.tripLatched = s.life.tripLatched := by have h := congrArg Life.tripLatched (State.log_life s e); exact h
@[simp] theorem State.log_life_retainOk (e : LogEv) : (s.log e).life.retainOk = s.life.retainOk := by have h := congrArg Life.retainOk (State.log_life s e); exact h

theorem State.trouble_frame (w b loc bunit ctx : Nat) (l : List Nat) : { s.trouble w b loc bunit ctx l with life := s.life, logs := s.logs, comms := s.comms, out := s.out } = s := by
  obtain ⟨c, d, lo, co, ou, h⟩ := trouble_parts s w b loc bunit ctx l
  rw [h]

theorem State.trouble_life (w b loc bunit ctx : Nat) (l : List Nat) : { (s.trouble w b loc bunit ctx l).life with commit := s.life.commit, storedStamp := s.life.storedStamp } = s.life := by
  obtain ⟨c, d, lo, co, ou, h⟩ := trouble_parts s w b loc bunit ctx l
  rw [h]

@[simp] theorem State.trouble_pending (w b loc bunit ctx : Nat) (l : List Nat) : (s.trouble w b loc bunit ctx l).pending = s.pending := by have h := congrArg State.pending (State.trouble_frame s w b loc bunit ctx l); exact h
@[simp] theorem State.trouble_supply (w b loc bunit ctx : Nat) (l : List Nat) : (s.trouble w b loc bunit ctx l).supply = s.supply := by have h := congrArg State.supply (State.trouble_frame s w b loc bunit ctx l); exact h
@[simp] theorem State.trouble_clks (w b loc bunit ctx : Nat) (l : List Nat) : (s.trouble w b loc bunit ctx l).clks = s.clks := by have h := congrArg State.clks (State.trouble_frame s w b loc bunit ctx l); exact h
@[simp] theorem State.trouble_doms (w b loc bunit ctx : Nat) (l : List Nat) : (s.trouble w b loc bunit ctx l).doms = s.doms := by have h := congrArg State.doms (State.trouble_frame s w b loc bunit ctx l); exact h
@[simp] theorem State.trouble_temps (w b loc bunit ctx : Nat) (l : List Nat) : (s.trouble w b loc bunit ctx l).temps = s.temps := by have h := congrArg State.temps (State.trouble_frame s w b loc bunit ctx l); exact h
@[simp] theorem State.trouble_excluded (w b loc bunit ctx : Nat) (l : List Nat) : (s.trouble w b loc bunit ctx l).excluded = s.excluded := by have h := congrArg State.excluded (State.trouble_frame s w b loc bunit ctx l); exact h
@[simp] theorem State.trouble_engines (w b loc bunit ctx : Nat) (l : List Nat) : (s.trouble w b loc bunit ctx l).engines = s.engines := by have h := congrArg State.engines (State.trouble_frame s w b loc bunit ctx l); exact h
@[simp] theorem State.trouble_cores (w b loc bunit ctx : Nat) (l : List Nat) : (s.trouble w b loc bunit ctx l).cores = s.cores := by have h := congrArg State.cores (State.trouble_frame s w b loc bunit ctx l); exact h
@[simp] theorem State.trouble_threads (w b loc bunit ctx : Nat) (l : List Nat) : (s.trouble w b loc bunit ctx l).threads = s.threads := by have h := congrArg State.threads (State.trouble_frame s w b loc bunit ctx l); exact h
@[simp] theorem State.trouble_rings (w b loc bunit ctx : Nat) (l : List Nat) : (s.trouble w b loc bunit ctx l).rings = s.rings := by have h := congrArg State.rings (State.trouble_frame s w b loc bunit ctx l); exact h
@[simp] theorem State.trouble_channels (w b loc bunit ctx : Nat) (l : List Nat) : (s.trouble w b loc bunit ctx l).channels = s.channels := by have h := congrArg State.channels (State.trouble_frame s w b loc bunit ctx l); exact h
@[simp] theorem State.trouble_sync (w b loc bunit ctx : Nat) (l : List Nat) : (s.trouble w b loc bunit ctx l).sync = s.sync := by have h := congrArg State.sync (State.trouble_frame s w b loc bunit ctx l); exact h
@[simp] theorem State.trouble_ctxs (w b loc bunit ctx : Nat) (l : List Nat) : (s.trouble w b loc bunit ctx l).ctxs = s.ctxs := by have h := congrArg State.ctxs (State.trouble_frame s w b loc bunit ctx l); exact h
@[simp] theorem State.trouble_watch (w b loc bunit ctx : Nat) (l : List Nat) : (s.trouble w b loc bunit ctx l).watch = s.watch := by have h := congrArg State.watch (State.trouble_frame s w b loc bunit ctx l); exact h
@[simp] theorem State.trouble_mem (w b loc bunit ctx : Nat) (l : List Nat) : (s.trouble w b loc bunit ctx l).mem = s.mem := by have h := congrArg State.mem (State.trouble_frame s w b loc bunit ctx l); exact h
@[simp] theorem State.trouble_hist (w b loc bunit ctx : Nat) (l : List Nat) : (s.trouble w b loc bunit ctx l).hist = s.hist := by have h := congrArg State.hist (State.trouble_frame s w b loc bunit ctx l); exact h
@[simp] theorem State.trouble_ing (w b loc bunit ctx : Nat) (l : List Nat) : (s.trouble w b loc bunit ctx l).ing = s.ing := by have h := congrArg State.ing (State.trouble_frame s w b loc bunit ctx l); exact h
@[simp] theorem State.trouble_img (w b loc bunit ctx : Nat) (l : List Nat) : (s.trouble w b loc bunit ctx l).img = s.img := by have h := congrArg State.img (State.trouble_frame s w b loc bunit ctx l); exact h
@[simp] theorem State.trouble_results (w b loc bunit ctx : Nat) (l : List Nat) : (s.trouble w b loc bunit ctx l).results = s.results := by have h := congrArg State.results (State.trouble_frame s w b loc bunit ctx l); exact h
@[simp] theorem State.trouble_io (w b loc bunit ctx : Nat) (l : List Nat) : (s.trouble w b loc bunit ctx l).io = s.io := by have h := congrArg State.io (State.trouble_frame s w b loc bunit ctx l); exact h
@[simp] theorem State.trouble_upk (w b loc bunit ctx : Nat) (l : List Nat) : (s.trouble w b loc bunit ctx l).upk = s.upk := by have h := congrArg State.upk (State.trouble_frame s w b loc bunit ctx l); exact h
@[simp] theorem State.trouble_store (w b loc bunit ctx : Nat) (l : List Nat) : (s.trouble w b loc bunit ctx l).store = s.store := by have h := congrArg State.store (State.trouble_frame s w b loc bunit ctx l); exact h
@[simp] theorem State.trouble_opt (w b loc bunit ctx : Nat) (l : List Nat) : (s.trouble w b loc bunit ctx l).opt = s.opt := by have h := congrArg State.opt (State.trouble_frame s w b loc bunit ctx l); exact h
@[simp] theorem State.trouble_trust (w b loc bunit ctx : Nat) (l : List Nat) : (s.trouble w b loc bunit ctx l).trust = s.trust := by have h := congrArg State.trust (State.trouble_frame s w b loc bunit ctx l); exact h
@[simp] theorem State.trouble_ckpt (w b loc bunit ctx : Nat) (l : List Nat) : (s.trouble w b loc bunit ctx l).ckpt = s.ckpt := by have h := congrArg State.ckpt (State.trouble_frame s w b loc bunit ctx l); exact h
@[simp] theorem State.trouble_kennel (w b loc bunit ctx : Nat) (l : List Nat) : (s.trouble w b loc bunit ctx l).kennel = s.kennel := by have h := congrArg State.kennel (State.trouble_frame s w b loc bunit ctx l); exact h
@[simp] theorem State.trouble_pack (w b loc bunit ctx : Nat) (l : List Nat) : (s.trouble w b loc bunit ctx l).pack = s.pack := by have h := congrArg State.pack (State.trouble_frame s w b loc bunit ctx l); exact h
@[simp] theorem State.trouble_draws (w b loc bunit ctx : Nat) (l : List Nat) : (s.trouble w b loc bunit ctx l).draws = s.draws := by have h := congrArg State.draws (State.trouble_frame s w b loc bunit ctx l); exact h
@[simp] theorem State.trouble_life_phase (w b loc bunit ctx : Nat) (l : List Nat) : (s.trouble w b loc bunit ctx l).life.phase = s.life.phase := by have h := congrArg Life.phase (State.trouble_life s w b loc bunit ctx l); exact h
@[simp] theorem State.trouble_life_cause (w b loc bunit ctx : Nat) (l : List Nat) : (s.trouble w b loc bunit ctx l).life.cause = s.life.cause := by have h := congrArg Life.cause (State.trouble_life s w b loc bunit ctx l); exact h
@[simp] theorem State.trouble_life_due (w b loc bunit ctx : Nat) (l : List Nat) : (s.trouble w b loc bunit ctx l).life.due = s.life.due := by have h := congrArg Life.due (State.trouble_life s w b loc bunit ctx l); exact h
@[simp] theorem State.trouble_life_poc (w b loc bunit ctx : Nat) (l : List Nat) : (s.trouble w b loc bunit ctx l).life.poc = s.life.poc := by have h := congrArg Life.poc (State.trouble_life s w b loc bunit ctx l); exact h
@[simp] theorem State.trouble_life_startKind (w b loc bunit ctx : Nat) (l : List Nat) : (s.trouble w b loc bunit ctx l).life.startKind = s.life.startKind := by have h := congrArg Life.startKind (State.trouble_life s w b loc bunit ctx l); exact h
@[simp] theorem State.trouble_life_now (w b loc bunit ctx : Nat) (l : List Nat) : (s.trouble w b loc bunit ctx l).life.now = s.life.now := by have h := congrArg Life.now (State.trouble_life s w b loc bunit ctx l); exact h
@[simp] theorem State.trouble_life_clock (w b loc bunit ctx : Nat) (l : List Nat) : (s.trouble w b loc bunit ctx l).life.clock = s.life.clock := by have h := congrArg Life.clock (State.trouble_life s w b loc bunit ctx l); exact h
@[simp] theorem State.trouble_life_bank (w b loc bunit ctx : Nat) (l : List Nat) : (s.trouble w b loc bunit ctx l).life.bank = s.life.bank := by have h := congrArg Life.bank (State.trouble_life s w b loc bunit ctx l); exact h
@[simp] theorem State.trouble_life_fwver (w b loc bunit ctx : Nat) (l : List Nat) : (s.trouble w b loc bunit ctx l).life.fwver = s.life.fwver := by have h := congrArg Life.fwver (State.trouble_life s w b loc bunit ctx l); exact h
@[simp] theorem State.trouble_life_usedFall (w b loc bunit ctx : Nat) (l : List Nat) : (s.trouble w b loc bunit ctx l).life.usedFall = s.life.usedFall := by have h := congrArg Life.usedFall (State.trouble_life s w b loc bunit ctx l); exact h
@[simp] theorem State.trouble_life_unlockedOnce (w b loc bunit ctx : Nat) (l : List Nat) : (s.trouble w b loc bunit ctx l).life.unlockedOnce = s.life.unlockedOnce := by have h := congrArg Life.unlockedOnce (State.trouble_life s w b loc bunit ctx l); exact h
@[simp] theorem State.trouble_life_tcxoOk (w b loc bunit ctx : Nat) (l : List Nat) : (s.trouble w b loc bunit ctx l).life.tcxoOk = s.life.tcxoOk := by have h := congrArg Life.tcxoOk (State.trouble_life s w b loc bunit ctx l); exact h
@[simp] theorem State.trouble_life_shepherdUp (w b loc bunit ctx : Nat) (l : List Nat) : (s.trouble w b loc bunit ctx l).life.shepherdUp = s.life.shepherdUp := by have h := congrArg Life.shepherdUp (State.trouble_life s w b loc bunit ctx l); exact h
@[simp] theorem State.trouble_life_measures (w b loc bunit ctx : Nat) (l : List Nat) : (s.trouble w b loc bunit ctx l).life.measures = s.life.measures := by have h := congrArg Life.measures (State.trouble_life s w b loc bunit ctx l); exact h
@[simp] theorem State.trouble_life_convFaults (w b loc bunit ctx : Nat) (l : List Nat) : (s.trouble w b loc bunit ctx l).life.convFaults = s.life.convFaults := by have h := congrArg Life.convFaults (State.trouble_life s w b loc bunit ctx l); exact h
@[simp] theorem State.trouble_life_trips (w b loc bunit ctx : Nat) (l : List Nat) : (s.trouble w b loc bunit ctx l).life.trips = s.life.trips := by have h := congrArg Life.trips (State.trouble_life s w b loc bunit ctx l); exact h
@[simp] theorem State.trouble_life_tripLatched (w b loc bunit ctx : Nat) (l : List Nat) : (s.trouble w b loc bunit ctx l).life.tripLatched = s.life.tripLatched := by have h := congrArg Life.tripLatched (State.trouble_life s w b loc bunit ctx l); exact h
@[simp] theorem State.trouble_life_retainOk (w b loc bunit ctx : Nat) (l : List Nat) : (s.trouble w b loc bunit ctx l).life.retainOk = s.life.retainOk := by have h := congrArg Life.retainOk (State.trouble_life s w b loc bunit ctx l); exact h

theorem State.raise_frame (w b bunit : Nat) : { s.raise w b bunit with life := s.life, logs := s.logs, comms := s.comms, out := s.out } = s := by
  obtain ⟨c, d, lo, co, ou, h⟩ := trouble_parts s w b 0 bunit 0xFF []
  unfold State.raise
  rw [h]

theorem State.raise_life (w b bunit : Nat) : { (s.raise w b bunit).life with commit := s.life.commit, storedStamp := s.life.storedStamp } = s.life := by
  obtain ⟨c, d, lo, co, ou, h⟩ := trouble_parts s w b 0 bunit 0xFF []
  unfold State.raise
  rw [h]

@[simp] theorem State.raise_pending (w b bunit : Nat) : (s.raise w b bunit).pending = s.pending := by have h := congrArg State.pending (State.raise_frame s w b bunit); exact h
@[simp] theorem State.raise_supply (w b bunit : Nat) : (s.raise w b bunit).supply = s.supply := by have h := congrArg State.supply (State.raise_frame s w b bunit); exact h
@[simp] theorem State.raise_clks (w b bunit : Nat) : (s.raise w b bunit).clks = s.clks := by have h := congrArg State.clks (State.raise_frame s w b bunit); exact h
@[simp] theorem State.raise_doms (w b bunit : Nat) : (s.raise w b bunit).doms = s.doms := by have h := congrArg State.doms (State.raise_frame s w b bunit); exact h
@[simp] theorem State.raise_temps (w b bunit : Nat) : (s.raise w b bunit).temps = s.temps := by have h := congrArg State.temps (State.raise_frame s w b bunit); exact h
@[simp] theorem State.raise_excluded (w b bunit : Nat) : (s.raise w b bunit).excluded = s.excluded := by have h := congrArg State.excluded (State.raise_frame s w b bunit); exact h
@[simp] theorem State.raise_engines (w b bunit : Nat) : (s.raise w b bunit).engines = s.engines := by have h := congrArg State.engines (State.raise_frame s w b bunit); exact h
@[simp] theorem State.raise_cores (w b bunit : Nat) : (s.raise w b bunit).cores = s.cores := by have h := congrArg State.cores (State.raise_frame s w b bunit); exact h
@[simp] theorem State.raise_threads (w b bunit : Nat) : (s.raise w b bunit).threads = s.threads := by have h := congrArg State.threads (State.raise_frame s w b bunit); exact h
@[simp] theorem State.raise_rings (w b bunit : Nat) : (s.raise w b bunit).rings = s.rings := by have h := congrArg State.rings (State.raise_frame s w b bunit); exact h
@[simp] theorem State.raise_channels (w b bunit : Nat) : (s.raise w b bunit).channels = s.channels := by have h := congrArg State.channels (State.raise_frame s w b bunit); exact h
@[simp] theorem State.raise_sync (w b bunit : Nat) : (s.raise w b bunit).sync = s.sync := by have h := congrArg State.sync (State.raise_frame s w b bunit); exact h
@[simp] theorem State.raise_ctxs (w b bunit : Nat) : (s.raise w b bunit).ctxs = s.ctxs := by have h := congrArg State.ctxs (State.raise_frame s w b bunit); exact h
@[simp] theorem State.raise_watch (w b bunit : Nat) : (s.raise w b bunit).watch = s.watch := by have h := congrArg State.watch (State.raise_frame s w b bunit); exact h
@[simp] theorem State.raise_mem (w b bunit : Nat) : (s.raise w b bunit).mem = s.mem := by have h := congrArg State.mem (State.raise_frame s w b bunit); exact h
@[simp] theorem State.raise_hist (w b bunit : Nat) : (s.raise w b bunit).hist = s.hist := by have h := congrArg State.hist (State.raise_frame s w b bunit); exact h
@[simp] theorem State.raise_ing (w b bunit : Nat) : (s.raise w b bunit).ing = s.ing := by have h := congrArg State.ing (State.raise_frame s w b bunit); exact h
@[simp] theorem State.raise_img (w b bunit : Nat) : (s.raise w b bunit).img = s.img := by have h := congrArg State.img (State.raise_frame s w b bunit); exact h
@[simp] theorem State.raise_results (w b bunit : Nat) : (s.raise w b bunit).results = s.results := by have h := congrArg State.results (State.raise_frame s w b bunit); exact h
@[simp] theorem State.raise_io (w b bunit : Nat) : (s.raise w b bunit).io = s.io := by have h := congrArg State.io (State.raise_frame s w b bunit); exact h
@[simp] theorem State.raise_upk (w b bunit : Nat) : (s.raise w b bunit).upk = s.upk := by have h := congrArg State.upk (State.raise_frame s w b bunit); exact h
@[simp] theorem State.raise_store (w b bunit : Nat) : (s.raise w b bunit).store = s.store := by have h := congrArg State.store (State.raise_frame s w b bunit); exact h
@[simp] theorem State.raise_opt (w b bunit : Nat) : (s.raise w b bunit).opt = s.opt := by have h := congrArg State.opt (State.raise_frame s w b bunit); exact h
@[simp] theorem State.raise_trust (w b bunit : Nat) : (s.raise w b bunit).trust = s.trust := by have h := congrArg State.trust (State.raise_frame s w b bunit); exact h
@[simp] theorem State.raise_ckpt (w b bunit : Nat) : (s.raise w b bunit).ckpt = s.ckpt := by have h := congrArg State.ckpt (State.raise_frame s w b bunit); exact h
@[simp] theorem State.raise_kennel (w b bunit : Nat) : (s.raise w b bunit).kennel = s.kennel := by have h := congrArg State.kennel (State.raise_frame s w b bunit); exact h
@[simp] theorem State.raise_pack (w b bunit : Nat) : (s.raise w b bunit).pack = s.pack := by have h := congrArg State.pack (State.raise_frame s w b bunit); exact h
@[simp] theorem State.raise_draws (w b bunit : Nat) : (s.raise w b bunit).draws = s.draws := by have h := congrArg State.draws (State.raise_frame s w b bunit); exact h
@[simp] theorem State.raise_life_phase (w b bunit : Nat) : (s.raise w b bunit).life.phase = s.life.phase := by have h := congrArg Life.phase (State.raise_life s w b bunit); exact h
@[simp] theorem State.raise_life_cause (w b bunit : Nat) : (s.raise w b bunit).life.cause = s.life.cause := by have h := congrArg Life.cause (State.raise_life s w b bunit); exact h
@[simp] theorem State.raise_life_due (w b bunit : Nat) : (s.raise w b bunit).life.due = s.life.due := by have h := congrArg Life.due (State.raise_life s w b bunit); exact h
@[simp] theorem State.raise_life_poc (w b bunit : Nat) : (s.raise w b bunit).life.poc = s.life.poc := by have h := congrArg Life.poc (State.raise_life s w b bunit); exact h
@[simp] theorem State.raise_life_startKind (w b bunit : Nat) : (s.raise w b bunit).life.startKind = s.life.startKind := by have h := congrArg Life.startKind (State.raise_life s w b bunit); exact h
@[simp] theorem State.raise_life_now (w b bunit : Nat) : (s.raise w b bunit).life.now = s.life.now := by have h := congrArg Life.now (State.raise_life s w b bunit); exact h
@[simp] theorem State.raise_life_clock (w b bunit : Nat) : (s.raise w b bunit).life.clock = s.life.clock := by have h := congrArg Life.clock (State.raise_life s w b bunit); exact h
@[simp] theorem State.raise_life_bank (w b bunit : Nat) : (s.raise w b bunit).life.bank = s.life.bank := by have h := congrArg Life.bank (State.raise_life s w b bunit); exact h
@[simp] theorem State.raise_life_fwver (w b bunit : Nat) : (s.raise w b bunit).life.fwver = s.life.fwver := by have h := congrArg Life.fwver (State.raise_life s w b bunit); exact h
@[simp] theorem State.raise_life_usedFall (w b bunit : Nat) : (s.raise w b bunit).life.usedFall = s.life.usedFall := by have h := congrArg Life.usedFall (State.raise_life s w b bunit); exact h
@[simp] theorem State.raise_life_unlockedOnce (w b bunit : Nat) : (s.raise w b bunit).life.unlockedOnce = s.life.unlockedOnce := by have h := congrArg Life.unlockedOnce (State.raise_life s w b bunit); exact h
@[simp] theorem State.raise_life_tcxoOk (w b bunit : Nat) : (s.raise w b bunit).life.tcxoOk = s.life.tcxoOk := by have h := congrArg Life.tcxoOk (State.raise_life s w b bunit); exact h
@[simp] theorem State.raise_life_shepherdUp (w b bunit : Nat) : (s.raise w b bunit).life.shepherdUp = s.life.shepherdUp := by have h := congrArg Life.shepherdUp (State.raise_life s w b bunit); exact h
@[simp] theorem State.raise_life_measures (w b bunit : Nat) : (s.raise w b bunit).life.measures = s.life.measures := by have h := congrArg Life.measures (State.raise_life s w b bunit); exact h
@[simp] theorem State.raise_life_convFaults (w b bunit : Nat) : (s.raise w b bunit).life.convFaults = s.life.convFaults := by have h := congrArg Life.convFaults (State.raise_life s w b bunit); exact h
@[simp] theorem State.raise_life_trips (w b bunit : Nat) : (s.raise w b bunit).life.trips = s.life.trips := by have h := congrArg Life.trips (State.raise_life s w b bunit); exact h
@[simp] theorem State.raise_life_tripLatched (w b bunit : Nat) : (s.raise w b bunit).life.tripLatched = s.life.tripLatched := by have h := congrArg Life.tripLatched (State.raise_life s w b bunit); exact h
@[simp] theorem State.raise_life_retainOk (w b bunit : Nat) : (s.raise w b bunit).life.retainOk = s.life.retainOk := by have h := congrArg Life.retainOk (State.raise_life s w b bunit); exact h

@[simp] theorem State.raise_word (w b bunit v k : Nat) (hw : w < 3) (hb : b < 32) (hv : v < 3) :
    ((s.raise w b bunit).logs.word v).getLsbD k = ((s.logs.word v).getLsbD k || decide (v = w ∧ k = b)) := by
  obtain ⟨c, d, lo, co, ou, h, hl⟩ := raise_eq s w b bunit hw hb
  rw [h]
  exact hl v k hv

@[simp] theorem State.trouble_word (w b loc bunit ctx v k : Nat) (l : List Nat) (hw : w < 3) (hb : b < 32) (hv : v < 3) :
    ((s.trouble w b loc bunit ctx l).logs.word v).getLsbD k = ((s.logs.word v).getLsbD k || decide (v = w ∧ k = b)) := by
  obtain ⟨c, d, lo, co, ou, h, hl⟩ := trouble_eq s w b loc bunit ctx l hw hb
  rw [h]
  exact hl v k hv

@[simp] theorem State.log_word (e : LogEv) (v : Nat) : (s.log e).logs.word v = s.logs.word v := by
  obtain ⟨c, d, lo, h, hl⟩ := log_eq s e
  rw [h]
  exact hl v

end Sys2Proof.Machine
end

