-- ==== Sys2Proof/Laws/Memory.lean ====
section
/-! SUPPORT. Every memory operation keeps the canonical form; what a byte reads after a write. -/

namespace Sys2Proof.Machine

open Sys2Proof

theorem Memory.wf_iff (m : Memory) : m.wf = true ↔ ∀ sp, Tab.wf 0 (m.tab sp) = true := by
  unfold Memory.wf
  simp only [Bool.and_eq_true]
  constructor
  · rintro ⟨⟨⟨⟨h1, h2⟩, h3⟩, h4⟩, h5⟩ sp
    cases sp <;> assumption
  · intro h
    exact ⟨⟨⟨⟨h .engine, h .core⟩, h .cluster⟩, h .base⟩, h .board⟩

@[simp] theorem Memory.tab_setTab (m : Memory) (sp sq : Space) (t : Tab Byte) :
    (m.setTab sp t).tab sq = if sp = sq then t else m.tab sq := by
  cases sp <;> cases sq <;> rfl

theorem Memory.wf_setTab (m : Memory) (sp : Space) (t : Tab Byte) (h : m.wf = true) (ht : Tab.wf 0 t = true) : (m.setTab sp t).wf = true := by
  rw [Memory.wf_iff] at h ⊢
  intro sq
  rw [Memory.tab_setTab]
  split
  · exact ht
  · exact h sq

theorem Memory.wf_freshen (m : Memory) (sp : Space) (a : Nat) (h : m.wf = true) : (m.freshen sp a).wf = true := by
  rw [Memory.wf_iff] at h ⊢
  intro sq
  unfold Memory.freshen
  split
  · cases sq
    · exact h .engine
    · exact h .core
    · exact h .cluster
    · exact h .base
    · exact Tab.wf_filter _ _ (h .board)
  · split
    · cases sq <;> [exact h .engine; exact h .core; exact h .cluster; exact h .base; exact h .board]
    · exact h sq

theorem Memory.wf_write (m : Memory) (sp : Space) (a : Nat) (b : Byte) (h : m.wf = true) : (m.write sp a b).wf = true := by
  have h1 := Memory.wf_freshen m sp a h
  exact Memory.wf_setTab _ _ _ h1 (Tab.wf_set _ _ _ ((Memory.wf_iff _).1 h1 sp))

theorem Memory.wf_writes (m : Memory) (sp : Space) (a : Nat) (bs : List Byte) (h : m.wf = true) : (m.writes sp a bs).wf = true := by
  induction bs generalizing m a with
  | nil => exact h
  | cons b bs ih => exact ih _ _ (Memory.wf_write _ _ _ _ h)

theorem Memory.wf_setPoison (m : Memory) (sp : Space) (a : Nat) (p : Bool) : (m.setPoison sp a p).wf = m.wf := rfl

/-- A fold over a list keeps the canonical form where each step does. -/
theorem Memory.wf_foldl {β : Type} (f : Memory → β → Memory) (hf : ∀ m x, m.wf = true → (f m x).wf = true) (l : List β) (m : Memory)
    (h : m.wf = true) : (l.foldl f m).wf = true := by
  induction l generalizing m with
  | nil => exact h
  | cons x xs ih => exact ih _ (hf _ _ h)

theorem Memory.wf_marks (m : Memory) (sp : Space) (a n : Nat) (p : Bool) (h : m.wf = true) : (m.marks sp a n p).wf = true := by
  unfold Memory.marks
  split
  · exact h
  · refine Memory.wf_foldl _ (fun m x hm => ?_) _ _ h
    dsimp only
    split
    · exact hm
    · split
      · exact hm
      · exact hm

theorem Memory.wf_unlist (m : Memory) (sp : Space) (a n : Nat) (h : m.wf = true) : (m.unlist sp a n).wf = true := by
  unfold Memory.unlist
  split <;> exact h

/-- A store keeps the canonical form. -/
theorem Memory.wf_store (m : Memory) (sp : Space) (a : Nat) (bs : List Byte) (p : Bool) (h : m.wf = true) : (m.store sp a bs p).wf = true :=
  Memory.wf_unlist _ _ _ _ (Memory.wf_marks _ _ _ _ _ (Memory.wf_writes _ _ _ _ h))

/-- A zero fill keeps the canonical form. -/
theorem Memory.wf_zeroFill (m : Memory) (sp : Space) (a n : Nat) (h : m.wf = true) : (m.zeroFill sp a n).wf = true := by
  unfold Memory.zeroFill
  split
  · exact h
  · dsimp only
    refine Memory.wf_unlist _ _ _ _ ?_
    have h1 : ∀ (u : Memory) (t : Tab Bool), u.wf = true → ({ u with poison := t } : Memory).wf = true := fun u t hu => hu
    refine h1 _ _ ?_
    have h2 : (if sp = .board then
        (List.range ((a + n - 1) / 4096 + 1 - a / 4096)).foldl (fun m i => m.freshen sp ((a / 4096 + i) * 4096)) m
      else { m with vacant := m.vacant.filter (fun e =>
        decide (e.1 % 5 ≠ sp.idx) || decide (e.1 / 5 < a / 64) || decide ((a + n - 1) / 64 < e.1 / 5)) }).wf = true := by
      split
      · exact Memory.wf_foldl _ (fun m x hm => Memory.wf_freshen _ _ _ hm) _ _ h
      · exact h
    exact Memory.wf_setTab _ _ _ h2 (Tab.wf_filter _ _ ((Memory.wf_iff _).1 h2 sp))

theorem Memory.wf_cleanPage (m : Memory) (page : Nat) : (m.cleanPage page).wf = m.wf := rfl

theorem Memory.wf_cold (m : Memory) : m.cold.wf = true := rfl

theorem Memory.wf_warm (m : Memory) (h : m.wf = true) : m.warm.wf = true := by
  rw [Memory.wf_iff] at h
  rw [Memory.wf_iff]
  intro sp
  cases sp <;> first | rfl | exact h .board

/-- A byte after one write. -/
theorem Memory.read_write (m : Memory) (sp sq : Space) (a x : Nat) (b : Byte) :
    (m.write sp a b).read sq x = if sp = sq ∧ a = x then b else m.read sq x := by
  unfold Memory.write Memory.read Memory.clear
  dsimp only
  by_cases hsp : sp = sq
  · subst hsp
    by_cases hb : sp = .board
    · subst hb
      by_cases hc : m.clear (a / 4096) = true
      · have hf : m.freshen .board a = { m with
            board := m.board.filter (fun e => decide (e.1 / 4096 ≠ a / 4096))
            poison := m.poison.filter (fun e => !(decide (e.1 % 5 = 4) && decide (e.1 / 5 / 256 = a / 4096)))
            invalid := Tab.set false m.invalid (a / 4096) false } := by
          unfold Memory.freshen
          rw [if_pos ⟨rfl, hc⟩]
        rw [hf]
        show (if Space.board = Space.board ∧ Tab.get false (Tab.set false m.invalid (a / 4096) false) (x / 4096) = true then (0 : Byte)
          else Tab.get 0 (Tab.set 0 (m.board.filter (fun e => decide (e.1 / 4096 ≠ a / 4096))) a b) x) = _
        rw [Tab.get_set, Tab.get_set, Tab.get_filter (fun k => decide (k / 4096 ≠ a / 4096))]
        unfold Memory.clear at hc
        by_cases hx : a = x
        · subst hx
          simp
        · by_cases hq : a / 4096 = x / 4096
          · rw [hq] at hc
            simp [hx, hq, hc]
          · have hq' : ¬ x / 4096 = a / 4096 := fun h => hq h.symm
            simp [hx, hq, hq']
            rfl
      · have hf : m.freshen .board a = m := by
          unfold Memory.freshen
          rw [if_neg (fun h => hc h.2)]
          simp
        rw [hf]
        show (if Space.board = Space.board ∧ Tab.get false m.invalid (x / 4096) = true then (0 : Byte) else Tab.get 0 (Tab.set 0 m.board a b) x) = _
        rw [Tab.get_set]
        unfold Memory.clear at hc
        by_cases hx : a = x
        · subst hx
          simp [hc]
        · simp [hx]
          rfl
    · have hf : (m.freshen sp a).tab sp = m.tab sp ∧ (m.freshen sp a).invalid = m.invalid := by
        unfold Memory.freshen
        rw [if_neg (fun h => hb h.1), if_pos (by simpa using hb)]
        exact ⟨by cases sp <;> rfl, rfl⟩
      simp [Tab.get_set, hf.1, hb]
  · have hf : sq ≠ .board ∨ sp ≠ .board := by
      by_cases h : sq = .board
      · exact .inr (fun h2 => hsp (h2.trans h.symm))
      · exact .inl h
    have ht : (m.freshen sp a).tab sq = m.tab sq ∧ (sq = .board → (m.freshen sp a).invalid = m.invalid) := by
      unfold Memory.freshen
      split
      · next h =>
        refine ⟨?_, fun hq => absurd (h.1.trans hq.symm) hsp⟩
        cases sq <;> first | rfl | exact absurd h.1 hsp
      · split
        · exact ⟨by cases sq <;> rfl, fun _ => rfl⟩
        · exact ⟨rfl, fun _ => rfl⟩
    rw [Memory.tab_setTab, if_neg hsp, ht.1]
    have hi : (((m.freshen sp a).setTab sp (Tab.set 0 ((m.freshen sp a).tab sp) a b))).invalid = (m.freshen sp a).invalid := by
      cases sp <;> rfl
    rw [hi]
    by_cases hq : sq = .board
    · rw [ht.2 hq]
      simp [hsp]
    · simp [hsp, hq]

@[simp] theorem Memory.read_setPoison (m : Memory) (sp sq : Space) (a x : Nat) (p : Bool) : (m.setPoison sp a p).read sq x = m.read sq x := by
  cases sq <;> rfl

@[simp] theorem Memory.read_unlist (m : Memory) (sp sq : Space) (a n x : Nat) : (m.unlist sp a n).read sq x = m.read sq x := by
  unfold Memory.unlist
  split
  · cases sq <;> rfl
  · rfl

@[simp] theorem Memory.read_marks (m : Memory) (sp sq : Space) (a n x : Nat) (p : Bool) : (m.marks sp a n p).read sq x = m.read sq x := by
  unfold Memory.marks
  split
  · rfl
  · dsimp only
    generalize List.range _ = l
    induction l generalizing m with
    | nil => rfl
    | cons i is ih =>
      rw [List.foldl_cons, ih]
      split
      · simp
      · split <;> simp

/-- Bytes of SRAM after a zero fill: zeros inside, as before outside and in every other memory. -/
theorem Memory.read_zeroFill (m : Memory) (sp sq : Space) (a n x : Nat) (hs : sp ≠ .board) :
    (m.zeroFill sp a n).read sq x = if sp = sq ∧ a ≤ x ∧ x < a + n then 0 else m.read sq x := by
  unfold Memory.zeroFill
  split
  · next h => rw [if_neg (by omega)]
  · dsimp only
    rw [Memory.read_unlist]
    have h1 : ∀ (u : Memory) (t : Tab Bool), ({ u with poison := t } : Memory).read sq x = u.read sq x := by
      intro u t
      cases sq <;> rfl
    rw [h1]
    generalize m.vacant.filter _ = v
    have hget : ∀ t : Tab Byte, Tab.get 0 (t.filter (fun e => decide (e.1 < a) || decide (a + n ≤ e.1))) x
        = if a ≤ x ∧ x < a + n then 0 else Tab.get 0 t x := by
      intro t
      rw [Tab.get_filter (fun k => decide (k < a) || decide (a + n ≤ k))]
      by_cases h : a ≤ x ∧ x < a + n
      · rw [if_pos h, if_neg]
        simp
        omega
      · rw [if_neg h, if_pos]
        simp
        omega
    cases sp <;> cases sq <;> first | exact absurd rfl hs | (unfold Memory.read; simp only [reduceCtorEq, false_and, if_false, true_and]; exact hget _) | rfl

end Sys2Proof.Machine
end

