-- ==== Sys2Proof/Laws/PackPorts.lean ====
section
/-! SUPPORT. What sending and receiving on the pack ports can do, said once: it changes ports and what leaves the module. -/

namespace Sys2Proof.Machine

open Sys2Proof

theorem onPorts_refl (s : State) : OnPorts s s := ⟨rfl, [], by simp⟩

theorem onPorts_trans {s t u : State} (h : OnPorts s t) (g : OnPorts t u) : OnPorts s u := by
  obtain ⟨h1, m1, h2⟩ := h
  obtain ⟨g1, m2, g2⟩ := g
  refine ⟨?_, m1 ++ m2, by rw [g2, h2, List.append_assoc]⟩
  rw [← g1] at h1
  exact h1

theorem onPort_refl (s : State) (p : Nat) : OnPort s s p := ⟨onPorts_refl s, fun _ _ => rfl⟩

theorem onPort_trans {s t u : State} {p : Nat} (h : OnPort s t p) (g : OnPort t u p) : OnPort s u p :=
  ⟨onPorts_trans h.1 g.1, fun q hq => (g.2 q hq).trans (h.2 q hq)⟩

theorem updPort_onPort (s : State) (p : Nat) (f : PackPort → PackPort) : OnPort s (s.updPort p f) p :=
  ⟨⟨rfl, [], by simp⟩, fun _ hq => Tab.get_upd_ne _ _ _ _ hq.symm⟩

theorem emit_onPort (s : State) (p : Nat) (o : Out) : OnPort s (s.emit o) p := ⟨⟨rfl, [o], rfl⟩, fun _ _ => rfl⟩

theorem startFrame_onPort (s : State) (p : Nat) (h : PackHdr) (b : PackBody) : OnPort s (s.startFrame p h b) p :=
  onPort_trans (updPort_onPort s p _) (emit_onPort _ p _)

theorem drainPort_onPort (n p : Nat) (s : State) : OnPort s (s.drainPort p n) p := by
  induction n generalizing s with
  | zero => exact onPort_refl s p
  | succ n ih =>
    simp only [State.drainPort]
    split
    · exact onPort_refl s p
    · split
      · exact onPort_refl s p
      · exact onPort_trans (onPort_trans (updPort_onPort s p _) (startFrame_onPort _ p _ _)) (ih _)

theorem sendFrames_onPort (s : State) (p : Nat) (hs : List PackHdr) (b : PackBody) : OnPort s (s.sendFrames p hs b) p :=
  onPort_trans (updPort_onPort s p _) (drainPort_onPort _ p _)

theorem sendOn_onPort (s : State) (p : Nat) (h : PackHdr) (b : PackBody) : OnPort s (s.sendOn p h b) p := by
  unfold State.sendOn
  split
  · exact emit_onPort s p _
  · exact sendFrames_onPort s p _ b

theorem takeAck_onPort (s : State) (p ack : Nat) : OnPort s (s.takeAck p ack) p :=
  onPort_trans (updPort_onPort s p _) (drainPort_onPort _ p _)

theorem packSend_onPorts (s : State) (dst ctx : Nat) (b : PackBody) : OnPorts s (s.packSend dst ctx b) := by
  unfold State.packSend
  split
  · exact (sendOn_onPort s _ _ _).1
  · exact (updPort_onPort s 0 _).1

theorem packSendP_onPorts (s : State) (dst ctx : Nat) (poison : Bool) (b : PackBody) : OnPorts s (s.packSendP dst ctx poison b) := by
  unfold State.packSendP
  split
  · exact (sendOn_onPort s _ _ _).1
  · exact (updPort_onPort s 0 _).1

theorem each_onPorts (f : State → Nat → State) (hf : ∀ s n, OnPorts s (f s n)) (l : List Nat) (s : State) : OnPorts s (s.each l f) := by
  induction l generalizing s with
  | nil => exact onPorts_refl s
  | cons n ns ih => exact onPorts_trans (hf s n) (ih _)

theorem floodFrom_onPorts (s : State) (e : Option Nat) (h : PackHdr) (b : PackBody) : OnPorts s (s.floodFrom e h b) :=
  each_onPorts _ (fun s n => (sendOn_onPort s n h b).1) _ s

theorem flood_onPorts (s : State) (c : Nat) (b : PackBody) : OnPorts s (s.flood c b) := floodFrom_onPorts s _ _ _

theorem sendHello_onPort (s : State) (p : Nat) : OnPort s (s.sendHello p) p :=
  onPort_trans (updPort_onPort s p _) (sendOn_onPort _ p _ _)

/-- The state after a frame, taken or not. -/
def Recv.after : Recv → State
  | .drop t => t
  | .take t => t

/-- Receiving a frame changes ports and what leaves the module, whether the frame is taken or not. -/
theorem recv_onPorts (s : State) (p : Nat) (h : PackHdr) (b : PackBody) :
    OnPorts s (s.recv p h b).after := by
  have h2 : OnPorts s ((s.takeAck p h.ack).updPort p (fun q => { q with rxSeq := (q.rxSeq + 1) % 65536, owed := Tab.upd 0 q.owed b.cls (· + frameCost h.len) })) :=
    onPorts_trans (takeAck_onPort s p h.ack).1 (updPort_onPort _ p _).1
  have h3 : ∀ x : State, OnPorts s x → OnPorts s (if x.route h.src = some p ∨ x.route h.src = none then
      (if h.hops + 1 < 15 then x.floodFrom (some p) { h with hops := h.hops + 1 } b
       else x.updPort p (fun q => { q with dropped := q.dropped + 1 })) else x) := by
    intro x hx
    split
    · split
      · exact onPorts_trans hx (floodFrom_onPorts _ _ _ _)
      · exact onPorts_trans hx (updPort_onPort _ p _).1
    · exact hx
  unfold State.recv
  dsimp only
  revert h2
  generalize (s.takeAck p h.ack).updPort p (fun q => { q with rxSeq := (q.rxSeq + 1) % 65536, owed := Tab.upd 0 q.owed b.cls (· + frameCost h.len) }) = s1
  intro h2
  split
  · exact onPorts_refl s
  split
  · exact (updPort_onPort s p _).1
  split
  · exact (sendOn_onPort s p _ _).1
  split
  · split
    · exact h2
    · exact h3 _ h2
  split
  · exact h2
  split
  · exact onPorts_trans h2 (updPort_onPort _ p _).1
  split
  · exact onPorts_trans h2 (sendFrames_onPort s1 _ _ b).1
  · exact onPorts_trans h2 (updPort_onPort _ p _).1

theorem recv_take_onPorts {s t : State} {p : Nat} {h : PackHdr} {b : PackBody} (e : s.recv p h b = .take t) : OnPorts s t := by
  have := recv_onPorts s p h b
  rw [e] at this
  exact this

theorem recv_drop_onPorts {s t : State} {p : Nat} {h : PackHdr} {b : PackBody} (e : s.recv p h b = .drop t) : OnPorts s t := by
  have := recv_onPorts s p h b
  rw [e] at this
  exact this

end Sys2Proof.Machine
end

