-- ==== Sys2Proof/Laws/Power.lean ====
section
/-! SUPPORT. What the changes of feed and the last gasp do, said once. -/

namespace Sys2Proof.Machine

open Sys2Proof

theorem switchTo_eq (s : State) (f : FeedId) (g : Supply → Supply) :
    ∃ cu rt, s.switchTo f g = { s with supply := { g { s.supply with active := some f } with cutting := cu, returnTimer := rt } } := by
  unfold State.switchTo State.cutFrom
  dsimp only
  split
  · exact ⟨_, _, rfl⟩
  · exact ⟨(g { s.supply with active := some f }).cutting, _, rfl⟩

theorem switchTo_raise_eq (s : State) (n : Nat) : ∃ c d lo co ou cu rt,
    (s.switchTo .backup (fun x => { x with returnNeed := n })).raise 0 1 12 = { s with
      supply := { s.supply with active := some .backup, cutting := cu, returnTimer := rt, returnNeed := n }
      life := { s.life with commit := c, storedStamp := d }, logs := lo, comms := co, out := s.out ++ ou }
      ∧ ∀ v k, v < 3 → (lo.word v).getLsbD k = ((s.logs.word v).getLsbD k || decide (v = 0 ∧ k = 1)) := by
  obtain ⟨cu, rt, h⟩ := switchTo_eq s .backup (fun x => { x with returnNeed := n })
  rw [h]
  obtain ⟨c, d, lo, co, ou, e, hl⟩ := raise_eq { s with supply := { s.supply with
    active := some .backup, cutting := cu, returnTimer := rt, returnNeed := n } } 0 1 12 (by decide) (by decide)
  exact ⟨c, d, lo, co, ou, cu, rt, e, hl⟩

/-- A transfer: the backup feed is in use, TRANSFER is set. -/
theorem transfer_eq (s : State) : ∃ c d lo co ou cu rt rn,
    s.transfer = { s with
      supply := { s.supply with active := some .backup, cutting := cu, returnTimer := rt, returnNeed := rn }
      life := { s.life with commit := c, storedStamp := d }, logs := lo, comms := co, out := s.out ++ ou }
      ∧ ∀ v k, v < 3 → (lo.word v).getLsbD k = ((s.logs.word v).getLsbD k || decide (v = 0 ∧ k = 1)) := by
  unfold State.transfer
  dsimp only
  obtain ⟨c, d, lo, co, ou, cu, rt, h⟩ := switchTo_raise_eq s _
  exact ⟨c, d, lo, co, ou, cu, rt, _, h⟩

/-- A return: the main feed is in use. -/
theorem backToMain_eq (s : State) : ∃ c d lo cu rt,
    s.backToMain = { s with
      supply := { s.supply with active := some .main, lastReturn := some s.life.now, cutting := cu, returnTimer := rt }
      life := { s.life with commit := c, storedStamp := d }, logs := lo } ∧ ∀ v, lo.word v = s.logs.word v := by
  unfold State.backToMain
  obtain ⟨cu, rt, h⟩ := switchTo_eq s .main (fun x => { x with lastReturn := some s.life.now })
  rw [h]
  obtain ⟨c, d, lo, e, hl⟩ := log_eq { s with supply := { s.supply with
    active := some .main, lastReturn := some s.life.now, cutting := cu, returnTimer := rt } } { code := 0x0001, bunit := 12 }
  exact ⟨c, d, lo, cu, rt, e, hl⟩

/-- The last-gasp actions leave these parts and no others as they were, but for the numbers of life, log and checkpoint. -/
theorem gaspActions_eq (s : State) : ∃ c d st ns gk,
    s.gaspActions = { s.gateAll with
      life := { s.life with commit := c, storedStamp := d }
      logs := { s.logs with gasp := st, nextLseq := ns }
      ckpt := { s.ckpt with gasp := gk } } :=
  ⟨_, _, _, _, _, rfl⟩

/-- A last gasp begins. -/
theorem lastGasp_eq (s : State) : ∃ c d st ns gk,
    s.lastGasp = { s.gateAll with
      life := { s.life with commit := c, storedStamp := d, phase := .lastGasp, due := none, cause := .none }
      logs := { s.logs with gasp := st, nextLseq := ns }
      ckpt := { s.ckpt with gasp := gk } } := by
  unfold State.lastGasp
  split
  · exact ⟨s.life.commit, s.life.storedStamp, s.logs.gasp, s.logs.nextLseq, s.ckpt.gasp, rfl⟩
  · exact ⟨_, _, _, _, _, rfl⟩

end Sys2Proof.Machine
end

