-- ==== Sys2Proof/Laws/Session.lean ====
section
/-! SUPPORT. What the execution of a session's command does, said once: the reply, the state that the command's own rules leave,
the other sessions. -/

namespace Sys2Proof.Machine

open Sys2Proof

/-- `t` differs from `u` in session `sid` and in what has left the module since `l` only. -/
def OwnOnly (sid : Nat) (l : List Out) (u t : State) : Prop :=
  (∃ more, t.out = l ++ more) ∧ { t with comms := u.comms, out := u.out } = u ∧ { t.comms with sessions := u.comms.sessions } = u.comms
    ∧ ∀ n, n ≠ sid → t.sess n = u.sess n

theorem ownOnly_refl (sid : Nat) (l more : List Out) (s : State) (h : s.out = l ++ more) : OwnOnly sid l s s := ⟨⟨more, h⟩, rfl, rfl, fun _ _ => rfl⟩

theorem ownOnly_updSess {sid : Nat} {l : List Out} {s t : State} (f : Session → Session) (h : OwnOnly sid l s t) :
    OwnOnly sid l s (t.updSess sid f) := by
  obtain ⟨h1, h2, h3, h4⟩ := h
  refine ⟨h1, h2, h3, fun n hn => ?_⟩
  rw [State.updSess_sess_ne _ _ _ _ (Ne.symm hn), h4 n hn]

theorem ownOnly_setSess {sid : Nat} {l : List Out} {s t : State} (v : Option Session) (h : OwnOnly sid l s t) :
    OwnOnly sid l s (t.setSess sid v) := by
  obtain ⟨h1, h2, h3, h4⟩ := h
  refine ⟨h1, h2, h3, fun n hn => ?_⟩
  rw [State.setSess_sess_ne _ _ _ _ (Ne.symm hn), h4 n hn]

theorem ownOnly_emit {sid : Nat} {l : List Out} {s t : State} (o : Out) (h : OwnOnly sid l s t) : OwnOnly sid l s (t.emit o) := by
  obtain ⟨⟨m, h1⟩, h2, h3, h4⟩ := h
  exact ⟨⟨m ++ [o], by rw [State.emit_out_eq, h1, List.append_assoc]⟩, h2, h3, h4⟩

theorem ownOnly_answer {sid : Nat} {l : List Out} {s t : State} (r : Reply) (h : OwnOnly sid l s t) : OwnOnly sid l s (t.answer sid r) := by
  unfold State.answer State.sendReply
  refine ownOnly_updSess _ ?_
  split
  · exact h
  · exact ownOnly_setSess _ (ownOnly_emit _ h)

theorem ownOnly_drainBad {sid : Nat} {l : List Out} {s t : State} (n : Nat) (h : OwnOnly sid l s t) : OwnOnly sid l s (t.drainBad sid n) := by
  induction n generalizing t with
  | zero => exact h
  | succ n ih =>
    unfold State.drainBad
    split
    · exact h
    · split
      · exact ih (ownOnly_answer _ (ownOnly_updSess _ h))
      · exact h

theorem headOf_asks {s : State} {op sid : Nat} {x : Session} {p : Packet} (h : Asks s op sid x p) : s.headOf op sid = some (x, p) := by
  obtain ⟨h1, h2, h3, h4, -⟩ := h
  unfold State.headOf
  simp [h1, h2, h3, h4]

/-- The state in which a command's own rules are asked. -/
def State.inHand (s : State) (sid : Nat) (p : Packet) : State :=
  (s.popCmd sid p).updSess sid (fun y => { y with txNext := y.txNext + 1 })

/-- A command that is answered with a value of the present state. -/
theorem runCmd_read {s : State} {op sid : Nat} {x : Session} {p : Packet} (wr : Bool) (f : State → Packet → CmdOut) (vs : List (List Byte))
    (h : Asks s op sid x p) (hf : f (s.inHand sid p) p = .read vs)
    (hw : wr = true → f (((s.popCmd sid p).commit).updSess sid (fun y => { y with txNext := y.txNext + 1 })) p = .read vs) :
    ReadDone s (s.runCmd op wr sid f) sid x p vs := by
  have ho : OwnOnly sid (s.out ++ [.reply sid x.txNext (s.outPort x) (replyOf p .ok 0 (tlvsFrom 1 vs) s.life.commit)]) s
      ((((s.popCmd sid p).replyAt (s.inHand sid p) sid x.txNext (s.outPort x)
        (replyOf p .ok 0 (tlvsFrom 1 vs) s.life.commit)).drainBad sid 16)) := by
    refine ownOnly_drainBad _ ?_
    unfold State.replyAt
    refine ownOnly_updSess _ ?_
    refine ⟨⟨_, rfl⟩, rfl, rfl, fun n hn => ?_⟩
    show Tab.get none _ n = Tab.get none _ n
    have e1 := State.updSess_sess_ne (s.popCmd sid p) sid (fun y => { y with txNext := y.txNext + 1 }) n (Ne.symm hn)
    have e2 := State.updSess_sess_ne s sid (fun x => { x with ring := x.ring.filter (fun q => q.seq != p.seq), nextSeq := (x.nextSeq + 1) % 2 ^ 32 }) n (Ne.symm hn)
    exact e1.trans e2
  have he : s.runCmd op wr sid f = ((s.popCmd sid p).replyAt (s.inHand sid p) sid x.txNext (s.outPort x)
        (replyOf p .ok 0 (tlvsFrom 1 vs) s.life.commit)).drainBad sid 16 := by
    unfold State.runCmd
    rw [headOf_asks h]
    dsimp only
    rw [h.2.2.2.2]
    dsimp only
    cases wr with
    | false =>
      have hf2 : f ((s.popCmd sid p).updSess sid (fun y => { y with txNext := y.txNext + 1 })) p = .read vs := hf
      simp only [Bool.false_eq_true, if_false, hf2]
      rfl
    | true =>
      simp only [if_true, hw rfl]
      rfl
  rw [he]
  obtain ⟨⟨m, h1⟩, h2, h3, h4⟩ := ho
  exact ⟨⟨m, by rw [h1, List.append_assoc]; rfl⟩, h2, h4⟩

/-- A command that its own rules refuse. -/
theorem runCmd_refused {s : State} {op sid : Nat} {x : Session} {p : Packet} (wr : Bool) (f : State → Packet → CmdOut) (st : Status) (d : Nat)
    (h : Asks s op sid x p) (hs : ¬ st.code < 0x10) (hf : f (s.inHand sid p) p = { st := st, detail := d })
    (hw : wr = true → (f (((s.popCmd sid p).commit).updSess sid (fun y => { y with txNext := y.txNext + 1 })) p).st = st) :
    Refused s (s.runCmd op wr sid f) sid x p st d := by
  have ho : OwnOnly sid (s.out ++ [.reply sid x.txNext (s.outPort x) (replyOf p st d [] s.life.commit)]) s
      ((((s.popCmd sid p).replyAt (s.inHand sid p) sid x.txNext (s.outPort x)
        (replyOf p st d [] s.life.commit)).drainBad sid 16)) := by
    refine ownOnly_drainBad _ ?_
    unfold State.replyAt
    refine ownOnly_updSess _ ?_
    refine ⟨⟨_, rfl⟩, rfl, rfl, fun n hn => ?_⟩
    have e1 := State.updSess_sess_ne (s.popCmd sid p) sid (fun y => { y with txNext := y.txNext + 1 }) n (Ne.symm hn)
    have e2 := State.updSess_sess_ne s sid (fun x => { x with ring := x.ring.filter (fun q => q.seq != p.seq), nextSeq := (x.nextSeq + 1) % 2 ^ 32 }) n (Ne.symm hn)
    exact e1.trans e2
  have he : s.runCmd op wr sid f = ((s.popCmd sid p).replyAt (s.inHand sid p) sid x.txNext (s.outPort x)
        (replyOf p st d [] s.life.commit)).drainBad sid 16 := by
    unfold State.runCmd
    rw [headOf_asks h]
    dsimp only
    rw [h.2.2.2.2]
    dsimp only
    have hf2 : f ((s.popCmd sid p).updSess sid (fun y => { y with txNext := y.txNext + 1 })) p = { st := st, detail := d } := hf
    cases wr with
    | false =>
      simp only [Bool.false_eq_true, if_false, hf2, hs]
      rfl
    | true =>
      simp only [if_true, hw rfl, hs, if_false, hf2, false_and]
      rfl
  rw [he]
  obtain ⟨⟨m, h1⟩, h2, h3, h4⟩ := ho
  exact ⟨⟨m, by rw [h1, List.append_assoc]; rfl⟩, h2, h4⟩

/-- A command that changes the committed state: the reply has the stamp of the command's commit, and the state is what its own
rules leave. -/
theorem runCmd_write {s : State} {op sid : Nat} {x : Session} {p : Packet} (f : State → Packet → CmdOut) (st : Status) (vs : List (List Byte))
    (t : State) (h : Asks s op sid x p) (hs : st.code < 0x10)
    (hf : f (((s.popCmd sid p).commit).updSess sid (fun y => { y with txNext := y.txNext + 1 })) p = { st := st, tlvs := tlvsFrom 1 vs, next := some t }) :
    WriteDone s (s.runCmd op true sid f) sid x p st vs t := by
  have ho : OwnOnly sid (s.out ++ [.reply sid x.txNext (s.outPort x) (replyOf p st 0 (tlvsFrom 1 vs) (s.life.commit + 1))])
      { t with out := s.out ++ [.reply sid x.txNext (s.outPort x) (replyOf p st 0 (tlvsFrom 1 vs) (s.life.commit + 1))] ++ t.out.drop s.out.length }
      ((((s.popCmd sid p).replyAt t sid x.txNext (s.outPort x)
        (replyOf p st 0 (tlvsFrom 1 vs) (s.life.commit + 1))).drainBad sid 16)) := by
    refine ownOnly_drainBad _ ?_
    unfold State.replyAt
    refine ownOnly_updSess _ ?_
    exact ⟨⟨_, rfl⟩, rfl, rfl, fun n hn => rfl⟩
  have he : s.runCmd op true sid f = ((s.popCmd sid p).replyAt t sid x.txNext (s.outPort x)
        (replyOf p st 0 (tlvsFrom 1 vs) (s.life.commit + 1))).drainBad sid 16 := by
    unfold State.runCmd
    rw [headOf_asks h]
    dsimp only
    rw [h.2.2.2.2]
    simp only [if_true, hf, hs]
    rfl
  rw [he]
  obtain ⟨⟨m, h1⟩, h2, -⟩ := ho
  refine ⟨⟨m, by rw [h1, List.append_assoc]; rfl⟩, ?_⟩
  have h3 := congrArg (fun v : State => { v with out := t.out }) h2
  exact h3

/-- The same, where the state that the rules leave is `u` but for the sessions and what leaves the module. -/
theorem runCmd_write_as {s : State} {op sid : Nat} {x : Session} {p : Packet} (f : State → Packet → CmdOut) (st : Status) (vs : List (List Byte))
    (t u : State) (h : Asks s op sid x p) (hs : st.code < 0x10)
    (hf : f (((s.popCmd sid p).commit).updSess sid (fun y => { y with txNext := y.txNext + 1 })) p = { st := st, tlvs := tlvsFrom 1 vs, next := some t })
    (hu : { t with comms := u.comms, out := u.out } = u) : WriteDone s (s.runCmd op true sid f) sid x p st vs u := by
  obtain ⟨h1, h2⟩ := runCmd_write f st vs t h hs hf
  refine ⟨h1, ?_⟩
  have h3 := congrArg (fun v : State => { v with comms := u.comms, out := u.out }) h2
  exact h3.trans hu

/-- A command that role, form, boot state or lead refuses before its own rules are asked. -/
theorem runCmd_refuses {s : State} {op sid : Nat} {x : Session} {p : Packet} (wr : Bool) (f : State → Packet → CmdOut) (st : Status) (d : Nat)
    (h1 : s.portsUp = true) (h2 : s.sess sid = some x) (h3 : x.headCmd = some p) (h4 : p.opcode = op) (h5 : s.refuses x p = some (st, d)) :
    Refused s (s.runCmd op wr sid f) sid x p st d := by
  have hh : s.headOf op sid = some (x, p) := by
    unfold State.headOf
    simp [h1, h2, h3, h4]
  have hp : (s.popCmd sid p).sess sid = some { x with ring := x.ring.filter (fun q => q.seq != p.seq), nextSeq := (x.nextSeq + 1) % 2 ^ 32 } := by
    unfold State.popCmd
    rw [State.updSess_sess_same, h2]
    rfl
  have ho : OwnOnly sid (s.out ++ [.reply sid x.txNext (s.outPort x) (replyOf p st d [] s.life.commit)]) s
      (((s.popCmd sid p).answer sid (replyOf p st d [] s.life.commit)).drainBad sid 16) := by
    refine ownOnly_drainBad _ ?_
    unfold State.answer State.sendReply
    rw [hp]
    refine ownOnly_updSess _ (ownOnly_setSess _ ⟨⟨[], by rw [List.append_nil]; rfl⟩, rfl, rfl, fun n hn => ?_⟩)
    exact State.updSess_sess_ne s sid (fun x => { x with ring := x.ring.filter (fun q => q.seq != p.seq), nextSeq := (x.nextSeq + 1) % 2 ^ 32 }) n (Ne.symm hn)
  have he : s.runCmd op wr sid f = ((s.popCmd sid p).answer sid (replyOf p st d [] s.life.commit)).drainBad sid 16 := by
    unfold State.runCmd
    rw [hh]
    dsimp only
    rw [h5]
    rfl
  rw [he]
  obtain ⟨⟨m, h1⟩, h2, -, h4⟩ := ho
  exact ⟨⟨m, by rw [h1, List.append_assoc]; rfl⟩, h2, h4⟩

end Sys2Proof.Machine
end

