-- ==== Sys2Proof/Laws/Steps.lean ====
section
/-! SUPPORT. What the shared operations of step records do, said once: a fetch, a write, the counts and marks. -/

namespace Sys2Proof.Machine

open Sys2Proof

/-- `t` is `s` but for the stamp, the log, the trouble words, the sessions, what leaves the module and the count of draws. -/
def Aside (s t : State) : Prop :=
  ∃ c d lo co ou n, t = { s with life := { s.life with commit := c, storedStamp := d }, logs := lo, comms := co, out := ou, draws := n }

theorem aside_refl (s : State) : Aside s s := ⟨s.life.commit, s.life.storedStamp, s.logs, s.comms, s.out, s.draws, rfl⟩

theorem Aside.trans {s t u : State} (h1 : Aside s t) (h2 : Aside t u) : Aside s u := by
  obtain ⟨c1, d1, l1, k1, o1, n1, rfl⟩ := h1
  obtain ⟨c2, d2, l2, k2, o2, n2, rfl⟩ := h2
  exact ⟨c2, d2, l2, k2, o2, n2, rfl⟩

theorem aside_trouble (s : State) (w b loc bunit ctx : Nat) (l : List Nat) (hw : w < 3) (hb : b < 32) : Aside s (s.trouble w b loc bunit ctx l) := by
  obtain ⟨c, d, lo, co, ou, h, -⟩ := trouble_eq s w b loc bunit ctx l hw hb
  exact ⟨c, d, lo, co, _, s.draws, h⟩

theorem aside_homeEvent (s : State) (sp : Space) (a c : Nat) : Aside s (s.homeEvent sp a c) :=
  aside_trouble _ _ _ _ _ _ _ (by decide) (by decide)

theorem aside_homeWrite (s : State) (sp : Space) (a n c : Nat) : Aside s (s.homeWrite sp a n c) := by
  unfold State.homeWrite
  split
  · exact aside_refl s
  · split
    · exact aside_refl s
    · exact aside_homeEvent _ _ _ _

/-- Where no other thread's write is still open, a reader sees what the memory holds. -/
theorem view_eq (s : State) (who : Option Nat) (sp : Space) (a n : Nat) (h : s.unseenBy who sp a n = []) :
    s.view who sp a n = (s.mem.bytes sp a n, s.mem.anyPoison sp a n, s) := by
  unfold State.view
  rw [h]

theorem aside_view (s : State) (who : Option Nat) (sp : Space) (a n : Nat) : Aside s (s.view who sp a n).2.2 := by
  unfold State.view
  split
  · exact aside_refl s
  · exact ⟨s.life.commit, s.life.storedStamp, s.logs, s.comms, s.out, _, rfl⟩

/-- A fetch reads the bytes of its reference, as the thread sees them. -/
theorem fetch_bytes (s : State) (t : Nat) (x : Ref) (n : Nat) : (s.fetch t x n).1 = (s.view (some t) (s.refAt t x).1 (s.refAt t x).2 n).1 := by
  unfold State.fetch
  dsimp only
  split <;> rfl

theorem aside_fetch (s : State) (t : Nat) (x : Ref) (n : Nat) : Aside s (s.fetch t x n).2.2 := by
  unfold State.fetch
  dsimp only
  split
  · exact (aside_view _ _ _ _ _).trans (aside_homeEvent _ _ _ _)
  · exact aside_view _ _ _ _ _

/-- Only thread `t` differs, and it only in the parts that a step record sets. -/
def OwnThread (t : Nat) (l m : Tab Thread) : Prop :=
  (∀ j, j ≠ t → Tab.get {} m j = Tab.get {} l j)
    ∧ (Tab.get {} m t).pc = (Tab.get {} l t).pc ∧ (Tab.get {} m t).iter = (Tab.get {} l t).iter ∧ (Tab.get {} m t).ctx = (Tab.get {} l t).ctx

theorem ownThread_refl (t : Nat) (l : Tab Thread) : OwnThread t l l := ⟨fun _ _ => rfl, rfl, rfl, rfl⟩

theorem OwnThread.trans {t : Nat} {l m n : Tab Thread} (h1 : OwnThread t l m) (h2 : OwnThread t m n) : OwnThread t l n :=
  ⟨fun j hj => (h2.1 j hj).trans (h1.1 j hj), h2.2.1.trans h1.2.1, h2.2.2.1.trans h1.2.2.1, h2.2.2.2.trans h1.2.2.2⟩

theorem ownThread_upd (t : Nat) (l : Tab Thread) (f : Thread → Thread) (h : ∀ x, (f x).pc = x.pc ∧ (f x).iter = x.iter ∧ (f x).ctx = x.ctx) :
    OwnThread t l (Tab.upd {} l t f) := by
  refine ⟨fun j hj => Tab.get_upd_ne _ _ _ _ (Ne.symm hj), ?_, ?_, ?_⟩ <;> rw [Tab.get_upd_same] <;> simp [h]

/-- `t` is `s` but for the asides, thread `th` within a step, engines, cores. -/
def StepOnly (th : Nat) (s t : State) : Prop :=
  ∃ c d lo co ou n ths en cs, OwnThread th s.threads ths ∧
    t = { s with life := { s.life with commit := c, storedStamp := d }, logs := lo, comms := co, out := ou, draws := n, threads := ths, engines := en, cores := cs }

theorem Aside.stepOnly {s t : State} (th : Nat) (h : Aside s t) : StepOnly th s t := by
  obtain ⟨c, d, lo, co, ou, n, rfl⟩ := h
  exact ⟨c, d, lo, co, ou, n, s.threads, s.engines, s.cores, ownThread_refl _ _, rfl⟩

theorem StepOnly.trans {th : Nat} {s t u : State} (h1 : StepOnly th s t) (h2 : StepOnly th t u) : StepOnly th s u := by
  obtain ⟨c1, d1, l1, k1, o1, n1, t1, e1, s1, w1, rfl⟩ := h1
  obtain ⟨c2, d2, l2, k2, o2, n2, t2, e2, s2, w2, rfl⟩ := h2
  exact ⟨c2, d2, l2, k2, o2, n2, t2, e2, s2, w1.trans w2, rfl⟩

theorem stepOnly_refl (th : Nat) (s : State) : StepOnly th s s := (aside_refl s).stepOnly th

theorem stepOnly_updThread (th : Nat) (s : State) (f : Thread → Thread) (h : ∀ x, (f x).pc = x.pc ∧ (f x).iter = x.iter ∧ (f x).ctx = x.ctx) :
    StepOnly th s (s.updThread th f) :=
  ⟨s.life.commit, s.life.storedStamp, s.logs, s.comms, s.out, s.draws, _, s.engines, s.cores, ownThread_upd _ _ _ h, rfl⟩

theorem stepOnly_updEngine (th : Nat) (s : State) (e : Nat) (f : Engine → Engine) : StepOnly th s (s.updEngine e f) :=
  ⟨s.life.commit, s.life.storedStamp, s.logs, s.comms, s.out, s.draws, s.threads, _, s.cores, ownThread_refl _ _, rfl⟩

theorem stepOnly_updCore (th : Nat) (s : State) (k : Nat) (f : Core → Core) : StepOnly th s (s.updCore k f) :=
  ⟨s.life.commit, s.life.storedStamp, s.logs, s.comms, s.out, s.draws, s.threads, s.engines, _, ownThread_refl _ _, rfl⟩

theorem stepOnly_markPoison (th : Nat) (s : State) (p : Bool) : StepOnly th s (s.markPoison th p) := by
  unfold State.markPoison
  split
  · exact stepOnly_updThread _ _ _ (fun _ => ⟨rfl, rfl, rfl⟩)
  · exact stepOnly_refl _ _

theorem stepOnly_markAdapted (th : Nat) (s : State) (p : Bool) : StepOnly th s (s.markAdapted th p) := by
  unfold State.markAdapted
  split
  · exact stepOnly_updThread _ _ _ (fun _ => ⟨rfl, rfl, rfl⟩)
  · exact stepOnly_refl _ _

theorem stepOnly_stepDone (th : Nat) (s : State) : StepOnly th s (s.stepDone th) :=
  stepOnly_updThread _ _ _ (fun _ => ⟨rfl, rfl, rfl⟩)

theorem stepOnly_countFp (th : Nat) (s : State) (k : Nat) (l : List FpR) : StepOnly th s (s.countFp k l) := by
  unfold State.countFp
  dsimp only
  split
  · exact stepOnly_updCore _ _ _ _
  · exact stepOnly_refl _ _

theorem stepOnly_countColumns (th : Nat) (s : State) (e : Nat) (l : List (Nat × Nat × Nat)) : StepOnly th s (s.countColumns e l) :=
  stepOnly_updEngine _ _ _ _

theorem stepOnly_foldl {α : Type} (th : Nat) (f : State → α → State) (hf : ∀ s x, StepOnly th s (f s x)) (l : List α) (s : State) :
    StepOnly th s (l.foldl f s) := by
  induction l generalizing s with
  | nil => exact stepOnly_refl _ _
  | cons x xs ih => exact (hf s x).trans (ih _)

theorem stepOnly_each (th : Nat) (f : State → Nat → State) (hf : ∀ s x, StepOnly th s (f s x)) (l : List Nat) (s : State) :
    StepOnly th s (s.each l f) := by
  induction l generalizing s with
  | nil => exact stepOnly_refl _ _
  | cons x xs ih => exact (hf s x).trans (ih _)

theorem stepOnly_countConvs (th : Nat) (s : State) (c k p : Nat) (l : List Conv) (b : Bool) : StepOnly th s (s.countConvs c k p l b) := by
  unfold State.countConvs
  split
  · exact stepOnly_refl _ _
  · refine stepOnly_each _ _ (fun s x => ?_) _ _
    split
    · exact stepOnly_updCore _ _ _ _
    · exact stepOnly_refl _ _

theorem stepOnly_fetch (th : Nat) (s : State) (t : Nat) (x : Ref) (n : Nat) : StepOnly th s (s.fetch t x n).2.2 := (aside_fetch s t x n).stepOnly th

/-- What a write leaves for readers that do not see it yet. -/
def State.writtenOver (s : State) (t : Nat) (x : Ref) (bs : List Byte) : Unseen :=
  { space := (s.refAt t x).1, at_ := (s.refAt t x).2
    old := (List.range bs.length).map (fun i =>
      ((s.mem.bytes (s.refAt t x).1 ((s.refAt t x).2 + i) 1).headD 0, s.mem.anyPoison (s.refAt t x).1 ((s.refAt t x).2 + i) 1)) }

/-- A write of a step: the bytes at its reference, what a step may change, and no more. -/
theorem writeRef_eq (s : State) (t : Nat) (x : Ref) (bs : List Byte) (p : Bool) : ∃ u, StepOnly t s u ∧ u.cores = s.cores ∧
    s.writeRef t x bs p = { u with mem := s.mem.store (s.refAt t x).1 (s.refAt t x).2 bs p } := by
  obtain ⟨c, d, lo, co, ou, n, h⟩ := aside_homeWrite s (s.refAt t x).1 (s.refAt t x).2 bs.length (s.thread t).ctx
  have h2 := ((aside_homeWrite s (s.refAt t x).1 (s.refAt t x).2 bs.length (s.thread t).ctx).stepOnly t).trans
    ((stepOnly_updThread t _ (fun y => { y with unseen := y.unseen ++ [s.writtenOver t x bs] })
      (fun _ => ⟨rfl, rfl, rfl⟩)).trans (stepOnly_markPoison t _ p))
  refine ⟨_, h2, ?_, ?_⟩
  · unfold State.markPoison
    rw [h]
    split <;> rfl
  · unfold State.writeRef State.markPoison
    dsimp only
    rw [h]
    cases p <;> rfl

/-- The threads that a step leaves. -/
theorem StepOnly.own {th : Nat} {s t : State} (h : StepOnly th s t) : OwnThread th s.threads t.threads := by
  obtain ⟨c, d, lo, co, ou, n, ths, en, cs, w, rfl⟩ := h
  exact w

/-- A step leaves where its operands lie. -/
theorem StepOnly.mem {th : Nat} {s t : State} (h : StepOnly th s t) : t.mem = s.mem := by
  obtain ⟨c, d, lo, co, ou, n, ths, en, cs, -, rfl⟩ := h
  rfl

end Sys2Proof.Machine
end

