-- ==== Sys2Proof/WellFormed.lean ====
section
/-! DEFINITION. Well-formed commands: every number names a unit that the module has, and a frame's header has the form of R320.
Parameters that a sender outside the module chooses (a packet's, Kennel's) are no part of it: the meanings refuse those. -/

namespace Sys2Proof

open Sys2Proof.Machine

/-- A power domain of Table 2.3. -/
def Machine.Dom.wf : Dom → Bool
  | .coreGroup g => decide (g < 64)
  | .clusterCommon c => decide (c < 32)
  | .chargePump s => decide (s < 4)
  | .memCtl i => decide (i < 4)
  | _ => true

/-- A PLL of Table 2.5. -/
def Machine.Pll.wf : Pll → Bool
  | .arith s => decide (s < 4)
  | .network s => decide (s < 4)
  | .phy i => decide (i < 4)
  | _ => true

/-- A pack frame header in the ranges of Table 9.4. -/
def Machine.PackHdr.wf (h : PackHdr) : Bool :=
  decide (h.ver = 1) && decide (h.src < 64) && decide (h.dst < 64) && decide (h.len ≤ 4096 ∧ h.len % 4 = 0) && decide (h.lseq < 2 ^ 16) && decide (h.ack < 2 ^ 16)
    && decide (h.ctx < 64) && decide (h.addr < 2 ^ 40) && decide (h.hops < 16)

/-- A finding of a decoder: a class of Table 12.1 and a device of its channel group. -/
def Machine.EccFinding.wf (f : EccFinding) : Bool := decide (f.cls ≤ 5) && decide (f.device < 10)

/-- Every number of a command names a unit that exists. -/
def Instr.wf : Instr → Bool
  | .coldStart _ => true
  | .warmRestart _ => true
  | .lockstepMismatch => true
  | .shepherdWatchdogExpire => true
  | .feedOut _ => true
  | .feedAvailable _ => true
  | .mainReturnQualified => true
  | .lastGaspEnd => true
  | .holdupMeasure _ => true
  | .converterFault => true
  | .tcxoFail => true
  | .pllLock p => p.wf
  | .pllLockTimeout p => p.wf
  | .thermalSample temps => decide (temps.length = 64)
  | .throttleStepDown stack => decide (stack < 4)
  | .throttleStepUp stack => decide (stack < 4)
  | .tripRecovery => true
  | .budgetClockStep x => x.estimates.all (fun e => decide (e.1 < 64))
  | .restEnter => true
  | .domainPowerUpDone d _ => d.wf
  | .domainGate d => d.wf
  | .engineClockGate engine => decide (engine < 2304)
  | .panelMatvec thread _ => decide (thread < 4096)
  | .digitalMatmul thread => decide (thread < 4096)
  | .vectorOp x => decide (x.thread < 4096)
  | .rotate thread => decide (thread < 4096)
  | .requant thread _ => decide (thread < 4096)
  | .shuttleSubmit thread => decide (thread < 4096)
  | .shuttleSubmitUnstall thread => decide (thread < 4096)
  | .counterSignal thread => decide (thread < 4096)
  | .counterWait thread => decide (thread < 4096)
  | .fence thread => decide (thread < 4096)
  | .barrierArrive thread => decide (thread < 4096)
  | .unitBusyStallEnd thread => decide (thread < 4096)
  | .planeFileLoadDone engine => decide (engine < 2304)
  | .codebookLoadDone engine slot => decide (engine < 2304) && decide (slot < 4)
  | .stepComplete thread _ => decide (thread < 4096)
  | .readingClose engine plane _ => decide (engine < 2304) && decide (plane < 16)
  | .counterSignalApply _ => true
  | .barrierReleaseReceipt _ => true
  | .waiterWake thread => decide (thread < 4096)
  | .compareRegistrationRetry _ => true
  | .watchdogExpire ctx => decide (ctx < 64)
  | .descriptorStart ring x => decide (ring < 2048) && decide (x.channel < 128)
  | .chunkDone channel found => decide (channel < 128) && found.all EccFinding.wf
  | .descriptorComplete channel => decide (channel < 128)
  | .periodRelease => true
  | .mandatoryCompletion => true
  | .iterationRelease ctx => decide (ctx < 64)
  | .inspectPassStart ctx => decide (ctx < 64)
  | .streamFrame port _ => decide (port < 4)
  | .sampledValuesFrame port _ => decide (port < 4)
  | .arpRequest port _ => decide (port < 6)
  | .neighborDiscovery port _ => decide (port < 6)
  | .echoRequest port _ _ _ => decide (port < 6)
  | .spillMove slot => decide (slot < 32)
  | .silentTimeout slot => decide (slot < 32)
  | .rateCheck => true
  | .tokenForm _ => true
  | .filetFunctionRun _ => true
  | .handshakeRecord port _ _ session _ frag frags _ => decide (4 ≤ port) && decide (port < 6) && decide (session ≤ 65535) && decide (frag < frags) && decide (frags ≤ 32)
  | .openMsg _ _ => true
  | .confirm _ _ => true
  | .handshakeTimeout _ => true
  | .protectedRecord port _ session _ _ _ => decide (4 ≤ port) && decide (port < 6) && decide (session ≤ 65535)
  | .sessionIdleTimeout sid => decide (sid < 128)
  | .notifyResend sid => decide (sid < 128)
  | .prpSupervision => true
  | .keepalive sid => decide (sid < 128)
  | .close sid => decide (sid < 128)
  | .notifyAck sid => decide (sid < 128)
  | .bulk sid => decide (sid < 128)
  | .sessionInfo sid => decide (sid < 128)
  | .moduleInfo sid => decide (sid < 128)
  | .status sid => decide (sid < 128)
  | .unitRead sid => decide (sid < 128)
  | .thermal sid => decide (sid < 128)
  | .fpcount sid => decide (sid < 128)
  | .clipRead sid => decide (sid < 128)
  | .imgBegin sid => decide (sid < 128)
  | .imgEnd sid => decide (sid < 128)
  | .imageValidationDone _ => true
  | .imgAbort sid => decide (sid < 128)
  | .imgInfo sid => decide (sid < 128)
  | .swap sid => decide (sid < 128)
  | .swapStep4Done => true
  | .swapBoundary => true
  | .swapStatus sid => decide (sid < 128)
  | .memberRead sid => decide (sid < 128)
  | .slotSet sid => decide (sid < 128)
  | .slotRead sid => decide (sid < 128)
  | .slotFree sid => decide (sid < 128)
  | .portSet sid => decide (sid < 128)
  | .portRead sid => decide (sid < 128)
  | .streamStatus sid => decide (sid < 128)
  | .streamClear sid => decide (sid < 128)
  | .ctxStart sid => decide (sid < 128)
  | .ctxStop sid => decide (sid < 128)
  | .ctxReset sid => decide (sid < 128)
  | .ctxRead sid => decide (sid < 128)
  | .ctxSet sid => decide (sid < 128)
  | .quotaSet sid => decide (sid < 128)
  | .quotaRead sid => decide (sid < 128)
  | .run sid => decide (sid < 128)
  | .runCancel sid => decide (sid < 128)
  | .resultRead sid => decide (sid < 128)
  | .resultSub sid => decide (sid < 128)
  | .resultUnsub sid => decide (sid < 128)
  | .advisoryRead sid => decide (sid < 128)
  | .eventSub sid => decide (sid < 128)
  | .eventUnsub sid => decide (sid < 128)
  | .ctrSignal sid => decide (sid < 128)
  | .ctrRead sid => decide (sid < 128)
  | .ctrSub sid => decide (sid < 128)
  | .ctrUnsub sid => decide (sid < 128)
  | .bind sid => decide (sid < 128)
  | .ctrClear sid => decide (sid < 128)
  | .ctrList sid => decide (sid < 128)
  | .budgetSet sid => decide (sid < 128)
  | .powerRead sid => decide (sid < 128)
  | .packConfig sid => decide (sid < 128)
  | .packRead sid => decide (sid < 128)
  | .troubleRead sid => decide (sid < 128)
  | .troubleClear sid => decide (sid < 128)
  | .logRead sid => decide (sid < 128)
  | .upkeepRead sid => decide (sid < 128)
  | .planeRead sid => decide (sid < 128)
  | .replan sid => decide (sid < 128)
  | .sweep sid => decide (sid < 128)
  | .retire sid => decide (sid < 128)
  | .checkpoint sid => decide (sid < 128)
  | .checkpointStored _ => true
  | .configCheckpointTimer => true
  | .attest sid => decide (sid < 128)
  | .identityRead sid => decide (sid < 128)
  | .anchorRead sid => decide (sid < 128)
  | .anchorAdd sid => decide (sid < 128)
  | .anchorRemove sid => decide (sid < 128)
  | .denyAdd sid => decide (sid < 128)
  | .fwBegin sid => decide (sid < 128)
  | .fwEnd sid => decide (sid < 128)
  | .firmwareValidationDone _ => true
  | .fwActivate sid => decide (sid < 128)
  | .restart sid => decide (sid < 128)
  | .optionRead sid => decide (sid < 128)
  | .optionSet sid => decide (sid < 128)
  | .optionWriteDone _ => true
  | .servicePort sid => decide (sid < 128)
  | .linkTrained port => decide (port < 4)
  | .helloFrame port h _ pos _ _ _ _ _ => decide (port < 4) && h.wf && decide (pos < 64)
  | .idleFrame port h => decide (port < 4) && h.wf
  | .idleSend port => decide (port < 4)
  | .nakFrame port h _ => decide (port < 4) && h.wf
  | .creditFrame port h credits => decide (port < 4) && h.wf && decide (credits.length = 6)
  | .creditReturn port => decide (port < 4)
  | .linkCrcTimeout port => decide (port < 4)
  | .writeFrame port h _ => decide (port < 4) && h.wf
  | .writeDone port h _ => decide (port < 4) && h.wf
  | .remoteWriteTimeout channel => decide (channel < 128)
  | .signalFrame port h _ _ _ _ => decide (port < 4) && h.wf
  | .tokenFrame port h _ _ _ => decide (port < 4) && h.wf
  | .tokenAck port h _ => decide (port < 4) && h.wf
  | .memberHb port h _ pos _ ports _ _ _ => decide (port < 4) && h.wf && decide (pos < 64) && decide (ports.length = 4)
  | .memberHbSend => true
  | .memberTimeout pos => decide (pos < 64)
  | .leadHb port h _ lead fill source _ _ _ _ _ _ => decide (port < 4) && h.wf && decide (lead < 64) && decide (fill < 64) && decide (source < 64)
  | .leadHbSend => true
  | .leadLossTimeout => true
  | .claimDelayExpire => true
  | .leadClaim port h _ pos => decide (port < 4) && h.wf && decide (pos < 64)
  | .claimQuorumTimeout => true
  | .claimRepeat => true
  | .detachTimeout => true
  | .releaseFrame port h _ _ => decide (port < 4) && h.wf
  | .advisoryFrame port h pos _ _ _ => decide (port < 4) && h.wf && decide (pos < 64)
  | .passStart port h _ _ _ _ _ _ _ => decide (port < 4) && h.wf
  | .pass1Complete slot _ => decide (slot < 64)
  | .passDone port h _ pos _ _ _ => decide (port < 4) && h.wf && decide (pos < 64)
  | .scanPrefix port h _ _ _ _ => decide (port < 4) && h.wf
  | .scanSuffix port h _ _ _ _ => decide (port < 4) && h.wf
  | .scanColumn port h _ _ _ _ => decide (port < 4) && h.wf
  | .haloMsg port h _ _ _ => decide (port < 4) && h.wf
  | .replayComplete slot _ => decide (slot < 64)
  | .resendMsg port h _ _ _ _ => decide (port < 4) && h.wf
  | .exchangeStallTimeout _ => true
  | .snapshotMsg port h _ _ => decide (port < 4) && h.wf
  | .scaleSet port h _ _ => decide (port < 4) && h.wf
  | .resultMsg port h _ _ _ => decide (port < 4) && h.wf
  | .handoverPrep port h _ _ _ _ _ => decide (port < 4) && h.wf
  | .handoverMsg port h _ _ => decide (port < 4) && h.wf
  | .swapReady port h _ pos => decide (port < 4) && h.wf && decide (pos < 64)
  | .swapAt port h _ _ => decide (port < 4) && h.wf
  | .swapCommit port h _ _ => decide (port < 4) && h.wf
  | .tallyFrame port h pos _ => decide (port < 4) && h.wf && decide (pos < 64)
  | .upkeepStart engine => decide (engine < 2304)
  | .awayCopyDone engine => decide (engine < 2304)
  | .eraseDone engine _ _ => decide (engine < 2304)
  | .programPassDone engine _ => decide (engine < 2304)
  | .relaxWaitExpire engine => decide (engine < 2304)
  | .finalVerifyDone engine _ => decide (engine < 2304)
  | .digitalLevelReadDone engine _ => decide (engine < 2304)
  | .sweepDue engine plane => decide (engine < 2304) && decide (plane ≤ 16)
  | .panelReturn engine => decide (engine < 2304)
  | .upkeepTableWrite => true
  | .patrolScrubRead f => f.wf
  | .scrubPassEnd => true
  | .scrubDeadline => true
  | .weightRefetchDone _ => true
  | .storeProgramDone block _ => decide (block < 16384)
  | .storeEraseDone unit phys _ _ => decide (unit < 4) && decide (phys < 16384)
  | .storeRead block _ => decide (block < 16384)
  | .storePatrolRead block _ => decide (block < 16384)
  | .logPageWrite => true
  | .logRateSecondEnd => true
  | .troubleLevelReassert => true
  | .outputSenseMismatch n => decide (n < 4)
  | .outputOvercurrent n => decide (n < 4)
  | .healthSenseMismatch => true
  | .inputSample mv => decide (mv.length = 4)
  | .kennelHelp => true
  | .kennelInfo => true
  | .kennelUnlock => true
  | .kennelChallengeResponse _ _ => true
  | .kennelChallengeExpire => true
  | .kennelLockoutExpire => true
  | .kennelLock => true
  | .kennelIdleTimeout => true
  | .kennelStatus => true
  | .kennelLog _ _ => true
  | .kennelCtx _ => true
  | .kennelWaits _ => true
  | .kennelCtr _ _ => true
  | .kennelCtrp _ => true
  | .kennelThread _ => true
  | .kennelRing _ => true
  | .kennelPlanes _ => true
  | .kennelWear _ => true
  | .kennelPack => true
  | .kennelStore => true
  | .kennelStream _ => true
  | .kennelUpkeep => true
  | .kennelRaw _ _ => true
  | .kennelCtxStart _ => true
  | .kennelCtxStop _ => true
  | .kennelCtxReset _ => true
  | .kennelServiceOn => true
  | .kennelServiceOff => true
  | .kennelAnchorList => true
  | .kennelAnchorAdd _ _ _ => true
  | .kennelAnchorRemove _ => true
  | .kennelPackSet _ _ _ _ _ => true
  | .kennelPortSet _ _ => true
  | .kennelOptionSet _ _ => true
  | .kennelTroubleClear _ _ => true
  | .kennelRetire _ _ => true
  | .kennelRestart _ => true
  | .kennelLockSet _ => true
  | .kennelBootlog => true
  | .kennelFwload _ _ => true
  | .kennelBootbank _ => true
  | .kennelBootfall _ => true
  | .feedExcursion _ _ => true
  | .packFrameCrcFail port => decide (port < 4)
  | .kennelUnknownCommand => true
  | .serviceLineCharacter _ => true

end Sys2Proof
end

