-- ==== Sys2Proof/Tests/Slice0.lean ====
section
/-! SUPPORT. Tests: ill-formed commands that the checks refuse, steps on small states with results that the manual gives, and
witnesses that the hypotheses of the statements can be met together. -/

namespace Sys2Proof.Tests

open Sys2Proof Sys2Proof.Machine

set_option Elab.async false

/-! ## Ill-formed commands, one for each check of WellFormed -/

/-- A frame header in the ranges of Table 9.4. -/
def goodHdr : PackHdr := {}

/-- A frame header of another version. -/
def badHdr : PackHdr := { ver := 2 }

/-- A finding of a class that Table 12.1 does not have. -/
def badFinding : EccFinding := { space := .core, addr := 0, cls := 6 }

theorem test_illFormed_1 : ([
    .pllLock (.arith 4), .pllLock (.network 4), .pllLock (.phy 4),
    .pllLockTimeout (.arith 4), .pllLockTimeout (.network 4), .pllLockTimeout (.phy 4),
    .thermalSample [], .throttleStepDown 4, .throttleStepUp 4,
    .budgetClockStep { estimates := [(64, 0)] }, .domainPowerUpDone (.coreGroup 64) false, .domainPowerUpDone (.clusterCommon 32) false,
    .domainPowerUpDone (.chargePump 4) false, .domainPowerUpDone (.memCtl 4) false, .domainGate (.coreGroup 64),
    .domainGate (.clusterCommon 32), .domainGate (.chargePump 4), .domainGate (.memCtl 4),
    .engineClockGate 2304, .panelMatvec 4096 [], .digitalMatmul 4096,
    .vectorOp { thread := 4096 }, .rotate 4096, .requant 4096 false,
    .shuttleSubmit 4096, .shuttleSubmitUnstall 4096, .counterSignal 4096,
    .counterWait 4096, .fence 4096, .barrierArrive 4096,
    .unitBusyStallEnd 4096, .planeFileLoadDone 2304, .codebookLoadDone 2304 0,
    .codebookLoadDone 0 4, .stepComplete 4096 none, .readingClose 2304 0 0,
    .readingClose 0 16 0, .waiterWake 4096, .watchdogExpire 64] : List Instr).all (fun i => !i.wf) = true := by decide

theorem test_illFormed_2 : ([
    .descriptorStart 2048 {}, .descriptorStart 0 { channel := 128 }, .chunkDone 128 [],
    .chunkDone 0 [badFinding], .descriptorComplete 128, .iterationRelease 64,
    .inspectPassStart 64, .streamFrame 4 {}, .sampledValuesFrame 4 {},
    .arpRequest 6 0, .neighborDiscovery 6 0, .echoRequest 6 false 0 [],
    .spillMove 32, .silentTimeout 32, .handshakeRecord 3 0 0 0 0 0 1 [],
    .handshakeRecord 6 0 0 0 0 0 1 [], .handshakeRecord 4 0 0 65536 0 0 1 [], .handshakeRecord 4 0 0 0 0 1 1 [],
    .handshakeRecord 4 0 0 0 0 0 33 [], .protectedRecord 3 0 0 0 false [], .protectedRecord 6 0 0 0 false [],
    .protectedRecord 4 0 65536 0 false [], .sessionIdleTimeout 128, .notifyResend 128,
    .keepalive 128, .close 128, .notifyAck 128,
    .bulk 128, .sessionInfo 128, .moduleInfo 128,
    .status 128, .unitRead 128, .thermal 128,
    .fpcount 128, .clipRead 128, .imgBegin 128,
    .imgEnd 128, .imgAbort 128, .imgInfo 128] : List Instr).all (fun i => !i.wf) = true := by decide

theorem test_illFormed_3 : ([
    .swap 128, .swapStatus 128, .memberRead 128,
    .slotSet 128, .slotRead 128, .slotFree 128,
    .portSet 128, .portRead 128, .streamStatus 128,
    .streamClear 128, .ctxStart 128, .ctxStop 128,
    .ctxReset 128, .ctxRead 128, .ctxSet 128,
    .quotaSet 128, .quotaRead 128, .run 128,
    .runCancel 128, .resultRead 128, .resultSub 128,
    .resultUnsub 128, .advisoryRead 128, .eventSub 128,
    .eventUnsub 128, .ctrSignal 128, .ctrRead 128,
    .ctrSub 128, .ctrUnsub 128, .bind 128,
    .ctrClear 128, .ctrList 128, .budgetSet 128,
    .powerRead 128, .packConfig 128, .packRead 128,
    .troubleRead 128, .troubleClear 128, .logRead 128] : List Instr).all (fun i => !i.wf) = true := by decide

theorem test_illFormed_4 : ([
    .upkeepRead 128, .planeRead 128, .replan 128,
    .sweep 128, .retire 128, .checkpoint 128,
    .attest 128, .identityRead 128, .anchorRead 128,
    .anchorAdd 128, .anchorRemove 128, .denyAdd 128,
    .fwBegin 128, .fwEnd 128, .fwActivate 128,
    .restart 128, .optionRead 128, .optionSet 128,
    .servicePort 128, .linkTrained 4, .helloFrame 4 goodHdr 0 0 0 0 0 0 0,
    .helloFrame 0 badHdr 0 0 0 0 0 0 0, .helloFrame 0 goodHdr 0 64 0 0 0 0 0, .idleFrame 4 goodHdr,
    .idleFrame 0 badHdr, .idleSend 4, .nakFrame 4 goodHdr 0,
    .nakFrame 0 badHdr 0, .creditFrame 4 goodHdr [0, 0, 0, 0, 0, 0], .creditFrame 0 badHdr [0, 0, 0, 0, 0, 0],
    .creditFrame 0 goodHdr [], .creditReturn 4, .linkCrcTimeout 4,
    .writeFrame 4 goodHdr [], .writeFrame 0 badHdr [], .writeDone 4 goodHdr 0,
    .writeDone 0 badHdr 0, .remoteWriteTimeout 128, .signalFrame 4 goodHdr 0 0 false 0] : List Instr).all (fun i => !i.wf) = true := by decide

theorem test_illFormed_5 : ([
    .signalFrame 0 badHdr 0 0 false 0, .tokenFrame 4 goodHdr 0 0 [], .tokenFrame 0 badHdr 0 0 [],
    .tokenAck 4 goodHdr 0, .tokenAck 0 badHdr 0, .memberHb 4 goodHdr 0 0 0 [0, 0, 0, 0] 0 none 0,
    .memberHb 0 badHdr 0 0 0 [0, 0, 0, 0] 0 none 0, .memberHb 0 goodHdr 0 64 0 [0, 0, 0, 0] 0 none 0, .memberHb 0 goodHdr 0 0 0 [] 0 none 0,
    .memberTimeout 64, .leadHb 4 goodHdr 0 0 0 0 none 0 [] 0 0 [], .leadHb 0 badHdr 0 0 0 0 none 0 [] 0 0 [],
    .leadHb 0 goodHdr 0 64 0 0 none 0 [] 0 0 [], .leadHb 0 goodHdr 0 0 64 0 none 0 [] 0 0 [], .leadHb 0 goodHdr 0 0 0 64 none 0 [] 0 0 [],
    .leadClaim 4 goodHdr 0 0, .leadClaim 0 badHdr 0 0, .leadClaim 0 goodHdr 0 64,
    .releaseFrame 4 goodHdr 0 0, .releaseFrame 0 badHdr 0 0, .advisoryFrame 4 goodHdr 0 0 0 0,
    .advisoryFrame 0 badHdr 0 0 0 0, .advisoryFrame 0 goodHdr 64 0 0 0, .passStart 4 goodHdr 0 0 0 0 0 0 false,
    .passStart 0 badHdr 0 0 0 0 0 0 false, .pass1Complete 64 {}, .passDone 4 goodHdr 0 0 0 0 0,
    .passDone 0 badHdr 0 0 0 0 0, .passDone 0 goodHdr 0 64 0 0 0, .scanPrefix 4 goodHdr {} 0 false [],
    .scanPrefix 0 badHdr {} 0 false [], .scanSuffix 4 goodHdr {} 0 false [], .scanSuffix 0 badHdr {} 0 false [],
    .scanColumn 4 goodHdr {} 0 false [], .scanColumn 0 badHdr {} 0 false [], .haloMsg 4 goodHdr {} 0 [],
    .haloMsg 0 badHdr {} 0 [], .replayComplete 64 {}, .resendMsg 4 goodHdr {} 0 0 0] : List Instr).all (fun i => !i.wf) = true := by decide

theorem test_illFormed_6 : ([
    .resendMsg 0 badHdr {} 0 0 0, .snapshotMsg 4 goodHdr {} [], .snapshotMsg 0 badHdr {} [],
    .scaleSet 4 goodHdr {} [], .scaleSet 0 badHdr {} [], .resultMsg 4 goodHdr {} 0 {},
    .resultMsg 0 badHdr {} 0 {}, .handoverPrep 4 goodHdr 0 0 0 0 false, .handoverPrep 0 badHdr 0 0 0 0 false,
    .handoverMsg 4 goodHdr {} {}, .handoverMsg 0 badHdr {} {}, .swapReady 4 goodHdr 0 0,
    .swapReady 0 badHdr 0 0, .swapReady 0 goodHdr 0 64, .swapAt 4 goodHdr 0 0,
    .swapAt 0 badHdr 0 0, .swapCommit 4 goodHdr 0 0, .swapCommit 0 badHdr 0 0,
    .tallyFrame 4 goodHdr 0 [], .tallyFrame 0 badHdr 0 [], .tallyFrame 0 goodHdr 64 [],
    .upkeepStart 2304, .awayCopyDone 2304, .eraseDone 2304 [] 0,
    .programPassDone 2304 [], .relaxWaitExpire 2304, .finalVerifyDone 2304 {},
    .digitalLevelReadDone 2304 {}, .sweepDue 2304 0, .sweepDue 0 17,
    .panelReturn 2304, .patrolScrubRead badFinding, .storeProgramDone 16384 false,
    .storeEraseDone 4 0 false 0, .storeEraseDone 0 16384 false 0, .storeRead 16384 0,
    .storePatrolRead 16384 0, .outputSenseMismatch 4, .outputOvercurrent 4] : List Instr).all (fun i => !i.wf) = true := by decide

theorem test_illFormed_7 : ([
    .inputSample [], .packFrameCrcFail 4] : List Instr).all (fun i => !i.wf) = true := by decide

theorem test_headerRanges : goodHdr.wf = true
    ∧ ([{ ver := 2 }, { src := 64 }, { dst := 64 }, { len := 4100 }, { len := 2 }, { lseq := 65536 }, { ack := 65536 }, { ctx := 64 },
      { addr := 1099511627776 }, { hops := 16 }] : List PackHdr).all (fun h => !h.wf) = true := by decide

theorem test_findingRanges : ({ space := .core, addr := 0, cls := 5, device := 9 } : EccFinding).wf = true
    ∧ ([badFinding, { space := .core, addr := 0, cls := 0, device := 10 }] : List EccFinding).all (fun f => !f.wf) = true := by decide

/-! ## Witnesses -/

theorem witness_idleStepCountsTime : (State.reset.pending = [] ∧ State.reset.life.phase = .unpowered) ∧
    ∃ s : State, s.pending = [] ∧ s.life.phase ≠ .unpowered :=
  ⟨by decide, { life := { phase := .ready } }, by decide⟩

theorem witness_numbersNeverMoveBack : Kept State.reset.pending {} State.reset ∧ ∃ t, exec .lastGaspEnd State.reset = .next t ∧ ∃ u, step State.reset = .next u :=
  ⟨⟨rfl, by decide⟩, _, rfl, _, rfl⟩

theorem witness_storeWritesItsBytesAlone : ({} : Memory).wf = true ∧ (({} : Memory).store .board 5 [1, 2] false).read .board 6 = 2
    ∧ (({} : Memory).store .board 5 [1, 2] false).read .board 7 = 0 := by
  decide

theorem witness_feedEventsTakeEffect :
    (∃ s : State, s.powered = true ∧ (s.feed .main).availTimer = true ∧ (s.feed .main).outTimer = true ∧ (s.feed .main).out = false
      ∧ s.supply.active = some .main ∧ s.supply.backup.avail = true)
    ∧ (∃ s : State, s.powered = true ∧ (s.feed .backup).outTimer = true ∧ (s.feed .backup).out = false ∧ s.supply.active = some .backup
      ∧ 34000 ≤ s.supply.main.mv ∧ s.supply.main.mv ≤ 80000 ∧ s.supply.returnTimer = true ∧ s.life.phase ≠ .lastGasp)
    ∧ (∃ s : State, s.life.phase = .lastGasp ∧ s.anyFeed = false) ∧ (∃ s : State, s.life.phase = .lastGasp ∧ s.anyFeed = true
      ∧ s.life.cause = .converter ∧ 3 ≤ s.recentFaults) :=
  ⟨⟨{ life := { phase := .ready }, supply := { active := some .main, main := { availTimer := true, outTimer := true, out := false }, backup := { avail := true } } },
      by decide⟩,
   ⟨{ life := { phase := .ready }, supply := { active := some .backup, returnTimer := true, main := { mv := 48000 }, backup := { outTimer := true, out := false } } },
      by decide⟩,
   ⟨{ life := { phase := .lastGasp } }, by decide⟩,
   ⟨{ life := { phase := .lastGasp, cause := .converter, convFaults := [0, 0, 0] }, supply := { main := { mv := 48000 } } }, by decide⟩⟩

theorem witness_haltsTakeEffect :
    (∃ s : State, s.fwUp = true ∧ s.shepherdOn = true ∧ s.life.phase ≠ .rest ∧ s.powered = true ∧ s.life.phase ≠ .lastGasp ∧ s.life.tcxoOk = true)
    ∧ (∃ s : State, s.powered = true ∧ s.life.tcxoOk = true ∧ s.life.phase = .lastGasp)
    ∧ ∃ s : State, s.life.phase = .tripped ∧ s.life.tripLatched = false ∧ ∀ i, i < 64 → s.usedTemp i < 850 :=
  ⟨⟨{ life := { phase := .ready, tcxoOk := true } }, by decide⟩, ⟨{ life := { phase := .lastGasp, tcxoOk := true } }, by decide⟩,
   ⟨{ life := { phase := .tripped } }, by decide, by decide, fun i _ => by
      show (if (List.nil : List Nat).contains i = true then _ else Tab.get 250 [] i) < 850
      simp [Tab.get]⟩⟩

theorem witness_clockAndHeatCommandsTakeEffect :
    (∃ s : State, (s.clk 0).running = true ∧ (s.clk 0).arithLocked = false ∧ (s.clk 0).arithTries < 2 ∧ (s.clk 0).netLocked = false ∧ (s.clk 0).netTries < 2)
    ∧ (∃ s : State, s.life.phase = .halted) ∧ (∃ s : State, s.powered = true ∧ s.fwUp = true ∧ s.hot = true ∧ (List.replicate 64 (1100 : Int)).length = 64)
    ∧ (∃ s : State, s.powered = true ∧ 1000 ≤ s.stackTemp 0 ∧ (s.clk 0).thermStep = 8)
    ∧ (∃ s : State, s.powered = true ∧ s.stackTemp 0 < 970 ∧ (s.clk 0).thermStep < (s.clk 0).budgetStep)
    ∧ (∃ s : State, s.powered = true ∧ s.supply.cutting = true ∧ s.inForce < 5000 ∧ (s.clk 0).running = true ∧ 2 < (s.clk 0).step) :=
  ⟨⟨{ clks := [(0, { running := true })] }, by decide⟩, ⟨{ life := { phase := .halted } }, by decide⟩,
   ⟨{ life := { phase := .ready }, temps := [(3, 1100)] }, by decide⟩, ⟨{ life := { phase := .ready }, temps := [(3, 1000)] }, by decide⟩,
   ⟨{ life := { phase := .ready }, clks := [(0, { thermStep := 7 })] }, by decide⟩,
   ⟨{ life := { phase := .ready }, supply := { cutting := true }, clks := [(0, { running := true })] }, by decide⟩⟩

theorem witness_startsTakeEffect :
    (∃ (b : BootFacts) (s : State) (o : Options), s.coldDue b = true ∧ s.opt.atReset b = some o ∧ b.tcxoOk = true
      ∧ ((s.startFeeds b).resetTo o b true false).bootPllsFail b = false ∧ (({ s with opt := o } : State).bootBank b).isSome = true)
    ∧ (∃ (b : BootFacts) (s : State) (o : Options), s.life.phase = .halted ∧ s.life.due = some .warm ∧ b.retainOk = true ∧ s.opt.atReset b = some o
      ∧ b.tcxoOk = true ∧ (({ s with opt := o } : State).bootBank b).isSome = true)
    ∧ (∃ (b : BootFacts) (s : State), s.coldDue b = true ∧ s.opt.atReset b = none)
    ∧ (∃ (b : BootFacts) (s : State), s.coldDue b = true ∧ (s.opt.atReset b).isSome = true ∧ b.tcxoOk = false)
    ∧ (∃ (b : BootFacts) (s : State) (o : Options), s.coldDue b = true ∧ s.opt.atReset b = some o ∧ b.tcxoOk = true
      ∧ ((s.startFeeds b).resetTo o b true false).bootPllsFail b = true)
    ∧ (∃ (b : BootFacts) (s : State) (o : Options), s.coldDue b = true ∧ s.opt.atReset b = some o ∧ b.tcxoOk = true
      ∧ ((s.startFeeds b).resetTo o b true false).bootPllsFail b = false ∧ ({ s with opt := o } : State).bootBank b = none)
    ∧ (∃ (b : BootFacts) (s : State), s.life.phase = .halted ∧ s.life.due = some .warm ∧ s.opt.atReset b = none)
    ∧ ∃ (b : BootFacts) (s : State), s.life.phase = .halted ∧ s.life.due = some .warm ∧ b.retainOk = false := by
  refine ⟨⟨{}, {}, _, by decide, rfl, rfl, by decide, by decide⟩, ⟨{}, { life := { phase := .halted, due := some .warm } }, _, rfl, rfl, rfl, rfl, rfl, by decide⟩,
    ⟨{ copy0Ok := false, copy1Ok := false }, {}, by decide⟩, ⟨{ tcxoOk := false }, {}, by decide⟩, ⟨{ bootPllsOk := false }, {}, _, by decide, rfl, rfl, by decide⟩,
    ⟨{ bankOk := [false, false] }, {}, _, by decide, rfl, rfl, by decide, by decide⟩,
    ⟨{ copy0Ok := false, copy1Ok := false }, { life := { phase := .halted, due := some .warm } }, by decide⟩,
    ⟨{ retainOk := false }, { life := { phase := .halted, due := some .warm } }, by decide⟩⟩

theorem witness_domainCommandsTakeEffect :
    (∃ s : State, s.mayRest = true) ∧ (∃ s : State, s.domOn (.chargePump 1) = true ∧ s.mayGate (.chargePump 1) = true)
    ∧ (∃ s : State, s.domOn (.clusterCommon 9) = true ∧ s.mayGate (.clusterCommon 9) = true ∧ ∀ i, i < 8 → i ≠ 9 % 8 → s.dom (.clusterCommon (8 * (9 / 8) + i)) = .off)
    ∧ (∃ s : State, s.domOn (.clusterCommon 31) = true ∧ s.mayGate (.clusterCommon 31) = true ∧ ∃ i, i < 8 ∧ i ≠ 31 % 8 ∧ s.dom (.clusterCommon (8 * (31 / 8) + i)) ≠ .off)
    ∧ (∃ s : State, s.dom (.clusterCommon 31) = .waking ∧ s.powered = true ∧ Dom.exists? (.clusterCommon 31) = true ∧ s.domReady (.clusterCommon 31) = true ∧ s.image = none)
    ∧ (∃ s : State, s.dom (.chargePump 0) = .waking ∧ s.powered = true ∧ Dom.exists? (.chargePump 0) = true ∧ s.domReady (.chargePump 0) = true)
    ∧ ∃ s : State, (s.engine 2303).clockOn = true ∧ (s.engine 2303).load = none ∧ (s.engine 2303).cbLoading = []
      ∧ ∀ t, t ∈ coreThreads (2303 / 9) → (s.thread t).state ≠ .running :=
  ⟨⟨{ life := { phase := .ready } }, by decide⟩, ⟨{ doms := [(97, .on)] }, by decide⟩, ⟨{ doms := [(73, .on)] }, by decide⟩,
   ⟨{ doms := [(88, .on), (95, .on)] }, by decide⟩,
   ⟨{ life := { phase := .ready }, doms := [(95, .waking)], clks := [(3, { running := true, arithLocked := true, netLocked := true })] }, by decide⟩,
   ⟨{ life := { phase := .ready }, doms := [(96, .waking)] }, by decide⟩,
   ⟨{ engines := [(2303, { clockOn := true })] }, by decide⟩⟩

/-- A state in which thread 0 of context 0 is ready to issue the record `r`, with its core, clock and pump on. -/
def readyFor (r : BitVec 256) : State :=
  { life := { phase := .ready }, doms := [(0, .on), (64, .on), (96, .on)], clks := [(0, { running := true, arithLocked := true, netLocked := true })]
    cores := [(0, { stepRam := [(0, r)] })], threads := [(0, { state := .ready })], ctxs := [(0, { state := .running })] }

/-- A record of a kind whose other fields are zero but for those added. -/
def recWith (kind more : Nat) : BitVec 256 := BitVec.ofNat 256 (2 ^ 252 * kind + more)

theorem witness_panelStepRuns : ∃ s : State, s.issues 0 0 = true ∧
    s.badRef 0 [({ space := 1, engine := rf (s.recordOf 0) 247 245, offset := rf (s.recordOf 0) 217 202 },
      panelIn (rf (s.recordOf 0) 229 227) (rf (s.recordOf 0) 235 230 * rowsOf (s.blockAt (s.panelAt 0 (s.recordOf 0)).1 (s.panelAt 0 (s.recordOf 0)).2).file.gsize))] = none
    ∧ s.planeAway (s.panelAt 0 (s.recordOf 0)).1 (s.panelAt 0 (s.recordOf 0)).2 = false
    ∧ s.domOn (.chargePump ((s.panelAt 0 (s.recordOf 0)).1 / 576)) = true
    ∧ (s.engine (s.panelAt 0 (s.recordOf 0)).1).active = some (s.panelAt 0 (s.recordOf 0)).2 :=
  ⟨{ readyFor (recWith 0 (2 ^ 230)) with upk := { planes := [(0, { state := 1 })] }, engines := [(0, { active := some 0 })] }, by decide⟩

theorem witness_matmulStepRuns : (readyFor (recWith 1 (2 ^ 228 + 2 ^ 224 + 2 ^ 216))).issues 0 1 = true ∧ (mmRec (recWith 1 (2 ^ 228 + 2 ^ 224 + 2 ^ 216))).wcode = 0
    ∧ wBytes (mmRec (recWith 1 (2 ^ 228 + 2 ^ 224 + 2 ^ 216))).mode 0 ((mmRec (recWith 1 (2 ^ 228 + 2 ^ 224 + 2 ^ 216))).kt * (mmRec (recWith 1 (2 ^ 228 + 2 ^ 224 + 2 ^ 216))).nt) ≤ 65536
    ∧ xBytes (mmRec (recWith 1 (2 ^ 228 + 2 ^ 224 + 2 ^ 216))).mode ((mmRec (recWith 1 (2 ^ 228 + 2 ^ 224 + 2 ^ 216))).b * (mmRec (recWith 1 (2 ^ 228 + 2 ^ 224 + 2 ^ 216))).kt * 16) ≤ 65536
    ∧ 4 * (mmRec (recWith 1 (2 ^ 228 + 2 ^ 224 + 2 ^ 216))).b * (mmRec (recWith 1 (2 ^ 228 + 2 ^ 224 + 2 ^ 216))).nt * 16 ≤ 65536 := by
  decide

theorem witness_vectorStepRuns : (readyFor (recWith 2 (2 ^ 240 + 2 ^ 224))).issues 0 2 = true ∧ vLens 1 1 4 {} = some (4, 4, 0, 4)
    ∧ (readyFor (recWith 2 (2 ^ 240 + 2 ^ 224))).badRef 0 [(rRef (recWith 2 (2 ^ 240 + 2 ^ 224)) 198, 4), (rRef (recWith 2 (2 ^ 240 + 2 ^ 224)) 126, 4)] = none := by
  decide

theorem witness_rotateStepRuns : (readyFor (recWith 3 (2 ^ 244 + 2 ^ 157))).issues 0 3 = true
    ∧ (readyFor (recWith 3 (2 ^ 244 + 2 ^ 157))).badRef 0 [(rRef (recWith 3 (2 ^ 244 + 2 ^ 157)) 220, 8), (rRef (recWith 3 (2 ^ 244 + 2 ^ 157)) 196, 8)] = none := by
  decide

theorem witness_requantStepRuns : (readyFor (recWith 4 (2 ^ 132))).issues 0 4 = true
    ∧ (readyFor (recWith 4 (2 ^ 132))).badRef 0 [(rRef (recWith 4 (2 ^ 132)) 172, 1), (rRef (recWith 4 (2 ^ 132)) 148, 4)] = none := by
  decide

theorem witness_syncStepsRun : (readyFor (recWith 5 0)).issues 0 5 = true ∧ (Ring.submit {} 0 false).isSome = true ∧ (Ring.submit {} 1 false).isNone = true
    ∧ (readyFor (recWith 6 0)).issues 0 6 = true ∧ (readyFor (recWith 7 (2 ^ 188))).issues 0 7 = true ∧ (readyFor (recWith 8 0)).issues 0 8 = true
    ∧ (readyFor (recWith 9 0)).issues 0 9 = true ∧ rf (recWith 9 0) 203 203 ≠ 1
    ∧ signed 64 (unsigned 64 (signed 48 (rf (recWith 7 (2 ^ 188)) 235 188) + (rf (recWith 7 (2 ^ 188)) 187 172 * 0 : Nat))) = 1 := by
  decide

theorem witness_syncStepsOnCounters : ∃ s : State, s.physOf 0 0 = some 5 ∧ (s.counter 5).orphaned = false ∧ (s.counter 5).value = 0 ∧ s.usedAt (homeOf 5) < 1024 :=
  ⟨{ sync := { table := [(0, 6)] } }, by decide⟩

theorem witness_stalledAndDone :
    (∃ s : State, (s.thread 0).state = .stalled ∧ (s.thread 0).waits = .codebook
      ∧ (s.engine (s.physEngine (0 / 16) (mmRec (s.recordOf 0)).engine)).cbLoading.contains (mmRec (s.recordOf 0)).slot = false)
    ∧ (∃ s : State, (s.thread 0).state = .stalled ∧ (s.thread 0).waits = .ring ∧ (s.thread 0).catchUp = false)
    ∧ ∃ s : State, (s.thread 0).state = .running ∧ (s.thread 0).done = true ∧ (s.ctx (s.thread 0).ctx).live = true ∧ rEnd (s.recordOf 0) = false :=
  ⟨⟨{ threads := [(0, { state := .stalled, waits := .codebook })] }, by decide⟩, ⟨{ threads := [(0, { state := .stalled, waits := .ring })] }, by decide⟩,
   ⟨{ threads := [(0, { state := .running, done := true })], ctxs := [(0, { state := .running })] }, by decide⟩⟩

theorem witness_loadsAndReadingsEnd :
    (∃ s : State, (s.engine 9).load = some { plane := 3, fromCore := false, addr := 0 })
    ∧ (∃ s : State, (s.engine 9).cbLoading.contains 3 = true ∧ s.slotBusy 9 3 = false)
    ∧ (∃ (s : State) (f : PlaneFile), (s.engine 2303).fileOf 15 = some f ∧ ((s.engine 2303).reading 15 31).due = [(1024, 100, 3)] ∧ f.vmax ≠ 0
      ∧ gainRefused f (readingValues f (1024, 100, 3)).1 = true)
    ∧ ∃ (s : State) (f : PlaneFile), (s.engine 2303).fileOf 15 = some f ∧ ((s.engine 2303).reading 15 31).due = [(1024, 0, 0)] ∧ f.vmax ≠ 0
      ∧ gainRefused f (readingValues f (1024, 0, 0)).1 = false :=
  ⟨⟨{ engines := [(9, { load := some { plane := 3, fromCore := false, addr := 0 } })] }, rfl⟩, ⟨{ engines := [(9, { cbLoading := [3] })] }, by decide⟩,
   ⟨{ engines := [(2303, { active := some 15, activeFile := { setting := 512 }, readings := [(32 * 15 + 31, { due := [(1024, 100, 3)] })] })] }, { setting := 512 }, by decide⟩,
   ⟨{ engines := [(2303, { active := some 15, activeFile := { setting := 512 }, readings := [(32 * 15 + 31, { due := [(1024, 0, 0)] })] })] }, { setting := 512 }, by decide⟩⟩

theorem witness_counterEventsTakeEffect :
    (∃ (s : State) (g : Signal), s.sync.signals[1]? = some g ∧ (s.sync.signals.take 1).any (fun e => decide (e.ctx = g.ctx ∧ e.id = g.id)) = false
      ∧ s.physOf g.ctx g.id = some 16383 ∧ s.homeUp 16383 = true ∧ (s.counter 16383).orphaned = false ∧ 2 ^ 64 - 1 < (s.counter 16383).value + g.delta)
    ∧ (∃ (s : State) (g : Signal), s.sync.signals[0]? = some g ∧ g.from_ = none ∧ s.physOf g.ctx g.id = none)
    ∧ (∃ (s : State) (m : ReleaseMsg), s.sync.releases[0]? = some m)
    ∧ (∃ s : State, s.sync.woken.contains 0 = true ∧ s.coreUp 0 = true ∧ (s.thread 0).state = .sleeping ∧ (s.thread 0).wstat = 0 ∧ (s.thread 0).catchUp = false
      ∧ (s.ctx (s.thread 0).ctx).live = true ∧ rEnd (s.recordOf 0) = false)
    ∧ (∃ (s : State) (p : Nat) (w : Compare), s.sync.blocked[0]? = some (p, w) ∧ s.homeUp p = true ∧ (s.counter p).orphaned = false ∧ (s.counter p).value < w.expect ∧ s.usedAt (homeOf p) < 1024)
    ∧ (∃ (s : State) (p : Nat) (w : Compare), s.sync.blocked[0]? = some (p, w) ∧ s.homeUp p = true ∧ (s.counter p).orphaned = false ∧ w.expect ≤ (s.counter p).value ∧ w.who = .thread 7)
    ∧ ∃ s : State, s.isReady = true ∧ (s.ctx 0).live = true ∧ s.idle 0 = false ∧ (s.ctx 0).alive + 1000 * (s.ctx 0).wdog ≤ s.life.now ∧ (s.ctx 0).stopReq = none :=
  ⟨⟨{ doms := [(95, .on)], sync := { signals := [{ who := 0, ctx := 0, id := 1, delta := 1 }, { who := 0, ctx := 0, id := 2, delta := 1 }], table := [(2, 16384)], counters := [(16383, { value := 2 ^ 64 - 1 })] } },
     { who := 0, ctx := 0, id := 2, delta := 1 }, by decide⟩,
   ⟨{ sync := { signals := [{ who := 0, ctx := 0, id := 1, delta := 1 }] } }, { who := 0, ctx := 0, id := 1, delta := 1 }, by decide⟩,
   ⟨{ sync := { releases := [{ cluster := 0, phys := 0, value := 0 }] } }, { cluster := 0, phys := 0, value := 0 }, rfl⟩,
   ⟨{ readyFor (recWith 7 0) with threads := [(0, { state := .sleeping })], sync := { woken := [0] } }, by decide⟩,
   ⟨{ doms := [(64, .on)], sync := { blocked := [(3, { who := .thread 7, expect := 4 })] } }, 3, { who := .thread 7, expect := 4 }, by decide⟩,
   ⟨{ doms := [(64, .on)], sync := { blocked := [(3, { who := .thread 7, expect := 4 })], counters := [(3, { value := 4 })] } }, 3, { who := .thread 7, expect := 4 }, by decide⟩,
   ⟨{ readyFor (recWith 7 0) with life := { (readyFor (recWith 7 0)).life with now := 10 ^ 9 } }, by decide⟩⟩

theorem witness_shuttleDescriptorsMove :
    (∃ s : State, (s.ring 64).state = 1 ∧ 0 < (s.ring 64).elig ∧ dFence (s.ring 64).headDesc = true ∧ (s.ring 64).inflight ≠ 0)
    ∧ (∃ (s : State) (f : Flight), s.chunkFlight 3 = some 0 ∧ (s.channel 3)[0]? = some f ∧ dDtier f.desc ≠ 6 ∧ dMode f.desc = 2 ∧ f.rivals = [])
    ∧ (∃ (s : State) (f : Flight), (s.channel 3).findIdx? (fun f => decide (dTotal f.desc ≤ f.moved) && f.outstanding == 0) = some 0 ∧ (s.channel 3)[0]? = some f) :=
  ⟨⟨{ rings := [(64, { state := 1, elig := 1, inflight := 1, descs := [BitVec.ofNat 512 (2 ^ 509)] })] }, by decide +kernel⟩,
   ⟨{ channels := [(3, [{ ring := 0, desc := BitVec.ofNat 512 (2 ^ 511 + 2 ^ 496 + 2 ^ 328 + 2 ^ 304) }])] },
     { ring := 0, desc := BitVec.ofNat 512 (2 ^ 511 + 2 ^ 496 + 2 ^ 328 + 2 ^ 304) }, by decide +kernel⟩,
   ⟨{ channels := [(3, [{ ring := 0, desc := 0 }])] }, { ring := 0, desc := 0 }, by decide +kernel⟩⟩

theorem witness_periodReleases : ∃ s : State, s.isReady = true ∧ s.standalone = true ∧ s.periodReady = true ∧ (s.ctx 0).state = .waiting ∧ s.idle 0 = true
    ∧ s.watch.mandatory = false ∧ s.swapDue s.nextPeriod = false ∧ s.watch.short = none ∧ s.watch.rebase = false ∧ s.watch.zeroDue = false ∧ (s.ctx 0).poisoned = false
    ∧ (s.ctx 0).stopReq = none ∧ (s.ctx 0).pendPt = none ∧ (s.ctx 0).pendAllow = none ∧ (s.ctx 0).pendRint = none ∧ s.upk.replan = none
    ∧ (∀ e, e ∈ s.ctxs → e.2.shedQ = false) ∧ s.projectedLive 2 ≤ s.inForce ∧ 0 ∈ s.threadsOf 0 :=
  ⟨{ life := { phase := .ready }, ctxs := [(0, { state := .waiting, pt := 1 })], threads := [(0, { state := .boundary })]
     hist := { cap := 1, slots := [(0, { no := 0, flags := 0, written := true })], appended := 1 } }, by decide +kernel⟩

theorem witness_completionReleaseAndPass :
    (∃ s : State, s.isReady = true ∧ s.standalone = true ∧ s.pack.handover = none ∧ s.watch.mandatory = true ∧ (s.ctx 0).live = true ∧ s.mandatoryDone = true
      ∧ (s.skipGaps s.watch.len).watch.len ≤ (s.skipGaps s.watch.len).watch.evaluated ∧ (s.skipGaps s.watch.len).isLate = false)
    ∧ (∃ (s : State) (p : Pass), s.isReady = true ∧ (s.ctx 1).live = true ∧ s.idle 1 = true ∧ (s.ctx 1).stopReq = none ∧ (s.ctx 1).poisoned = false
      ∧ (s.ctx 1).pass = some p ∧ p.cancel = false ∧ s.watchStill = false ∧ s.supply.stopped.contains 1 = false ∧ 5 ∈ s.threadsOf 1)
    ∧ ∃ (s : State) (p : PendPass), s.isReady = true ∧ s.solo = true ∧ s.passReady 1 = some p
      ∧ s.heldNos.any (fun n => decide (max p.first (s.oldestNo.getD s.hist.appended) ≤ n ∧ n ≤ p.last)) = true :=
  ⟨⟨{ life := { phase := .ready }, ctxs := [(0, { state := .running })], watch := { mandatory := true, len := 1, evaluated := 1, deadline := 3 } }, by decide +kernel⟩,
   ⟨{ life := { phase := .ready }, ctxs := [(0, { state := .waiting }), (1, { state := .waiting, pass := some { no := 1, first := 0, last := some 3, next := 0, segFirst := 0 } })]
      threads := [(5, { state := .boundary, ctx := 1 })] }, { no := 1, first := 0, last := some 3, next := 0, segFirst := 0 }, by decide +kernel⟩,
   ⟨{ life := { phase := .ready }, ctxs := [(1, { state := .waiting, pend := some { no := 1, first := 0, last := 0, sfirst := 0, slast := 0 } })]
      hist := { cap := 1, slots := [(0, { no := 0, flags := 0, written := true })], appended := 1 } }, { no := 1, first := 0, last := 0, sfirst := 0, slast := 0 }, by decide +kernel⟩⟩

/-- A state whose slot 5 feeds the reference input of an image in force while ingest runs from index 0. -/
def slotFive (src : Source) : State :=
  { life := { phase := .ready }, doms := [(106, .on)], ing := { running := true, s0 := some 0, slots := [(5, { cfg := some { ports := 1, source := src, input := 0 }, unread := some 0 })] }
    img := { good := true, active := some 0, slot0 := { image := some { inputs := [{ rate := 16000, width := 8 }] } } } }

theorem witness_streamFramesAreFiled :
    (slotFive (.frame 0 0 0 9)).portPower 0 = true
    ∧ portTakes ((slotFive (.frame 0 0 0 9)).portCfg 0) ({ streamId := 9, samples := [3], count := 1 } : StreamFrame).env true = .take
    ∧ (slotFive (.frame 0 0 0 9)).slotOf 0 { streamId := 9, samples := [3], count := 1 } = some 5
    ∧ ({ streamId := 9, samples := [3], count := 1 } : StreamFrame).good { ports := 1, source := .frame 0 0 0 9, input := 0 } = true
    ∧ HasRoom (slotFive (.frame 0 0 0 9)) 5 { ports := 1, source := .frame 0 0 0 9, input := 0 } 0 1 := by
  refine ⟨by decide, by decide, by decide, by decide, by decide, rfl, by decide, rfl, ⟨0, by decide⟩, by decide⟩

theorem witness_sampledValuesAreFiled :
    (slotFive (.sv 1 0x4000 0 0 [])).portPower 0 = true
    ∧ portTakes ((slotFive (.sv 1 0x4000 0 0 [])).portCfg 0) ({ dmac := 1, asdus := [{ elements := [(7, 0)] }] } : SvFrame).env false = .take
    ∧ svStep ((slotFive (.sv 1 0x4000 0 0 [])).slot 5).svIndex 2 ((slotFive (.sv 1 0x4000 0 0 [])).ownRw 5 1024) 0 = (0, false)
    ∧ HasRoom (slotFive (.sv 1 0x4000 0 0 [])) 5 { ports := 1, source := .sv 1 0x4000 0 0 [], input := 0 } 0 1 := by
  refine ⟨by decide, by decide, by decide, by decide, rfl, by decide, rfl, ⟨0, by decide⟩, by decide⟩

theorem witness_spillAndTimers :
    (∃ (s : State) (c : SlotCfg), (s.slot 5).cfg = some c ∧ s.consuming 5 = true ∧ (s.slot 5).unread.isSome = true ∧ s.life.phase = .ready
      ∧ 3 * c.cap < 4 * ((s.slot 5).high.getD 0 - (s.slot 5).unread.getD 0 - (s.slot 5).spilled) ∧ (s.slot 5).spilled + c.cap / 4 ≤ c.spillCap
      ∧ (s.slot 5).cfg.isSome = true ∧ s.portsUp = true ∧ (s.ing.slots.map Prod.fst).Nodup ∧ (rateError c.nomrate (s.slot 5).rateCount).2 = true) :=
  ⟨{ slotFive (.frame 0 0 0 9) with ing := { running := true, s0 := some 0, slots := [(5, { cfg := some { ports := 1, input := 0, nomrate := 16000 }, unread := some 0, high := some 40000 })] } },
   { ports := 1, input := 0, nomrate := 16000 }, by decide +kernel⟩

/-- The state of `slotFive` with one sample there, room for tokens, and both Filet regions on. -/
def tokenReady : State :=
  { life := { phase := .ready }, doms := [(64, .on), (65, .on)], hist := { cap := 16, width := 8 }
    ing := { running := true, s0 := some 0, slots := [(5, { cfg := some { ports := 1, input := 0 }, unread := some 0, high := some 4096, ring := (List.range 8).map (fun i => (i, ((1 : Int), 0))) })] }
    img := { good := true, active := some 0, slot0 := { image := some { inputs := [{ rate := 16000, width := 8 }] } } } }

theorem witness_tokenForms : ∃ (i : Image) (o : Nat), tokenReady.image = some i ∧ tokenReady.ing.s0 = some o ∧ tokenReady.fwUp = true ∧ tokenReady.solo = true
    ∧ tokenReady.ing.running = true ∧ tokenReady.ing.feOk = true ∧ tokenReady.tokenSpan ≠ 0 ∧ (tokenReady.inputsInOrder i).length = i.inputs.length
    ∧ tokenReady.inputsInOrder i ≠ [] ∧ (tokenReady.inputsInOrder i).all (tokenReady.patchFinal (o + tokenReady.ing.nextToken * tokenReady.tokenSpan)) = true
    ∧ tokenReady.domOn (.clusterCommon 0) = true ∧ tokenReady.domOn (.clusterCommon 1) = true ∧ tokenReady.hist.cap ≠ 0 :=
  ⟨{ inputs := [{ rate := 16000, width := 8 }] }, 0, by decide +kernel⟩

theorem witness_filetFunctionRuns : ∃ (s : State) (f : FiletFn), (s.image.bind (fun i => i.functions[0]?)) = some f ∧ s.filetCtx f = some 0 ∧ s.domOn (.clusterCommon f.region) = true :=
  ⟨{ doms := [(64, .on)], ctxs := [(0, { state := .running })], sync := { table := [(0, 1), (1, 2)], counters := [(0, { value := 1 })] }
     img := { good := true, active := some 0, slot0 := { image := some { functions := [{ inCtr := 0, outCtr := 1 }] } } } }, { inCtr := 0, outCtr := 1 }, by decide +kernel⟩

/-- A command as it waits in a ring. -/
def asking (op ctx : Nat) (tlvs : List Tlv) : Packet := { opcode := op, ctx := ctx, seq := 0, tlvs := tlvs, offs := (List.range tlvs.length).map (24 + 8 * ·), plen := 8 * tlvs.length }

/-- A Service session with that one command in its ring. -/
def askSession (p : Packet) : Session := { role := 3, port := 4, ring := [p], nextSeq := 0 }

/-- A Ready module with that one session. -/
def askedWith (p : Packet) (s : State) : State :=
  { s with life := { s.life with phase := .ready }, comms := { s.comms with sessions := [(0, some (askSession p))] } }

theorem witness_readsAreAsked :
    ∀ p, p ∈ [asking 0x0101 0xFFFF [], asking 0x0102 0xFFFF [], asking 0x0104 0xFFFF [], asking 0x0702 0xFFFF [], asking 0x0802 0xFFFF [], asking 0x0A01 0xFFFF [],
      asking 0x0103 0xFFFF [(1, be 4 (locCore 0)), (2, be 1 0)], asking 0x0103 0xFFFF [(1, be 4 (locCluster 0)), (2, be 1 1)],
      asking 0x0103 0xFFFF [(1, be 4 (locEngine 0)), (2, be 1 3)], asking 0x0103 0xFFFF [(1, be 4 (locEngine 0)), (2, be 1 4)],
      asking 0x0105 0xFFFF [(1, be 4 (locCore 1))], asking 0x0105 0xFFFF [(1, be 4 1)], asking 0x0A02 0xFFFF [(1, be 4 (locPlane 1 1))], asking 0x0A02 0xFFFF [(1, be 4 1)]] →
      Asks (askedWith p {}) p.opcode 0 (askSession p) p := by
  unfold Asks
  decide +kernel

theorem witness_readsNameAUnit :
    locOk ((asking 0x0103 0xFFFF [(1, be 4 (locCore 0)), (2, be 1 0)]).num 1) 4 = true ∧ locOk ((asking 0x0103 0xFFFF [(1, be 4 (locCluster 0)), (2, be 1 1)]).num 1) 2 = true
    ∧ locOk ((asking 0x0103 0xFFFF [(1, be 4 (locEngine 0)), (2, be 1 3)]).num 1) 5 = true ∧ locOk ((asking 0x0105 0xFFFF [(1, be 4 1)]).num 1) 4 = false
    ∧ locOk ((asking 0x0105 0xFFFF [(1, be 4 (locCore 1))]).num 1) 4 = true
    ∧ locOk ((asking 0x0A02 0xFFFF [(1, be 4 (locPlane 1 1))]).num 1) 6 = true ∧ locOk ((asking 0x0A02 0xFFFF [(1, be 4 1)]).num 1) 6 = false := by
  decide +kernel

/-- A module whose watch member has one requantisation point with two channels. -/
def onePoint : State :=
  { img := { good := true, active := some 0, slot0 := { state := 1, image := some { watch := some { points := [{ channels := 2 }] } } } } }

theorem witness_clipReadFindsItsPoint :
    (∀ p, p ∈ [asking 0x0106 0 [(1, be 2 0), (2, be 2 1), (3, be 2 4)], asking 0x0106 0 [(1, be 2 0), (2, be 2 2), (3, be 2 4)],
        asking 0x0106 0 [(1, be 2 1), (2, be 2 0), (3, be 2 4)]] →
      Asks (askedWith p onePoint) 0x0106 0 (askSession p) p ∧ (askedWith p onePoint).member p.ctx = some { points := [{ channels := 2 }] })
    ∧ (({ points := [{ channels := 2 }] } : Member).points.find? (fun q => decide (q.point = (asking 0x0106 0 [(1, be 2 0), (2, be 2 1), (3, be 2 4)]).num 1))).isSome = true
    ∧ (({ points := [{ channels := 2 }] } : Member).points.find? (fun q => decide (q.point = (asking 0x0106 0 [(1, be 2 1), (2, be 2 0), (3, be 2 4)]).num 1))).isSome = false := by
  unfold Asks
  decide +kernel

theorem witness_imageSlotContextReads :
    (∀ p, p ∈ [asking 0x0204 0xFFFF [], asking 0x0206 0xFFFF [], asking 0x0207 0xFFFF [(1, be 1 0)], asking 0x0207 0xFFFF [(1, be 1 1)],
        asking 0x0302 0xFFFF [(1, be 1 31)], asking 0x0302 0xFFFF [(1, be 1 32)], asking 0x0302 0xFFFF [(1, be 1 0)], asking 0x0305 0xFFFF [(1, be 1 5)], asking 0x0305 0xFFFF [(1, be 1 6)],
        asking 0x0306 0xFFFF [(1, be 1 31)], asking 0x0306 0xFFFF [(1, be 1 32)], asking 0x0404 0 [(1, be 1 1)], asking 0x0407 0 []] →
      ∀ s, s ∈ [onePoint, { onePoint with img := { onePoint.img with swap := some { phase := 3, slot := 1 } }, ing := { slots := [(0, { cfg := some { source := .frame 0 0 0 0 } })] } }] →
      Asks (askedWith p s) p.opcode 0 (askSession p) p)
    ∧ (asking 0x0302 0xFFFF [(1, be 1 31)]).num 1 = 31 ∧ (asking 0x0302 0xFFFF [(1, be 1 32)]).num 1 = 32 ∧ (asking 0x0302 0xFFFF [(1, be 1 0)]).num 1 = 0
    ∧ ((askedWith (asking 0x0207 0xFFFF [(1, be 1 0)]) onePoint).image.bind (fun i => if (asking 0x0207 0xFFFF [(1, be 1 0)]).num 1 = 0 then i.watch else none)).isSome = true
    ∧ onePoint.slot 31 = {} := by
  unfold Asks
  decide +kernel

/-- A module that holds a result record and an exported counter. -/
def oneResult : State :=
  { results := [{ ctx := 1, resno := 0 }], sync := { counters := [(5, { bound := true, owner := 0, localId := 2 })], table := [(2, 6)], exports := [(2, 1)] } }

theorem witness_resultCounterLogTrustReads :
    (∀ p, p ∈ [asking 0x0501 1 [(1, be 8 0), (2, be 4 63)], asking 0x0501 1 [(1, be 8 0), (2, be 4 64)], asking 0x0501 1 [(1, be 8 1), (2, be 4 0)], asking 0x0504 0xFFFF [],
        asking 0x0602 0 [(1, be 2 2)], asking 0x0602 0 [(1, be 2 3)], asking 0x0602 0 [(1, be 2 4096)], asking 0x0602 0xFFFF [(2, be 2 16383)],
        asking 0x0602 0xFFFF [(2, be 2 16384)], asking 0x0607 0 [], asking 0x0901 0xFFFF [], asking 0x0903 0xFFFF [(1, be 8 0)], asking 0x0B01 0xFFFF [(1, be 32 0)],
        asking 0x0B02 0xFFFF [(1, be 4 0)], asking 0x0B03 0xFFFF [], asking 0x0C05 0xFFFF [], asking 0x0008 0xFFFF [], asking 0x0004 0xFFFF []] →
      Asks (askedWith p oneResult) p.opcode 0 (askSession p) p)
    ∧ oneResult.physOf 0 2 = some 5 ∧ oneResult.exported 0 2 = true ∧ oneResult.physOf 0 3 = none
    ∧ (asking 0x0602 0 [(1, be 2 4096)]).num? 1 = some 4096 ∧ (asking 0x0602 0xFFFF [(2, be 2 16384)]).num? 2 = some 16384 ∧ (asking 0x0602 0 [(1, be 2 2)]).num? 1 = some 2
    ∧ (oneResult.results.find? (fun r => decide (r.ctx = 1 ∧ r.resno = (asking 0x0501 1 [(1, be 8 0), (2, be 4 63)]).num 1))).isSome = true
    ∧ (({} : ResultRec).len = 64) := by
  unfold Asks
  decide +kernel

/-- A module with an image in force and another loaded. -/
def twoImages : State :=
  { life := { phase := .ready }, img := { good := true, active := some 0, slot0 := { state := 1, image := some {} }, slot1 := { state := 2, image := some {} } } }

theorem witness_imageCommandsAreAsked :
    (∀ p, p ∈ [asking 0x0201 0xFFFF [(1, be 8 1)], asking 0x0201 0xFFFF [(1, be 8 0)], asking 0x0201 0xFFFF [(1, be 8 7449083905)], asking 0x0202 0xFFFF [(1, be 32 0)], asking 0x0203 0xFFFF [],
        asking 0x0205 0xFFFF []] → Asks (askedWith p twoImages) p.opcode 0 (askSession p) p)
    ∧ (asking 0x0201 0xFFFF [(1, be 8 7449083904)]).num 1 = 7449083904 ∧ twoImages.awayFits {} = true ∧ (twoImages.imgSlot twoImages.inactive).state = 2
    ∧ (twoImages.imgSlot twoImages.inactive).image = some {} ∧ twoImages.img.swap = none := by
  unfold Asks
  decide +kernel

theorem witness_imageEvents :
    (∃ (s : State) (f : Xfer), s.fwUp = true ∧ s.img.xfer = some f ∧ f.ending = some (0, 0) ∧ f.missing = top 64)
    ∧ (∃ (s : State) (w : Swap), s.solo = true ∧ s.img.swap = some w ∧ w.phase = 3 ∧ w.todo = [] ∧ s.upk.queue.any (fun x => decide (x.why = .swap) || x.newImage) = false)
    ∧ ∃ (s : State) (w : Swap), s.solo = true ∧ s.img.swap = some w ∧ w.slot ≤ 1 ∧ (s.imgSlot w.slot).image = some {} ∧ s.atSwapBoundary = true ∧ s.img.active = some (1 - w.slot) :=
  ⟨⟨{ twoImages with img := { twoImages.img with xfer := some { no := 1, length := 4, chunk := 8, got := [(0, 1)], ending := some (0, 0) } } },
      { no := 1, length := 4, chunk := 8, got := [(0, 1)], ending := some (0, 0) }, by decide +kernel⟩,
   ⟨{ twoImages with img := { twoImages.img with swap := some { phase := 3, slot := 1 } } }, { phase := 3, slot := 1 }, by decide +kernel⟩,
   ⟨{ twoImages with img := { twoImages.img with swap := some { phase := 5, slot := 1 } } }, { phase := 5, slot := 1 }, by decide +kernel⟩⟩

/-- SLOT_SET of slot 0 from UDP port 7 of stream port 0, unmapped. -/
def slotParams (n : Nat) : List Tlv :=
  [(1, be 1 n), (2, be 1 0), (3, be 1 1), (4, be 1 0 ++ be 1 0 ++ be 2 7 ++ be 16 0 ++ be 2 0 ++ be 2 0), (5, be 1 0x10), (7, be 4 16000), (9, be 1 63)]

theorem witness_streamSettingsAreAsked :
    (∀ p, p ∈ [asking 0x0301 0xFFFF (slotParams 0), asking 0x0301 0xFFFF (slotParams 32), asking 0x0303 0xFFFF [(1, be 1 31)], asking 0x0303 0xFFFF [(1, be 1 32)],
        asking 0x0304 0xFFFF [(1, be 1 0), (6, be 2 9000)], asking 0x0304 0xFFFF [(1, be 1 0), (6, be 2 9001)], asking 0x0304 0xFFFF [(1, be 1 6)],
        asking 0x0307 0xFFFF [(1, be 1 0), (2, be 8 0x8000000100)], asking 0x0307 0xFFFF [(1, be 1 0), (2, be 8 0x400)], asking 0x0307 0xFFFF [(1, be 1 32), (2, be 8 0)]] →
      Asks (askedWith p {}) p.opcode 0 (askSession p) p)
    ∧ (match slotAsked (asking 0x0301 0xFFFF (slotParams 0)) with | .ok c => decide (({} : State).slotClash 0 c = none) | .error _ => false) = true
    ∧ (match slotAsked (asking 0x0301 0xFFFF (slotParams 32)) with | .ok _ => false | .error ty => decide (ty = 1)) = true
    ∧ ({} : State).consuming 0 = false := by
  unfold Asks
  decide +kernel

theorem witness_portAndClearMasks :
    (asking 0x0304 0xFFFF [(1, be 1 0), (6, be 2 9000)]).tlvs.find? (fun t => !portFieldOk 0 t.1 t.2) = none
    ∧ (asking 0x0304 0xFFFF [(1, be 1 0), (6, be 2 9001)]).tlvs.find? (fun t => !portFieldOk 0 t.1 t.2) = some (6, be 2 9001)
    ∧ 0x8000000100 &&& 0x1FF000003FF = 0x8000000100 ∧ 0x400 &&& 0x1FF000003FF ≠ 0x400 := by
  decide +kernel

theorem witness_contextSettingsAreAsked :
    (∀ p, p ∈ [asking 0x0405 0 [(3, be 4 2)], asking 0x0405 0 [(3, be 4 0)], asking 0x0405 1 [(1, be 1 7)], asking 0x0406 1 [(1, be 2 4096)],
        asking 0x0406 1 [(1, be 2 4097)], asking 0x0701 0xFFFF [(1, be 2 60)], asking 0x0701 0xFFFF [(2, be 2 411)],
        asking 0x0801 0xFFFF [(1, be 8 5), (2, be 1 64), (3, be 1 63), (4, be 1 0)], asking 0x0801 0xFFFF [(1, be 8 5), (2, be 1 1), (3, be 1 1), (4, be 1 0)]] →
      Asks (askedWith p {}) p.opcode 0 (askSession p) p)
    ∧ (({} : State).ctx 0).setBad 0 (asking 0x0405 0 [(3, be 4 2)]) = none ∧ (({} : State).ctx 0).setBad 0 (asking 0x0405 0 [(3, be 4 0)]) = some 3
    ∧ (({} : State).ctx 1).setBad 1 (asking 0x0405 1 [(1, be 1 7)]) = none ∧ (({} : State).ctx 0).holds = false ∧ (({ state := .waiting } : Ctx).holds = true) := by
  unfold Asks
  decide +kernel

theorem witness_quotaBudgetAndPackRanges :
    ([1, 2, 3, 4, 5].find? (fun ty => decide (({} : State).quotaTotal ty < ((asking 0x0406 1 [(1, be 2 4096)]).num? ty).getD 0)) = none)
    ∧ ([1, 2, 3, 4, 5].find? (fun ty => decide (({} : State).quotaTotal ty < ((asking 0x0406 1 [(1, be 2 4097)]).num? ty).getD 0)) = some 1)
    ∧ (∀ ty, ty ∈ [1, 2, 3, 4, 5] → ((({} : State).ctx 1).quota.at_ ty < ((({} : State).ctx 1).quota.put (asking 0x0406 1 [(1, be 2 4096)])).at_ ty) →
        ({} : State).quotaSum 1 (fun y => y.at_ ty) + ((({} : State).ctx 1).quota.put (asking 0x0406 1 [(1, be 2 4096)])).at_ ty ≤ ({} : State).quotaTotal ty)
    ∧ (asking 0x0701 0xFFFF [(1, be 2 60)]).num? 1 = some 60 ∧ (asking 0x0701 0xFFFF [(2, be 2 411)]).num? 2 = some 411
    ∧ packBad 64 63 0 none = none ∧ packBad 1 1 0 none = some 3 := by
  decide +kernel

theorem witness_contextCommandsAreAsked :
    (∀ p, p ∈ [asking 0x0401 0 [], asking 0x0402 1 [], asking 0x0403 1 [], asking 0x0408 1 [(1, be 8 0), (2, be 8 5)], asking 0x0408 1 [(1, be 8 1), (2, be 8 0)],
        asking 0x0408 0 [(1, be 8 0), (2, be 8 0)], asking 0x0409 1 [], asking 0x0409 1 [(1, be 1 1)], asking 0x0409 1 [(1, be 1 2)], asking 0x0409 0 []] →
      Asks (askedWith p {}) p.opcode 0 (askSession p) p)
    ∧ ({} : State).solo = true := by
  unfold Asks
  decide +kernel

/-- A module whose watch member needs no more than it has. -/
def oneMember (budget : Nat) : State :=
  { img := { good := true, active := some 0, slot0 := { state := 1, image := some { watch := some { quota := { power := 400 }, drawW := 1 } } } },
    supply := { mainBudget := budget, holdupMj := 4920 } }

theorem witness_startsAndRuns :
    ((((askedWith (asking 0x0401 0 []) (oneMember 410)).taken 0 (asking 0x0401 0 [])).startCtx 0).1 = .ok)
    ∧ ((((askedWith (asking 0x0401 0 []) { oneMember 410 with ctxs := [(0, { state := .waiting })] }).taken 0 (asking 0x0401 0 [])).startCtx 0).1 = .busy)
    ∧ (∃ s : State, s.solo = true ∧ (s.ctx 1).live = true ∧ s.ing.s0.isSome = true ∧ (s.ctx 1).pend = none ∧ s.idle 1 = false
        ∧ ∃ r, s.runRange 0 5 = .ok r) := by
  refine ⟨by decide +kernel, by decide +kernel, ⟨{ ctxs := [(1, { state := .waiting })], threads := [(5, { state := .ready, ctx := 1 })], ing := { running := true, s0 := some 0 },
                                                    img := { good := true, active := some 0, slot0 := { state := 1, image := some { watch := some { } } } } }, ?_⟩⟩
  exact ⟨by decide +kernel, by decide +kernel, by decide +kernel, by decide +kernel, by decide +kernel, _, rfl⟩

theorem witness_subscriptionsAreAsked :
    (∀ p, p ∈ [asking 0x0502 1 [], asking 0x0503 1 [], asking 0x0505 0xFFFF [(1, be 12 1), (2, be 1 1)], asking 0x0505 0xFFFF [(1, be 12 (2 ^ 95)), (2, be 1 1)],
        asking 0x0505 0xFFFF [(1, be 12 1), (2, be 1 2)], asking 0x0506 0xFFFF [], asking 0x0006 0xFFFF [(1, be 4 1)], asking 0x0005 0xFFFF []] →
      Asks (askedWith p {}) p.opcode 0 (askSession p) p)
    ∧ (asking 0x0505 0xFFFF [(1, be 12 1), (2, be 1 1)]).num 1 &&& maskBits = 1 ∧ (asking 0x0505 0xFFFF [(1, be 12 (2 ^ 95)), (2, be 1 1)]).num 1 &&& maskBits ≠ 2 ^ 95
    ∧ (askedWith (asking 0x0502 1 []) {}).subsOf 0 < 64 := by
  unfold Asks
  decide +kernel

theorem witness_noSubscriptionLeft :
    64 ≤ ({ askedWith (asking 0x0502 0 []) {} with
      comms := { sessions := [(0, some { askSession (asking 0x0502 0 []) with results := (List.range 64).map (· + 1) })] } } : State).subsOf 0
    ∧ Asks { askedWith (asking 0x0502 0 []) {} with comms := { sessions := [(0, some { askSession (asking 0x0502 0 []) with results := (List.range 64).map (· + 1) })] } } 0x0502 0
      { askSession (asking 0x0502 0 []) with results := (List.range 64).map (· + 1) } (asking 0x0502 0 []) := by
  unfold Asks
  decide +kernel

/-- A module that holds a free counter 6 beside the exported counter 5 of context 0. -/
def counterFive : State :=
  { oneResult with ctxs := [(0, { state := .waiting, quota := { counters := 4 } })] }

theorem witness_counterCommandsAreAsked :
    (∀ p, p ∈ [asking 0x0601 0 [(1, be 2 2), (2, be 8 (2 ^ 64 - 1))], asking 0x0601 0 [(1, be 2 2), (2, be 8 0)], asking 0x0601 0 [(1, be 2 3), (2, be 8 1)],
        asking 0x0603 0 [(1, be 2 2), (2, be 8 5)], asking 0x0604 0xFFFF [(1, be 2 0)], asking 0x0605 0 [(1, be 2 7), (2, be 2 6)], asking 0x0605 0 [(1, be 2 7), (2, be 2 5)],
        asking 0x0606 0 [(1, be 2 2), (2, be 1 7)], asking 0x0606 0 [(1, be 2 2), (2, be 1 8)]] →
      Asks (askedWith p counterFive) p.opcode 0 (askSession p) p)
    ∧ counterFive.exportOf 0 2 = some 5 ∧ (counterFive.counter 5).orphaned = false ∧ counterFive.exportOf 0 3 = none ∧ counterFive.subsOf 0 < 64
    ∧ counterFive.armed (fun _ => true) < 2048 ∧ (counterFive.counter 6).bound = false ∧ counterFive.physOf 0 7 = none
    ∧ (counterFive.owned 0).length < (counterFive.ctx 0).quota.counters ∧ (counterFive.counter 5).bound = true := by
  unfold Asks
  decide +kernel

theorem witness_orphanedAndArmed :
    (∃ s : State, s.exportOf 0 2 = some 5 ∧ (s.counter 5).orphaned = true ∧ (s.counter 5).owner = 0 ∧ s.physOf 1 7 = none ∧ (s.owned 1).length < (s.ctx 1).quota.counters)
    ∧ ∃ (s : State) (c : Counter), s.sync.counters.find? (fun e => e.2.thresholds.any (fun t => t.sid == 0 && t.subId == 3)) = some (5, c) :=
  ⟨⟨{ counterFive with ctxs := [(1, { quota := { counters := 1 } })]
                       sync := { counterFive.sync with counters := [(5, { bound := true, orphaned := true, owner := 0, localId := 2 })] } }, by decide +kernel⟩,
   ⟨{ sync := { counters := [(5, { thresholds := [{ sid := 0, subId := 3, level := 9 }] })] } }, { thresholds := [{ sid := 0, subId := 3, level := 9 }] }, by decide +kernel⟩⟩

/-- A module in one handshake, whose messages 1 and 3 have arrived in one fragment each. -/
def inHandshake (session : Option Nat) : State :=
  { life := { phase := .ready }, trust := { anchors := [{ index := 0, kind := 0, role := 2 }] },
    comms := { handshakes := [{ hsid := 5, parts := [(1, 0, [1]), (3, 0, [2])], frags := 1, session := session }] } }

theorem witness_handshakes :
    ({} : State).hs 5 = none ∧ (inHandshake none).wake.portsUp = true ∧ ((inHandshake none).hs 5).isSome = true ∧ ((inHandshake none).hs 6).isSome = false
    ∧ ((inHandshake none).acceptsChain { anchor := some 0, count := 1 }).isSome = true ∧ ((inHandshake none).acceptsChain { anchor := some 1, count := 1 }).isSome = false
    ∧ (inHandshake none).freeSession = some 0 ∧ ((inHandshake (some 3)).hs 5).bind (fun h => h.session) = some 3
    ∧ ((inHandshake (some 3)).hs 5).bind (fun h => h.message 3) = some [2] ∧ ((inHandshake none).hs 5).bind (fun h => h.message 1) = some [1] := by
  decide +kernel

/-- The bytes of a KEEPALIVE packet with SEQ 0. -/
def keepalivePacket : List Byte := be 4 0x5350434D ++ be 1 1 ++ be 1 0 ++ be 2 4 ++ be 2 0xFFFF ++ be 2 0 ++ be 4 0 ++ be 4 0 ++ be 4 0

theorem witness_recordsAndTimers :
    (let s := askedWith (asking 0x0004 0xFFFF []) {}
     s.wake.portsUp = true ∧ (s.sess 0).isSome = true ∧ s.sess 1 = none ∧ s.comms.refusedTo.contains 7 = false)
    ∧ headerOk keepalivePacket = true ∧ isBulk keepalivePacket = false ∧ (cmdRow (readPacket keepalivePacket).opcode).isSome = true ∧ (readPacket keepalivePacket).seq = 0 := by
  decide +kernel

theorem witness_bulkFits :
    ∃ (s : State) (x : Session) (f : Xfer), s.sess 0 = some x ∧ x.bulk = (1, 0, [7, 8]) :: [] ∧ s.fwUp = true ∧ s.img.xfer = some f ∧ f.takes 1 0 2 = true :=
  ⟨{ life := { phase := .ready }, comms := { sessions := [(0, some { bulk := [(1, 0, [7, 8])] })] }, img := { xfer := some { no := 1, length := 2, chunk := 8 } } },
    { bulk := [(1, 0, [7, 8])] }, { no := 1, length := 2, chunk := 8 }, by decide +kernel⟩

theorem witness_serviceCommandsAreAsked :
    (∀ p, p ∈ [asking 0x0902 0xFFFF [(1, be 1 2), (2, be 4 1)], asking 0x0902 0xFFFF [(1, be 1 3), (2, be 4 1)], asking 0x0902 0xFFFF [(1, be 1 0), (2, be 4 (2 ^ 31))],
        asking 0x0A03 0xFFFF [(1, be 4 (locEngine 0))], asking 0x0A03 0xFFFF [(1, be 4 1)], asking 0x0A04 0xFFFF [(1, be 4 (locEngine 9))], asking 0x0A04 0xFFFF [(1, be 4 1)],
        asking 0x0A05 0xFFFF [(1, be 1 0), (2, be 8 4096)], asking 0x0A05 0xFFFF [(1, be 1 3), (2, be 8 0)], asking 0x0A05 0xFFFF [(1, be 1 0), (2, be 8 (2 ^ 63))],
        asking 0x0A05 0xFFFF [(1, be 1 1), (2, be 8 0)], asking 0x0A05 0xFFFF [(1, be 1 2), (2, be 8 (locEngine 0 * 2 ^ 32 + 8192))], asking 0x0A06 0xFFFF [],
        asking 0x0C04 0xFFFF [(1, be 1 1)], asking 0x0C04 0xFFFF [(1, be 1 2)]] →
      Asks (askedWith p {}) p.opcode 0 (askSession p) p)
    ∧ (1 &&& troubleBits 2 = 1) ∧ (2 ^ 31 &&& troubleBits 0 ≠ 2 ^ 31) ∧ sramUnit (locEngine 0) 8192 = some (locEngine 0, 65536) ∧ ({} : State).image = none
    ∧ locOk (locEngine 9) 5 = true ∧ locOk 1 5 = false := by
  unfold Asks
  decide +kernel

/-- A module whose engine 0 is a retired panel, and whose core has one active engine with erased planes. -/
def retiredPanel : State := { upk := { panels := [(0, { pstate := 3 })] } }

theorem witness_replanHasTargets :
    (retiredPanel.panel 0).pstate = 3 ∧ (retiredPanel.panel 0).replanned = false ∧ locToEngine (locEngine 0) = 0 ∧ 16 ≤ (retiredPanel.freePlanes 0).length := by
  decide +kernel

theorem witness_checkpointsWait :
    (∃ s : State, s.ckpt.timer = true ∧ s.watchRuns = true)
    ∧ (∃ s : State, s.ckpt.timer = true ∧ s.watchRuns = false ∧ s.statePoisoned 0 = false ∧ s.ckpt.staging = none)
    ∧ (∃ (s : State) (c : Ckpt), s.ckpt.timer = true ∧ s.watchRuns = false ∧ s.ckpt.staging = some c ∧ s.ckpt.due = false ∧ s.ckpt.restart = some .warm) :=
  ⟨⟨{ life := { phase := .ready }, ctxs := [(0, { state := .waiting })], ckpt := { timer := true } }, by decide +kernel⟩,
   ⟨{ ckpt := { timer := true } }, by decide +kernel⟩,
   ⟨{ ckpt := { timer := true, staging := some {}, restart := some .warm } }, {}, by decide +kernel⟩⟩

/-- A module with an anchor of each kind, two valid firmware banks and LOCK as given. -/
def anchored (lock : Nat) : State :=
  { trust := { anchors := [{ index := 0, kind := 0, role := 3, cert := [1] }, { index := 1, kind := 1, cert := [2] }, { index := 2, kind := 2, cert := [3] }] },
    opt := { shadow := { lock := lock } }, img := { bank0 := (1, {}), bank1 := (1, {}) } }

theorem witness_trustCommandsAreAsked :
    (∀ p, p ∈ [asking 0x0B04 0xFFFF [(1, be 1 0), (2, be 1 3), (3, [9])], asking 0x0B04 0xFFFF [(1, be 1 2), (3, [9])], asking 0x0B05 0xFFFF [(1, be 1 0)],
        asking 0x0B05 0xFFFF [(1, be 1 1)], asking 0x0B05 0xFFFF [(1, be 1 9)], asking 0x0B06 0xFFFF [(1, [5])], asking 0x0B06 0xFFFF [(1, [])],
        asking 0x0C01 0xFFFF [(1, be 8 (2 ^ 26))], asking 0x0C01 0xFFFF [(1, be 8 0)], asking 0x0C02 0xFFFF [(1, be 32 0)], asking 0x0C03 0xFFFF [(1, be 1 1)], asking 0x0C03 0xFFFF [(1, be 1 2)]] →
      ∀ lock, lock ∈ [0, 1] → Asks (askedWith p (anchored lock)) p.opcode 0 (askSession p) p)
    ∧ (((anchored 0).trust.ofKind 0).length < anchorMax 0) ∧ ((anchored 1).trust.ofKind 1).length ≤ 1
    ∧ ((anchored 0).trust.anchors.find? (fun a => a.index == 0)).map (·.kind) = some 0 ∧ ((anchored 0).img.bank 1).1 = 1 ∧ (anchored 0).life.bank ≤ 1 := by
  unfold Asks
  decide +kernel

theorem witness_firmwareEnds :
    ∃ (s : State) (f : Xfer), s.fwUp = true ∧ s.img.fwXfer = some f ∧ f.ending = some (0, 0) ∧ s.life.bank ≤ 1 ∧ f.missing = top 64 :=
  ⟨{ life := { phase := .ready }, img := { fwXfer := some { no := 1, length := 4, chunk := 8, got := [(0, 1)], ending := some (0, 0) } } },
    { no := 1, length := 4, chunk := 8, got := [(0, 1)], ending := some (0, 0) }, by decide +kernel⟩

theorem witness_optionCommandsAreAsked :
    (∀ p, p ∈ [asking 0x0C06 0xFFFF [(1, be 2 172), (2, be 2 410)], asking 0x0C06 0xFFFF [(1, be 2 177), (2, be 1 0)], asking 0x0C06 0xFFFF [(1, be 2 0), (2, be 1 0)],
        asking 0x0C07 0xFFFF [(1, be 1 0)], asking 0x0C07 0xFFFF [(1, be 1 2)]] → Asks (askedWith p (anchored 1)) p.opcode 0 (askSession p) p)
    ∧ (asking 0x0C06 0xFFFF [(1, be 2 172), (2, be 2 410)]).val 2 = some (be 2 410) ∧ ofBytes (be 2 410) = 410 ∧ ofBytes (be 1 0) < (anchored 1).opt.shadow.lock
    ∧ (match optField (anchored 1).opt.shadow 172 (be 2 410) with | .ok o => decide (o.mainBud = 410) | .error _ => false) = true := by
  unfold Asks
  decide +kernel

theorem witness_optionWriteEnds : ∃ (s : State) (v : OptCopy), s.opt.writing = some (1, v) ∧ s.opt.again = true :=
  ⟨{ opt := { writing := some (1, {}), again := true } }, {}, by decide +kernel⟩

/-- An unlocked Kennel of a Ready module. -/
def opened (s : State) : State := { s with life := { s.life with phase := .ready }, kennel := { state := .unlocked } }

theorem witness_kennelIsOpened :
    (opened oneResult).kennelUp = true ∧ (opened oneResult).kennel.state ≠ .locked ∧ (opened oneResult).physOf 0 2 = some 5 ∧ (opened oneResult).physOf 0 3 = none
    ∧ locOk (BitVec.ofNat 32 (locCore 3)).toNat 4 = true ∧ locOk (BitVec.ofNat 32 (locCluster 3)).toNat 2 = true ∧ locOk (BitVec.ofNat 32 (locEngine 3)).toNat 5 = true
    ∧ locOk (1 : BitVec 32).toNat 4 = false ∧ (opened {}).heard.rawBlock 1 64 = none ∧ ((opened {}).heard.rawBlock 1 63).isSome = true := by
  decide +kernel

theorem witness_kennelStates :
    (∃ s : State, s.kennelUp = true ∧ s.kennel.state = .locked ∧ s.kennel.lockout = false ∧ s.opt.shadow.lock = 0)
    ∧ (∃ s : State, s.kennelUp = true ∧ s.kennel.state = .locked ∧ s.kennel.lockout = false ∧ s.opt.shadow.lock ≠ 0 ∧ s.kennel.challenge = some (7, true) ∧ s.kennel.fails = 2
        ∧ (s.acceptsChain { anchor := some 0 }).map (·.role) = some 3 ∧ (s.acceptsChain { anchor := some 1 }) = none)
    ∧ ∃ s : State, s.kennelUp = true ∧ s.kennel.state = .service :=
  ⟨⟨{ life := { phase := .ready } }, by decide +kernel⟩,
   ⟨{ anchored 1 with life := { phase := .ready }, kennel := { challenge := some (7, true), fails := 2 } }, by decide +kernel⟩,
   ⟨{ life := { phase := .ready }, kennel := { state := .service } }, by decide +kernel⟩⟩

theorem witness_kennelChanges :
    (let s : State := { oneMember 410 with life := { phase := .ready }, kennel := { state := .service } }
     s.kennelUp = true ∧ s.isReady = true ∧ s.kennel.state = .service ∧ s.solo = true ∧ s.isLead = true ∧ ((s.heard.kennelCommit 6).startCtx 0).1 = .ok
      ∧ (s.ctx 0).state = .free ∧ s.mem.spares < 4096)
    ∧ (match ({} : State).anchorAdd 0 (some 3) [1] with | .ok _ => true | .error _ => false) = true
    ∧ (match ({} : State).anchorRemove 5 with | .ok _ => false | .error st => decide (st = .badParam)) = true
    ∧ (match (anchored 0).anchorRemove 0 with | .ok _ => true | .error _ => false) = true
    ∧ packBad 64 63 0 none = none ∧ portFieldOk 0 6 (be 2 9000) = true ∧ (1#32).toNat &&& troubleBits 0 = (1#32).toNat := by
  decide +kernel

theorem witness_bootSubset :
    (∃ s : State, s.kennelBoot = true ∧ s.kennel.state = .locked) ∧ (∃ s : State, s.kennelBoot = true ∧ s.kennel.state ≠ .locked) ∧ ∃ s : State, s.kennelUp = true :=
  ⟨⟨{ life := { phase := .bootHeld, cause := .noBank } }, by decide +kernel⟩,
   ⟨{ life := { phase := .bootHeld, cause := .noBank }, kennel := { state := .unlocked } }, by decide +kernel⟩,
   ⟨{ life := { phase := .ready } }, by decide +kernel⟩⟩

theorem witness_lastServiceAnchor :
    (anchored 1).opt.shadow.lock = 1 ∧ ((anchored 1).trust.anchors.find? (fun b => b.index == 0)).map (fun a => (a.kind, a.role)) = some (0, 3)
    ∧ ((anchored 1).trust.anchors.filter (fun b => decide (b.kind = 0 ∧ b.role = 3))).length ≤ 1
    ∧ Asks (askedWith (asking 0x0B05 0xFFFF [(1, be 1 0)]) (anchored 1)) 0x0B05 0 (askSession (asking 0x0B05 0xFFFF [(1, be 1 0)])) (asking 0x0B05 0xFFFF [(1, be 1 0)])
    ∧ (opened (anchored 1)).kennelUp = true ∧ (opened (anchored 1)).isReady = true := by
  unfold Asks
  decide +kernel

theorem witness_servicePort :
    (isLine .kennelUnlock = true) ∧ (∃ s : State, s.opt.shadow.svcEn ≠ 1)
    ∧ Asks (askedWith (asking 0x0C07 0xFFFF [(1, be 1 0)]) {}) 0x0C07 0 (askSession (asking 0x0C07 0xFFFF [(1, be 1 0)])) (asking 0x0C07 0xFFFF [(1, be 1 0)]) := by
  refine ⟨rfl, ⟨{ opt := { shadow := { svcEn := 0 } } }, by decide +kernel⟩, ?_⟩
  unfold Asks
  decide +kernel

theorem witness_nanAndInfinity :
    (val32 0x7FC00000).isNan = true ∧ val32 0x7F800000 = .inf false ∧ val32 0xFF800000 = .inf true ∧ flt 0 0x3F800000 = true ∧ (∀ n, val32 0x3F800000 ≠ .inf n)
    ∧ (coreConv (-8) 7 1 (fmul 0x7FC00000 0x3F800000).v).y = 1 ∧ (coreConv (-8) 7 1 (fmul 0xFF800000 0x3F800000).v).y = -8 := by
  refine ⟨by decide +kernel, by decide +kernel, by decide +kernel, by decide +kernel, ?_, by decide +kernel, by decide +kernel⟩
  intro n
  cases n <;> decide +kernel

theorem witness_adaptation :
    (∃ (u : UnitStat), u.total ≠ 0 ∧ u.total < u.clips * 1024) ∧ (∃ u : UnitStat, u.total = 0)
    ∧ (∃ (p : ReqPoint) (u : UnitStat) (x : UnitScale), u.total ≠ 0 ∧ u.clips = 0 ∧ (2 * u.peak : Int) < max ((p.zout : Int) - (outRange p.fmt).1) ((outRange p.fmt).2 - p.zout) ∧ x.downrun = 15 ∧ -16 ≤ x.exp ∧ x.exp ≤ 16) :=
  ⟨⟨{ unit := 0, total := 1, clips := 1 }, by decide⟩, ⟨{ unit := 0 }, rfl⟩, ⟨{}, { unit := 0, total := 1 }, { unit := 0, downrun := 15 }, by decide⟩⟩

/-- A Ready member at position 0 of a pack of two positions with `ports`. -/
def memberOf (ports : Tab PackPort) : State :=
  { life := { phase := .ready }
    opt := { loaded := { psize := 2 } }
    doms := [(105, .on)]
    pack := { ports := ports } }

theorem witness_packLinksTrain :
    (memberOf []).packUp = true ∧ portUsed 0 (memberOf []).optv.psize = true
    ∧ ((memberOf [(0, { state := 4 })]).pport 0).state ∈ [1, 4, 5]
    ∧ ((memberOf [(0, { state := 2 })]).pport 0).state = 2
    ∧ peerPos 0 0 2 = 1 ∧ (memberOf [(0, { state := 2 })]).helloConflict 0 1 = false
    ∧ (memberOf [(0, { state := 3 })]).portLive 0 = true ∧ ((memberOf [(0, { state := 3, owed := [(1, 4)] })]).pport 0).owed ≠ []
    ∧ ((memberOf [(0, { state := 3, replay := [({ lseq := 9 }, .idle, 0)] })]).pport 0).replay.findIdx? (fun r => decide (r.1.lseq = 9)) = some 0 := by
  decide +kernel

theorem witness_packFramesAreNumbered :
    (memberOf [(0, { state := 3, rxSeq := 7 })]).fwUp = true ∧ (memberOf [(0, { state := 3, rxSeq := 7 })]).portLive 0 = true
    ∧ (PackBody.tokenAck 3).cls ≠ 0 ∧ (PackBody.tokenAck 3).flooded = false ∧ (PackBody.leadClaim 1 1).flooded = true
    ∧ ((memberOf [(0, { state := 3, rxSeq := 7 })]).pport 0).rxSeq = 7 ∧ (memberOf []).optv.ppos = 0
    ∧ ((memberOf [(0, { state := 3, replay := [({ lseq := 9 }, .tokenAck 3, 14)] })]).pport 0).replay.findIdx? (fun r => decide (r.1.lseq = 9)) = some 0
    ∧ (∃ r, r ∈ ((memberOf [(0, { state := 3, replay := [({ lseq := 9 }, .tokenAck 3, 15)] })]).pport 0).replay.drop 0 ∧ 15 ≤ r.2.2)
    ∧ ((memberOf [(0, { state := 2 })]).pport 0).state ∈ [2, 3] := by
  refine ⟨by decide +kernel, by decide +kernel, by decide, by decide, by decide, by decide, by decide, by decide, ⟨({ lseq := 9 }, .tokenAck 3, 15), by decide, by decide⟩, by decide⟩

/-- A frame header of the peer at position 1, for context 0 and position 0. -/
def fromPeer : PackHdr := { src := 1 }

/-- A member with port A in use and one descriptor that writes to position 1 under way. -/
def writerMember : State :=
  { memberOf [(0, { state := 3 })] with
    channels := [(0, [{ ring := 3, ctx := 0, desc := BitVec.ofNat 512 (6 * 2 ^ 496 + 2 ^ 26 * 2 ^ 432), outstanding := 2 }])]
    threads := [(0, { state := .running, waits := .packFence, fence := [(1, 2)] })]
    ctxs := [(0, { state := .running })] }

theorem witness_remoteWritesAreTaken :
    (∃ u, (memberOf [(0, { state := 3 })]).recv 0 fromPeer (.write [1]) = .take u ∧ u.inBuffers 0 1 = false)
    ∧ (∃ (s u : State), s.recv 0 fromPeer (.write [1]) = .take u ∧ u.inBuffers imageBase 1 = true)
    ∧ (∃ u, writerMember.recv 0 fromPeer (.writeDone 2) = .take u)
    ∧ (∃ f, (writerMember.channel 0).findIdx? (fun f => decide (0 < f.outstanding)) = some 0 ∧ (writerMember.channel 0)[0]? = some f ∧ dDtier f.desc = 6
      ∧ dDunit f.desc / 2 ^ 26 = 1 ∧ 0 ∈ writerMember.fencing f.ctx ∧ f.wfrom < Tab.get 0 (writerMember.thread 0).fence (64 * f.ctx + dDunit f.desc / 2 ^ 26) ∧ (writerMember.ctx f.ctx).started = true ∧ (writerMember.ctx f.ctx).stopReq = none) :=
  ⟨⟨_, rfl, by decide +kernel⟩,
   ⟨{ memberOf [(0, { state := 3 })] with img := { good := true, active := some 0, slot0 := { image := some { imageArea := 4096 } } } }, _, rfl, by decide +kernel⟩,
   ⟨_, rfl⟩, ⟨_, by decide +kernel, rfl, by decide +kernel, by decide +kernel, by decide +kernel, by decide +kernel, by decide +kernel, by decide +kernel⟩⟩

theorem witness_packSignalsAreTaken :
    (∃ u, (memberOf [(0, { state := 3 })]).recv 0 fromPeer (.signal 5 1 true 0) = .take u)
    ∧ (∃ (s u : State), s.recv 0 fromPeer (.signal 5 1 false 1) = .take u ∧ s.physOf 0 5 = some 7 ∧ (s.counter 7).orphaned = false)
    ∧ (∃ u, (memberOf [(0, { state := 3 })]).recv 0 fromPeer (.release 5 3) = .take u)
    ∧ (∃ (s u : State), s.recv 0 fromPeer (.advisory 1 1 1 0) = .take u ∧ s.pack.live.testBit 1 = true ∧ Tab.get 0 s.io.packSeq 1 < 1)
    ∧ (∃ u, (memberOf [(0, { state := 3 })]).recv 0 fromPeer (.tally 1 [(0, 5, 9)]) = .take u ∧ (memberOf [(0, { state := 3 })]).leads = false)
    ∧ (∃ (s u : State), s.recv 0 fromPeer (.tally 1 [(0, 5, 9)]) = .take u ∧ s.leads = true ∧ s.physOf 0 5 = some 7) :=
  ⟨⟨_, rfl⟩, ⟨{ memberOf [(0, { state := 3 })] with sync := { table := [(5, 8)] } }, _, rfl, by decide, by decide⟩, ⟨_, rfl⟩,
   ⟨{ memberOf [] with pack := { ports := [(0, { state := 3 })], live := 3 } }, _, rfl, by decide, by decide⟩, ⟨_, rfl, by decide⟩,
   ⟨{ memberOf [] with sync := { table := [(5, 8)] }, pack := { ports := [(0, { state := 3 })], live := 3, hasLead := true } }, _, rfl, by decide, by decide⟩⟩

/-- The filling member of a pack of two, with the other position as source and a history of 32 records of 256 bytes. -/
def fillingMember : State :=
  { memberOf [] with
    pack := { ports := [(0, { state := 3 })], live := 3, hasLead := true, admitted := true, source := 1 }
    hist := { base := 4096, cap := 32, width := 256 }
    ing := { s0 := some 0 } }

theorem witness_tokensAreTaken :
    (∃ u, fillingMember.Takes 0 fromPeer (.token 0 0 [1]) u) ∧ fillingMember.pack.handover = none ∧ fillingMember.pack.fill = fillingMember.optv.ppos
    ∧ fillingMember.pack.admitted = true ∧ fillingMember.hist.cap ≠ 0 ∧ fillingMember.hist.nextSlot < fillingMember.hist.cap ∧ fillingMember.ing.s0 = some 0
    ∧ (0 - 0) % max 1 fillingMember.tokenSpan = 0 ∧ fillingMember.newest = none ∧ fillingMember.pack.source ≠ fillingMember.optv.ppos
    ∧ (∃ (s u : State) (x : HistSlot), s.Takes 0 fromPeer (.token 0 0 [1]) u ∧ s.newest = some x ∧ x.run = s.ing.run ∧ 0 ≤ x.sidx)
    ∧ (∃ u, (memberOf [(0, { state := 3 })]).Takes 0 fromPeer (.token 0 0 [1]) u ∧ (memberOf [(0, { state := 3 })]).pack.admitted = false)
    ∧ (∃ u, fillingMember.Takes 0 fromPeer (.tokenAck 7) u) :=
  ⟨⟨_, _, rfl, rfl⟩, by decide, by decide, by decide, by decide, by decide, by decide, by decide +kernel, by decide, by decide,
   ⟨{ fillingMember with hist := { base := 4096, cap := 32, width := 256, write := 1, slots := [(0, { flags := 0, written := true })] } }, _, { flags := 0, written := true },
     ⟨_, rfl, rfl⟩, by decide, by decide, by decide⟩,
   ⟨_, ⟨_, rfl, rfl⟩, by decide⟩, ⟨_, _, rfl, rfl⟩⟩

/-- The lead, at position 0, of a pack of three of which `live` are live. -/
def leadOf (live : Nat) : State :=
  { memberOf [] with opt := { loaded := { psize := 3 } }, pack := { ports := [(0, { state := 3, peer := 1 })], live := live, hasLead := true, admitted := true } }

theorem witness_membershipsAreHeard :
    (memberOf []).packUp = true ∧ (∃ s : State, s.packUp = true ∧ s.pack.hasLead = true ∧ s.pack.lead ≠ s.optv.ppos) ∧ (leadOf 7).packUp = true ∧ (leadOf 7).leads = true
    ∧ (leadOf 7).pack.gave = none ∧ (leadOf 7).pack.claim = none ∧ (leadOf 7).pack.prepAt = none ∧ (leadOf 7).img.swap = none
    ∧ (∃ u, (leadOf 7).recv 0 fromPeer (.memberHb 0 1 0 [] 0xFF none 0) = .take u) ∧ (leadOf 7).pack.live.testBit 1 = true ∧ (leadOf 5).pack.live.testBit 1 = false
    ∧ (∃ u, (leadOf 5).recv 0 fromPeer (.memberHb 0 1 0 [] 0xFF none 0) = .take u ∧ u.imageOf 1 = u.imageId) ∧ quorumOf 3 ((leadOf 5).livePos ++ [1]) = true
    ∧ (∃ (s u : State), s.recv 0 fromPeer (.memberHb 0 1 0 [] 0xFF none 0) = .take u ∧ s.leads = true ∧ s.pack.live.testBit 1 = false ∧ u.imageOf 1 ≠ u.imageId)
    ∧ (∃ (s u : State), s.recv 0 fromPeer (.memberHb 0 1 0 [] 0 none 0) = .take u ∧ s.leads = false ∧ s.pack.claim = some (1, []))
    ∧ (∃ u, (leadOf 0).recv 0 fromPeer (.leadHb 4 1 1 1 none 3 [] 2 0 []) = .take u) ∧ (leadOf 0).pack.epoch < 4 ∧ (3 : Nat).testBit (leadOf 0).optv.ppos = true
    ∧ quorumOf 3 ((leadOf 7).livePos.filter (· ≠ 1)) = true ∧ quorumOf 3 ((leadOf 3).livePos.filter (· ≠ 1)) = false := by
  refine ⟨by decide +kernel, ⟨{ memberOf [] with pack := { hasLead := true, lead := 1 } }, by decide +kernel⟩, by decide +kernel, by decide +kernel, by decide, by decide, by decide,
    by decide, ⟨_, rfl⟩, by decide, by decide, ⟨_, rfl, by decide +kernel⟩, by decide +kernel,
    ⟨{ leadOf 5 with pack := { ports := [(0, { state := 3, peer := 1, imageId := 9 })], live := 5, hasLead := true } }, _, rfl, by decide +kernel, by decide, by decide +kernel⟩,
    ⟨{ memberOf [] with pack := { ports := [(0, { state := 3 })], claim := some (1, []) } }, _, rfl, by decide +kernel, by decide⟩, ⟨_, rfl⟩, by decide, by decide, by decide +kernel, by decide +kernel⟩

/-- A member at position 0 of a pack of three in an election, with `claim` of its own. -/
def electing (claim : Option (Nat × List Nat)) : State :=
  { memberOf [] with opt := { loaded := { psize := 3 } }, pack := { ports := [(0, { state := 3, peer := 1 })], electing := true, claim := claim } }

theorem witness_electionsRun :
    (memberOf []).packUp = true ∧ (memberOf []).leads = false ∧ (memberOf []).pack.electing = false ∧ (electing none).packUp = true ∧ (electing none).pack.lowestClaim = none
    ∧ (∃ u, (electing none).recv 0 fromPeer (.leadClaim 1 1) = .take u) ∧ (electing none).pack.epoch < 1
    ∧ quorumOf 3 (0 :: []) = false ∧ (electing (some (1, [1]))).packUp = true ∧ quorumOf 3 (0 :: [1]) = true
    ∧ quorumOf 3 ((List.range 3).filter (fun p => decide (p = 0) || (([1].contains p || ((electing (some (1, [1]))).pack.live.testBit p && decide (p ≠ 0)))
        && ((electing (some (1, [1]))).pack.live.testBit p || decide ((electing (some (1, [1]))).imageOf p = (electing (some (1, [1]))).imageId))))) = true
    ∧ (memberOf []).pack.detached = false ∧ (memberOf []).pack.hasLead = false := by
  refine ⟨by decide +kernel, by decide +kernel, by decide, by decide +kernel, by decide, ⟨_, rfl⟩, by decide, by decide +kernel, by decide +kernel, by decide +kernel, by decide +kernel, by decide, by decide⟩

/-- A member at position 1 of a pack of three, with a pass of context 1 whose slot 1 is its own. -/
def inPass (p : PackPass) : State :=
  { memberOf [] with
    opt := { loaded := { psize := 3, ppos := 1 } }
    ctxs := [(1, { state := .waiting })]
    pack := { ports := [(0, { state := 3 })], live := 7, hasLead := true, admitted := true, passes := [p] } }

/-- A frame of context 1 for position 1. -/
def passHdr : PackHdr := { src := 0, dst := 1, ctx := 1 }

/-- A pass of context 1 over three slots. -/
def passOf : PackPass := { ctx := 1, pass := 1, epoch := 0, first := 0, last := 0, p0 := 0, n := 3, mine := [1] }

theorem witness_packPassesRun :
    (∃ u, (inPass passOf).recv 0 passHdr (.passStart 2 0 0 9 0 3 false) = .take u) ∧ (inPass passOf).isReady = true ∧ (inPass passOf).isLead = false ∧ (inPass passOf).solo = false
    ∧ (inPass { passOf with cur := some 1 }).pack.passes.find? (fun p => decide (p.cur = some 1) && ((inPass { passOf with cur := some 1 }).ctx p.ctx).pass.isNone
        && ((inPass { passOf with cur := some 1 }).ctx p.ctx).live && !p.pass1.contains 1) = some { passOf with cur := some 1 }
    ∧ (inPass passOf).packPass 1 = some passOf ∧ (∃ u, (inPass passOf).Takes 0 passHdr (.scanPrefix { pass := 1 } 0 false []) u)
    ∧ (∃ u, (inPass passOf).Takes 0 passHdr (.scanSuffix { pass := 1 } 2 false []) u) ∧ passOf.liveLeft 2 = some 1 ∧ passOf.liveLeft 1 ≠ some 1
    ∧ (∃ (s u : State), s.Takes 0 passHdr (.scanColumn { pass := 1 } 0 false []) u ∧ s.packPass 1 = some { passOf with mine := [8], n := 9 })
    ∧ (∃ u, (inPass passOf).Takes 0 passHdr (.halo { pass := 1 } 0 []) u)
    ∧ (inPass { passOf with pass1 := [1] }).pack.passes.find? (fun p => (inPass { passOf with pass1 := [1] }).replayReady p 1) = some { passOf with pass1 := [1] }
    ∧ (∃ (s u : State), s.recv 0 { dst := 0, ctx := 1 } (.passDone 1 1 0 0 0) = .take u ∧ s.isLead = true ∧ s.packPass 1 = some passOf
        ∧ s.passOver { passOf with done := passOf.done.filter (fun d => decide (d.1 ≠ 1)) ++ [(1, 0)] } = false)
    ∧ (∃ (s u : State), s.recv 0 { dst := 0, ctx := 1 } (.passDone 1 1 0 0 0) = .take u ∧ s.isLead = true ∧ s.packPass 1 = some passOf
        ∧ s.passOver { passOf with done := passOf.done.filter (fun d => decide (d.1 ≠ 1)) ++ [(1, 0)] } = true) := by
  refine ⟨⟨_, rfl⟩, by decide, by decide +kernel, by decide +kernel, by decide +kernel, by decide +kernel, ⟨_, _, rfl, rfl⟩, ⟨_, _, rfl, rfl⟩, by decide, by decide,
    ⟨inPass { passOf with mine := [8], n := 9 }, _, ⟨_, rfl, rfl⟩, by decide +kernel⟩, ⟨_, _, rfl, rfl⟩, by decide +kernel,
    ⟨{ leadOf 7 with pack := { ports := [(0, { state := 3 })], live := 7, hasLead := true, passes := [passOf] } }, _, rfl, by decide +kernel, by decide +kernel, by decide +kernel⟩,
    ⟨{ leadOf 7 with pack := { ports := [(0, { state := 3 })], live := 2, hasLead := true, passes := [passOf] } }, _, rfl, by decide +kernel, by decide +kernel, by decide +kernel⟩⟩

theorem witness_packRecordsTravel :
    (∃ u, (leadOf 7).Takes 0 fromPeer (.result {} 1 {}) u) ∧ (leadOf 7).leads = true ∧ (leadOf 7).packPass 0 = none ∧ (memberOf []).leads = false
    ∧ (∃ u, (leadOf 7).Takes 0 fromPeer (.result {} 4 {}) u) ∧ Tab.get 0 (leadOf 7).pack.rseen 1 = 0
    ∧ (∃ (s u : State), s.Takes 0 fromPeer (.result {} 1 { ctx := 1, pass := 1, member := 1 }) u ∧ s.leads = true ∧ s.packPass 1 = some passOf
        ∧ ({ u with pack := { u.pack with rseen := Tab.set 0 u.pack.rseen 1 1 } } : State).passOver passOf = false)
    ∧ (∃ u, (memberOf [(0, { state := 3 })]).Takes 0 fromPeer (.resend {} 8 1 1) u)
    ∧ (∃ s : State, s.pack.kept.filter (fun k => decide (1 ≤ k.1 ∧ k.1 ≤ 1)) = [(1, {})])
    ∧ (∃ (s : State) (x : Sent), s.pack.sent.filter (fun (x : Sent) => decide (x.dst = 1 ∧ x.type = 1 ∧ (5 ≤ 1 ∨ (x.ctx = 0 ∧ 0 ≤ x.layer ∧ x.layer ≤ 1)))) = [x])
    ∧ (∃ s : State, s.packUp = true ∧ s.awaiting[0]? = some (1, 0, 5, 0)) ∧ (memberOf []).awaiting[0]? = none
    ∧ (∃ u, (leadOf 7).Takes 0 fromPeer (.snapshot {} []) u) ∧ (leadOf 7).isLead = true
    ∧ (∃ u, (memberOf [(0, { state := 3 })]).Takes 0 fromPeer (.scaleSet {} []) u) := by
  refine ⟨⟨_, _, rfl, rfl⟩, by decide +kernel, by decide +kernel, by decide +kernel, ⟨_, _, rfl, rfl⟩, by decide,
    ⟨{ leadOf 7 with pack := { ports := [(0, { state := 3 })], live := 7, hasLead := true, passes := [passOf] } }, _, ⟨_, rfl, rfl⟩, by decide +kernel, by decide +kernel, by decide +kernel⟩,
    ⟨_, _, rfl, rfl⟩, ⟨{ pack := { kept := [(1, {})] } }, rfl⟩, ⟨{ pack := { sent := [{ dst := 1, type := 1, layer := 0, body := .idle, ctx := 0 }] } }, _, rfl⟩,
    ⟨{ memberOf [] with pack := { handover := some { period := 0, sidx := 0, from_ := 1, to_ := 0, placed := true } } }, by decide +kernel, by decide +kernel⟩, by decide +kernel,
    ⟨_, _, rfl, rfl⟩, by decide +kernel, ⟨_, _, rfl, rfl⟩⟩

/-- A member at position 0 of a pack of two, filled and fed by position 1, with a watch member in force. -/
def nextFiller (r : Option HandoverRun) : State :=
  { memberOf [] with
    img := { good := true, active := some 0, slot0 := { image := some { watch := some {} } } }
    pack := { ports := [(0, { state := 3 })], live := 3, hasLead := true, lead := 1, admitted := true, source := 1, fill := 1, handover := r } }

/-- The same with a swap to the image of slot 1, of identifier 9, in phase `phase`. -/
def swapping (phase : Nat) : State :=
  { nextFiller none with
    img := { good := true, active := some 0, slot0 := { image := some {} }, slot1 := { state := 2, image := some { imageId := 9 } }, swap := some { slot := 1, phase := phase } } }

theorem witness_handoversMove :
    (∃ u, (nextFiller none).recv 0 fromPeer (.handoverPrep 3 0 1 0 false) = .take u) ∧ (nextFiller none).pack.source = 1
    ∧ (∃ u, (nextFiller none).recv 0 fromPeer (.handoverPrep 3 0 1 2 false) = .take u) ∧ 2 ≠ (nextFiller none).optv.ppos
    ∧ (∃ (s u : State) (r : HandoverRun), s.recv 0 fromPeer (.handoverPrep 1 0 0 1 true) = .take u ∧ s.pack.handover = some r ∧ r.period = 1 ∧ r.to_ = 1 ∧ s.prepInTime r = true
        ∧ s.pack.fill = s.optv.ppos ∧ s.watch.mandatory = false ∧ s.idle 0 = true ∧ (s.ctx 0).live = true ∧ s.watch.period + 1 = 1)
    ∧ (∃ (s u : State) (r : HandoverRun), s.recv 0 fromPeer (.handoverPrep 1 0 0 1 true) = .take u ∧ s.pack.handover = some r ∧ r.period = 1 ∧ r.to_ = 1 ∧ s.prepInTime r = true
        ∧ s.watch.mandatory = true)
    ∧ (∃ u, (nextFiller none).Takes 0 fromPeer (.handover {} {}) u)
    ∧ (∃ (u v : State) (d : Member), (nextFiller (some { period := 0, sidx := 0, from_ := 1, to_ := 0 })).Takes 0 fromPeer (.handover {} {}) u
        ∧ v = u.placeRing.newRun.runFor 0 ∧ (v.startCtx 0).1.code < 0x10 ∧ (nextFiller (some { period := 0, sidx := 0, from_ := 1, to_ := 0 })).member 0 = some d) :=
  ⟨⟨_, rfl⟩, by decide, ⟨_, rfl⟩, by decide,
   ⟨{ nextFiller none with ctxs := [(0, { state := .waiting })], pack := { ports := [(0, { state := 3 })], live := 3, admitted := true, handover := some { period := 1, sidx := 0, from_ := 0, to_ := 1 } } }, _, _, rfl, rfl,
     by decide +kernel⟩,
   ⟨{ nextFiller none with watch := { mandatory := true }, pack := { ports := [(0, { state := 3 })], live := 3, admitted := true, handover := some { period := 1, sidx := 0, from_ := 0, to_ := 1 } } }, _, _, rfl, rfl,
     by decide +kernel⟩, ⟨_, _, rfl, rfl⟩, ⟨_, _, _, ⟨_, rfl, rfl⟩, rfl, by decide +kernel, rfl⟩⟩

theorem witness_packsSwap :
    (∃ u, (swapping 5).recv 0 fromPeer (.swapReady 9 1) = .take u) ∧ (swapping 5).leads = false ∧ (swapping 5).img.swap.isSome = true
    ∧ (∃ (s u : State) (i : Image), s.recv 0 fromPeer (.swapReady 9 1) = .take u ∧ s.leads = true ∧ s.swapImage = some i ∧ i.imageId = 9)
    ∧ (∃ (s u : State) (i : Image), s.recv 0 fromPeer (.swapReady 9 1) = .take u ∧ s.leads = false ∧ s.img.swap = none ∧ (s.imgSlot s.inactive).image = some i ∧ i.imageId = 9
        ∧ (s.imgSlot s.inactive).state = 2 ∧ s.awayFits i = true)
    ∧ (∃ (u : State) (i : Image) (w : Swap), (swapping 5).recv 0 fromPeer (.swapAt 9 4) = .take u ∧ (swapping 5).swapImage = some i ∧ i.imageId = 9 ∧ (swapping 5).img.swap = some w ∧ w.slot ≤ 1)
    ∧ (∃ u, (swapping 5).recv 0 fromPeer (.swapCommit 9 4) = .take u) ∧ (∃ u, (swapping 3).recv 0 fromPeer (.swapCommit 9 4) = .take u) :=
  ⟨⟨_, rfl⟩, by decide +kernel, by decide,
   ⟨{ swapping 5 with pack := { ports := [(0, { state := 3 })], live := 3, hasLead := true } }, _, _, rfl, by decide +kernel, rfl, by decide⟩,
   ⟨{ swapping 5 with img := { good := true, active := some 0, slot0 := { image := some {} }, slot1 := { state := 2, image := some { imageId := 9 } } } }, _, _, rfl,
     by decide +kernel, by decide, rfl, by decide, by decide, by decide +kernel⟩,
   ⟨_, _, _, rfl, rfl, by decide, rfl, by decide⟩, ⟨_, rfl⟩, ⟨_, rfl⟩⟩

/-- A Ready module, its engine 0 at 35 °C, with pending work `q`, an operation `r` on engine 0 and the domains of that engine on. -/
def upkeepOn (q : List Work) (r : Option OpRun) : State :=
  { life := { phase := .ready }
    temps := (List.range 64).map (fun i => (i, 350))
    doms := [(0, .on), (96, .on)]
    upk := { queue := q, ops := [(0, r)] } }

/-- A program of plane 3 of engine 0, in a stage. -/
def programming (stage : UpStage) (retry : Bool) (op : UpOp) : OpRun := { work := { prio := 4, engine := 0, plane := 3, op := op, why := .overdue, retry := retry }, stage := stage }

theorem witness_arrayOperationsRun :
    (∃ w, (upkeepOn [{ prio := 4, engine := 0, plane := 3, op := .program, why := .overdue }] none).nextWork = some w ∧ w.engine = 0)
    ∧ (upkeepOn [{ prio := 4, engine := 0, plane := 3, op := .program, why := .overdue }] none).fwUp = true
    ∧ (∀ d, d ∈ upDoms 0 → (upkeepOn [] none).wake.domOn d = true) ∧ (∃ d, d ∈ upDoms 0 ∧ ({ life := { phase := .ready } } : State).wake.domOn d = false)
    ∧ (upkeepOn [] none).needsCopy 0 = false ∧ (upkeepOn [] none).tempIn 0 300 700 = true ∧ (upkeepOn [] none).tempIn 0 (-200) 1000 = true
    ∧ (∃ s : State, s.needsCopy 0 = true ∧ s.nextWork ≠ none ∧ s.fwUp = true)
    ∧ (upkeepOn [] (some (programming .copying false .program))).op 0 = some (programming .copying false .program)
    ∧ (upkeepOn [] (some (programming .copying false .program))).panelBusy 0 = false ∧ (upkeepOn [] none).tempOk (programming .copying false .program).work = true
    ∧ (upkeepOn [] (some (programming .verifying false .touchUp))).op 0 = some (programming .verifying false .touchUp)
    ∧ (upkeepOn [] (some (programming .verifying true .program))).op 0 = some (programming .verifying true .program)
    ∧ (upkeepOn [] (some (programming .erasing true .program))).op 0 = some (programming .erasing true .program)
    ∧ (upkeepOn [] (some (programming .pulsing true .program))).op 0 = some (programming .pulsing true .program)
    ∧ ((upkeepOn [] none).panel 0).plane16 = false := by
  refine ⟨⟨{ prio := 4, engine := 0, plane := 3, op := .program, why := .overdue }, by decide +kernel, by decide⟩, by decide, by decide +kernel, ⟨.coreGroup 0, by decide +kernel⟩, by decide +kernel,
    by decide +kernel, by decide +kernel,
    ⟨{ upkeepOn [{ prio := 4, engine := 0, plane := 3, op := .program, why := .overdue }] none with upk := { queue := [{ prio := 4, engine := 0, plane := 3, op := .program, why := .overdue }], planes := [(3, { state := 1 })] } },
      by decide +kernel, by decide +kernel, by decide⟩, by decide +kernel, by decide +kernel, by decide +kernel, by decide +kernel, by decide +kernel, by decide +kernel, by decide +kernel, by decide +kernel⟩

/-- Pulses that bring every cell to erased pass erase verify; cells that no pulse has moved in 8 do not. -/
theorem witness_erasesPassAndFail :
    (∃ x : Cells, (erasePulses {} 0 (pulseMoves [] 1)).2 ≠ 0 ∧ (erasePulses {} 0 (pulseMoves [] 1)).1 = x ∧ x.g = [])
    ∧ (∃ x : Cells, x.cond 0 = 0 ∧ (erasePulses x 8 (pulseMoves [] 0)) = (x, 8) ∧ x.erased = false) :=
  ⟨⟨_, by decide, rfl, rfl⟩, ⟨{ g := [(0, 0)] }, by decide, rfl, by
    unfold Cells.erased
    rw [List.all_eq_false]
    exact ⟨0, by simp [allCells, planeCols], by decide⟩⟩⟩

theorem witness_sweepsReturn :
    (∃ o, (upkeepOn [] (some { work := { prio := 5, engine := 0, plane := 3, op := .levelRead, why := .degraded }, stage := .reading })).op 0 = some o ∧ o.stage = .reading ∧ o.work.engine = 0
      ∧ o.work.why = .degraded)
    ∧ (∃ o, (upkeepOn [] (some { work := { prio := 5, engine := 0, plane := 3, op := .levelRead, why := .touchUp }, stage := .reading })).op 0 = some o ∧ o.work.why = .touchUp)
    ∧ ((upkeepOn [] none).plane 3).hours (upkeepOn [] none).life.now < 720
    ∧ (∃ s : State, s.fwUp = true ∧ 720 ≤ (s.plane 3).hours s.life.now)
    ∧ (∃ s : State, (s.panel 0).pstate = 2 ∧ s.staysAway 0 = false ∧ s.panelBusy 0 = false ∧ s.badPartners 0 = [])
    ∧ (∃ s : State, (s.panel 0).pstate = 2 ∧ s.staysAway 0 = true)
    ∧ (∃ s : State, s.fwUp = true ∧ s.upk.dirty = true) :=
  ⟨⟨_, rfl, by decide, by decide, by decide⟩, ⟨_, rfl, by decide⟩, by decide +kernel, ⟨{ upkeepOn [] none with upk := { planes := [(3, { sweepH := 720 })] } }, by decide, by decide +kernel⟩,
   ⟨{ upk := { panels := [(0, { pstate := 2 })] } }, by decide +kernel, by decide +kernel, by decide +kernel, by decide +kernel⟩,
   ⟨{ upk := { panels := [(0, { pstate := 2 })], ops := [(0, some (programming .pulsing false .program))] } }, by decide +kernel, by decide +kernel⟩,
   ⟨{ life := { phase := .ready }, upk := { dirty := true } }, by decide, by decide⟩⟩

theorem witness_scrubFinds :
    ({ life := { phase := .rest } } : State).fwUp = true ∧ ({ mem := { invalid := [(0, true)] } } : State).mem.clear 0 = true
    ∧ (∃ s : State, s.fwUp = true ∧ s.mem.clear 2097152 = false ∧ s.inImage imageBase = true ∧ s.mem.refetch = [])
    ∧ (∃ s : State, s.fwUp = true ∧ s.mem.refetch = [(true, 7)] ∧ s.mem.spares < 4096) ∧ (∃ s : State, s.fwUp = true ∧ s.mem.refetch = [(false, 7)])
    ∧ (∃ s : State, s.fwUp = true ∧ s.mem.refetch = [(true, 7)] ∧ 4096 ≤ s.mem.spares) ∧ ({} : State).mem.refetch = [] :=
  ⟨by decide, by decide,
   ⟨{ life := { phase := .ready }, mem := { invalid := [(2097152, false)] }, img := { good := true, active := some 0, slot0 := { image := some { imageArea := 4096 } } } },
     by decide, by decide, by decide +kernel, by decide⟩,
   ⟨{ life := { phase := .ready }, mem := { refetch := [(true, 7)] } }, by decide, by decide, by decide⟩,
   ⟨{ life := { phase := .ready }, mem := { refetch := [(false, 7)] } }, by decide, by decide⟩,
   ⟨{ life := { phase := .ready }, mem := { refetch := [(true, 7)], spares := 4096 } }, by decide, by decide, by decide⟩, by decide⟩

/-- A Ready module whose store has an open erase of unit `u`, number 100. -/
def eraseOpen (u : Nat) : State := { life := { phase := .ready }, store := { journal := [{ kind := 0x21, unit := u, phys := 100 }] } }

theorem witness_storeOperations :
    (eraseOpen 0).storeUp = true ∧ isMain 9 = true ∧ isMain 16383 = true ∧ (eraseOpen 0).store.erasing 0 100 = true ∧ (eraseOpen 1).store.erasing 1 100 = true
    ∧ (eraseOpen 0).store.retired.contains 100 = false ∧ (eraseOpen 0).store.holds 100 = some 84 ∧ (eraseOpen 0).store.holds 9 = none
    ∧ (eraseOpen 1).store.spares (planeOf 100) ≠ [] ∧ (Tab.get {} (eraseOpen 0).store.pages 100).full = false ∧ (∃ s : State, (Tab.get {} s.store.pages 9).full = true) ∧ (eraseOpen 0).openBlock 84 = false ∧ (eraseOpen 0).store.refresh = []
    ∧ (∃ s : State, s.storeUp = true ∧ s.store.refresh = [] ∧ s.store.holds 1792 = some 1776 ∧ s.openBlock 1776 = true)
    ∧ (∃ s : State, s.storeUp = true ∧ s.store.holds 1792 = some 1776 ∧ s.img.active = some 0 ∧ inSlot 0 1776 = true)
    ∧ (eraseOpen 0).store.patrol + 1 ≠ 16375 ∧ (∃ s : State, s.storeUp = true ∧ s.store.patrol + 1 = 16375) := by
  refine ⟨by decide, by decide, by decide, by decide +kernel, by decide +kernel, by decide, by decide +kernel, by decide +kernel, by decide +kernel, by decide, ⟨{ store := { pages := [(9, { count := 64 })] } }, by decide⟩, by decide +kernel, by decide,
    ⟨{ life := { phase := .ready }, img := { slot0 := { state := 3 } } }, by decide, by decide, by decide +kernel, by decide +kernel⟩,
    ⟨{ life := { phase := .ready }, img := { active := some 0 } }, by decide, by decide +kernel, by decide, by decide⟩, by decide, ⟨{ life := { phase := .ready }, store := { patrol := 16374 } }, by decide, by decide⟩⟩

theorem witness_logEventsRun :
    ({ life := { phase := .ready }, logs := { staged := [{}] } } : State).storeUp = true ∧ ({ life := { phase := .ready }, logs := { staged := [{}] } } : State).logs.staged ≠ []
    ∧ (∃ s : State, s.portsUp = true ∧ s.logs.suppressed = [(2 ^ 32, 3)])
    ∧ (∃ s : State, s.portsUp = true ∧ s.supply.main.out = true ∧ s.excluded ≠ [] ∧ s.mem.erased ≠ [] ∧ 4096 ≤ s.mem.spares ∧ s.mem.goldenBad = true ∧ s.pack.detached = true) :=
  ⟨by decide, by decide, ⟨{ life := { phase := .ready }, logs := { suppressed := [(2 ^ 32, 3)] } }, by decide, by decide⟩,
   ⟨{ life := { phase := .ready }, supply := { main := { out := true } }, excluded := [1], mem := { erased := [(0, 1)], spares := 4096, goldenBad := true }, pack := { detached := true } },
     by decide, by decide, by decide, by decide, by decide, by decide, by decide⟩⟩

theorem witness_pinsAreSensed :
    ({ life := { phase := .boot } } : State).powered = true ∧ ({} : State).io.runs.length = 4
    ∧ (∃ s : State, s.outputs.getLsbD 3 = true) ∧ ({} : State).outputs.getLsbD 0 = false
    ∧ (∃ s : State, s.powered = true ∧ s.io.runs.length = 4 ∧ 9 ≤ s.io.runs.getD 0 0) :=
  ⟨by decide, by decide, ⟨{ life := { phase := .ready }, io := { packOutputs := [(1, 8)] } }, by decide +kernel⟩, by decide, ⟨{ life := { phase := .ready }, io := { runs := [9, 0, 0, 0] } }, by decide, by decide, by decide⟩⟩

/-- A module in a phase with a session of a role that has one command in its ring. -/
def refusing (ph : Phase) (role : Nat) (p : Packet) : State :=
  { askedWith p {} with
    life := { phase := ph }
    comms := { sessions := [(0, some { askSession p with role := role })] } }

theorem witness_commandsAreRefused :
    (∀ a, a ∈ [(Phase.ready, 0, Status.notPermitted), (.boot, 3, .busy)] →
      (refusing a.1 a.2.1 (asking 0x0902 0xFFFF [(1, be 1 2), (2, be 4 1)])).portsUp = true
      ∧ (refusing a.1 a.2.1 (asking 0x0902 0xFFFF [(1, be 1 2), (2, be 4 1)])).refuses { askSession (asking 0x0902 0xFFFF [(1, be 1 2), (2, be 4 1)]) with role := a.2.1 }
        (asking 0x0902 0xFFFF [(1, be 1 2), (2, be 4 1)]) = some (a.2.2, 0))
    ∧ ({ askSession (asking 0x0902 0xFFFF [(1, be 1 2), (2, be 4 1)]) with role := 0 } : Session).headCmd = some (asking 0x0902 0xFFFF [(1, be 1 2), (2, be 4 1)])
    ∧ ((({} : State).refuses { role := 3 } (asking 0x0902 0xFFFF [])).map Prod.fst = some .badParam) := by
  exact ⟨by decide +kernel, by decide +kernel, by decide +kernel⟩

theorem witness_packetIsLaidOut :
    (∀ v, v ∈ [((1 : Nat), be 1 2), (2, be 4 1)] → v.1 < 2 ^ 16 ∧ v.2.length < 2 ^ 16) ∧ (bodyBytes [((1 : Nat), be 1 2), (2, be 4 1)]).length < 2 ^ 32
    ∧ (readPacket (commandBytes 0x0902 0xFFFF 7 [(1, be 1 2), (2, be 4 1)])).offs = [0, 8]
    ∧ (be 4 0x5350434D ++ be 4 0 ++ be 4 1 : List Byte)[11]? = some 1 := by
  decide +kernel

/-! ## Steps and values whose results the manual gives -/

/-- 02_engine_to_package.md, worked example: plane 5 of slot 3 in core 6 of cluster 2 on stack 1. -/
theorem test_locationWord : locPlane (9 * 86 + 3) 5 = 0xCAE32800 ∧ locToCore 0xCAE32800 = 86 ∧ locToCluster 0xCAE32800 = 10 := by decide

/-- 03_array_panels.md, worked example: column 17 of group 5 in the bit-7 evaluation, then the group's sum. -/
theorem test_panelCorrection :
    (let p := q32of (corrected 171 (q32 ⟨824, 10000⟩).v (q32 ⟨6, 10⟩).v); (p.num * 100 / p.den = 52063 : Prop))
    ∧ groupTerm { scales := [(256 * 5 + 17, 0x21C0)] } 5 17 one32 ⟨-384123, 10⟩ = -431 := by decide +kernel

/-- 04_numbers.md, after R127: a block of 16 with d all +1 and x = (40, 0, …, 0) gives 10 everywhere. -/
theorem test_rotation :
    (rotateBlock 4 (List.replicate 16 false) ((q32 (qInt 40)).v :: List.replicate 15 0)).map (·.v) = List.replicate 16 (q32 (qInt 10)).v := by
  decide +kernel

/-- 04_numbers.md, worked example: 80 × 0.03125 is 2 on the engine and 3 on the vector unit. -/
theorem test_requantTie : (engineConv (-128) 127 0 (q32 ⟨1, 32⟩).v 80).y = 2
    ∧ (coreConv (-128) 127 0 (fmul (q32 (qInt 80)).v (q32 ⟨1, 32⟩).v).v).y = 3 := by decide +kernel

/-- 04_numbers.md, worked example of adaptation: periods 500, 501, 502, then 16 quiet ones. -/
theorem test_scaleAdaptation :
    (adapted {} false { unit := 0, clips := 9, total := 3906 } { unit := 0 }).exp = 1
    ∧ (adapted {} false { unit := 0, clips := 3, total := 3906 } { unit := 0, exp := 1 }).exp = 1
    ∧ (adapted {} false { unit := 0, clips := 5, total := 3906 } { unit := 0, exp := 1 }).exp = 2
    ∧ (adapted {} false { unit := 0, total := 3906, peak := 57 } { unit := 0, exp := 2, downrun := 15 }).exp = 1 := by decide

/-- 07_threads_and_counters.md, worked example: the 32 bytes of a counter wait record, read field by field. -/
def waitRecord : BitVec 256 :=
  BitVec.ofNat 256 (ofBytes ([0x70, 0x01, 0x10, 0x00, 0x00, 0x00, 0x00, 0x00, 0x20, 0x00, 0x80] ++ List.replicate 21 0))

theorem test_waitRecordFields : rKind waitRecord = 7 ∧ rf waitRecord 247 236 = 17 ∧ signed 48 (rf waitRecord 235 188) = 2 ∧ rf waitRecord 187 172 = 8
    ∧ rf waitRecord 171 171 = 0 := by decide +kernel

/-- The same example: in iteration 5 the step waits for 42, and sleeps on a counter that stands at 41. -/
theorem test_waitSleepsAt42 :
    (match exec (.counterWait 0) { readyFor waitRecord with
        threads := [(0, { state := .ready, iter := 5 })], sync := { table := [(17, 1)], counters := [(0, { value := 41, bound := true, localId := 17 })] } } with
      | .next t => decide ((t.thread 0).state = .sleeping ∧ (t.thread 0).expect = 42)
      | _ => false) = true := by decide +kernel

theorem test_waitGoesOnAt42 :
    (match exec (.counterWait 0) { readyFor waitRecord with
        threads := [(0, { state := .ready, iter := 5 })], sync := { table := [(17, 1)], counters := [(0, { value := 42, bound := true, localId := 17 })] } } with
      | .next t => decide ((t.thread 0).state = .running ∧ (t.thread 0).done = true)
      | _ => false) = true := by decide +kernel

/-- 11_command_packets.md, worked example: the 32 bytes of CTX_SET with PT 128. -/
def ptPacket : List Byte :=
  [0x53, 0x50, 0x43, 0x4D, 0x01, 0x00, 0x04, 0x05, 0x00, 0x00, 0x00, 0x00, 0x00, 0x00, 0x02, 0x13, 0x00, 0x00, 0x00, 0x08, 0x00, 0x00, 0x00, 0x00,
   0x00, 0x03, 0x00, 0x04, 0x00, 0x00, 0x00, 0x80]

theorem test_ctxSetPacket : headerOk ptPacket = true ∧ readPacket ptPacket =
    { opcode := 0x0405, ctx := 0, seq := 0x213, badAt := 0, plen := 8, tlvs := [(3, be 4 128)], offs := [0] } := by decide +kernel

/-- The same example: the reply is ACCEPTED with PENDING 0x04, at the stamp of the command's commit; PT still reads 64. -/
theorem test_ctxSetIsPending :
    (match exec (.ctxSet 0) { life := { phase := .ready, commit := 0x0000000700012A3F }, ctxs := [(0, { state := .running, pt := 64 })]
                              comms := { sessions := [(0, some { role := 2, ring := [readPacket ptPacket], nextSeq := 0x213 })] } } with
      | .next t => decide ((t.ctx 0).pt = 64) && (match t.out with
          | .reply _ _ _ r :: _ => decide (r.status = .accepted ∧ r.commit = 0x0000000700012A40 ∧ r.tlvs = [(1, be 1 4)])
          | _ => false)
      | _ => false) = true := by decide +kernel

/-- 17_kennel_and_field_service.md, worked example: ring 588 in its state word. -/
theorem test_ringWord : ({ state := 2, ctx := 3, len := 16, head := 7, elig := 9, err := 4 } : Ring).word =
    2 * 2 ^ 62 + 3 * 2 ^ 56 + 16 * 2 ^ 45 + 7 * 2 ^ 35 + 9 * 2 ^ 24 + 4 * 2 ^ 16 := by decide

/-- 00_scope.md, worked example: 0x00001234 and 0x0201 as they are sent. -/
theorem test_byteOrder : be 4 0x1234 = [0x00, 0x00, 0x12, 0x34] ∧ be 2 0x0201 = [0x02, 0x01] := by decide


end Sys2Proof.Tests
end

section
/-! Packets read back as Table 11.5 and the TLV rule lay them out: numbers and their bytes, one TLV, a list of TLVs, the header. -/

namespace Sys2Proof.Machine

open Sys2Proof

/-! ## Numbers and their bytes -/

@[simp] theorem be_length (n v : Nat) : (be n v).length = n := by
  induction n with
  | zero => rfl
  | succ n ih => simp [be, ih]

theorem foldl_bytes_eq (bs : List Byte) (a : Nat) :
    bs.foldl (fun a b => a * 256 + b.toNat) a = a * 256 ^ bs.length + ofBytes bs := by
  induction bs generalizing a with
  | nil => simp [ofBytes]
  | cons b bs ih =>
    have hhead : ofBytes (b :: bs) = (0 * 256 + b.toNat) * 256 ^ bs.length + ofBytes bs := ih _
    rw [List.foldl_cons, ih, hhead, List.length_cons]
    ring

@[simp] theorem ofBytes_nil : ofBytes [] = 0 := rfl

theorem ofBytes_cons (b : Byte) (bs : List Byte) : ofBytes (b :: bs) = b.toNat * 256 ^ bs.length + ofBytes bs := by
  rw [← foldl_bytes_eq, ofBytes, List.foldl_cons, Nat.zero_mul, Nat.zero_add]

theorem ofBytes_be_mod (n v : Nat) : ofBytes (be n v) = v % 256 ^ n := by
  induction n with
  | zero => simp [be, Nat.mod_one]
  | succ n ih =>
    have hshift : v >>> (8 * n) = v / 256 ^ n := by rw [Nat.shiftRight_eq_div_pow, pow_mul]; rfl
    rw [be, ofBytes_cons, ih, be_length, hshift, BitVec.toNat_ofNat, Nat.mod_pow_succ (b := 256), Nat.add_comm, Nat.mul_comm (256 ^ n)]

/-- A number that its field can hold is read back. -/
@[simp] theorem ofBytes_be {n v : Nat} (h : v < 2 ^ (8 * n)) : ofBytes (be n v) = v := by
  rw [ofBytes_be_mod, Nat.mod_eq_of_lt (by rwa [pow_mul] at h)]

theorem ofBytes_ne_zero {bs : List Byte} {b : Byte} (hb : b ∈ bs) (hne : b ≠ 0) : ofBytes bs ≠ 0 := by
  induction bs with
  | nil => simp at hb
  | cons c bs ih =>
    rw [ofBytes_cons]
    rcases List.mem_cons.mp hb with rfl | hmem
    · have : b.toNat ≠ 0 := fun h => hne (BitVec.eq_of_toNat_eq h)
      simp [this]
    · have := ih hmem
      omega

@[simp] theorem take_be_append (n v : Nat) (l : List Byte) : (be n v ++ l).take n = be n v :=
  List.take_left' (be_length n v)

@[simp] theorem drop_be_append {n o : Nat} (h : n ≤ o) (v : Nat) (l : List Byte) : (be n v ++ l).drop o = l.drop (o - n) := by
  rw [List.drop_append, List.drop_of_length_le (by simpa using h), be_length, List.nil_append]

/-! ## TLVs, R403 -/

theorem padded_eq (n : Nat) : padded n = n + (4 - n % 4) % 4 := by
  unfold padded
  omega

theorem le_padded (n : Nat) : n ≤ padded n := by
  rw [padded_eq]
  omega

/-- A value and the zeros that pad it to a multiple of 4 (R403). -/
def paddedValue (value : List Byte) : List Byte := value ++ List.replicate (padded value.length - value.length) 0

theorem tlvBytes_eq (t : Tlv) : tlvBytes t = be 2 t.1 ++ (be 2 t.2.length ++ paddedValue t.2) := by
  simp [tlvBytes, paddedValue, padded_eq]

@[simp] theorem paddedValue_length (value : List Byte) : (paddedValue value).length = padded value.length := by
  simp [paddedValue, le_padded]

theorem tlvBytes_length (t : Tlv) : (tlvBytes t).length = 4 + padded t.2.length := by
  simp [tlvBytes_eq]
  omega

@[simp] theorem take_paddedValue_append (value rest : List Byte) : (paddedValue value ++ rest).take value.length = value := by
  simp [paddedValue]

@[simp] theorem drop_paddedValue_append (value rest : List Byte) : (paddedValue value ++ rest).drop (padded value.length) = rest :=
  List.drop_left' (paddedValue_length value)

theorem padding_paddedValue_append (value rest : List Byte) :
    ((paddedValue value ++ rest).drop value.length).take (padded value.length - value.length)
      = List.replicate (padded value.length - value.length) 0 := by
  simp [paddedValue]

/-- A TLV at the front is read with its type, value and offset, and what follows it is read from where it ends. -/
theorem readTlvs_tlvBytes_append {t : Tlv} (hty : t.1 < 2 ^ 16) (hlen : t.2.length < 2 ^ 16) (fuel off : Nat) (rest : List Byte) :
    readTlvs (fuel + 1) off (tlvBytes t ++ rest)
      = (t :: (readTlvs fuel (off + (tlvBytes t).length) rest).1, off :: (readTlvs fuel (off + (tlvBytes t).length) rest).2.1,
          (readTlvs fuel (off + (tlvBytes t).length) rest).2.2) := by
  have hsize : 4 ≤ (tlvBytes t ++ rest).length := by rw [List.length_append, tlvBytes_length]; omega
  have hnonempty : ¬ (tlvBytes t ++ rest).isEmpty = true := by rw [List.isEmpty_iff_length_eq_zero]; omega
  have htype : ofBytes ((tlvBytes t ++ rest).take 2) = t.1 := by simp [tlvBytes_eq, ofBytes_be (n := 2) hty]
  have hlength : ofBytes (((tlvBytes t ++ rest).drop 2).take 2) = t.2.length := by simp [tlvBytes_eq, ofBytes_be (n := 2) hlen]
  have hvalue : (tlvBytes t ++ rest).drop 4 = paddedValue t.2 ++ rest := by simp [tlvBytes_eq]
  have hform : ¬ ((paddedValue t.2 ++ rest).length < padded t.2.length ∨
      ((paddedValue t.2 ++ rest).drop t.2.length).take (padded t.2.length - t.2.length) ≠ List.replicate (padded t.2.length - t.2.length) 0) := by
    simp [padding_paddedValue_append]
  rw [readTlvs, if_neg hnonempty, if_neg (Nat.not_lt.mpr hsize)]
  simp only [htype, hlength, hvalue, if_neg hform, take_paddedValue_append, drop_paddedValue_append, tlvBytes_length, Nat.add_assoc]

theorem bodyBytes_cons (v : Tlv) (vs : List Tlv) : bodyBytes (v :: vs) = tlvBytes v ++ bodyBytes vs := List.flatMap_cons

theorem length_le_bodyBytes_length (vs : List Tlv) : vs.length ≤ (bodyBytes vs).length := by
  induction vs with
  | nil => simp
  | cons v vs ih =>
    rw [bodyBytes_cons, List.length_append, tlvBytes_length, List.length_cons]
    omega

/-- TLVs laid out one after the other are read back, each at the offset where it stands. -/
theorem readTlvs_bodyBytes {vs : List Tlv} (hvs : ∀ v, v ∈ vs → v.1 < 2 ^ 16 ∧ v.2.length < 2 ^ 16) {fuel : Nat}
    (hfuel : vs.length ≤ fuel) (off : Nat) : readTlvs fuel off (bodyBytes vs) = (vs, tlvOffsets off vs, 0) := by
  induction vs generalizing fuel off with
  | nil => cases fuel <;> rfl
  | cons v vs ih =>
    obtain ⟨fuel, rfl⟩ : ∃ k, fuel = k + 1 := Nat.exists_eq_add_one.mpr (Nat.zero_lt_of_lt hfuel)
    obtain ⟨⟨hty, hlen⟩, htail⟩ := List.forall_mem_cons.mp hvs
    rw [bodyBytes_cons, readTlvs_tlvBytes_append hty hlen, ih htail (Nat.le_of_succ_le_succ hfuel)]
    rfl

/-! ## The header, Table 11.5 -/

theorem commandBytes_length (opcode ctx seq : Nat) (vs : List Tlv) : (commandBytes opcode ctx seq vs).length = 24 + (bodyBytes vs).length := by
  simp [commandBytes]
  omega

theorem commandBytes_body (opcode ctx seq : Nat) (vs : List Tlv) : (commandBytes opcode ctx seq vs).drop 24 = bodyBytes vs := by
  simp [commandBytes]

theorem headerOk_commandBytes (opcode ctx seq : Nat) {vs : List Tlv} (hbody : (bodyBytes vs).length < 2 ^ 32) :
    headerOk (commandBytes opcode ctx seq vs) = true := by
  simp only [headerOk, commandBytes_length]
  simp [commandBytes, ofBytes_be (n := 4) hbody]

theorem isBulk_commandBytes (opcode ctx seq : Nat) (vs : List Tlv) : isBulk (commandBytes opcode ctx seq vs) = false := by
  simp [isBulk, commandBytes]

theorem readPacket_commandBytes {opcode ctx seq : Nat} {vs : List Tlv} (hop : opcode < 2 ^ 16) (hctx : ctx < 2 ^ 16) (hseq : seq < 2 ^ 32)
    (hvs : ∀ v, v ∈ vs → v.1 < 2 ^ 16 ∧ v.2.length < 2 ^ 16) :
    readPacket (commandBytes opcode ctx seq vs)
      = { opcode := opcode, ctx := ctx, seq := seq, badAt := 0, plen := (bodyBytes vs).length, tlvs := vs, offs := tlvOffsets 0 vs } := by
  have hfuel : vs.length ≤ 24 + (bodyBytes vs).length := (length_le_bodyBytes_length vs).trans (Nat.le_add_left _ _)
  simp only [readPacket, commandBytes_body, commandBytes_length, readTlvs_bodyBytes hvs hfuel]
  simp [commandBytes, ofBytes_be (n := 2) hop, ofBytes_be (n := 2) hctx, ofBytes_be (n := 4) hseq]

/-- A nonzero byte inside a field makes the field's number nonzero. -/
theorem ofBytes_slice_ne_zero {bs : List Byte} {o n i : Nat} {b : Byte} (hb : bs[o + i]? = some b) (hi : i < n) (hne : b ≠ 0) :
    ofBytes ((bs.drop o).take n) ≠ 0 := by
  refine ofBytes_ne_zero (List.mem_of_getElem? (i := i) ?_) hne
  rw [List.getElem?_take_of_lt hi, List.getElem?_drop, hb]

theorem readPacket_badAt_of_reserved {bs : List Byte} (h : ofBytes ((bs.drop 10).take 2) ≠ 0 ∨ ofBytes ((bs.drop 20).take 4) ≠ 0) :
    (readPacket bs).badAt = 1 := by
  simp only [readPacket, if_pos h]

/-- Settles O60: the header's fields and the TLVs are read back, by induction on the TLVs; a nonzero reserved byte makes the
number of its reserved field nonzero. -/
theorem commandPacketsAreReadAsLaidOut : Obligations.CommandPacketsAreReadAsLaidOut := by
  refine ⟨fun opcode ctx seq vs hop hctx hseq hvs hbody =>
    ⟨headerOk_commandBytes opcode ctx seq hbody, isBulk_commandBytes opcode ctx seq vs, readPacket_commandBytes hop hctx hseq hvs⟩, ?_⟩
  intro bs i b hb hi hne
  apply readPacket_badAt_of_reserved
  simp only [List.mem_cons, List.not_mem_nil, or_false] at hi
  rcases (by omega : i = 10 + (i - 10) ∧ i - 10 < 2 ∨ i = 20 + (i - 20) ∧ i - 20 < 4) with ⟨heq, hlt⟩ | ⟨heq, hlt⟩
  · exact .inl (ofBytes_slice_ne_zero (heq ▸ hb) hlt hne)
  · exact .inr (ofBytes_slice_ne_zero (heq ▸ hb) hlt hne)

end Sys2Proof.Machine
end

section
/-! What a session's command finds and leaves: the state in which its own rules are asked, and the parts of the state that its
answer reads. -/

namespace Sys2Proof.Machine

open Sys2Proof

/-! ## The state in which a command's own rules are asked -/

/-- The state in which a command's own rules are asked, with the module's life at `l`: `s.life` before the command's commit,
`s.commit.life` after it. -/
def State.askedAt (s : State) (sid : Nat) (p : Packet) (l : Life) : State := { s.inHand sid p with life := l }

section
variable (s : State) (sid : Nat) (p : Packet) (l : Life)

theorem inHand_eq_askedAt : s.inHand sid p = s.askedAt sid p s.life := rfl

theorem taken_eq_askedAt : s.taken sid p = s.askedAt sid p s.commit.life := rfl

@[simp] theorem askedAt_life : (s.askedAt sid p l).life = l := rfl
@[simp] theorem askedAt_ctx (c : Nat) : (s.askedAt sid p l).ctx c = s.ctx c := rfl
@[simp] theorem askedAt_image : (s.askedAt sid p l).image = s.image := rfl
@[simp] theorem askedAt_prioOf (c : Nat) : (s.askedAt sid p l).prioOf c = s.prioOf c := rfl
@[simp] theorem askedAt_threadsOf (c : Nat) : (s.askedAt sid p l).threadsOf c = s.threadsOf c := rfl
@[simp] theorem askedAt_faultedOf (c : Nat) : (s.askedAt sid p l).faultedOf c = s.faultedOf c := rfl
@[simp] theorem askedAt_threadWord (t : Nat) : (s.askedAt sid p l).threadWord t = s.threadWord t := rfl

@[simp] theorem inHand_room (k : Nat) : (s.inHand sid p).room sid k = s.room sid k := by
  simp only [State.room, State.inHand, State.popCmd, State.updSess_sess_same]
  cases s.sess sid <;> rfl
end

theorem tlvsFrom_injective (n : Nat) : Function.Injective (tlvsFrom n) := by
  intro vs
  induction vs generalizing n with
  | nil => intro ws h; cases ws with
    | nil => rfl
    | cons w ws => simp [tlvsFrom] at h
  | cons v vs ih => intro ws h; cases ws with
    | nil => simp [tlvsFrom] at h
    | cons w ws =>
      simp only [tlvsFrom, List.cons.injEq, Prod.mk.injEq, true_and] at h
      rw [h.1, ih _ h.2]

theorem readDone_values_eq {s t : State} {sid : Nat} {x : Session} {p : Packet} {vs ws : List (List Byte)}
    (h : ReadDone s t sid x p vs) (g : ReadDone s t sid x p ws) : vs = ws := by
  obtain ⟨⟨_, h⟩, -⟩ := h
  obtain ⟨⟨_, g⟩, -⟩ := g
  have := h.symm.trans g
  simp only [List.append_cancel_left_eq, List.cons.injEq, Out.reply.injEq, replyOf, Reply.mk.injEq] at this
  exact tlvsFrom_injective 1 (by tauto)

/-- The values of CTX_READ before its thread words (Table 11.8). -/
def State.ctxValues (s : State) (c : Nat) : List (List Byte) :=
  [be 8 ((s.ctx c).word c s.life.now), be 1 (s.prioOf c), be 4 (s.ctx c).wdog, be 4 (s.ctx c).pt, be 4 (s.ctx c).allow,
    be 4 (s.ctx c).rint, be 4 (s.ctx c).sched,
    be 1 (4 * flag (s.ctx c).pendPt.isSome + 8 * flag (s.ctx c).pendAllow.isSome + 16 * flag (s.ctx c).pendRint.isSome)]

/-- The thread words that CTX_READ of the model gives are those of the threads bound to the context and of those that its fault has
left Faulted. -/
theorem execCtxRead_readDone {s : State} {sid : Nat} {x : Session} {p : Packet} (h : Asks s 0x0404 sid x p) :
    ∃ t, execCtxRead sid s = .next t ∧ ReadDone s t sid x p (s.ctxValues p.ctx ++ if p.num 1 = 0 then []
      else [((s.threadsOf p.ctx ++ s.faultedOf p.ctx).flatMap (fun t => be 16 (s.threadWord t))).take (s.room sid 88 / 16 * 16)]) := by
  refine ⟨_, rfl, runCmd_read false _ _ h ?_ (by simp)⟩
  simp only [inHand_room]
  rfl

/-- Packet of CTX_READ of context 0 with its thread words. -/
def readThreads : Packet := { opcode := 0x0404, ctx := 0, seq := 0, tlvs := [(1, be 1 1)], offs := [0], plen := 8 }

/-- A Service session that asks for it. -/
def threadReader : Session := { role := 3, port := 4, ring := [readThreads], nextSeq := 0 }

/-- A Ready module on which the fault of context 0 has left thread 0 Faulted. -/
def oneFaultedThread : State :=
  { life := { phase := .ready }, comms := { sessions := [(0, some threadReader)] }
    ctxs := [(0, { state := .faulted })], threads := [(0, { state := .faulted })] }

theorem oneFaultedThread_asks : Asks oneFaultedThread 0x0404 0 threadReader readThreads := by
  unfold Asks
  decide +kernel

/-- Refutes O21: CTX_READ gives the word of a Faulted thread too, which the statement leaves out (it names the bound threads
only). -/
theorem not_readsOfImagesSlotsContextsAnswer : ¬ Obligations.ReadsOfImagesSlotsContextsAnswer := by
  unfold Obligations.ReadsOfImagesSlotsContextsAnswer
  intro h
  obtain ⟨-, -, -, -, -, -, hread, -⟩ := h oneFaultedThread 0 threadReader readThreads
  obtain ⟨t, ht, hstated⟩ := hread oneFaultedThread_asks
  obtain ⟨u, hu, hgiven⟩ := execCtxRead_readDone oneFaultedThread_asks
  obtain rfl : t = u := Host.Outcome.next.inj (ht.symm.trans hu)
  have hvalues := List.append_cancel_left (readDone_values_eq hstated hgiven)
  exact absurd hvalues (by decide +kernel)

end Sys2Proof.Machine
end

section
/-! The settings commands: CTX_SET, QUOTA_SET, BUDGET_SET and PACK_CONFIG (R300, R304, R311, R426). -/

namespace Sys2Proof.Machine

open Sys2Proof

variable {s t u : State} {op sid : Nat} {x : Session} {p : Packet} {f : State → Packet → CmdOut} {st : Status}

/-! ## Commands that may change something -/

/-- A command that its own rules refuse, whether they are asked before its commit or after it. -/
theorem refused_of_asked {d : Nat} (h : Asks s op sid x p) (hst : ¬ st.code < 0x10) (hf : ∀ l, f (s.askedAt sid p l) p = { st := st, detail := d }) :
    Refused s (s.runCmd op true sid f) sid x p st d :=
  runCmd_refused true f st d h hst (hf s.life) fun _ => congrArg CmdOut.st (hf s.commit.life)

/-- A command of a kind that may change something, which has nothing to change: it is answered as a read. -/
theorem readDone_of_asked {vs : List (List Byte)} (h : Asks s op sid x p) (hf : ∀ l, f (s.askedAt sid p l) p = .read vs) :
    ReadDone s (s.runCmd op true sid f) sid x p vs :=
  runCmd_read true f vs h (hf s.life) fun _ => hf s.commit.life

/-- A command that its rules carry out. -/
theorem writeDone_of_taken {vs : List (List Byte)} (h : Asks s op sid x p) (hst : st.code < 0x10)
    (hf : f (s.taken sid p) p = { st := st, tlvs := tlvsFrom 1 vs, next := some u }) : WriteDone s (s.runCmd op true sid f) sid x p st vs u :=
  runCmd_write f st vs u h hst hf

/-- The same, with a state that differs from `u` in sessions and in what leaves the module only. -/
theorem writeDone_of_taken_as {vs : List (List Byte)} (v : State) (h : Asks s op sid x p) (hst : st.code < 0x10)
    (hf : f (s.taken sid p) p = { st := st, tlvs := tlvsFrom 1 vs, next := some v }) (hu : { v with comms := u.comms, out := u.out } = u) :
    WriteDone s (s.runCmd op true sid f) sid x p st vs u :=
  runCmd_write_as f st vs v u h hst hf hu

/-- A part of the state that is neither a session nor what leaves the module is after the command what its rules leave. -/
theorem WriteDone.part {vs : List (List Byte)} {α : Type} (h : WriteDone s t sid x p st vs u) (g : State → α)
    (hg : ∀ v co ou, g { v with comms := co, out := ou } = g v) : g t = g u :=
  (hg t u.comms u.out).symm.trans (congrArg g h.2)

theorem WriteDone.ctx {vs : List (List Byte)} (h : WriteDone s t sid x p st vs u) (c : Nat) : t.ctx c = u.ctx c :=
  h.part (·.ctx c) fun _ _ _ => rfl

/-! ## CTX_SET, R426 -/

@[simp] theorem configChanged_ctx (s : State) (c : Nat) : s.configChanged.ctx c = s.ctx c := rfl
@[simp] theorem commit_ctx (s : State) (c : Nat) : s.commit.ctx c = s.ctx c := rfl

/-- The settings of a context as CTX_SET leaves them. -/
def Ctx.settled (y : Ctx) (c : Nat) (p : Packet) : Ctx := (y.setNow c p).setLater p

theorem setNow_holds (y : Ctx) (c : Nat) (p : Packet) : (y.setNow c p).holds = y.holds := by
  cases h : y.state <;> simp [Ctx.setNow, Ctx.holds, h]

theorem settled_of_holds {y : Ctx} (c : Nat) (p : Packet) (h : y.holds = true) :
    y.settled c p = { y.setNow c p with
      pendPt := (p.num? 3).or y.pendPt, pendAllow := (p.num? 4).or y.pendAllow, pendRint := (p.num? 5).or y.pendRint } := by
  rw [Ctx.settled, Ctx.setLater, if_pos (by rw [setNow_holds, h])]
  rfl

theorem settled_of_not_holds {y : Ctx} (c : Nat) (p : Packet) (h : y.holds = false) :
    y.settled c p = { y.setNow c p with
      pt := (p.num? 3).getD y.pt, allow := (p.num? 4).getD y.allow, rint := (p.num? 5).getD y.rint } := by
  rw [Ctx.settled, Ctx.setLater, if_neg (by rw [setNow_holds, h]; decide)]
  rfl

/-- What takes effect at the commit does so whether PT, ALLOW and RINT wait or not. -/
theorem settled_now (y : Ctx) (c : Nat) (p : Packet) :
    (y.settled c p).wdog = (p.num? 2).getD y.wdog ∧ (y.settled c p).sched = (p.num? 6).getD y.sched
      ∧ (c ≠ 0 → (y.settled c p).prio = (p.num? 1).getD y.prio) ∧ (y.state = .free → (y.settled c p).state = .stopped) := by
  cases h : y.holds with
  | true => rw [settled_of_holds c p h]; exact ⟨rfl, rfl, fun hc => if_neg hc, fun hf => if_pos hf⟩
  | false => rw [settled_of_not_holds c p h]; exact ⟨rfl, rfl, fun hc => if_neg hc, fun hf => if_pos hf⟩

theorem execCtxSet_refused {ty : Nat} (h : Asks s 0x0405 sid x p) (hbad : (s.ctx p.ctx).setBad p.ctx p = some ty) :
    ∃ t, execCtxSet sid s = .next t ∧ Refused s t sid x p .badParam (p.off ty) :=
  ⟨_, rfl, refused_of_asked h (by decide) fun l => by simp [hbad, CmdOut.bad]⟩

theorem execCtxSet_done (h : Asks s 0x0405 sid x p) (hbad : (s.ctx p.ctx).setBad p.ctx p = none) :
    ∃ t, execCtxSet sid s = .next t
      ∧ WriteDone s t sid x p
        (if ((p.num? 3).isSome || (p.num? 4).isSome || (p.num? 5).isSome) = true ∧ (s.ctx p.ctx).holds = true then .accepted else .ok)
        [be 1 ((s.ctx p.ctx).settled p.ctx p).pendingByte] ((s.commit.updCtx p.ctx (fun y => (y.setNow p.ctx p).setLater p)).configChanged) := by
  refine ⟨_, rfl, writeDone_of_taken_as ((s.taken sid p).updCtx p.ctx (fun y => (y.setNow p.ctx p).setLater p)).configChanged h ?_ ?_ rfl⟩
  · split <;> decide
  · rw [taken_eq_askedAt]
    simp only [askedAt_ctx, hbad, configChanged_ctx, State.updCtx_ctx_same]
    split <;> rfl

/-! ## QUOTA_SET, R300 -/

/-- A quota named by QUOTA_SET is above the module's total. -/
def State.quotaOver (s : State) (p : Packet) : Option Nat :=
  [1, 2, 3, 4, 5].find? (fun ty => decide (s.quotaTotal ty < (p.num? ty).getD 0))

/-- A quota that QUOTA_SET raises does not fit beside those of the other contexts. -/
def State.quotaCrowds (s : State) (p : Packet) (ty : Nat) : Bool :=
  decide ((s.ctx p.ctx).quota.at_ ty < ((s.ctx p.ctx).quota.put p).at_ ty)
    && decide (s.quotaTotal ty < s.quotaSum p.ctx (fun y => y.at_ ty) + ((s.ctx p.ctx).quota.put p).at_ ty)

theorem execQuotaSet_eq (sid : Nat) (s : State) : execQuotaSet sid s = .next (s.runCmd 0x0406 true sid (fun s p =>
    match s.quotaOver p with
    | some ty => .bad p ty
    | none => if [1, 2, 3, 4, 5].any (s.quotaCrowds p) then .no .noResource
      else .done ((s.updCtx p.ctx (fun y =>
        { y with quota := (s.ctx p.ctx).quota.put p, state := if y.state = .free then .stopped else y.state })).configChanged) [])) := rfl

@[simp] theorem askedAt_quotaOver (s : State) (sid : Nat) (p q : Packet) (l : Life) : (s.askedAt sid p l).quotaOver q = s.quotaOver q := rfl

@[simp] theorem askedAt_quotaCrowds (s : State) (sid : Nat) (p q : Packet) (l : Life) : (s.askedAt sid p l).quotaCrowds q = s.quotaCrowds q := rfl

theorem execQuotaSet_over {ty : Nat} (h : Asks s 0x0406 sid x p) (hover : s.quotaOver p = some ty) :
    ∃ t, execQuotaSet sid s = .next t ∧ Refused s t sid x p .badParam (p.off ty) :=
  ⟨_, execQuotaSet_eq sid s, refused_of_asked h (by decide) fun l => by simp only [askedAt_quotaOver, hover, CmdOut.bad]⟩

theorem execQuotaSet_crowded (h : Asks s 0x0406 sid x p) (hover : s.quotaOver p = none) (hcrowd : [1, 2, 3, 4, 5].any (s.quotaCrowds p) = true) :
    ∃ t, execQuotaSet sid s = .next t ∧ Refused s t sid x p .noResource 0 :=
  ⟨_, execQuotaSet_eq sid s, refused_of_asked h (by decide) fun l => by
    simp only [askedAt_quotaOver, askedAt_quotaCrowds, hover, hcrowd, if_true, CmdOut.no]⟩

theorem execQuotaSet_done (h : Asks s 0x0406 sid x p) (hover : s.quotaOver p = none) (hcrowd : [1, 2, 3, 4, 5].any (s.quotaCrowds p) = false) :
    ∃ t, execQuotaSet sid s = .next t ∧ WriteDone s t sid x p .ok []
      ((s.commit.updCtx p.ctx (fun y => { y with quota := (s.ctx p.ctx).quota.put p, state := if y.state = .free then .stopped else y.state })).configChanged) := by
  refine ⟨_, execQuotaSet_eq sid s, writeDone_of_taken_as ((s.taken sid p).updCtx p.ctx (fun y =>
    { y with quota := (s.ctx p.ctx).quota.put p, state := if y.state = .free then .stopped else y.state })).configChanged h (by decide) ?_ rfl⟩
  rw [taken_eq_askedAt]
  simp only [askedAt_quotaOver, askedAt_quotaCrowds, askedAt_ctx, hover, hcrowd, Bool.false_eq_true, if_false]
  rfl

/-! ## BUDGET_SET, R304 -/

/-- The budget that BUDGET_SET names under TYPE `ty` lies outside 60 W to 410 W. -/
def Packet.badBudget (p : Packet) (ty : Nat) : Bool := match p.num? ty with | some v => decide (v < 60 ∨ 410 < v) | none => false

theorem badBudget_of_some {ty v : Nat} (hv : p.num? ty = some v) : p.badBudget ty = decide (v < 60 ∨ 410 < v) := by
  rw [Packet.badBudget, hv]

theorem badBudget_eq_false {ty : Nat} : p.badBudget ty = false ↔ ∀ v, p.num? ty = some v → 60 ≤ v ∧ v ≤ 410 := by
  cases hv : p.num? ty with
  | none => simp [Packet.badBudget, hv]
  | some v => simp [badBudget_of_some hv]

/-- The state with the budgets that BUDGET_SET names. -/
def State.budgeted (s : State) (p : Packet) : State :=
  { s with supply := { s.supply with
      mainBudget := (p.num? 1).getD s.supply.mainBudget, backupBudget := (p.num? 2).getD s.supply.backupBudget } }

theorem execBudgetSet_eq (sid : Nat) (s : State) : execBudgetSet sid s = .next (s.runCmd 0x0701 true sid (fun s p =>
    if p.badBudget 1 then .bad p 1 else if p.badBudget 2 then .bad p 2
    else .done ((s.budgeted p).cutFrom s.inForce).configChanged [])) := rfl

theorem execBudgetSet_refused {ty : Nat} (h : Asks s 0x0701 sid x p) (hty : ty ∈ [1, 2]) (hbad : p.badBudget ty = true)
    (hfirst : ty = 2 → p.badBudget 1 = false) : ∃ t, execBudgetSet sid s = .next t ∧ Refused s t sid x p .badParam (p.off ty) := by
  refine ⟨_, execBudgetSet_eq sid s, refused_of_asked h (by decide) fun l => ?_⟩
  obtain rfl | rfl : ty = 1 ∨ ty = 2 := by simpa using hty
  · simp [hbad, CmdOut.bad]
  · simp [hbad, hfirst rfl, CmdOut.bad]

/-- A cut marks itself and changes nothing else. -/
theorem cutFrom_eq (s : State) (before : Nat) :
    s.cutFrom before = { s with supply := { s.supply with cutting := s.supply.cutting || decide (s.inForce < before) } } := by
  unfold State.cutFrom
  split
  · next hlt => simp [hlt]
  · next hle => simp [hle]

/-- The state with the budgets that BUDGET_SET names, and the mark of a cut where they lower the budget in force (R305). -/
def State.budgetSet (s : State) (p : Packet) : State :=
  { s.budgeted p with supply := { (s.budgeted p).supply with cutting := s.supply.cutting || decide ((s.budgeted p).inForce < s.inForce) } }

theorem budgeted_cutFrom (s : State) (p : Packet) : (s.budgeted p).cutFrom s.inForce = s.budgetSet p := cutFrom_eq _ _

theorem execBudgetSet_done (h : Asks s 0x0701 sid x p) (h1 : p.badBudget 1 = false) (h2 : p.badBudget 2 = false) :
    ∃ t, execBudgetSet sid s = .next t ∧ WriteDone s t sid x p .ok [] (s.commit.budgetSet p).configChanged := by
  refine ⟨_, execBudgetSet_eq sid s, writeDone_of_taken_as ((s.taken sid p).budgetSet p).configChanged h (by decide) ?_ rfl⟩
  simp only [h1, h2, Bool.false_eq_true, if_false, budgeted_cutFrom]
  rfl

/-! ## PACK_CONFIG, R311, R486 -/

/-- The shadows as PACK_CONFIG asks for them. -/
def OptCopy.packed (o : OptCopy) (p : Packet) : OptCopy :=
  { o with packId := p.num 1, psize := p.num 2, ppos := p.num 3, psource := p.num 4, pstandby := (p.num? 5).getD 0xFF }

theorem eraseIntent_opt (s : State) (unit phys : Nat) : (s.eraseIntent unit phys).opt = s.opt := by
  cases h : s.store.erasing unit phys <;> simp [State.eraseIntent, State.storeRec, h]

/-- An erase intent looks at neither sessions nor what leaves the module. -/
theorem eraseIntent_comms (s : State) (unit phys : Nat) (co : Comms) (ou : List Out) :
    { s with comms := co, out := ou }.eraseIntent unit phys = { s.eraseIntent unit phys with comms := co, out := ou } := by
  cases h : s.store.erasing unit phys <;> simp [State.eraseIntent, State.storeRec, h]

theorem startOptWrite_eq (s : State) : s.startOptWrite = State.eraseIntent
    { s with opt := { s.opt with
        shadow := { s.opt.shadow with seq := s.opt.shadow.seq + 1 }
        writing := some (1 - s.opt.newest, { s.opt.shadow with seq := s.opt.shadow.seq + 1 }), again := false } } 2 (1 - s.opt.newest) := rfl

theorem startOptWrite_comms (s : State) (co : Comms) (ou : List Out) :
    { s with comms := co, out := ou }.startOptWrite = { s.startOptWrite with comms := co, out := ou } :=
  eraseIntent_comms { s with opt := { s.opt with
    shadow := { s.opt.shadow with seq := s.opt.shadow.seq + 1 }
    writing := some (1 - s.opt.newest, { s.opt.shadow with seq := s.opt.shadow.seq + 1 }), again := false } } 2 (1 - s.opt.newest) co ou

theorem writeOption_of_writing {g : OptCopy → OptCopy} (h : s.opt.writing.isSome = true) :
    s.writeOption g = { s with opt := { s.opt with shadow := g s.opt.shadow, again := true } } := if_pos h

theorem writeOption_of_not_writing {g : OptCopy → OptCopy} (h : s.opt.writing.isSome = false) :
    s.writeOption g = State.startOptWrite { s with opt := { s.opt with shadow := g s.opt.shadow } } := if_neg (by simp [h])

/-- A write of the option area changes the shadows, whose SEQ rises where the store write starts, and not what is loaded. -/
theorem writeOption_opt (s : State) (g : OptCopy → OptCopy) :
    (s.writeOption g).opt.loaded = s.opt.loaded ∧ ∃ n, (s.writeOption g).opt.shadow = { g s.opt.shadow with seq := n } := by
  cases h : s.opt.writing.isSome with
  | true =>
    rw [writeOption_of_writing h]
    exact ⟨rfl, _, rfl⟩
  | false =>
    rw [writeOption_of_not_writing h, startOptWrite_eq, eraseIntent_opt]
    exact ⟨rfl, _, rfl⟩

/-- The write looks at neither sessions nor what leaves the module. -/
theorem writeOption_comms (s : State) (g : OptCopy → OptCopy) (co : Comms) (ou : List Out) :
    { s with comms := co, out := ou }.writeOption g = { s.writeOption g with comms := co, out := ou } := by
  cases h : s.opt.writing.isSome with
  | true =>
    exact (writeOption_of_writing (s := { s with comms := co, out := ou }) h).trans (by rw [writeOption_of_writing h])
  | false =>
    rw [writeOption_of_not_writing h]
    exact (writeOption_of_not_writing (s := { s with comms := co, out := ou }) h).trans
      (startOptWrite_comms { s with opt := { s.opt with shadow := g s.opt.shadow } } co ou)

theorem execPackConfig_refused {ty : Nat} (h : Asks s 0x0801 sid x p) (hbad : packBad (p.num 2) (p.num 3) (p.num 4) (p.num? 5) = some ty) :
    ∃ t, execPackConfig sid s = .next t ∧ Refused s t sid x p .badParam (p.off ty) :=
  ⟨_, rfl, refused_of_asked h (by decide) fun l => by simp only [hbad, CmdOut.bad]⟩

theorem execPackConfig_done (h : Asks s 0x0801 sid x p) (hbad : packBad (p.num 2) (p.num 3) (p.num 4) (p.num? 5) = none) :
    ∃ t, execPackConfig sid s = .next t ∧ WriteDone s t sid x p .ok [] (s.commit.writeOption (·.packed p)) := by
  refine ⟨_, rfl, writeDone_of_taken_as ((s.taken sid p).writeOption (·.packed p)) h (by decide) ?_ ?_⟩
  · simp only [hbad]
    rfl
  · have htaken : s.taken sid p = { s.commit with comms := (s.taken sid p).comms, out := (s.taken sid p).out } := rfl
    rw [htaken, writeOption_comms]

/-! ## The obligation -/

/-- CTX_SET, as the obligation states it. -/
theorem ctxSet_takesEffect (h : Asks s 0x0405 sid x p) (hbad : (s.ctx p.ctx).setBad p.ctx p = none) :
    ∃ t st, execCtxSet sid s = .next t
        ∧ st = (if ((p.num? 3).isSome || (p.num? 4).isSome || (p.num? 5).isSome) = true ∧ (s.ctx p.ctx).holds = true then Status.accepted else Status.ok)
        ∧ WriteDone s t sid x p st [be 1 (t.ctx p.ctx).pendingByte] ((s.commit.updCtx p.ctx (fun y => (y.setNow p.ctx p).setLater p)).configChanged)
        ∧ t.ctx p.ctx = (s.ctx p.ctx).settled p.ctx p ∧ ∀ k, k ≠ p.ctx → t.ctx k = s.ctx k := by
  obtain ⟨t, ht, hdone⟩ := execCtxSet_done h hbad
  have hctx : t.ctx p.ctx = (s.ctx p.ctx).settled p.ctx p := by simp [hdone.ctx, Ctx.settled]
  refine ⟨t, _, ht, rfl, by rwa [hctx], hctx, fun k hk => ?_⟩
  rw [hdone.ctx, configChanged_ctx, State.updCtx_ctx_ne _ _ _ _ (Ne.symm hk), commit_ctx]

/-- BUDGET_SET: the budgets, a cut where the budget in force falls, and nothing else. -/
theorem budgetSet_takesEffect (h : Asks s 0x0701 sid x p) (h1 : p.badBudget 1 = false) (h2 : p.badBudget 2 = false) :
    ∃ t, execBudgetSet sid s = .next t ∧ Replied s t sid x (replyOf p .ok 0 [] (s.life.commit + 1))
      ∧ t.supply.mainBudget = (p.num? 1).getD s.supply.mainBudget ∧ t.supply.backupBudget = (p.num? 2).getD s.supply.backupBudget
      ∧ t.supply.cutting = (s.supply.cutting || decide (t.inForce < s.inForce)) ∧ t.ckpt.timer = true
      ∧ { t with comms := s.comms, out := s.out, life := s.life, ckpt := { t.ckpt with timer := s.ckpt.timer },
                 supply := { t.supply with mainBudget := s.supply.mainBudget, backupBudget := s.supply.backupBudget, cutting := s.supply.cutting } } = s := by
  obtain ⟨t, ht, hdone⟩ := execBudgetSet_done h h1 h2
  have hsupply := hdone.part State.supply fun _ _ _ => rfl
  have hforce := hdone.part State.inForce fun _ _ _ => rfl
  have hrest := congrArg (fun v : State => { v with
    comms := s.comms, out := s.out, life := s.life, ckpt := { v.ckpt with timer := s.ckpt.timer }
    supply := { v.supply with mainBudget := s.supply.mainBudget, backupBudget := s.supply.backupBudget, cutting := s.supply.cutting } }) hdone.2
  exact ⟨t, ht, hdone.1, congrArg Supply.mainBudget hsupply, congrArg Supply.backupBudget hsupply,
    (congrArg Supply.cutting hsupply).trans (by rw [hforce]; rfl), congrArg Ckpts.timer (hdone.part State.ckpt fun _ _ _ => rfl), hrest⟩

/-- Settles O25: each command by the rule that refuses it or the state that its own rules leave. -/
theorem contextAndBudgetSettingsTakeEffect : Obligations.ContextAndBudgetSettingsTakeEffect := by
  refine ⟨fun s sid x p h => ⟨fun ty => execCtxSet_refused h, fun hbad => ?_⟩, fun s sid x p h => ⟨fun ty => execQuotaSet_over h, fun hover ⟨ty, hty, hraise, hfull⟩ => ?_, fun hover hfit => ?_⟩,
    fun s sid x p h => ⟨fun ty v hty hmain hv hbad => ?_, fun hok => ?_⟩, fun s sid x p h => ⟨fun ty => execPackConfig_refused h, fun hbad => ?_⟩⟩
  · obtain ⟨t, st, ht, hst, hdone, hctx, hothers⟩ := ctxSet_takesEffect h hbad
    obtain ⟨hwdog, hsched, hprio, hfree⟩ := settled_now (s.ctx p.ctx) p.ctx p
    refine ⟨t, st, ht, hst, hdone, fun hholds => ?_, fun hholds => ?_, ?_⟩
    · rw [hctx, settled_of_holds p.ctx p hholds]
      exact ⟨rfl, rfl, rfl, fun v hv => by simp [hv]⟩
    · rw [hctx, settled_of_not_holds p.ctx p hholds]
      exact ⟨rfl, rfl, rfl⟩
    · rw [hctx]
      exact ⟨hwdog, hsched, hprio, hfree, hothers⟩
  · exact execQuotaSet_crowded h hover (List.any_eq_true.mpr ⟨ty, hty, by simp [State.quotaCrowds, hraise, hfull]⟩)
  · obtain ⟨t, ht, hdone⟩ := execQuotaSet_done h hover (List.any_eq_false.mpr fun ty hty => by
      simpa [State.quotaCrowds] using hfit ty hty)
    refine ⟨t, ht, hdone, by simp [hdone.ctx], fun k hk => ?_⟩
    rw [hdone.ctx, configChanged_ctx, State.updCtx_ctx_ne _ _ _ _ (Ne.symm hk), commit_ctx]
  · refine execBudgetSet_refused h hty (by rw [badBudget_of_some hv, decide_eq_true hbad]) fun h2 => ?_
    exact badBudget_eq_false.mpr (hmain h2)
  · obtain ⟨t, ht, hreply, hmain, hbackup, hcut, htimer, hrest⟩ := budgetSet_takesEffect h
      (badBudget_eq_false.mpr fun v => hok 1 v (by simp)) (badBudget_eq_false.mpr fun v => hok 2 v (by simp))
    exact ⟨t, ht, hreply, hmain, hbackup, fun hlt => by simp [hcut, hlt], fun hle => by simp [hcut, hle], htimer, hrest⟩
  · obtain ⟨t, ht, hdone⟩ := execPackConfig_done h hbad
    obtain ⟨hloaded, n, hshadow⟩ := writeOption_opt s.commit (·.packed p)
    have hopt : t.opt = _ := hdone.part State.opt fun _ _ _ => rfl
    refine ⟨t, ht, hdone, ?_⟩
    rw [hopt, hshadow, hloaded]
    exact ⟨rfl, rfl, rfl, rfl, rfl, rfl, rfl, rfl⟩

end Sys2Proof.Machine
end

section
/-! What the end of a context leaves as it was: memory, images, options, the supplies but for the power-ups that wait, and, where no
record is issued, the results. -/

namespace Sys2Proof.Machine

open Sys2Proof

/-- Memory, images, options, and the supplies but for the power-ups that wait. -/
def State.fixtures (s : State) : Memory × Images × Options × Supply := (s.mem, s.img, s.opt, { s.supply with waiting := [] })

/-- The fixtures, and the results. -/
def State.standing (s : State) : (Memory × Images × Options × Supply) × List ResultRec := (s.fixtures, s.results)

variable (s : State)

theorem fixtures_of_standing {s t : State} (h : t.standing = s.standing) : t.fixtures = s.fixtures := congrArg Prod.fst h

theorem parts_of_fixtures {s t : State} (h : t.fixtures = s.fixtures) :
    t.mem = s.mem ∧ t.img = s.img ∧ t.opt = s.opt ∧ { t.supply with waiting := s.supply.waiting } = s.supply := by
  simp only [State.fixtures, Prod.mk.injEq] at h
  obtain ⟨hmem, himg, hopt, hsupply⟩ := h
  exact ⟨hmem, himg, hopt, congrArg (fun v : Supply => { v with waiting := s.supply.waiting }) hsupply⟩

/-! ## Plain updates, folds and what they are made of -/

@[simp] theorem updCtx_standing (c : Nat) (f : Ctx → Ctx) : (s.updCtx c f).standing = s.standing := rfl
@[simp] theorem updThread_standing (t : Nat) (f : Thread → Thread) : (s.updThread t f).standing = s.standing := rfl
@[simp] theorem updRing_standing (r : Nat) (f : Ring → Ring) : (s.updRing r f).standing = s.standing := rfl
@[simp] theorem updCounter_standing (k : Nat) (f : Counter → Counter) : (s.updCounter k f).standing = s.standing := rfl
@[simp] theorem updCore_standing (k : Nat) (f : Core → Core) : (s.updCore k f).standing = s.standing := rfl
@[simp] theorem updEngine_standing (e : Nat) (f : Engine → Engine) : (s.updEngine e f).standing = s.standing := rfl
@[simp] theorem updPort_standing (k : Nat) (f : PackPort → PackPort) : (s.updPort k f).standing = s.standing := rfl
@[simp] theorem updClip_standing (c k m n : Nat) (f : ClipRec → ClipRec) : (s.updClip c k m n f).standing = s.standing := rfl
@[simp] theorem updSnap_standing (c k m n : Nat) (f : ClipRec → ClipRec) : (s.updSnap c k m n f).standing = s.standing := rfl
@[simp] theorem updPass_standing (c : Nat) (f : PackPass → PackPass) : (s.updPass c f).standing = s.standing := rfl
@[simp] theorem setPass_standing (c : Nat) (q : Option Pass) : (s.setPass c q).standing = s.standing := rfl
@[simp] theorem setEntry_standing (c id : Nat) (k : Option Nat) (e : Bool) : (s.setEntry c id k e).standing = s.standing := rfl
@[simp] theorem setUsed_standing (h n : Nat) : (s.setUsed h n).standing = s.standing := rfl
@[simp] theorem freeLines_standing (k e : Nat) : (s.freeLines k e).standing = s.standing := rfl
@[simp] theorem leavePass_standing (c : Nat) : (s.leavePass c).standing = s.standing := rfl
@[simp] theorem commit_standing : s.commit.standing = s.standing := rfl
@[simp] theorem configChanged_standing : s.configChanged.standing = s.standing := rfl

/-- A fold of steps that keep a part of the state keeps it. -/
theorem each_part {α β : Type} (g : State → β) {f : State → α → State} (hf : ∀ s n, g (f s n) = g s) (l : List α) (s : State) :
    g (s.each l f) = g s := by
  induction l generalizing s with
  | nil => rfl
  | cons n ns ih => exact (ih _).trans (hf s n)

theorem foldl_part {α β : Type} (g : State → β) {f : State → α → State} (hf : ∀ s n, g (f s n) = g s) (l : List α) (s : State) :
    g (l.foldl f s) = g s := by
  induction l generalizing s with
  | nil => rfl
  | cons n ns ih => exact (ih _).trans (hf s n)

@[simp] theorem notify_standing (sid op c : Nat) (st : Status) (d : Nat) (l : List Tlv) : (s.notify sid op c st d l).standing = s.standing := by
  simp [State.standing, State.fixtures]

@[simp] theorem complete_standing (who : Option (Nat × Nat)) (op c : Nat) (st : Status) (d : Nat) (l : List Tlv) :
    (s.complete who op c st d l).standing = s.standing := by
  simp [State.standing, State.fixtures]

@[simp] theorem trouble_standing (w b loc u c : Nat) (l : List Nat) : (s.trouble w b loc u c l).standing = s.standing := by
  simp [State.standing, State.fixtures]

/-- What changes ports and what leaves the module keeps the rest. -/
theorem onPorts_standing {s t : State} (h : OnPorts s t) : t.standing = s.standing := (congrArg State.standing h.1 :)

@[simp] theorem packSend_standing (d c : Nat) (b : PackBody) : (s.packSend d c b).standing = s.standing :=
  onPorts_standing (packSend_onPorts s d c b)

@[simp] theorem syncIngest_standing : s.syncIngest.standing = s.standing := by
  unfold State.syncIngest
  (repeat' split) <;> rfl

@[simp] theorem stopDone_standing (c : Nat) (who : List (Nat × Nat)) : (s.stopDone c who).standing = s.standing :=
  foldl_part State.standing (fun _ _ => complete_standing ..) who s

/-! ## Power and wakes -/

@[simp] theorem holdPower_standing (d : Dom) (c : Nat) : (s.holdPower d c).standing = s.standing := by
  have hheld : ((({ s with supply := { s.supply with waiting := s.supply.waiting ++ [(d, c)] } } : State).updCtx c
      (fun y => { y with held := true })).trouble 0 9 0 12 c []).standing = s.standing := by
    rw [trouble_standing]
    rfl
  unfold State.holdPower
  dsimp only
  split
  · exact hheld
  · split
    · exact hheld
    · exact hheld

@[simp] theorem wakeDom_standing (d : Dom) : (s.wakeDom d).standing = s.standing := by
  cases d with
  | coreGroup g => unfold State.wakeDom; dsimp only; split <;> rfl
  | _ => rfl

@[simp] theorem askPower_standing (d : Dom) (c : Nat) : (s.askPower d c).standing = s.standing := by
  unfold State.askPower
  split
  · rfl
  · split
    · exact holdPower_standing ..
    · exact wakeDom_standing ..

@[simp] theorem wakeThread_standing (t w : Nat) : (s.wakeThread t w).standing = s.standing := askPower_standing ..

/-! ## Threads, rings and counters of a context that ends -/

theorem orphanWake_standing (k : Nat) (ws : List Compare) : (s.orphanWake k ws).standing = s.standing := by
  induction ws generalizing s with
  | nil => rfl
  | cons w ws ih =>
    rw [State.orphanWake, ih, freeLines_standing]
    cases w.who <;> simp

theorem thresholdsNotify_standing (k : Nat) (st : Status) (ts : List Threshold) : (s.thresholdsNotify k st ts).standing = s.standing := by
  induction ts generalizing s with
  | nil => rfl
  | cons t ts ih => rw [State.thresholdsNotify, ih, State.thresholdNotify, notify_standing]

@[simp] theorem orphan_standing (k : Nat) : (s.orphan k).standing = s.standing := by
  simp [State.orphan, thresholdsNotify_standing, orphanWake_standing]

@[simp] theorem orphanAll_standing (c : Nat) : (s.orphanAll c).standing = s.standing :=
  each_part State.standing orphan_standing _ s

@[simp] theorem freeCounter_standing (k : Nat) : (s.freeCounter k).standing = s.standing := by
  unfold State.freeCounter
  dsimp only
  split <;> rfl

@[simp] theorem endCounter_standing (c k : Nat) : (s.endCounter c k).standing = s.standing := by
  unfold State.endCounter
  dsimp only
  split <;> simp

@[simp] theorem pairsEnd_standing (c : Nat) : (s.pairsEnd c).standing = s.standing :=
  foldl_part State.standing (fun _ _ => trouble_standing ..) _ s

@[simp] theorem endCounters_standing (c : Nat) : (s.endCounters c).standing = s.standing :=
  (each_part State.standing (fun t k => endCounter_standing t c k) _ _).trans (pairsEnd_standing s c)

@[simp] theorem withdraw_standing (t : Nat) : (s.withdraw t).standing = s.standing := by
  refine each_part State.standing (fun v k => ?_) (s.sync.counters.map Prod.fst) s
  dsimp only
  split
  · rfl
  · exact foldl_part State.standing (fun _ _ => by rfl) _ _

@[simp] theorem freeThreads_standing (c : Nat) : (s.freeThreads c).standing = s.standing :=
  each_part State.standing (fun v t => by exact withdraw_standing v t) _ s

@[simp] theorem faultThreads_standing (c : Nat) : (s.faultThreads c).standing = s.standing :=
  each_part State.standing (fun v t => by exact withdraw_standing v t) _ s

@[simp] theorem unbindRings_standing (c : Nat) : (s.unbindRings c).standing = s.standing :=
  each_part State.standing (fun _ _ => by rfl) _ s

theorem watch_standing (w : Watch) : ({ s with watch := w } : State).standing = s.standing := rfl

@[simp] theorem endCtx_standing (c : Nat) : (s.endCtx c).standing = s.standing := by
  unfold State.endCtx
  dsimp only
  rw [syncIngest_standing, apply_ite State.standing, watch_standing, leavePass_standing, ite_self, updCtx_standing,
    endCounters_standing, unbindRings_standing, freeThreads_standing]

/-! ## The close of an interval -/

@[simp] theorem setScale_standing (c : Nat) (q : ReqPoint) (k : Nat) (u : UnitScale) : (s.setScale c q k u).standing = s.standing :=
  each_part State.standing (fun _ _ => by rfl) _ s

@[simp] theorem scaleEvents_standing (q : ReqPoint) (c : Nat) (a b : UnitScale) : (s.scaleEvents q c a b).standing = s.standing := by
  unfold State.scaleEvents
  dsimp only
  (repeat' split) <;> simp

@[simp] theorem zeroScales_standing (c : Nat) (m : Member) : (s.zeroScales c m).standing = s.standing :=
  each_part State.standing (fun _ _ => setScale_standing ..) _ s

@[simp] theorem adaptAll_standing (c : Nat) (m : Member) (large events : Bool) (stat : State → ReqPoint → Nat → Nat → UnitStat) :
    (s.adaptAll c m large events stat).standing = s.standing := by
  refine each_part State.standing (fun v n => ?_) _ s
  dsimp only
  split
  · rfl
  · split <;> simp

@[simp] theorem snapCounts_standing (c : Nat) (m : Member) : (s.snapCounts c m).standing = s.standing :=
  each_part State.standing (fun v _ => each_part State.standing (fun _ _ => by rfl) _ v) _ s

@[simp] theorem zeroCounts_standing (c : Nat) (m : Member) : (s.zeroCounts c m).standing = s.standing :=
  each_part State.standing (fun v _ => each_part State.standing (fun _ _ => by rfl) _ v) _ s

@[simp] theorem snapScales_standing (c : Nat) (m : Member) : (s.snapScales c m).standing = s.standing :=
  each_part State.standing (fun v _ => each_part State.standing (fun _ _ => by rfl) _ v) _ s

@[simp] theorem closeColumns_standing (c : Nat) : (s.closeColumns c).standing = s.standing :=
  each_part State.standing (fun _ _ => by rfl) _ s

@[simp] theorem applySnaps_standing (c : Nat) : (s.applySnaps c).standing = s.standing := by
  unfold State.applySnaps
  split
  · dsimp only
    split
    · rfl
    · rw [snapScales_standing, adaptAll_standing]
      rfl
  · rfl

@[simp] theorem noteSnap_standing (c pos : Nat) (u : List UnitStat) : (s.noteSnap c pos u).standing = s.standing := by
  unfold State.noteSnap
  split
  · (repeat' split) <;> simp
  · dsimp only
    split
    · exact applySnaps_standing _ c
    · rfl

@[simp] theorem giveSnap_standing (c : Nat) (u : List UnitStat) : (s.giveSnap c u).standing = s.standing := by
  unfold State.giveSnap
  split
  · simp
  · exact packSend_standing ..

@[simp] theorem closeLocal_standing (c : Nat) (m : Member) : (s.closeLocal c m).standing = s.standing := by
  unfold State.closeLocal
  dsimp only
  simp only [closeColumns_standing, snapScales_standing, zeroCounts_standing]
  (repeat' split) <;> simp

@[simp] theorem closeInterval_standing (c : Nat) : (s.closeInterval c).standing = s.standing := by
  unfold State.closeInterval
  split
  · rfl
  · dsimp only
    split <;> simp

/-! ## Records that the end of a pass issues -/

@[simp] theorem setPass_fixtures (c : Nat) (q : Option Pass) : (s.setPass c q).fixtures = s.fixtures := rfl
@[simp] theorem updPass_fixtures (c : Nat) (f : PackPass → PackPass) : (s.updPass c f).fixtures = s.fixtures := rfl

@[simp] theorem issueOne_fixtures (r : ResultRec) : (s.issueOne r).fixtures = s.fixtures := by
  refine each_part State.fixtures (fun v n => ?_) _ _
  split
  · split
    · exact fixtures_of_standing (notify_standing ..)
    · rfl
  · rfl

@[simp] theorem issueTroubles_fixtures (rs : List ResultRec) : (s.issueTroubles rs).fixtures = s.fixtures := by
  unfold State.issueTroubles
  refine (foldl_part State.fixtures (fun v r => ?_) rs _).trans ?_
  · split
    · exact fixtures_of_standing (trouble_standing ..)
    · rfl
  · split
    · exact (fixtures_of_standing (trouble_standing ..)).trans rfl
    · rfl

@[simp] theorem sendRecord_fixtures (r : ResultRec) : (s.sendRecord r).fixtures = s.fixtures :=
  fixtures_of_standing (packSend_standing ..)

@[simp] theorem issue_fixtures (rs : List ResultRec) : (s.issue rs).fixtures = s.fixtures := by
  unfold State.issue
  split
  · rfl
  · split
    · rw [issueTroubles_fixtures]
      exact foldl_part State.fixtures issueOne_fixtures rs s.commit
    · exact foldl_part State.fixtures sendRecord_fixtures rs s

@[simp] theorem leadTake_fixtures (pos n : Nat) (r : ResultRec) : (s.leadTake pos n r).fixtures = s.fixtures := by
  unfold State.leadTake
  (repeat' split) <;> simp

@[simp] theorem issueSeg_fixtures (c : Nat) (r : ResultRec) : (s.issueSeg c r).fixtures = s.fixtures := by
  unfold State.issueSeg State.sendShare
  (repeat' split) <;> simp

@[simp] theorem endPass_fixtures (c : Nat) : (s.endPass c).fixtures = s.fixtures := by
  unfold State.endPass
  (repeat' split) <;> simp

@[simp] theorem finishBack_fixtures (c : Nat) : (s.finishBack c).fixtures = s.fixtures := by
  unfold State.finishBack
  split
  · exact issue_fixtures ..
  · rfl

@[simp] theorem cutPass_fixtures (c : Nat) : (s.cutPass c).fixtures = s.fixtures := by
  unfold State.cutPass
  split
  · rw [finishBack_fixtures, fixtures_of_standing (closeInterval_standing ..), endPass_fixtures]
  · exact finishBack_fixtures ..

end Sys2Proof.Machine
end

section
/-! The start of a context (R297, R309): when it is refused, which does not depend on the module's life, and what it leaves. -/

namespace Sys2Proof.Machine

open Sys2Proof

variable (s : State) (l : Life) (c : Nat)

/-! ## The tests of a start -/

/-- The state with the module's life at `l`. -/
def State.atLife (s : State) (l : Life) : State := { s with life := l }

/-- What a start tests before it binds anything: the status that refuses it, or the image and the member that it starts (R297). -/
def State.startTests (s : State) (c : Nat) : Except Status (Image × Member) :=
  match s.image with
  | none => .error (if s.img.active.isSome then .signatureFail else .badParam)
  | some i =>
    match s.member c with
    | none => .error .badParam
    | some m =>
      if (s.ctx c).started then .error .busy
      else if s.startsIngest i c = true ∧ s.inputsFed i = false then .error .badParam
      else if s.quotaFits c m.quota = false then .error .noResource
      else if m.quota.power * 10 < 10 * m.drawW then .error .noResource
      else .ok (i, m)

/-- The context has its member's quotas and draw estimate. -/
def State.budgetedFor (s : State) (c : Nat) (m : Member) : State := s.updCtx c (fun y => { y with quota := m.quota, estimate := 10 * m.drawW })

/-- A context that waits with nothing left of an earlier run (R297). -/
def Ctx.begun (y : Ctx) : Ctx :=
  { y with state := .waiting, catchUp := false, cup := 0, held := y.held, shedQ := false, late := 0, cause := 0,
           stopReq := none, failLogged := false, latched := false, schedCount := 0, pass := none, pend := none, poisoned := false,
           inIter := false, quiet := false, pt := y.pendPt.getD y.pt, allow := y.pendAllow.getD y.allow,
           rint := y.pendRint.getD y.rint, pendPt := none, pendAllow := none, pendRint := none }

/-- The start of a context that is bound, before the draw test. -/
def State.begin (s : State) (c : Nat) (m : Member) : State :=
  let s3 := s.updCtx c Ctx.begun
  let s4 := { s3 with sync := { s3.sync with fullLogged := s3.sync.fullLogged.filter (· ≠ c) } }
  (if c = 0 then { s4.zeroState m with watch := Watch.atStart s4.nextHeld 0 } else s4).syncIngest

theorem startCtx_eq : s.startCtx c = match s.startTests c with
    | .error st => (st, s)
    | .ok (i, m) => match (s.budgetedFor c m).bindCtx c i m with
      | none => (.noResource, s)
      | some v => if (v.begin c m).drawTest c then (.ok, v.begin c m) else (.budget, (v.begin c m).shedCtx c) := by
  unfold State.startCtx State.startTests
  cases s.image with
  | none => rfl
  | some i =>
    cases s.member c with
    | none => rfl
    | some m =>
      dsimp -zeta only
      by_cases hbusy : (s.ctx c).started = true
      · rw [if_pos hbusy, if_pos hbusy]
      rw [if_neg hbusy, if_neg hbusy]
      by_cases hfed : s.startsIngest i c = true ∧ s.inputsFed i = false
      · rw [if_pos hfed, if_pos hfed]
      rw [if_neg hfed, if_neg hfed]
      by_cases hfits : s.quotaFits c m.quota = false
      · rw [if_pos hfits, if_pos hfits]
      rw [if_neg hfits, if_neg hfits]
      by_cases hpower : m.quota.power * 10 < 10 * m.drawW
      · rw [if_pos hpower, if_pos hpower]
      rw [if_neg hpower, if_neg hpower]
      rfl

theorem startTests_error {st : Status} (h : s.startTests c = .error st) : ¬ st.code < 0x10 := by
  have hbad : ¬ Status.badParam.code < 0x10 := by decide
  have hsignature : ¬ (if s.img.active.isSome then Status.signatureFail else .badParam).code < 0x10 := by split <;> decide
  unfold State.startTests at h
  split at h
  · cases h; exact hsignature
  · split at h
    · cases h; exact hbad
    · split_ifs at h <;> cases h <;> decide

/-! ## Binding does not depend on the module's life -/

theorem each_atLife {α : Type} {f : State → α → State} (hf : ∀ v n, f (v.atLife l) n = (f v n).atLife l) (ns : List α) :
    (s.atLife l).each ns f = (s.each ns f).atLife l := by
  induction ns generalizing s with
  | nil => rfl
  | cons n ns ih => rw [State.each, hf, ih]; rfl

theorem foldl_atLife {α : Type} {f : State → α → State} (hf : ∀ v n, f (v.atLife l) n = (f v n).atLife l) (ns : List α) :
    ns.foldl f (s.atLife l) = (ns.foldl f s).atLife l := by
  induction ns generalizing s with
  | nil => rfl
  | cons n ns ih => rw [List.foldl_cons, hf, ih]; rfl

/-- The waits of a thread at one counter. -/
def State.waitsAt (s : State) (t k : Nat) : List Compare := (s.counter k).waiters.filter (fun w => decide (w.who = .thread t))

/-- The counter without the waits of a thread, whose table entries are free. -/
def State.dropWaits (s : State) (t k : Nat) : State :=
  (s.updCounter k (fun y => { y with waiters := y.waiters.filter (fun w => decide (w.who ≠ .thread t)) })).setUsed
    (homeOf k) (s.usedAt (homeOf k) - (s.waitsAt t k).length)

/-- The waits of a thread at one counter are withdrawn. -/
def State.withdrawAt (t : Nat) (s : State) (k : Nat) : State :=
  if (s.waitsAt t k).isEmpty then s else (s.waitsAt t k).foldl (fun v w => v.freeLines k w.expect) (s.dropWaits t k)

/-- A thread is in no list of those that wait or wake. -/
def State.unlisted (s : State) (t : Nat) : State :=
  { s with
    sync := { s.sync with
      blocked := s.sync.blocked.filter (fun b => decide (b.2.who ≠ .thread t))
      woken := s.sync.woken.filter (· ≠ t) }
    pack := { s.pack with mirrorWait := s.pack.mirrorWait.filter (fun m => decide (m.1 ≠ t)) } }

theorem withdraw_eq (t : Nat) : s.withdraw t = (s.each (s.sync.counters.map Prod.fst) (State.withdrawAt t)).unlisted t := rfl

theorem withdrawAt_atLife (t k : Nat) : State.withdrawAt t (s.atLife l) k = (State.withdrawAt t s k).atLife l := by
  unfold State.withdrawAt
  rw [apply_ite (State.atLife · l)]
  exact if_congr Iff.rfl rfl (foldl_atLife (s.dropWaits t k) l (fun _ _ => by rfl) (s.waitsAt t k))

theorem withdraw_atLife (t : Nat) : (s.atLife l).withdraw t = (s.withdraw t).atLife l := by
  rw [withdraw_eq, withdraw_eq]
  exact congrArg (State.unlisted · t) (each_atLife s l (fun v k => withdrawAt_atLife v l t k) _)

/-- The threads and rings of the context are free, and so are its failed writes. -/
def State.unbound (s : State) (c : Nat) : State :=
  let s0 := (s.freeThreads c).unbindRings c
  { s0 with pack := { s0.pack with failedWrites := s0.pack.failedWrites.filter (· ≠ c) } }

theorem unbound_atLife : (s.atLife l).unbound c = (s.unbound c).atLife l := by
  have hthreads : (s.atLife l).freeThreads c = (s.freeThreads c).atLife l :=
    each_atLife s l (fun v t => by rw [withdraw_atLife]; rfl) _
  have hrings : (s.atLife l |>.freeThreads c).unbindRings c = ((s.freeThreads c).unbindRings c).atLife l := by
    rw [hthreads]
    exact each_atLife _ l (fun _ _ => by rfl) _
  unfold State.unbound
  rw [hrings]
  rfl

/-- A thread or ring that the image binds is taken, or a quota is too small. -/
def State.bindBarred (s : State) (c : Nat) (i : Image) (m : Member) : Bool :=
  decide ((i.programsOf c).any (fun q => decide ((s.thread q.thread).state ≠ .free ∧ (s.thread q.thread).state ≠ .faulted)) = true
      ∨ (s.ctx c).quota.threads < (i.programsOf c).length)
    || decide ((i.ringsFor c).any (fun r => decide ((s.ring r.ring).state ≠ 3)) = true ∨ (s.ctx c).quota.rings < (i.ringsFor c).length)
    || decide ((s.ctx c).quota.counters < (s.owned c).length + (i.countersOf c).length ∨ (s.ctx c).quota.bytes < m.quota.bytes)

theorem ite_none_chain {α : Type} {P Q R : Prop} [Decidable P] [Decidable Q] [Decidable R] (o : Option α) :
    (if P then none else if Q then none else if R then none else o) = if (decide P || decide Q || decide R) = true then none else o := by
  by_cases P <;> by_cases Q <;> by_cases R <;> simp [*]

theorem bindCtx_eq (i : Image) (m : Member) : ∃ g, s.bindCtx c i m
    = if (s.unbound c).bindBarred c i m = true then none else ((s.unbound c).bindCounters c (i.countersOf c)).map g :=
  ⟨_, ite_none_chain _⟩

theorem bindCtx_isSome (i : Image) (m : Member) : (s.bindCtx c i m).isSome
    = (!(s.unbound c).bindBarred c i m && ((s.unbound c).bindCounters c (i.countersOf c)).isSome) := by
  obtain ⟨g, hg⟩ := bindCtx_eq s c i m
  rw [hg]
  cases (s.unbound c).bindBarred c i m <;> simp

@[simp] theorem holdPower_sync (d : Dom) : (s.holdPower d c).sync = s.sync := by
  unfold State.holdPower
  dsimp only
  (repeat' split) <;> simp

@[simp] theorem askPower_sync (d : Dom) : (s.askPower d c).sync = s.sync := by
  unfold State.askPower
  split
  · rfl
  · split
    · exact holdPower_sync ..
    · cases d with
      | coreGroup g => unfold State.wakeDom; dsimp only; split <;> rfl
      | _ => rfl

/-- Which counters are bound depends on the counters alone, not on the power that they ask for. -/
theorem bindCounters_isSome {s t : State} (h : s.sync = t.sync) (c : Nat) (ds : List CtrDecl) :
    (s.bindCounters c ds).isSome = (t.bindCounters c ds).isSome := by
  induction ds generalizing s t with
  | nil => rfl
  | cons d ds ih =>
    have hfree : s.freeAt d.home = t.freeAt d.home := by simp only [State.freeAt, State.counter, h]
    rw [State.bindCounters, State.bindCounters, State.bindCounter, State.bindCounter, hfree]
    cases t.freeAt d.home with
    | none => rfl
    | some k =>
      refine ih ?_
      simp only [askPower_sync, State.setEntry, State.updCounter, h]

theorem bindCtx_isSome_atLife (i : Image) (m : Member) : ((s.atLife l).bindCtx c i m).isSome = (s.bindCtx c i m).isSome := by
  rw [bindCtx_isSome, bindCtx_isSome, unbound_atLife, bindCounters_isSome (s := (s.unbound c).atLife l) (t := s.unbound c) rfl]
  rfl

/-! ## How a start ends -/

/-- A start is refused by the tests or by the binding, or the draw test says whether the context waits or is shed. -/
theorem startCtx_cases :
    (∃ st, s.startTests c = .error st ∧ s.startCtx c = (st, s))
    ∨ (∃ i m, s.startTests c = .ok (i, m) ∧ (s.budgetedFor c m).bindCtx c i m = none ∧ s.startCtx c = (.noResource, s))
    ∨ ∃ i m v, s.startTests c = .ok (i, m) ∧ (s.budgetedFor c m).bindCtx c i m = some v
      ∧ s.startCtx c = if (v.begin c m).drawTest c then (.ok, v.begin c m) else (.budget, (v.begin c m).shedCtx c) := by
  rw [startCtx_eq]
  cases htests : s.startTests c with
  | error st => exact .inl ⟨st, rfl, rfl⟩
  | ok im =>
    obtain ⟨i, m⟩ := im
    cases hbind : (s.budgetedFor c m).bindCtx c i m with
    | none => exact .inr (.inl ⟨i, m, rfl, hbind, by simp only [hbind]⟩)
    | some v => exact .inr (.inr ⟨i, m, v, rfl, hbind, by simp only [hbind]⟩)

/-- A start that is refused is refused with the same status whatever the module's life. -/
theorem startCtx_refused_atLife (k : Life) (h : ¬ ((s.atLife l).startCtx c).1.code < 0x10) :
    ((s.atLife k).startCtx c).1 = ((s.atLife l).startCtx c).1 := by
  have hbind (i : Image) (m : Member) : (((s.atLife k).budgetedFor c m).bindCtx c i m).isSome = (((s.atLife l).budgetedFor c m).bindCtx c i m).isSome :=
    (bindCtx_isSome_atLife (s.budgetedFor c m) k c i m).trans (bindCtx_isSome_atLife (s.budgetedFor c m) l c i m).symm
  obtain ⟨st, htests, hl⟩ | ⟨i, m, htests, hnone, hl⟩ | ⟨i, m, v, htests, hsome, hl⟩ := startCtx_cases (s.atLife l) c
  · have hk : (s.atLife k).startTests c = .error st := htests
    rw [hl, startCtx_eq, hk]
  · have hk : (s.atLife k).startTests c = .ok (i, m) := htests
    have hknone : ((s.atLife k).budgetedFor c m).bindCtx c i m = none := by
      simpa [hnone] using hbind i m
    rw [hl, startCtx_eq, hk]
    simp only [hknone]
  · refine absurd ?_ h
    rw [hl]
    cases (v.begin c m).drawTest c
    · exact (by decide : Status.budget.code < 0x10)
    · exact (by decide : Status.ok.code < 0x10)

/-- The context waits, and nothing of an earlier run is left: no late count, no cause, no pass, no stop owed. -/
def Ctx.fresh (y : Ctx) : Prop :=
  y.state = .waiting ∧ y.late = 0 ∧ y.cause = 0 ∧ y.pass = none ∧ y.pend = none ∧ y.stopReq = none

theorem updCtx_begun (c : Nat) : ((s.updCtx c Ctx.begun).ctx c).fresh := by
  rw [State.updCtx_ctx_same]
  exact ⟨rfl, rfl, rfl, rfl, rfl, rfl⟩

theorem syncIngest_ctxs : s.syncIngest.ctxs = s.ctxs := by
  unfold State.syncIngest
  (repeat' split) <;> rfl

theorem ctx_of_ctxs {s t : State} (h : t.ctxs = s.ctxs) (c : Nat) : t.ctx c = s.ctx c := by
  rw [State.ctx, h, State.ctx]

theorem begin_fresh (m : Member) : ((s.begin c m).ctx c).fresh := by
  have hctxs : (s.begin c m).ctxs = (s.updCtx c Ctx.begun).ctxs := by
    refine (syncIngest_ctxs _).trans ?_
    split <;> rfl
  rw [ctx_of_ctxs hctxs]
  exact updCtx_begun s c

/-- A context that is put into Shed, with SHED raised for it. -/
theorem trouble_shed {f : Ctx → Ctx} (hf : ∀ y, (f y).state = .shed) (l : List Nat) :
    (((s.updCtx c f).trouble 0 7 0 12 c l).ctx c).state = .shed ∧ (((s.updCtx c f).trouble 0 7 0 12 c l).logs.word 0).getLsbD 7 = true := by
  rw [ctx_of_ctxs (State.trouble_ctxs ..), State.updCtx_ctx_same, State.trouble_word _ _ _ _ _ _ _ _ _ (by decide) (by decide) (by decide)]
  exact ⟨hf _, by simp⟩

theorem shedCtx_shed : ((s.shedCtx c).ctx c).state = .shed ∧ ((s.shedCtx c).logs.word 0).getLsbD 7 = true := by
  unfold State.shedCtx
  dsimp only
  split
  · exact trouble_shed s c (fun _ => by rfl) _
  · exact trouble_shed s c (fun _ => by rfl) _

theorem startCtx_ok {s : State} (h : (s.startCtx c).1 = .ok) : ((s.startCtx c).2.ctx c).fresh := by
  obtain ⟨st, htests, heq⟩ | ⟨_, _, _, _, heq⟩ | ⟨_, m, v, _, _, heq⟩ := startCtx_cases s c
  · obtain rfl : st = .ok := by rwa [heq] at h
    exact absurd (by decide) (startTests_error s c htests)
  · rw [heq] at h
    cases h
  · cases hdraw : (v.begin c m).drawTest c <;> rw [hdraw] at heq
    · rw [heq] at h
      cases h
    · rw [heq]
      exact begin_fresh v c m

theorem startCtx_budget {s : State} (h : (s.startCtx c).1 = .budget) :
    ((s.startCtx c).2.ctx c).state = .shed ∧ ((s.startCtx c).2.logs.word 0).getLsbD 7 = true := by
  obtain ⟨st, htests, heq⟩ | ⟨_, _, _, _, heq⟩ | ⟨_, m, v, _, _, heq⟩ := startCtx_cases s c
  · obtain rfl : st = .budget := by rwa [heq] at h
    exact absurd (by decide) (startTests_error s c htests)
  · rw [heq] at h
    cases h
  · cases hdraw : (v.begin c m).drawTest c <;> rw [hdraw] at heq
    · rw [heq]
      exact shedCtx_shed (v.begin c m) c
    · rw [heq] at h
      cases h

end Sys2Proof.Machine
end

section
/-! The end of a context by a stop or a reset (R278, R297): its entry, and what it leaves as it was. -/

namespace Sys2Proof.Machine

open Sys2Proof

variable (s : State) (c : Nat)

/-- The context is Stopped and nothing of its run is left: no cause, no stop owed, no pass. -/
def Ctx.ended (y : Ctx) : Prop := y.state = .stopped ∧ y.cause = 0 ∧ y.stopReq = none ∧ y.pend = none ∧ y.pass = none

theorem updCtx_ended {f : Ctx → Ctx} (hf : (f (s.ctx c)).ended) : ((s.updCtx c f).ctx c).ended := by
  rwa [State.updCtx_ctx_same]

@[simp] theorem stopDone_ctxs (who : List (Nat × Nat)) : (s.stopDone c who).ctxs = s.ctxs :=
  foldl_part State.ctxs (fun v a => by exact State.complete_ctxs v (some a) 0x0402 c .ok 0 []) who s

/-! ## A stop, R297 -/

/-- A context that ends normally, with what awaited a boundary in force (R426). -/
def Ctx.stop (y : Ctx) : Ctx :=
  { y with state := .stopped, catchUp := false, cup := 0, held := false, shedQ := false, cause := 0, stopReq := none,
           buffers := 0, pass := none, pend := none, inIter := false, quiet := false, poisoned := false,
           pt := y.pendPt.getD y.pt, allow := y.pendAllow.getD y.allow, rint := y.pendRint.getD y.rint,
           pendPt := none, pendAllow := none, pendRint := none }

/-- The schedule of a watch context that ends, or the part of an inspect context in a pass of the pack. -/
def State.dropSchedule (s : State) (c : Nat) : State := if c = 0 then { s with watch := {} } else s.leavePass c

theorem dropSchedule_ctxs : (s.dropSchedule c).ctxs = s.ctxs := by
  unfold State.dropSchedule
  split <;> rfl

theorem endCtx_eq : s.endCtx c = (((((s.freeThreads c).unbindRings c).endCounters c).updCtx c Ctx.stop).dropSchedule c).syncIngest := rfl

theorem endCtx_ended : ((s.endCtx c).ctx c).ended := by
  rw [endCtx_eq, ctx_of_ctxs (syncIngest_ctxs _), ctx_of_ctxs (dropSchedule_ctxs ..)]
  exact updCtx_ended _ _ ⟨rfl, rfl, rfl, rfl, rfl⟩

theorem stopAtCommit_ended : ((s.stopAtCommit c).ctx c).ended := by
  unfold State.stopAtCommit
  dsimp only
  rw [ctx_of_ctxs (stopDone_ctxs ..)]
  exact endCtx_ended ..

theorem stopAtCommit_fixtures : (s.stopAtCommit c).fixtures = s.fixtures := by
  unfold State.stopAtCommit
  dsimp only
  rw [fixtures_of_standing (stopDone_standing ..), fixtures_of_standing (endCtx_standing ..)]
  split
  · rfl
  · split
    · split
      · rfl
      · exact fixtures_of_standing (closeInterval_standing ..)
    · exact cutPass_fixtures s c

/-- The context owes a stop, and its pending pass is gone. -/
def State.oweStop (s : State) (c : Nat) (who : List (Nat × Nat)) : State :=
  s.updCtx c (fun y => { y with stopReq := some (y.stopReq.getD [] ++ who), pend := none })

theorem live_iff (y : Ctx) : y.live = true ↔ y.state = .waiting ∨ y.state = .running := by
  cases h : y.state <;> simp [Ctx.live, h]

theorem askStop_of_owed {s : State} {c : Nat} (hlive : (s.ctx c).live = true) (hrun : s.idle c = false ∨ (c = 0 ∧ s.watch.mandatory = true))
    (who : List (Nat × Nat)) : s.askStop c who = s.oweStop c who := by
  have hnot : ¬ ((s.oweStop c who).idle c = true ∧ (c ≠ 0 ∨ (s.oweStop c who).watch.mandatory = false)) := by
    change ¬ (s.idle c = true ∧ (c ≠ 0 ∨ s.watch.mandatory = false))
    rcases hrun with hidle | ⟨rfl, hmandatory⟩
    · simp [hidle]
    · simp [hmandatory]
  unfold State.askStop
  obtain hstate | hstate := (live_iff _).mp hlive <;> rw [hstate] <;> exact if_neg hnot

theorem askStop_of_now {s : State} {c : Nat} (hnow : (s.ctx c).state = .shed ∨ (s.ctx c).state = .faulted
      ∨ ((s.ctx c).live = true ∧ s.idle c = true ∧ (c ≠ 0 ∨ s.watch.mandatory = false)))
    (who : List (Nat × Nat)) : s.askStop c who = (s.oweStop c who).stopAtCommit c := by
  unfold State.askStop
  obtain hstate | hstate | ⟨hlive, hstop⟩ := hnow
  · rw [hstate]; rfl
  · rw [hstate]; rfl
  · obtain hstate | hstate := (live_iff _).mp hlive <;> rw [hstate] <;> exact if_pos hstop

/-! ## A reset, R278 -/

@[simp] theorem runsFailed_standing (k : Nat) : (s.runsFailed c k).standing = s.standing := by
  unfold State.runsFailed State.runFailed
  dsimp only
  (repeat' split) <;> simp

@[simp] theorem dropCtx_standing (k : Nat) : (s.dropCtx c k).standing = s.standing := by
  simp [State.dropCtx]

/-- A context that ends at once: its threads that a fault has left are free. -/
def State.dropped (s : State) (c : Nat) : State :=
  (s.dropCtx c 0).each ((s.dropCtx c 0).faultedOf c) (fun v t => v.updThread t Thread.freed)

theorem dropped_standing : (s.dropped c).standing = s.standing :=
  (each_part State.standing (fun _ _ => by rfl) _ _).trans (dropCtx_standing s c 0)

theorem dropped_ctx : ((s.dropped c).ctx c).pass = none ∧ ((s.dropped c).ctx c).pend = none := by
  have hctxs : (s.dropped c).ctxs = (s.dropCtx c 0).ctxs := each_part State.ctxs (fun _ _ => by rfl) _ _
  rw [ctx_of_ctxs hctxs, State.dropCtx]
  rw [State.updCtx_ctx_same]
  exact ⟨rfl, rfl⟩

/-- A context that a reset stops: nothing of its cause or of a stop owed is left (R297). -/
def Ctx.reset (y : Ctx) : Ctx :=
  { y with state := .stopped, cause := 0, stopReq := none, poisoned := false, buffers := 0
           pt := y.pendPt.getD y.pt, allow := y.pendAllow.getD y.allow, rint := y.pendRint.getD y.rint
           pendPt := none, pendAllow := none, pendRint := none }

theorem reset_ended {y : Ctx} (hpass : y.pass = none) (hpend : y.pend = none) : y.reset.ended := ⟨rfl, rfl, rfl, hpend, hpass⟩

/-- A watch context that is reset has no schedule. -/
def State.clearWatch (s : State) (c : Nat) : State := if c = 0 then { s with watch := {} } else s

theorem clearWatch_ctxs : (s.clearWatch c).ctxs = s.ctxs := by
  unfold State.clearWatch
  split <;> rfl

theorem clearWatch_standing : (s.clearWatch c).standing = s.standing := by
  unfold State.clearWatch
  split <;> rfl

theorem resetCtx_eq : s.resetCtx c
    = ((((s.dropped c).updCtx c Ctx.reset).clearWatch c).syncIngest).stopDone c ((s.ctx c).stopReq.getD []) := rfl

theorem resetCtx_ended : ((s.resetCtx c).ctx c).ended := by
  obtain ⟨hpass, hpend⟩ := dropped_ctx s c
  rw [resetCtx_eq, ctx_of_ctxs (stopDone_ctxs ..), ctx_of_ctxs (syncIngest_ctxs _), ctx_of_ctxs (clearWatch_ctxs ..)]
  exact updCtx_ended (s.dropped c) c (reset_ended hpass hpend)

theorem resetCtx_standing : (s.resetCtx c).standing = s.standing := by
  rw [resetCtx_eq, stopDone_standing, syncIngest_standing, clearWatch_standing, updCtx_standing]
  exact dropped_standing s c

/-! ## What the lead of a pack notes besides -/

/-- The state after a stop or reset on this module: the lead of a pack notes what is started still. -/
def State.noted (s : State) (c : Nat) : State := if s.solo then s else (s.noteRun (s.watchNoted && decide (c ≠ 0))).syncIngest

theorem noted_standing : (s.noted c).standing = s.standing := by
  unfold State.noted
  split
  · rfl
  · exact syncIngest_standing _

theorem noted_ctxs : (s.noted c).ctxs = s.ctxs := by
  unfold State.noted
  split
  · rfl
  · exact syncIngest_ctxs _

end Sys2Proof.Machine
end

section
/-! The commands that start, stop, reset and run a context (R295 to R298, R409, R410), on a module of its own. -/

namespace Sys2Proof.Machine

open Sys2Proof

variable {s t u : State} {sid : Nat} {x : Session} {p : Packet}

theorem watchElsewhere_of_solo (h : s.solo = true) (c : Nat) : s.watchElsewhere c = false := by
  simp [State.watchElsewhere, h]

theorem startCmd_of_solo (h : s.solo = true) (c : Nat) : s.startCmd c = s.startCtx c := by
  simp [State.startCmd, watchElsewhere_of_solo h, h]

/-- What a command leaves, where its rules leave the fixtures. -/
theorem WriteDone.fixtures {st : Status} {vs : List (List Byte)} (h : WriteDone s t sid x p st vs u) (hu : u.fixtures = s.fixtures) :
    t.mem = s.mem ∧ t.img = s.img ∧ t.opt = s.opt ∧ { t.supply with waiting := s.supply.waiting } = s.supply :=
  parts_of_fixtures ((h.part State.fixtures fun _ _ _ => rfl).trans hu)

/-! ## CTX_START -/

theorem execCtxStart_done (h : Asks s 0x0401 sid x p) (hsolo : s.solo = true) (hst : ((s.taken sid p).startCtx p.ctx).1.code < 0x10) :
    ∃ t, execCtxStart sid s = .next t
      ∧ WriteDone s t sid x p ((s.taken sid p).startCtx p.ctx).1 [] ((s.taken sid p).startCtx p.ctx).2.configChanged := by
  have hcmd : (s.taken sid p).startCmd p.ctx = (s.taken sid p).startCtx p.ctx :=
    startCmd_of_solo (s := s.taken sid p) hsolo p.ctx
  refine ⟨_, rfl, writeDone_of_taken h hst ?_⟩
  dsimp only
  rw [hcmd, if_pos hst]
  rfl

theorem execCtxStart_refused {st : Status} (h : Asks s 0x0401 sid x p) (hsolo : s.solo = true) (hst : ¬ st.code < 0x10)
    (heq : ((s.taken sid p).startCtx p.ctx).1 = st) : ∃ t, execCtxStart sid s = .next t ∧ Refused s t sid x p st 0 := by
  refine ⟨_, rfl, refused_of_asked h hst fun l => ?_⟩
  have hcmd : (s.askedAt sid p l).startCmd p.ctx = (s.askedAt sid p l).startCtx p.ctx :=
    startCmd_of_solo (s := s.askedAt sid p l) hsolo p.ctx
  have hl : ((s.askedAt sid p l).startCtx p.ctx).1 = st :=
    (startCtx_refused_atLife (s.inHand sid p) s.commit.life p.ctx l (heq ▸ hst)).trans heq
  dsimp only
  rw [hcmd, hl, if_neg hst]
  rfl

/-! ## CTX_STOP -/

/-- CTX_STOP by the context's state. -/
theorem execCtxStop_eq (sid : Nat) (s : State) : execCtxStop sid s = .next (s.runCmd 0x0402 true sid (fun s p =>
    if s.watchElsewhere p.ctx then
      (if s.watchNoted then .accepted (((s.noteRun false).syncIngest.configChanged).stopDone 0 [(sid, p.seq)]) [] else .read [])
    else if (s.ctx p.ctx).state = .free ∨ (s.ctx p.ctx).state = .stopped then .read []
    else .accepted ((s.askStop p.ctx [(sid, p.seq)]).noted p.ctx).configChanged [])) := by
  unfold execCtxStop
  refine congrArg (fun f => Host.Outcome.next (s.runCmd 0x0402 true sid f)) (funext₂ fun v q => ?_)
  refine if_congr Iff.rfl rfl ?_
  cases (v.ctx q.ctx).state <;> rfl

theorem execCtxStop_idle (h : Asks s 0x0402 sid x p) (hsolo : s.solo = true) (hstate : (s.ctx p.ctx).state = .free ∨ (s.ctx p.ctx).state = .stopped) :
    ∃ t, execCtxStop sid s = .next t ∧ ReadDone s t sid x p [] := by
  refine ⟨_, execCtxStop_eq sid s, readDone_of_asked h fun l => ?_⟩
  have hsolo' : (s.askedAt sid p l).solo = true := hsolo
  simp only [watchElsewhere_of_solo hsolo', Bool.false_eq_true, if_false, askedAt_ctx, hstate, if_true]

theorem execCtxStop_done (h : Asks s 0x0402 sid x p) (hsolo : s.solo = true) (hstate : ¬ ((s.ctx p.ctx).state = .free ∨ (s.ctx p.ctx).state = .stopped)) :
    ∃ t, execCtxStop sid s = .next t
      ∧ WriteDone s t sid x p .accepted [] (((s.taken sid p).askStop p.ctx [(sid, p.seq)]).noted p.ctx).configChanged := by
  refine ⟨_, execCtxStop_eq sid s, writeDone_of_taken h (by decide) ?_⟩
  have hsolo' : (s.taken sid p).solo = true := hsolo
  simp only [watchElsewhere_of_solo hsolo', Bool.false_eq_true, if_false]
  exact if_neg hstate

/-- A stop that is owed: the present run goes on. -/
theorem execCtxStop_owed (h : Asks s 0x0402 sid x p) (hsolo : s.solo = true) (hlive : (s.ctx p.ctx).live = true)
    (hrun : s.idle p.ctx = false ∨ (p.ctx = 0 ∧ s.watch.mandatory = true)) :
    ∃ t, execCtxStop sid s = .next t ∧ WriteDone s t sid x p .accepted [] (s.commit.oweStop p.ctx [(sid, p.seq)]).configChanged := by
  have hstate : ¬ ((s.ctx p.ctx).state = .free ∨ (s.ctx p.ctx).state = .stopped) := by
    rcases (live_iff _).mp hlive with h | h <;> rw [h] <;> decide
  obtain ⟨t, ht, hreply, hrest⟩ := execCtxStop_done h hsolo hstate
  have hasked : (s.taken sid p).askStop p.ctx [(sid, p.seq)] = (s.taken sid p).oweStop p.ctx [(sid, p.seq)] :=
    askStop_of_owed (s := s.taken sid p) hlive hrun _
  have hnoted : ((s.taken sid p).oweStop p.ctx [(sid, p.seq)]).noted p.ctx = (s.taken sid p).oweStop p.ctx [(sid, p.seq)] := if_pos hsolo
  rw [hasked, hnoted] at hrest
  refine ⟨t, ht, hreply, ?_⟩
  exact congrArg (fun v : State => { v with comms := s.comms, out := s.out }) hrest

/-- A stop that takes effect at its own commit. -/
theorem execCtxStop_now (h : Asks s 0x0402 sid x p) (hsolo : s.solo = true)
    (hnow : (s.ctx p.ctx).state = .shed ∨ (s.ctx p.ctx).state = .faulted
      ∨ ((s.ctx p.ctx).live = true ∧ s.idle p.ctx = true ∧ (p.ctx ≠ 0 ∨ s.watch.mandatory = false))) :
    ∃ t, execCtxStop sid s = .next t ∧ Replied s t sid x (replyOf p .accepted 0 [] (s.life.commit + 1)) ∧ (t.ctx p.ctx).ended
      ∧ t.mem = s.mem ∧ t.img = s.img ∧ t.opt = s.opt ∧ { t.supply with waiting := s.supply.waiting } = s.supply := by
  have hstate : ¬ ((s.ctx p.ctx).state = .free ∨ (s.ctx p.ctx).state = .stopped) := by
    rcases hnow with h | h | ⟨h, -⟩
    · rw [h]; decide
    · rw [h]; decide
    · rcases (live_iff _).mp h with h | h <;> rw [h] <;> decide
  obtain ⟨t, ht, hdone⟩ := execCtxStop_done h hsolo hstate
  have hasked : (s.taken sid p).askStop p.ctx [(sid, p.seq)] = ((s.taken sid p).oweStop p.ctx [(sid, p.seq)]).stopAtCommit p.ctx :=
    askStop_of_now (s := s.taken sid p) hnow _
  rw [hasked] at hdone
  refine ⟨t, ht, hdone.1, ?_, hdone.fixtures ?_⟩
  · rw [hdone.ctx, configChanged_ctx, ctx_of_ctxs (noted_ctxs ..)]
    exact stopAtCommit_ended ..
  · rw [fixtures_of_standing (configChanged_standing _), fixtures_of_standing (noted_standing ..), stopAtCommit_fixtures]
    rfl

/-! ## CTX_RESET -/

/-- CTX_RESET by the context's state. -/
theorem execCtxReset_eq (sid : Nat) (s : State) : execCtxReset sid s = .next (s.runCmd 0x0403 true sid (fun s p =>
    if s.watchElsewhere p.ctx then
      (if s.watchNoted then .done (s.noteRun false).syncIngest.configChanged [] else .read [])
    else if (s.ctx p.ctx).state = .free ∨ (s.ctx p.ctx).state = .stopped then .read []
    else .done ((s.resetCtx p.ctx).noted p.ctx).configChanged [])) := by
  unfold execCtxReset
  refine congrArg (fun f => Host.Outcome.next (s.runCmd 0x0403 true sid f)) (funext₂ fun v q => ?_)
  refine if_congr Iff.rfl rfl ?_
  cases (v.ctx q.ctx).state <;> rfl

theorem execCtxReset_idle (h : Asks s 0x0403 sid x p) (hsolo : s.solo = true) (hstate : (s.ctx p.ctx).state = .free ∨ (s.ctx p.ctx).state = .stopped) :
    ∃ t, execCtxReset sid s = .next t ∧ ReadDone s t sid x p [] := by
  refine ⟨_, execCtxReset_eq sid s, readDone_of_asked h fun l => ?_⟩
  have hsolo' : (s.askedAt sid p l).solo = true := hsolo
  simp only [watchElsewhere_of_solo hsolo', Bool.false_eq_true, if_false, askedAt_ctx, hstate, if_true]

theorem execCtxReset_write (h : Asks s 0x0403 sid x p) (hsolo : s.solo = true) (hstate : ¬ ((s.ctx p.ctx).state = .free ∨ (s.ctx p.ctx).state = .stopped)) :
    ∃ t, execCtxReset sid s = .next t ∧ WriteDone s t sid x p .ok [] (((s.taken sid p).resetCtx p.ctx).noted p.ctx).configChanged := by
  refine ⟨_, execCtxReset_eq sid s, writeDone_of_taken h (by decide) ?_⟩
  have hsolo' : (s.taken sid p).solo = true := hsolo
  simp only [watchElsewhere_of_solo hsolo', Bool.false_eq_true, if_false]
  exact if_neg hstate

theorem execCtxReset_done (h : Asks s 0x0403 sid x p) (hsolo : s.solo = true) (hstate : ¬ ((s.ctx p.ctx).state = .free ∨ (s.ctx p.ctx).state = .stopped)) :
    ∃ t, execCtxReset sid s = .next t ∧ Replied s t sid x (replyOf p .ok 0 [] (s.life.commit + 1)) ∧ (t.ctx p.ctx).ended
      ∧ t.mem = s.mem ∧ t.img = s.img ∧ t.opt = s.opt ∧ { t.supply with waiting := s.supply.waiting } = s.supply ∧ t.results = s.results := by
  obtain ⟨t, ht, hdone⟩ := execCtxReset_write h hsolo hstate
  have hstanding : (((s.taken sid p).resetCtx p.ctx).noted p.ctx).configChanged.standing = s.standing := by
    rw [configChanged_standing, noted_standing, resetCtx_standing]
    rfl
  obtain ⟨hmem, himg, hopt, hsupply⟩ := hdone.fixtures (fixtures_of_standing hstanding)
  refine ⟨t, ht, hdone.1, ?_, hmem, himg, hopt, hsupply, ?_⟩
  · rw [hdone.ctx, configChanged_ctx, ctx_of_ctxs (noted_ctxs ..)]
    exact resetCtx_ended ..
  · exact (hdone.part State.results fun _ _ _ => rfl).trans (congrArg Prod.snd hstanding)

end Sys2Proof.Machine
end

section
/-! RUN and RUN_CANCEL (R38, R409, R410), and the obligation on the commands of contexts. -/

namespace Sys2Proof.Machine

open Sys2Proof

variable {s t u : State} {sid : Nat} {x : Session} {p : Packet}

/-! ## RUN -/

@[simp] theorem askedAt_solo (s : State) (sid : Nat) (p : Packet) (l : Life) : (s.askedAt sid p l).solo = s.solo := rfl
@[simp] theorem askedAt_ing (s : State) (sid : Nat) (p : Packet) (l : Life) : (s.askedAt sid p l).ing = s.ing := rfl
@[simp] theorem askedAt_runRange (s : State) (sid : Nat) (p : Packet) (l : Life) (a b : Nat) :
    (s.askedAt sid p l).runRange a b = s.runRange a b := rfl

/-- The pass that RUN asks for waits, under the context's next pass number. -/
def Ctx.awaitRun (y : Ctx) (sid : Nat) (p : Packet) (first last : Nat) : Ctx :=
  { y with
    pend := some { no := y.passNo + 1, first := first, last := last, run := 1, askedBy := some (sid, p.seq), sfirst := p.num 1, slast := p.num 2 }
    passNo := y.passNo + 1 }

/-- RUN by the context's state. -/
theorem execRun_eq (sid : Nat) (s : State) : execRun sid s = .next (s.runCmd 0x0408 true sid (fun s p =>
    if p.ctx = 0 then { st := .badParam }
    else if (s.ctx p.ctx).state = .free ∨ (s.ctx p.ctx).state = .stopped then .no .busy
    else if (s.ctx p.ctx).state = .faulted then { st := .watchdog, detail := (s.ctx p.ctx).cause }
    else if p.num 2 < p.num 1 then .bad p 2
    else if s.solo = true ∧ s.ing.s0 = none then .no .busy
    else if (s.ctx p.ctx).pend.isSome then .no .busy
    else match (if s.solo then s.runRange (p.num 1) (p.num 2) else s.runPack (p.num 2)) with
      | .error .busy => .no .busy
      | .error .beyond => .bad p 2
      | .ok (first, last) => .accepted (s.updCtx p.ctx (fun y => y.awaitRun sid p first last)) [be 4 ((s.ctx p.ctx).passNo + 1)])) := by
  unfold execRun
  refine congrArg (fun f => Host.Outcome.next (s.runCmd 0x0408 true sid f)) (funext₂ fun v q => ?_)
  refine if_congr Iff.rfl rfl ?_
  cases (v.ctx q.ctx).state <;> rfl

/-- The context may take a RUN: it is started. -/
def Ctx.takesRun (y : Ctx) : Prop := ¬ (y.state = .free ∨ y.state = .stopped) ∧ y.state ≠ .faulted

theorem takesRun_of_live {y : Ctx} (h : y.live = true) : y.takesRun := by
  unfold Ctx.takesRun
  rcases (live_iff y).mp h with h | h <;> rw [h] <;> decide

theorem takesRun_of_shed {y : Ctx} (h : y.state = .shed) : y.takesRun := by
  unfold Ctx.takesRun
  rw [h]
  decide

theorem execRun_zero (h : Asks s 0x0408 sid x p) (hctx : p.ctx = 0) : ∃ t, execRun sid s = .next t ∧ Refused s t sid x p .badParam 0 :=
  ⟨_, execRun_eq sid s, refused_of_asked h (by decide) fun l => by simp only [hctx, if_true]⟩

theorem execRun_unstarted (h : Asks s 0x0408 sid x p) (hctx : p.ctx ≠ 0) (hstate : (s.ctx p.ctx).state = .free ∨ (s.ctx p.ctx).state = .stopped) :
    ∃ t, execRun sid s = .next t ∧ Refused s t sid x p .busy 0 :=
  ⟨_, execRun_eq sid s, refused_of_asked h (by decide) fun l => by simp only [hctx, if_false, askedAt_ctx, hstate, if_true, CmdOut.no]⟩

theorem execRun_faulted (h : Asks s 0x0408 sid x p) (hctx : p.ctx ≠ 0) (hstate : (s.ctx p.ctx).state = .faulted) :
    ∃ t, execRun sid s = .next t ∧ Refused s t sid x p .watchdog (s.ctx p.ctx).cause :=
  ⟨_, execRun_eq sid s, refused_of_asked h (by decide) fun l => by simp [hctx, hstate]⟩

theorem execRun_reversed (h : Asks s 0x0408 sid x p) (hctx : p.ctx ≠ 0) (htakes : (s.ctx p.ctx).takesRun) (hrange : p.num 2 < p.num 1) :
    ∃ t, execRun sid s = .next t ∧ Refused s t sid x p .badParam (p.off 2) :=
  ⟨_, execRun_eq sid s, refused_of_asked h (by decide) fun l => by
    simp only [hctx, if_false, askedAt_ctx, htakes.1, htakes.2, hrange, if_true, CmdOut.bad]⟩

theorem execRun_pending (h : Asks s 0x0408 sid x p) (hctx : p.ctx ≠ 0) (htakes : (s.ctx p.ctx).takesRun) (hrange : p.num 1 ≤ p.num 2)
    (hpend : (s.ctx p.ctx).pend.isSome = true) : ∃ t, execRun sid s = .next t ∧ Refused s t sid x p .busy 0 :=
  ⟨_, execRun_eq sid s, refused_of_asked h (by decide) fun l => by
    simp only [hctx, if_false, askedAt_ctx, htakes.1, htakes.2, Nat.not_lt.mpr hrange, hpend, if_true, CmdOut.no, ite_self]⟩

theorem execRun_done {first last : Nat} (h : Asks s 0x0408 sid x p) (hsolo : s.solo = true) (hctx : p.ctx ≠ 0) (htakes : (s.ctx p.ctx).takesRun)
    (hrange : p.num 1 ≤ p.num 2) (hs0 : s.ing.s0.isSome = true) (hpend : (s.ctx p.ctx).pend = none)
    (hrun : s.runRange (p.num 1) (p.num 2) = .ok (first, last)) :
    ∃ t, execRun sid s = .next t ∧ WriteDone s t sid x p .accepted [be 4 ((s.ctx p.ctx).passNo + 1)]
      (s.commit.updCtx p.ctx (fun y => y.awaitRun sid p first last)) := by
  refine ⟨_, execRun_eq sid s, writeDone_of_taken_as ((s.taken sid p).updCtx p.ctx (fun y => y.awaitRun sid p first last)) h (by decide) ?_ rfl⟩
  have hs0' : s.ing.s0 ≠ none := Option.isSome_iff_ne_none.mp hs0
  rw [taken_eq_askedAt]
  simp only [hctx, if_false, askedAt_ctx, htakes.1, htakes.2, Nat.not_lt.mpr hrange, askedAt_solo, hsolo, askedAt_ing, hs0', and_false,
    hpend, Option.isSome_none, Bool.false_eq_true, if_true, askedAt_runRange, hrun]
  rfl

/-! ## RUN_CANCEL -/

theorem execRunCancel_zero (h : Asks s 0x0409 sid x p) (hctx : p.ctx = 0) : ∃ t, execRunCancel sid s = .next t ∧ Refused s t sid x p .badParam 0 :=
  ⟨_, rfl, refused_of_asked h (by decide) fun l => by simp only [hctx, if_true]⟩

theorem execRunCancel_bad (h : Asks s 0x0409 sid x p) (hctx : p.ctx ≠ 0) (hwhat : 1 < p.num 1) :
    ∃ t, execRunCancel sid s = .next t ∧ Refused s t sid x p .badParam (p.off 1) :=
  ⟨_, rfl, refused_of_asked h (by decide) fun l => by simp only [hctx, if_false, hwhat, if_true, CmdOut.bad]⟩

theorem execRunCancel_nothing (h : Asks s 0x0409 sid x p) (hctx : p.ctx ≠ 0) (hwhat : p.num 1 ≤ 1) (hpend : (s.ctx p.ctx).pend = none)
    (hpass : p.num 1 = 1 ∨ (s.ctx p.ctx).pass = none) : ∃ t, execRunCancel sid s = .next t ∧ ReadDone s t sid x p [] :=
  ⟨_, rfl, readDone_of_asked h fun l => by
    simp only [hctx, if_false, Nat.not_lt.mpr hwhat, askedAt_ctx, hpend, Option.isNone_none, Option.isNone_iff_eq_none, true_and, hpass, if_true]⟩

theorem execRunCancel_done (h : Asks s 0x0409 sid x p) (hctx : p.ctx ≠ 0) (hwhat : p.num 1 ≤ 1)
    (hany : (s.ctx p.ctx).pend.isSome = true ∨ (p.num 1 ≠ 1 ∧ (s.ctx p.ctx).pass.isSome = true)) :
    ∃ t, execRunCancel sid s = .next t ∧ WriteDone s t sid x p .ok [] (s.commit.updCtx p.ctx (fun y =>
      { y with pend := none, pass := if p.num 1 = 1 then y.pass else y.pass.map (fun (q : Pass) => { q with cancel := true }) })) := by
  refine ⟨_, rfl, writeDone_of_taken_as ((s.taken sid p).updCtx p.ctx (fun y =>
    { y with pend := none, pass := if p.num 1 = 1 then y.pass else y.pass.map (fun (q : Pass) => { q with cancel := true }) })) h (by decide) ?_ rfl⟩
  have hsome : ¬ ((s.ctx p.ctx).pend.isNone = true ∧ (p.num 1 = 1 ∨ (s.ctx p.ctx).pass.isNone = true)) := by
    simp only [Option.isNone_iff_eq_none, Option.isSome_iff_ne_none] at hany ⊢
    tauto
  rw [taken_eq_askedAt]
  simp only [hctx, if_false, Nat.not_lt.mpr hwhat, askedAt_ctx, hsome]
  rfl

/-! ## CTX_START of a context that is started, or that the image gives no member -/

theorem startCtx_of_started {i : Image} {m : Member} {c : Nat} (hi : s.image = some i) (hm : s.member c = some m) (hstarted : (s.ctx c).started = true) :
    (s.startCtx c).1 = .busy := by
  simp [startCtx_eq, State.startTests, hi, hm, hstarted]

theorem startCtx_of_no_member {i : Image} {c : Nat} (hi : s.image = some i) (hm : s.member c = none) : (s.startCtx c).1 = .badParam := by
  simp [startCtx_eq, State.startTests, hi, hm]

/-! ## The obligation -/

/-- Settles O26: each command by the rule that refuses it or the state that its own rules leave; what the end of a context leaves as
it was is `resetCtx_standing` and `stopAtCommit_fixtures`. -/
theorem contextCommandsTakeEffect : Obligations.ContextCommandsTakeEffect := by
  refine ⟨fun s sid x p h hsolo => ⟨fun hok => ?_, fun hbudget => ?_, fun hno => execCtxStart_refused h hsolo hno rfl, fun i m hi hm hstarted => ?_, fun i hi hm => ?_⟩,
    fun s sid x p h hsolo => ⟨execCtxStop_idle h hsolo, fun hlive hrun => ?_, fun hnow => ?_⟩,
    fun s sid x p h hsolo => ⟨execCtxReset_idle h hsolo, fun hfree hstopped => ?_⟩,
    fun s sid x p h hsolo => ⟨?_, execRun_zero h, execRun_unstarted h, execRun_faulted h, fun hctx hlive => execRun_reversed h hctx (takesRun_of_live hlive),
      fun hctx hlive => execRun_pending h hctx (takesRun_of_live hlive)⟩,
    fun s sid x p h => ⟨execRunCancel_zero h, execRunCancel_bad h, execRunCancel_nothing h, fun hctx hone hpend => ?_, fun hctx hzero hany => ?_⟩⟩
  · obtain ⟨t, ht, hdone⟩ := execCtxStart_done h hsolo (by rw [hok]; decide)
    obtain ⟨hstate, hlate, hcause, hpass, hpend, hstop⟩ := startCtx_ok p.ctx hok
    rw [hok] at hdone
    refine ⟨t, ht, hdone, ?_⟩
    rw [hdone.ctx, configChanged_ctx]
    exact ⟨hstate, hlate, hcause, hpass, hpend, hstop, hdone.part (·.ckpt.timer) fun _ _ _ => rfl⟩
  · obtain ⟨t, ht, hdone⟩ := execCtxStart_done h hsolo (by rw [hbudget]; decide)
    obtain ⟨hstate, hshed⟩ := startCtx_budget p.ctx hbudget
    rw [hbudget] at hdone
    refine ⟨t, ht, hdone, ?_⟩
    rw [hdone.ctx, configChanged_ctx]
    exact ⟨hstate, (hdone.part (fun v => (v.logs.word 0).getLsbD 7) fun _ _ _ => rfl).trans hshed⟩
  · exact execCtxStart_refused h hsolo (by decide) (startCtx_of_started (s := s.taken sid p) hi hm hstarted)
  · exact execCtxStart_refused h hsolo (by decide) (startCtx_of_no_member (s := s.taken sid p) hi hm)
  · obtain ⟨t, ht, hdone⟩ := execCtxStop_owed h hsolo hlive hrun
    refine ⟨t, ht, hdone, ?_, hdone.part State.threads fun _ _ _ => rfl⟩
    rw [hdone.ctx, configChanged_ctx, State.oweStop, State.updCtx_ctx_same]
    rfl
  · obtain ⟨t, ht, hreply, ⟨hstate, -, hstop, hpend, hpass⟩, hrest⟩ := execCtxStop_now h hsolo hnow
    exact ⟨t, ht, hreply, hstate, hstop, hpend, hpass, hrest⟩
  · obtain ⟨t, ht, hreply, ⟨hstate, hcause, hstop, hpend, hpass⟩, hrest⟩ := execCtxReset_done h hsolo (not_or.mpr ⟨hfree, hstopped⟩)
    exact ⟨t, ht, hreply, hstate, hcause, hstop, hpend, hpass, hrest⟩
  · rintro a b f l rfl rfl hctx hstate hrange hs0 hpend hrun
    exact execRun_done h hsolo hctx (hstate.elim takesRun_of_live takesRun_of_shed) hrange hs0 hpend hrun
  · obtain ⟨t, ht, hdone⟩ := execRunCancel_done h hctx hone.le (.inl hpend)
    simp only [hone, if_true] at hdone
    exact ⟨t, ht, hdone⟩
  · obtain ⟨t, ht, hdone⟩ := execRunCancel_done h hctx (by omega) (hany.imp_right (⟨by omega, ·⟩))
    simp only [hzero, Nat.zero_ne_one, if_false] at hdone
    exact ⟨t, ht, hdone⟩

end Sys2Proof.Machine
end

section
/-! LOCKSTEP_MISMATCH, SHEPHERD_WATCHDOG_EXPIRE, CONVERTER_FAULT, TCXO_FAIL and TRIP_RECOVERY (R58, R491, R522 to R525, R531). -/

namespace Sys2Proof.Machine

open Sys2Proof

variable {s : State}

theorem execLockstepMismatch_logged (hon : s.shepherdOn = true) : ∃ t, execLockstepMismatch s = .next t
    ∧ Logged { s with life := { s.life with phase := .halted, due := some .warm, shepherdUp := false } } t [(2, 13)] := by
  obtain ⟨c, d, lo, co, ou, hraise, hword⟩ := raise_eq s 2 13 1 (by decide) (by decide)
  refine ⟨_, by rw [execLockstepMismatch, if_pos hon], ?_⟩
  rw [hraise]
  exact ⟨rfl, ⟨ou, rfl⟩, fun v k hv => by simp [hword v k hv]⟩

theorem execConverterFault_gasp (hpow : s.powered = true) (hphase : s.life.phase ≠ .lastGasp) : ∃ t, execConverterFault s = .next t
    ∧ (t.logs.word 0).getLsbD 12 = true ∧ t.life.phase = .lastGasp ∧ t.life.cause = .converter ∧ t.life.due = none
    ∧ t.life.convFaults = s.life.convFaults ++ [s.life.clock] ∧ { t.supply with waiting := s.supply.waiting } = s.supply
    ∧ t.opt = s.opt ∧ t.trust = s.trust ∧ t.img = s.img := by
  obtain ⟨c, d, lo, co, ou, hraise, hword⟩ := raise_eq s 0 12 12 (by decide) (by decide)
  obtain ⟨c', d', gasp, lseq, kept, hgasp⟩ := lastGasp_eq (s.raise 0 12 12)
  refine ⟨_, by rw [execConverterFault, if_neg (by simp [hpow, hphase])], ?_⟩
  have hbit : (lo.word 0).getLsbD 12 = true := by simp [hword 0 12 (by decide)]
  rw [hgasp, hraise]
  exact ⟨hbit, rfl, rfl, rfl, rfl, rfl, rfl, rfl, rfl⟩

/-- The boot state that a failed oscillator leaves, with the feeds present. -/
theorem holdTcxo_eq (s : State) (was : Phase) : ∃ c d gasp lseq kept, s.holdTcxo was = { s.gateAll with
    life := { s.life with commit := c, storedStamp := d, phase := .bootHeld, cause := .tcxo, due := none }
    logs := { s.logs with gasp := gasp, nextLseq := lseq }
    ckpt := { s.ckpt with gasp := kept } } := by
  unfold State.holdTcxo
  split
  · exact ⟨s.life.commit, s.life.storedStamp, s.logs.gasp, s.logs.nextLseq, s.ckpt.gasp, rfl⟩
  · obtain ⟨c, d, gasp, lseq, kept, hgasp⟩ := gaspActions_eq s
    rw [hgasp]
    exact ⟨c, d, gasp, lseq, kept, rfl⟩

theorem execTcxoFail_held (hpow : s.powered = true) (hok : s.life.tcxoOk = true) : ∃ t, execTcxoFail s = .next t
    ∧ (t.logs.word 0).getLsbD 11 = true ∧ t.life.tcxoOk = false
    ∧ (s.life.phase = .lastGasp → Logged { s with life := { s.life with tcxoOk := false } } t [(0, 11)])
    ∧ (s.life.phase ≠ .lastGasp → t.life.phase = .bootHeld ∧ t.life.cause = .tcxo ∧ t.life.due = none)
    ∧ { t.supply with waiting := s.supply.waiting } = s.supply ∧ t.opt = s.opt ∧ t.trust = s.trust ∧ t.img = s.img := by
  have hlogged := logged_trouble { s with life := { s.life with tcxoOk := false } } 0 11 0 12 0xFF [255] (by decide) (by decide)
  obtain ⟨c, d, lo, co, ou, htrouble, hword⟩ :=
    trouble_eq { s with life := { s.life with tcxoOk := false } } 0 11 0 12 0xFF [255] (by decide) (by decide)
  have hbit : (lo.word 0).getLsbD 11 = true := by simp [hword 0 11 (by decide)]
  rw [execTcxoFail, if_neg (by simp [hpow, hok])]
  by_cases hphase : s.life.phase = .lastGasp
  · refine ⟨_, if_pos hphase, ?_⟩
    rw [htrouble] at hlogged ⊢
    exact ⟨hbit, rfl, fun _ => hlogged, fun h => absurd hphase h, rfl, rfl, rfl, rfl⟩
  · refine ⟨_, if_neg hphase, ?_⟩
    obtain ⟨c', d', gasp, lseq, kept, hheld⟩ :=
      holdTcxo_eq (({ s with life := { s.life with tcxoOk := false } } : State).trouble 0 11 0 12 0xFF [255]) s.life.phase
    rw [hheld, htrouble]
    exact ⟨hbit, rfl, fun h => absurd h hphase, fun _ => ⟨rfl, rfl, rfl⟩, rfl, rfl, rfl, rfl⟩

theorem execTripRecovery_halted (hphase : s.life.phase = .tripped) (hlatched : s.life.tripLatched = false)
    (hcool : ∀ i, i < 64 → s.usedTemp i < 850) :
    execTripRecovery s = .next { s with life := { s.life with phase := .halted, due := some .warm } } := by
  have hall : (List.range 64).all (fun i => decide (s.usedTemp i < 850)) = true := by simpa using hcool
  rw [execTripRecovery, if_pos ⟨hphase, hlatched, hall⟩]

/-- Settles O8: each event by the changes that its trouble bit and its last gasp make, said once. -/
theorem haltsTakeEffect : Obligations.HaltsTakeEffect :=
  ⟨fun _ => execLockstepMismatch_logged, fun _ hfw hrest => if_pos ⟨hfw, hrest⟩, fun _ => execConverterFault_gasp,
    fun _ => execTcxoFail_held, fun _ => execTripRecovery_halted⟩

end Sys2Proof.Machine
end

section
/-! REST_ENTER, DOMAIN_GATE, DOMAIN_POWER_UP_DONE and ENGINE_CLOCK_GATE (R51, R65, R67 to R72, R436). -/

namespace Sys2Proof.Machine

open Sys2Proof

variable {s : State}

@[simp] theorem setDom_dom_same (d : Dom) (v : DomState) : (s.setDom d v).dom d = v := Tab.get_set_same _ _ _

theorem setDom_dom_ne {d e : Dom} (v : DomState) (h : d.key ≠ e.key) : (s.setDom d v).dom e = s.dom e := Tab.get_set_ne _ _ _ _ h

/-! ## Gating, R65, R72 -/

theorem execDomainGate_off {d : Dom} (hon : s.domOn d = true) (hmay : s.mayGate d = true) (hd : ∀ c, d ≠ .clusterCommon c) :
    execDomainGate d s = .next (s.setDom d .off) := by
  rw [execDomainGate, if_neg (by simp [hon, hmay])]
  cases d with
  | clusterCommon c => exact absurd rfl (hd c)
  | _ => rfl

theorem execDomainGate_clusterCommon {c : Nat} (hon : s.domOn (.clusterCommon c) = true) (hmay : s.mayGate (.clusterCommon c) = true) :
    execDomainGate (.clusterCommon c) s = .next ((s.setDom (.clusterCommon c) .off).stopPlls (c / 8)) := by
  rw [execDomainGate, if_neg (by simp [hon, hmay])]

/-- The PLLs of a stack stop where every cluster common domain of it is off, and only there. -/
theorem stopPlls_cases (s : State) (k : Nat) :
    ((∀ i, i < 8 → s.dom (.clusterCommon (8 * k + i)) = .off) ∧ ((s.stopPlls k).clk k).running = false ∧ { s.stopPlls k with clks := s.clks } = s)
    ∨ ((∃ i, i < 8 ∧ s.dom (.clusterCommon (8 * k + i)) ≠ .off) ∧ s.stopPlls k = s) := by
  unfold State.stopPlls
  split
  · next h =>
    refine .inl ⟨by simpa using h, ?_, rfl⟩
    rw [State.updClk_clk_same]
  · next h => exact .inr ⟨by simpa using h, rfl⟩

/-- A cluster's place in its stack, against another one's. -/
theorem clusterCommon_key_ne {c i : Nat} (hi : i ≠ c % 8) : (Dom.clusterCommon c).key ≠ (Dom.clusterCommon (8 * (c / 8) + i)).key := by
  simp only [Dom.key]
  omega

theorem gated_stopPlls (s : State) (c : Nat) :
    ((s.setDom (.clusterCommon c) .off).stopPlls (c / 8)).doms = Tab.set .off s.doms (64 + c) .off
    ∧ { (s.setDom (.clusterCommon c) .off).stopPlls (c / 8) with doms := s.doms, clks := s.clks } = s
    ∧ ((∀ i, i < 8 → i ≠ c % 8 → s.dom (.clusterCommon (8 * (c / 8) + i)) = .off) →
        (((s.setDom (.clusterCommon c) .off).stopPlls (c / 8)).clk (c / 8)).running = false)
    ∧ ((∃ i, i < 8 ∧ i ≠ c % 8 ∧ s.dom (.clusterCommon (8 * (c / 8) + i)) ≠ .off) →
        ((s.setDom (.clusterCommon c) .off).stopPlls (c / 8)).clks = s.clks) := by
  have hself : 8 * (c / 8) + c % 8 = c := by omega
  have hother {i : Nat} (hi : i ≠ c % 8) : (s.setDom (.clusterCommon c) .off).dom (.clusterCommon (8 * (c / 8) + i))
      = s.dom (.clusterCommon (8 * (c / 8) + i)) := setDom_dom_ne .off (clusterCommon_key_ne hi)
  rcases stopPlls_cases (s.setDom (.clusterCommon c) .off) (c / 8) with ⟨hoff, hstopped, hrest⟩ | ⟨⟨i, hi, hon⟩, hsame⟩
  · refine ⟨(congrArg State.doms hrest :), (congrArg (fun v : State => { v with doms := s.doms }) hrest :), fun _ => hstopped, ?_⟩
    rintro ⟨i, hi, hne, hon⟩
    exact absurd ((hother hne).symm.trans (hoff i hi)) hon
  · rw [hsame]
    refine ⟨rfl, rfl, fun hoff => ?_, fun _ => rfl⟩
    by_cases hne : i = c % 8
    · exact absurd (by rw [hne, hself, setDom_dom_same]) hon
    · exact absurd ((hother hne).trans (hoff i hi hne)) hon

/-! ## Power-up, R67, R436 -/

theorem execDomainPowerUpDone_on {d : Dom} (ok : Bool) (hwaking : s.dom d = .waking) (hpow : s.powered = true) (hexists : d.exists? = true)
    (hready : s.domReady d = true) (hd : ∀ c, d ≠ .clusterCommon c) : execDomainPowerUpDone d ok s = .next (s.setDom d .on) := by
  rw [execDomainPowerUpDone, if_neg (by simp [hwaking, hpow, hexists, hready])]
  cases d with
  | clusterCommon c => exact absurd rfl (hd c)
  | _ => rfl

theorem execDomainPowerUpDone_clusterCommon {c : Nat} (ok : Bool) (hwaking : s.dom (.clusterCommon c) = .waking) (hpow : s.powered = true)
    (hexists : (Dom.clusterCommon c).exists? = true) (hready : s.domReady (.clusterCommon c) = true) :
    execDomainPowerUpDone (.clusterCommon c) ok s = .next (((s.setDom (.clusterCommon c) .on).fillCluster c).loadRegion c ok) := by
  rw [execDomainPowerUpDone, if_neg (by simp [hwaking, hpow, hexists, hready])]

/-- Memory with zeros in the SRAM of a cluster, of its cores and of its engines. -/
def Memory.clusterZeroed (m : Memory) (c : Nat) : Memory :=
  ((m.zeroFill .cluster (4194304 * c) 4194304).zeroFill .core (524288 * 8 * c) (524288 * 8)).zeroFill .engine (65536 * 72 * c) (65536 * 72)

theorem read_clusterZeroed (m : Memory) (c : Nat) (sp : Space) (x : Nat) : (m.clusterZeroed c).read sp x =
    if (sp = .cluster ∧ 4194304 * c ≤ x ∧ x < 4194304 * (c + 1)) ∨ (sp = .core ∧ 4194304 * c ≤ x ∧ x < 4194304 * (c + 1))
      ∨ (sp = .engine ∧ 4718592 * c ≤ x ∧ x < 4718592 * (c + 1)) then 0 else m.read sp x := by
  rw [Memory.clusterZeroed, Memory.read_zeroFill _ _ _ _ _ _ (by decide), Memory.read_zeroFill _ _ _ _ _ _ (by decide),
    Memory.read_zeroFill _ _ _ _ _ _ (by decide)]
  cases sp <;> simp [Nat.mul_add]

theorem fillCluster_of_no_image {c : Nat} (h : s.image = none) : s.fillCluster c = { s with mem := s.mem.clusterZeroed c } := by
  have himage : (s.updMem (fun m => m.clusterZeroed c)).image = none := h
  unfold State.fillCluster
  dsimp only
  split
  · next i hi => cases hi.symm.trans himage
  · rfl

theorem regionCtxs_of_no_image (r : Nat) (h : s.image = none) : s.regionCtxs r = [] := by
  rw [State.regionCtxs, h]

/-- Without an image no context uses a region, so none faults where its load fails. -/
theorem loadRegion_of_no_image {r : Nat} (ok : Bool) (h : s.image = none) :
    s.loadRegion r ok = if r < 2 then { s with ing := { s.ing with feOk := ok } } else s := by
  have hkept (v : State) (hv : v.image = none) :
      (if ok then v else v.each (v.regionCtxs r) (fun s c => s.faultCtx c 0 0x0341 (locCluster r) [])) = v := by
    rw [regionCtxs_of_no_image r hv]
    exact ite_self v
  exact hkept _ (by split <;> exact h)

theorem powered_clusterCommon {c : Nat} (ok : Bool) (h : s.image = none) :
    let t := ((s.setDom (.clusterCommon c) .on).fillCluster c).loadRegion c ok
    t.dom (.clusterCommon c) = .on ∧ t.mem = s.mem.clusterZeroed c ∧ { t with doms := s.doms, mem := s.mem, ing := s.ing } = s := by
  intro t
  have ht : t = if c < 2 then { s.setDom (.clusterCommon c) .on with mem := s.mem.clusterZeroed c, ing := { s.ing with feOk := ok } }
      else { s.setDom (.clusterCommon c) .on with mem := s.mem.clusterZeroed c } := by
    simp only [t, fillCluster_of_no_image (s := s.setDom (.clusterCommon c) .on) h]
    exact loadRegion_of_no_image (s := { s.setDom (.clusterCommon c) .on with mem := s.mem.clusterZeroed c }) ok h
  rw [ht]
  split <;> exact ⟨setDom_dom_same (s := s) (.clusterCommon c) .on, rfl, rfl⟩

/-! ## Engine clocks, R51 -/

theorem execEngineClockGate_off {e : Nat} (hidle : ∀ t, t ∈ coreThreads (e / 9) → (s.thread t).state ≠ .running)
    (hload : (s.engine e).load = none) (hbooks : (s.engine e).cbLoading = []) :
    execEngineClockGate e s = .next (s.updEngine e (fun x => { x with clockOn := false })) := by
  unfold execEngineClockGate
  refine if_neg ?_
  simp only [hload, hbooks, List.any_eq_true, Bool.and_eq_true, decide_eq_true_eq]
  rintro (⟨t, ht, hrunning, -⟩ | h | h)
  · exact hidle t ht hrunning
  · cases h
  · exact h rfl

/-- Settles O11: each command by what its domain leaves; the last cluster common domain of a stack is `stopPlls_cases`. -/
theorem domainCommandsTakeEffect : Obligations.DomainCommandsTakeEffect := by
  refine ⟨fun s hrest => if_pos hrest, fun d s hon hmay hd => execDomainGate_off hon hmay hd,
    fun c s hon hmay => ⟨_, execDomainGate_clusterCommon hon hmay, gated_stopPlls s c⟩,
    fun d ok s hwaking hpow hexists hready => ⟨execDomainPowerUpDone_on ok hwaking hpow hexists hready, ?_⟩,
    fun e s => execEngineClockGate_off⟩
  rintro c rfl himage
  obtain ⟨hon, hmem, hrest⟩ := powered_clusterCommon (c := c) ok himage
  exact ⟨_, execDomainPowerUpDone_clusterCommon ok hwaking hpow hexists hready, hon, fun sp x => by rw [hmem, read_clusterZeroed], hrest⟩

end Sys2Proof.Machine
end

section
/-! HANDSHAKE_RECORD, OPEN, CONFIRM and HANDSHAKE_TIMEOUT: handshakes by their id, and the session that one opens (R394, R397 to
R401). -/

namespace Sys2Proof.Machine

open Sys2Proof

variable {s : State}

/-! ## A packet ends Rest, R68 -/

@[simp] theorem wake_comms (s : State) : s.wake.comms = s.comms := by
  unfold State.wake
  split <;> rfl

@[simp] theorem wake_out (s : State) : s.wake.out = s.out := by
  unfold State.wake
  split <;> rfl

@[simp] theorem wake_upk (s : State) : s.wake.upk = s.upk := by
  unfold State.wake
  split <;> rfl

@[simp] theorem wake_sess (s : State) (n : Nat) : s.wake.sess n = s.sess n := by rw [State.sess, wake_comms]; rfl

@[simp] theorem wake_hs (s : State) (hsid : Nat) : s.wake.hs hsid = s.hs hsid := by rw [State.hs, wake_comms]; rfl

/-! ## Handshakes by their id -/

theorem hsid_of_hs {hsid : Nat} {h : Handshake} (hh : s.hs hsid = some h) : h.hsid = hsid := by
  simpa using List.find?_some hh

/-- A handshake that is put stands under its id, whether or not one stood there. -/
@[simp] theorem putHs_hs_same (s : State) (h : Handshake) : (s.putHs h).hs h.hsid = some h := by
  have hkeeps (x : Handshake) : ((if x.hsid = h.hsid then h else x).hsid == h.hsid) = (x.hsid == h.hsid) := by
    split <;> simp [*]
  unfold State.hs State.putHs
  dsimp only
  split
  · next hany =>
    obtain ⟨x, hx⟩ := Option.isSome_iff_exists.mp (List.find?_isSome.mpr (List.any_eq_true.mp hany))
    have hid : x.hsid = h.hsid := by simpa using List.find?_some hx
    rw [List.find?_map]
    simp only [Function.comp_def, hkeeps, hx, Option.map_some, hid, if_true]
  · next hany =>
    have hnone : s.comms.handshakes.find? (fun x => x.hsid == h.hsid) = none := by simpa using hany
    rw [List.find?_append, hnone]
    simp

theorem putHs_of_new {h : Handshake} (hnew : s.hs h.hsid = none) :
    s.putHs h = { s with comms := { s.comms with handshakes := s.comms.handshakes ++ [h] } } := by
  have hany : s.comms.handshakes.any (fun x => x.hsid == h.hsid) = false := by
    simpa [State.hs] using hnew
  unfold State.putHs
  simp only [hany, Bool.false_eq_true, if_false]

@[simp] theorem dropHs_hs_same (s : State) (hsid : Nat) : (s.dropHs hsid).hs hsid = none := by
  simp [State.hs, State.dropHs]

/-! ## Fragments, R394 -/

/-- A fragment of at most 32, of 1,200 bytes but for the last one. -/
def isFragment (frag frags : Nat) (data : List Byte) : Prop :=
  frag < frags ∧ frags ≤ 32 ∧ ((frag + 1 = frags ∧ data.length ≤ 1200) ∨ data.length = 1200)

section
variable {port addr msg session hsid frag frags : Nat} {data : List Byte}

theorem fragment_form (hform : isFragment frag frags data) :
    (decide (1 ≤ frags ∧ frags ≤ 32 ∧ frag < frags) && decide (data.length ≤ 1200) && (decide (frag + 1 = frags) || decide (data.length = 1200))) = true := by
  obtain ⟨hlt, hmax, hlen⟩ := hform
  simp only [Bool.and_eq_true, Bool.or_eq_true, decide_eq_true_eq]
  omega

/-- A fragment with an id that no handshake has. -/
theorem execHandshakeRecord_of_new (hup : s.wake.portsUp = true) (hform : isFragment frag frags data) (hnew : s.hs hsid = none) :
    execHandshakeRecord port addr msg session hsid frag frags data s
      = if msg = 1 ∧ session = 0xFFFF ∧ s.comms.handshakes.length < 8 then
          .next (s.wake.putHs { hsid := hsid, addr := addr, port := port, parts := [(1, frag, data)], frags := frags })
        else .next s.wake := by
  unfold execHandshakeRecord
  simp only [hup, fragment_form hform, wake_hs, hnew, wake_comms, Bool.true_eq_false, or_self, if_false]

/-- A fragment of a handshake in progress. -/
theorem execHandshakeRecord_of_begun {h : Handshake} (hup : s.wake.portsUp = true) (hform : isFragment frag frags data) (hh : s.hs hsid = some h) :
    execHandshakeRecord port addr msg session hsid frag frags data s
      = if (msg = 1 ∧ session = 0xFFFF ∧ h.session = none ∧ h.frags = frags) ∨ (msg = 3 ∧ h.session = some session) then
          .next (s.wake.putHs { h with
            parts := (h.parts.filter (fun p => !(decide (p.1 = msg ∧ p.2.1 = frag)))) ++ [(msg, frag, data)], frags := frags })
        else .next s.wake := by
  unfold execHandshakeRecord
  simp only [hup, fragment_form hform, wake_hs, hh, Bool.true_eq_false, or_self, if_false]

theorem execHandshakeRecord_begins (hup : s.wake.portsUp = true) (hform : isFragment frag frags data) (hnew : s.hs hsid = none)
    (hroom : s.comms.handshakes.length < 8) :
    execHandshakeRecord port addr 1 0xFFFF hsid frag frags data s = .next { s.wake with comms := { s.comms with
      handshakes := s.comms.handshakes ++ [{ hsid := hsid, addr := addr, port := port, parts := [(1, frag, data)], frags := frags }] } } := by
  rw [execHandshakeRecord_of_new hup hform hnew, if_pos ⟨rfl, rfl, hroom⟩, putHs_of_new (by rwa [wake_hs]), wake_comms]

theorem execHandshakeRecord_full (hup : s.wake.portsUp = true) (hform : isFragment frag frags data) (hnew : s.hs hsid = none)
    (hfull : 8 ≤ s.comms.handshakes.length) : execHandshakeRecord port addr msg session hsid frag frags data s = .next s.wake := by
  rw [execHandshakeRecord_of_new hup hform hnew, if_neg (by omega)]

theorem execHandshakeRecord_confirm {n : Nat} {h : Handshake} (hup : s.wake.portsUp = true) (hform : isFragment frag frags data)
    (hh : s.hs hsid = some h) (hn : h.session = some n) : ∃ t g,
      execHandshakeRecord port addr 3 n hsid frag frags data s = .next t ∧ t.hs hsid = some g ∧ g.session = some n ∧ g.role = h.role
        ∧ (3, frag, data) ∈ g.parts ∧ { t with comms := { t.comms with handshakes := s.comms.handshakes } } = s.wake := by
  obtain rfl := hsid_of_hs hh
  rw [execHandshakeRecord_of_begun hup hform hh, if_pos (.inr ⟨rfl, hn⟩)]
  refine ⟨_, _, rfl, putHs_hs_same s.wake { h with
      parts := (h.parts.filter (fun p => !(decide (p.1 = 3 ∧ p.2.1 = frag)))) ++ [(3, frag, data)], frags := frags }, hn, rfl, by simp, ?_⟩
  rw [← wake_comms s]
  rfl

end

/-! ## OPEN, R397, R399 -/

theorem freeSession_free {n : Nat} (h : s.freeSession = some n) : s.sess n = none := by
  have hfree := List.find?_some h
  simp only [Bool.and_eq_true, Option.isNone_iff_eq_none] at hfree
  exact hfree.1

/-- A handshake that is put changes the list of handshakes alone. -/
theorem putHs_frame (s : State) (h : Handshake) : { s.putHs h with comms := { (s.putHs h).comms with handshakes := s.comms.handshakes } } = s := rfl

section
variable {hsid : Nat} {h : Handshake} {m : List Byte}

theorem execOpenMsg_accepts {chain : Chain} {a : Anchor} {n : Nat} (hh : s.hs hsid = some h) (hm : h.message 1 = some m)
    (hup : s.portsUp = true) (hnone : h.session = none) (ha : s.acceptsChain chain = some a) (hn : s.freeSession = some n) : ∃ t g,
      execOpenMsg hsid chain s = .next t ∧ t.hs hsid = some g ∧ g.session = some n ∧ g.role = a.role ∧ g.chain = chain
        ∧ t.draws = s.draws + 2 ∧ s.sess n = none ∧ t.out = s.out ++ [.accept h.port h.addr hsid n (acceptMessage s.draws m)]
        ∧ { t with comms := { t.comms with handshakes := s.comms.handshakes }, out := s.out, draws := s.draws } = s := by
  obtain rfl := hsid_of_hs hh
  have hexec : execOpenMsg h.hsid chain s = .next ((({ s with draws := s.draws + 2 } : State).putHs
      { h with session := some n, chain := chain, role := a.role, keys := sessionKeys s.draws m, parts := [] }).emit
        (.accept h.port h.addr h.hsid n (acceptMessage s.draws m))) := by
    unfold execOpenMsg
    simp only [hh, hm, hup, hnone, ha, hn, Option.isSome_none, Bool.true_eq_false, Bool.false_eq_true, or_self, if_false]
  exact ⟨_, _, hexec, putHs_hs_same { s with draws := s.draws + 2 }
    { h with session := some n, chain := chain, role := a.role, keys := sessionKeys s.draws m, parts := [] },
    rfl, rfl, rfl, rfl, freeSession_free hn, rfl, rfl⟩

theorem execOpenMsg_drops {chain : Chain} (hh : s.hs hsid = some h) (hm : h.message 1 = some m) (hup : s.portsUp = true)
    (hnone : h.session = none) (hno : s.acceptsChain chain = none ∨ s.freeSession = none) :
    execOpenMsg hsid chain s = .next (s.dropHs hsid) := by
  unfold execOpenMsg
  simp only [hh, hm, hup, hnone, Option.isSome_none, Bool.true_eq_false, Bool.false_eq_true, or_self, if_false]
  split
  · next a n ha hn => rcases hno with h | h <;> simp [h] at ha hn
  · rfl

/-! ## CONFIRM, R398 -/

theorem execConfirm_eq {n : Nat} (sigOk : Bool) (hh : s.hs hsid = some h) (hn : h.session = some n) (hm : h.message 3 = some m)
    (hup : s.portsUp = true) : execConfirm hsid sigOk s = if sigOk then
        .next (((s.dropHs hsid).setSess n (some
          { role := h.role, anchor := h.chain.anchor.getD 0, serials := h.chain.serials, port := h.port, addr := h.addr, keys := h.keys })).sendReply
            n (openedReply s.life.commit))
      else .next (s.dropHs hsid) := by
  unfold execConfirm
  simp only [hh, hn, hm, hup, Bool.true_eq_false, if_false]

/-- A reply in an open session: it leaves in the session's next record, and the record number is used. -/
theorem sendReply_of_open {sid : Nat} {x : Session} (r : Reply) (hx : s.sess sid = some x) :
    s.sendReply sid r = (s.emit (.reply sid x.txNext (s.outPort x) r)).setSess sid (some { x with txNext := x.txNext + 1 }) := by
  unfold State.sendReply
  rw [hx]

theorem execConfirm_opens {n : Nat} (hh : s.hs hsid = some h) (hn : h.session = some n) (hm : h.message 3 = some m) (hup : s.portsUp = true) :
    ∃ t y, execConfirm hsid true s = .next t ∧ t.sess n = some y ∧ y.role = h.role ∧ y.anchor = h.chain.anchor.getD 0 ∧ y.nextSeq = 1
      ∧ y.ring = [] ∧ t.hs hsid = none
      ∧ t.out = s.out ++ [.reply n 1 (if s.comms.prp then 6 else h.port) { opcode := 0x0003, seq := 0, status := .ok, commit := s.life.commit }]
      ∧ (∀ k, k ≠ n → t.sess k = s.sess k) ∧ { t with comms := s.comms, out := s.out } = s := by
  rw [execConfirm_eq true hh hn hm hup, if_pos rfl, sendReply_of_open _ (State.setSess_sess_same ..)]
  refine ⟨_, _, rfl, State.setSess_sess_same .., rfl, rfl, rfl, rfl, dropHs_hs_same s hsid, rfl, fun k hk => ?_,
    by simp only [State.setSess, State.emit, State.dropHs]⟩
  rw [State.setSess_sess_ne _ _ _ _ hk.symm]
  exact State.setSess_sess_ne (s.dropHs hsid) _ _ _ hk.symm

end

/-- Settles O29: fragments by whether their id is new, the whole OPEN and CONFIRM by what each makes of its handshake. -/
theorem handshakesOpenSessions : Obligations.HandshakesOpenSessions := by
  refine ⟨fun port addr msg session hsid frag frags data s hup hlt hmax hlen hnew hmsg hsession => ?_,
    fun port addr hsid frag frags n data s h hup hlt hmax hlen => execHandshakeRecord_confirm hup ⟨hlt, hmax, hlen⟩,
    fun hsid chain s h m hh hm hup hnone => ⟨fun a n => execOpenMsg_accepts hh hm hup hnone, execOpenMsg_drops hh hm hup hnone⟩,
    fun hsid sigOk s h m n hh hn hm hup => ⟨?_, ?_⟩, fun _ _ => rfl⟩
  · obtain rfl := hmsg
    obtain rfl := hsession
    exact ⟨execHandshakeRecord_begins hup ⟨hlt, hmax, hlen⟩ hnew, execHandshakeRecord_full hup ⟨hlt, hmax, hlen⟩ hnew⟩
  · rintro rfl
    exact execConfirm_opens hh hn hm hup
  · rintro rfl
    exact execConfirm_eq false hh hn hm hup

end Sys2Proof.Machine
end

section
/-! PROTECTED_RECORD, SESSION_IDLE_TIMEOUT, NOTIFY_RESEND, PRP_SUPERVISION and BULK (R393, R395, R396, R401, R404 to R407, R421). -/

namespace Sys2Proof.Machine

open Sys2Proof

variable {s : State}

/-! ## Protected records, R395, R404 -/

theorem fresh_eq_false_iff {x : Session} {recno : Nat} :
    x.fresh recno = false ↔ recno = 0 ∨ recno + 1024 < x.rxHigh ∨ x.rxSeen.contains recno = true := by
  cases hseen : x.rxSeen.contains recno with
  | true => simp only [Session.fresh, hseen, Bool.not_true, Bool.and_false, or_true]
  | false =>
    simp only [Session.fresh, hseen, Bool.not_false, Bool.and_true, decide_eq_false_iff_not, Bool.false_eq_true, or_false]
    omega

/-- A record at a port that answers, in an open session. -/
theorem execProtectedRecord_eq {port addr sid recno : Nat} {tagOk : Bool} {payload : List Byte} {x : Session} (hup : s.wake.portsUp = true)
    (hx : s.sess sid = some x) : execProtectedRecord port addr sid recno tagOk payload s
      = if tagOk = false ∨ x.fresh recno = false then .next { s.wake with comms := { s.comms with dropped := s.comms.dropped + 1 } }
        else if headerOk payload = false then .next (s.wake.setSess sid (some (x.see recno port addr)))
        else if isBulk payload then
          (if (x.see recno port addr).role < 2 ∨ ofBytes ((payload.drop 6).take 2) ≠ 7 ∨ payload.length < 32
           then .next (s.wake.setSess sid (some (x.see recno port addr)))
           else .next ((s.wake.setSess sid (some (x.see recno port addr))).setSess sid (some { x.see recno port addr with
             bulk := (x.see recno port addr).bulk ++ [(ofBytes ((payload.drop 12).take 4), ofBytes ((payload.drop 24).take 8), payload.drop 32)] })))
        else .next ((s.wake.setSess sid (some (x.see recno port addr))).takePacket sid (x.see recno port addr) (readPacket payload)) := by
  unfold execProtectedRecord
  simp only [hup, wake_sess, hx, wake_comms, Bool.true_eq_false, if_false]

theorem execProtectedRecord_drops {port addr sid recno : Nat} {tagOk : Bool} {payload : List Byte} {x : Session} (hup : s.wake.portsUp = true)
    (hx : s.sess sid = some x) (hbad : tagOk = false ∨ recno = 0 ∨ recno + 1024 < x.rxHigh ∨ x.rxSeen.contains recno = true) :
    execProtectedRecord port addr sid recno tagOk payload s = .next { s.wake with comms := { s.comms with dropped := s.comms.dropped + 1 } } := by
  rw [execProtectedRecord_eq hup hx, if_pos (hbad.imp_right fresh_eq_false_iff.mpr)]

/-- The head of a ring whose opcode a row gives stays there. -/
theorem drainBad_of_known {sid : Nat} {x : Session} (hx : s.sess sid = some x) (hhead : ∀ p, x.headCmd = some p → (cmdRow p.opcode).isSome = true)
    (n : Nat) : s.drainBad sid n = s := by
  cases n with
  | zero => rfl
  | succ n =>
    rw [State.drainBad, hx]
    simp only [Option.bind_some]
    split
    · rfl
    · next p hp =>
      have hknown := hhead p hp
      rw [if_neg (by simp [Option.isSome_iff_ne_none.mp hknown])]

/-- The head of a ring that a packet joins is the head before or the packet. -/
theorem headCmd_append {x : Session} {p q : Packet} (h : ({ x with ring := x.ring ++ [p] } : Session).headCmd = some q) :
    x.headCmd = some q ∨ q = p := by
  unfold Session.headCmd at h ⊢
  rw [List.find?_append, Option.or_eq_some_iff] at h
  rcases h with h | ⟨-, h⟩
  · exact .inl h
  · exact .inr (by simpa using List.mem_of_find?_eq_some h)

/-- A command packet within reach that is not waiting yet waits. -/
theorem takePacket_waits {sid : Nat} {x : Session} {p : Packet} (hx : s.sess sid = some x) (hreach : (p.seq + 2 ^ 32 - x.nextSeq) % 2 ^ 32 < 16)
    (hnew : x.ring.any (fun q => q.seq == p.seq) = false) (hrow : (cmdRow p.opcode).isSome = true)
    (hhead : ((x.headCmd.map (fun q => (cmdRow q.opcode).isSome)).getD true) = true) :
    s.takePacket sid x p = s.setSess sid (some { x with ring := x.ring ++ [p] }) := by
  have hjoined : s.updSess sid (fun y => { y with ring := y.ring ++ [p] }) = s.setSess sid (some { x with ring := x.ring ++ [p] }) := by
    rw [State.updSess, hx]
    rfl
  have hknown (q : Packet) (hq : ({ x with ring := x.ring ++ [p] } : Session).headCmd = some q) : (cmdRow q.opcode).isSome = true := by
    rcases headCmd_append hq with h | rfl
    · simpa [h] using hhead
    · exact hrow
  unfold State.takePacket
  simp only [hreach, if_true, hnew, Bool.false_eq_true, if_false, hjoined]
  exact drainBad_of_known (State.setSess_sess_same ..) hknown 16

theorem execProtectedRecord_waits {port addr sid recno : Nat} {payload : List Byte} {x : Session} (hup : s.wake.portsUp = true)
    (hx : s.sess sid = some x) (hpos : 1 ≤ recno) (hlow : x.rxHigh ≤ recno + 1024) (hseen : x.rxSeen.contains recno = false)
    (hheader : headerOk payload = true) (hbulk : isBulk payload = false)
    (hreach : ((readPacket payload).seq + 2 ^ 32 - x.nextSeq) % 2 ^ 32 < 16)
    (hnew : x.ring.any (fun q => q.seq == (readPacket payload).seq) = false) (hrow : (cmdRow (readPacket payload).opcode).isSome = true)
    (hhead : ((x.headCmd.map (fun q => (cmdRow q.opcode).isSome)).getD true) = true) :
    ∃ t, execProtectedRecord port addr sid recno true payload s = .next t
      ∧ t.sess sid = some { x with
          rxHigh := max x.rxHigh recno, rxSeen := recno :: x.rxSeen.filter (fun n => decide (max x.rxHigh recno ≤ n + 1024))
          port := port, addr := addr, ring := x.ring ++ [readPacket payload] }
      ∧ (∀ n, n ≠ sid → t.sess n = s.sess n) ∧ { t with comms := s.comms } = s.wake := by
  have hfresh : ¬ (true = false ∨ x.fresh recno = false) := by
    simp only [fresh_eq_false_iff, hseen, Bool.true_eq_false, Bool.false_eq_true, false_or, or_false]
    omega
  have hwaits := takePacket_waits (s := s.wake.setSess sid (some (x.see recno port addr))) (x := x.see recno port addr)
    (State.setSess_sess_same ..) hreach hnew hrow hhead
  rw [execProtectedRecord_eq hup hx, if_neg hfresh, if_neg (by simp [hheader]), if_neg (by simp [hbulk]), hwaits]
  refine ⟨_, rfl, State.setSess_sess_same .., fun n hn => ?_, ?_⟩
  · rw [State.setSess_sess_ne _ _ _ _ hn.symm, State.setSess_sess_ne _ _ _ _ hn.symm, wake_sess]
  · simp only [State.setSess]
    rw [← wake_comms s]

theorem execProtectedRecord_refuses {port addr sid recno : Nat} {tagOk : Bool} {payload : List Byte} (hup : s.wake.portsUp = true)
    (hx : s.sess sid = none) (hfirst : s.comms.refusedTo.contains addr = false) : execProtectedRecord port addr sid recno tagOk payload s
      = .next { s.wake with comms := { s.comms with refusedTo := addr :: s.comms.refusedTo }, out := s.out ++ [.refusal port addr sid] } := by
  unfold execProtectedRecord
  simp only [hup, wake_sess, hx, wake_comms, hfirst, Bool.true_eq_false, Bool.false_eq_true, if_false, State.emit, wake_out]

/-! ## The end of a session, R401 -/

theorem notify_sess_ne {sid n : Nat} (opcode ctx : Nat) (st : Status) (d : Nat) (l : List Tlv) (hn : n ≠ sid) :
    (s.notify sid opcode ctx st d l).sess n = s.sess n := by
  unfold State.notify
  split
  · rfl
  · split
    · exact State.setSess_sess_ne _ _ _ _ hn.symm
    · unfold State.sendNotify
      dsimp only
      split
      · exact State.setSess_sess_ne _ _ _ _ hn.symm
      · exact (State.setSess_sess_ne _ _ _ _ hn.symm).trans (State.setSess_sess_ne s _ _ _ hn.symm)

theorem dropThresholds_eq (s : State) (sid : Nat) : ∃ sync, s.dropThresholds sid = { s with sync := sync } := by
  unfold State.dropThresholds
  generalize s.sync.counters.map Prod.fst = ks
  induction ks generalizing s with
  | nil => exact ⟨s.sync, rfl⟩
  | cons k ks ih =>
    obtain ⟨sync, h⟩ := ih (s.updCounter k (fun c => { c with thresholds := c.thresholds.filter (fun t => t.sid ≠ sid) }))
    exact ⟨sync, h⟩

theorem endSession_ends (s : State) (sid cause : Nat) : (s.endSession sid cause).sess sid = none
    ∧ (∀ n, n ≠ sid → (s.endSession sid cause).sess n = s.sess n)
    ∧ { s.endSession sid cause with comms := s.comms, out := s.out, sync := s.sync, ckpt := s.ckpt, ctxs := s.ctxs, img := s.img, upk := s.upk } = s := by
  unfold State.endSession
  split
  · next hnone => exact ⟨hnone, fun _ _ => rfl, rfl⟩
  · dsimp only
    obtain ⟨sync, hsync⟩ := dropThresholds_eq (if cause = 0 then s else s.notify sid 0x00C0 0xFFFF .ok cause []) sid
    rw [hsync]
    refine ⟨State.setSess_sess_same .., fun n hn => ?_, ?_⟩
    · rw [State.setSess_sess_ne _ _ _ _ hn.symm]
      show (if cause = 0 then s else s.notify sid 0x00C0 0xFFFF .ok cause []).sess n = s.sess n
      split
      · rfl
      · exact notify_sess_ne _ _ _ _ _ hn
    · simp only [State.setSess, State.forget]
      split
      · rfl
      · obtain ⟨co, ou, hnotify⟩ := notify_eq s sid 0x00C0 0xFFFF .ok cause []
        rw [hnotify]

/-! ## Notifies sent again, R421 -/

/-- The notifies of a list in consecutive records of a session, from record `n` on. -/
def resent (sid port n : Nat) (l : List Notify) : List Out :=
  (l.zip (List.range l.length)).map (fun e => .notify sid (n + e.2) port e.1)

@[simp] theorem resent_nil (sid port n : Nat) : resent sid port n [] = [] := rfl

theorem resent_cons (sid port n : Nat) (x : Notify) (l : List Notify) :
    resent sid port n (x :: l) = .notify sid n port x :: resent sid port (n + 1) l := by
  unfold resent
  rw [List.length_cons, List.range_succ_eq_map, List.zip_cons_cons, List.map_cons, List.zip_map_right, List.map_map]
  simp only [Nat.add_zero, Function.comp_def, Prod.map_fst, Prod.map_snd, id_eq, Nat.add_assoc, Nat.add_comm 1]

theorem resendAll_resends {sid : Nat} {x : Session} (hx : s.sess sid = some x) (l : List Notify) :
    (s.resendAll sid l).sess sid = some { x with txNext := x.txNext + l.length }
    ∧ (∀ n, n ≠ sid → (s.resendAll sid l).sess n = s.sess n)
    ∧ { s.resendAll sid l with comms := s.comms, out := s.out } = s
    ∧ (s.resendAll sid l).out = s.out ++ resent sid (s.outPort x) x.txNext l := by
  induction l generalizing s x with
  | nil => exact ⟨hx, fun _ _ => rfl, rfl, by simp [State.resendAll]⟩
  | cons m ms ih =>
    have hsend : s.sendNotify sid m = (s.emit (.notify sid x.txNext (s.outPort x) m)).setSess sid (some { x with txNext := x.txNext + 1 }) := by
      unfold State.sendNotify
      rw [hx]
    have hsent : (s.sendNotify sid m).sess sid = some { x with txNext := x.txNext + 1 } := by rw [hsend, State.setSess_sess_same]
    have hframe : { s.sendNotify sid m with comms := s.comms, out := s.out } = s := by rw [hsend]; simp only [State.setSess, State.emit]
    have hport : (s.sendNotify sid m).outPort { x with txNext := x.txNext + 1 } = s.outPort x := by rw [hsend]; rfl
    have hout : (s.sendNotify sid m).out = s.out ++ [.notify sid x.txNext (s.outPort x) m] := by rw [hsend]; rfl
    obtain ⟨hown, hothers, hrest, hmore⟩ := ih hsent
    rw [State.resendAll]
    refine ⟨?_, fun n hn => ?_, ?_, ?_⟩
    · rw [hown, List.length_cons]
      simp only [Nat.add_assoc, Nat.add_comm 1]
    · rw [hothers n hn, hsend, State.setSess_sess_ne _ _ _ _ hn.symm]
      rfl
    · exact (congrArg (fun v : State => { v with comms := s.comms, out := s.out }) hrest).trans hframe
    · rw [hmore, hout, hport, resent_cons, List.append_assoc]
      rfl

/-! ## Bulk packets, R407 -/

theorem get_putBytes (t : Tab Byte) (off : Nat) (bs : List Byte) {i : Nat} (hi : i < bs.length) :
    Tab.get 0 (putBytes t off bs) (off + i) = bs.getD i 0 := by
  have hprefix (n : Nat) : i < n → Tab.get 0 ((List.range n).foldl (fun t j => Tab.set 0 t (off + j) (bs.getD j 0)) t) (off + i) = bs.getD i 0 := by
    induction n with
    | zero => intro h; omega
    | succ n ih =>
      intro hlt
      rw [List.range_succ, List.foldl_append, List.foldl_cons, List.foldl_nil, Tab.get_set]
      by_cases hlast : off + n = off + i
      · rw [if_pos hlast, Nat.add_left_cancel hlast]
      · rw [if_neg hlast, ih (by omega)]
  exact hprefix bs.length hi

@[simp] theorem updImgSlot_imgSlot_same (n : Nat) (f : ImgSlot → ImgSlot) : (s.updImgSlot n f).imgSlot n = f (s.imgSlot n) := by
  unfold State.updImgSlot State.imgSlot
  by_cases h : n = 0 <;> simp [h]

@[simp] theorem updImgSlot_xfer (n : Nat) (f : ImgSlot → ImgSlot) : (s.updImgSlot n f).img.xfer = s.img.xfer := by
  unfold State.updImgSlot
  dsimp only
  split <;> rfl

section
variable {sid no off : Nat} {data : List Byte} {rest : List (Nat × Nat × List Byte)} {x : Session}

theorem execBulk_takes {f : Xfer} (hx : s.sess sid = some x) (hbulk : x.bulk = (no, off, data) :: rest) (hfw : s.fwUp = true)
    (hf : s.img.xfer = some f) (htakes : f.takes no off data.length = true) : ∃ t, execBulk sid s = .next t
      ∧ t.sess sid = some { x with bulk := rest } ∧ t.img.xfer = some { f with got := Tab.set 0 f.got (off / max 1 f.chunk) 1 }
      ∧ (t.imgSlot s.inactive).bytes = putBytes (s.imgSlot s.inactive).bytes off data
      ∧ (∀ i, i < data.length → Tab.get 0 (t.imgSlot s.inactive).bytes (off + i) = data.getD i 0)
      ∧ { t with comms := s.comms, img := s.img } = s := by
  have hexec : execBulk sid s = .next ({ s.setSess sid (some { x with bulk := rest }) with
      img := { s.img with xfer := some { f with got := Tab.set 0 f.got (off / max 1 f.chunk) 1 } } }.updImgSlot s.inactive
        (fun y => { y with bytes := putBytes y.bytes off data })) := by
    unfold execBulk
    simp only [hx, hbulk, hfw, Bool.true_eq_false, if_false]
    rw [hf]
    dsimp only
    rw [if_pos htakes]
    rfl
  refine ⟨_, hexec, ?_⟩
  have hbytes := congrArg ImgSlot.bytes (updImgSlot_imgSlot_same (s := { s.setSess sid (some { x with bulk := rest }) with
      img := { s.img with xfer := some { f with got := Tab.set 0 f.got (off / max 1 f.chunk) 1 } } }) s.inactive
        (fun y => { y with bytes := putBytes y.bytes off data }))
  refine ⟨State.setSess_sess_same (s := s) sid _, by rw [updImgSlot_xfer], hbytes, fun i hi => ?_, by simp only [State.updImgSlot, State.setSess]⟩
  rw [hbytes]
  exact get_putBytes _ _ _ hi

theorem execBulk_drops (hx : s.sess sid = some x) (hbulk : x.bulk = (no, off, data) :: rest) (hfw : s.fwUp = true)
    (himage : s.img.xfer = none) (hfirmware : s.img.fwXfer = none) : execBulk sid s = .next (s.setSess sid (some { x with bulk := rest })) := by
  unfold execBulk
  simp only [hx, hbulk, hfw, Bool.true_eq_false, if_false]
  rw [himage, hfirmware]

end

/-- Settles O30: records by what makes a number fresh and a packet wait, resends by induction on the notifies. -/
theorem recordsAndSessionTimersTakeEffect : Obligations.RecordsAndSessionTimersTakeEffect := by
  refine ⟨fun port addr sid recno tagOk payload s x hup hx => ⟨execProtectedRecord_drops hup hx, ?_⟩,
    fun port addr sid recno tagOk payload s hup hx => execProtectedRecord_refuses hup hx,
    fun sid s hup => ⟨_, if_pos hup, endSession_ends s sid 2⟩, fun sid s x hup hx => ?_, fun s hup hprp => ?_,
    fun sid no off data rest s x hx hbulk hfw => ⟨fun f => execBulk_takes hx hbulk hfw, execBulk_drops hx hbulk hfw⟩⟩
  · rintro rfl
    exact execProtectedRecord_waits hup hx
  · obtain ⟨hown, hothers, hrest, hout⟩ := resendAll_resends hx x.notifies
    have hexec : execNotifyResend sid s = .next (s.resendAll sid x.notifies) := by
      unfold execNotifyResend
      rw [if_pos hup, hx]
    exact ⟨_, _, hexec, hown, rfl, hothers, hrest, hout⟩
  · refine (if_pos ⟨hup, hprp⟩).trans ?_
    simp only [State.emit, List.append_assoc, List.singleton_append]

end Sys2Proof.Machine
end

section
/-! DIGITAL_LEVEL_READ_DONE, SWEEP_DUE, PANEL_RETURN and UPKEEP_TABLE_WRITE: plane entries, panel words, pending work and the journal
of upkeep (R171, R173 to R175, R183, R185, R187, R188). -/

namespace Sys2Proof.Machine

open Sys2Proof

variable {s : State}

/-! ## Plane entries and panel words, which have a shipped value of their own number -/

theorem get_set_other {α : Type} [DecidableEq α] {d d' : α} (t : Tab α) {k j : Nat} (v : α) (h : k ≠ j) :
    Tab.get d' (Tab.set d t k v) j = Tab.get d' t j := by
  unfold Tab.set
  split
  · rw [Tab.get_drop, if_neg h]
  · rw [Tab.get_put, if_neg h, Tab.get_drop, if_neg h]

@[simp] theorem updPanel_panel_same (e : Nat) (f : Panel → Panel) : (s.updPanel e f).panel e = f (s.panel e) := Tab.get_upd_same _ _ _

theorem updPanel_panel_ne {e j : Nat} (f : Panel → Panel) (h : e ≠ j) : (s.updPanel e f).panel j = s.panel j := get_set_other _ _ h

@[simp] theorem updPlane_plane_same (k : Nat) (f : PlaneEnt → PlaneEnt) : (s.updPlane k f).plane k = f (s.plane k) := Tab.get_upd_same _ _ _

theorem updPlane_plane_ne {k j : Nat} (f : PlaneEnt → PlaneEnt) (h : k ≠ j) : (s.updPlane k f).plane j = s.plane j := get_set_other _ _ h

theorem plane_of_planes {s t : State} (h : t.upk.planes = s.upk.planes) (n : Nat) : t.plane n = s.plane n := by rw [State.plane, h, State.plane]

/-! ## Pending work -/

/-- The state with other pending work. -/
def State.withQueue (s : State) (q : List Work) : State := { s with upk := { s.upk with queue := q } }

theorem withQueue_self (s : State) : s.withQueue s.upk.queue = s := rfl

/-- The state with other stamps and another log, as a log record leaves them. -/
def State.withLog (s : State) (c d : Nat) (lo : Logs) : State := { s with life := { s.life with commit := c, storedStamp := d }, logs := lo }

theorem withLog_self (s : State) : s.withLog s.life.commit s.life.storedStamp s.logs = s := rfl

theorem pushWork_eq (s : State) (w : Work) : ∃ q, s.pushWork w = s.withQueue q ∧ ∀ v, v ∈ q ↔ v ∈ s.upk.queue ∨ v = w := by
  unfold State.pushWork
  split
  · next h =>
    refine ⟨s.upk.queue, rfl, fun v => ⟨.inl, ?_⟩⟩
    rintro (hv | rfl)
    · exact hv
    · simpa using h
  · exact ⟨s.upk.queue ++ [w], rfl, by simp⟩

/-- Work of one form for each of a list. -/
theorem each_pushWork_eq {α : Type} (f : α → Work) (l : List α) (s : State) : ∃ q,
    s.each l (fun s x => s.pushWork (f x)) = s.withQueue q ∧ ∀ v, v ∈ q ↔ v ∈ s.upk.queue ∨ ∃ x, x ∈ l ∧ v = f x := by
  induction l generalizing s with
  | nil => exact ⟨s.upk.queue, rfl, by simp⟩
  | cons x xs ih =>
    obtain ⟨q, hpush, hq⟩ := pushWork_eq s (f x)
    obtain ⟨r, hmore, hr⟩ := ih (s.withQueue q)
    refine ⟨r, by rw [State.each, hpush, hmore]; rfl, fun v => ?_⟩
    rw [hr v]
    show v ∈ q ∨ _ ↔ _
    simp [hq v, or_assoc]

/-! ## The journal and the stored tables, R187, R188 -/

/-- A journal record stands last under the next SEQ; of the rest only what the store holds of the tables may differ. -/
theorem journal_eq (s : State) (kind status loc arg : Nat) : ∃ older stored dirty planes panels placement,
    s.journal kind status loc arg = { s with upk := { s.upk with
      journal := older ++ [{ kind := kind, status := status, loc := loc, seq := s.upk.nextSeq, poc := s.life.poc, arg := arg % 2 ^ 32 }]
      nextSeq := s.upk.nextSeq + 1, stored := stored, dirty := dirty, storedPlanes := planes, storedPanels := panels
      storedPlacement := placement } } := by
  unfold State.journal State.journalRoom
  dsimp only
  split
  · exact ⟨_, s.upk.stored, s.upk.dirty, s.upk.storedPlanes, s.upk.storedPanels, s.upk.storedPlacement, rfl⟩
  · split
    · exact ⟨_, s.upk.stored, s.upk.dirty, s.upk.storedPlanes, s.upk.storedPanels, s.upk.storedPlacement, rfl⟩
    · exact ⟨_, _, _, _, _, _, rfl⟩

/-- A part that a change of every listed value keeps is read as before. -/
theorem get_map_part {α β : Type} {d : α} (part : α → β) {f : α → α} (hf : ∀ v, part (f v) = part v) (t : Tab α) (k : Nat) :
    part (Tab.get d (List.map (fun e => (e.1, f e.2)) t : Tab α) k) = part (Tab.get d t k) := by
  induction t with
  | nil => rfl
  | cons e t ih =>
    obtain ⟨j, v⟩ := e
    simp only [List.map_cons, Tab.get]
    split
    · exact hf v
    · exact ih

/-! ## A level read, R173, R175 -/

/-- What a level read makes of the sweep's result, and the work that it asks for (Table 5.2). -/
def State.readAsks (s : State) (e p : Nat) (why : UpWhy) : Nat × Option UpOp :=
  if (s.plane (17 * e + p)).state = 0 ∨ (s.plane (17 * e + p)).state = 2 then
    (if (s.cells (17 * e + p)).erased then (0, none) else (2, some .erase))
  else if (s.plane (17 * e + p)).state ≠ 1 then (0, none)
  else if (s.readPlane e p).2 ≠ 0 then (2, some .program)
  else if (s.readPlane e p).1 ≠ 0 ∨ why = .degraded ∨ why = .partner then (1, some .touchUp)
  else (0, none)

/-- The entry of a plane that is swept now. -/
def PlaneEnt.swept (x : PlaneEnt) (now res : Nat) : PlaneEnt := { x with sweepH := 0, sweepBase := now, sweepRes := res }

/-- The work that is asked for is pending, and no other is new. -/
def Asked (before after : List Work) (asked : Option UpOp) (prio e p : Nat) (why : UpWhy) : Prop :=
  match asked with
  | none => after = before
  | some op => ∀ w, w ∈ after ↔ w ∈ before ∨ w = { prio := prio, engine := e, plane := p, op := op, why := why }

theorem Asked.mem {before after : List Work} {asked : Option UpOp} {prio e p : Nat} {why : UpWhy} (h : Asked before after asked prio e p why)
    {w : Work} (hw : w ∈ before) : w ∈ after := by
  cases asked with
  | none => exact (show after = before from h) ▸ hw
  | some op => exact (h w).mpr (.inl hw)

theorem Asked.exists_work {before after : List Work} {op : UpOp} {prio e p : Nat} {why : UpWhy}
    (h : Asked before after (some op) prio e p why) : ∃ w, w ∈ after ∧ w.engine = e ∧ w.plane = p ∧ w.op = op :=
  ⟨_, (h _).mpr (.inr rfl), rfl, rfl, rfl⟩

theorem pushWork_asked (s : State) (prio e p : Nat) (op : UpOp) (why : UpWhy) : ∃ q,
    s.pushWork { prio := prio, engine := e, plane := p, op := op, why := why } = s.withQueue q
      ∧ Asked s.upk.queue q (some op) prio e p why := pushWork_eq s _

/-- A level read that is no boot check's and no partner's marks the plane swept and has the work pending that it asks for; a failing
cell alone is logged. -/
theorem actOnRead_eq {e p prio : Nat} {why : UpWhy} (hrec : why ≠ .recovery) (hpart : why ≠ .partner) : ∃ c d lo q,
    s.actOnRead e p why prio = ((s.updPlane (17 * e + p) (fun x => x.swept s.life.now (s.readAsks e p why).1)).withLog c d lo).withQueue q
    ∧ Asked s.upk.queue q (s.readAsks e p why).2 prio e p why ∧ ((s.readAsks e p why).2 ≠ some .program → lo = s.logs) := by
  have hclean (v : State) : ∃ c d lo q, v = (v.withLog c d lo).withQueue q
      ∧ Asked v.upk.queue q none prio e p why ∧ (none ≠ some UpOp.program → lo = v.logs) :=
    ⟨v.life.commit, v.life.storedStamp, v.logs, v.upk.queue, by rw [withLog_self, withQueue_self], rfl, fun _ => rfl⟩
  have hasks (v : State) (op : UpOp) : ∃ c d lo q,
      v.pushWork { prio := prio, engine := e, plane := p, op := op, why := why } = (v.withLog c d lo).withQueue q
      ∧ Asked v.upk.queue q (some op) prio e p why ∧ (some op ≠ some UpOp.program → lo = v.logs) := by
    obtain ⟨q, hpush, hq⟩ := pushWork_asked v prio e p op why
    exact ⟨v.life.commit, v.life.storedStamp, v.logs, q, by rw [withLog_self, hpush], hq, fun _ => rfl⟩
  have hlogs (v : State) (ev : LogEv) : ∃ c d lo q,
      (v.log ev).pushWork { prio := prio, engine := e, plane := p, op := .program, why := why } = (v.withLog c d lo).withQueue q
      ∧ Asked v.upk.queue q (some .program) prio e p why ∧ (some UpOp.program ≠ some .program → lo = v.logs) := by
    obtain ⟨c, d, lo, hlog, -⟩ := log_eq v ev
    obtain ⟨q, hpush, hq⟩ := pushWork_asked (v.withLog c d lo) prio e p .program why
    exact ⟨c, d, lo, q, (congrArg (State.pushWork · _) hlog).trans hpush, hq, fun h => absurd rfl h⟩
  have hstays : ¬ (why = .recovery ∨ why = .partner) := by simp [hrec, hpart]
  unfold State.actOnRead State.readAsks
  simp only [hstays, false_and, if_false]
  by_cases hblank : (s.plane (17 * e + p)).state = 0 ∨ (s.plane (17 * e + p)).state = 2
  · simp only [if_pos hblank]
    by_cases herased : (s.cells (17 * e + p)).erased = true
    · simp only [if_pos herased]; exact hclean _
    · simp only [if_neg herased]; exact hasks _ .erase
  · simp only [if_neg hblank]
    by_cases huse : (s.plane (17 * e + p)).state ≠ 1
    · simp only [if_pos huse]; exact hclean _
    · simp only [if_neg huse]
      by_cases hcell : (s.readPlane e p).2 ≠ 0
      · simp only [if_pos hcell]; exact hlogs _ _
      · simp only [if_neg hcell]
        by_cases hrow : (s.readPlane e p).1 ≠ 0 ∨ why = .degraded ∨ why = .partner
        · simp only [if_pos hrow]; exact hasks _ .touchUp
        · simp only [if_neg hrow]; exact hclean _

/-- A finished piece of work that a degraded or due plane asked for. -/
theorem workDone_eq {w : Work} (hwhy : w.why = .degraded ∨ w.why = .touchUp) : ∃ operated,
    s.workDone w = { s with upk := { s.upk with ops := Tab.set none s.upk.ops w.engine none, operated := operated } } := by
  unfold State.workDone
  rcases hwhy with hwhy | hwhy <;> rw [hwhy] <;> dsimp only <;> split
  · exact ⟨s.upk.operated, rfl⟩
  · exact ⟨_, rfl⟩
  · exact ⟨s.upk.operated, rfl⟩
  · exact ⟨_, rfl⟩

theorem after_eq_self {y : UpWhy} (h : y = .degraded ∨ y = .touchUp) : y.after = y := by
  rcases h with rfl | rfl <;> rfl

theorem ne_of_degraded_or_touchUp {y : UpWhy} (h : y = .degraded ∨ y = .touchUp) : y ≠ .recovery ∧ y ≠ .partner := by
  rcases h with rfl | rfl <;> exact ⟨by decide, by decide⟩

/-- A level read acts on what it found, and its operation is finished. -/
theorem actOnRead_workDone {w : Work} (hwhy : w.why = .degraded ∨ w.why = .touchUp) (s : State) :
    let t := (s.actOnRead w.engine w.plane w.why w.why.afterPrio).workDone w
    t.op w.engine = none ∧ t.mem = s.mem ∧ t.engines = s.engines ∧ t.upk.cells = s.upk.cells ∧ t.upk.journal = s.upk.journal
      ∧ (∀ n, n ≠ 17 * w.engine + w.plane → t.plane n = s.plane n)
      ∧ t.plane (17 * w.engine + w.plane)
        = (s.plane (17 * w.engine + w.plane)).swept s.life.now (s.readAsks w.engine w.plane w.why).1
      ∧ Asked s.upk.queue t.upk.queue (s.readAsks w.engine w.plane w.why).2 w.why.afterPrio w.engine w.plane w.why
      ∧ ((s.readAsks w.engine w.plane w.why).2 ≠ some .program → t.logs = s.logs) := by
  obtain ⟨hrec, hpart⟩ := ne_of_degraded_or_touchUp hwhy
  obtain ⟨c, d, lo, q, hact, hq, hlo⟩ := actOnRead_eq (s := s) (e := w.engine) (p := w.plane) (prio := w.why.afterPrio) hrec hpart
  obtain ⟨operated, hdone⟩ := workDone_eq (s := s.actOnRead w.engine w.plane w.why w.why.afterPrio) hwhy
  rw [hact] at hdone
  intro t
  have ht : t = _ := (congrArg (State.workDone · w) hact).trans hdone
  have hplanes : t.upk.planes = (s.updPlane (17 * w.engine + w.plane)
      (fun x => x.swept s.life.now (s.readAsks w.engine w.plane w.why).1)).upk.planes := by
    rw [ht]
    rfl
  refine ⟨?_, by rw [ht]; rfl, by rw [ht]; rfl, by rw [ht]; rfl, by rw [ht]; rfl, fun n hn => ?_, ?_, ?_, fun h => ?_⟩
  · rw [State.op, ht]
    exact Tab.get_set_same s.upk.ops w.engine none
  · rw [plane_of_planes hplanes, updPlane_plane_ne _ hn.symm]
  · rw [plane_of_planes hplanes, updPlane_plane_same]
  · rw [ht]
    exact hq
  · rw [ht]
    exact hlo h

/-- What a journal record leaves that a level read acts on. -/
theorem journal_leaves (s : State) (kind status loc arg : Nat) :
    let t := s.journal kind status loc arg
    t.mem = s.mem ∧ t.engines = s.engines ∧ t.life = s.life ∧ t.logs = s.logs ∧ t.upk.cells = s.upk.cells ∧ t.upk.planes = s.upk.planes
      ∧ t.upk.queue = s.upk.queue ∧ (∀ e p why, t.readAsks e p why = s.readAsks e p why)
      ∧ ∃ j, j ∈ t.upk.journal ∧ j.kind = kind ∧ j.loc = loc ∧ j.seq = s.upk.nextSeq := by
  intro t
  obtain ⟨older, stored, dirty, planes, panels, placement, hjournal⟩ := journal_eq s kind status loc arg
  have ht : t = _ := hjournal
  rw [ht]
  exact ⟨rfl, rfl, rfl, rfl, rfl, rfl, rfl, fun _ _ _ => rfl, _, List.mem_append_right _ (List.mem_singleton_self _), rfl, rfl, rfl⟩

/-- A level read that ends: its record is journalled, its operation is finished, the plane is marked swept, and the work that the
read asks for is pending. -/
theorem execDigitalLevelReadDone_acts {e k : Nat} {r : LevelRead} {o : OpRun} {u : State} (ho : s.op e = some o) (hstage : o.stage = .reading)
    (he : o.work.engine = e) (hwhy : o.work.why = .degraded ∨ o.work.why = .touchUp) (hk : k = 17 * e + o.work.plane)
    (hu : u = s.updCells k (fun x => x.moved r.found)) :
    ∃ t, execDigitalLevelReadDone e r s = .next t ∧ t.op e = none ∧ t.mem = s.mem ∧ t.engines = s.engines ∧ t.cells k = u.cells k
      ∧ (∃ j, j ∈ t.upk.journal ∧ j.kind = 0x07 ∧ j.loc = locPlane e o.work.plane ∧ j.seq = s.upk.nextSeq)
      ∧ (∀ n, n ≠ k → t.plane n = s.plane n)
      ∧ t.plane k = (s.plane k).swept s.life.now (u.readAsks e o.work.plane o.work.why).1
      ∧ Asked s.upk.queue t.upk.queue (u.readAsks e o.work.plane o.work.why).2 o.work.why.afterPrio e o.work.plane o.work.why
      ∧ ((u.readAsks e o.work.plane o.work.why).2 ≠ some .program → t.logs = s.logs) := by
  subst he hk
  have hnot := (ne_of_degraded_or_touchUp hwhy).1
  have hexec : execDigitalLevelReadDone o.work.engine r s
      = .next (((u.journal 0x07 0 (locPlane o.work.engine o.work.plane) (u.readPlane o.work.engine o.work.plane).1).actOnRead
          o.work.engine o.work.plane o.work.why o.work.why.afterPrio).workDone o.work) := by
    unfold execDigitalLevelReadDone
    simp only [ho, hstage, ne_eq, not_true_eq_false, if_false, hnot, false_and, after_eq_self hwhy, ← hu]
    cases r.drift <;> rfl
  refine ⟨_, hexec, ?_⟩
  obtain ⟨hmem, hengines, hlife, hlogs, hcells, hplanes, hqueue, hasks, hrecord⟩ :=
    journal_leaves u 0x07 0 (locPlane o.work.engine o.work.plane) (u.readPlane o.work.engine o.work.plane).1
  obtain ⟨hop, hmem', hengines', hcells', hjournal, hothers, hown, hasked, hquiet⟩ :=
    actOnRead_workDone hwhy (u.journal 0x07 0 (locPlane o.work.engine o.work.plane) (u.readPlane o.work.engine o.work.plane).1)
  obtain ⟨humem, huengines, hulife, hulogs, huplanes, huqueue, huseq⟩ : u.mem = s.mem ∧ u.engines = s.engines ∧ u.life = s.life ∧ u.logs = s.logs
      ∧ u.upk.planes = s.upk.planes ∧ u.upk.queue = s.upk.queue ∧ u.upk.nextSeq = s.upk.nextSeq := by
    rw [hu]
    exact ⟨rfl, rfl, rfl, rfl, rfl, rfl, rfl⟩
  have hplane := plane_of_planes (hplanes.trans huplanes)
  rw [hasks, hqueue, huqueue] at hasked
  rw [hasks, hplane, hlife, hulife] at hown
  rw [hasks] at hquiet
  rw [huseq] at hrecord
  refine ⟨hop, (hmem'.trans hmem).trans humem, (hengines'.trans hengines).trans huengines, ?_, by rwa [hjournal],
    fun n hn => (hothers n hn).trans (hplane n), hown, hasked, fun h => ((hquiet h).trans hlogs).trans hulogs⟩
  rw [State.cells, hcells', hcells, State.cells]

section
variable {u : State} {e p : Nat} {why : UpWhy}

theorem readAsks_blank (hstate : (u.plane (17 * e + p)).state = 0 ∨ (u.plane (17 * e + p)).state = 2)
    (herased : (u.cells (17 * e + p)).erased = true) : u.readAsks e p why = (0, none) := by
  rw [State.readAsks, if_pos hstate, if_pos herased]

theorem readAsks_not_blank (hstate : (u.plane (17 * e + p)).state = 0 ∨ (u.plane (17 * e + p)).state = 2)
    (herased : (u.cells (17 * e + p)).erased = false) : u.readAsks e p why = (2, some .erase) := by
  rw [State.readAsks, if_pos hstate, if_neg (by simp [herased])]

theorem readAsks_not_in_use (h0 : (u.plane (17 * e + p)).state ≠ 0) (h1 : (u.plane (17 * e + p)).state ≠ 1)
    (h2 : (u.plane (17 * e + p)).state ≠ 2) : u.readAsks e p why = (0, none) := by
  rw [State.readAsks, if_neg (not_or.mpr ⟨h0, h2⟩), if_pos h1]

/-- The tests of a plane in use. -/
theorem readAsks_in_use (hstate : (u.plane (17 * e + p)).state = 1) : u.readAsks e p why
    = if (u.readPlane e p).2 ≠ 0 then (2, some .program)
      else if (u.readPlane e p).1 ≠ 0 ∨ why = .degraded ∨ why = .partner then (1, some .touchUp) else (0, none) := by
  rw [State.readAsks, if_neg (by omega), if_neg (by omega)]
end

theorem asDue_op (s : State) (w : Work) :
    (s.asDue w).op = if w.op = .touchUp ∧ 64 ≤ (s.plane (17 * w.engine + w.plane)).touchups then .program else w.op := by
  rw [State.asDue, apply_ite Work.op]

/-! ## A sweep that falls due, R174 -/

/-- The level read that a plane's sweep is, `h` hours after the last one. -/
def sweepWork (e p h : Nat) : Work := { prio := if 888 < h then 6 else 7, engine := e, plane := p, op := .levelRead, why := .sweep }

theorem execSweepDue_early {e p : Nat} (hearly : (s.plane (17 * e + p)).hours s.life.now < 720) : execSweepDue e p s = .next s :=
  if_pos (.inr (.inr (.inr hearly)))

/-- Work that a due sweep puts in place of its own kind at any priority. -/
theorem execSweepDue_queues {e p h : Nat} (hfw : s.fwUp = true) (he : e < 2304) (hp : p < 17) (hh : (s.plane (17 * e + p)).hours s.life.now = h)
    (hdue : 720 ≤ h) : ∃ t, execSweepDue e p s = .next t
      ∧ (∀ w, w ∈ t.upk.queue ↔ (w ∈ s.upk.queue ∧ { w with prio := (sweepWork e p h).prio } ≠ sweepWork e p h) ∨ w = sweepWork e p h)
      ∧ { t with upk := s.upk } = s.wake := by
  have hgo : ¬ (s.fwUp = false ∨ 2304 ≤ e ∨ 17 ≤ p ∨ h < 720) := by simp [hfw]; omega
  obtain ⟨q, hpush, hq⟩ := pushWork_eq (s.wake.withQueue (s.wake.upk.queue.filter
    (fun v => decide ({ v with prio := (sweepWork e p h).prio } ≠ sweepWork e p h)))) (sweepWork e p h)
  have hexec : execSweepDue e p s = .next ((s.wake.withQueue (s.wake.upk.queue.filter
      (fun v => decide ({ v with prio := (sweepWork e p h).prio } ≠ sweepWork e p h)))).withQueue q) := by
    unfold execSweepDue
    simp only [hh]
    rw [if_neg hgo, ← hpush]
    rfl
  refine ⟨_, hexec, fun w => (hq w).trans ?_, ?_⟩
  · simp only [State.withQueue, List.mem_filter, wake_upk, decide_eq_true_eq]
  · simp only [State.withQueue, ← wake_upk s]

theorem sweep_prio {e p h : Nat} {w : Work} (hengine : w.engine = e) (hplane : w.plane = p) (hop : w.op = .levelRead) (hwhy : w.why = .sweep)
    (hretry : w.retry = false) (hnew : w.newImage = false) : { w with prio := (sweepWork e p h).prio } = sweepWork e p h := by
  obtain ⟨prio, engine, plane, op, why, retry, newImage⟩ := w
  simp only at hengine hplane hop hwhy hretry hnew
  subst hengine hplane hop hwhy hretry hnew
  rfl

theorem sweep_other {e p h : Nat} {w : Work} (hother : w.engine ≠ e ∨ w.plane ≠ p ∨ w.op ≠ .levelRead ∨ w.why ≠ .sweep) (n : Nat) :
    { w with prio := n } ≠ sweepWork e p h := by
  intro heq
  obtain ⟨hengine, hplane, hop, hwhy⟩ : w.engine = e ∧ w.plane = p ∧ w.op = .levelRead ∧ w.why = .sweep :=
    ⟨congrArg Work.engine heq, congrArg Work.plane heq, congrArg Work.op heq, congrArg Work.why heq⟩
  simp [hengine, hplane, hop, hwhy] at hother

/-! ## The return of a panel, R185 -/

/-- The state with other copies in the away region. -/
def State.withCopies (s : State) (copies : List AwayCopy) : State := { s with upk := { s.upk with copies := copies } }

@[simp] theorem withCopies_panel (s : State) (copies : List AwayCopy) (e : Nat) : (s.withCopies copies).panel e = s.panel e := rfl

theorem releasePanel_eq (s : State) (e : Nat) : ∃ copies, s.releasePanel e = s.withCopies copies := by
  unfold State.releasePanel
  split
  · exact ⟨s.upk.copies, rfl⟩
  · exact ⟨_, rfl⟩

/-- The planes of a panel that were operated on are no longer noted. -/
def State.unnoted (s : State) (e : Nat) : State := { s with upk := { s.upk with operated := s.upk.operated.filter (fun k => decide (k / 17 ≠ e)) } }

@[simp] theorem unnoted_panel (s : State) (e k : Nat) : (s.unnoted e).panel k = s.panel k := rfl

theorem execPanelReturn_away {e : Nat} (haway : (s.panel e).pstate = 2) : execPanelReturn e s
    = if s.staysAway e = false ∧ s.panelBusy e = false then
        (if s.badPartners e = [] then .next (((s.unnoted e).updPanel e (fun p => { p with pstate := 0, awayWhy := 0 })).releasePanel e)
         else .next ((s.unnoted e).each (s.badPartners e)
           (fun s q => s.pushWork { prio := 1, engine := e, plane := q, op := .touchUp, why := .partner })))
      else .next s := by
  unfold execPanelReturn
  simp only [haway, true_and, Nat.reduceEqDiff, false_and, and_false, if_false]
  rfl

theorem execPanelReturn_returns {e : Nat} (haway : (s.panel e).pstate = 2) (hstay : s.staysAway e = false) (hbusy : s.panelBusy e = false)
    (hpartners : s.badPartners e = []) : ∃ t, execPanelReturn e s = .next t ∧ t.panel e = { s.panel e with pstate := 0, awayWhy := 0 }
      ∧ (∀ k, k ≠ e → t.panel k = s.panel k)
      ∧ { t with upk := { t.upk with panels := s.upk.panels, dirty := s.upk.dirty, operated := s.upk.operated, copies := s.upk.copies } } = s := by
  obtain ⟨copies, hrelease⟩ := releasePanel_eq ((s.unnoted e).updPanel e (fun p => { p with pstate := 0, awayWhy := 0 })) e
  have hexec := (execPanelReturn_away haway).trans ((if_pos ⟨hstay, hbusy⟩).trans (if_pos hpartners))
  rw [hrelease] at hexec
  refine ⟨_, hexec, ?_, fun k hk => ?_, by simp only [State.withCopies, State.updPanel, State.unnoted]⟩
  · rw [withCopies_panel, updPanel_panel_same, unnoted_panel]
  · rw [withCopies_panel, updPanel_panel_ne _ hk.symm, unnoted_panel]

theorem execPanelReturn_partners {e : Nat} (haway : (s.panel e).pstate = 2) (hstay : s.staysAway e = false) (hbusy : s.panelBusy e = false)
    (hpartners : s.badPartners e ≠ []) : ∃ t, execPanelReturn e s = .next t ∧ (∀ k, t.panel k = s.panel k)
      ∧ (∀ q, q ∈ s.badPartners e → ({ prio := 1, engine := e, plane := q, op := .touchUp, why := .partner } : Work) ∈ t.upk.queue)
      ∧ { t with upk := { t.upk with queue := s.upk.queue, operated := s.upk.operated } } = s := by
  obtain ⟨queue, hpush, hq⟩ := each_pushWork_eq
    (fun q => ({ prio := 1, engine := e, plane := q, op := .touchUp, why := .partner } : Work)) (s.badPartners e) (s.unnoted e)
  have hexec := (execPanelReturn_away haway).trans ((if_pos ⟨hstay, hbusy⟩).trans (if_neg hpartners))
  rw [hpush] at hexec
  refine ⟨_, hexec, fun _ => rfl, fun q hmem => ?_, rfl⟩
  exact (hq _).mpr (.inr ⟨q, hmem, rfl⟩)

/-! ## The tables that the store holds, R188 -/

/-- The entry of a plane as the store takes it at a local time. -/
def PlaneEnt.storedAt (now : Nat) (x : PlaneEnt) : PlaneEnt := { x with sweepH := x.hours now, sweepBase := 0 }

theorem execUpkeepTableWrite_stores (hfw : s.fwUp = true) (hdirty : s.upk.dirty = true) : ∃ t, execUpkeepTableWrite s = .next t
    ∧ t.upk.stored = s.newestSeq ∧ t.upk.dirty = false ∧ t.upk.storedPanels = s.upk.panels ∧ t.upk.storedPlacement = s.upk.placement
    ∧ (∀ k, (Tab.get (planeShipped k) t.upk.storedPlanes k).erases = (s.plane k).erases
      ∧ (Tab.get (planeShipped k) t.upk.storedPlanes k).state = (s.plane k).state
      ∧ (Tab.get (planeShipped k) t.upk.storedPlanes k).lplane = (s.plane k).lplane)
    ∧ t.upk.planes = s.upk.planes
    ∧ { t with upk := { t.upk with stored := s.upk.stored, dirty := true, storedPlanes := s.upk.storedPlanes, storedPanels := s.upk.storedPanels,
                                   storedPlacement := s.upk.storedPlacement } } = s := by
  refine ⟨_, if_pos ⟨hfw, hdirty⟩, rfl, rfl, rfl, rfl, fun k => ⟨?_, ?_, ?_⟩, rfl, by rw [← hdirty]; rfl⟩
  · exact get_map_part PlaneEnt.erases (f := (PlaneEnt.storedAt s.life.now)) (fun _ => rfl) s.upk.planes k
  · exact get_map_part PlaneEnt.state (f := (PlaneEnt.storedAt s.life.now)) (fun _ => rfl) s.upk.planes k
  · exact get_map_part PlaneEnt.lplane (f := (PlaneEnt.storedAt s.life.now)) (fun _ => rfl) s.upk.planes k

/-- Settles O54: a level read by the work that it asks for (`State.readAsks`), the rest by what stands in the queue and the tables. -/
theorem sweepsReturnsAndTablesTakeEffect : Obligations.SweepsReturnsAndTablesTakeEffect := by
  refine ⟨fun s u e k r o ho hstage he hwhy hk hu => ?_, asDue_op, fun s e p hfw he hp => ⟨execSweepDue_early, fun hdue => ?_⟩,
    fun s e haway => ⟨execPanelReturn_returns haway, execPanelReturn_partners haway, fun hstays => ?_⟩,
    fun s => ⟨execUpkeepTableWrite_stores, fun hclean => if_neg (by simp [hclean])⟩⟩
  · obtain ⟨t, ht, hop, hmem, hengines, hcells, hrecord, hothers, hown, hasked, hquiet⟩ := execDigitalLevelReadDone_acts ho hstage he hwhy hk hu
    have huplane : u.plane (17 * e + o.work.plane) = s.plane k := by rw [hu, hk]; rfl
    have hucells : u.cells (17 * e + o.work.plane) = u.cells k := by rw [hk]
    refine ⟨t, ht, hop, hmem, hengines, hcells, hrecord, hothers, fun w => hasked.mem, fun hstate herased => ?_, fun hstate herased => ?_,
      fun h0 h1 h2 => ?_, fun hstate hcell => ?_, fun hstate hcell hrow => ?_, fun hstate hcell hrow hdue => ?_⟩
    · rw [readAsks_blank (by rwa [huplane]) (by rwa [hucells])] at hown hasked hquiet
      exact ⟨hasked, by rw [hown]; rfl, by rw [hown]; rfl, hquiet (by decide)⟩
    · rw [readAsks_not_blank (by rwa [huplane]) (by rwa [hucells])] at hown hasked
      exact ⟨by rw [hown]; rfl, hasked.exists_work⟩
    · rw [readAsks_not_in_use (by rwa [huplane]) (by rwa [huplane]) (by rwa [huplane])] at hown hasked hquiet
      exact ⟨by rw [hown]; rfl, hasked, hquiet (by decide)⟩
    · rw [readAsks_in_use (by rw [huplane, hstate]), if_pos hcell] at hown hasked
      exact ⟨by rw [hown]; rfl, hasked.exists_work⟩
    · rw [readAsks_in_use (by rw [huplane, hstate]), if_neg (by simpa using hcell), if_pos (hrow.imp_right .inl)] at hown hasked hquiet
      exact ⟨by rw [hown]; rfl, hquiet (by decide), hasked.exists_work⟩
    · rw [readAsks_in_use (by rw [huplane, hstate]), if_neg (by simpa using hcell), if_neg (by simp [hrow, hdue])] at hown hasked hquiet
      exact ⟨by rw [hown]; rfl, hasked, hquiet (by decide)⟩
  · obtain ⟨t, ht, hq, hrest⟩ := execSweepDue_queues hfw he hp rfl hdue
    refine ⟨t, ht, (hq _).mpr (.inr rfl), fun w hmem hengine hplane hop hwhy hretry hnew => ?_, fun w hother => ?_, hrest⟩
    · rcases (hq w).mp hmem with ⟨-, hne⟩ | rfl
      · exact absurd (sweep_prio hengine hplane hop hwhy hretry hnew) hne
      · rfl
    · rw [hq]
      exact ⟨fun h => h.elim And.left fun heq => absurd heq (sweep_other hother w.prio), fun h => .inl ⟨h, sweep_other hother _⟩⟩
  · have hnot : ¬ (s.staysAway e = false ∧ s.panelBusy e = false) := by
      rcases hstays with h | h <;> simp [h]
    exact (execPanelReturn_away haway).trans (if_neg hnot)

end Sys2Proof.Machine
end

section
/-! PLL_LOCK, PLL_LOCK_TIMEOUT, THROTTLE_STEP_DOWN, THROTTLE_STEP_UP and BUDGET_CLOCK_STEP (R64, R65, R303, R305, R526, R530). -/

namespace Sys2Proof.Machine

open Sys2Proof

variable {s : State}

/-! ## PLLs, R64, R65, R526 -/

theorem updClk_congr {k : Nat} {f g : StackClk → StackClk} (h : f (s.clk k) = g (s.clk k)) : s.updClk k f = s.updClk k g := by
  unfold State.updClk Tab.upd
  exact congrArg (fun v => { s with clks := Tab.set {} s.clks k v }) h

theorem updPll_congr {n : Nat} {f g : BasePll → BasePll} (h : f (Tab.get {} s.plls n) = g (Tab.get {} s.plls n)) : s.updPll n f = s.updPll n g := by
  unfold State.updPll Tab.upd
  exact congrArg (fun v => { s with plls := Tab.set {} s.plls n v }) h

theorem execPllLock_stack {k : Nat} (hrun : (s.clk k).running = true) :
    execPllLock (.arith k) s = .next (s.updClk k (fun c => { c with arithLocked := true, arithTries := 0 }))
    ∧ execPllLock (.network k) s = .next (s.updClk k (fun c => { c with netLocked := true, netTries := 0 })) :=
  ⟨congrArg Host.Outcome.next (updClk_congr (if_pos hrun)), congrArg Host.Outcome.next (updClk_congr (if_pos hrun))⟩

theorem execPllLock_base {p : Pll} {n : Nat} (hp : p.base? = some n) (hrun : (Tab.get {} s.plls n).running = true) :
    execPllLock p s = .next (s.updPll n (fun c => { c with locked := true, tries := 0 })) := by
  have hexec : execPllLock p s = .next (match p.base? with
      | some n => s.updPll n (fun c => if c.running then { c with locked := true, tries := 0 } else c)
      | none => s) := by
    cases p with
    | arith k => cases hp
    | network k => cases hp
    | _ => rfl
  rw [hexec, hp]
  exact congrArg Host.Outcome.next (updPll_congr (if_pos hrun))

/-- A PLL of a stack that has failed at most twice in a row is only counted and told. -/
theorem pllFails_logged {k : Nat} (which : Nat) {tries : StackClk → Nat} {put : StackClk → Nat → StackClk} (htries : tries (s.clk k) < 2)
    {f : StackClk → StackClk} (hf : ∀ c, put c (tries c + 1) = f c) : Logged (s.updClk k f) (s.pllFails k which tries put) [(0, 11)] := by
  have hcount : s.updClk k (fun c => put c (tries (s.clk k) + 1)) = s.updClk k f := updClk_congr (hf (s.clk k))
  unfold State.pllFails
  dsimp only
  rw [hcount, if_neg (by omega)]
  exact logged_trouble _ _ _ _ _ _ _ (by decide) (by decide)

theorem execPllLockTimeout_arith {k : Nat} (hrun : (s.clk k).running = true) (hlocked : (s.clk k).arithLocked = false)
    (htries : (s.clk k).arithTries < 2) : ∃ t, execPllLockTimeout (.arith k) s = .next t
      ∧ Logged (s.updClk k (fun c => { c with arithTries := c.arithTries + 1 })) t [(0, 11)] :=
  ⟨_, if_pos ⟨hrun, hlocked⟩, pllFails_logged 0 htries fun _ => rfl⟩

theorem execPllLockTimeout_network {k : Nat} (hrun : (s.clk k).running = true) (hlocked : (s.clk k).netLocked = false)
    (htries : (s.clk k).netTries < 2) : ∃ t, execPllLockTimeout (.network k) s = .next t
      ∧ Logged (s.updClk k (fun c => { c with netTries := c.netTries + 1 })) t [(0, 11)] :=
  ⟨_, if_pos ⟨hrun, hlocked⟩, pllFails_logged 1 htries fun _ => rfl⟩

theorem execPllLockTimeout_base {p : Pll} {n : Nat} (hp : p.base? = some n) (hphase : s.life.phase = .halted) (hdue : s.life.due = some .cold) :
    ∃ t, execPllLockTimeout p s = .next t
      ∧ Logged (s.updPll n (fun c => { c with tries := c.tries + 1, running := decide (c.tries < 2) })) t [(0, 11)] := by
  have hexec : execPllLockTimeout p s = .next (match p.base? with | some n => s.basePllFails n | none => s) := by
    cases p with
    | arith k => cases hp
    | network k => cases hp
    | _ => rfl
  rw [hexec, hp]
  refine ⟨_, rfl, ?_⟩
  dsimp only
  rw [State.basePllFails, if_pos (.inl ⟨hphase, hdue⟩)]
  exact logged_trouble _ _ _ _ _ _ _ (by decide) (by decide)

/-! ## Throttle steps, R530 -/

theorem execThrottleStepDown_steps {k : Nat} (hpow : s.powered = true) (hk : k < 4) (hhot : 1000 ≤ s.stackTemp k) (hstep : 2 < (s.clk k).thermStep) :
    ∃ t, execThrottleStepDown k s = .next t
      ∧ Logged (s.updClk k (fun c => { c with thermStep := c.thermStep - 1 })) t (if (s.clk k).thermStep = 8 then [(0, 5)] else []) := by
  unfold execThrottleStepDown
  dsimp only
  rw [if_neg (by simp [hpow]; omega)]
  refine ⟨_, rfl, ?_⟩
  by_cases hfirst : (s.clk k).thermStep = 8
  · rw [if_pos hfirst, if_pos hfirst]
    exact logged_trouble _ _ _ _ _ _ _ (by decide) (by decide)
  · rw [if_neg hfirst, if_neg hfirst]
    exact logged_refl _

theorem execThrottleStepUp_steps {k : Nat} (hpow : s.powered = true) (hk : k < 4) (hcool : s.stackTemp k < 970)
    (hstep : (s.clk k).thermStep < (s.clk k).budgetStep) :
    execThrottleStepUp k s = .next (s.updClk k (fun c => { c with thermStep := min 8 (c.thermStep + 1) })) := by
  unfold execThrottleStepUp
  dsimp only
  rw [if_neg (by simp [hpow]; omega)]

/-! ## The budget's clock steps, R303, R305 -/

/-- The clocks of the stacks of a list, each changed once. -/
theorem each_updClk_eq (f : StackClk → StackClk) {l : List Nat} (hl : l.Nodup) (s : State) : ∃ clks,
    s.each l (fun s k => s.updClk k f) = { s with clks := clks }
      ∧ ∀ k, Tab.get {} clks k = if k ∈ l then f (s.clk k) else s.clk k := by
  induction l generalizing s with
  | nil => exact ⟨s.clks, rfl, fun k => by simp [State.clk]⟩
  | cons n ns ih =>
    obtain ⟨hn, hns⟩ := List.nodup_cons.mp hl
    obtain ⟨clks, heach, hclks⟩ := ih hns (s.updClk n f)
    refine ⟨clks, heach, fun k => ?_⟩
    rw [hclks k]
    by_cases hk : n = k
    · subst hk
      simp [hn]
    · have hk' : k ≠ n := fun h => hk h.symm
      simp [State.updClk_clk_ne _ _ _ _ hk, hk']

/-- What a step of a cut may change: the clocks, the contexts whose issue stops, and what CUT touches. Every stack that runs above
step 2 goes one step down, and CUT is set with it. -/
theorem cutStep_eq (s : State) : ∃ clks stopped c d lo co ou,
    s.cutStep = { s with clks := clks, supply := { s.supply with stopped := stopped }
                         life := { s.life with commit := c, storedStamp := d }, logs := lo, comms := co, out := ou }
    ∧ ∀ k, k < 4 → (s.clk k).running = true → 2 < (s.clk k).step →
        (Tab.get {} clks k).budgetStep = (s.clk k).step - 1 ∧ (lo.word 0).getLsbD 8 = true := by
  by_cases hks : (List.range 4).filter (fun k => (s.clk k).running && decide (2 < (s.clk k).step)) = []
  · have hno (k : Nat) (hk : k < 4) (hrun : (s.clk k).running = true) (hstep : 2 < (s.clk k).step) : False := by
      have hmem : k ∈ (List.range 4).filter (fun k => (s.clk k).running && decide (2 < (s.clk k).step)) := by simp [hk, hrun, hstep]
      rw [hks] at hmem
      cases hmem
    unfold State.cutStep
    dsimp only
    rw [if_neg (not_not.mpr hks)]
    split
    · exact ⟨s.clks, _, s.life.commit, s.life.storedStamp, s.logs, s.comms, s.out, rfl, fun k hk hrun hstep => (hno k hk hrun hstep).elim⟩
    · exact ⟨s.clks, s.supply.stopped, s.life.commit, s.life.storedStamp, s.logs, s.comms, s.out, rfl,
        fun k hk hrun hstep => (hno k hk hrun hstep).elim⟩
  · obtain ⟨clks, heach, hclks⟩ := each_updClk_eq (fun c => { c with budgetStep := c.step - 1 })
      (List.nodup_range.filter (fun k => (s.clk k).running && decide (2 < (s.clk k).step))) s
    obtain ⟨c, d, lo, co, ou, hraise, hword⟩ := raise_eq { s with clks := clks } 0 8 12 (by decide) (by decide)
    unfold State.cutStep
    dsimp only
    rw [if_pos hks, heach, hraise]
    refine ⟨clks, s.supply.stopped, c, d, lo, co, _, rfl, fun k hk hrun hstep => ⟨?_, by simp [hword 0 8 (by decide)]⟩⟩
    rw [hclks k, if_pos (by simp [hk, hrun, hstep])]

/-- The estimates that the energy meters give for running contexts stand. -/
def State.metered (s : State) (estimates : List (Nat × Nat)) : State :=
  s.each (estimates.filter (fun e => (s.ctx e.1).live)) (fun s e => s.updCtx e.1 (fun x => { x with estimate := e.2 }))

theorem metered_eq (s : State) (estimates : List (Nat × Nat)) : ∃ ctxs, s.metered estimates = { s with ctxs := ctxs } := by
  unfold State.metered
  generalize estimates.filter (fun e => (s.ctx e.1).live) = l
  induction l generalizing s with
  | nil => exact ⟨s.ctxs, rfl⟩
  | cons e es ih =>
    obtain ⟨ctxs, h⟩ := ih (s.updCtx e.1 (fun x => { x with estimate := e.2 }))
    exact ⟨ctxs, h⟩

theorem metered_single {c e : Nat} (hlive : (s.ctx c).live = true) : ((s.metered [(c, e)]).ctx c).estimate = e := by
  have hfilter : [(c, e)].filter (fun x => (s.ctx x.1).live) = [(c, e)] := by simp [hlive]
  rw [State.metered, hfilter]
  exact congrArg Ctx.estimate (State.updCtx_ctx_same ..)

/-- The state once the draws are measured. -/
def State.measuredDraw (s : State) (draw shared : Nat) (cutting : Bool) : State :=
  { s with supply := { s.supply with draw := draw, sharedDraw := shared, cutting := cutting } }

theorem execBudgetClockStep_eq (draw pkg : Nat) (estimates : List (Nat × Nat)) (hpow : s.powered = true) : ∃ shared,
    execBudgetClockStep { draw := draw, pkg := pkg, estimates := estimates } s
      = if draw ≤ s.inForce ∧ pkg ≤ 3400 then .next ((s.metered estimates).measuredDraw draw shared false)
        else .next ((s.metered estimates).measuredDraw draw shared true).cutStep := by
  obtain ⟨ctxs, hmetered⟩ := metered_eq s estimates
  unfold execBudgetClockStep
  rw [if_neg (by simp [hpow]), ← State.metered, hmetered]
  exact ⟨_, rfl⟩

theorem execBudgetClockStep_measures (draw pkg : Nat) (estimates : List (Nat × Nat)) (hpow : s.powered = true) :
    ∃ t, execBudgetClockStep { draw := draw, pkg := pkg, estimates := estimates } s = .next t ∧ t.supply.draw = draw
      ∧ (∀ c e, estimates = [(c, e)] → (s.ctx c).live = true → (t.ctx c).estimate = e)
      ∧ (draw ≤ s.inForce → pkg ≤ 3400 → t.supply.cutting = false ∧ t.clks = s.clks ∧ t.logs = s.logs ∧ (estimates = [] → t.ctxs = s.ctxs))
      ∧ (s.inForce < draw ∨ 3400 < pkg → t.supply.cutting = true ∧ ∀ k, k < 4 → (s.clk k).running = true → 2 < (s.clk k).step →
          (t.clk k).budgetStep = (s.clk k).step - 1 ∧ (t.logs.word 0).getLsbD 8 = true)
      ∧ t.mem = s.mem ∧ t.opt = s.opt ∧ t.trust = s.trust ∧ t.img = s.img := by
  obtain ⟨shared, hexec⟩ := execBudgetClockStep_eq draw pkg estimates hpow
  obtain ⟨ctxs, hmetered⟩ := metered_eq s estimates
  have hctx (c e : Nat) (hone : estimates = [(c, e)]) (hlive : (s.ctx c).live = true) : (Tab.get {} ctxs c).estimate = e := by
    have hestimate := metered_single (e := e) hlive
    rw [← hone, hmetered] at hestimate
    exact hestimate
  have hnone (h : estimates = []) : ctxs = s.ctxs := by
    subst h
    exact (congrArg State.ctxs hmetered).symm
  rw [hmetered] at hexec
  by_cases hin : draw ≤ s.inForce ∧ pkg ≤ 3400
  · rw [if_pos hin] at hexec
    exact ⟨_, hexec, rfl, hctx, fun _ _ => ⟨rfl, rfl, rfl, hnone⟩, fun hout => absurd hin (by omega), rfl, rfl, rfl, rfl⟩
  · rw [if_neg hin] at hexec
    obtain ⟨clks, stopped, c, d, lo, co, ou, hcut, hclks⟩ := cutStep_eq (({ s with ctxs := ctxs } : State).measuredDraw draw shared true)
    rw [hcut] at hexec
    exact ⟨_, hexec, rfl, hctx, fun h1 h2 => absurd ⟨h1, h2⟩ hin, fun _ => ⟨rfl, hclks⟩, rfl, rfl, rfl, rfl⟩

end Sys2Proof.Machine
end

section
/-! THERMAL_SAMPLE: what the readings, the age of the planes and a trip leave (R168, R169, R183, R529, R531). -/

namespace Sys2Proof.Machine

open Sys2Proof

variable {s : State}

/-! ## Bytes outside a store -/

theorem read_writes_outside (m : Memory) {sp sq : Space} {a x : Nat} {bs : List Byte} (h : ¬ (sq = sp ∧ a ≤ x ∧ x < a + bs.length)) :
    (m.writes sp a bs).read sq x = m.read sq x := by
  induction bs generalizing m a with
  | nil => rfl
  | cons b bs ih =>
    rw [List.length_cons] at h
    have htail : ¬ (sq = sp ∧ a + 1 ≤ x ∧ x < a + 1 + bs.length) := fun ⟨hsp, hlo, hhi⟩ => h ⟨hsp, by omega, by omega⟩
    have hhead : ¬ (sp = sq ∧ a = x) := fun ⟨hsp, hx⟩ => h ⟨hsp.symm, by omega, by omega⟩
    rw [Memory.writes, ih _ htail, Memory.read_write, if_neg hhead]

theorem read_store_outside (m : Memory) {sp sq : Space} {a x : Nat} {bs : List Byte} (p : Bool) (h : ¬ (sq = sp ∧ a ≤ x ∧ x < a + bs.length)) :
    (m.store sp a bs p).read sq x = m.read sq x := by
  rw [Memory.store, Memory.read_unlist, Memory.read_marks, read_writes_outside m h]

/-! ## What a sample may change of memory: copies in the away region, with an image in force (R183) -/

/-- Memory `m` is `n` but for bytes of the away region, and no byte differs where no image is in force. -/
def AwayOnly (active : Option Nat) (m n : Memory) : Prop :=
  (∀ a, inAway a = false → m.read .board a = n.read .board a) ∧ (∀ sp a, sp ≠ Space.board → m.read sp a = n.read sp a) ∧ (active = none → m = n)

theorem awayOnly_refl (active : Option Nat) (m : Memory) : AwayOnly active m m := ⟨fun _ _ => rfl, fun _ _ _ => rfl, fun _ => rfl⟩

theorem AwayOnly.trans {active : Option Nat} {l m n : Memory} (h : AwayOnly active l m) (g : AwayOnly active m n) : AwayOnly active l n :=
  ⟨fun a ha => (h.1 a ha).trans (g.1 a ha), fun sp a hsp => (h.2.1 sp a hsp).trans (g.2.1 sp a hsp), fun hn => (h.2.2 hn).trans (g.2.2 hn)⟩

theorem inAway_of_bounds {x : Nat} (hlo : awayFrom ≤ x) (hhi : x < awayTo) : inAway x = true := by
  unfold awayFrom at hlo
  unfold awayTo at hhi
  unfold inAway regionOf
  rw [if_neg (by omega), if_pos (by omega)]
  rfl

/-- A free place lies in the away region. -/
theorem freePlace_bounds {l : List AwayCopy} {len a : Nat} (h : freePlace l len = some a) : awayFrom ≤ a ∧ a + len ≤ awayTo := by
  have hmem := List.mem_filter.mp (List.mem_of_head? h)
  simp only [Bool.and_eq_true, decide_eq_true_eq] at hmem
  exact hmem.2.1

/-- Of the state a sample's ageing changes engines, upkeep and copies in the away region only. -/
def AgedOnly (s t : State) : Prop :=
  ∃ engines upk mem, t = { s with engines := engines, upk := upk, mem := mem } ∧ AwayOnly s.img.active mem s.mem

theorem agedOnly_refl (s : State) : AgedOnly s s := ⟨s.engines, s.upk, s.mem, rfl, awayOnly_refl _ _⟩

theorem AgedOnly.trans {s t u : State} (h : AgedOnly s t) (g : AgedOnly t u) : AgedOnly s u := by
  obtain ⟨engines, upk, mem, rfl, hmem⟩ := h
  obtain ⟨engines', upk', mem', rfl, hmem'⟩ := g
  exact ⟨engines', upk', mem', rfl, hmem'.trans hmem⟩

theorem agedOnly_upk (s : State) (upk : Upkeep) : AgedOnly s { s with upk := upk } := ⟨s.engines, upk, s.mem, rfl, awayOnly_refl _ _⟩

theorem agedOnly_updEngine (s : State) (e : Nat) (f : Engine → Engine) : AgedOnly s (s.updEngine e f) := ⟨_, s.upk, s.mem, rfl, awayOnly_refl _ _⟩

theorem agedOnly_pushWork (s : State) (w : Work) : AgedOnly s (s.pushWork w) := by
  obtain ⟨q, h, -⟩ := pushWork_eq s w
  rw [h]
  exact agedOnly_upk s _

theorem agedOnly_each {α : Type} {f : State → α → State} (hf : ∀ s x, AgedOnly s (f s x)) (l : List α) (s : State) : AgedOnly s (s.each l f) := by
  induction l generalizing s with
  | nil => exact agedOnly_refl s
  | cons x xs ih => exact (hf s x).trans (ih _)

theorem awayOnly_store {active : Option Nat} (m : Memory) {a : Nat} {bs : List Byte} (p : Bool) (hlo : awayFrom ≤ a)
    (hhi : a + bs.length ≤ awayTo) (hactive : active ≠ none) : AwayOnly active (m.store .board a bs p) m := by
  refine ⟨fun x hx => ?_, fun sp x hsp => ?_, fun hnone => absurd hnone hactive⟩
  · refine read_store_outside m p fun ⟨_, hge, hlt⟩ => ?_
    rw [inAway_of_bounds (hlo.trans hge) (hlt.trans_le hhi)] at hx
    cases hx
  · exact read_store_outside m p fun h => hsp h.1

theorem updMem_withUpk (s : State) (f : Memory → Memory) (upk : Upkeep) :
    { s.updMem f with upk := upk } = { s with upk := upk, mem := f s.mem } := rfl

/-- A copy that is made lies in a free place; where one lies already, or no place is free, nothing changes. -/
theorem copyBlock_cases (s : State) (slot e lp : Nat) : s.copyBlock slot e lp = s ∨ ∃ a bytes upk p,
    freePlace s.upk.copies bytes.length = some a ∧ s.copyBlock slot e lp = { s with upk := upk, mem := s.mem.store .board a bytes p } := by
  unfold State.copyBlock
  cases ((s.imgSlot slot).image).bind (fun i => i.blockOn e lp) with
  | none => exact .inl rfl
  | some b =>
    dsimp only
    by_cases hcopied : (s.upk.copies.any fun c => decide (c.slot = slot ∧ c.engine = e ∧ c.plane = lp)) = true
    · rw [if_pos hcopied]
      exact .inl rfl
    · rw [if_neg hcopied]
      cases hplace : freePlace s.upk.copies b.copyBytes.length with
      | none => exact .inl rfl
      | some a => exact .inr ⟨a, b.copyBytes, _, _, hplace, updMem_withUpk s _ _⟩

theorem agedOnly_copyBlock (slot e lp : Nat) (hactive : s.img.active ≠ none) : AgedOnly s (s.copyBlock slot e lp) := by
  obtain h | ⟨a, bytes, upk, p, hplace, h⟩ := copyBlock_cases s slot e lp <;> rw [h]
  · exact agedOnly_refl s
  · obtain ⟨hlo, hhi⟩ := freePlace_bounds hplace
    exact ⟨s.engines, upk, _, rfl, awayOnly_store s.mem p hlo hhi hactive⟩

/-! ## The age of the planes, R168, R169 -/

theorem agedOnly_setDrift (s : State) (e p drift : Nat) : AgedOnly s (s.setDrift e p drift) := by
  have hmark : AgedOnly s (s.updPlane (17 * e + p) (fun x => { x with drift := min 65535 drift })) := agedOnly_upk s _
  unfold State.setDrift
  dsimp only
  split
  · exact hmark
  · split
    · exact hmark
    · have hcond (f : Engine → Engine) := hmark.trans (agedOnly_updEngine _ e f)
      refine AgedOnly.trans ?_ (agedOnly_pushWork _ _)
      split
      · next a hactive =>
        split
        · exact (hcond _).trans (agedOnly_copyBlock _ _ _ (fun h => Option.some_ne_none a (hactive.symm.trans h)))
        · exact hcond _
      · exact hcond _

theorem agedOnly_agePlane (s : State) (k : Nat) : AgedOnly s (s.agePlane k) := by
  unfold State.agePlane
  dsimp only
  split
  · exact agedOnly_refl s
  · split
    · exact agedOnly_upk s _
    · split
      · exact agedOnly_upk s _
      · exact (agedOnly_upk s _).trans (agedOnly_setDrift _ _ _ _)

theorem agedOnly_runPostponed (s : State) : AgedOnly s s.runPostponed := by
  unfold State.runPostponed
  dsimp only
  exact (agedOnly_upk s _).trans (agedOnly_each (fun _ _ => agedOnly_pushWork _ _) _ _)

/-- The planes age, the groups of lapsed readings go back to default, and the boot checks that waited for the temperature are pending. -/
def State.aged (s : State) : State := (s.latchDefaults.each (s.latchDefaults.upk.planes.map Prod.fst) State.agePlane).runPostponed

theorem agedOnly_aged (s : State) : AgedOnly s s.aged := by
  have hlatch : AgedOnly s s.latchDefaults := agedOnly_each (fun _ _ => agedOnly_updEngine _ _ _) _ s
  exact (hlatch.trans (agedOnly_each agedOnly_agePlane _ _)).trans (agedOnly_runPostponed _)

/-! ## Readings, R529 -/

theorem readTemps_temp {temps : List Int} {i : Nat} {v : Int} (hi : i < 64) (hv : temps[i]? = some v) : (s.readTemps temps).temp i = v := by
  have hprefix (n : Nat) : i < n → Tab.get 250 ((List.range n).foldl
      (fun (t : Tab Int) i => match temps[i]? with | some v => Tab.set 250 t i v | none => t) s.temps) i = v := by
    induction n with
    | zero => intro h; omega
    | succ n ih =>
      intro hlt
      rw [List.range_succ, List.foldl_append, List.foldl_cons, List.foldl_nil]
      by_cases hlast : n = i
      · subst hlast
        rw [hv]
        exact Tab.get_set_same _ _ _
      · have hbefore := ih (by omega)
        split
        · rw [Tab.get_set_ne _ _ _ _ hlast, hbefore]
        · exact hbefore
  exact hprefix 64 hi

/-- SENSOR is told where the first sensor is excluded; the exclusions stand. -/
theorem excludeSensors_eq (s : State) : ∃ c d lo co ou, s.excludeSensors = { s with
    excluded := (List.range 32).filterMap s.excludedOf, life := { s.life with commit := c, storedStamp := d }, logs := lo, comms := co, out := ou } := by
  unfold State.excludeSensors
  dsimp only
  split
  · obtain ⟨c, d, lo, co, ou, h, -⟩ := trouble_eq { s with excluded := (List.range 32).filterMap s.excludedOf } 0 10
      (locCluster (((List.range 32).filterMap s.excludedOf).headD 0 / 2)) 0 0xFF [((List.range 32).filterMap s.excludedOf).headD 0]
      (by decide) (by decide)
    rw [h]
    exact ⟨c, d, lo, co, _, rfl⟩
  · exact ⟨s.life.commit, s.life.storedStamp, s.logs, s.comms, s.out, rfl⟩

theorem hot_of_readings {s t : State} (htemps : t.temps = s.temps) (hexcluded : t.excluded = s.excluded) : t.hot = s.hot := by
  have hused : t.usedTemp = s.usedTemp := by
    unfold State.usedTemp State.temp
    rw [htemps, hexcluded]
  rw [State.hot, hused, State.hot]

/-! ## A trip, R531 -/

/-- What a trip leaves as it was. -/
theorem trip_leaves (s : State) : s.trip.life.phase = .tripped ∧ (s.trip.logs.word 0).getLsbD 6 = true
    ∧ s.trip.temps = s.temps ∧ s.trip.excluded = s.excluded ∧ { s.trip.supply with waiting := s.supply.waiting } = s.supply
    ∧ s.trip.mem = s.mem ∧ s.trip.opt = s.opt ∧ s.trip.trust = s.trust ∧ s.trip.img = s.img ∧ s.trip.ctxs = s.ctxs := by
  obtain ⟨c, d, gasp, lseq, kept, hgasp⟩ := gaspActions_eq s
  obtain ⟨c', d', lo, co, ou, hraise, hword⟩ := raise_eq s.gaspActions 0 6 12 (by decide) (by decide)
  unfold State.trip
  rw [hraise, hgasp]
  exact ⟨rfl, by simp [hword 0 6 (by decide)], rfl, rfl, rfl, rfl, rfl, rfl, rfl, rfl⟩

/-! ## The sample -/

/-- The state of a sample before the trip. -/
def State.sampled (s : State) (temps : List Int) : State := (s.readTemps temps).excludeSensors.aged

theorem execThermalSample_eq (temps : List Int) (hpow : s.powered = true) : execThermalSample temps s
    = .next (if (s.sampled temps).hot = true ∧ (s.sampled temps).fwUp = true then (s.sampled temps).trip else s.sampled temps) := by
  unfold execThermalSample
  rw [if_neg (by simp [hpow])]
  rfl

theorem sampled_leaves (s : State) (temps : List Int) :
    (s.sampled temps).temps = (s.readTemps temps).temps ∧ (s.sampled temps).excluded = (List.range 32).filterMap (s.readTemps temps).excludedOf
    ∧ (s.sampled temps).life.phase = s.life.phase ∧ (s.sampled temps).supply = s.supply ∧ AwayOnly s.img.active (s.sampled temps).mem s.mem
    ∧ (s.sampled temps).opt = s.opt ∧ (s.sampled temps).trust = s.trust ∧ (s.sampled temps).img = s.img ∧ (s.sampled temps).ctxs = s.ctxs := by
  obtain ⟨c, d, lo, co, ou, hexcluded⟩ := excludeSensors_eq (s.readTemps temps)
  obtain ⟨engines, upk, mem, haged, hmem⟩ := agedOnly_aged (s.readTemps temps).excludeSensors
  rw [State.sampled, haged]
  rw [hexcluded] at hmem ⊢
  exact ⟨rfl, rfl, rfl, rfl, hmem, rfl, rfl, rfl, rfl⟩

theorem fwUp_of_phase {s t : State} (h : t.life.phase = s.life.phase) : t.fwUp = s.fwUp := by rw [State.fwUp, h, State.fwUp]

theorem execThermalSample_samples (temps : List Int) (hpow : s.powered = true) (hlen : temps.length = 64) :
    ∃ t, execThermalSample temps s = .next t ∧ (∀ i v, temps[i]? = some v → t.temp i = v)
      ∧ (t.hot = true → s.fwUp = true → t.life.phase = .tripped ∧ (t.logs.word 0).getLsbD 6 = true)
      ∧ (t.hot = false → t.life.phase = s.life.phase) ∧ t.excluded = (List.range 32).filterMap (s.readTemps temps).excludedOf
      ∧ { t.supply with waiting := s.supply.waiting } = s.supply ∧ (∀ a, inAway a = false → t.mem.read .board a = s.mem.read .board a)
      ∧ (∀ sp a, sp ≠ Space.board → t.mem.read sp a = s.mem.read sp a) ∧ (s.img.active = none → t.mem = s.mem)
      ∧ t.opt = s.opt ∧ t.trust = s.trust ∧ t.img = s.img ∧ t.ctxs = s.ctxs := by
  obtain ⟨htemps, hexcluded, hphase, hsupply, ⟨haway, hsram, hsame⟩, hopt, htrust, himg, hctxs⟩ := sampled_leaves s temps
  have hread {t : State} (ht : t.temps = (s.sampled temps).temps) (i : Nat) (v : Int) (hv : temps[i]? = some v) : t.temp i = v := by
    have hi : i < 64 := hlen ▸ (List.getElem?_eq_some_iff.mp hv).1
    rw [State.temp, ht, htemps]
    exact readTemps_temp hi hv
  rw [execThermalSample_eq temps hpow]
  by_cases htrips : (s.sampled temps).hot = true ∧ (s.sampled temps).fwUp = true
  · obtain ⟨htripped, hbit, httemps, htexcluded, htsupply, htmem, htopt, httrust, htimg, htctxs⟩ := trip_leaves (s.sampled temps)
    rw [if_pos htrips]
    refine ⟨_, rfl, hread httemps, fun _ _ => ⟨htripped, hbit⟩, fun hcool => ?_, htexcluded.trans hexcluded, by rw [← hsupply]; exact htsupply,
      fun a ha => by rw [htmem, haway a ha], fun sp a hsp => by rw [htmem, hsram sp a hsp], fun hn => htmem.trans (hsame hn),
      htopt.trans hopt, httrust.trans htrust, htimg.trans himg, htctxs.trans hctxs⟩
    rw [hot_of_readings httemps htexcluded, htrips.1] at hcool
    cases hcool
  · rw [if_neg htrips]
    exact ⟨_, rfl, hread rfl, fun hhot hfw => absurd ⟨hhot, (fwUp_of_phase hphase).trans hfw⟩ htrips, fun _ => hphase, hexcluded,
      by rw [hsupply], haway, hsram, hsame, hopt, htrust, himg, hctxs⟩

/-- Settles O9: the clocks by `updClk_congr` and `cutStep_eq`, a sample by what ageing and a trip leave. -/
theorem clockAndHeatCommandsTakeEffect : Obligations.ClockAndHeatCommandsTakeEffect :=
  ⟨fun _ _ => execPllLock_stack, fun _ _ _ => execPllLock_base,
    fun _ _ hrun => ⟨execPllLockTimeout_arith hrun, execPllLockTimeout_network hrun⟩, fun _ _ _ => execPllLockTimeout_base,
    fun temps _ => execThermalSample_samples temps, fun _ _ => execThrottleStepDown_steps, fun _ _ => execThrottleStepUp_steps,
    fun draw pkg estimates _ => execBudgetClockStep_measures draw pkg estimates⟩

end Sys2Proof.Machine
end

section
/-! What a step of a thread may change from its issue to its completion: within its destination operands, and of the rest only what
`StepOnly` names (R246, R252, R268). -/

namespace Sys2Proof.Machine

open Sys2Proof

variable {s t u : State} {th : Nat} {outs : List (Ref × Nat)}

/-! ## What a fetch leaves -/

theorem Aside.cores (h : Aside s t) : t.cores = s.cores := by
  obtain ⟨c, d, lo, co, ou, n, rfl⟩ := h
  rfl

theorem Aside.engines (h : Aside s t) : t.engines = s.engines := by
  obtain ⟨c, d, lo, co, ou, n, rfl⟩ := h
  rfl

theorem aside_of_fetch {x : Ref} {n : Nat} {bs : List Byte} {p : Bool} (h : s.fetch th x n = (bs, p, t)) : Aside s t := by
  have hfetch := aside_fetch s th x n
  rwa [h] at hfetch

/-- Bytes that are fetched in one case, and found otherwise or not needed in the other. -/
theorem aside_of_ite {c : Prop} [Decidable c] {a b : List Byte × Bool × State} {bs : List Byte} {p : Bool} (ha : Aside s a.2.2) (hb : Aside s b.2.2)
    (h : (if c then a else b) = (bs, p, t)) : Aside s t := by
  split at h <;> subst h <;> assumption

theorem view_length (s : State) (who : Option Nat) (sp : Space) (a n : Nat) : (s.view who sp a n).1.length = n := by
  unfold State.view
  split <;> simp [Memory.bytes]

theorem fetch_length (s : State) (th : Nat) (x : Ref) (n : Nat) : (s.fetch th x n).1.length = n := by
  rw [fetch_bytes, view_length]

theorem writeRef_cores (s : State) (th : Nat) (x : Ref) (bs : List Byte) (p : Bool) : (s.writeRef th x bs p).cores = s.cores := by
  obtain ⟨u, -, hcores, h⟩ := writeRef_eq s th x bs p
  rw [h]
  exact hcores

/-- Where an operand lies follows from the spare of its core alone. -/
theorem refAt_of_cores (h : t.cores = s.cores) (th : Nat) (x : Ref) : t.refAt th x = s.refAt th x := by
  unfold State.refAt State.physEngine State.core
  rw [h]

/-! ## A step under way -/

/-- `t` is what a step of `th` that began in `s` may have left so far: no byte outside the operands `outs` has changed. -/
def StepWithin (s t : State) (th : Nat) (outs : List (Ref × Nat)) : Prop :=
  ∃ u m, StepOnly th s u ∧ t = { u with mem := m } ∧ ∀ (sp : Space) (x : Nat),
    (∀ o, o ∈ outs → ¬ ((s.refAt th o.1).1 = sp ∧ (s.refAt th o.1).2 ≤ x ∧ x < (s.refAt th o.1).2 + o.2)) → m.read sp x = s.mem.read sp x

theorem StepOnly.within (h : StepOnly th s t) : StepWithin s t th outs := ⟨t, t.mem, h, rfl, fun _ _ _ => by rw [h.mem]⟩

theorem StepOnly.withMem (h : StepOnly th s t) (m : Memory) : StepOnly th { s with mem := m } { t with mem := m } := by
  obtain ⟨c, d, lo, co, ou, n, ths, en, cs, w, rfl⟩ := h
  exact ⟨c, d, lo, co, ou, n, ths, en, cs, w, rfl⟩

theorem StepWithin.andThen (h : StepWithin s t th outs) (g : StepOnly th t u) : StepWithin s u th outs := by
  obtain ⟨v, m, hv, rfl, hread⟩ := h
  refine ⟨{ u with mem := v.mem }, m, hv.trans (g.withMem v.mem), ?_, hread⟩
  have hmem : u.mem = m := g.mem
  rw [← hmem]

/-- A write within an operand of `outs`, whose place has not moved since the step began. -/
theorem StepWithin.write {x : Ref} {n : Nat} {bs : List Byte} (h : StepWithin s t th outs) (hcores : t.cores = s.cores) (hout : (x, n) ∈ outs)
    (hlen : bs.length ≤ n) (p : Bool) : StepWithin s (t.writeRef th x bs p) th outs := by
  obtain ⟨v, hv, -, hwrite⟩ := writeRef_eq t th x bs p
  obtain ⟨w, m, hw, hwithin, hread⟩ := h.andThen hv
  refine ⟨w, t.mem.store (t.refAt th x).1 (t.refAt th x).2 bs p, hw, by rw [hwrite, hwithin], fun sp a hout' => ?_⟩
  have hoff : ¬ (sp = (t.refAt th x).1 ∧ (t.refAt th x).2 ≤ a ∧ a < (t.refAt th x).2 + bs.length) := by
    rw [refAt_of_cores hcores]
    exact fun ⟨hsp, hlo, hhi⟩ => hout' (x, n) hout ⟨hsp.symm, hlo, hhi.trans_le (Nat.add_le_add_left hlen _)⟩
  have hmem : t.mem = m := hv.mem.symm.trans (by rw [hwithin])
  rw [read_store_outside _ _ hoff, hmem, hread sp a hout']

/-- The write of a step that has only fetched so far. -/
theorem Aside.write {x : Ref} {n : Nat} {bs : List Byte} (h : Aside s t) (hout : (x, n) ∈ outs) (hlen : bs.length ≤ n) (p : Bool) :
    StepWithin s (t.writeRef th x bs p) th outs :=
  (h.stepOnly th).within.write h.cores hout hlen p

/-- The step has done its work and completes at STEP_COMPLETE. -/
theorem StepWithin.ran (h : StepWithin s t th outs) (hstate : (t.thread th).state = .running) (hdone : (t.thread th).done = true) :
    StepRan s t th outs := by
  obtain ⟨u, m, ⟨c, d, lo, co, ou, n, ths, en, cs, ⟨hother, hpc, hiter, hctx⟩, rfl⟩, rfl, hread⟩ := h
  exact ⟨⟨hstate, hdone⟩, ⟨hpc, hiter, hctx⟩, hother, hread, rfl⟩

theorem StepWithin.stepDone (h : StepWithin s t th outs) : StepRan s (t.stepDone th) th outs :=
  (h.andThen (stepOnly_stepDone th t)).ran (by simp [State.stepDone]) (by simp [State.stepDone])

theorem stepOnly_updEngine_ite (th : Nat) (s : State) (c : Prop) [Decidable c] (e : Nat) (f : Engine → Engine) :
    StepOnly th s (if c then s.updEngine e f else s) := by
  split
  · exact stepOnly_updEngine _ _ _ _
  · exact stepOnly_refl _ _

/-- Bytes of a list, `k` to an element. -/
theorem flatMap_length_const {α : Type} (f : α → List Byte) {k : Nat} (hf : ∀ a, (f a).length = k) (l : List α) :
    (l.flatMap f).length = k * l.length := by
  rw [List.length_flatMap, List.map_congr_left (fun a _ => hf a), List.map_const', List.sum_replicate, smul_eq_mul, Nat.mul_comm]

theorem floatBytes_length (l : List F32) : (floatBytes l).length = 4 * l.length := flatMap_length_const _ (fun _ => be_length _ _) l

theorem bfBytes_length (l : List F32) : (bfBytes l).length = 2 * l.length := flatMap_length_const _ (fun _ => be_length _ _) l

theorem issues_ne_false {k : Nat} (h : s.issues th k = true) : ¬ s.issues th k = false := by rw [h]; decide

end Sys2Proof.Machine
end

section
/-! ROTATE, REQUANT and DIGITAL_MATMUL run: how many bytes each writes (R125 to R129, R147 to R150, Table 7.11). -/

namespace Sys2Proof.Machine

open Sys2Proof

variable {s : State} {th : Nat}

/-! ## ROTATE -/

theorem butterflies_length (k h : Nat) (x : List F32) : (butterflies k h x).length = x.length := by
  induction k generalizing h x with
  | zero => rfl
  | succ k ih => rw [butterflies, ih, butterfly, List.length_map, List.length_range]

theorem rotateBlock_length_le (k : Nat) (sign : List Bool) (x : List F32) : (rotateBlock k sign x).length ≤ x.length := by
  simp [rotateBlock, butterflies_length]

/-- Lists of at most `n` elements, one after the other. -/
theorem length_flatMap_le {α β : Type} (f : α → List β) {n : Nat} (hf : ∀ a, (f a).length ≤ n) (l : List α) :
    (l.flatMap f).length ≤ l.length * n := by
  rw [List.length_flatMap]
  calc (l.map fun a => (f a).length).sum ≤ (l.map fun a => (f a).length).length • n :=
        List.sum_le_card_nsmul _ _ fun m hm => by
          obtain ⟨a, -, rfl⟩ := List.mem_map.mp hm
          exact hf a
    _ = l.length * n := by simp

theorem execRotate_runs (hissue : s.issues th 3 = true)
    (hok : s.badRef th [(rRef (s.recordOf th) 220, 4 * rf (s.recordOf th) 171 156), (rRef (s.recordOf th) 196, 4 * rf (s.recordOf th) 171 156),
      (rRef (s.recordOf th) 172, rf (s.recordOf th) 171 156 / 8)] = none) :
    ∃ t, execRotate th s = .next t ∧ StepRan s t th [(rRef (s.recordOf th) 196, 4 * rf (s.recordOf th) 171 156)] := by
  unfold execRotate
  rw [if_neg (issues_ne_false hissue)]
  dsimp only
  rw [hok]
  dsimp only
  cases hvals : s.fetch th (rRef (s.recordOf th) 220) (4 * rf (s.recordOf th) 171 156) with | mk bx r1 =>
  obtain ⟨p1, s1⟩ := r1
  cases hsigns : s1.fetch th (rRef (s.recordOf th) 172) (rf (s.recordOf th) 171 156 / 8) with | mk bs r2 =>
  obtain ⟨p2, s2⟩ := r2
  have hfetched := (aside_of_fetch hvals).trans (aside_of_fetch hsigns)
  dsimp only
  refine ⟨_, rfl, StepWithin.stepDone (StepWithin.andThen ?_ (stepOnly_countFp _ _ _ _))⟩
  refine hfetched.write (List.mem_singleton.mpr rfl) ?_ _
  rw [floatBytes_length, List.length_map]
  refine Nat.mul_le_mul_left 4 ((length_flatMap_le _ (n := 2 ^ rf (s.recordOf th) 247 244) (fun b => ?_) _).trans ?_)
  · exact (rotateBlock_length_le _ _ _).trans (List.length_take_le _ _)
  · rw [List.length_range]
    exact Nat.div_mul_le_self _ _

/-! ## REQUANT -/

theorem outBytesOf_length (fmt : Nat) (ys : List Int) : (outBytesOf fmt ys).length = outBytes fmt ys.length := by
  have hbytes : (ys.flatMap fun y => be 1 (unsigned 8 y)).length = ys.length :=
    (flatMap_length_const _ (fun _ => be_length _ _) ys).trans (Nat.one_mul _)
  have hpairs (f : Nat → Byte) : ((List.range ((ys.length + 1) / 2)).map f).length = (ys.length + 1) / 2 :=
    (List.length_map _).trans List.length_range
  match fmt with
  | 0 | 1 => exact hbytes
  | 2 | 3 => exact hpairs _
  | _ + 4 => exact flatMap_length_const _ (fun y => be_length 2 (unsigned 16 y)) ys

theorem execRequant_runs (gap : Bool) (hissue : s.issues th 4 = true)
    (hok : s.badRef th [(rRef (s.recordOf th) 172, outBytes (rf (s.recordOf th) 243 241) (rf (s.recordOf th) 147 132)),
      (rRef (s.recordOf th) 148, 4 * rf (s.recordOf th) 147 132),
      (rRef (s.recordOf th) 197, if rf (s.recordOf th) 247 247 = 0 ∧ rf (s.recordOf th) 196 196 = 0 then 0 else 4 * rf (s.recordOf th) 147 132)] = none) :
    ∃ t, execRequant th gap s = .next t
      ∧ StepRan s t th [(rRef (s.recordOf th) 172, outBytes (rf (s.recordOf th) 243 241) (rf (s.recordOf th) 147 132))] := by
  unfold execRequant
  rw [if_neg (issues_ne_false hissue)]
  simp only [decide_eq_true_eq]
  rw [hok]
  dsimp only
  cases hmults : s.fetch th (rRef (s.recordOf th) 148) (4 * rf (s.recordOf th) 147 132) with | mk bm r1 =>
  obtain ⟨p1, s1⟩ := r1
  dsimp only
  cases hvals : (if rf (s.recordOf th) 247 247 = 0 ∧ rf (s.recordOf th) 196 196 = 0 then
      ([], (s1.engine (s.physEngine (th / 16) (rf (s.recordOf th) 246 244))).accPoison, s1)
    else s1.fetch th (rRef (s.recordOf th) 197) (4 * rf (s.recordOf th) 147 132)) with | mk bx r2 =>
  obtain ⟨p2, s2⟩ := r2
  have hfetched := (aside_of_fetch hmults).trans (aside_of_ite (aside_refl _) (aside_fetch _ _ _ _) hvals)
  dsimp only
  refine ⟨_, rfl, StepWithin.stepDone (StepWithin.andThen ?_ (stepOnly_markAdapted _ _ _))⟩
  refine StepWithin.andThen (StepWithin.andThen (StepWithin.andThen (StepWithin.andThen ?_ (stepOnly_countFp _ _ _ _))
    (stepOnly_updEngine_ite _ _ _ _ _)) (stepOnly_countConvs _ _ _ _ _ _ _)) (stepOnly_markPoison _ _ _)
  refine hfetched.write (List.mem_singleton.mpr rfl) (le_of_eq ?_) _
  rw [outBytesOf_length, List.length_map, List.length_map, List.length_range]

/-! ## DIGITAL_MATMUL -/

theorem execDigitalMatmul_runs (hissue : s.issues th 1 = true) {m : MmRec} (hm : m = mmRec (s.recordOf th))
    (hok : s.badRef th [({ space := 1, engine := m.engine, offset := m.waddr }, wBytes m.mode m.wcode (m.kt * m.nt)),
      ({ space := 1, engine := m.engine, offset := m.xaddr }, xBytes m.mode (m.b * m.kt * 16)),
      ({ space := 1, engine := m.engine, offset := m.oaddr }, 4 * m.b * m.nt * 16)] = none)
    (hbook : m.wcode = 0 ∨ (s.engine (s.physEngine (th / 16) m.engine)).cbLoading.contains m.slot = false
      ∧ Tab.get [] (s.engine (s.physEngine (th / 16) m.engine)).codebooks m.slot
        = mmBook m (s.fetch th { space := 1, engine := m.engine, offset := m.waddr } (wBytes m.mode m.wcode (m.kt * m.nt))).1) :
    ∃ t, execDigitalMatmul th s = .next t ∧ StepRan s t th [({ space := 1, engine := m.engine, offset := m.oaddr }, 4 * m.b * m.nt * 16)] := by
  unfold execDigitalMatmul
  rw [if_neg (issues_ne_false hissue)]
  dsimp only
  rw [← hm, hok]
  dsimp only
  cases hweights : s.fetch th { space := 1, engine := m.engine, offset := m.waddr } (wBytes m.mode m.wcode (m.kt * m.nt)) with | mk wb r1 =>
  obtain ⟨p1, s1⟩ := r1
  rw [hweights] at hbook
  have hstands : ¬ (m.wcode ≠ 0 ∧ (Tab.get [] (s.engine (s.physEngine (th / 16) m.engine)).codebooks m.slot ≠ mmBook m wb
      ∨ (s.engine (s.physEngine (th / 16) m.engine)).cbLoading.contains m.slot = true)) := by
    rcases hbook with huncoded | ⟨hidle, hholds⟩
    · exact fun h => h.1 huncoded
    · rw [hidle, hholds]
      simp
  dsimp only
  rw [if_neg hstands]
  cases hinputs : s1.fetch th { space := 1, engine := m.engine, offset := m.xaddr } (xBytes m.mode (m.b * m.kt * 16)) with | mk xb r2 =>
  obtain ⟨p2, s2⟩ := r2
  dsimp only
  cases hsums : (if m.acc = true then s2.fetch th { space := 1, engine := m.engine, offset := m.oaddr } (4 * m.b * m.nt * 16)
    else ([], false, s2)) with | mk ob r3 =>
  obtain ⟨p3, s3⟩ := r3
  have hfetched := ((aside_of_fetch hweights).trans (aside_of_fetch hinputs)).trans (aside_of_ite (aside_fetch _ _ _ _) (aside_refl _) hsums)
  refine ⟨_, rfl, StepWithin.stepDone (StepWithin.andThen (StepWithin.andThen (StepWithin.andThen ?_ (stepOnly_countColumns _ _ _ _))
    (stepOnly_updEngine _ _ _ _)) (stepOnly_markPoison _ _ _))⟩
  refine hfetched.write (List.mem_singleton.mpr rfl) (le_of_eq ?_) _
  rw [flatMap_length_const _ (fun _ => be_length _ _), List.length_flatMap]
  simp only [List.length_map, List.length_range, List.map_const', List.sum_replicate, smul_eq_mul]
  ring

end Sys2Proof.Machine
end

section
/-! VECTOR_OP runs: how many bytes each operation writes at its destination, and at C where it keeps a state (R147, R152 to R157,
Table 7.9). -/

namespace Sys2Proof.Machine

open Sys2Proof

variable {s : State} {th op c es la lb lc ld : Nat} {k : LayerConst} {a b d : List F32} {mult : List F32} {xs : List Int}

/-! ## The lengths that Table 7.9 gives -/

/-- A destination holds one element of every channel, and the pairs of a scan of every channel (0x2C). -/
theorem vLens_dst (hes : es ≤ 4) {size : LayerSize} (h : vLens op c es size = some (la, lb, lc, ld)) :
    es * c ≤ ld ∧ (op = 0x2C → 8 * c ≤ ld) := by
  have hmul : es * c ≤ 4 * c := Nat.mul_le_mul_right c hes
  have hcomm : c * es = es * c := Nat.mul_comm c es
  unfold vLens at h
  split at h <;> grind

/-- RMS normalisation and softmax read one element of every channel at A. -/
theorem vLens_whole {size : LayerSize} (hop : op = 0x29 ∨ op = 0x2A) (h : vLens op c 4 size = some (la, lb, lc, ld)) : la = 4 * c := by
  rcases hop with rfl | rfl <;> cases h
  · rfl
  · exact Nat.mul_comm c 4

theorem vLens_tail (h : vLens 0x28 c es k.size = some (la, lb, lc, ld)) : lc = k.tail.tailBytes * c * (k.width - 1) := by
  cases h
  rfl

theorem size_n_of_ne_zero (h : k.size.n ≠ 0) : k.size.n = k.n := by
  have hsize : k.size.n = if k.a.isEmpty = true then 0 else k.n := rfl
  rw [hsize] at h ⊢
  split at h
  · exact absurd rfl h
  · rw [if_neg (by assumption)]

theorem vLens_recurrence (h : vLens 0x2B c es k.size = some (la, lb, lc, ld)) : lc = 4 * c * k.n := by
  have hlens : (if k.size.n = 0 ∨ k.size.chans < c then none else some (8 * c, 8 * k.size.n, 4 * c * k.size.n, 4 * c)) = some (la, lb, lc, ld) := h
  split at hlens
  · cases hlens
  · next hsize =>
    cases hlens
    rw [size_n_of_ne_zero fun hn => hsize (.inl hn)]

/-! ## What the vector unit computes -/

theorem rmsNorm_length_le (x g : List F32) (eps : F32) : (rmsNorm x g eps).dst.length ≤ x.length := by
  simp [rmsNorm]

theorem softmax_length (l : List F32) : (softmax l).dst.length = l.length := by simp [softmax]

theorem vectorOp_dst_length_le (ha : op = 0x29 ∨ op = 0x2A → a.length ≤ c) :
    (vectorOp op c a b d k mult xs).dst.length ≤ if op = 0x2C then 2 * c else c := by
  unfold vectorOp
  split
  · simp
  · simp
  · exact (rmsNorm_length_le _ _ _).trans (ha (.inl rfl))
  · exact (softmax_length a).le.trans (ha (.inr rfl))
  · simp
  · rw [if_pos rfl, List.length_flatMap]
    simp [Nat.mul_comm]
  · simp
  · next hscan _ =>
    rw [if_neg hscan]
    simp

theorem recurLane_state_length (delta x e : F32) (l m n h : List F32) : (recurLane delta x e l m n h).1.length = h.length := by
  unfold recurLane
  dsimp only
  rw [List.length_map, List.length_map, List.length_range]

/-- Of the operations on lists the recurrence alone leaves a state: at most N values of every channel. -/
theorem vectorOp_state {l : List F32} (h : (vectorOp op c a b d k mult xs).state = some l) : op = 0x2B ∧ l.length ≤ c * k.n := by
  unfold vectorOp at h
  split at h
  case h_5 =>
    cases h
    refine ⟨rfl, ?_⟩
    rw [List.flatMap_map]
    refine (length_flatMap_le _ (n := k.n) (fun i => ?_) _).trans_eq (by rw [List.length_range])
    rw [recurLane_state_length]
    exact List.length_take_le _ _
  all_goals cases h

/-- A tail keeps its length: its oldest token leaves as the present one enters. -/
theorem nextTail_length_le (z : Int) (bs : List Byte) (hbs : bs.length = k.tail.tailBytes * c * (k.width - 1)) :
    (k.nextTail z c bs a).1.length ≤ bs.length := by
  unfold LayerConst.nextTail
  dsimp only
  split
  · exact Nat.zero_le _
  · next hwidth =>
    have htoken : k.tail.tailBytes * c ≤ bs.length := hbs ▸ Nat.le_mul_of_pos_right _ (by omega)
    split
    · next htail =>
      rw [htail] at htoken
      rw [List.length_append, floatBytes_length, List.length_map, List.length_range, List.length_drop]
      exact (Nat.sub_add_cancel htoken).le
    · rw [List.length_append, flatMap_length_const _ (fun _ => be_length _ _), List.length_map, List.length_range, List.length_drop]
      exact (Nat.sub_add_cancel htoken).le

/-! ## The step -/

theorem floats_length (bs : List Byte) (n : Nat) : (floats bs n).length = n := by simp [floats, fieldsAt]

/-- The bytes at the destination: of BF16 lanes two to a channel, else four to every value of the operation. -/
theorem dstBytes_length_le {dt : Nat} {size : LayerSize} (hlens : vLens op c (vSize dt) size = some (la, lb, lc, ld)) {lanes : Nat → FpR} {o : VOut}
    (ho : dt ≠ 1 → o.dst.length ≤ if op = 0x2C then 2 * c else c) :
    (if dt = 1 then bfBytes ((if dt = 1 then ({ dst := (List.range c).map lanes } : VOut) else o).dst.map (·.v))
      else floatBytes ((if dt = 1 then ({ dst := (List.range c).map lanes } : VOut) else o).dst.map (·.v))).length ≤ ld := by
  by_cases hdt : dt = 1
  · rw [if_pos hdt, if_pos hdt, bfBytes_length, List.length_map, List.length_map, List.length_range]
    rw [vSize, if_pos hdt] at hlens
    exact (vLens_dst (by decide) hlens).1
  · have hle := ho hdt
    rw [vSize, if_neg hdt] at hlens
    obtain ⟨hdst, hscan⟩ := vLens_dst le_rfl hlens
    rw [if_neg hdt, if_neg hdt, floatBytes_length, List.length_map]
    split at hle
    · next hop =>
      have hpairs := hscan hop
      omega
    · omega

/-- The second write of a step: a recurrence's state or a convolution's tail, where the operation has one. -/
theorem StepWithin.writeState {t : State} {outs : List (Ref × Nat)} {o : VOut} {tail : List Byte} {x : Ref} {n : Nat}
    (h : StepWithin s t th outs) (hcores : t.cores = s.cores) (hstate : ∀ l, o.state = some l → (x, n) ∈ outs ∧ 4 * l.length ≤ n)
    (htail : tail ≠ [] → (x, n) ∈ outs ∧ tail.length ≤ n) (p : Bool) :
    StepWithin s (match o.state with
      | some l => t.writeRef th x (floatBytes l) p
      | none => if tail.isEmpty then t else t.writeRef th x tail p) th outs := by
  split
  · next l hl =>
    obtain ⟨hout, hlen⟩ := hstate l hl
    exact h.write hcores hout (by rwa [floatBytes_length]) p
  · split
    · exact h
    · next hsome =>
      obtain ⟨hout, hlen⟩ := htail (by simpa using hsome)
      exact h.write hcores hout hlen p

theorem execVectorOp_runs (gap : Bool) (hissue : s.issues th 2 = true)
    (hlens : vLens (rf (s.recordOf th) 247 240) (vCount (s.recordOf th)) (vSize (rf (s.recordOf th) 223 222)) (s.layerOf th (rf (s.recordOf th) 125 110)).size
      = some (la, lb, lc, ld))
    (hok : s.badRef th [(rRef (s.recordOf th) 198, la), (rRef (s.recordOf th) 174, lb), (rRef (s.recordOf th) 150, lc), (rRef (s.recordOf th) 126, ld)] = none) :
    ∃ t, execVectorOp { thread := th, gap := gap } s = .next t ∧ StepRan s t th ((rRef (s.recordOf th) 126, ld) ::
      (if rf (s.recordOf th) 247 240 = 0x28 ∨ rf (s.recordOf th) 247 240 = 0x2B then [(rRef (s.recordOf th) 150, lc)] else [])) := by
  unfold execVectorOp
  dsimp only
  rw [if_neg (issues_ne_false hissue), hlens]
  dsimp only
  rw [hok]
  dsimp only
  cases ha : s.fetch th (rRef (s.recordOf th) 198) la with | mk ba r1 =>
  obtain ⟨p1, s1⟩ := r1
  dsimp only
  cases hb : s1.fetch th (rRef (s.recordOf th) 174) lb with | mk bb r2 =>
  obtain ⟨p2, s2⟩ := r2
  dsimp only
  cases hc : s2.fetch th (rRef (s.recordOf th) 150) lc with | mk bc r3 =>
  obtain ⟨p3, s3⟩ := r3
  have hfetched := ((aside_of_fetch ha).trans (aside_of_fetch hb)).trans (aside_of_fetch hc)
  have hbc : bc.length = lc := by
    have hlength := fetch_length s2 th (rRef (s.recordOf th) 150) lc
    rwa [hc] at hlength
  refine ⟨_, rfl, StepWithin.stepDone (StepWithin.andThen ?_ (stepOnly_markAdapted _ _ _))⟩
  refine StepWithin.andThen (StepWithin.andThen (StepWithin.andThen ?_ (stepOnly_countConvs _ _ _ _ _ _ _)) (stepOnly_countFp _ _ _ _)) (stepOnly_markPoison _ _ _)
  generalize rf (s.recordOf th) 247 240 = op at hlens ⊢
  generalize vCount (s.recordOf th) = c at hlens ⊢
  generalize s.layerOf th (rf (s.recordOf th) 125 110) = k at hlens ⊢
  generalize rf (s.recordOf th) 223 222 = dt at hlens ⊢
  refine StepWithin.writeState (hfetched.write List.mem_cons_self (dstBytes_length_le hlens fun hdt => vectorOp_dst_length_le fun hwhole => ?_) _)
    ((writeRef_cores _ _ _ _ _).trans hfetched.cores) (n := lc) (fun l hl => ?_) (fun htail => ?_) _
  · rw [vSize, if_neg hdt] at hlens
    have hla := vLens_whole hwhole hlens
    rw [if_neg hdt]
    split
    · exact Nat.zero_le c
    · rw [floats_length]
      omega
  · split at hl
    · cases hl
    · obtain ⟨rfl, hlen⟩ := vectorOp_state hl
      have hlc := vLens_recurrence hlens
      exact ⟨by simp, by rw [hlc, Nat.mul_assoc]; omega⟩
  · split at htail
    · next hop =>
      subst hop
      have hlc := hbc.trans (vLens_tail hlens)
      rw [if_pos rfl]
      exact ⟨by simp, (nextTail_length_le _ _ hlc).trans hbc.le⟩
    · exact absurd rfl htail

end Sys2Proof.Machine
end

section
/-! PANEL_MATVEC runs on the array: it writes no memory and keeps the accumulators in the INT32 range (R83, R92 to R98, R124). -/

namespace Sys2Proof.Machine

open Sys2Proof

variable {s t : State} {th : Nat}

/-! ## Sums that saturate, R96 -/

/-- A number that an INT32 accumulator can hold. -/
def InInt32 (v : Int) : Prop := -(2 ^ 31) ≤ v ∧ v ≤ 2 ^ 31 - 1

theorem inInt32_zero : InInt32 0 := ⟨by decide, by decide⟩

theorem inInt32_sat32 (v : Int) : InInt32 (sat32 v).1 := by
  unfold sat32 InInt32
  grind

/-- An accumulator that is in range stays there whatever is added. -/
theorem inInt32_addTerms {a : Int} (ha : InInt32 a) (l : List Int) : InInt32 (addTerms a l).1 := by
  have hfold (l : List Int) (p : Int × Nat) (hp : InInt32 p.1) :
      InInt32 (l.foldl (fun x v => let (y, c) := sat32 (x.1 + v); (y, x.2 + flag c)) p).1 := by
    induction l generalizing p with
    | nil => exact hp
    | cons v l ih => exact ih _ (inInt32_sat32 _)
  exact hfold l (a, 0) ha

/-! ## Tables made of a list -/

theorem get_eq_or_mem {α : Type} (d : α) (t : Tab α) (k : Nat) : Tab.get d t k = d ∨ ∃ e, e ∈ t ∧ Tab.get d t k = e.2 := by
  induction t with
  | nil => exact .inl rfl
  | cons e t ih =>
    obtain ⟨a, v⟩ := e
    unfold Tab.get
    split
    · exact .inr ⟨(a, v), List.mem_cons_self, rfl⟩
    · exact ih.imp id fun ⟨e, he, h⟩ => ⟨e, List.mem_cons_of_mem _ he, h⟩

/-- What the listed values and the unlisted one have in common, every read gives. -/
theorem get_tabOf {α : Type} [DecidableEq α] {d : α} {l : List α} {P : α → Prop} (hd : P d) (hl : ∀ v, v ∈ l → P v) (k : Nat) : P (Tab.get d (tabOf d l) k) := by
  obtain h | ⟨⟨n, v⟩, hmem, h⟩ := get_eq_or_mem d (tabOf d l) k <;> rw [h]
  · exact hd
  · exact hl v (List.of_mem_zip (List.mem_of_mem_filter hmem)).2

/-! ## What a panel step leaves -/

theorem engine_of_engines (h : t.engines = s.engines) (e : Nat) : t.engine e = s.engine e := by rw [State.engine, h, State.engine]

/-- A change of an engine that leaves its accumulators leaves those of every engine. -/
theorem updEngine_accs (s : State) (e b : Nat) {f : Engine → Engine} (hf : ∀ x, (f x).accs = x.accs) :
    ((s.updEngine e f).engine b).accs = (s.engine b).accs := by
  by_cases h : e = b
  · subst h
    rw [State.updEngine_engine_same, hf]
  · rw [State.updEngine_engine_ne _ _ _ _ h]

theorem countColumns_accs (s : State) (e : Nat) (l : List (Nat × Nat × Nat)) (b : Nat) : ((s.countColumns e l).engine b).accs = (s.engine b).accs := by
  rw [State.countColumns, updEngine_accs]
  exact fun _ => rfl

theorem markPoison_engines (s : State) (th : Nat) (p : Bool) : (s.markPoison th p).engines = s.engines := by
  unfold State.markPoison
  split <;> rfl

theorem markAdapted_engines (s : State) (th : Nat) (p : Bool) : (s.markAdapted th p).engines = s.engines := by
  unfold State.markAdapted
  split <;> rfl

/-- A state as a panel step leaves it: the columns' sums in the bank, the factors and readings of the engine, the counts and marks. -/
def State.panelLeft (s : State) (th e bank : Nat) (cols : List (Nat × Int × Nat)) (evals cls : Nat) (poison adapted : Bool)
    (factors : Engine → Tab F32) (readings : Engine → Tab Reading) : State :=
  let s2 := s.updEngine bank (fun x => { x with accs := tabOf 0 (cols.map (fun c => c.2.1)), accPoison := poison, clockOn := true })
  let s3 := s2.updEngine e (fun x => { x with clockOn := true, factors := factors x, readings := readings x })
  let s4 := s3.countColumns e (cols.map (fun c => (c.1, c.2.2, evals)))
  ((s4.updThread th (fun x => { x with cls := max x.cls cls })).markPoison th poison).markAdapted th adapted

/-- The accumulator of column `j` that a panel step adds to, or 0 where it begins a sum (R95, Table 7.5). -/
def State.accStart (s : State) (bank : Nat) (r : BitVec 256) (j : Nat) : Int := if rf r 218 218 = 1 then Tab.get 0 (s.engine bank).accs j else 0

/-- A panel step fetches its inputs, then adds the row groups' terms to each column with saturation (R95, R96). -/
theorem panelRun_eq (s : State) (th e lp bank : Nat) (r : BitVec 256) (dev : List (List Int)) :
    ∃ (s1 : State) (terms : Nat → List Int) (counts : Nat → Nat) (evals cls : Nat) (poison adapted : Bool) (factors : Engine → Tab F32)
      (readings : Engine → Tab Reading), Aside s s1 ∧ s.panelRun th e lp bank r dev
      = s1.panelLeft th e bank ((List.range 256).map fun j => (j, (addTerms (s1.accStart bank r j) (terms j)).1, counts j)) evals cls poison adapted
          factors readings := by
  unfold State.panelRun
  cases hinputs : s.fetch th { space := 1, engine := rf r 247 245, offset := rf r 217 202 }
    (panelIn (rf r 229 227) (rf r 235 230 * rowsOf (s.engine e).activeFile.gsize)) with | mk bs r1 =>
  obtain ⟨p1, s1⟩ := r1
  dsimp only
  rw [hinputs]
  exact ⟨s1, _, _, _, _, _, _, _, _, aside_of_fetch hinputs, rfl⟩

theorem stepOnly_panelLeft (s : State) (th e bank : Nat) (cols : List (Nat × Int × Nat)) (evals cls : Nat) (poison adapted : Bool)
    (factors : Engine → Tab F32) (readings : Engine → Tab Reading) :
    StepOnly th s (s.panelLeft th e bank cols evals cls poison adapted factors readings) :=
  ((((stepOnly_updEngine _ _ _ _).trans (stepOnly_updEngine _ _ _ _)).trans (stepOnly_countColumns _ _ _ _)).trans
    (stepOnly_updThread th _ (fun x => { x with cls := max x.cls cls }) fun _ => ⟨rfl, rfl, rfl⟩)).trans
      ((stepOnly_markPoison _ _ _).trans (stepOnly_markAdapted _ _ _))

theorem panelLeft_accs (s : State) (th e bank : Nat) (cols : List (Nat × Int × Nat)) (evals cls : Nat) (poison adapted : Bool)
    (factors : Engine → Tab F32) (readings : Engine → Tab Reading) :
    ((s.panelLeft th e bank cols evals cls poison adapted factors readings).engine bank).accs = tabOf 0 (cols.map (fun c => c.2.1)) := by
  unfold State.panelLeft
  dsimp only
  rw [engine_of_engines (markAdapted_engines _ _ _), engine_of_engines (markPoison_engines _ _ _), engine_of_engines (State.updThread_engines _ _ _),
    countColumns_accs, updEngine_accs, State.updEngine_engine_same]
  exact fun _ => rfl

theorem panelRun_accs_inInt32 {bank : Nat} (h : ∀ j, InInt32 (Tab.get 0 (s.engine bank).accs j)) (th e lp : Nat) (r : BitVec 256) (dev : List (List Int))
    (j : Nat) : InInt32 (Tab.get 0 ((s.panelRun th e lp bank r dev).engine bank).accs j) := by
  obtain ⟨s1, terms, counts, evals, cls, poison, adapted, factors, readings, hfetched, hrun⟩ := panelRun_eq s th e lp bank r dev
  rw [hrun, panelLeft_accs]
  refine get_tabOf inInt32_zero (fun v hv => ?_) j
  rw [List.map_map] at hv
  obtain ⟨k, -, rfl⟩ := List.mem_map.mp hv
  refine inInt32_addTerms ?_ _
  unfold State.accStart
  split
  · rw [engine_of_engines hfetched.engines]
    exact h k
  · exact inInt32_zero

theorem stepOnly_panelRun (s : State) (th e lp bank : Nat) (r : BitVec 256) (dev : List (List Int)) : StepOnly th s (s.panelRun th e lp bank r dev) := by
  obtain ⟨s1, terms, counts, evals, cls, poison, adapted, factors, readings, hfetched, hrun⟩ := panelRun_eq s th e lp bank r dev
  rw [hrun]
  exact (hfetched.stepOnly th).trans (stepOnly_panelLeft _ _ _ _ _ _ _ _ _ _ _)

/-- The prefetch at a panel step's issue starts a load of a plane file, or nothing (R83). -/
theorem prefetch_cases (s : State) (e : Nat) : s.prefetch e = s ∨ ∃ lp r, s.prefetch e = s.startLoad e lp r := by
  unfold State.prefetch
  dsimp only
  cases (s.engine e).shadow
  all_goals
    dsimp only
    split
    · exact .inl rfl
    · split
      · exact .inl rfl
      · split
        · exact .inr ⟨_, _, rfl⟩
        · exact .inl rfl

theorem prefetch_leaves (s : State) (th e : Nat) : StepOnly th s (s.prefetch e) ∧ (s.prefetch e).threads = s.threads
    ∧ ∀ b, ((s.prefetch e).engine b).accs = (s.engine b).accs := by
  obtain h | ⟨lp, r, h⟩ := prefetch_cases s e <;> rw [h]
  · exact ⟨stepOnly_refl th s, rfl, fun _ => rfl⟩
  · refine ⟨stepOnly_updEngine _ _ _ _, rfl, fun b => ?_⟩
    rw [State.startLoad, updEngine_accs]
    exact fun _ => rfl

theorem execPanelMatvec_runs (dev : List (List Int)) {e lp bank : Nat} (hat : s.panelAt th (s.recordOf th) = (e, lp))
    (hbank : s.physEngine (th / 16) (rf (s.recordOf th) 247 245) = bank) (hissue : s.issues th 0 = true)
    (hok : s.badRef th [({ space := 1, engine := rf (s.recordOf th) 247 245, offset := rf (s.recordOf th) 217 202 },
      panelIn (rf (s.recordOf th) 229 227) (rf (s.recordOf th) 235 230 * rowsOf (s.blockAt e lp).file.gsize))] = none)
    (hserves : s.planeAway e lp = false) (hpump : s.domOn (.chargePump (e / 576)) = true) (hactive : (s.engine e).active = some lp) :
    ∃ t, execPanelMatvec th dev s = .next t ∧ StepRan s t th []
      ∧ ((∀ j, InInt32 (Tab.get 0 (s.engine bank).accs j)) → ∀ j, InInt32 (Tab.get 0 (t.engine bank).accs j)) := by
  have hexec : execPanelMatvec th dev s = .next (((s.panelRun th e lp bank (s.recordOf th) dev).stepDone th).prefetch e) := by
    unfold execPanelMatvec
    rw [if_neg (issues_ne_false hissue)]
    simp only [hat, hok, hbank, hserves, hpump, hactive, Bool.false_eq_true, Bool.true_eq_false, if_false, if_true]
  obtain ⟨hload, hthreads, haccs⟩ := prefetch_leaves ((s.panelRun th e lp bank (s.recordOf th) dev).stepDone th) th e
  have hrun : StepOnly th s (s.panelRun th e lp bank (s.recordOf th) dev) := stepOnly_panelRun _ _ _ _ _ _ _
  have hthread : ((((s.panelRun th e lp bank (s.recordOf th) dev).stepDone th).prefetch e).thread th).state = .running
      ∧ ((((s.panelRun th e lp bank (s.recordOf th) dev).stepDone th).prefetch e).thread th).done = true := by
    rw [State.thread, hthreads]
    simp [State.stepDone, State.updThread]
  refine ⟨_, hexec, ((hrun.trans (stepOnly_stepDone _ _)).trans hload).within.ran hthread.1 hthread.2, fun h j => ?_⟩
  rw [haccs]
  exact panelRun_accs_inInt32 h th e lp (s.recordOf th) dev j

end Sys2Proof.Machine
end

section
/-! The five kinds of compute steps (R96, R125, R147, R150, R152, R153, R246, R248, R252). -/

namespace Sys2Proof.Machine

open Sys2Proof

/-- Settles O12: each kind of step by what it fetches, how many bytes it writes, and what it counts; the panel's sums by
`inInt32_addTerms`. -/
theorem computeStepsRun : Obligations.ComputeStepsRun :=
  ⟨fun _ dev _ hissue hok hserves hpump hactive => execPanelMatvec_runs dev rfl rfl hissue hok hserves hpump hactive,
    fun _ _ hissue hok hbook => execDigitalMatmul_runs hissue rfl hok hbook,
    fun _ _ _ _ _ gap _ hissue hlens hok => execVectorOp_runs gap hissue hlens hok,
    fun _ _ hissue hok => execRotate_runs hissue hok,
    fun _ gap _ hissue hok => execRequant_runs gap hissue hok⟩

end Sys2Proof.Machine
end

section
/-! PLANE_FILE_LOAD_DONE asks for a refetch of every word of the file that delivers poison (R218, R445), also where no word is
poisoned and a line is vacant. -/

namespace Sys2Proof.Machine

open Sys2Proof

variable {s : State}

theorem weightUe_refetch (s : State) (sp : Space) (a : Nat) (ctx : Option Nat) : (s.weightUe sp a ctx).mem.refetch ≠ [] := by
  unfold State.weightUe
  extract_lets s1 s2 w
  split
  · next hlisted =>
    intro hnil
    rw [hnil] at hlisted
    cases hlisted
  · exact List.append_ne_nil_of_right_ne_nil _ (List.cons_ne_nil _ _)

theorem badFile_refetch {bad : List Nat} (hbad : bad ≠ []) (s : State) (e lp : Nat) (sp : Space) (a : Nat) :
    (s.badFile e lp bad sp a).mem.refetch ≠ [] := by
  obtain ⟨init, i, rfl⟩ := (List.eq_nil_or_concat' bad).resolve_left hbad
  unfold State.badFile
  rw [List.foldl_append]
  exact weightUe_refetch _ _ _ _

theorem fileBytes_pos (gsize : Nat) (symonly : Bool) : 0 < fileBytes gsize symonly := by
  unfold fileBytes
  dsimp only
  omega

/-- A load from the engine's SRAM whose first word delivers poison leaves a refetch to be made. -/
theorem execPlaneFileLoadDone_refetch {e : Nat} {l : PlaneLoad} (hload : (s.engine e).load = some l) (hsram : l.fromCore = false)
    (hbad : s.mem.poisonAt .engine (65536 * e + l.addr) = true) : ∃ t, execPlaneFileLoadDone e s = .next t ∧ t.mem.refetch ≠ [] := by
  unfold execPlaneFileLoadDone
  simp only [hload, hsram, Bool.false_eq_true, if_false]
  refine ⟨_, rfl, badFile_refetch (List.ne_nil_of_mem (List.mem_filter.mpr ⟨List.mem_range.mpr (fileBytes_pos _ _), ?_⟩)) _ _ _ _ _⟩
  simp [hbad]

/-- Engine 0 loads a file of plane 0 from its SRAM, of which the first line is vacant; no word of any memory is poisoned. -/
def vacantFile : State :=
  { engines := [(0, { load := some { plane := 0, fromCore := false, addr := 0 } })], mem := { vacant := [(lineKey .engine 0, true)] } }

theorem vacantFile_load : (vacantFile.engine 0).load = some { plane := 0, fromCore := false, addr := 0 } := rfl

theorem vacantFile_poisonAt : vacantFile.mem.poisonAt .engine 0 = true := by decide

/-- Refutes O14: the statement lets a load ask for records and refetches only where a word is poisoned, and a vacant line of the
file delivers poison too (R218), so that a refetch is due although no word is poisoned. -/
theorem not_loadsAndReadingsEnd : ¬ Obligations.LoadsAndReadingsEnd := by
  rintro ⟨hloads, -⟩
  obtain ⟨t, hexec, -, -, -, -, -, hclean, -⟩ := hloads 0 vacantFile _ vacantFile_load
  obtain ⟨u, hexec', hrefetch⟩ := execPlaneFileLoadDone_refetch vacantFile_load rfl vacantFile_poisonAt
  have htu : t = u := Host.Outcome.next.inj (hexec.symm.trans hexec')
  have hmem : t.mem = vacantFile.mem := by
    have h := congrArg State.mem (hclean rfl)
    exact h
  refine hrefetch ?_
  rw [← htu, hmem]
  rfl

end Sys2Proof.Machine
end

section
/-! The module as shipped (R75, R249, R256, R293, R453, R465, R483, R485, R502, R557). -/

namespace Sys2Proof.Machine

open Sys2Proof

/-- Every byte of a memory in which none is listed reads 0. -/
theorem read_shipped (sp : Space) (x : Nat) : State.reset.mem.read sp x = 0 := by
  unfold Memory.read
  split
  · rfl
  · cases sp <;> rfl

theorem word_shipped (v : Nat) : State.reset.logs.word v = 0 := by
  unfold Logs.word
  split
  · rfl
  · split <;> rfl

/-- Settles O1: an unlisted number of a table stands for the value as shipped. -/
theorem shippedModuleHoldsItsValues : Obligations.ShippedModuleHoldsItsValues :=
  ⟨⟨fun _ _ _ => rfl, rfl, rfl, rfl, rfl, rfl, rfl, rfl⟩, ⟨rfl, rfl⟩, ⟨rfl, rfl, rfl⟩, fun _ => rfl, fun _ => rfl, fun _ => ⟨rfl, rfl⟩, fun _ => rfl,
    fun _ => rfl, ⟨rfl, rfl, rfl⟩, fun v _ => word_shipped v, read_shipped, rfl, rfl⟩

end Sys2Proof.Machine
end

section
/-! Core requantisation of values that are no numbers (R130). -/

namespace Sys2Proof.Machine

open Sys2Proof

theorem val32_nan32 (neg : Bool) : (val32 (nan32 neg)).isNan = true := by
  cases neg <;> decide

theorem val32_inf32 (neg : Bool) : val32 (inf32 neg) = .inf neg := by
  cases neg <;> decide

/-- A product whose first factor is a NaN is a NaN. -/
theorem fmul_nan (a m : F32) (ha : (val32 a).isNan = true) : (val32 (fmul a m).v).isNan = true := by
  unfold fmul
  cases hv : val32 a with
  | nan neg q => cases val32 m <;> exact val32_nan32 neg
  | fin neg n d => simp [hv, Fv.isNan] at ha
  | inf neg => simp [hv, Fv.isNan] at ha

/-- What lies above 0 and is no infinity is a positive number. -/
theorem fin_of_flt_zero (m : F32) (hpos : flt 0 m = true) (hfin : ∀ n, val32 m ≠ .inf n) :
    ∃ n d, val32 m = .fin false n d ∧ n ≠ 0 := by
  have hzero : val32 0#32 = .fin false 0 (2 ^ 149) := by decide
  cases hv : val32 m with
  | inf neg => exact absurd hv (hfin neg)
  | nan neg q => simp [flt, hv, Fv.isNan] at hpos
  | fin neg n d =>
    have hlt : ltV (.fin false 0 (2 ^ 149)) (.fin neg n d) = true := by
      rw [← hzero, ← hv]
      exact (Bool.and_eq_true _ _ ▸ hpos).2
    cases neg <;> simp [ltV, qLt, Fv.q] at hlt
    · exact ⟨n, d, rfl, by omega⟩
    · omega

/-- An infinity times a positive number is the infinity of its sign. -/
theorem fmul_inf (a m : F32) (neg : Bool) (ha : val32 a = .inf neg) (hpos : flt 0 m = true) (hfin : ∀ n, val32 m ≠ .inf n) :
    (fmul a m).v = inf32 neg := by
  obtain ⟨n, d, hm, hn⟩ := fin_of_flt_zero m hpos hfin
  simp [fmul, ha, hm, mulV, hn, ofV]

theorem coreConv_nan (lo hi z : Int) (x : F32) (hx : (val32 x).isNan = true) :
    (coreConv lo hi z x).y = z ∧ (coreConv lo hi z x).clip = true := by
  unfold coreConv
  cases hv : val32 x with
  | nan neg q => exact ⟨rfl, rfl⟩
  | fin neg n d => simp [hv, Fv.isNan] at hx
  | inf neg => simp [hv, Fv.isNan] at hx

theorem coreConv_inf (lo hi z : Int) (neg : Bool) :
    (coreConv lo hi z (inf32 neg)).y = (if neg then lo else hi) ∧ (coreConv lo hi z (inf32 neg)).clip = true := by
  simp [coreConv, val32_inf32]

/-- Settles O41: a NaN stays a NaN under any multiplier, an infinity keeps its sign under a positive one. -/
theorem coreRequantisationOfNanAndInfinity : Obligations.CoreRequantisationOfNanAndInfinity := by
  intro lo hi z m a
  refine ⟨fun ha => coreConv_nan lo hi z _ (fmul_nan a m ha), fun neg ha hpos hfin => ?_⟩
  rw [fmul_inf a m neg ha hpos hfin]
  exact coreConv_inf lo hi z neg

end Sys2Proof.Machine
end

section
/-! Adaptation at the close of an interval (R138, R139, R140, R143) and the events of an update. -/

namespace Sys2Proof.Machine

open Sys2Proof

section

variable (p : ReqPoint) (u : UnitStat) (x : UnitScale)

/-! ## One update, a case at a time -/

theorem adapted_idle (large : Bool) (h : u.total = 0) : adapted p large u x = x := by
  simp [adapted, h]

theorem adapted_large_exp (h : u.total ≠ 0) : (adapted p true u x).exp = 0 := by
  simp [adapted, h]

theorem adapted_excess (h : u.total ≠ 0) (he : u.excess = true) :
    adapted p false u x = { x with exp := expBound (x.exp + 1), downrun := 0 } := by
  simp [adapted, h, he]

theorem adapted_quiet (h : u.total ≠ 0) (he : u.excess = false) (hq : u.quiet p = true) :
    adapted p false u x = if 16 ≤ x.downrun + 1 then { x with exp := expBound (x.exp - 1), downrun := 0 } else { x with downrun := x.downrun + 1 } := by
  simp [adapted, h, he, hq]

theorem adapted_other (h : u.total ≠ 0) (he : u.excess = false) (hq : u.quiet p = false) :
    adapted p false u x = { x with downrun := 0 } := by
  simp [adapted, h, he, hq]

/-- An update leaves the exponent, sets it to 0 in a large pack, or moves it by one within the bounds. -/
theorem adapted_exp_cases (large : Bool) :
    (adapted p large u x).exp = x.exp ∨ (large = true ∧ (adapted p large u x).exp = 0)
      ∨ (adapted p large u x).exp = expBound (x.exp + 1) ∨ (adapted p large u x).exp = expBound (x.exp - 1) := by
  by_cases htotal : u.total = 0
  · exact .inl (by rw [adapted_idle p u x large htotal])
  cases large with
  | true => exact .inr (.inl ⟨rfl, adapted_large_exp p u x htotal⟩)
  | false =>
    by_cases he : u.excess = true
    · exact .inr (.inr (.inl (by rw [adapted_excess p u x htotal he])))
    replace he := Bool.eq_false_iff.mpr he
    by_cases hq : u.quiet p = true
    · rw [adapted_quiet p u x htotal he hq]
      split
      · exact .inr (.inr (.inr rfl))
      · exact .inl rfl
    · exact .inl (by rw [adapted_other p u x htotal he (Bool.eq_false_iff.mpr hq)])

/-- R140: an exponent within the bounds stays within them, and but for a large pack it moves by at most one. -/
theorem adapted_exp_bounds (large : Bool) (hlo : -16 ≤ x.exp) (hhi : x.exp ≤ 16) :
    -16 ≤ (adapted p large u x).exp ∧ (adapted p large u x).exp ≤ 16
      ∧ (large = false → (adapted p large u x).exp - x.exp ≤ 1 ∧ x.exp - (adapted p large u x).exp ≤ 1) := by
  rcases adapted_exp_cases p u x large with h | ⟨hl, h⟩ | h | h
  · rw [h]
    omega
  · rw [h]
    exact ⟨by omega, by omega, fun hs => absurd (hl.symm.trans hs) (by decide)⟩
  · rw [h]
    unfold expBound
    omega
  · rw [h]
    unfold expBound
    omega

/-- R139: an interval without a clip whose peak stays below half the range is quiet, and its clip share exceeds nothing. -/
theorem quiet_interval (hclips : u.clips = 0)
    (hpeak : (2 * u.peak : Int) < max ((p.zout : Int) - (outRange p.fmt).1) ((outRange p.fmt).2 - p.zout)) :
    u.excess = false ∧ u.quiet p = true := by
  refine ⟨by simp [UnitStat.excess, hclips], ?_⟩
  unfold UnitStat.quiet
  simp only [hclips, beq_self_eq_true, Bool.true_and, decide_eq_true_eq]
  exact hpeak

/-! ## Events of an update -/

/-- An exponent that reaches a bound sets SCALE_BOUND's bit, whatever becomes of SATRUN. -/
theorem scaleEvents_bound (s : State) (c : Nat) (y : UnitScale) (hne : x.exp ≠ y.exp) (hy : y.exp = 16 ∨ y.exp = -16) :
    ((s.scaleEvents p c x y).logs.word 2).getLsbD 5 = true := by
  unfold State.scaleEvents
  dsimp only
  rw [if_pos (c := (y.exp = 16 ∨ y.exp = -16) ∧ x.exp ≠ y.exp) ⟨hy, hne⟩]
  split <;> simp only [State.trouble_word, Nat.reduceLT, decide_true, and_self, Bool.or_true, Bool.true_or]

/-- An update that moves neither the exponent nor SATRUN raises nothing. -/
theorem scaleEvents_still (s : State) (c : Nat) (y : UnitScale) (hexp : x.exp = y.exp) (hsat : x.satrun = y.satrun) :
    s.scaleEvents p c x y = s := by
  simp [State.scaleEvents, hexp, hsat]

end

/-- Settles O42: each clause is a case of the update, or of its events. -/
theorem scalesAdaptAtTheCloseOfAnInterval : Obligations.ScalesAdaptAtTheCloseOfAnInterval := by
  refine ⟨fun p large u x => ⟨adapted_idle p u x large, adapted_exp_bounds p u x large, ?_, ?_, ?_⟩,
    fun s p c x y => ⟨fun hne hy => scaleEvents_bound p x s c y hne hy, fun hexp hsat => scaleEvents_still p x s c y hexp hsat⟩⟩
  · rintro htotal rfl hclips
    rw [adapted_excess p u x htotal (decide_eq_true hclips)]
    exact ⟨rfl, rfl⟩
  · rintro htotal rfl hclips hpeak hrun
    obtain ⟨he, hq⟩ := quiet_interval p u hclips hpeak
    rw [adapted_quiet p u x htotal he hq, if_pos (by omega)]
    exact ⟨rfl, rfl⟩
  · rintro htotal rfl hclips hpeak hrun
    obtain ⟨he, hq⟩ := quiet_interval p u hclips hpeak
    rw [adapted_quiet p u x htotal he hq, if_neg (by omega)]
    exact ⟨rfl, rfl⟩

end Sys2Proof.Machine
end

section
/-! A message that a frame makes whole (R320, R322): what the module's own rules find of the state before it. -/

namespace Sys2Proof.Machine

open Sys2Proof

/-- `u` is `s` but for the pack ports, the frames held of messages not yet whole, and what has left the module. -/
def Received (s u : State) : Prop :=
  { u with pack := { u.pack with ports := s.pack.ports, parts := s.pack.parts }, out := s.out } = s

/-- A frame that joins others changes the frames held of messages and nothing else. -/
theorem gather_eq (s : State) (h : PackHdr) (b : PackBody) :
    ∃ parts, (s.gather h b).1 = { s with pack := { s.pack with parts := parts } } := by
  unfold State.gather
  dsimp only
  split
  · exact ⟨s.pack.parts, rfl⟩
  · split <;> split <;> exact ⟨_, rfl⟩

section

variable {s u : State} {port : Nat} {h : PackHdr} {b : PackBody}

theorem received_of_takes (hu : s.Takes port h b u) : Received s u := by
  obtain ⟨v, hrecv, hgather⟩ := hu
  obtain ⟨parts, hparts⟩ := gather_eq v h b
  have hv := (recv_take_onPorts hrecv).1
  rw [hgather] at hparts
  change u = _ at hparts
  subst hparts
  have hcopy := congrArg (fun x : State => ({ x with pack := { x.pack with parts := s.pack.parts } } : State)) hv
  exact hcopy

theorem onFrame_of_takes (hu : s.Takes port h b u) {f : State → State} {t : State} (ht : f u = t) : s.onFrame port h b f = .next t := by
  obtain ⟨v, hrecv, hgather⟩ := hu
  simp only [State.onFrame, hrecv, hgather, if_true, ht]

/-- What a part of the state says that looks at no port, at no frame held and at nothing that leaves. -/
theorem Received.part {α : Type} (hu : Received s u) (g : State → α)
    (hg : ∀ ports parts out, g { u with pack := { u.pack with ports := ports, parts := parts }, out := out } = g u) : g u = g s :=
  (hg _ _ _).symm.trans (congrArg g hu)

theorem Received.leads (hu : Received s u) : u.leads = s.leads := hu.part State.leads fun _ _ _ => rfl
theorem Received.isLead (hu : Received s u) : u.isLead = s.isLead := hu.part State.isLead fun _ _ _ => rfl
theorem Received.isLarge (hu : Received s u) : u.isLarge = s.isLarge := hu.part State.isLarge fun _ _ _ => rfl
theorem Received.livePos (hu : Received s u) : u.livePos = s.livePos := hu.part State.livePos fun _ _ _ => rfl
theorem Received.member (hu : Received s u) (c : Nat) : u.member c = s.member c := hu.part (·.member c) fun _ _ _ => rfl
theorem Received.packPass (hu : Received s u) (c : Nat) : u.packPass c = s.packPass c := hu.part (·.packPass c) fun _ _ _ => rfl
theorem Received.nextResno (hu : Received s u) (c : Nat) : u.nextResno c = s.nextResno c := hu.part (·.nextResno c) fun _ _ _ => rfl
theorem Received.epoch (hu : Received s u) : u.pack.epoch = s.pack.epoch := hu.part (·.pack.epoch) fun _ _ _ => rfl
theorem Received.rseen (hu : Received s u) : u.pack.rseen = s.pack.rseen := hu.part (·.pack.rseen) fun _ _ _ => rfl
theorem Received.kept (hu : Received s u) : u.pack.kept = s.pack.kept := hu.part (·.pack.kept) fun _ _ _ => rfl
theorem Received.sent (hu : Received s u) : u.pack.sent = s.pack.sent := hu.part (·.pack.sent) fun _ _ _ => rfl
theorem Received.snaps (hu : Received s u) : u.pack.snaps = s.pack.snaps := hu.part (·.pack.snaps) fun _ _ _ => rfl
theorem Received.scaleDue (hu : Received s u) : u.pack.scaleDue = s.pack.scaleDue := hu.part (·.pack.scaleDue) fun _ _ _ => rfl
theorem Received.results (hu : Received s u) : u.results = s.results := hu.part State.results fun _ _ _ => rfl
theorem Received.mem (hu : Received s u) : u.mem = s.mem := hu.part State.mem fun _ _ _ => rfl
theorem Received.hist (hu : Received s u) : u.hist = s.hist := hu.part State.hist fun _ _ _ => rfl
theorem Received.ctxs (hu : Received s u) : u.ctxs = s.ctxs := hu.part State.ctxs fun _ _ _ => rfl

end

end Sys2Proof.Machine
end

section
/-! A record that the lead issues (R414, R415): its number, its place in the pool, and what stands besides. -/

namespace Sys2Proof.Machine

open Sys2Proof

variable (s : State)

/-- Numbering a record changes the context's number, the pool, the sessions and what leaves the module. -/
theorem issueOne_eq (r : ResultRec) : ∃ co ou, s.issueOne r =
    { s.updCtx r.ctx (fun c => { c with resno := s.nextResno r.ctx }) with
      results := s.results ++ [{ r with resno := s.nextResno r.ctx }], comms := co, out := s.out ++ ou } := by
  obtain ⟨co, ou, heq⟩ := each_comms_eq
    (fun v sid => match v.sess sid with
      | some x => if x.results.contains r.ctx then v.resultNotify sid { r with resno := s.nextResno r.ctx } else v
      | none => v)
    (fun v sid => by
      split
      · split
        · exact notify_eq ..
        · exact ⟨v.comms, [], by simp⟩
      · exact ⟨v.comms, [], by simp⟩)
    s.sids { s.updCtx r.ctx (fun c => { c with resno := s.nextResno r.ctx }) with
      results := s.results ++ [{ r with resno := s.nextResno r.ctx }] }
  exact ⟨co, ou, heq⟩

/-- The troubles of issued records leave all but the pool, the log, the stamp, the sessions and what leaves the module. -/
theorem issueTroubles_frame (rs : List ResultRec) :
    { s.issueTroubles rs with life := s.life, logs := s.logs, comms := s.comms, out := s.out, results := s.results } = s := by
  have hstep : ∀ (v : State) (r : ResultRec), ({ (if r.qflags.getLsbD 2 then v.trouble 1 9 0 0 r.ctx [] else v) with
      life := s.life, logs := s.logs, comms := s.comms, out := s.out, results := s.results } : State)
      = { v with life := s.life, logs := s.logs, comms := s.comms, out := s.out, results := s.results } := fun v r => by
    split
    · obtain ⟨c, d, lo, co, ou, heq⟩ := trouble_parts v 1 9 0 0 r.ctx []
      rw [heq]
    · rfl
  unfold State.issueTroubles
  refine (foldl_part (fun v : State => { v with life := s.life, logs := s.logs, comms := s.comms, out := s.out, results := s.results }) hstep rs _).trans ?_
  split
  · exact congrArg (fun v : State => { v with results := s.results }) (State.raise_frame { s with results := _ } 2 16 1)
  · rfl

/-- Every record stays in the pool, or the trouble bit of dropped records is set. -/
theorem issueTroubles_pool (rs : List ResultRec) :
    (s.issueTroubles rs).results = s.results ∨ ((s.issueTroubles rs).logs.word 2).getLsbD 16 = true := by
  have hresults : ∀ (v : State) (r : ResultRec), (if r.qflags.getLsbD 2 then v.trouble 1 9 0 0 r.ctx [] else v).results = v.results := fun v r => by
    split
    · exact State.trouble_results ..
    · rfl
  have hbit : ∀ (v : State) (r : ResultRec), ((if r.qflags.getLsbD 2 then v.trouble 1 9 0 0 r.ctx [] else v).logs.word 2).getLsbD 16
      = (v.logs.word 2).getLsbD 16 := fun v r => by
    split
    · rw [State.trouble_word _ _ _ _ _ _ _ _ _ (by decide) (by decide) (by decide)]
      simp
    · rfl
  unfold State.issueTroubles
  dsimp only
  split
  · refine .inr ((foldl_part (fun v : State => (v.logs.word 2).getLsbD 16) hbit rs _).trans ?_)
    rw [State.raise_word _ _ _ _ _ _ (by decide) (by decide) (by decide)]
    simp
  · exact .inl (foldl_part State.results hresults rs s)

/-- A record that the lead issues takes the next number of its context, in the pool unless the pool has overflowed; nothing else
changes but the log, the stamp, the sessions and what leaves the module. -/
theorem issue_lead (r : ResultRec) (hlead : s.isLead = true) :
    { s.issue [r] with life := s.life, logs := s.logs, comms := s.comms, out := s.out, results := s.results, ctxs := s.ctxs } = s
      ∧ ((s.issue [r]).ctx r.ctx).resno = s.nextResno r.ctx
      ∧ ({ r with resno := s.nextResno r.ctx } ∈ (s.issue [r]).results ∨ ((s.issue [r]).logs.word 2).getLsbD 16 = true) := by
  have hissue : s.issue [r] = (s.commit.issueOne r).issueTroubles [r] := by simp [State.issue, hlead]
  obtain ⟨co, ou, hone⟩ := issueOne_eq s.commit r
  have hframe := issueTroubles_frame (s.commit.issueOne r) [r]
  have hctxs : (s.issue [r]).ctxs = (s.commit.issueOne r).ctxs := by
    rw [hissue]
    exact (congrArg State.ctxs hframe :)
  refine ⟨?_, ?_, ?_⟩
  · rw [hissue]
    refine (congrArg (fun v : State => ({ v with life := s.life, logs := s.logs, comms := s.comms, out := s.out, results := s.results, ctxs := s.ctxs } : State))
      hframe).trans ?_
    rw [hone]
    rfl
  · unfold State.ctx
    rw [hctxs, hone]
    exact congrArg Ctx.resno (Tab.get_upd_same s.ctxs r.ctx (fun c => { c with resno := s.nextResno r.ctx }))
  · rw [hissue]
    refine (issueTroubles_pool (s.commit.issueOne r) [r]).imp (fun hpool => ?_) id
    rw [hpool, hone]
    exact List.mem_append_right _ (List.mem_singleton_self _)

end Sys2Proof.Machine
end

section
/-! RESULT_MSG (R322, R323, R339, R415): what a record of a member does at the lead and elsewhere. -/

namespace Sys2Proof.Machine

open Sys2Proof

/-- The pass that a context has after a change that keeps the pass's context. -/
theorem packPass_updPass (s : State) (c : Nat) (f : PackPass → PackPass) (hf : ∀ p, (f p).ctx = p.ctx) :
    (s.updPass c f).packPass c = (s.packPass c).map f := by
  have hctx : ∀ p : PackPass, (if p.ctx = c then f p else p).ctx = p.ctx := fun p => by
    split
    · exact hf p
    · rfl
  have hsolo : (s.updPass c f).solo = s.solo := rfl
  unfold State.packPass
  rw [hsolo]
  split
  · rfl
  · simp only [State.updPass, List.find?_map, Function.comp_def, hctx]
    cases hfind : s.pack.passes.find? (fun p => decide (p.ctx = c)) with
    | none => rfl
    | some p =>
      have hp : p.ctx = c := by simpa using List.find?_some hfind
      simp [hp]

/-- The pass keeps a record back as its newest. -/
def PackPass.keep (b : Nat × Nat × ResultRec) (p : PackPass) : PackPass := { p with back := some b }

/-- The record `n` of position `pos` counts as seen. -/
def State.sawRecord (s : State) (pos n : Nat) : State := { s with pack := { s.pack with rseen := Tab.set 0 s.pack.rseen pos n } }

section

variable {s u : State} {port : Nat} {h : PackHdr} {ex : ExHdr} {rseq : Nat} {r : ResultRec}

theorem resultMsg_stale (hu : s.Takes port h (.result ex rseq r) u) (hstale : s.leads = false ∨ rseq ≤ Tab.get 0 s.pack.rseen h.src) :
    exec (.resultMsg port h ex rseq r) s = .next u := by
  have hrec := received_of_takes hu
  show execResultMsg port h ex rseq r s = _
  refine onFrame_of_takes hu ?_
  refine if_pos ?_
  rwa [hrec.leads, hrec.rseen]

theorem resultMsg_gap (hu : s.Takes port h (.result ex rseq r) u) (hlead : s.leads = true) (hgap : Tab.get 0 s.pack.rseen h.src + 1 < rseq) :
    exec (.resultMsg port h ex rseq r) s
      = .next (u.packSend h.src r.ctx (.resend { epoch := s.pack.epoch, pass := r.pass } 8 (Tab.get 0 s.pack.rseen h.src + 1) rseq)) := by
  have hrec := received_of_takes hu
  show execResultMsg port h ex rseq r s = _
  refine onFrame_of_takes hu ?_
  dsimp only
  rw [hrec.leads, hrec.rseen, hrec.epoch, if_neg (by simp [hlead]; omega), if_pos hgap]

theorem resultMsg_next (hu : s.Takes port h (.result ex rseq r) u) (hlead : s.leads = true) (hnext : rseq = Tab.get 0 s.pack.rseen h.src + 1) :
    exec (.resultMsg port h ex rseq r) s = .next (((u.sawRecord h.src rseq).leadTake h.src rseq r).tryPassOver r.ctx) := by
  have hrec := received_of_takes hu
  show execResultMsg port h ex rseq r s = _
  refine onFrame_of_takes hu ?_
  dsimp only
  rw [hrec.leads, hrec.rseen, if_neg (by simp [hlead]; omega), if_neg (by omega)]
  rw [← hrec.rseen]
  rfl

/-- A record of no pass is issued at once. -/
theorem resultMsg_issued (hu : s.Takes port h (.result ex rseq r) u) (hlead : s.leads = true) (hnext : rseq = Tab.get 0 s.pack.rseen h.src + 1)
    (hpass : s.packPass r.ctx = none) : exec (.resultMsg port h ex rseq r) s = .next ((u.sawRecord h.src rseq).issue [r]) := by
  have hrec := received_of_takes hu
  have hlead' : (u.sawRecord h.src rseq).isLead = true := hrec.isLead.trans (Bool.and_eq_true _ _ ▸ hlead).2
  have hnone : (u.sawRecord h.src rseq).packPass r.ctx = none := (hrec.packPass r.ctx).trans hpass
  have hnone' : ((u.sawRecord h.src rseq).issue [r]).packPass r.ctx = none :=
    (congrArg (fun t : State => t.packPass r.ctx) (issue_lead (u.sawRecord h.src rseq) r hlead').1).trans hnone
  rw [resultMsg_next hu hlead hnext]
  simp only [State.leadTake, hnone, State.tryPassOver, hnone']

/-- The newest record of a pass waits, where none does and the pass is not over. -/
theorem resultMsg_kept {p : PackPass} (hu : s.Takes port h (.result ex rseq r) u) (hlead : s.leads = true)
    (hnext : rseq = Tab.get 0 s.pack.rseen h.src + 1) (hpass : s.packPass r.ctx = some p) (hno : p.pass = r.pass) (hmember : r.member ≠ 0)
    (hback : p.back = none) (hover : (u.sawRecord h.src rseq).passOver p = false) :
    exec (.resultMsg port h ex rseq r) s
      = .next ((u.sawRecord h.src rseq).updPass r.ctx (PackPass.keep (h.src, rseq, r))) := by
  have hsome : (u.sawRecord h.src rseq).packPass r.ctx = some p := ((received_of_takes hu).packPass r.ctx).trans hpass
  have htake : (u.sawRecord h.src rseq).leadTake h.src rseq r
      = (u.sawRecord h.src rseq).updPass r.ctx (PackPass.keep (h.src, rseq, r)) := by
    simp only [State.leadTake, hsome, hback]
    rw [if_neg (by simp [hno, hmember])]
    rfl
  have hover' : ((u.sawRecord h.src rseq).updPass r.ctx (PackPass.keep (h.src, rseq, r))).passOver
      (PackPass.keep (h.src, rseq, r) p) = false := hover
  rw [resultMsg_next hu hlead hnext, htake]
  unfold State.tryPassOver
  rw [packPass_updPass _ _ (PackPass.keep (h.src, rseq, r)) (fun _ => rfl), hsome]
  simp only [Option.map_some, hover', or_true, if_true]

end

end Sys2Proof.Machine
end

section
/-! RESEND_MSG, EXCHANGE_STALL_TIMEOUT, SNAPSHOT_MSG and SCALE_SET (R142, R322, R323, R352), and the obligation on records and scales. -/

namespace Sys2Proof.Machine

open Sys2Proof

theorem foldl_onPorts {α : Type} {f : State → α → State} (hf : ∀ s x, OnPorts s (f s x)) (l : List α) (s : State) : OnPorts s (l.foldl f s) := by
  induction l generalizing s with
  | nil => exact onPorts_refl s
  | cons x xs ih => exact onPorts_trans (hf s x) (ih _)

section

variable {s u : State} {port : Nat} {h : PackHdr} {ex : ExHdr}

/-! ## RESEND, R323 -/

theorem resendMsg_old {type first last : Nat} (hu : s.Takes port h (.resend ex type first last) u) (hold : ex.epoch < s.pack.epoch) :
    exec (.resendMsg port h ex type first last) s = .next u := by
  show execResendMsg port h ex type first last s = _
  refine onFrame_of_takes hu ?_
  refine if_pos ?_
  rwa [(received_of_takes hu).epoch]

/-- The records named that this member keeps go out again. -/
theorem resendMsg_records {first last : Nat} (hu : s.Takes port h (.resend ex 8 first last) u) (hepoch : s.pack.epoch ≤ ex.epoch) :
    exec (.resendMsg port h ex 8 first last) s
      = .next ((s.pack.kept.filter (fun k => decide (first ≤ k.1 ∧ k.1 ≤ last))).foldl (fun v k =>
          v.packSend h.src k.2.ctx (.result { epoch := v.pack.epoch, pass := k.2.pass } k.1 k.2)) u) := by
  have hrec := received_of_takes hu
  show execResendMsg port h ex 8 first last s = _
  refine onFrame_of_takes hu ?_
  rw [hrec.epoch, hrec.kept, if_neg (by omega), if_pos rfl]

/-- The messages named that this member holds for the sender go out again. -/
theorem resendMsg_messages {type first last : Nat} (hu : s.Takes port h (.resend ex type first last) u) (hepoch : s.pack.epoch ≤ ex.epoch)
    (htype : type ≠ 8) : exec (.resendMsg port h ex type first last) s
      = .next ((s.pack.sent.filter (fun (x : Sent) => decide (x.dst = h.src ∧ x.type = type ∧ (5 ≤ type ∨ (x.ctx = h.ctx ∧ first ≤ x.layer ∧ x.layer ≤ last))))).foldl
          (fun v x => v.packSend x.dst x.ctx x.body) u) := by
  have hrec := received_of_takes hu
  show execResendMsg port h ex type first last s = _
  refine onFrame_of_takes hu ?_
  rw [hrec.epoch, hrec.sent, if_neg (by omega), if_neg htype]

/-! ## EXCHANGE_STALL_TIMEOUT, R323 -/

theorem exchangeStallTimeout_asks {k : Nat} {a : Nat × Nat × Nat × Nat} (hup : s.packUp = true) (hdue : s.awaiting[k]? = some a) :
    exec (.exchangeStallTimeout k) s = .next (s.askAgain a) := by
  show execExchangeStallTimeout k s = _
  simp only [execExchangeStallTimeout, hdue, hup, if_true]

theorem exchangeStallTimeout_none {k : Nat} (hdue : s.awaiting[k]? = none) : exec (.exchangeStallTimeout k) s = .next s := by
  show execExchangeStallTimeout k s = _
  simp only [execExchangeStallTimeout, hdue]

/-! ## SNAPSHOT, R142, R352 -/

theorem snapshotMsg_elsewhere {units : List UnitStat} (hu : s.Takes port h (.snapshot ex units) u) (hlead : s.isLead = false) :
    exec (.snapshotMsg port h ex units) s = .next u := by
  show execSnapshotMsg port h ex units s = _
  refine onFrame_of_takes hu ?_
  refine if_neg ?_
  simp [(received_of_takes hu).isLead, hlead]

theorem snapshotMsg_lead {units : List UnitStat} (hu : s.Takes port h (.snapshot ex units) u) (hlead : s.isLead = true) :
    exec (.snapshotMsg port h ex units) s = .next (u.noteSnap h.ctx h.src units) := by
  show execSnapshotMsg port h ex units s = _
  refine onFrame_of_takes hu ?_
  exact if_pos ((received_of_takes hu).isLead.trans hlead)

/-- In a pack of up to four the lead keeps no snapshot of the watch context. -/
theorem noteSnap_watch_small (v : State) (pos : Nat) (units : List UnitStat) (hsmall : v.isLarge = false) : v.noteSnap 0 pos units = v := by
  unfold State.noteSnap
  rw [if_pos rfl]
  split
  · simp [hsmall]
  · rfl

/-- The snapshots of an inspect context with that of position `pos` as its latest. -/
def State.snapsWith (v : State) (c pos : Nat) (units : List UnitStat) : List (Nat × List UnitStat) :=
  (Tab.get [] v.pack.snaps c).filter (fun x => decide (x.1 ≠ pos)) ++ [(pos, units)]

/-- The lead keeps snapshots of an inspect context. -/
def State.keepSnaps (v : State) (c : Nat) (l : List (Nat × List UnitStat)) : State :=
  { v with pack := { v.pack with snaps := Tab.set [] v.pack.snaps c l } }

theorem snapshotMsg_inspect {units : List UnitStat} (hu : s.Takes port h (.snapshot ex units) u) (hlead : s.isLead = true) (hctx : h.ctx ≠ 0) :
    exec (.snapshotMsg port h ex units) s = .next
      (if s.livePos.all (fun q => (s.snapsWith h.ctx h.src units).any (fun x => x.1 == q))
        then (u.keepSnaps h.ctx (s.snapsWith h.ctx h.src units)).applySnaps h.ctx else u.keepSnaps h.ctx (s.snapsWith h.ctx h.src units)) := by
  have hrec := received_of_takes hu
  have hsnaps : s.snapsWith h.ctx h.src units = u.snapsWith h.ctx h.src units := by
    rw [State.snapsWith, State.snapsWith, hrec.snaps]
  rw [snapshotMsg_lead hu hlead, hsnaps, ← hrec.livePos]
  unfold State.noteSnap
  rw [if_neg hctx]
  rfl

/-! ## SCALE_SET, R135, R142 -/

/-- The exponents of a context that wait for its next pass. -/
def State.dueScales (v : State) (c : Nat) (units : List UnitScale) : State :=
  { v with pack := { v.pack with scaleDue := Tab.set [] v.pack.scaleDue c units } }

theorem scaleSet_none {units : List UnitScale} (hu : s.Takes port h (.scaleSet ex units) u) (hm : s.member h.ctx = none) :
    exec (.scaleSet port h ex units) s = .next (u.dueScales h.ctx units) := by
  have hnone : (u.dueScales h.ctx units).member h.ctx = none := ((received_of_takes hu).member h.ctx).trans hm
  show execScaleSet port h ex units s = _
  refine onFrame_of_takes hu ?_
  show (match (u.dueScales h.ctx units).member h.ctx with | some m => (u.dueScales h.ctx units).snapUnits h.ctx m units | none => _) = _
  simp only [hnone]
  rfl

theorem scaleSet_member {units : List UnitScale} {m : Member} (hu : s.Takes port h (.scaleSet ex units) u) (hm : s.member h.ctx = some m) :
    exec (.scaleSet port h ex units) s = .next ((u.dueScales h.ctx units).snapUnits h.ctx m units) := by
  have hsome : (u.dueScales h.ctx units).member h.ctx = some m := ((received_of_takes hu).member h.ctx).trans hm
  show execScaleSet port h ex units s = _
  refine onFrame_of_takes hu ?_
  show (match (u.dueScales h.ctx units).member h.ctx with | some m => (u.dueScales h.ctx units).snapUnits h.ctx m units | none => _) = _
  simp only [hsome]

end

/-! ## The obligation -/

/-- Settles O51: each message is taken apart by the case of its receiver. -/
theorem packRecordsAndScalesTravel : Obligations.PackRecordsAndScalesTravel := by
  refine ⟨fun s u port h ex rseq r hu => ⟨resultMsg_stale hu, resultMsg_gap hu, ?_, ?_⟩,
    fun s u port h ex type first last hu => ⟨resendMsg_old hu, fun hepoch => ?_⟩,
    fun s k src c type layer hup hdue => exchangeStallTimeout_asks hup hdue, fun s k hdue => exchangeStallTimeout_none hdue,
    fun s u port h ex units hu => ⟨snapshotMsg_elsewhere hu, ?_, ?_⟩, fun s u port h ex units hu => ?_⟩
  · intro hlead hnext hpass
    have hrec := received_of_takes hu
    obtain ⟨hframe, hresno, hpool⟩ := issue_lead (u.sawRecord h.src rseq) r (hrec.isLead.trans (Bool.and_eq_true _ _ ▸ hlead).2)
    have hnumber : (u.sawRecord h.src rseq).nextResno r.ctx = s.nextResno r.ctx := hrec.nextResno r.ctx
    rw [hnumber] at hresno hpool
    have hpack : ((u.sawRecord h.src rseq).issue [r]).pack = (u.sawRecord h.src rseq).pack := (congrArg State.pack hframe :)
    have hmem : ((u.sawRecord h.src rseq).issue [r]).mem = u.mem := (congrArg State.mem hframe :)
    have hhist : ((u.sawRecord h.src rseq).issue [r]).hist = u.hist := (congrArg State.hist hframe :)
    refine ⟨_, resultMsg_issued hu hlead hnext hpass, ?_, hresno, hpool, hmem.trans hrec.mem, hhist.trans hrec.hist⟩
    rw [hpack]
    exact Tab.get_set_same _ _ _
  · intro p hlead hnext hpass hno hmember hback hover
    have hrec := received_of_takes hu
    have hsome : (u.sawRecord h.src rseq).packPass r.ctx = some p := (hrec.packPass r.ctx).trans hpass
    refine ⟨_, _, resultMsg_kept hu hlead hnext hpass hno hmember hback hover, ?_, rfl, Tab.get_set_same _ _ _, hrec.results, hrec.mem, hrec.hist, hrec.ctxs⟩
    rw [packPass_updPass _ _ (PackPass.keep (h.src, rseq, r)) (fun _ => rfl), hsome]
    rfl
  · by_cases htype : type = 8
    · subst htype
      refine ⟨_, resendMsg_records hu hepoch, foldl_onPorts (fun v k => packSend_onPorts v _ _ _) _ u, fun k _ hone => ?_, fun _ hne => absurd rfl hne⟩
      rw [hone, ← (received_of_takes hu).epoch]
      rfl
    · refine ⟨_, resendMsg_messages hu hepoch htype, foldl_onPorts (fun v x => packSend_onPorts v _ _ _) _ u, fun _ heq => absurd heq htype, fun x _ hone => ?_⟩
      rw [hone]
      rfl
  · intro hlead hctx hsmall
    rw [snapshotMsg_lead hu hlead, hctx, noteSnap_watch_small u _ _ ((received_of_takes hu).isLarge.trans hsmall)]
  · rintro l hlead hctx rfl
    rw [snapshotMsg_inspect hu hlead hctx]
    refine ⟨fun hsome => ?_, fun hall => congrArg _ (if_pos hall)⟩
    refine ⟨u.keepSnaps h.ctx (s.snapsWith h.ctx h.src units), congrArg _ (if_neg (ne_true_of_eq_false hsome)), Tab.get_set_same _ _ _, fun c hc => ?_, rfl⟩
    rw [← (received_of_takes hu).snaps]
    exact Tab.get_set_ne _ _ _ _ hc.symm
  · have hrec := received_of_takes hu
    have hothers : ∀ c, c ≠ h.ctx → Tab.get [] (u.dueScales h.ctx units).pack.scaleDue c = Tab.get [] s.pack.scaleDue c := fun c hc => by
      rw [← hrec.scaleDue]
      exact Tab.get_set_ne _ _ _ _ hc.symm
    cases hm : s.member h.ctx with
    | none =>
      exact ⟨_, u.dueScales h.ctx units, scaleSet_none hu hm, Tab.get_set_same _ _ _, hothers, rfl, fun _ => rfl, fun _ hsome => absurd hsome (by simp)⟩
    | some m =>
      refine ⟨_, u.dueScales h.ctx units, scaleSet_member hu hm, Tab.get_set_same _ _ _, hothers, rfl, fun hnone => absurd hnone (by simp), fun m' hm' => ?_⟩
      obtain rfl := Option.some.inj hm'
      rfl

end Sys2Proof.Machine
end

section
/-! The passes of a pack number the values of a slot and layer `65536 * slot + layer`, which tells them apart only while the layer
is below 65536 (R322; the layer of an operand has no bound). -/

namespace Sys2Proof.Machine

open Sys2Proof

/-- A pass of context 1 over three slots: slot 0 is a hole, slots 1 and 2 are this member's, and pass 1 of slot 1 is done. -/
def passAfterHole : PackPass :=
  { ctx := 1, pass := 1, epoch := 0, first := 0, last := 0, p0 := 0, n := 3, mine := [1, 2], holes := [0], pass1 := [1] }

/-- The member at position 0 of a pack of two that runs the pass, with an inspect member of one recurrent layer in force. -/
def memberAfterHole : State :=
  { life := { phase := .ready }
    opt := { loaded := { psize := 2 } }
    img := { good := true, active := some 0, slot0 := { image := some { inspect := some { consts := { layers := [{}] } } } } }
    pack := { ports := [(0, { state := 3 })], live := 3, hasLead := true, lead := 1, admitted := true, passes := [passAfterHole] } }

/-- A frame of context 1 from position 1. -/
def fromPositionOne : PackHdr := { src := 1, ctx := 1 }

/-- The Lx of slot 1 at layer 65536 as the pass of context 1 holds it. -/
def heldPrefix (s : State) : Option (List (F32 × F32)) := (s.packPass 1).map (fun p => Tab.get [] p.prefixes (slotKey 1 65536))

/-- The Lx held after SCAN_PREFIX of slot 0 at layer 65536. -/
def prefixAfter (v : List (F32 × F32)) : Option (List (F32 × F32)) :=
  match exec (.scanPrefix 0 fromPositionOne { pass := 1, layer := 65536 } 0 false v) memberAfterHole with
  | .next t => heldPrefix t
  | _ => none

/-- The message lets slot 1 send what follows from it at layer 0 to slot 2, which takes the place of what arrived. -/
theorem prefixAfter_overwritten : prefixAfter [(0, 0)] = some [] := by decide +kernel

theorem memberAfterHole_takes :
    ∃ u, memberAfterHole.Takes 0 fromPositionOne (.scanPrefix { pass := 1, layer := 65536 } 0 false [(0, 0)]) u := ⟨_, _, rfl, rfl⟩

/-- Refutes O50: SCAN_PREFIX of slot 0 at layer 65536 is kept for slot 1 under the number of slot 2's layer 0, and what
slot 1 then sends on to slot 2 of the same member replaces it. The statement bounds no layer; Table 9.5 gives the field 2 bytes. -/
theorem not_packPassesRunTheirShares : ¬ Obligations.PackPassesRunTheirShares := by
  rintro ⟨-, -, hscan, -⟩
  obtain ⟨u, hu⟩ := memberAfterHole_takes
  obtain ⟨hprefix, -⟩ := hscan memberAfterHole u 0 fromPositionOne { pass := 1, layer := 65536 } 0 false [(0, 0)] passAfterHole (by decide +kernel)
  obtain ⟨t, p, hexec, hpass, hkept, -⟩ := (hprefix hu).2 rfl rfl (by decide) (by decide)
  have hheld : prefixAfter [(0, 0)] = some [(0, 0)] := by
    unfold prefixAfter
    rw [hexec]
    exact (congrArg (Option.map _) hpass).trans (congrArg some hkept)
  rw [prefixAfter_overwritten] at hheld
  exact absurd hheld (by decide)

end Sys2Proof.Machine
end

section
/-! TROUBLE_CLEAR, REPLAN, SWEEP, RETIRE, CHECKPOINT and RESTART (R174, R182, R448 to R452, R507). -/

namespace Sys2Proof.Machine

open Sys2Proof

variable {s t u : State} {op sid : Nat} {x : Session} {p : Packet} {f : State → Packet → CmdOut} {st : Status}

/-! ## Commands that leave a state beside a refusal -/

/-- A command that its own rules refuse with a state: the reply has the present stamp, and the state stands but for sessions and
what leaves the module. -/
theorem runCmd_refused_next {d : Nat} {v : State} (h : Asks s op sid x p) (hst : ¬ st.code < 0x10)
    (hf : f (s.inHand sid p) p = { st := st, detail := d, next := some v }) (hw : (f (s.taken sid p) p).st = st) :
    Replied s (s.runCmd op true sid f) sid x (replyOf p st d [] s.life.commit)
      ∧ { s.runCmd op true sid f with comms := v.comms, out := v.out } = v
      ∧ ∀ n, n ≠ sid → (s.runCmd op true sid f).sess n = v.sess n := by
  have hrun : s.runCmd op true sid f = ((s.popCmd sid p).replyAt v sid x.txNext (s.outPort x) (replyOf p st d [] s.life.commit)).drainBad sid 16 := by
    obtain ⟨-, -, -, -, hrefuses⟩ := id h
    have hf' : f ((s.popCmd sid p).updSess sid (fun y => { y with txNext := y.txNext + 1 })) p = { st := st, detail := d, next := some v } := hf
    have hw' : (f (((s.popCmd sid p).commit).updSess sid (fun y => { y with txNext := y.txNext + 1 })) p).st = st := hw
    unfold State.runCmd
    rw [headOf_asks h]
    dsimp only
    rw [hrefuses]
    simp only [if_true, hw', hst, if_false, hf', false_and]
    rfl
  have hown : OwnOnly sid (s.out ++ [.reply sid x.txNext (s.outPort x) (replyOf p st d [] s.life.commit)])
      { v with out := s.out ++ [.reply sid x.txNext (s.outPort x) (replyOf p st d [] s.life.commit)] ++ v.out.drop s.out.length }
      (s.runCmd op true sid f) := by
    rw [hrun]
    exact ownOnly_drainBad _ (ownOnly_updSess _ ⟨⟨_, rfl⟩, rfl, rfl, fun _ _ => rfl⟩)
  obtain ⟨⟨more, hout⟩, hrest, -, hothers⟩ := hown
  exact ⟨⟨more, by rw [hout, List.append_assoc]; rfl⟩, congrArg (fun w : State => { w with out := v.out }) hrest, hothers⟩

/-- A fold that runs over a list as `State.each` does. -/
theorem foldl_eq_each {α : Type} (g : State → α → State) (l : List α) (s : State) : l.foldl g s = s.each l g := by
  induction l generalizing s with
  | nil => rfl
  | cons n ns ih => exact ih (g s n)

/-! ## TROUBLE_CLEAR, R452 -/

theorem clearTrouble_bit {w v b mask : Nat} (hw : w < 3) (hv : v < 3) (hb : b < 32) :
    ((s.clearTrouble w mask).logs.word v).getLsbD b = ((s.logs.word v).getLsbD b && !(decide (v = w) && mask.testBit b)) := by
  have hmask : (BitVec.ofNat 32 mask).getLsbD b = mask.testBit b := by
    rw [BitVec.getLsbD_ofNat, decide_eq_true hb, Bool.true_and]
  rw [State.clearTrouble, word_setWord _ _ _ _ hw hv]
  by_cases hwv : w = v
  · subst hwv
    rw [if_pos rfl, BitVec.getLsbD_and, BitVec.getLsbD_not, hmask]
    simp [hb]
  · simp [hwv, Ne.symm hwv]

theorem execTroubleClear_word (h : Asks s 0x0902 sid x p) (hword : 2 < p.num 1) :
    ∃ t, execTroubleClear sid s = .next t ∧ Refused s t sid x p .badParam (p.off 1) :=
  ⟨_, rfl, refused_of_asked h (by decide) fun _ => if_pos hword⟩

theorem execTroubleClear_bits (h : Asks s 0x0902 sid x p) (hword : p.num 1 ≤ 2) (hbits : p.num 2 &&& troubleBits (p.num 1) ≠ p.num 2) :
    ∃ t, execTroubleClear sid s = .next t ∧ Refused s t sid x p .badParam (p.off 2) :=
  ⟨_, rfl, refused_of_asked h (by decide) fun _ => (if_neg (Nat.not_lt.mpr hword)).trans (if_pos hbits)⟩

theorem execTroubleClear_done (h : Asks s 0x0902 sid x p) (hword : p.num 1 ≤ 2) (hbits : p.num 2 &&& troubleBits (p.num 1) = p.num 2) :
    ∃ t, execTroubleClear sid s = .next t
      ∧ WriteDone s t sid x p .ok [t.logs.bytes] (s.commit.clearTrouble (p.num 1) (p.num 2))
      ∧ t.logs = (s.clearTrouble (p.num 1) (p.num 2)).logs := by
  obtain ⟨t, ht, hdone⟩ : ∃ t, execTroubleClear sid s = .next t
      ∧ WriteDone s t sid x p .ok [(s.clearTrouble (p.num 1) (p.num 2)).logs.bytes] (s.commit.clearTrouble (p.num 1) (p.num 2)) :=
    ⟨_, rfl, writeDone_of_taken_as ((s.taken sid p).clearTrouble (p.num 1) (p.num 2)) h (by decide)
      ((if_neg (Nat.not_lt.mpr hword)).trans (if_neg (not_not.mpr hbits))) rfl⟩
  have hlogs : t.logs = (s.clearTrouble (p.num 1) (p.num 2)).logs := hdone.part State.logs fun _ _ _ => rfl
  exact ⟨t, ht, by rwa [hlogs], hlogs⟩

/-! ## REPLAN and SWEEP, R174, R182 -/

/-- REPLAN names a panel that is not one to move blocks off. -/
def State.replanBad (s : State) (w : Nat) : Prop := locOk w 5 = false ∨ (s.panel (locToEngine w)).pstate ≠ 3 ∨ (s.panel (locToEngine w)).replanned = true

theorem execReplan_bad (h : Asks s 0x0A03 sid x p) (hbad : s.replanBad (p.num 1)) :
    ∃ t, execReplan sid s = .next t ∧ Refused s t sid x p .badParam (p.off 1) :=
  ⟨_, rfl, refused_of_asked h (by decide) fun _ => if_pos hbad⟩

theorem execReplan_busy (h : Asks s 0x0A03 sid x p) (hok : ¬ s.replanBad (p.num 1)) (hbusy : s.upk.replan.isSome = true ∨ s.img.swap.isSome = true) :
    ∃ t, execReplan sid s = .next t ∧ Refused s t sid x p .busy 0 :=
  ⟨_, rfl, refused_of_asked h (by decide) fun _ => (if_neg hok).trans (if_pos hbusy)⟩

theorem execReplan_few (h : Asks s 0x0A03 sid x p) (hok : ¬ s.replanBad (p.num 1)) (hfree : ¬ (s.upk.replan.isSome = true ∨ s.img.swap.isSome = true))
    (hfew : ((s.freePlanes (locToEngine (p.num 1))).take 16).length < 16) :
    ∃ t, execReplan sid s = .next t ∧ Refused s t sid x p .noResource 0 :=
  ⟨_, rfl, refused_of_asked h (by decide) fun _ => (if_neg hok).trans ((if_neg hfree).trans (if_pos hfew))⟩

/-- The programming of a target of REPLAN. -/
def replanWork (e : Nat × Nat) : Work := { prio := 3, engine := e.1, plane := e.2, op := .program, why := .replan }

/-- A replan begins: its record, its targets, and the programming of each. -/
def State.beginReplan (s : State) (r : Replan) (w : Nat) : State :=
  let v := s.journal 0x0D 0 w w
  State.each { v with upk := { v.upk with replan := some r } } r.targets (fun s e => s.pushWork (replanWork e))

/-- Of the state a replan changes upkeep only: its targets, and the work that is pending. -/
theorem beginReplan_eq (s : State) (r : Replan) (w : Nat) : ∃ upk, s.beginReplan r w = { s with upk := upk } ∧ upk.replan = some r
    ∧ ∀ v, v ∈ upk.queue ↔ v ∈ s.upk.queue ∨ ∃ e, e ∈ r.targets ∧ v = replanWork e := by
  obtain ⟨older, stored, dirty, planes, panels, placement, hjournal⟩ := journal_eq s 0x0D 0 w w
  obtain ⟨q, hpush, hq⟩ := each_pushWork_eq replanWork r.targets { s.journal 0x0D 0 w w with upk := { (s.journal 0x0D 0 w w).upk with replan := some r } }
  refine ⟨{ (s.journal 0x0D 0 w w).upk with replan := some r, queue := q }, hpush.trans ?_, rfl, ?_⟩
  · rw [hjournal]
    rfl
  · rw [hjournal] at hq
    exact hq

theorem execReplan_begins (h : Asks s 0x0A03 sid x p) (hok : ¬ s.replanBad (p.num 1)) (hfree : ¬ (s.upk.replan.isSome = true ∨ s.img.swap.isSome = true))
    {ts : List (Nat × Nat)} (hts : (s.freePlanes (locToEngine (p.num 1))).take 16 = ts) (hlen : ¬ ts.length < 16) :
    ∃ t, execReplan sid s = .next t ∧ WriteDone s t sid x p .accepted []
      ((s.taken sid p).beginReplan { engine := locToEngine (p.num 1), targets := ts, left := ts, askedBy := some (sid, p.seq) } (p.num 1)) := by
  subst hts
  exact ⟨_, rfl, writeDone_of_taken h (by decide) ((if_neg hok).trans ((if_neg hfree).trans ((if_neg hlen).trans
    (congrArg (fun v : State => CmdOut.accepted v []) (foldl_eq_each _ _ _)))))⟩

theorem execSweep_bad (h : Asks s 0x0A04 sid x p) (hbad : locOk (p.num 1) 5 = false) :
    ∃ t, execSweep sid s = .next t ∧ Refused s t sid x p .badParam (p.off 1) :=
  ⟨_, rfl, refused_of_asked h (by decide) fun _ => if_pos hbad⟩

/-- The level read of a plane that SWEEP asks for. -/
def sweepRead (e k : Nat) : Work := { prio := 6, engine := e, plane := k, op := .levelRead, why := .sweep }

/-- A commanded sweep of a panel: who asked for it, and a level read of each of its planes. -/
def State.askSweep (s : State) (e : Nat) (who : Nat × Nat) : State :=
  State.each { s with upk := { s.upk with sweepAsked := s.upk.sweepAsked ++ [(e, who)] } } (List.range 17) (fun s k => s.pushWork (sweepRead e k))

theorem askSweep_eq (s : State) (e : Nat) (who : Nat × Nat) : ∃ upk, s.askSweep e who = { s with upk := upk }
    ∧ upk.sweepAsked = s.upk.sweepAsked ++ [(e, who)] ∧ ∀ v, v ∈ upk.queue ↔ v ∈ s.upk.queue ∨ ∃ k, k ∈ List.range 17 ∧ v = sweepRead e k := by
  obtain ⟨q, hpush, hq⟩ := each_pushWork_eq (sweepRead e) (List.range 17) { s with upk := { s.upk with sweepAsked := s.upk.sweepAsked ++ [(e, who)] } }
  exact ⟨_, hpush, rfl, hq⟩

theorem execSweep_asks (h : Asks s 0x0A04 sid x p) (hok : ¬ locOk (p.num 1) 5 = false) :
    ∃ t, execSweep sid s = .next t ∧ WriteDone s t sid x p .accepted [] ((s.taken sid p).askSweep (locToEngine (p.num 1)) (sid, p.seq)) :=
  ⟨_, rfl, writeDone_of_taken h (by decide) ((if_neg hok).trans
    (congrArg (fun v : State => CmdOut.accepted v []) (foldl_eq_each _ _ _)))⟩

/-- After a command that changes upkeep and nothing else, the rest of the state is as it was before, but for its commit. -/
theorem WriteDone.upkeep {vs : List (List Byte)} {upk : Upkeep} (h : WriteDone s t sid x p st vs u) (hu : u = { s.taken sid p with upk := upk }) :
    t.upk = upk ∧ { t with comms := s.comms, out := s.out, life := s.life, upk := s.upk } = s := by
  refine ⟨(h.part State.upk fun _ _ _ => rfl).trans (by rw [hu]), ?_⟩
  exact (congrArg (fun v : State => { v with comms := s.comms, out := s.out, life := s.life, upk := s.upk }) h.2).trans (by rw [hu])

/-! ## RETIRE, R448 to R451 -/

theorem execRetire_bad {ty : Nat} (h : Asks s 0x0A05 sid x p) (hbad : ∀ v : State, v.retireCmd (p.num 1) (p.num 2) = .error (.badParam, v))
    (hty : (if 2 < p.num 1 then 1 else 2) = ty) : ∃ t, execRetire sid s = .next t ∧ Refused s t sid x p .badParam (p.off ty) := by
  refine ⟨_, rfl, refused_of_asked h (by decide) fun l => ?_⟩
  simp only [hbad, hty]
  rfl

theorem execRetire_full {g : State → State} (h : Asks s 0x0A05 sid x p)
    (hfull : ∀ v : State, v.mem = s.mem → v.retireCmd (p.num 1) (p.num 2) = .error (.noResource, g v)) :
    ∃ t, execRetire sid s = .next t ∧ Replied s t sid x (replyOf p .noResource 0 [] s.life.commit)
      ∧ { t with comms := (g (s.inHand sid p)).comms, out := (g (s.inHand sid p)).out } = g (s.inHand sid p)
      ∧ ∀ n, n ≠ sid → t.sess n = (g (s.inHand sid p)).sess n := by
  refine ⟨_, rfl, runCmd_refused_next h (by decide) ?_ ?_⟩
  · simp only [hfull (s.inHand sid p) rfl]
  · simp only [hfull (s.taken sid p) rfl]

/-- A unit without a spare, where nothing is logged: nothing changes. -/
theorem execRetire_refused (h : Asks s 0x0A05 sid x p)
    (hfull : ∀ v : State, v.mem = s.mem → v.retireCmd (p.num 1) (p.num 2) = .error (.noResource, v)) :
    ∃ t, execRetire sid s = .next t ∧ Refused s t sid x p .noResource 0 := by
  obtain ⟨t, ht, hreply, hrest, hothers⟩ := execRetire_full (g := id) h hfull
  refine ⟨t, ht, hreply, congrArg (fun v : State => { v with comms := s.comms, out := s.out }) hrest, fun n hn => (hothers n hn).trans ?_⟩
  exact (State.updSess_sess_ne _ _ _ _ (Ne.symm hn)).trans (State.updSess_sess_ne _ _ _ _ (Ne.symm hn))

theorem execRetire_done {v : State} (h : Asks s 0x0A05 sid x p) (hok : (s.taken sid p).retireCmd (p.num 1) (p.num 2) = .ok v) :
    ∃ t, execRetire sid s = .next t ∧ WriteDone s t sid x p .ok [] v := by
  refine ⟨_, rfl, writeDone_of_taken h (by decide) ?_⟩
  simp only [hok]
  rfl

theorem retireCmd_kind {kind : Nat} (a : Nat) (hkind : 2 < kind) : s.retireCmd kind a = .error (.badParam, s) := by
  obtain ⟨n, rfl⟩ : ∃ n, kind = n + 3 := ⟨kind - 3, by omega⟩
  rfl

theorem retireCmd_page_outside {a : Nat} (ha : Space.board.size ≤ a) : s.retireCmd 0 a = .error (.badParam, s) := if_pos ha

theorem retireCmd_page_full {a : Nat} (ha : a < Space.board.size) (hfull : 4096 ≤ s.mem.spares) : s.retireCmd 0 a = .error (.noResource, s) :=
  (if_neg (Nat.not_le.mpr ha)).trans (if_pos hfull)

theorem retireCmd_page {a : Nat} (ha : a < Space.board.size) (hspare : s.mem.spares < 4096) : s.retireCmd 0 a = .ok (s.retirePage a) :=
  (if_neg (Nat.not_le.mpr ha)).trans (if_neg (Nat.not_le.mpr hspare))

/-- The bits of the remap table change no memory. -/
theorem remapBits_mem (s : State) : s.remapBits.mem = s.mem ∧ s.remapBits.upk = s.upk := by
  have hbit (v : State) (c : Prop) [Decidable c] (b : Nat) : (if c then v.raise 1 b 1 else v).mem = v.mem ∧ (if c then v.raise 1 b 1 else v).upk = v.upk := by
    split
    · exact ⟨State.raise_mem .., State.raise_upk ..⟩
    · exact ⟨rfl, rfl⟩
  unfold State.remapBits
  exact ⟨(hbit ..).1.trans (hbit ..).1, (hbit ..).2.trans (hbit ..).2⟩

theorem retirePage_remaps {a : Nat} (hspare : s.mem.spares < 4096) : Tab.get 0 (s.retirePage a).mem.remap (a / 4096) = s.mem.spares + 1
    ∧ (s.retirePage a).mem.spares = s.mem.spares + 1 ∧ (s.retirePage a).upk.dirty = true
    ∧ ∀ sp x, (s.retirePage a).mem.read sp x = s.mem.read sp x := by
  unfold State.retirePage
  rw [if_neg (Nat.not_le.mpr hspare)]
  dsimp only
  rw [(remapBits_mem _).1, (remapBits_mem _).2, State.log_mem, State.log_upk]
  exact ⟨Tab.get_set_same s.mem.remap (a / 4096) (s.mem.spares + 1), rfl, rfl, fun _ _ => rfl⟩

theorem retireCmd_bank_full {a : Nat} (ha : a < Space.board.size) (hnew : s.mem.banks.contains (bankKey a) = false) (hfull : 4 ≤ s.mem.banks.length) :
    s.retireCmd 1 a = .error (.noResource, s) :=
  (if_neg (not_or.mpr ⟨Nat.not_le.mpr ha, by simp only [hnew, Bool.false_eq_true, not_false_eq_true]⟩)).trans (if_pos (.inl hfull))

/-- A bank is laid out of the map, with no image in force whose history it would shorten. -/
theorem retireCmd_bank {a : Nat} (ha : a < Space.board.size) (hnew : s.mem.banks.contains (bankKey a) = false) (hroom : s.mem.banks.length < 4)
    (himage : s.image = none) : ∃ v, s.retireCmd 1 a = .ok v ∧ v.mem.banks = s.mem.banks ++ [bankKey a] ∧ v.upk.dirty = true := by
  refine ⟨_, (if_neg (not_or.mpr ⟨Nat.not_le.mpr ha, by simp only [hnew, Bool.false_eq_true, not_false_eq_true]⟩)).trans
    (if_neg (not_or.mpr ⟨Nat.not_le.mpr hroom, by simp [himage]⟩)), ?_, ?_⟩
  · rw [State.log_mem]
  · rw [State.log_upk]

section
variable {a k size : Nat}

/-- An SRAM unit has a bank laid out, which is logged (R451). -/
def State.sramBankOut (s : State) (k a : Nat) : State :=
  State.log { s with mem := { s.mem with sramBanks := Tab.set 0 s.mem.sramBanks k (a % 2 ^ 32 + 1) }, upk := { s.upk with dirty := true } }
    { code := 0x0004, loc := a / 2 ^ 32, bunit := if a / 2 ^ 32 = 0 then 11 else 0, detail := memDetail (a % 2 ^ 32) 0 0 }

theorem sramBankOut_marks (s : State) (k a : Nat) :
    Tab.get 0 (s.sramBankOut k a).mem.sramBanks k = a % 2 ^ 32 + 1 ∧ (s.sramBankOut k a).upk.dirty = true := by
  rw [State.sramBankOut, State.log_mem, State.log_upk]
  exact ⟨Tab.get_set_same s.mem.sramBanks k (a % 2 ^ 32 + 1), rfl⟩

/-- A second bank of an SRAM unit is refused, and logged (R451). -/
def State.sramBankFull (s : State) (a : Nat) : State :=
  s.trouble 1 21 (a / 2 ^ 32) (if a / 2 ^ 32 = 0 then 11 else 0) 0xFF (memDetail (a % 2 ^ 32) 0 0)

theorem retireCmd_sram_eq (hunit : sramUnit (a / 2 ^ 32) (a % 2 ^ 32) = some (k, size)) (hin : a % 2 ^ 32 < size) (halign : a % 2 ^ 32 % 8192 = 0) :
    s.retireCmd 2 a = if Tab.get 0 s.mem.sramBanks k ≠ 0 then .error (.noResource, s.sramBankFull a) else .ok (s.sramBankOut k a) := by
  have hgo : ¬ (size ≤ a % 2 ^ 32 ∨ a % 2 ^ 32 % 8192 ≠ 0) := by omega
  unfold State.retireCmd
  simp only [hunit]
  exact if_neg hgo

theorem execRetire_sram (h : Asks s 0x0A05 sid x p) (hkind : p.num 1 = 2) (hunit : sramUnit (p.num 2 / 2 ^ 32) (p.num 2 % 2 ^ 32) = some (k, size))
    (hin : p.num 2 % 2 ^ 32 < size) (halign : p.num 2 % 2 ^ 32 % 8192 = 0) (hfree : Tab.get 0 s.mem.sramBanks k = 0) :
    ∃ t, execRetire sid s = .next t ∧ Replied s t sid x (replyOf p .ok 0 [] (s.life.commit + 1))
      ∧ Tab.get 0 t.mem.sramBanks k = p.num 2 % 2 ^ 32 + 1 ∧ t.upk.dirty = true := by
  obtain ⟨t, ht, hdone⟩ := execRetire_done (v := (s.taken sid p).sramBankOut k (p.num 2)) h (by
    rw [hkind, retireCmd_sram_eq hunit hin halign]
    exact if_neg (not_not.mpr hfree))
  obtain ⟨hbank, hdirty⟩ := sramBankOut_marks (s.taken sid p) k (p.num 2)
  exact ⟨t, ht, hdone.1, by rwa [hdone.part State.mem fun _ _ _ => rfl], by rwa [hdone.part State.upk fun _ _ _ => rfl]⟩

/-- A unit whose one bank is out already: the second is logged as SRAM_BANK and refused (R451). -/
theorem execRetire_sram_full (h : Asks s 0x0A05 sid x p) (hkind : p.num 1 = 2) (hunit : sramUnit (p.num 2 / 2 ^ 32) (p.num 2 % 2 ^ 32) = some (k, size))
    (hin : p.num 2 % 2 ^ 32 < size) (halign : p.num 2 % 2 ^ 32 % 8192 = 0) (hfull : Tab.get 0 s.mem.sramBanks k ≠ 0) :
    ∃ t, execRetire sid s = .next t ∧ Replied s t sid x (replyOf p .noResource 0 [] s.life.commit) ∧ t.mem = s.mem ∧ (t.logs.word 1).getLsbD 21 = true := by
  obtain ⟨t, ht, hreply, hrest, -⟩ := execRetire_full (g := (·.sramBankFull (p.num 2))) h fun v hv => by
    rw [hkind, retireCmd_sram_eq hunit hin halign, hv]
    exact if_pos hfull
  refine ⟨t, ht, hreply, ?_, ?_⟩
  · exact (congrArg State.mem hrest).trans (State.trouble_mem ..)
  · have hlogs : t.logs = ((s.inHand sid p).sramBankFull (p.num 2)).logs := (congrArg State.logs hrest :)
    rw [hlogs, State.sramBankFull, State.trouble_word _ _ _ _ _ _ _ _ _ (by decide) (by decide) (by decide)]
    simp
end

/-! ## CHECKPOINT and RESTART, R507 -/

/-- A checkpoint that is asked for is staged or due; where the watch context runs it is due at its next period boundary. -/
theorem askCkpt_eq (s : State) : ∃ due staging timer, s.askCkpt = { s with ckpt := { s.ckpt with due := due, staging := staging, timer := timer } }
    ∧ (due = true ∨ staging.isSome = true) ∧ (s.watchRuns = true → due = true ∧ staging = s.ckpt.staging) := by
  unfold State.askCkpt State.takeCkpt
  split
  · exact ⟨true, s.ckpt.staging, s.ckpt.timer, rfl, .inl rfl, fun _ => ⟨rfl, rfl⟩⟩
  · next hidle =>
    split
    · exact ⟨true, s.ckpt.staging, s.ckpt.timer, rfl, .inl rfl, fun h => absurd h hidle⟩
    · exact ⟨false, some s.ckptNow, false, rfl, .inr rfl, fun h => absurd h hidle⟩

/-- After a command that changes what is known of checkpoints and nothing else, the rest of the state is as it was before, but for
its commit. -/
theorem WriteDone.checkpoint {vs : List (List Byte)} {ckpt : Ckpts} (h : WriteDone s t sid x p st vs u) (hu : u = { s.taken sid p with ckpt := ckpt }) :
    t.ckpt = ckpt ∧ t.life = s.commit.life ∧ { t with comms := s.comms, out := s.out, life := s.life, ckpt := s.ckpt } = s := by
  refine ⟨(h.part State.ckpt fun _ _ _ => rfl).trans (by rw [hu]), (h.part State.life fun _ _ _ => rfl).trans (by rw [hu]; rfl), ?_⟩
  exact (congrArg (fun v : State => { v with comms := s.comms, out := s.out, life := s.life, ckpt := s.ckpt }) h.2).trans (by rw [hu])

theorem execCheckpoint_asks (h : Asks s 0x0A06 sid x p) : ∃ t, execCheckpoint sid s = .next t
    ∧ WriteDone s t sid x p .accepted []
      (State.askCkpt { s.taken sid p with ckpt := { s.ckpt with asked := s.ckpt.asked ++ [(sid, p.seq)] } }) :=
  ⟨_, rfl, writeDone_of_taken h (by decide) rfl⟩

theorem execRestart_bad (h : Asks s 0x0C04 sid x p) (hbad : 1 < p.num 1) :
    ∃ t, execRestart sid s = .next t ∧ Refused s t sid x p .badParam (p.off 1) :=
  ⟨_, rfl, refused_of_asked h (by decide) fun _ => if_pos hbad⟩

theorem execRestart_asks (h : Asks s 0x0C04 sid x p) (hok : p.num 1 ≤ 1) : ∃ t, execRestart sid s = .next t
    ∧ WriteDone s t sid x p .ok []
      (State.askCkpt { s.taken sid p with ckpt := { s.ckpt with restart := some (if p.num 1 = 0 then .warm else .cold) } }) :=
  ⟨_, rfl, writeDone_of_taken h (by decide) (if_neg (Nat.not_lt.mpr hok))⟩

/-! ## The obligation -/

/-- REPLAN of a panel whose blocks can move, as the obligation states it. -/
theorem replan_takesEffect (h : Asks s 0x0A03 sid x p) (hok : ¬ s.replanBad (p.num 1)) (hreplan : s.upk.replan = none) (hswap : s.img.swap = none)
    {ts : List (Nat × Nat)} (hts : (s.freePlanes (locToEngine (p.num 1))).take 16 = ts) (hlen : 16 ≤ (s.freePlanes (locToEngine (p.num 1))).length) :
    ∃ t, execReplan sid s = .next t ∧ Replied s t sid x (replyOf p .accepted 0 [] (s.life.commit + 1))
      ∧ t.upk.replan = some { engine := locToEngine (p.num 1), targets := ts, left := ts, askedBy := some (sid, p.seq) }
      ∧ (∀ e, e ∈ ts → replanWork e ∈ t.upk.queue) ∧ (∀ w, w ∈ s.upk.queue → w ∈ t.upk.queue)
      ∧ { t with comms := s.comms, out := s.out, life := s.life, upk := s.upk } = s := by
  have htaken : ¬ ts.length < 16 := by
    rw [← hts, List.length_take]
    omega
  obtain ⟨t, ht, hdone⟩ := execReplan_begins h hok (by simp [hreplan, hswap]) hts htaken
  obtain ⟨upk, hu, hnamed, hqueue⟩ := beginReplan_eq (s.taken sid p) { engine := locToEngine (p.num 1), targets := ts, left := ts, askedBy := some (sid, p.seq) } (p.num 1)
  obtain ⟨hupk, hrest⟩ := hdone.upkeep hu
  rw [← hupk] at hnamed hqueue
  exact ⟨t, ht, hdone.1, hnamed, fun e he => (hqueue _).mpr (.inr ⟨e, he, rfl⟩), fun w hw => (hqueue w).mpr (.inl hw), hrest⟩

/-- Settles O31: each command by the rule that refuses it or the state that its own rules leave. -/
theorem serviceCommandsTakeEffect : Obligations.ServiceCommandsTakeEffect := by
  refine ⟨fun s sid x p h => ⟨execTroubleClear_word h, execTroubleClear_bits h, fun hword hbits => ?_⟩,
    fun s sid x p h => ⟨execReplan_bad h, fun hloc hstate hnew => ?_⟩,
    fun s sid x p h => ⟨execSweep_bad h, fun hloc => ?_⟩,
    fun s sid x p h => ⟨fun hkind => ?_, fun hkind ha => ?_, fun hkind ha hfull => ?_, fun hkind ha hspare => ?_, fun hkind ha hnew hfull => ?_,
      fun hkind ha hnew hroom himage => ?_,
      fun k size hkind hunit hin halign => ⟨execRetire_sram h hkind hunit hin halign, execRetire_sram_full h hkind hunit hin halign⟩⟩,
    fun s sid x p h => ?_, fun s sid x p h => ⟨execRestart_bad h, fun hok => ?_⟩⟩
  · obtain ⟨t, ht, hdone, hlogs⟩ := execTroubleClear_done h hword hbits
    exact ⟨t, ht, hdone, fun v b hv hb => by rw [hlogs]; exact clearTrouble_bit (by omega) hv hb⟩
  · have hok : ¬ s.replanBad (p.num 1) := by simp [State.replanBad, hloc, hstate, hnew]
    refine ⟨execReplan_busy h hok, fun hreplan hswap hfew => ?_, fun hreplan hswap hlen => replan_takesEffect h hok hreplan hswap rfl hlen⟩
    refine execReplan_few h hok (by simp [hreplan, hswap]) ?_
    rw [List.length_take]
    omega
  · obtain ⟨t, ht, hdone⟩ := execSweep_asks h (by simp [hloc])
    obtain ⟨upk, hu, hasked, hqueue⟩ := askSweep_eq (s.taken sid p) (locToEngine (p.num 1)) (sid, p.seq)
    obtain ⟨hupk, hrest⟩ := hdone.upkeep hu
    rw [← hupk] at hasked hqueue
    exact ⟨t, ht, hdone.1, hasked, fun k hk => (hqueue _).mpr (.inr ⟨k, List.mem_range.mpr hk, rfl⟩), fun w hw => (hqueue w).mpr (.inl hw), hrest⟩
  · exact execRetire_bad h (fun v => retireCmd_kind _ hkind) (if_pos hkind)
  · exact execRetire_bad h (fun v => by rw [hkind]; exact retireCmd_page_outside ha) (by rw [hkind]; rfl)
  · exact execRetire_refused h fun v hv => by rw [hkind]; exact retireCmd_page_full ha (by rwa [hv])
  · obtain ⟨t, ht, hdone⟩ := execRetire_done h (by rw [hkind]; exact retireCmd_page ha hspare)
    have hpage := retirePage_remaps (s := s.taken sid p) (a := p.num 2) hspare
    rw [← hdone.part State.mem fun _ _ _ => rfl, ← hdone.part State.upk fun _ _ _ => rfl] at hpage
    exact ⟨t, ht, hdone.1, hpage⟩
  · exact execRetire_refused h fun v hv => by rw [hkind]; exact retireCmd_bank_full ha (by rwa [hv]) (by rwa [hv])
  · obtain ⟨v, hv, hbanks, hdirty⟩ := retireCmd_bank (s := s.taken sid p) ha hnew hroom himage
    obtain ⟨t, ht, hdone⟩ := execRetire_done h (by rw [hkind]; exact hv)
    exact ⟨t, ht, hdone.1, (congrArg Memory.banks (hdone.part State.mem fun _ _ _ => rfl)).trans hbanks,
      (congrArg Upkeep.dirty (hdone.part State.upk fun _ _ _ => rfl)).trans hdirty⟩
  · obtain ⟨t, ht, hdone⟩ := execCheckpoint_asks h
    obtain ⟨due, staging, timer, hask, hcomes, hruns⟩ := askCkpt_eq { s.taken sid p with ckpt := { s.ckpt with asked := s.ckpt.asked ++ [(sid, p.seq)] } }
    obtain ⟨hckpt, -, hrest⟩ := hdone.checkpoint hask
    refine ⟨t, ht, hdone.1, ?_⟩
    rw [hckpt]
    exact ⟨rfl, hcomes, hruns, rfl, hrest⟩
  · obtain ⟨t, ht, hdone⟩ := execRestart_asks h hok
    obtain ⟨due, staging, timer, hask, hcomes, -⟩ :=
      askCkpt_eq { s.taken sid p with ckpt := { s.ckpt with restart := some (if p.num 1 = 0 then .warm else .cold) } }
    obtain ⟨hckpt, hlife, hrest⟩ := hdone.checkpoint hask
    refine ⟨t, ht, hdone.1, ?_, ?_, by rw [hlife]; rfl, by rw [hlife]; rfl, hrest⟩
    · rw [hckpt]
    · rw [hckpt]
      exact hcomes

end Sys2Proof.Machine
end

section
/-! Array upkeep: the work that is taken next, the journal and the operations, as far as what they leave of the planes (R160 to R165,
R186, R187). -/

namespace Sys2Proof.Machine

open Sys2Proof

variable {s t u : State}

/-! ## The work that is taken next, R174, R186 -/

theorem firstWork_eq_none {l : List Work} (h : firstWork l = none) : l = [] := by
  cases l with
  | nil => rfl
  | cons w ws =>
    unfold firstWork at h
    split at h
    · cases h
    · split_ifs at h

/-- The first work is one of the list, and none of the list comes before it. -/
theorem firstWork_first {l : List Work} {w : Work} (h : firstWork l = some w) : w ∈ l ∧ ∀ v, v ∈ l → w.prio ≤ v.prio := by
  induction l generalizing w with
  | nil => cases h
  | cons v vs ih =>
    rw [firstWork] at h
    cases hrest : firstWork vs with
    | none =>
      rw [hrest] at h
      obtain rfl : v = w := Option.some.inj h
      obtain rfl := firstWork_eq_none hrest
      simp
    | some x =>
      rw [hrest] at h
      obtain ⟨hmem, hmin⟩ := ih hrest
      dsimp only at h
      split_ifs at h with hlt <;> obtain rfl := Option.some.inj h
      · refine ⟨List.mem_cons_of_mem _ hmem, fun y hy => ?_⟩
        rcases List.mem_cons.mp hy with rfl | hy
        · exact hlt.le
        · exact hmin y hy
      · refine ⟨List.mem_cons_self, fun y hy => ?_⟩
        rcases List.mem_cons.mp hy with rfl | hy
        · exact le_rfl
        · exact (Nat.not_lt.mp hlt).trans (hmin y hy)

/-- The next work is pending and may start, and comes before all other that may start; a due sweep only with nothing else pending. -/
theorem nextWork_first {w : Work} (h : s.nextWork = some w) : w ∈ s.upk.queue ∧ s.startable w = true
    ∧ (∀ v, v ∈ s.upk.queue → s.startable v = true → w.prio ≤ v.prio) ∧ (7 ≤ w.prio → ∀ v, v ∈ s.upk.queue → 7 ≤ v.prio) := by
  obtain ⟨hmem, hmin⟩ := firstWork_first h
  simp only [List.mem_filter, Bool.and_eq_true, Bool.or_eq_true, decide_eq_true_eq, List.all_eq_true] at hmem hmin
  obtain ⟨hqueue, hstart, hsweep⟩ := hmem
  refine ⟨hqueue, hstart, fun v hv hvstart => ?_, fun h7 => hsweep.resolve_left (by omega)⟩
  by_cases hlow : v.prio < 7
  · exact hmin v ⟨hv, hvstart, .inl hlow⟩
  · rcases hsweep with hw | hall
    · omega
    · exact hmin v ⟨hv, hvstart, .inr hall⟩

theorem op_of_nextWork {w : Work} (h : s.nextWork = some w) : s.op w.engine = none := by
  obtain ⟨-, hstart, -⟩ := nextWork_first h
  simp only [State.startable, Bool.and_eq_true, Option.isNone_iff_eq_none] at hstart
  exact hstart.1.1.1.1

/-! ## The state without the journal, R187, R188 -/

/-- The state without the upkeep journal, what the store holds of the tables, and the panels on which a swap has begun. -/
def State.bare (s : State) : State :=
  { s with upk := { s.upk with
      journal := [], nextSeq := 0, stored := 0, dirty := false, storedPlanes := [], storedPanels := [], storedPlacement := [], swapOpen := none } }

theorem plane_of_bare (h : t.bare = u.bare) (n : Nat) : t.plane n = u.plane n := (congrArg (State.plane · n) h :)
theorem cells_of_bare (h : t.bare = u.bare) (n : Nat) : t.cells n = u.cells n := (congrArg (State.cells · n) h :)
theorem op_of_bare (h : t.bare = u.bare) (e : Nat) : t.op e = u.op e := (congrArg (State.op · e) h :)
theorem panel_of_bare (h : t.bare = u.bare) (e : Nat) : t.panel e = u.panel e := (congrArg (State.panel · e) h :)
theorem queue_of_bare (h : t.bare = u.bare) : t.upk.queue = u.upk.queue := (congrArg (fun v : State => v.upk.queue) h :)
theorem mem_of_bare (h : t.bare = u.bare) : t.mem = u.mem := (congrArg State.mem h :)
theorem logs_of_bare (h : t.bare = u.bare) : t.logs = u.logs := (congrArg State.logs h :)
theorem workBlock_of_bare (h : t.bare = u.bare) (w : Work) : t.workBlock w = u.workBlock w := (congrArg (State.workBlock · w) h :)

/-- Nothing but upkeep differs. -/
theorem rest_of_bare (h : t.bare = u.bare) (v : Upkeep) : { t with upk := v } = { u with upk := v } :=
  (congrArg (fun w : State => { w with upk := v }) h :)

theorem setOp_rest (s : State) (e : Nat) (r : Option OpRun) (v : Upkeep) : { s.setOp e r with upk := v } = { s with upk := v } := rfl
theorem updPlane_rest (s : State) (k : Nat) (f : PlaneEnt → PlaneEnt) (v : Upkeep) : { s.updPlane k f with upk := v } = { s with upk := v } := rfl
theorem updCells_rest (s : State) (k : Nat) (f : Cells → Cells) (v : Upkeep) : { s.updCells k f with upk := v } = { s with upk := v } := rfl

/-- An update that reads neither the journal nor the stored tables. -/
theorem bare_congr (f : State → State) (hf : ∀ v, (f v).bare = (f v.bare).bare) (h : t.bare = u.bare) : (f t).bare = (f u).bare := by
  rw [hf t, h, ← hf u]

theorem setOp_bare_congr (e : Nat) (r : Option OpRun) (h : t.bare = u.bare) : (t.setOp e r).bare = (u.setOp e r).bare :=
  bare_congr (·.setOp e r) (fun _ => rfl) h

theorem updPlane_bare_congr (k : Nat) (f : PlaneEnt → PlaneEnt) (h : t.bare = u.bare) : (t.updPlane k f).bare = (u.updPlane k f).bare :=
  bare_congr (·.updPlane k f) (fun _ => rfl) h

theorem updCells_bare_congr (k : Nat) (f : Cells → Cells) (h : t.bare = u.bare) : (t.updCells k f).bare = (u.updCells k f).bare :=
  bare_congr (·.updCells k f) (fun _ => rfl) h

@[simp] theorem journal_bare (s : State) (kind status loc arg : Nat) : (s.journal kind status loc arg).bare = s.bare := by
  obtain ⟨older, stored, dirty, planes, panels, placement, h⟩ := journal_eq s kind status loc arg
  rw [h]
  rfl

@[simp] theorem setOp_plane (e : Nat) (r : Option OpRun) (n : Nat) : (s.setOp e r).plane n = s.plane n := rfl
@[simp] theorem setOp_cells (e : Nat) (r : Option OpRun) (n : Nat) : (s.setOp e r).cells n = s.cells n := rfl
@[simp] theorem setOp_queue (e : Nat) (r : Option OpRun) : (s.setOp e r).upk.queue = s.upk.queue := rfl
@[simp] theorem withQueue_plane (q : List Work) (n : Nat) : (s.withQueue q).plane n = s.plane n := rfl
@[simp] theorem setOp_journal (e : Nat) (r : Option OpRun) : (s.setOp e r).upk.journal = s.upk.journal := rfl
@[simp] theorem setOp_nextSeq (e : Nat) (r : Option OpRun) : (s.setOp e r).upk.nextSeq = s.upk.nextSeq := rfl
@[simp] theorem updCells_journal (k : Nat) (f : Cells → Cells) : (s.updCells k f).upk.journal = s.upk.journal := rfl
@[simp] theorem updCells_nextSeq (k : Nat) (f : Cells → Cells) : (s.updCells k f).upk.nextSeq = s.upk.nextSeq := rfl
@[simp] theorem updCells_plane (k : Nat) (f : Cells → Cells) (n : Nat) : (s.updCells k f).plane n = s.plane n := rfl
@[simp] theorem updCells_queue (k : Nat) (f : Cells → Cells) : (s.updCells k f).upk.queue = s.upk.queue := rfl
@[simp] theorem updPlane_cells (k : Nat) (f : PlaneEnt → PlaneEnt) (n : Nat) : (s.updPlane k f).cells n = s.cells n := rfl

@[simp] theorem updCells_cells_same (k : Nat) (f : Cells → Cells) : (s.updCells k f).cells k = f (s.cells k) := by
  simp [State.updCells, State.cells]

theorem updCells_cells_ne {k j : Nat} (f : Cells → Cells) (h : k ≠ j) : (s.updCells k f).cells j = s.cells j := Tab.get_upd_ne _ _ _ _ h

/-- The newest record of the journal stays when the next is written: only the oldest sector is erased (R187). -/
theorem mem_journal_of_newest {j : JRec} {older : List JRec} (h : s.upk.journal = older ++ [j]) (kind status loc arg : Nat) :
    j ∈ (s.journal kind status loc arg).upk.journal := by
  refine List.mem_append_left _ ?_
  have hroom : s.journalRoom.upk.journal = s.upk.journal ∨ (1024 ≤ s.upk.journal.length ∧ s.journalRoom.upk.journal = s.upk.journal.drop 128) := by
    unfold State.journalRoom
    split
    · exact .inl rfl
    · next hfull =>
      refine .inr ⟨Nat.not_lt.mp (not_or.mp hfull).1, ?_⟩
      dsimp only
      split <;> rfl
  rcases hroom with hroom | ⟨hlen, hroom⟩ <;> rw [hroom, h]
  · simp
  · rw [h, List.length_append, List.length_singleton] at hlen
    rw [List.drop_append_of_le_length (by omega)]
    simp

/-! ## Operations, R160 to R165 -/

/-- An operation begins on a piece of work: of planes, cells and pending work nothing changes yet. -/
theorem beginOp_bare (s : State) (w : Work) :
    (s.beginOp w).bare = (s.setOp w.engine (some { work := s.asDue w, stage := (s.asDue w).op.firstStage })).bare := by
  have hswap (v : State) (c : Prop) [Decidable c] (l : Option (List Nat)) :
      State.bare (if c then { v with upk := { v.upk with swapOpen := l } } else v) = v.bare := by
    split <;> rfl
  have hengine : (s.asDue w).engine = w.engine := by
    unfold State.asDue
    split <;> rfl
  unfold State.beginOp
  dsimp only
  rw [hengine]
  refine setOp_bare_congr _ _ ((hswap _ _ _).trans ?_)
  cases (s.asDue w).op with
  | erase => exact journal_bare ..
  | program => exact journal_bare ..
  | touchUp => exact journal_bare ..
  | levelRead => rfl

theorem asDue_of_ne {w : Work} (h : w.op ≠ .touchUp) : s.asDue w = w := if_neg fun hdue => h hdue.1

/-- A program begins: its cells are to hold the levels of the golden block. -/
theorem beginProgram_bare (s : State) (w : Work) : (s.beginProgram w).bare
    = ((s.updCells (17 * w.engine + w.plane) (fun x => { x with level := (s.workBlock w).levels })).setOp w.engine
        (some { work := w, stage := .pulsing })).bare :=
  setOp_bare_congr _ _ (updCells_bare_congr _ _ (journal_bare ..))

theorem updPlane_part {α : Type} (part : PlaneEnt → α) {f : PlaneEnt → PlaneEnt} (hf : ∀ x, part (f x) = part x) (k n : Nat) :
    part ((s.updPlane k f).plane n) = part (s.plane n) := by
  by_cases hk : k = n
  · subst hk
    rw [updPlane_plane_same, hf]
  · rw [updPlane_plane_ne f hk]

/-- The block that a piece of work programs depends on no plane but for its logical number. -/
theorem updPlane_workBlock {f : PlaneEnt → PlaneEnt} (hf : ∀ x, (f x).lplane = x.lplane) (k : Nat) (w : Work) :
    (s.updPlane k f).workBlock w = s.workBlock w := by
  have hhome : (s.updPlane k f).workHome w = s.workHome w := by
    unfold State.workHome
    simp only [updPlane_part PlaneEnt.lplane hf]
    rfl
  unfold State.workBlock
  rw [hhome]
  rfl

theorem updPlane_logical {f : PlaneEnt → PlaneEnt} (hf : ∀ x, (f x).lplane = x.lplane) (k e p : Nat) :
    (s.updPlane k f).logical e p = s.logical e p := by
  unfold State.logical
  rw [updPlane_part PlaneEnt.lplane hf]

theorem tempOk_of_temps (htemps : t.temps = s.temps) (hexcluded : t.excluded = s.excluded) (w : Work) : t.tempOk w = s.tempOk w := by
  have harray (c : Nat) : t.arrayTemp c = s.arrayTemp c := by
    unfold State.arrayTemp State.temp
    rw [htemps, hexcluded]
  have hin (e : Nat) (lo hi : Int) : t.tempIn e lo hi = s.tempIn e lo hi := by
    unfold State.tempIn
    rw [harray]
  unfold State.tempOk
  cases w.op <;> exact hin ..

/-- A finished piece of work that nothing waits for. -/
theorem workDone_of_plain {w : Work} (hwhy : w.why = .overdue ∨ w.why = .touchUp) : ∃ operated,
    s.workDone w = { s with upk := { s.upk with ops := Tab.set none s.upk.ops w.engine none, operated := operated } } := by
  unfold State.workDone
  rcases hwhy with hwhy | hwhy <;> rw [hwhy] <;> dsimp only <;> split
  · exact ⟨s.upk.operated, rfl⟩
  · exact ⟨_, rfl⟩
  · exact ⟨s.upk.operated, rfl⟩
  · exact ⟨_, rfl⟩

/-! ## Copies in the away region, R183 -/

/-- `t` is `s` but for copies that were made in the away region. -/
def Copied (s t : State) : Prop :=
  (∃ copies mem, t = { s with upk := { s.upk with copies := copies }, mem := mem })
    ∧ ∀ (sp : Space) (x : Nat), ¬ (sp = .board ∧ inAway x = true) → t.mem.read sp x = s.mem.read sp x

theorem copied_refl (s : State) : Copied s s := ⟨⟨s.upk.copies, s.mem, rfl⟩, fun _ _ _ => rfl⟩

theorem Copied.trans (h : Copied s t) (g : Copied t u) : Copied s u := by
  obtain ⟨⟨copies, mem, rfl⟩, hread⟩ := h
  obtain ⟨⟨copies', mem', rfl⟩, hread'⟩ := g
  exact ⟨⟨copies', mem', rfl⟩, fun sp x hx => (hread' sp x hx).trans (hread sp x hx)⟩

theorem copied_each {α : Type} {f : State → α → State} (hf : ∀ s n, Copied s (f s n)) (l : List α) (s : State) : Copied s (s.each l f) := by
  induction l generalizing s with
  | nil => exact copied_refl s
  | cons n ns ih => exact (hf s n).trans (ih _)

theorem updMem_withCopies (s : State) (f : Memory → Memory) (copies : List AwayCopy) :
    { s.updMem f with upk := { (s.updMem f).upk with copies := copies } } = { s with upk := { s.upk with copies := copies }, mem := f s.mem } := rfl

/-- A copy is a free place of the away region written, and a place more that is taken. -/
theorem copied_copyBlock (s : State) (slot e lp : Nat) : Copied s (s.copyBlock slot e lp) := by
  unfold State.copyBlock
  cases ((s.imgSlot slot).image).bind (fun i => i.blockOn e lp) with
  | none => exact copied_refl s
  | some b =>
    dsimp only
    split
    · exact copied_refl s
    · cases hplace : freePlace s.upk.copies b.copyBytes.length with
      | none => exact copied_refl s
      | some a =>
        obtain ⟨hlo, hhi⟩ := freePlace_bounds hplace
        refine ⟨⟨_, _, updMem_withCopies s _ _⟩, fun sp x hx => read_store_outside s.mem _ fun ⟨hsp, hge, hlt⟩ => ?_⟩
        exact hx ⟨hsp, inAway_of_bounds (hlo.trans hge) (hlt.trans_le hhi)⟩

theorem copied_copyPanel (s : State) (e : Nat) : Copied s (s.copyPanel e) := by
  unfold State.copyPanel
  split
  · exact copied_refl s
  · refine copied_each (fun v lp => ?_) _ s
    split
    · exact copied_copyBlock ..
    · exact copied_refl v

end Sys2Proof.Machine
end

section
/-! UPKEEP_START, AWAY_COPY_DONE and RELAX_WAIT_EXPIRE (R103, R161, R165, R183, R186). -/

namespace Sys2Proof.Machine

open Sys2Proof

variable {s u : State}

/-! ## UPKEEP_START -/

theorem resumeOp_of_idle {e : Nat} (h : s.op e = none) : s.resumeOp e = none := by rw [State.resumeOp, h]

/-- The work is taken from the queue. -/
def State.unqueue (s : State) (w : Work) : State := { s.wake with upk := { s.upk with queue := s.upk.queue.erase w } }

theorem unqueue_needsCopy (w : Work) (e : Nat) : (s.unqueue w).needsCopy e = s.needsCopy e := rfl

theorem unqueue_asDue (w v : Work) : (s.unqueue w).asDue v = s.asDue v := rfl

theorem execUpkeepStart_takes {w : Work} (hfw : s.fwUp = true) (hnext : s.nextWork = some w) : execUpkeepStart w.engine s
    = if (upDoms w.engine).any (fun d => !s.wake.domOn d) then .next ((upDoms w.engine).foldl (fun s d => s.upkeepPower w.prio d) s.wake)
      else if (s.unqueue w).needsCopy w.engine then .next ((s.unqueue w).setOp w.engine (some { work := w, stage := .copying }))
      else .next ((s.unqueue w).beginOp w) := by
  unfold execUpkeepStart State.unqueue
  simp [hfw, resumeOp_of_idle (op_of_nextWork hnext), hnext]

/-- Power that upkeep asks for changes domains and clocks only. -/
theorem upkeepPower_keeps (s : State) (prio : Nat) (d : Dom) :
    ((s.upkeepPower prio d).upk, (s.upkeepPower prio d).engines, (s.upkeepPower prio d).mem) = (s.upk, s.engines, s.mem) := by
  have hwake : ((s.wakeDom d).upk, (s.wakeDom d).engines, (s.wakeDom d).mem) = (s.upk, s.engines, s.mem) := by
    cases d with
    | coreGroup g => unfold State.wakeDom; dsimp only; split <;> rfl
    | _ => rfl
  unfold State.upkeepPower
  split
  · rfl
  · split
    · exact hwake
    · rfl

theorem wake_keeps (s : State) : (s.wake.upk, s.wake.engines, s.wake.mem) = (s.upk, s.engines, s.mem) := by
  unfold State.wake
  split <;> rfl

theorem execUpkeepStart_power {w : Work} (hfw : s.fwUp = true) (hnext : s.nextWork = some w)
    (hoff : ∃ d, d ∈ upDoms w.engine ∧ s.wake.domOn d = false) :
    ∃ t, execUpkeepStart w.engine s = .next t ∧ t.upk = s.upk ∧ t.engines = s.engines ∧ t.mem = s.mem := by
  obtain ⟨d, hd, hoff⟩ := hoff
  refine ⟨_, (execUpkeepStart_takes hfw hnext).trans (if_pos (List.any_eq_true.mpr ⟨d, hd, by simp [hoff]⟩)), ?_⟩
  have hkeeps := (foldl_part (fun v : State => (v.upk, v.engines, v.mem)) (fun v d => upkeepPower_keeps v w.prio d) (upDoms w.engine) s.wake).trans (wake_keeps s)
  simpa only [Prod.mk.injEq] using hkeeps

section
variable {w : Work} (hfw : s.fwUp = true) (hnext : s.nextWork = some w) (hon : ∀ d, d ∈ upDoms w.engine → s.wake.domOn d = true)
include hfw hnext hon

theorem execUpkeepStart_copies (hcopy : s.needsCopy w.engine = true) : execUpkeepStart w.engine s
    = .next { s.wake with upk := { s.upk with
        queue := s.upk.queue.erase w, ops := Tab.set none s.upk.ops w.engine (some { work := w, stage := .copying }) } } :=
  (execUpkeepStart_takes hfw hnext).trans ((if_neg (by simpa using hon)).trans (if_pos hcopy))

theorem execUpkeepStart_begins (hcopy : s.needsCopy w.engine = false) :
    ∃ t, execUpkeepStart w.engine s = .next t ∧ t.upk.queue = s.upk.queue.erase w
      ∧ t.op w.engine = some { work := s.asDue w, stage := (s.asDue w).op.firstStage }
      ∧ (∀ e, e ≠ w.engine → t.op e = s.op e) ∧ { t with upk := s.upk } = s.wake := by
  have hbare := beginOp_bare (s.unqueue w) w
  have hcopy' : (s.unqueue w).needsCopy w.engine = s.needsCopy w.engine := unqueue_needsCopy ..
  have hdue : (s.unqueue w).asDue w = s.asDue w := unqueue_asDue ..
  refine ⟨_, (execUpkeepStart_takes hfw hnext).trans ((if_neg (by simpa using hon)).trans (if_neg (by simp [hcopy', hcopy]))),
    queue_of_bare hbare, ?_, fun e he => ?_, (rest_of_bare hbare s.upk).trans ?_⟩
  · rw [op_of_bare hbare, State.setOp_op_same, hdue]
  · rw [op_of_bare hbare, State.setOp_op_ne _ _ _ _ (Ne.symm he)]
    rfl
  · rw [← wake_upk s]
    rfl
end

theorem execUpkeepStart_elsewhere {w : Work} {e : Nat} (hfw : s.fwUp = true) (hnext : s.nextWork = some w) (he : e ≠ w.engine) (hidle : s.op e = none) :
    execUpkeepStart e s = .next s := by
  unfold execUpkeepStart
  simp [hfw, resumeOp_of_idle hidle, hnext, Ne.symm he]

/-- A program that waited for its temperature goes on to its pulses (R103). -/
theorem execUpkeepStart_resumes {e : Nat} {r : OpRun} (hop : s.op e = some r) (hstage : r.stage = .waiting) (hfw : s.fwUp = true)
    (htemp : s.tempIn e 300 700 = true) (he : r.work.engine = e) :
    ∃ t, execUpkeepStart e s = .next t ∧ t.op e = some { work := r.work, stage := .pulsing }
      ∧ (t.cells (17 * e + r.work.plane)).level = (s.workBlock r.work).levels ∧ t.upk.queue = s.upk.queue ∧ { t with upk := s.upk } = s := by
  subst he
  have hresume : s.resumeOp r.work.engine = some (s.beginProgram r.work) := by
    rw [State.resumeOp, hop]
    exact if_pos ⟨hstage, htemp⟩
  have hexec : execUpkeepStart r.work.engine s = .next (s.beginProgram r.work) := by
    unfold execUpkeepStart
    simp [hfw, hresume]
  have hbare := beginProgram_bare s r.work
  generalize s.beginProgram r.work = t at hexec hbare
  refine ⟨t, hexec, ?_, ?_, ?_, (rest_of_bare hbare s.upk).trans ((setOp_rest ..).trans (updCells_rest ..))⟩
  · rw [op_of_bare hbare, State.setOp_op_same]
  · rw [cells_of_bare hbare, setOp_cells, updCells_cells_same]
  · rw [queue_of_bare hbare, setOp_queue, updCells_queue]

/-! ## AWAY_COPY_DONE and RELAX_WAIT_EXPIRE -/

/-- The operation begins once the panel's blocks are copied. -/
theorem Copied.away (h : Copied s u) (w : Work) :
    let t := (u.updPanel w.engine (fun p => { p with pstate := 2, awayWhy := w.op.away })).beginOp w
    t.panel w.engine = { s.panel w.engine with pstate := 2, awayWhy := w.op.away }
      ∧ t.op w.engine = some { work := s.asDue w, stage := (s.asDue w).op.firstStage } ∧ t.upk.queue = s.upk.queue
      ∧ (∀ (sp : Space) (x : Nat), ¬ (sp = .board ∧ inAway x = true) → t.mem.read sp x = s.mem.read sp x)
      ∧ { t with upk := s.upk, mem := s.mem } = s := by
  intro t
  have hbare : t.bare = _ := beginOp_bare (u.updPanel w.engine (fun p => { p with pstate := 2, awayWhy := w.op.away })) w
  have hdue : (u.updPanel w.engine (fun p => { p with pstate := 2, awayWhy := w.op.away })).asDue w = s.asDue w := by
    obtain ⟨⟨copies, mem, rfl⟩, -⟩ := h
    rfl
  have hmem : t.mem = u.mem := (mem_of_bare hbare).trans rfl
  have hqueue : t.upk.queue = u.upk.queue := (queue_of_bare hbare).trans rfl
  have hpanel : t.panel w.engine = { u.panel w.engine with pstate := 2, awayWhy := w.op.away } :=
    (panel_of_bare hbare w.engine).trans
      (updPanel_panel_same (s := u) w.engine (fun p => { p with pstate := 2, awayWhy := w.op.away }))
  have hrest : { t with upk := s.upk } = { u with upk := s.upk } := (rest_of_bare hbare s.upk).trans rfl
  refine ⟨?_, ?_, ?_, fun sp x hx => ?_, ?_⟩
  · rw [hpanel]
    obtain ⟨⟨copies, mem, rfl⟩, -⟩ := h
    rfl
  · rw [op_of_bare hbare, State.setOp_op_same, hdue]
  · rw [hqueue]
    obtain ⟨⟨copies, mem, rfl⟩, -⟩ := h
    rfl
  · rw [hmem]
    exact h.2 sp x hx
  · refine (congrArg (fun v : State => { v with mem := s.mem }) hrest).trans ?_
    obtain ⟨⟨copies, mem, rfl⟩, -⟩ := h
    rfl

theorem execAwayCopyDone_away {e : Nat} {r : OpRun} (hop : s.op e = some r) (hstage : r.stage = .copying) (hbusy : s.panelBusy e = false)
    (htemp : s.tempOk r.work = true) (he : r.work.engine = e) :
    ∃ t, execAwayCopyDone e s = .next t ∧ t.panel e = { s.panel e with pstate := 2, awayWhy := r.work.op.away }
      ∧ t.op e = some { work := s.asDue r.work, stage := (s.asDue r.work).op.firstStage } ∧ t.upk.queue = s.upk.queue
      ∧ (∀ (sp : Space) (x : Nat), ¬ (sp = .board ∧ inAway x = true) → t.mem.read sp x = s.mem.read sp x)
      ∧ { t with upk := s.upk, mem := s.mem } = s := by
  subst he
  have hexec : execAwayCopyDone r.work.engine s = .next (((s.copyPanel r.work.engine).updPanel r.work.engine
      (fun p => { p with pstate := 2, awayWhy := r.work.op.away })).beginOp r.work) := by
    unfold execAwayCopyDone
    simp [hop, hstage, hbusy, htemp]
  obtain ⟨hpanel, hop', hqueue, hread, hrest⟩ := (copied_copyPanel s r.work.engine).away r.work
  exact ⟨_, hexec, hpanel, hop', hqueue, hread, hrest⟩

theorem execAwayCopyDone_waits {e : Nat} {r : OpRun} (hop : s.op e = some r) (hwait : s.panelBusy e = true ∨ s.tempOk r.work = false) :
    execAwayCopyDone e s = .next s := by
  have hnot : ¬ (r.stage = .copying ∧ s.panelBusy e = false ∧ s.tempOk r.work = true) := by
    rcases hwait with h | h <;> simp [h]
  unfold execAwayCopyDone
  rw [hop]
  exact if_neg hnot

theorem execRelaxWaitExpire_verifies {e : Nat} {r : OpRun} (hop : s.op e = some r) (hstage : r.stage = .relaxing) :
    execRelaxWaitExpire e s = .next (s.setOp e (some { r with stage := .verifying })) := by
  unfold execRelaxWaitExpire
  rw [hop]
  exact if_pos hstage

end Sys2Proof.Machine
end

section
/-! What a failed operation leaves: the plane's fail flag, a second try, and the sparing of a plane that fails twice (R162, R178 to
R181). -/

namespace Sys2Proof.Machine

open Sys2Proof

variable {s : State} {r : OpRun} {kind : Nat}

/-! ## The fail flag, R162, R178 -/

/-- The number of the plane that an operation runs on. -/
def OpRun.planeNo (r : OpRun) : Nat := 17 * r.work.engine + r.work.plane

/-- The entry of a plane on which an operation has failed; the erase of a piece of work that counts is counted. -/
def PlaneEnt.flagged (x : PlaneEnt) (counted : Prop) [Decidable counted] : PlaneEnt :=
  { x with fails := min 15 (x.fails + 1), erases := if counted then min 2047 (x.erases + 1) else x.erases }

/-- The plane's fail flag is set, with its record and its trouble bit. -/
def State.flagged (s : State) (r : OpRun) (kind : Nat) : State :=
  ((s.updPlane r.planeNo (·.flagged (kind = 2 ∧ r.work.counts = true))).journal kind 1 (locPlane r.work.engine r.work.plane) r.pulses).trouble
    1 17 (locPlane r.work.engine r.work.plane) 0 0xFF []

theorem planeFails_eq (s : State) (r : OpRun) (kind : Nat) : s.planeFails r kind
    = if r.work.retry then ((s.flagged r kind).setOp r.work.engine none).sparePlane r.work
      else if (s.flagged r kind).tempOk r.work then (s.flagged r kind).beginOp { r.work with retry := true }
      else ((s.flagged r kind).setOp r.work.engine none).pushWork { r.work with retry := true } := rfl

theorem flagged_plane (n : Nat) : (s.flagged r kind).plane n = (s.updPlane r.planeNo (·.flagged (kind = 2 ∧ r.work.counts = true))).plane n :=
  (plane_of_planes (congrArg Upkeep.planes (State.trouble_upk ..)) n).trans (plane_of_bare (journal_bare ..) n)

theorem flagged_panel (e : Nat) : (s.flagged r kind).panel e = s.panel e := by
  have hpanels : (s.flagged r kind).upk.panels = _ := congrArg Upkeep.panels (State.trouble_upk ..)
  rw [State.panel, hpanels]
  exact panel_of_bare (journal_bare ..) e

theorem flagged_logical (e p : Nat) : (s.flagged r kind).logical e p = s.logical e p := by
  unfold State.logical
  rw [congrArg PlaneEnt.lplane (flagged_plane _),
    updPlane_part PlaneEnt.lplane (f := (·.flagged (kind = 2 ∧ r.work.counts = true))) (fun _ => rfl)]

theorem flagged_rest : { s.flagged r kind with life := s.life, logs := s.logs, comms := s.comms, out := s.out, upk := s.upk } = s := by
  obtain ⟨c, d, lo, co, ou, h⟩ := trouble_parts ((s.updPlane r.planeNo (·.flagged (kind = 2 ∧ r.work.counts = true))).journal kind 1
    (locPlane r.work.engine r.work.plane) r.pulses) 1 17 (locPlane r.work.engine r.work.plane) 0 0xFF []
  have hrest := rest_of_bare (journal_bare (s.updPlane r.planeNo (·.flagged (kind = 2 ∧ r.work.counts = true))) kind 1
    (locPlane r.work.engine r.work.plane) r.pulses) s.upk
  rw [State.flagged, h]
  exact congrArg (fun v : State => { v with life := s.life, logs := s.logs, comms := s.comms, out := s.out }) hrest

@[simp] theorem flagged_mem : (s.flagged r kind).mem = s.mem := (congrArg State.mem flagged_rest :)

theorem flagged_tempOk (w : Work) : (s.flagged r kind).tempOk w = s.tempOk w :=
  tempOk_of_temps (congrArg State.temps flagged_rest :) (congrArg State.excluded flagged_rest :) w

theorem flagged_bit : ((s.flagged r kind).logs.word 1).getLsbD 17 = true := by
  rw [State.flagged, State.trouble_word _ _ _ _ _ _ _ _ _ (by decide) (by decide) (by decide)]
  simp

/-- The first failure of a program: it is tried once more, from its erase. -/
theorem planeFails_first (hop : r.work.op = .program) (hretry : r.work.retry = false) (htemp : s.tempOk r.work = true) :
    let t := s.planeFails r kind
    t.op r.work.engine = some { work := { r.work with retry := true }, stage := .erasing }
      ∧ t.plane r.planeNo = (s.plane r.planeNo).flagged (kind = 2 ∧ r.work.counts = true)
      ∧ (t.logs.word 1).getLsbD 17 = true ∧ t.mem = s.mem := by
  intro t
  have ht : t = (s.flagged r kind).beginOp { r.work with retry := true } :=
    (planeFails_eq s r kind).trans ((if_neg (by simp [hretry])).trans (if_pos (by rwa [flagged_tempOk])))
  have hdue : (s.flagged r kind).asDue { r.work with retry := true } = { r.work with retry := true } := asDue_of_ne (by simp [hop])
  have hbare := beginOp_bare (s.flagged r kind) { r.work with retry := true }
  rw [← ht, hdue] at hbare
  refine ⟨?_, ?_, ?_, (mem_of_bare hbare).trans flagged_mem⟩
  · rw [op_of_bare hbare, State.setOp_op_same, hop]
    rfl
  · rw [plane_of_bare hbare]
    exact (flagged_plane _).trans (updPlane_plane_same ..)
  · rw [logs_of_bare hbare]
    exact flagged_bit

/-! ## Sparing, R179 to R181 -/

/-- What a sparing leaves of a plane and of the operations: its state, what runs on each engine, and the bit of plane failures. -/
def State.failView (s : State) (k : Nat) : Nat × Tab (Option OpRun) × Bool := ((s.plane k).state, s.upk.ops, (s.logs.word 1).getLsbD 17)

section
variable (s) (k : Nat)

theorem failView_of {t : State} (hplanes : t.upk.planes = s.upk.planes) (hops : t.upk.ops = s.upk.ops) (hlogs : t.logs = s.logs) :
    t.failView k = s.failView k := by
  unfold State.failView
  rw [plane_of_planes hplanes, hops, hlogs]

theorem updPlane_failView {f : PlaneEnt → PlaneEnt} (hf : ∀ x, (f x).state = x.state) (j : Nat) : (s.updPlane j f).failView k = s.failView k := by
  unfold State.failView
  rw [updPlane_part PlaneEnt.state hf]
  rfl

theorem pushWork_failView (w : Work) : (s.pushWork w).failView k = s.failView k := by
  obtain ⟨q, h, -⟩ := pushWork_eq s w
  rw [h]
  rfl

theorem retirePanel_failView (e : Nat) : (s.retirePanel e).failView k = s.failView k := by
  have hdone (v : State) (j : Nat) : (v.swapPanelDone j).failView k = v.failView k := by
    unfold State.swapPanelDone
    split <;> rfl
  have htrouble (v : State) (loc : Nat) (l : List Nat) : (v.trouble 1 16 loc 0 0xFF l).failView k = v.failView k := by
    unfold State.failView
    rw [State.trouble_word _ _ _ _ _ _ _ _ _ (by decide) (by decide) (by decide), plane_of_planes (congrArg Upkeep.planes (State.trouble_upk ..)),
      State.trouble_upk]
    simp
  have hjournal (v : State) (loc : Nat) : (v.journal 0x0A 0 loc 0).failView k = v.failView k := by
    obtain ⟨older, stored, dirty, planes, panels, placement, h⟩ := journal_eq v 0x0A 0 loc 0
    rw [h]
    rfl
  obtain ⟨⟨copies, mem, hcopy⟩, -⟩ := copied_copyPanel s e
  have haway (f : Panel → Panel) : ((s.copyPanel e).updPanel e f).failView k = s.failView k := by
    rw [hcopy]
    rfl
  unfold State.retirePanel
  rw [hdone, htrouble]
  exact (hjournal _ (locEngine e)).trans (haway _)

theorem spareEngine_failView (e : Nat) (w : Work) : (s.spareEngine e w).failView k = s.failView k := by
  refine (each_part (State.failView · k) (fun v i => ?_) _ _).trans (failView_of s k rfl rfl rfl)
  refine (pushWork_failView _ k _).trans ?_
  exact updPlane_failView v k (by exact fun _ => rfl) _

/-- Whatever step of Table 5.3 applies, the plane has failed, and no operation begins. -/
theorem sparePlane_failView (w : Work) : (s.sparePlane w).failView (17 * w.engine + w.plane)
    = (s.updPlane (17 * w.engine + w.plane) (fun x => { x with state := 4 })).failView (17 * w.engine + w.plane) := by
  unfold State.sparePlane
  dsimp only
  split
  · refine (pushWork_failView _ _ _).trans ?_
    exact updPlane_failView _ _ (by exact fun _ => rfl) _
  · split
    · exact spareEngine_failView _ _ _ _
    · split
      · exact (retirePanel_failView _ _ _).trans (failView_of _ _ rfl rfl rfl)
      · exact retirePanel_failView _ _ _
end

/-- The programming of plane 16 in the place of a plane that failed. -/
def spareWork (w : Work) : Work := { prio := 2, engine := w.engine, plane := 16, op := .program, why := .spare, newImage := w.newImage }

/-- The panel's own spare plane takes the place of the plane. -/
theorem sparePlane_own {w : Work} (hplane : w.plane ≠ 16) (hfree : (s.panel w.engine).plane16 = false) :
    (s.sparePlane w).mem = s.mem
      ∧ ((s.sparePlane w).plane (17 * w.engine + 16)).lplane = (s.logical w.engine w.plane).getD w.plane ∧ spareWork w ∈ (s.sparePlane w).upk.queue := by
  have heq : s.sparePlane w = ((s.updPlane (17 * w.engine + w.plane) (fun x => { x with state := 4 })).updPlane (17 * w.engine + 16)
      (fun x => { x with lplane := (s.logical w.engine w.plane).getD w.plane })).pushWork (spareWork w) := by
    have hlp : (if w.plane = 16 then (s.plane (17 * w.engine + 16)).lplane else (s.logical w.engine w.plane).getD w.plane)
        = (s.logical w.engine w.plane).getD w.plane := if_neg hplane
    unfold State.sparePlane
    dsimp only
    rw [if_pos ⟨hplane, hfree⟩, hlp]
    rfl
  obtain ⟨q, hpush, hq⟩ := pushWork_eq ((s.updPlane (17 * w.engine + w.plane) (fun x => { x with state := 4 })).updPlane (17 * w.engine + 16)
      (fun x => { x with lplane := (s.logical w.engine w.plane).getD w.plane })) (spareWork w)
  rw [heq, hpush]
  refine ⟨rfl, ?_, (hq _).mpr (.inr rfl)⟩
  rw [withQueue_plane, updPlane_plane_same]

/-- The second failure of a piece of work: the plane has failed, and where the panel's own spare plane is free it is written in its
place. -/
theorem planeFails_again (hretry : r.work.retry = true) :
    let t := s.planeFails r kind
    t.op r.work.engine = none ∧ (t.plane r.planeNo).state = 4 ∧ (t.logs.word 1).getLsbD 17 = true
      ∧ (r.work.plane ≠ 16 → (s.panel r.work.engine).plane16 = false → t.mem = s.mem
        ∧ (t.plane (17 * r.work.engine + 16)).lplane = (s.logical r.work.engine r.work.plane).getD r.work.plane ∧ spareWork r.work ∈ t.upk.queue) := by
  intro t
  have ht : t = ((s.flagged r kind).setOp r.work.engine none).sparePlane r.work := (planeFails_eq s r kind).trans (if_pos hretry)
  have hview := sparePlane_failView ((s.flagged r kind).setOp r.work.engine none) r.work
  rw [← ht] at hview
  simp only [State.failView, Prod.mk.injEq] at hview
  obtain ⟨hstate, hops, hbit⟩ := hview
  refine ⟨?_, hstate.trans (congrArg PlaneEnt.state (updPlane_plane_same ..)), hbit.trans flagged_bit, fun hplane hfree => ?_⟩
  · rw [State.op, hops]
    exact State.setOp_op_same (s.flagged r kind) r.work.engine none
  · obtain ⟨hmem, hlplane, hqueue⟩ := sparePlane_own (s := (s.flagged r kind).setOp r.work.engine none) hplane ((congrArg Panel.plane16 (flagged_panel _)).trans hfree)
    rw [← ht] at hmem hlplane hqueue
    exact ⟨hmem.trans flagged_mem, hlplane.trans (congrArg (Option.getD · _) (flagged_logical ..)), hqueue⟩

/-- A touch-up that has ended short of success becomes a rewrite (R163). -/
theorem pulsesFail_touchUp (hop : r.work.op = .touchUp) (htemp : s.tempIn r.work.engine (-200) 1000 = true) :
    (s.pulsesFail r).bare = (s.setOp r.work.engine (some { work := { r.work with op := .program }, stage := .erasing })).bare := by
  have hjournal := journal_bare s 0x06 0 (locPlane r.work.engine r.work.plane) r.pulses
  have hrest := rest_of_bare hjournal s.upk
  have htemp' : (s.journal 0x06 0 (locPlane r.work.engine r.work.plane) r.pulses).tempOk { r.work with op := .program } = true :=
    (tempOk_of_temps (s := s) (congrArg State.temps hrest :) (congrArg State.excluded hrest :) { r.work with op := .program }).trans htemp
  have heq : s.pulsesFail r = (s.journal 0x06 0 (locPlane r.work.engine r.work.plane) r.pulses).beginOp { r.work with op := .program } :=
    (if_pos hop).trans (if_pos htemp')
  have hdue : (s.journal 0x06 0 (locPlane r.work.engine r.work.plane) r.pulses).asDue { r.work with op := .program } = { r.work with op := .program } :=
    asDue_of_ne (by simp)
  rw [heq, beginOp_bare, hdue]
  exact setOp_bare_congr _ _ hjournal

theorem pulsesFail_program (hop : r.work.op = .program) : s.pulsesFail r = s.planeFails r 0x04 := if_neg (by simp [hop])

end Sys2Proof.Machine
end

section
/-! ERASE_DONE, PROGRAM_PASS_DONE and FINAL_VERIFY_DONE (R160 to R164, R172, R177, R178). -/

namespace Sys2Proof.Machine

open Sys2Proof

variable {s t : State}

/-! ## An erase that passes, R162, R178, R187 -/

/-- The entry of a plane whose erase has passed. -/
def PlaneEnt.blanked (x : PlaneEnt) (counted : Bool) : PlaneEnt :=
  { x with erases := if counted then min 2047 (x.erases + 1) else x.erases, touchups := 0, fails := 0 }

/-- The plane's cells are blank and its entry says so; what the journal is to say of it is not yet written. -/
def State.erasedAs (s : State) (w : Work) (x : Cells) : State :=
  (s.updCells (17 * w.engine + w.plane) (fun _ => x)).updPlane (17 * w.engine + w.plane) (·.blanked w.counts)

/-- An erase has passed: it is journalled. -/
def State.blanked (s : State) (w : Work) (x : Cells) (used : Nat) : State := (s.erasedAs w x).journal 0x02 0 (locPlane w.engine w.plane) used

@[simp] theorem erasedAs_plane (w : Work) (x : Cells) :
    (s.erasedAs w x).plane (17 * w.engine + w.plane) = (s.plane (17 * w.engine + w.plane)).blanked w.counts := updPlane_plane_same ..

theorem erasedAs_plane_ne {w : Work} {x : Cells} {n : Nat} (h : n ≠ 17 * w.engine + w.plane) : (s.erasedAs w x).plane n = s.plane n :=
  updPlane_plane_ne _ (Ne.symm h)

@[simp] theorem erasedAs_cells (w : Work) (x : Cells) : (s.erasedAs w x).cells (17 * w.engine + w.plane) = x := by
  rw [State.erasedAs, updPlane_cells, updCells_cells_same]

theorem erasedAs_cells_ne {w : Work} {x : Cells} {n : Nat} (h : n ≠ 17 * w.engine + w.plane) : (s.erasedAs w x).cells n = s.cells n := by
  rw [State.erasedAs, updPlane_cells, updCells_cells_ne _ (Ne.symm h)]

@[simp] theorem erasedAs_queue (w : Work) (x : Cells) : (s.erasedAs w x).upk.queue = s.upk.queue := rfl

theorem erasedAs_rest (w : Work) (x : Cells) (v : Upkeep) : { s.erasedAs w x with upk := v } = { s with upk := v } := rfl

theorem erasedAs_workBlock (w : Work) (x : Cells) : (s.erasedAs w x).workBlock w = s.workBlock w := by
  rw [State.erasedAs, updPlane_workBlock (by exact fun _ => rfl)]
  rfl

theorem blanked_bare (w : Work) (x : Cells) (used : Nat) : (s.blanked w x used).bare = (s.erasedAs w x).bare := journal_bare ..

theorem tempIn_of_bare {u : State} (h : t.bare = u.bare) (e : Nat) (lo hi : Int) : t.tempIn e lo hi = u.tempIn e lo hi :=
  (congrArg (State.tempIn · e lo hi) h :)

theorem erasedAs_tempIn (w : Work) (x : Cells) (e : Nat) (lo hi : Int) : (s.erasedAs w x).tempIn e lo hi = s.tempIn e lo hi := rfl

theorem blanked_tempIn (w : Work) (x : Cells) (used e : Nat) (lo hi : Int) : (s.blanked w x used).tempIn e lo hi = s.tempIn e lo hi :=
  (tempIn_of_bare (blanked_bare w x used) e lo hi).trans (erasedAs_tempIn ..)

section
variable {r : OpRun} {moved : List (Tab Int)} {x : Cells} {used pulses : Nat} (hop : s.op r.work.engine = some r) (hstage : r.stage = .erasing)
  (hpulses : erasePulses (s.cells (17 * r.work.engine + r.work.plane)) r.pulses (pulseMoves moved pulses) = (x, used))
include hop hstage hpulses

theorem execEraseDone_falls (hfall : used = 0 ∨ x.erased = false) : execEraseDone r.work.engine moved pulses s
    = if 8 ≤ used then .next ((s.updCells (17 * r.work.engine + r.work.plane) (fun _ => x)).planeFails { r with pulses := used } 0x02)
      else .next ((s.updCells (17 * r.work.engine + r.work.plane) (fun _ => x)).setOp r.work.engine (some { r with pulses := used })) := by
  unfold execEraseDone
  simp only [hop, hstage, hpulses, ne_eq, not_true_eq_false, if_false]
  exact if_pos hfall

section
variable (hused : used ≠ 0) (herased : x.erased = true)
include hused herased

theorem execEraseDone_programs (hwork : r.work.op = .program) : execEraseDone r.work.engine moved pulses s
    = if (s.blanked r.work x used).tempIn r.work.engine 300 700 then .next ((s.blanked r.work x used).beginProgram r.work)
      else .next ((s.blanked r.work x used).setOp r.work.engine (some { work := r.work, stage := .waiting })) := by
  have hpass : ¬ (used = 0 ∨ x.erased = false) := by simp [hused, herased]
  unfold execEraseDone
  simp only [hop, hstage, hpulses, hwork, ne_eq, not_true_eq_false, if_false, if_neg hpass]
  rfl

theorem execEraseDone_ends (hwork : r.work.op = .erase) : execEraseDone r.work.engine moved pulses s
    = .next (((s.blanked r.work x used).updPlane (17 * r.work.engine + r.work.plane)
        (fun y => if y.state = 1 then { y with state := 0, lplane := 31 } else y)).workDone r.work) := by
  have hpass : ¬ (used = 0 ∨ x.erased = false) := by simp [hused, herased]
  unfold execEraseDone
  simp only [hop, hstage, hpulses, hwork, ne_eq, not_true_eq_false, if_false, if_neg hpass]
  rfl

end
end

theorem journal_appends (s : State) (kind status loc arg : Nat) : ∃ older, (s.journal kind status loc arg).upk.journal
    = older ++ [{ kind := kind, status := status, loc := loc, seq := s.upk.nextSeq, poc := s.life.poc, arg := arg % 2 ^ 32 }] := by
  obtain ⟨older, stored, dirty, planes, panels, placement, h⟩ := journal_eq s kind status loc arg
  exact ⟨older, congrArg (fun v : State => v.upk.journal) h⟩

theorem journal_nextSeq (s : State) (kind status loc arg : Nat) : (s.journal kind status loc arg).upk.nextSeq = s.upk.nextSeq + 1 := rfl

/-- A program begins with its intent in the journal. -/
theorem beginProgram_eq (s : State) (w : Work) : ∃ arg, s.beginProgram w = ((s.journal 0x03 0 (locPlane w.engine w.plane) arg).updCells
    (17 * w.engine + w.plane) (fun x => { x with level := (s.workBlock w).levels })).setOp w.engine (some { work := w, stage := .pulsing }) := ⟨_, rfl⟩

theorem beginProgram_journal (s : State) (w : Work) : ∃ arg,
    (s.beginProgram w).upk.journal = (s.journal 0x03 0 (locPlane w.engine w.plane) arg).upk.journal := by
  obtain ⟨arg, h⟩ := beginProgram_eq s w
  exact ⟨arg, by rw [h, setOp_journal, updCells_journal]⟩

theorem mem_beginProgram_journal {j : JRec} {older : List JRec} (h : s.upk.journal = older ++ [j]) (w : Work) : j ∈ (s.beginProgram w).upk.journal := by
  obtain ⟨arg, harg⟩ := beginProgram_journal s w
  rw [harg]
  exact mem_journal_of_newest h ..

theorem beginProgram_nextSeq (s : State) (w : Work) : (s.beginProgram w).upk.nextSeq = s.upk.nextSeq + 1 := by
  obtain ⟨arg, h⟩ := beginProgram_eq s w
  rw [h, setOp_nextSeq, updCells_nextSeq, journal_nextSeq]

/-- An erase that has passed goes on to the program of its plane. -/
theorem blanked_beginProgram (w : Work) (x : Cells) (used : Nat) :
    let t := (s.blanked w x used).beginProgram w
    t.op w.engine = some { work := w, stage := .pulsing } ∧ t.plane (17 * w.engine + w.plane) = (s.plane (17 * w.engine + w.plane)).blanked w.counts
      ∧ t.cells (17 * w.engine + w.plane) = { x with level := (s.workBlock w).levels }
      ∧ (∃ j, j ∈ t.upk.journal ∧ j.kind = 0x02 ∧ j.loc = locPlane w.engine w.plane ∧ j.seq = s.upk.nextSeq) ∧ t.upk.nextSeq = s.upk.nextSeq + 2
      ∧ (∀ n, n ≠ 17 * w.engine + w.plane → t.plane n = s.plane n ∧ t.cells n = s.cells n) ∧ t.upk.queue = s.upk.queue
      ∧ { t with upk := s.upk } = s := by
  intro t
  have hblank := blanked_bare (s := s) w x used
  have hblock : (s.blanked w x used).workBlock w = s.workBlock w := (workBlock_of_bare hblank w).trans (erasedAs_workBlock w x)
  have hbare : t.bare = (((s.erasedAs w x).updCells (17 * w.engine + w.plane) (fun y => { y with level := (s.workBlock w).levels })).setOp w.engine
      (some { work := w, stage := .pulsing })).bare := by
    have h := beginProgram_bare (s.blanked w x used) w
    rw [hblock] at h
    exact h.trans (setOp_bare_congr _ _ (updCells_bare_congr _ _ hblank))
  have hjournal : ∃ j, j ∈ t.upk.journal ∧ j.kind = 0x02 ∧ j.loc = locPlane w.engine w.plane ∧ j.seq = s.upk.nextSeq := by
    obtain ⟨older, holder⟩ := journal_appends (s.erasedAs w x) 0x02 0 (locPlane w.engine w.plane) used
    exact ⟨_, mem_beginProgram_journal (s := s.blanked w x used) holder w, rfl, rfl, rfl⟩
  have hseq : t.upk.nextSeq = s.upk.nextSeq + 2 := by
    rw [beginProgram_nextSeq, State.blanked, journal_nextSeq]
    rfl
  clear_value t
  refine ⟨?_, ?_, ?_, hjournal, hseq, fun n hn => ⟨?_, ?_⟩, ?_, ?_⟩
  · rw [op_of_bare hbare, State.setOp_op_same]
  · rw [plane_of_bare hbare, setOp_plane, updCells_plane, erasedAs_plane]
  · rw [cells_of_bare hbare, setOp_cells, updCells_cells_same, erasedAs_cells]
  · rw [plane_of_bare hbare, setOp_plane, updCells_plane, erasedAs_plane_ne hn]
  · rw [cells_of_bare hbare, setOp_cells, updCells_cells_ne _ (Ne.symm hn), erasedAs_cells_ne hn]
  · rw [queue_of_bare hbare, setOp_queue, updCells_queue, erasedAs_queue]
  · exact (rest_of_bare hbare s.upk).trans ((setOp_rest ..).trans ((updCells_rest ..).trans (erasedAs_rest ..)))

/-- The program of a plane erased out of its temperature range waits. -/
theorem blanked_waits (w : Work) (x : Cells) (used : Nat) :
    let t := (s.blanked w x used).setOp w.engine (some { work := w, stage := .waiting })
    t.op w.engine = some { work := w, stage := .waiting } ∧ t.cells (17 * w.engine + w.plane) = x ∧ { t with upk := s.upk } = s := by
  intro t
  have hbare : t.bare = _ := setOp_bare_congr w.engine (some { work := w, stage := .waiting }) (blanked_bare (s := s) w x used)
  clear_value t
  refine ⟨?_, ?_, ?_⟩
  · rw [op_of_bare hbare, State.setOp_op_same]
  · rw [cells_of_bare hbare, setOp_cells, erasedAs_cells]
  · exact (rest_of_bare hbare s.upk).trans ((setOp_rest ..).trans (erasedAs_rest ..))

/-- Work that ends with nothing to follow leaves its engine free, and planes and cells as they are. -/
theorem workDone_plain {w : Work} (hwhy : w.why = .overdue ∨ w.why = .touchUp) : (s.workDone w).op w.engine = none
    ∧ (∀ n, (s.workDone w).plane n = s.plane n) ∧ (∀ n, (s.workDone w).cells n = s.cells n) ∧ ∀ v, { s.workDone w with upk := v } = { s with upk := v } := by
  obtain ⟨operated, h⟩ := workDone_of_plain (s := s) hwhy
  rw [h]
  exact ⟨State.setOp_op_same s w.engine none, fun _ => rfl, fun _ => rfl, fun _ => rfl⟩

/-- The erase of a plane whose touch-up found it not blank: a plane that was in use is erased now. -/
theorem blanked_workDone {w : Work} (hop : w.op = .erase) (hwhy : w.why = .touchUp) (x : Cells) (used : Nat) :
    let t := ((s.blanked w x used).updPlane (17 * w.engine + w.plane) (fun y => if y.state = 1 then { y with state := 0, lplane := 31 } else y)).workDone w
    t.op w.engine = none ∧ t.cells (17 * w.engine + w.plane) = x
      ∧ (t.plane (17 * w.engine + w.plane)).erases = (s.plane (17 * w.engine + w.plane)).erases ∧ (t.plane (17 * w.engine + w.plane)).touchups = 0
      ∧ (t.plane (17 * w.engine + w.plane)).state = (if (s.plane (17 * w.engine + w.plane)).state = 1 then 0 else (s.plane (17 * w.engine + w.plane)).state)
      ∧ { t with upk := s.upk } = s := by
  intro t
  have hcounts : w.counts = false := by simp [Work.counts, hop, hwhy]
  have hbare := updPlane_bare_congr (17 * w.engine + w.plane) (fun y => if y.state = 1 then { y with state := 0, lplane := 31 } else y)
    (blanked_bare (s := s) w x used)
  obtain ⟨hidle, hplane, hcells, hrest⟩ := workDone_plain (w := w) (s := (s.blanked w x used).updPlane (17 * w.engine + w.plane)
    (fun y => if y.state = 1 then { y with state := 0, lplane := 31 } else y)) (.inr hwhy)
  have hentry : t.plane (17 * w.engine + w.plane) = (fun y : PlaneEnt => if y.state = 1 then { y with state := 0, lplane := 31 } else y)
      ((s.plane (17 * w.engine + w.plane)).blanked false) := by
    rw [hplane, plane_of_bare hbare, updPlane_plane_same, erasedAs_plane, hcounts]
  have hcell : t.cells (17 * w.engine + w.plane) = x := by rw [hcells, cells_of_bare hbare, updPlane_cells, erasedAs_cells]
  have hstate : ((s.plane (17 * w.engine + w.plane)).blanked false).state = (s.plane (17 * w.engine + w.plane)).state := rfl
  refine ⟨hidle, hcell, ?_, ?_, ?_, (hrest s.upk).trans ((rest_of_bare hbare s.upk).trans ((updPlane_rest ..).trans (erasedAs_rest ..)))⟩
  all_goals
    rw [hentry]
    dsimp only
    rw [hstate]
    split <;> rfl

end Sys2Proof.Machine
end

section
/-! PROGRAM_PASS_DONE and FINAL_VERIFY_DONE (R160 to R164, R172, R177), and with them the stages of an operation. -/

namespace Sys2Proof.Machine

open Sys2Proof

variable {s t : State}

/-! ## Pulses and their ends -/

/-- The cells of a plane after pulses. -/
def State.pulsedTo (s : State) (r : OpRun) (x : Cells) : State := s.updCells (17 * r.work.engine + r.work.plane) (fun _ => x)

@[simp] theorem pulsedTo_cells (r : OpRun) (x : Cells) : (s.pulsedTo r x).cells (17 * r.work.engine + r.work.plane) = x := updCells_cells_same ..
theorem pulsedTo_rest (r : OpRun) (x : Cells) (v : Upkeep) : { s.pulsedTo r x with upk := v } = { s with upk := v } := rfl

/-- A touch-up that ends short of success changes upkeep only: it goes on as a rewrite. -/
theorem pulsesFail_rewrites {r v : OpRun} (x : Cells) (hwork : v.work = r.work) (hop : r.work.op = .touchUp)
    (htemp : s.tempIn r.work.engine (-200) 1000 = true) :
    ((s.pulsedTo r x).pulsesFail v).op r.work.engine = some { work := { r.work with op := .program }, stage := .erasing }
      ∧ { (s.pulsedTo r x).pulsesFail v with upk := s.upk } = s := by
  have hbare := pulsesFail_touchUp (s := s.pulsedTo r x) (r := v) (by rw [hwork, hop]) (by rw [hwork]; exact htemp)
  rw [hwork] at hbare
  refine ⟨?_, ?_⟩
  · rw [op_of_bare hbare, State.setOp_op_same]
  · exact (rest_of_bare hbare s.upk).trans ((setOp_rest ..).trans (pulsedTo_rest ..))

/-- A touch-up has passed its final verify: it is counted, and the plane's levels are new. -/
def State.touchedUp (s : State) (w : Work) (used : Nat) (f : VerifyFacts) : State :=
  ((s.journal 0x06 0 (locPlane w.engine w.plane) used).updPlane (17 * w.engine + w.plane)
    (fun x => { x with touchups := min 64 (x.touchups + 1) })).refreshed w.engine w.plane f

section
variable {r : OpRun} (hop : s.op r.work.engine = some r)
include hop

theorem execProgramPassDone_eq (pulses : List (Tab Int)) (hstage : r.stage = .pulsing) : ∀ {cb : List Int} {p : Pulsed},
    cb = (s.workBlock r.work).file.codebook →
    p = progPulses cb (decide (r.work.op = .touchUp)) (r.pulsed (s.cells (17 * r.work.engine + r.work.plane))) pulses →
    execProgramPassDone r.work.engine pulses s
      = if p.ended cb = false then .next ((s.pulsedTo r p.cells).setOp r.work.engine (some (r.after p)))
        else if p.limit cb = true ∨ p.cells.beyond cb = true then .next ((s.pulsedTo r p.cells).pulsesFail (r.after p))
        else .next ((s.pulsedTo r p.cells).setOp r.work.engine (some { r.after p with stage := .relaxing })) := by
  rintro cb p rfl rfl
  unfold execProgramPassDone
  simp only [hop, hstage, ne_eq, not_true_eq_false, if_false]
  rfl

theorem execFinalVerifyDone_eq (f : VerifyFacts) (hstage : r.stage = .verifying) : ∀ {cb : List Int} {p : Pulsed},
    cb = (s.workBlock r.work).file.codebook →
    p = progPulses cb (decide (r.work.op = .touchUp)) ((r.pulsed ((s.cells (17 * r.work.engine + r.work.plane)).moved f.found)).note cb) f.pulses →
    execFinalVerifyDone r.work.engine f s
      = if p.ended cb = false then .next ((s.pulsedTo r p.cells).setOp r.work.engine (some (r.after p)))
        else if p.limit cb = true ∨ p.cells.beyond cb = true then .next ((s.pulsedTo r p.cells).pulsesFail (r.after p))
        else if r.work.op = .touchUp then .next (((s.pulsedTo r p.cells).touchedUp r.work p.used f).workDone r.work)
        else .next ((s.pulsedTo r p.cells).programmed r p.mean8 f) := by
  rintro cb p rfl rfl
  unfold execFinalVerifyDone
  simp only [hop, hstage, ne_eq, not_true_eq_false, if_false]
  rfl
end

/-! ## The final verify, R164, R172 -/

/-- The entry of a plane that holds new codes or levels. -/
def PlaneEnt.refreshed (x : PlaneEnt) (t : Int) (f : VerifyFacts) : PlaneEnt :=
  { x with tprog := tprogOf t, te := 0, drift := 0, gains := f.gains, offs := f.offs, levels := f.levels }

theorem refreshed_upk (s : State) (e p : Nat) (f : VerifyFacts) :
    (s.refreshed e p f).upk = (s.updPlane (17 * e + p) (·.refreshed (s.arrayTemp (engCluster e)) f)).upk := rfl

@[simp] theorem refreshed_plane (e p : Nat) (f : VerifyFacts) :
    (s.refreshed e p f).plane (17 * e + p) = (s.plane (17 * e + p)).refreshed (s.arrayTemp (engCluster e)) f :=
  (plane_of_planes (congrArg Upkeep.planes (refreshed_upk s e p f)) _).trans (updPlane_plane_same ..)

theorem refreshed_plane_ne {e p n : Nat} (f : VerifyFacts) (h : n ≠ 17 * e + p) : (s.refreshed e p f).plane n = s.plane n :=
  (plane_of_planes (congrArg Upkeep.planes (refreshed_upk s e p f)) _).trans (updPlane_plane_ne _ (Ne.symm h))

@[simp] theorem refreshed_cells (e p n : Nat) (f : VerifyFacts) : (s.refreshed e p f).cells n = s.cells n := rfl

@[simp] theorem refreshed_mem (e p : Nat) (f : VerifyFacts) : (s.refreshed e p f).mem = s.mem := rfl
@[simp] theorem refreshed_hist (e p : Nat) (f : VerifyFacts) : (s.refreshed e p f).hist = s.hist := rfl
@[simp] theorem refreshed_threads (e p : Nat) (f : VerifyFacts) : (s.refreshed e p f).threads = s.threads := rfl

/-- Of a state refreshed only upkeep and the engines differ. -/
theorem refreshed_rest {u : State} (h : t.bare = u.bare) (e p : Nat) (f : VerifyFacts) (v : Upkeep) (x : Tab Engine) :
    { t.refreshed e p f with upk := v, engines := x } = { u with upk := v, engines := x } :=
  (congrArg (fun y : State => { y with engines := x }) (rest_of_bare h v) :)

/-- The plane's COND is as new. -/
theorem refreshed_cond {e p lp : Nat} (f : VerifyFacts) (h : s.logical e p = some lp) : Tab.get 0 ((s.refreshed e p f).engine e).cond lp = 0 := by
  have hlp : ((s.updPlane (17 * e + p) (·.refreshed (s.arrayTemp (engCluster e)) f)).logical e p).getD p = lp := by
    rw [updPlane_logical (by exact fun _ => rfl), h]
    rfl
  subst hlp
  unfold State.refreshed
  dsimp only
  rw [State.updEngine_engine_same]
  exact Tab.get_set_same (d := 0) (s.engine e).cond _ 0

theorem arrayTemp_of_temps (htemps : t.temps = s.temps) (hexcluded : t.excluded = s.excluded) (c : Nat) : t.arrayTemp c = s.arrayTemp c := by
  unfold State.arrayTemp State.temp
  rw [htemps, hexcluded]

theorem cells_of_upk (h : t.upk = s.upk) (n : Nat) : t.cells n = s.cells n := by rw [State.cells, h, State.cells]
theorem parts_of_rest {v : Upkeep} (h : { t with upk := v } = { s with upk := v }) :
    t.mem = s.mem ∧ t.hist = s.hist ∧ t.threads = s.threads ∧ t.logs = s.logs :=
  ⟨(congrArg State.mem h :), (congrArg State.hist h :), (congrArg State.threads h :), (congrArg State.logs h :)⟩

theorem hist_of_bare {u : State} (h : t.bare = u.bare) : t.hist = u.hist := (congrArg State.hist h :)
theorem threads_of_bare {u : State} (h : t.bare = u.bare) : t.threads = u.threads := (congrArg State.threads h :)
theorem temps_of_bare {u : State} (h : t.bare = u.bare) : t.temps = u.temps := (congrArg State.temps h :)
theorem excluded_of_bare {u : State} (h : t.bare = u.bare) : t.excluded = u.excluded := (congrArg State.excluded h :)

/-- A touch-up that passes: it is counted, the plane's levels and its COND are new, and its engine is free. -/
theorem touchedUp_workDone {w : Work} (hwhy : w.why = .overdue) (used : Nat) (f : VerifyFacts) :
    let t := (s.touchedUp w used f).workDone w
    t.op w.engine = none ∧ (∀ n, t.cells n = s.cells n)
      ∧ (t.plane (17 * w.engine + w.plane)).touchups = min 64 ((s.plane (17 * w.engine + w.plane)).touchups + 1)
      ∧ (t.plane (17 * w.engine + w.plane)).levels = f.levels
      ∧ (∀ lp, s.logical w.engine w.plane = some lp → Tab.get 0 (t.engine w.engine).cond lp = 0)
      ∧ ∀ v x, { t with upk := v, engines := x } = { s with upk := v, engines := x } := by
  intro t
  obtain ⟨hidle, hplane, hcells, hrest⟩ := workDone_plain (w := w) (s := s.touchedUp w used f) (.inl hwhy)
  have hbare : ((s.journal 0x06 0 (locPlane w.engine w.plane) used).updPlane (17 * w.engine + w.plane)
      (fun x => { x with touchups := min 64 (x.touchups + 1) })).bare = _ := updPlane_bare_congr _ _ (journal_bare ..)
  have hentry : (t.plane (17 * w.engine + w.plane)) = PlaneEnt.refreshed { s.plane (17 * w.engine + w.plane) with
      touchups := min 64 ((s.plane (17 * w.engine + w.plane)).touchups + 1) } (((s.journal 0x06 0 (locPlane w.engine w.plane) used).updPlane
        (17 * w.engine + w.plane) (fun x => { x with touchups := min 64 (x.touchups + 1) })).arrayTemp (engCluster w.engine)) f := by
    rw [hplane, State.touchedUp, refreshed_plane, plane_of_bare hbare, updPlane_plane_same]
  refine ⟨hidle, fun n => ?_, ?_, ?_, fun lp hlp => ?_, fun v x => ?_⟩
  · rw [hcells, State.touchedUp, refreshed_cells, cells_of_bare hbare, updPlane_cells]
  · rw [hentry]
    rfl
  · rw [hentry]
    rfl
  · have hengines : t.engines = (s.touchedUp w used f).engines := (congrArg State.engines (hrest s.upk) :)
    have hengine : t.engine w.engine = (s.touchedUp w used f).engine w.engine := by rw [State.engine, hengines, State.engine]
    have hlogical : ((s.journal 0x06 0 (locPlane w.engine w.plane) used).updPlane (17 * w.engine + w.plane)
        (fun x => { x with touchups := min 64 (x.touchups + 1) })).logical w.engine w.plane = some lp := by
      rw [updPlane_logical (by exact fun _ => rfl), State.logical, plane_of_bare (journal_bare ..)]
      exact hlp
    rw [hengine]
    exact refreshed_cond f hlogical
  · have hdone : { t with upk := v, engines := x } = { s.touchedUp w used f with upk := v, engines := x } :=
      congrArg (fun u : State => { u with engines := x }) (hrest v)
    exact hdone.trans (refreshed_rest hbare w.engine w.plane f v x)

/-- The entry of a plane whose program has passed its final verify. -/
def PlaneEnt.inUse (x : PlaneEnt) (lp mean8 : Nat) : PlaneEnt :=
  { x with state := 1, lplane := lp, meanPulse := min 255 mean8, worn := decide (112 < mean8) }

/-- A mean pulse count beyond the warning raises its trouble bit (R164). -/
def State.wornWarned (s : State) (w : Work) (mean8 : Nat) : State :=
  if 112 < mean8 then s.trouble 1 15 (locPlane w.engine w.plane) 0 0xFF [] else s

theorem wornWarned_keeps (w : Work) (mean8 : Nat) : ((s.wornWarned w mean8).upk, (s.wornWarned w mean8).mem, (s.wornWarned w mean8).hist,
    (s.wornWarned w mean8).threads) = (s.upk, s.mem, s.hist, s.threads) := by
  unfold State.wornWarned
  split
  · simp
  · rfl

theorem wornWarned_bit {mean8 : Nat} (w : Work) (h : 112 < mean8) : ((s.wornWarned w mean8).logs.word 1).getLsbD 15 = true := by
  rw [State.wornWarned, if_pos h, State.trouble_word _ _ _ _ _ _ _ _ _ (by decide) (by decide) (by decide)]
  simp

/-- The plane of a program that has passed its final verify. -/
def State.inUse (s : State) (w : Work) (mean8 : Nat) : State :=
  (s.journal 0x04 0 (locPlane w.engine w.plane) mean8).updPlane (17 * w.engine + w.plane) (·.inUse (if (s.plane (17 * w.engine + w.plane)).lplane ≤ 15
    then (s.plane (17 * w.engine + w.plane)).lplane else if w.why = .swap then w.plane else (s.plane (17 * w.engine + w.plane)).lplane) mean8)

theorem inUse_bare (w : Work) (mean8 : Nat) : ∃ lp, (s.inUse w mean8).bare = (s.updPlane (17 * w.engine + w.plane) (·.inUse lp mean8)).bare :=
  ⟨_, updPlane_bare_congr _ _ (journal_bare ..)⟩

theorem programmed_eq {r : OpRun} (hwhy : r.work.why ≠ .replan) (mean8 : Nat) (f : VerifyFacts) :
    s.programmed r mean8 f = (((s.inUse r.work mean8).refreshed r.work.engine r.work.plane f).wornWarned r.work mean8).workDone r.work := by
  have hstate (x : PlaneEnt) : (if r.work.why = .replan then x.state else 1) = 1 := if_neg hwhy
  unfold State.programmed State.inUse PlaneEnt.inUse State.wornWarned
  simp only [hstate]

/-- A program that passes: the plane is in use, with its T_prog, corrections, reference levels and mean pulse. -/
theorem programmed_plain {r : OpRun} (hwhy : r.work.why = .overdue) (mean8 : Nat) (f : VerifyFacts) :
    let t := s.programmed r mean8 f
    let x := t.plane (17 * r.work.engine + r.work.plane)
    t.op r.work.engine = none ∧ x.state = 1 ∧ (∀ n, t.cells n = s.cells n) ∧ x.tprog = tprogOf (s.arrayTemp (engCluster r.work.engine)) ∧ x.te = 0
      ∧ x.drift = 0 ∧ x.gains = f.gains ∧ x.levels = f.levels ∧ x.meanPulse = min 255 mean8 ∧ (112 < mean8 → (t.logs.word 1).getLsbD 15 = true)
      ∧ (∀ n, n ≠ 17 * r.work.engine + r.work.plane → t.plane n = s.plane n) ∧ t.mem = s.mem ∧ t.hist = s.hist ∧ t.threads = s.threads := by
  intro t x
  set w := r.work with hw
  set v := s.inUse w mean8 with hv
  set y := (v.refreshed w.engine w.plane f).wornWarned w mean8 with hy
  have ht : t = y.workDone w := programmed_eq (by rw [hwhy]; decide) mean8 f
  obtain ⟨lp, hbare⟩ := inUse_bare (s := s) w mean8
  have hkeeps := wornWarned_keeps (s := v.refreshed w.engine w.plane f) w mean8
  rw [← hy] at hkeeps
  simp only [Prod.mk.injEq] at hkeeps
  obtain ⟨hupk, hmem, hhist, hthreads⟩ := hkeeps
  obtain ⟨hidle, hplane, hcells, hrest⟩ := workDone_plain (s := y) (.inl hwhy)
  rw [← ht] at hidle hplane hcells hrest
  obtain ⟨hmem', hhist', hthreads', hlogs'⟩ := parts_of_rest (hrest s.upk)
  have htemp : v.arrayTemp (engCluster w.engine) = s.arrayTemp (engCluster w.engine) :=
    arrayTemp_of_temps ((temps_of_bare hbare).trans rfl) ((excluded_of_bare hbare).trans rfl) _
  have hentry : x = ((s.plane (17 * w.engine + w.plane)).inUse lp mean8).refreshed (s.arrayTemp (engCluster w.engine)) f := by
    rw [show x = y.plane (17 * w.engine + w.plane) from hplane _, plane_of_planes (congrArg Upkeep.planes hupk), refreshed_plane, htemp,
      plane_of_bare hbare, updPlane_plane_same]
  clear_value x
  subst hentry
  refine ⟨hidle, rfl, fun n => ?_, rfl, rfl, rfl, rfl, rfl, rfl, fun hworn => ?_, fun n hn => ?_, ?_, ?_, ?_⟩
  · rw [hcells, cells_of_upk hupk, refreshed_cells, cells_of_bare hbare, updPlane_cells]
  · rw [hlogs']
    exact wornWarned_bit w hworn
  · rw [hplane, plane_of_planes (congrArg Upkeep.planes hupk), refreshed_plane_ne f hn, plane_of_bare hbare, updPlane_plane_ne _ (Ne.symm hn)]
  · rw [hmem', hmem, refreshed_mem, mem_of_bare hbare, State.updPlane_mem]
  · rw [hhist', hhist, refreshed_hist, hist_of_bare hbare, State.updPlane_hist]
  · rw [hthreads', hthreads, refreshed_threads, threads_of_bare hbare, State.updPlane_threads]

end Sys2Proof.Machine
end

section
/-! The stages of an operation, event by event (O53). -/

namespace Sys2Proof.Machine

open Sys2Proof

variable {s : State} {r : OpRun}

/-! ## A first and a second failure -/

/-- An erase that reaches its limit in a program that has not failed before. -/
theorem eraseFails_first (x : Cells) (used : Nat) (hop : r.work.op = .program) (hretry : r.work.retry = false) (htemp : s.tempOk r.work = true) :
    let t := (s.pulsedTo r x).planeFails { r with pulses := used } 2
    t.op r.work.engine = some { work := { r.work with retry := true }, stage := .erasing }
      ∧ (t.plane (17 * r.work.engine + r.work.plane)).fails = min 15 ((s.plane (17 * r.work.engine + r.work.plane)).fails + 1)
      ∧ (t.plane (17 * r.work.engine + r.work.plane)).erases = min 2047 ((s.plane (17 * r.work.engine + r.work.plane)).erases + 1)
      ∧ (t.logs.word 1).getLsbD 17 = true ∧ t.mem = s.mem := by
  intro t
  obtain ⟨hnext, hplane, hbit, hmem⟩ := planeFails_first (s := s.pulsedTo r x) (r := { r with pulses := used }) (kind := 2) hop hretry htemp
  have hentry : t.plane (17 * r.work.engine + r.work.plane) = (s.plane (17 * r.work.engine + r.work.plane)).flagged (2 = 2 ∧ r.work.counts = true) := hplane
  have hcounts : r.work.counts = true := by simp [Work.counts, hop]
  refine ⟨hnext, ?_, ?_, hbit, hmem⟩
  · rw [hentry]
    rfl
  · rw [hentry]
    exact if_pos ⟨rfl, hcounts⟩

/-- A piece of work that fails again: the plane has failed, and the panel's own spare plane, where it is free, is written in its place. -/
theorem pulsedTo_fails_again {v : OpRun} {kind : Nat} (x : Cells) (hwork : v.work = r.work) (hretry : r.work.retry = true) :
    let t := (s.pulsedTo r x).planeFails v kind
    t.op r.work.engine = none ∧ (t.plane (17 * r.work.engine + r.work.plane)).state = 4 ∧ (t.logs.word 1).getLsbD 17 = true
      ∧ (r.work.plane ≠ 16 → (s.panel r.work.engine).plane16 = false → t.mem = s.mem
        ∧ (t.plane (17 * r.work.engine + 16)).lplane = (s.logical r.work.engine r.work.plane).getD r.work.plane ∧ spareWork r.work ∈ t.upk.queue) := by
  have h := planeFails_again (s := s.pulsedTo r x) (r := v) (kind := kind) (hwork ▸ hretry)
  rw [OpRun.planeNo, hwork] at h
  exact h

/-- Settles O53: the work taken next is the first of the queue that may start, and each event of an operation is read off one equation of its
handler; what the journal writes on the way is left out of the states compared (`State.bare`). -/
theorem arrayOperationsRunStageByStage : Obligations.ArrayOperationsRunStageByStage := by
  unfold Obligations.ArrayOperationsRunStageByStage
  refine ⟨fun s w h => nextWork_first h, fun s w hfw hnext => ?_, fun s e r hop => ?_, ?_, ?_, ?_⟩
  · exact ⟨execUpkeepStart_power hfw hnext, execUpkeepStart_copies hfw hnext, execUpkeepStart_begins hfw hnext,
      fun e he hidle => execUpkeepStart_elsewhere hfw hnext he hidle⟩
  · exact ⟨fun hstage hbusy htemp he => execAwayCopyDone_away hop hstage hbusy htemp he, fun _ hwait => execAwayCopyDone_waits hop hwait,
      fun hstage hfw htemp he => execUpkeepStart_resumes hop hstage hfw htemp he, fun hstage => execRelaxWaitExpire_verifies hop hstage⟩
  · rintro s e k used pulses x moved r hop hstage rfl rfl hpulses
    refine ⟨fun hused herased hwork htemp => ?_, fun hused herased hwork htemp => ?_, fun hused herased hwork hwhy => ?_, fun hused hfall => ?_,
      fun hused herased hwork hretry htemp => ?_, fun hused herased hretry => ?_⟩
    · obtain ⟨hstep, hplane, hcells, hjournal, hseq, helse, hqueue, hrest⟩ := blanked_beginProgram (s := s) r.work x used
      have htemp' : (s.blanked r.work x used).tempIn r.work.engine 300 700 = true := (blanked_tempIn ..).trans htemp
      have hcounts : r.work.counts = true := by simp [Work.counts, hwork]
      rw [hcounts] at hplane
      refine ⟨_, (execEraseDone_programs hop hstage hpulses hused herased hwork).trans (if_pos htemp'), hstep, ?_, ?_, ?_, ?_, ?_, hjournal, hseq, helse, hqueue, hrest⟩
      · exact congrArg PlaneEnt.erases hplane
      · exact congrArg PlaneEnt.touchups hplane
      · exact congrArg PlaneEnt.fails hplane
      · rw [hcells]
      · rw [hcells]
    · obtain ⟨hstep, hcells, hrest⟩ := blanked_waits (s := s) r.work x used
      have htemp' : ¬ (s.blanked r.work x used).tempIn r.work.engine 300 700 = true := by
        rw [blanked_tempIn]
        exact fun h => Bool.false_ne_true (htemp.symm.trans h)
      exact ⟨_, (execEraseDone_programs hop hstage hpulses hused herased hwork).trans (if_neg htemp'), hstep, hcells, hrest⟩
    · exact ⟨_, execEraseDone_ends hop hstage hpulses hused herased hwork, blanked_workDone hwork hwhy x used⟩
    · exact (execEraseDone_falls hop hstage hpulses hfall).trans (if_neg (by omega))
    · exact ⟨_, (execEraseDone_falls hop hstage hpulses (.inr herased)).trans (if_pos hused), eraseFails_first x used hwork hretry htemp⟩
    · exact ⟨_, (execEraseDone_falls hop hstage hpulses (.inr herased)).trans (if_pos hused), pulsedTo_fails_again x rfl hretry⟩
  · rintro s e k pulses r cb p hop hstage rfl rfl hcb hp
    have hexec := execProgramPassDone_eq hop pulses hstage hcb hp
    refine ⟨fun hend => hexec.trans (if_pos hend), fun hend hlimit hbeyond => ?_, fun hend hfall hwork htemp => ?_⟩
    · exact hexec.trans ((if_neg (by simp [hend])).trans (if_neg (by simp [hlimit, hbeyond])))
    · exact ⟨_, hexec.trans ((if_neg (by simp [hend])).trans (if_pos hfall)), pulsesFail_rewrites (v := r.after p) p.cells rfl hwork htemp⟩
  · rintro s e k f r cb p hop hstage rfl rfl hcb hp
    have hexec := execFinalVerifyDone_eq hop f hstage hcb hp
    refine ⟨fun hend => hexec.trans (if_pos hend), fun hend hlimit hbeyond hwork hwhy => ?_, fun hend hlimit hbeyond hwork hwhy => ?_,
      fun hend hfall hwork htemp => ?_, fun hend hfall hwork hretry htemp => ?_, fun hend hfall hwork hretry => ?_⟩
    · obtain ⟨hidle, hstate, hcells, htprog, hte, hdrift, hgains, hlevels, hmean, hworn, helse, hmem, hhist, hthreads⟩ :=
        programmed_plain (s := s.pulsedTo r p.cells) hwhy p.mean8 f
      refine ⟨_, hexec.trans ((if_neg (by simp [hend])).trans ((if_neg (by simp [hlimit, hbeyond])).trans (if_neg (by simp [hwork])))),
        hidle, hstate, ?_, htprog, hte, hdrift, hgains, hlevels, hmean, hworn, helse, hmem, hhist, hthreads⟩
      rw [hcells, pulsedTo_cells]
    · obtain ⟨hidle, hcells, htouchups, hlevels, hcond, hrest⟩ := touchedUp_workDone (s := s.pulsedTo r p.cells) hwhy p.used f
      refine ⟨_, hexec.trans ((if_neg (by simp [hend])).trans ((if_neg (by simp [hlimit, hbeyond])).trans (if_pos hwork))),
        hidle, ?_, htouchups, hlevels, hcond, hrest s.upk s.engines⟩
      rw [hcells, pulsedTo_cells]
    · exact ⟨_, hexec.trans ((if_neg (by simp [hend])).trans (if_pos hfall)), pulsesFail_rewrites (v := r.after p) p.cells rfl hwork htemp⟩
    · obtain ⟨hnext, -, hbit, hmem⟩ := planeFails_first (s := s.pulsedTo r p.cells) (r := r.after p) (kind := 4) hwork hretry htemp
      refine ⟨_, hexec.trans ((if_neg (by simp [hend])).trans (if_pos hfall)), ?_⟩
      rw [pulsesFail_program (r := r.after p) hwork]
      exact ⟨hnext, hbit, hmem⟩
    · obtain ⟨hidle, hstate, hbit, -⟩ := pulsedTo_fails_again (s := s) (v := r.after p) (kind := 4) p.cells rfl hretry
      refine ⟨_, hexec.trans ((if_neg (by simp [hend])).trans (if_pos hfall)), ?_⟩
      rw [pulsesFail_program (r := r.after p) hwork]
      exact ⟨hidle, hstate, hbit⟩

end Sys2Proof.Machine
end

section
/-! SWAP_COMMIT puts the loaded image in force and leaves the slot's bytes where they are (R200, R205, R407). -/

namespace Sys2Proof.Machine

open Sys2Proof

/-- The image of the swap. -/
def imageSeven : Image := { imageId := 7 }

/-- The swap is past step 4. -/
def swapOfSlotZero : Swap := { slot := 0, phase := 5 }

/-- A member of a pack of two whose slot 0 holds a loaded image, with its first byte as it arrived, and whose swap to it awaits its commit. -/
def memberSwapping : State :=
  { life := { phase := .ready }
    opt := { loaded := { psize := 2 } }
    img := { slot0 := { state := 2, image := some imageSeven, bytes := [(0, 1)] }, swap := some swapOfSlotZero }
    pack := { ports := [(0, { state := 3 })] } }

/-- The bytes that slot 0 holds after SWAP_COMMIT of image 7 from position 1. -/
def bytesAfterCommit : Option (Tab Byte) :=
  match exec (.swapCommit 0 { src := 1 } 7 0) memberSwapping with
  | .next t => some (t.imgSlot 0).bytes
  | _ => none

theorem bytesAfterCommit_kept : bytesAfterCommit = some [(0, 1)] := by decide +kernel

/-- Refutes O52: SWAP_COMMIT makes the loaded slot the active one and keeps the bytes that the transfer wrote there, while the statement has
the slot hold nothing but the image. -/
theorem not_handoversAndPackSwapsTakeEffect : ¬ Obligations.HandoversAndPackSwapsTakeEffect := by
  rintro ⟨-, -, hswap⟩
  have htake : ∃ u, memberSwapping.recv 0 { src := 1 } (.swapCommit 7 0) = .take u := ⟨_, rfl⟩
  obtain ⟨u, hu⟩ := htake
  obtain ⟨-, -, hcommit⟩ := hswap memberSwapping u 0 { src := 1 } 7 0 0
  obtain ⟨t, hexec, -, -, -, hslot, -⟩ := (hcommit hu).2.2 imageSeven swapOfSlotZero rfl rfl rfl (by decide) (by decide)
  have hbytes : bytesAfterCommit = some [] := by
    unfold bytesAfterCommit
    rw [hexec]
    exact congrArg (fun y : ImgSlot => some y.bytes) hslot
  rw [bytesAfterCommit_kept] at hbytes
  exact absurd hbytes (by decide)

end Sys2Proof.Machine
end

section
/-! IMG_BEGIN, IMG_END, IMAGE_VALIDATION_DONE, IMG_ABORT and SWAP (R191, R205, R210, R407, R409). -/

namespace Sys2Proof.Machine

open Sys2Proof

variable {s t u : State} {sid : Nat} {x : Session} {p : Packet}

/-! ## The image slots, R190, R205 -/

theorem inactive_cases (s : State) : s.inactive = 0 ∨ s.inactive = 1 := by
  unfold State.inactive
  split
  · exact .inr rfl
  · exact .inl rfl

theorem updImgSlot_imgSlot_ne {n m : Nat} (f : ImgSlot → ImgSlot) (h : ¬ (n = 0 ↔ m = 0)) : (s.updImgSlot n f).imgSlot m = s.imgSlot m := by
  unfold State.updImgSlot State.imgSlot
  by_cases hn : n = 0 <;> by_cases hm : m = 0 <;> simp_all

@[simp] theorem setSlot_imgSlot_same (n state : Nat) (img : Option Image) : (s.setSlot n state img).imgSlot n
    = { state := state, image := img, bytes := if state = 1 ∨ state = 2 then (s.imgSlot n).bytes else [] } :=
  updImgSlot_imgSlot_same n (fun y => { state := state, image := img, bytes := if state = 1 ∨ state = 2 then y.bytes else [] })

theorem setSlot_imgSlot_ne {n m : Nat} (state : Nat) (img : Option Image) (h : ¬ (n = 0 ↔ m = 0)) : (s.setSlot n state img).imgSlot m = s.imgSlot m :=
  updImgSlot_imgSlot_ne (fun y => { state := state, image := img, bytes := if state = 1 ∨ state = 2 then y.bytes else [] }) h

@[simp] theorem setSlot_xfer (n state : Nat) (img : Option Image) : (s.setSlot n state img).img.xfer = s.img.xfer :=
  updImgSlot_xfer n (fun y => { state := state, image := img, bytes := if state = 1 ∨ state = 2 then y.bytes else [] })

theorem inactive_ne_other (s : State) : ¬ (s.inactive = 0 ↔ 1 - s.inactive = 0) := by
  rcases inactive_cases s with h | h <;> simp [h]

/-- Of the state a slot's setting changes the slots and the store's record of them. -/
theorem setSlot_rest (s : State) (n state : Nat) (img : Option Image) (im : Images) (st : Store) :
    { s.setSlot n state img with img := im, store := st } = { s with img := im, store := st } := rfl

/-! ## IMG_BEGIN, IMG_END and IMG_ABORT -/

@[simp] theorem askedAt_img (s : State) (sid : Nat) (p : Packet) (l : Life) : (s.askedAt sid p l).img = s.img := rfl
@[simp] theorem taken_img (s : State) (sid : Nat) (p : Packet) : (s.taken sid p).img = s.img := rfl

/-- A transfer opens: it has the next number, and the inactive slot is loading. -/
def State.openXfer (s : State) (length : Nat) : State :=
  { s.setSlot s.inactive 3 none with img := { (s.setSlot s.inactive 3 none).img with
      lastXfer := s.img.lastXfer + 1, xfer := some { no := s.img.lastXfer + 1, length := length, chunk := Config.chunkSize } } }

theorem execImgBegin_busy (h : Asks s 0x0201 sid x p) (hswap : s.img.swap.isSome = true) :
    ∃ t, execImgBegin sid s = .next t ∧ Refused s t sid x p .busy 0 :=
  ⟨_, rfl, refused_of_asked h (by decide) fun _ => if_pos hswap⟩

theorem execImgBegin_long (h : Asks s 0x0201 sid x p) (hswap : s.img.swap = none) (hlong : 7449083904 < p.num 1) :
    ∃ t, execImgBegin sid s = .next t ∧ Refused s t sid x p .noResource 0 :=
  ⟨_, rfl, refused_of_asked h (by decide) fun _ => (if_neg (by simp [hswap])).trans (if_pos hlong)⟩

theorem execImgBegin_empty (h : Asks s 0x0201 sid x p) (hswap : s.img.swap = none) (hempty : p.num 1 = 0) :
    ∃ t, execImgBegin sid s = .next t ∧ Refused s t sid x p .badParam (p.off 1) :=
  ⟨_, rfl, refused_of_asked h (by decide) fun _ => (if_neg (by simp [hswap])).trans ((if_neg (by omega)).trans (if_pos hempty))⟩

theorem execImgBegin_opens (h : Asks s 0x0201 sid x p) (hswap : s.img.swap = none) (hlow : 1 ≤ p.num 1) (hhigh : p.num 1 ≤ 7449083904) :
    ∃ t, execImgBegin sid s = .next t
      ∧ WriteDone s t sid x p .ok [be 4 (s.img.lastXfer + 1), be 4 Config.chunkSize] (s.commit.openXfer (p.num 1)) :=
  ⟨_, rfl, writeDone_of_taken_as ((s.taken sid p).openXfer (p.num 1)) h (by decide)
    ((if_neg (by simp [hswap])).trans ((if_neg (by omega)).trans (if_neg (by omega)))) rfl⟩

theorem openXfer_slots (s : State) (length : Nat) : ((s.openXfer length).imgSlot s.inactive).state = 3 ∧ ((s.openXfer length).imgSlot s.inactive).image = none
    ∧ (s.openXfer length).imgSlot (1 - s.inactive) = s.imgSlot (1 - s.inactive) := by
  have hslot (n : Nat) : (s.openXfer length).imgSlot n = (s.setSlot s.inactive 3 none).imgSlot n := rfl
  rw [hslot, hslot, setSlot_imgSlot_same]
  exact ⟨rfl, rfl, setSlot_imgSlot_ne 3 none (inactive_ne_other s)⟩

theorem execImgEnd_none (h : Asks s 0x0202 sid x p) (hxfer : s.img.xfer = none) :
    ∃ t, execImgEnd sid s = .next t ∧ Refused s t sid x p .busy 0 := by
  refine ⟨_, rfl, refused_of_asked h (by decide) fun l => ?_⟩
  rw [askedAt_img, hxfer]
  rfl

section
variable {f : Xfer} (hxfer : s.img.xfer = some f)
include hxfer

theorem execImgEnd_ending (h : Asks s 0x0202 sid x p) (hending : f.ending.isSome = true) :
    ∃ t, execImgEnd sid s = .next t ∧ Refused s t sid x p .busy 0 := by
  refine ⟨_, rfl, refused_of_asked h (by decide) fun l => ?_⟩
  rw [askedAt_img, hxfer]
  exact if_pos hending

theorem execImgEnd_missing (h : Asks s 0x0202 sid x p) (hending : f.ending = none) (hmissing : f.missing ≠ top 64) :
    ∃ t, execImgEnd sid s = .next t ∧ ReadDone s t sid x p [be 8 f.missing] := by
  refine ⟨_, rfl, readDone_of_asked h fun l => ?_⟩
  rw [askedAt_img, hxfer]
  exact (if_neg (by simp [hending])).trans (if_pos hmissing)

theorem execImgEnd_whole (h : Asks s 0x0202 sid x p) (hending : f.ending = none) (hmissing : f.missing = top 64) :
    ∃ t, execImgEnd sid s = .next t ∧ WriteDone s t sid x p .accepted [be 8 (top 64)]
      { s.commit with img := { s.img with xfer := some { f with ending := some (sid, p.seq), digest := p.num 1 } } } := by
  refine ⟨_, rfl, writeDone_of_taken_as
    { s.taken sid p with img := { s.img with xfer := some { f with ending := some (sid, p.seq), digest := p.num 1 } } } h (by decide) ?_ rfl⟩
  rw [taken_img, hxfer]
  exact (if_neg (by simp [hending])).trans (if_neg (not_not.mpr hmissing))
end

/-- The transfer is given up, and the slot is empty. -/
def State.dropXfer (s : State) : State := State.setSlot { s with img := { s.img with xfer := none } } s.inactive 0 none

theorem execImgAbort_none (h : Asks s 0x0203 sid x p) (hxfer : s.img.xfer = none) :
    ∃ t, execImgAbort sid s = .next t ∧ ReadDone s t sid x p [] := by
  refine ⟨_, rfl, readDone_of_asked h fun l => ?_⟩
  rw [askedAt_img, hxfer]

theorem execImgAbort_drops (h : Asks s 0x0203 sid x p) (hxfer : s.img.xfer.isSome = true) :
    ∃ t, execImgAbort sid s = .next t ∧ WriteDone s t sid x p .ok [] s.commit.dropXfer := by
  obtain ⟨f, hf⟩ := Option.isSome_iff_exists.mp hxfer
  refine ⟨_, rfl, writeDone_of_taken_as (s.taken sid p).dropXfer h (by decide) ?_ rfl⟩
  rw [taken_img, hf]
  rfl

theorem dropXfer_marks (s : State) : s.dropXfer.img.xfer = none ∧ s.dropXfer.imgSlot s.inactive = { state := 0 } := by
  refine ⟨?_, ?_⟩
  · rw [State.dropXfer, setSlot_xfer]
  · rw [State.dropXfer, setSlot_imgSlot_same]
    rfl

end Sys2Proof.Machine
end

section
/-! SWAP and IMAGE_VALIDATION_DONE (R191, R205, R210). -/

namespace Sys2Proof.Machine

open Sys2Proof

variable {s t u : State} {sid : Nat} {x : Session} {p : Packet}

/-! ## A swap begins the same whatever sessions there are -/

/-- The state with other sessions, and with other packets that leave the module. -/
def State.saying (s : State) (co : Comms) (ou : List Out) : State := { s with comms := co, out := ou }

theorem saying_own (s : State) (co : Comms) (ou : List Out) : { s.saying co ou with comms := s.comms, out := s.out } = s := rfl

section
variable (s) (co : Comms) (ou : List Out)

theorem journal_saying (kind status loc arg : Nat) : (s.saying co ou).journal kind status loc arg = (s.journal kind status loc arg).saying co ou := by
  have hroom : (s.saying co ou).journalRoom = s.journalRoom.saying co ou := by
    have hupk : (s.saying co ou).upk = s.upk := rfl
    unfold State.journalRoom
    rw [hupk]
    dsimp only
    split
    · rfl
    · split <;> rfl
  unfold State.journal
  rw [hroom]
  rfl

theorem copyBlock_saying (slot e lp : Nat) : (s.saying co ou).copyBlock slot e lp = (s.copyBlock slot e lp).saying co ou := by
  unfold State.copyBlock
  have himage : ((s.saying co ou).imgSlot slot).image = (s.imgSlot slot).image := rfl
  have hupk : (s.saying co ou).upk = s.upk := rfl
  rw [himage]
  cases ((s.imgSlot slot).image).bind (fun i => i.blockOn e lp) with
  | none => rfl
  | some b =>
    dsimp only
    rw [hupk]
    split
    · rfl
    · cases freePlace s.upk.copies b.copyBytes.length <;> rfl

theorem copyImage_saying : (s.saying co ou).copyImage = s.copyImage.saying co ou := by
  have hfold (a : Nat) (l : List (Nat × Nat × Nat × Bool)) (v : State) : l.foldl (fun v x => v.copyBlock a x.1 x.2.1) (v.saying co ou)
      = (l.foldl (fun v x => v.copyBlock a x.1 x.2.1) v).saying co ou := by
    induction l generalizing v with
    | nil => rfl
    | cons y ys ih =>
      rw [List.foldl_cons, List.foldl_cons, copyBlock_saying]
      exact ih _
  have hactive : (s.saying co ou).img.active = s.img.active := rfl
  have hhomes : (s.saying co ou).oldHomes = s.oldHomes := rfl
  unfold State.copyImage
  rw [hactive, hhomes]
  cases s.img.active with
  | none => rfl
  | some a => exact hfold a _ s

theorem beginSwap_saying (i : Image) (who : Option (Nat × Nat)) : (s.saying co ou).beginSwap i who = (s.beginSwap i who).saying co ou := by
  unfold State.beginSwap
  dsimp only
  rw [journal_saying, show (s.saying co ou).inactive = s.inactive from rfl, copyImage_saying]
  rfl
end

/-! ## SWAP, R191, R210 -/

theorem img_of_bare (h : t.bare = u.bare) : t.img = u.img := (congrArg State.img h :)

theorem copied_copyImage (s : State) : Copied s s.copyImage := by
  unfold State.copyImage
  cases s.img.active with
  | none => exact copied_refl s
  | some a =>
    dsimp only
    rw [foldl_eq_each]
    exact copied_each (f := fun v (y : Nat × Nat × Nat × Bool) => v.copyBlock a y.1 y.2.1) (fun v y => copied_copyBlock v a y.1 y.2.1) s.oldHomes s

theorem Copied.img (h : Copied s t) : t.img = s.img := by
  obtain ⟨⟨copies, mem, rfl⟩, -⟩ := h
  rfl

theorem Copied.queue (h : Copied s t) : t.upk.queue = s.upk.queue := by
  obtain ⟨⟨copies, mem, rfl⟩, -⟩ := h
  rfl

/-- A swap begins with the panels that hold blocks of either image; the image in force stands. -/
theorem beginSwap_marks (s : State) (i : Image) (who : Option (Nat × Nat)) : ∃ w, (s.beginSwap i who).img = { s.img with swap := some w }
    ∧ w.askedBy = who ∧ w.slot = s.inactive ∧ w.todo = w.panels ∧ (s.beginSwap i who).upk.queue = s.upk.queue ++ s.swapWork i := by
  have hcopied := copied_copyImage (s.journal 0x0B 0 0 s.inactive)
  have himg : (s.journal 0x0B 0 0 s.inactive).copyImage.img = s.img := hcopied.img.trans (img_of_bare (journal_bare ..))
  have hqueue : (s.journal 0x0B 0 0 s.inactive).copyImage.upk.queue = s.upk.queue := hcopied.queue.trans (queue_of_bare (journal_bare ..))
  unfold State.beginSwap
  dsimp only
  rw [himg, hqueue]
  exact ⟨_, rfl, rfl, rfl, rfl, rfl⟩

theorem execSwap_busy (h : Asks s 0x0205 sid x p) (hbusy : s.img.swap.isSome = true ∨ (s.imgSlot s.inactive).state ≠ 2) :
    ∃ t, execSwap sid s = .next t ∧ Refused s t sid x p .busy 0 :=
  ⟨_, rfl, refused_of_asked h (by decide) fun _ => if_pos hbusy⟩

section
variable {i : Image} (h : Asks s 0x0205 sid x p) (hswap : s.img.swap = none) (hloaded : (s.imgSlot s.inactive).state = 2)
  (himage : (s.imgSlot s.inactive).image = some i)
include h hswap hloaded himage

theorem execSwap_full (hfits : s.awayFits i = false) : ∃ t, execSwap sid s = .next t ∧ Refused s t sid x p .noResource 0 := by
  refine ⟨_, rfl, refused_of_asked h (by decide) fun l => (if_neg ?_).trans ?_⟩
  · exact not_or.mpr ⟨by simp [hswap], not_not.mpr hloaded⟩
  · have hasked : ((s.askedAt sid p l).imgSlot (s.askedAt sid p l).inactive).image = some i := himage
    have hfull : ¬ (s.askedAt sid p l).awayFits i = true := fun h => Bool.false_ne_true (hfits.symm.trans h)
    rw [hasked]
    exact if_neg hfull

theorem execSwap_begins (hfits : s.awayFits i = true) :
    ∃ t, execSwap sid s = .next t ∧ WriteDone s t sid x p .accepted [] (s.commit.beginSwap i (some (sid, p.seq))) := by
  have hbegun : (s.taken sid p).beginSwap i (some (sid, p.seq)) = (s.commit.beginSwap i (some (sid, p.seq))).saying (s.taken sid p).comms (s.taken sid p).out :=
    beginSwap_saying s.commit ..
  refine ⟨_, rfl, writeDone_of_taken_as ((s.taken sid p).beginSwap i (some (sid, p.seq))) h (by decide) ((if_neg ?_).trans ?_) ?_⟩
  · exact not_or.mpr ⟨by simp [hswap], not_not.mpr hloaded⟩
  · have hasked : ((s.taken sid p).imgSlot (s.taken sid p).inactive).image = some i := himage
    rw [hasked]
    exact if_pos hfits
  · rw [hbegun]
    exact saying_own ..
end

/-! ## IMAGE_VALIDATION_DONE, R205 -/

/-- The validation of a transfer ends: the slot is loaded where the image passed, and empty where it did not. -/
def State.validated (s : State) (img : Image) (st : Status) : State :=
  let v : State := { s.commit with img := { s.img with xfer := none } }
  if st = .ok then v.setSlot s.inactive 2 (some img) else v.setSlot s.inactive 0 none

theorem validated_marks (s : State) (img : Image) (st : Status) : (s.validated img st).img.xfer = none ∧ (s.validated img st).life.commit = s.life.commit + 1
    ∧ (s.validated img st).imgSlot s.inactive = (if st = .ok then { s.imgSlot s.inactive with state := 2, image := some img } else { state := 0 })
    ∧ (s.validated img st).imgSlot (1 - s.inactive) = s.imgSlot (1 - s.inactive)
    ∧ { s.validated img st with img := s.img, store := s.store, life := { (s.validated img st).life with
          commit := s.life.commit, storedStamp := s.life.storedStamp } } = s := by
  unfold State.validated
  dsimp only
  split
  · exact ⟨setSlot_xfer .., rfl, setSlot_imgSlot_same .., setSlot_imgSlot_ne _ _ (inactive_ne_other s), rfl⟩
  · exact ⟨setSlot_xfer .., rfl, setSlot_imgSlot_same .., setSlot_imgSlot_ne _ _ (inactive_ne_other s), rfl⟩

end Sys2Proof.Machine
end

section
/-! What contexts, units and reports never touch: the trust anchors and what the monitor on the service line has staged. -/

namespace Sys2Proof.Machine

open Sys2Proof

/-- The trust store and the state of the monitor. -/
def State.custody (s : State) : Trust × Kennel := (s.trust, s.kennel)

variable (s : State)

/-! ## Plain updates -/

@[simp] theorem updCtx_custody (c : Nat) (f : Ctx → Ctx) : (s.updCtx c f).custody = s.custody := rfl
@[simp] theorem updCounter_custody (k : Nat) (f : Counter → Counter) : (s.updCounter k f).custody = s.custody := rfl
@[simp] theorem setUsed_custody (h n : Nat) : (s.setUsed h n).custody = s.custody := rfl
@[simp] theorem freeLines_custody (k e : Nat) : (s.freeLines k e).custody = s.custody := rfl
@[simp] theorem leavePass_custody (c : Nat) : (s.leavePass c).custody = s.custody := rfl

@[simp] theorem notify_custody (sid op c : Nat) (st : Status) (d : Nat) (l : List Tlv) : (s.notify sid op c st d l).custody = s.custody := by
  simp [State.custody]

@[simp] theorem complete_custody (who : Option (Nat × Nat)) (op c : Nat) (st : Status) (d : Nat) (l : List Tlv) :
    (s.complete who op c st d l).custody = s.custody := by
  simp [State.custody]

@[simp] theorem trouble_custody (w b loc u c : Nat) (l : List Nat) : (s.trouble w b loc u c l).custody = s.custody := by
  simp [State.custody]

theorem onPorts_custody {s t : State} (h : OnPorts s t) : t.custody = s.custody := (congrArg State.custody h.1 :)

@[simp] theorem packSend_custody (d c : Nat) (b : PackBody) : (s.packSend d c b).custody = s.custody :=
  onPorts_custody (packSend_onPorts s d c b)

@[simp] theorem syncIngest_custody : s.syncIngest.custody = s.custody := by
  unfold State.syncIngest
  (repeat' split) <;> rfl

@[simp] theorem stopDone_custody (c : Nat) (who : List (Nat × Nat)) : (s.stopDone c who).custody = s.custody :=
  foldl_part State.custody (fun _ _ => complete_custody ..) who s

/-! ## Power and wakes -/

@[simp] theorem holdPower_custody (d : Dom) (c : Nat) : (s.holdPower d c).custody = s.custody := by
  have hheld : ((({ s with supply := { s.supply with waiting := s.supply.waiting ++ [(d, c)] } } : State).updCtx c
      (fun y => { y with held := true })).trouble 0 9 0 12 c []).custody = s.custody := trouble_custody ..
  unfold State.holdPower
  dsimp only
  split
  · exact hheld
  · split
    · exact hheld
    · exact hheld

@[simp] theorem wakeDom_custody (d : Dom) : (s.wakeDom d).custody = s.custody := by
  cases d with
  | coreGroup g => unfold State.wakeDom; dsimp only; split <;> rfl
  | _ => rfl

@[simp] theorem askPower_custody (d : Dom) (c : Nat) : (s.askPower d c).custody = s.custody := by
  unfold State.askPower
  split
  · rfl
  · split
    · exact holdPower_custody ..
    · exact wakeDom_custody ..

@[simp] theorem wakeThread_custody (t w : Nat) : (s.wakeThread t w).custody = s.custody := askPower_custody ..

/-! ## Threads, rings and counters of a context that ends -/

theorem orphanWake_custody (k : Nat) (ws : List Compare) : (s.orphanWake k ws).custody = s.custody := by
  induction ws generalizing s with
  | nil => rfl
  | cons w ws ih =>
    rw [State.orphanWake, ih, freeLines_custody]
    cases w.who <;> simp

theorem thresholdsNotify_custody (k : Nat) (st : Status) (ts : List Threshold) : (s.thresholdsNotify k st ts).custody = s.custody := by
  induction ts generalizing s with
  | nil => rfl
  | cons t ts ih => rw [State.thresholdsNotify, ih, State.thresholdNotify, notify_custody]

@[simp] theorem orphan_custody (k : Nat) : (s.orphan k).custody = s.custody := by
  simp [State.orphan, thresholdsNotify_custody, orphanWake_custody]

@[simp] theorem orphanAll_custody (c : Nat) : (s.orphanAll c).custody = s.custody :=
  each_part State.custody orphan_custody _ s

@[simp] theorem freeCounter_custody (k : Nat) : (s.freeCounter k).custody = s.custody := by
  unfold State.freeCounter
  dsimp only
  split <;> rfl

@[simp] theorem endCounter_custody (c k : Nat) : (s.endCounter c k).custody = s.custody := by
  unfold State.endCounter
  dsimp only
  split <;> simp

@[simp] theorem endCounters_custody (c : Nat) : (s.endCounters c).custody = s.custody :=
  (each_part State.custody (fun t k => endCounter_custody t c k) _ _).trans (foldl_part State.custody (fun _ _ => trouble_custody ..) _ s)

@[simp] theorem withdraw_custody (t : Nat) : (s.withdraw t).custody = s.custody := by
  refine each_part State.custody (fun v k => ?_) (s.sync.counters.map Prod.fst) s
  dsimp only
  split
  · rfl
  · exact foldl_part State.custody (fun _ _ => by rfl) _ _

@[simp] theorem freeThreads_custody (c : Nat) : (s.freeThreads c).custody = s.custody :=
  each_part State.custody (fun v t => by exact withdraw_custody v t) _ s

@[simp] theorem faultThreads_custody (c : Nat) : (s.faultThreads c).custody = s.custody :=
  each_part State.custody (fun v t => by exact withdraw_custody v t) _ s

@[simp] theorem unbindRings_custody (c : Nat) : (s.unbindRings c).custody = s.custody :=
  each_part State.custody (fun _ _ => by rfl) _ s

@[simp] theorem endCtx_custody (c : Nat) : (s.endCtx c).custody = s.custody := by
  rw [endCtx_eq, syncIngest_custody]
  have hdrop (v : State) : (v.dropSchedule c).custody = v.custody := by
    unfold State.dropSchedule
    split <;> rfl
  rw [hdrop, updCtx_custody, endCounters_custody, unbindRings_custody, freeThreads_custody]

@[simp] theorem runsFailed_custody (c k : Nat) : (s.runsFailed c k).custody = s.custody := by
  unfold State.runsFailed State.runFailed
  dsimp only
  (repeat' split) <;> simp

@[simp] theorem dropCtx_custody (c k : Nat) : (s.dropCtx c k).custody = s.custody := by
  simp [State.dropCtx]

/-! ## The close of an interval -/

@[simp] theorem setScale_custody (c : Nat) (q : ReqPoint) (k : Nat) (u : UnitScale) : (s.setScale c q k u).custody = s.custody :=
  each_part State.custody (fun _ _ => by rfl) _ s

@[simp] theorem scaleEvents_custody (q : ReqPoint) (c : Nat) (a b : UnitScale) : (s.scaleEvents q c a b).custody = s.custody := by
  unfold State.scaleEvents
  dsimp only
  (repeat' split) <;> simp

@[simp] theorem zeroScales_custody (c : Nat) (m : Member) : (s.zeroScales c m).custody = s.custody :=
  each_part State.custody (fun _ _ => setScale_custody ..) _ s

@[simp] theorem adaptAll_custody (c : Nat) (m : Member) (large events : Bool) (stat : State → ReqPoint → Nat → Nat → UnitStat) :
    (s.adaptAll c m large events stat).custody = s.custody := by
  refine each_part State.custody (fun v n => ?_) _ s
  dsimp only
  split
  · rfl
  · split <;> simp

@[simp] theorem snapCounts_custody (c : Nat) (m : Member) : (s.snapCounts c m).custody = s.custody :=
  each_part State.custody (fun v _ => each_part State.custody (fun _ _ => by rfl) _ v) _ s

@[simp] theorem zeroCounts_custody (c : Nat) (m : Member) : (s.zeroCounts c m).custody = s.custody :=
  each_part State.custody (fun v _ => each_part State.custody (fun _ _ => by rfl) _ v) _ s

@[simp] theorem snapScales_custody (c : Nat) (m : Member) : (s.snapScales c m).custody = s.custody :=
  each_part State.custody (fun v _ => each_part State.custody (fun _ _ => by rfl) _ v) _ s

@[simp] theorem closeColumns_custody (c : Nat) : (s.closeColumns c).custody = s.custody :=
  each_part State.custody (fun _ _ => by rfl) _ s

@[simp] theorem applySnaps_custody (c : Nat) : (s.applySnaps c).custody = s.custody := by
  unfold State.applySnaps
  split
  · dsimp only
    split
    · rfl
    · rw [snapScales_custody, adaptAll_custody]
      rfl
  · rfl

@[simp] theorem noteSnap_custody (c pos : Nat) (u : List UnitStat) : (s.noteSnap c pos u).custody = s.custody := by
  unfold State.noteSnap
  split
  · (repeat' split) <;> simp
  · dsimp only
    split
    · exact applySnaps_custody _ c
    · rfl

@[simp] theorem giveSnap_custody (c : Nat) (u : List UnitStat) : (s.giveSnap c u).custody = s.custody := by
  unfold State.giveSnap
  split
  · simp
  · exact packSend_custody ..

@[simp] theorem closeLocal_custody (c : Nat) (m : Member) : (s.closeLocal c m).custody = s.custody := by
  unfold State.closeLocal
  dsimp only
  simp only [closeColumns_custody, snapScales_custody, zeroCounts_custody]
  (repeat' split) <;> simp

@[simp] theorem closeInterval_custody (c : Nat) : (s.closeInterval c).custody = s.custody := by
  unfold State.closeInterval
  split
  · rfl
  · dsimp only
    split <;> simp

end Sys2Proof.Machine
end

section
/-! What a swap boundary leaves as it was: images, options, results, trust, the monitor, and the supplies but for the power-ups that wait
(R194, R195, R467). -/

namespace Sys2Proof.Machine

open Sys2Proof

/-- Images, options, results, the supplies but for the power-ups that wait, and the custody. -/
def State.vault (s : State) : Images × Options × List ResultRec × Supply × Trust × Kennel :=
  (s.img, s.opt, s.results, { s.supply with waiting := [] }, s.custody)

variable {s t : State}

theorem vault_of (hstanding : t.standing = s.standing) (hcustody : t.custody = s.custody) : t.vault = s.vault := by
  obtain ⟨-, himg, hopt, -⟩ := parts_of_fixtures (fixtures_of_standing hstanding)
  have hsupply : ({ t.supply with waiting := [] } : Supply) = { s.supply with waiting := [] } := congrArg (fun v => v.1.2.2.2) hstanding
  have hresults : t.results = s.results := congrArg Prod.snd hstanding
  unfold State.vault
  rw [himg, hopt, hresults, hsupply, hcustody]

theorem parts_of_vault (h : t.vault = s.vault) : t.img = s.img ∧ t.opt = s.opt ∧ t.trust = s.trust ∧ t.results = s.results
    ∧ { t.supply with waiting := s.supply.waiting } = s.supply ∧ t.kennel = s.kennel := by
  simp only [State.vault, State.custody, Prod.mk.injEq] at h
  obtain ⟨himg, hopt, hresults, hsupply, htrust, hkennel⟩ := h
  exact ⟨himg, hopt, htrust, hresults, congrArg (fun v : Supply => { v with waiting := s.supply.waiting }) hsupply, hkennel⟩

variable (s)

/-! ## The old image goes, R194, R195 -/

@[simp] theorem notify_vault (sid op c : Nat) (st : Status) (d : Nat) (l : List Tlv) : (s.notify sid op c st d l).vault = s.vault :=
  vault_of (notify_standing ..) (notify_custody ..)

@[simp] theorem complete_vault (who : Option (Nat × Nat)) (op c : Nat) (st : Status) (d : Nat) (l : List Tlv) :
    (s.complete who op c st d l).vault = s.vault :=
  vault_of (complete_standing ..) (complete_custody ..)

@[simp] theorem syncIngest_vault : s.syncIngest.vault = s.vault := vault_of (syncIngest_standing s) (syncIngest_custody s)

@[simp] theorem closeInterval_vault (c : Nat) : (s.closeInterval c).vault = s.vault := vault_of (closeInterval_standing ..) (closeInterval_custody ..)

@[simp] theorem log_vault (e : LogEv) : (s.log e).vault = s.vault := by
  simp [State.vault, State.custody]

@[simp] theorem journal_vault (kind status loc arg : Nat) : (s.journal kind status loc arg).vault = s.vault :=
  (congrArg State.vault (rest_of_bare (journal_bare s kind status loc arg) s.upk) :)

@[simp] theorem advisoryNotify_vault (n : Nat) (on : Bool) (k : TokInfo) : (s.advisoryNotify n on k).vault = s.vault := by
  refine each_part State.vault (fun v sid => ?_) _ s
  (repeat' split) <;> simp

@[simp] theorem advisoryFlood_vault (sidx : Nat) : (s.advisoryFlood sidx).vault = s.vault := by
  unfold State.advisoryFlood
  split
  · rfl
  · exact (congrArg State.vault (flood_onPorts _ _ _).1 :)

@[simp] theorem releaseRules_vault (i : Image) : (s.releaseRules i).vault = s.vault := by
  unfold State.releaseRules
  refine (each_part State.vault (fun v n => ?_) _ _).trans ?_
  · (repeat' split) <;> simp
  · split
    · exact (advisoryFlood_vault _ _).trans rfl
    · rfl

/-! ## The new image's place -/

theorem Copied.vault (h : Copied s t) : t.vault = s.vault := by
  obtain ⟨⟨copies, mem, rfl⟩, -⟩ := h
  rfl

@[simp] theorem copyPanel_vault (e : Nat) : (s.copyPanel e).vault = s.vault := (copied_copyPanel s e).vault

@[simp] theorem clearScales_vault : s.clearScales.vault = s.vault := rfl

@[simp] theorem updMem_vault (f : Memory → Memory) : (s.updMem f).vault = s.vault := rfl

theorem withIng_vault (v : Ingress) : ({ s with ing := v } : State).vault = s.vault := rfl

@[simp] theorem placeHistory_vault (i : Image) (keep : Bool) : (s.placeHistory i keep).vault = s.vault := by
  unfold State.placeHistory
  dsimp only
  split
  · split <;> rfl
  · exact foldl_part State.vault (fun _ _ => updMem_vault ..) _ s

@[simp] theorem placeImage_vault (i : Image) : (s.placeImage i).vault = s.vault := by
  have hprograms (v : State) : (v.placePrograms i).vault = v.vault := (foldl_part State.vault (fun _ _ => by rfl) i.programs _).trans rfl
  have hdefaults (v : State) : (v.setDefaults i).vault = v.vault := each_part State.vault (fun _ _ => by rfl) _ v
  unfold State.placeImage State.placeFiles State.putFiles State.placeBlocks
  dsimp only
  rw [withIng_vault, updMem_vault, hdefaults, updMem_vault, hprograms]

@[simp] theorem newFront_vault : s.newFront.vault = s.vault := by
  unfold State.newFront
  split <;> rfl

/-! ## Contexts go on under the new image, R195 -/

@[simp] theorem askPower_vault (d : Dom) (c : Nat) : (s.askPower d c).vault = s.vault := vault_of (askPower_standing ..) (askPower_custody ..)

@[simp] theorem endCtx_vault (c : Nat) : (s.endCtx c).vault = s.vault := vault_of (endCtx_standing ..) (endCtx_custody ..)

@[simp] theorem commit_vault : s.commit.vault = s.vault := rfl

@[simp] theorem updCtx_vault (c : Nat) (f : Ctx → Ctx) : (s.updCtx c f).vault = s.vault := rfl

@[simp] theorem freeThreads_vault (c : Nat) : (s.freeThreads c).vault = s.vault := vault_of (freeThreads_standing ..) (freeThreads_custody ..)

@[simp] theorem unbindRings_vault (c : Nat) : (s.unbindRings c).vault = s.vault := vault_of (unbindRings_standing ..) (unbindRings_custody ..)

@[simp] theorem endCounters_vault (c : Nat) : (s.endCounters c).vault = s.vault := vault_of (endCounters_standing ..) (endCounters_custody ..)

theorem bindCounters_vault {c : Nat} {ds : List CtrDecl} {s t : State} (h : s.bindCounters c ds = some t) : t.vault = s.vault := by
  induction ds generalizing s with
  | nil => rw [← Option.some.inj h]
  | cons d ds ih =>
    obtain ⟨u, hu, hrest⟩ := Option.bind_eq_some_iff.mp h
    obtain ⟨k, -, rfl⟩ := Option.map_eq_some_iff.mp hu
    exact (ih hrest).trans (askPower_vault ..)

theorem bindCtx_vault {c : Nat} {i : Image} {m : Member} {s t : State} (h : s.bindCtx c i m = some t) : t.vault = s.vault := by
  unfold State.bindCtx at h
  dsimp only at h
  split_ifs at h
  obtain ⟨u, hu, rfl⟩ := Option.map_eq_some_iff.mp h
  rw [updCtx_vault]
  refine (each_part State.vault (fun v k => ?_) _ _).trans ((each_part State.vault (fun v k => ?_) _ u).trans ((bindCounters_vault hu).trans ?_))
  · split <;> rfl
  · exact askPower_vault ..
  · exact (unbindRings_vault _ c).trans (freeThreads_vault s c)

theorem troubleAs_vault {w b : Nat} (e : LogEv) (hw : w < 3) (hb : b < 32) : (s.troubleAs w b e).vault = s.vault := by
  obtain ⟨c, d, lo, co, ou, h, -⟩ := troubleAs_eq s w b e hw hb
  rw [h]
  rfl

@[simp] theorem stopNow_vault (c : Nat) : (s.stopNow c).vault = s.vault := by
  refine (vault_of (stopDone_standing ..) (stopDone_custody ..)).trans ?_
  exact endCtx_vault s c

theorem faultCtx_vault {b : Nat} (c code loc : Nat) (l : List Nat) (hb : b < 32) : (s.faultCtx c b code loc l).vault = s.vault := by
  have hdrop (v : State) : (v.dropCtx c code).vault = v.vault := vault_of (dropCtx_standing ..) (dropCtx_custody ..)
  have hfault (v : State) (e : LogEv) (f : Ctx → Ctx) :
      (((v.dropCtx c code).updCtx c f).syncIngest.commit.troubleAs 2 b e).vault = v.vault := by
    rw [troubleAs_vault _ _ (by decide) hb, commit_vault, syncIngest_vault, updCtx_vault, hdrop]
  have hwatch (d : Prop) [Decidable d] : (if d then { s with watch := s.watchLost } else s).vault = s.vault := by
    split <;> rfl
  unfold State.faultCtx
  dsimp only
  split
  · split
    · exact (hfault _ _ _).trans (hwatch _)
    · exact (stopNow_vault _ c).trans ((hfault _ _ _).trans (hwatch _))
  · rfl

@[simp] theorem rebindCtx_vault (i : Image) (c : Nat) : (s.rebindCtx i c).vault = s.vault := by
  unfold State.rebindCtx
  split
  · exact endCtx_vault s c
  · next m =>
    have hfreed (f : Ctx → Ctx) : ((((s.freeThreads c).unbindRings c).endCounters c).updCtx c f).vault = s.vault := by
      rw [updCtx_vault, endCounters_vault, unbindRings_vault, freeThreads_vault]
    dsimp only
    split
    · next v hbind =>
      split
      · exact (updMem_vault _ _).trans ((bindCtx_vault hbind).trans (hfreed _))
      · exact (bindCtx_vault hbind).trans (hfreed _)
    · exact (faultCtx_vault _ _ _ _ _ (by decide)).trans (hfreed _)

end Sys2Proof.Machine
end

section
/-! SWAP_STEP4_DONE and SWAP_BOUNDARY on a module of its own (R193 to R195). -/

namespace Sys2Proof.Machine

open Sys2Proof

variable {s : State} {w : Swap} {i : Image}

/-! ## The swap boundary -/

/-- The old image is gone: its interval is closed, the swap is journalled and logged, and its rules have released their outputs. -/
def State.oldGone (s : State) (w : Swap) : State :=
  let ended := if s.watch.len ≠ 0 ∧ (s.ctx 0).live = true then
      (let t := s.closeInterval 0
       { t with watch := t.watch.advance })
    else s
  let s1 := (ended.journal 0x0C 0 0 w.slot).log { code := 0x000A, detail := [w.slot] }
  match s.image with | some o => s1.releaseRules o | none => s1

theorem oldGone_vault (s : State) (w : Swap) : (s.oldGone w).vault = s.vault := by
  have hended (c : Prop) [Decidable c] : (if c then (let t := s.closeInterval 0; { t with watch := t.watch.advance }) else s).vault = s.vault := by
    split
    · exact closeInterval_vault s 0
    · rfl
  unfold State.oldGone
  dsimp only
  split
  · rw [releaseRules_vault, log_vault, journal_vault, hended]
  · rw [log_vault, journal_vault, hended]

/-- The slot of the old image is a loaded one. -/
def State.oldLoaded (s : State) (active : Option Nat) : State :=
  match active with | some a => s.setSlot a 2 (s.imgSlot a).image | none => s

/-- The slot of the old image is a loaded one, and that of the new image the active one. -/
def State.slotsTurned (s : State) (active : Option Nat) (n : Nat) (i : Image) : State := (s.oldLoaded active).setSlot n 1 (some i)

/-- The image of slot `n` is in force. -/
def State.turned (s : State) (active : Option Nat) (n : Nat) (i : Image) : State :=
  { s.slotsTurned active n i with img := { (s.slotsTurned active n i).img with
      active := some n, stamp := (s.slotsTurned active n i).life.commit, good := true, codesBad := false, swap := none } }

theorem swapNow_vault (hswap : s.img.swap = some w) (himage : s.swapImage = some i) :
    s.swapNow.vault = ((s.oldGone w).turned s.img.active w.slot i).vault := by
  have hfront (c : Prop) [Decidable c] (v : State) (x : Watch) :
      (if c then { v with watch := x } else State.newFront { v with watch := x }).vault = v.vault := by
    split
    · rfl
    · exact newFront_vault _
  unfold State.swapNow
  rw [hswap, himage]
  dsimp only
  rw [complete_vault, syncIngest_vault, hfront]
  refine (each_part State.vault (fun v c => rebindCtx_vault v i c) _ _).trans ?_
  rw [placeImage_vault, placeHistory_vault]
  refine (foldl_part State.vault copyPanel_vault _ _).trans ?_
  rw [clearScales_vault]
  rfl

/-- A slot that holds an image keeps its bytes. -/
theorem setSlot_bytes {state : Nat} (n m : Nat) (img : Option Image) (hstate : state = 1 ∨ state = 2) :
    ((s.setSlot n state img).imgSlot m).bytes = (s.imgSlot m).bytes := by
  by_cases h : n = 0 ↔ m = 0
  · have hsame (v : State) : v.imgSlot m = v.imgSlot n := if_congr h.symm rfl rfl
    rw [hsame, hsame, setSlot_imgSlot_same, if_pos hstate]
  · rw [setSlot_imgSlot_ne _ _ h]

theorem turned_slot (s : State) (active : Option Nat) (n : Nat) (i : Image) :
    (s.turned active n i).imgSlot n = { s.imgSlot n with state := 1, image := some i } := by
  have hslot : (s.turned active n i).imgSlot n = (s.slotsTurned active n i).imgSlot n := rfl
  have hbytes : ((s.oldLoaded active).imgSlot n).bytes = (s.imgSlot n).bytes := by
    cases active with
    | none => rfl
    | some a => exact setSlot_bytes a n _ (.inr rfl)
  rw [hslot, State.slotsTurned, setSlot_imgSlot_same, hbytes]
  rfl

theorem turned_other {n m : Nat} (s : State) (i : Image) (h : ¬ (n = 0 ↔ m = 0)) :
    ((s.turned (some m) n i).imgSlot m).state = 2 ∧ ((s.turned (some m) n i).imgSlot m).image = (s.imgSlot m).image := by
  have hslot : (s.turned (some m) n i).imgSlot m = (s.slotsTurned (some m) n i).imgSlot m := rfl
  rw [hslot, State.slotsTurned, setSlot_imgSlot_ne _ _ h, State.oldLoaded, setSlot_imgSlot_same]
  exact ⟨rfl, rfl⟩

theorem imgSlot_of_img {t : State} (h : t.img = s.img) (n : Nat) : t.imgSlot n = s.imgSlot n := by rw [State.imgSlot, h, State.imgSlot]

/-- Of what the vault holds, a slot in force changes the images alone. -/
theorem turned_keeps (s : State) (active : Option Nat) (n : Nat) (i : Image) : (s.turned active n i).opt = s.opt ∧ (s.turned active n i).trust = s.trust
    ∧ (s.turned active n i).results = s.results ∧ (s.turned active n i).supply = s.supply ∧ (s.turned active n i).kennel = s.kennel := by
  have hrest := setSlot_rest (s.oldLoaded active) n 1 (some i) s.img s.store
  have hold : { s.oldLoaded active with img := s.img, store := s.store } = s := by
    cases active with
    | none => rfl
    | some a => exact setSlot_rest s a 2 _ s.img s.store
  have h := hrest.trans hold
  exact ⟨(congrArg State.opt h :), (congrArg State.trust h :), (congrArg State.results h :), (congrArg State.supply h :), (congrArg State.kennel h :)⟩

/-- The swap boundary of a module of its own: the new image is in force, the old one's slot is loaded, and options, trust, results and the
monitor stand. -/
theorem execSwapBoundary_turns (hsolo : s.solo = true) (hswap : s.img.swap = some w) (hslot : w.slot ≤ 1) (himage : (s.imgSlot w.slot).image = some i)
    (hboundary : s.atSwapBoundary = true) :
    ∃ t, execSwapBoundary s = .next t ∧ t.img.active = some w.slot ∧ t.img.swap = none ∧ t.img.good = true
      ∧ t.imgSlot w.slot = { s.imgSlot w.slot with state := 1, image := some i }
      ∧ (s.img.active = some (1 - w.slot) → (t.imgSlot (1 - w.slot)).state = 2 ∧ (t.imgSlot (1 - w.slot)).image = (s.imgSlot (1 - w.slot)).image)
      ∧ t.opt = s.opt ∧ t.trust = s.trust ∧ t.results = s.results ∧ { t.supply with waiting := s.supply.waiting } = s.supply ∧ t.kennel = s.kennel := by
  have hexec : execSwapBoundary s = .next s.swapNow := (if_neg (by simp [hboundary])).trans (if_pos hsolo)
  have hbrought : s.swapImage = some i := by rw [State.swapImage, hswap]; exact himage
  obtain ⟨himg, hopt, htrust, hresults, hsupply, hkennel⟩ := parts_of_vault (swapNow_vault hswap hbrought)
  obtain ⟨hgimg, hgopt, hgtrust, hgresults, hgsupply, hgkennel⟩ := parts_of_vault (oldGone_vault s w)
  obtain ⟨hkopt, hktrust, hkresults, hksupply, hkkennel⟩ := turned_keeps (s.oldGone w) s.img.active w.slot i
  refine ⟨_, hexec, ?_, ?_, ?_, ?_, fun hactive => ?_, ?_, ?_, ?_, ?_, ?_⟩
  · rw [himg]; rfl
  · rw [himg]; rfl
  · rw [himg]; rfl
  · rw [imgSlot_of_img himg, turned_slot, imgSlot_of_img hgimg]
  · rw [imgSlot_of_img himg, hactive, ← imgSlot_of_img hgimg]
    exact turned_other (s.oldGone w) i (by omega)
  · rw [hopt, hkopt, hgopt]
  · rw [htrust, hktrust, hgtrust]
  · rw [hresults, hkresults, hgresults]
  · refine (congrArg (fun v : Supply => { v with waiting := s.supply.waiting }) hsupply).trans ?_
    rw [hksupply]
    exact hgsupply
  · rw [hkennel, hkkennel, hgkennel]

/-! ## SWAP_STEP4_DONE -/

theorem execSwapStep4Done_solo (hsolo : s.solo = true) (hswap : s.img.swap = some w) (hphase : w.phase = 3) (htodo : w.todo = [])
    (hqueue : s.upk.queue.any (fun x => decide (x.why = .swap) || x.newImage) = false) :
    execSwapStep4Done s = .next { s with img := { s.img with swap := some { w with phase := 5, doneAt := some s.life.now, released := false } } } := by
  have hsent (v : Images) : State.swapReadySent { s with img := v } = { s with img := v } := if_pos hsolo
  unfold execSwapStep4Done
  rw [hswap]
  exact (if_pos ⟨hphase, htodo, hqueue⟩).trans (congrArg Host.Outcome.next (hsent _))

/-! ## The obligation -/

/-- IMAGE_VALIDATION_DONE, as the obligation states it. -/
theorem imageValidationDone_takesEffect {given img : Image} {f : Xfer} {who : Nat × Nat} (hfw : s.fwUp = true) (hxfer : s.img.xfer = some f)
    (hending : f.ending = some who) (himg : img = readImage (s.imgSlot s.inactive).bytes f.length f.digest given) :
    ∃ t, execImageValidationDone given s = .next t ∧ t.img.xfer = none ∧ t.life.commit = s.life.commit + 1
      ∧ (f.failed = false → img.verdict s.mem.banksOut s.optv.level s.opt.shadow.imgCtr s.imageAnchors = .ok →
          t.imgSlot s.inactive = { s.imgSlot s.inactive with state := 2, image := some img })
      ∧ ((f.failed = true ∨ img.verdict s.mem.banksOut s.optv.level s.opt.shadow.imgCtr s.imageAnchors ≠ .ok) → t.imgSlot s.inactive = { state := 0 })
      ∧ t.imgSlot (1 - s.inactive) = s.imgSlot (1 - s.inactive)
      ∧ { t with img := s.img, comms := s.comms, out := s.out, store := s.store, life := { t.life with
            commit := s.life.commit, storedStamp := s.life.storedStamp } } = s := by
  have hexec : ∃ st, execImageValidationDone given s = .next ((s.validated img st).complete (some who) 0x0202 0xFFFF st 0 [(1, be 8 (top 64))])
      ∧ st = (if f.failed then .storeFail else img.verdict s.mem.banksOut s.optv.level s.opt.shadow.imgCtr s.imageAnchors) := by
    refine ⟨_, ?_, rfl⟩
    unfold execImageValidationDone
    simp only [hxfer, hending, hfw, ← himg]
    rfl
  obtain ⟨st, hexec, hst⟩ := hexec
  obtain ⟨hnone, hcommit, hslot, hother, hrest⟩ := validated_marks s img st
  obtain ⟨co, ou, hcomplete⟩ := complete_eq (s.validated img st) (some who) 0x0202 0xFFFF st 0 [(1, be 8 (top 64))]
  rw [hcomplete] at hexec
  refine ⟨_, hexec, hnone, hcommit, fun hsound hverdict => ?_, fun hbad => ?_, hother,
    (congrArg (fun v : State => { v with comms := s.comms, out := s.out }) hrest :)⟩
  · refine hslot.trans (if_pos ?_)
    rw [hst, hsound, hverdict]
    rfl
  · refine hslot.trans (if_neg ?_)
    rw [hst]
    rcases hbad with hfailed | hverdict
    · rw [if_pos hfailed]
      decide
    · split
      · decide
      · exact hverdict

/-- Settles O23: each command by the rule that refuses it or the state that its own rules leave; of the swap boundary, each step keeps
what the statement says stands. -/
theorem imageCommandsTakeEffect : Obligations.ImageCommandsTakeEffect := by
  refine ⟨fun s sid x p h => ⟨fun hswap hlow hhigh => ?_, execImgBegin_busy h, execImgBegin_long h, execImgBegin_empty h⟩,
    fun s sid x p h => ⟨execImgEnd_none h, fun f hxfer => execImgEnd_ending hxfer h, fun f hxfer => execImgEnd_missing hxfer h,
      fun f hxfer => execImgEnd_whole hxfer h⟩,
    fun given img s f who hfw hxfer hending himg => imageValidationDone_takesEffect hfw hxfer hending himg,
    fun s sid x p h => ⟨execImgAbort_none h, fun hxfer => ?_⟩,
    fun s sid x p h => ⟨execSwap_busy h, fun i hswap hloaded himage => execSwap_full h hswap hloaded himage, fun i hswap hloaded himage hfits => ?_⟩,
    fun s w hsolo hswap hphase htodo hqueue => execSwapStep4Done_solo hsolo hswap hphase htodo hqueue,
    fun s w i hsolo hswap hslot himage hboundary => execSwapBoundary_turns hsolo hswap hslot himage hboundary⟩
  · obtain ⟨t, ht, hdone⟩ := execImgBegin_opens h hswap hlow hhigh
    obtain ⟨hstate, himage, hother⟩ := openXfer_slots s.commit (p.num 1)
    have hslot (n : Nat) : t.imgSlot n = (s.commit.openXfer (p.num 1)).imgSlot n := hdone.part (·.imgSlot n) fun _ _ _ => rfl
    refine ⟨t, ht, hdone, ?_, ?_, ?_⟩
    · rw [hslot]; exact hstate
    · rw [hslot]; exact himage
    · rw [hslot]; exact hother
  · obtain ⟨t, ht, hdone⟩ := execImgAbort_drops h hxfer
    obtain ⟨hnone, hslot⟩ := dropXfer_marks s.commit
    refine ⟨t, ht, hdone, ?_, ?_⟩
    · rw [hdone.part State.img fun _ _ _ => rfl]
      exact hnone
    · exact (hdone.part (·.imgSlot s.inactive) fun _ _ _ => rfl).trans hslot
  · obtain ⟨t, ht, hdone⟩ := execSwap_begins h hswap hloaded himage hfits
    obtain ⟨w, himg, hasked, hslot, htodo, hqueue⟩ := beginSwap_marks s.commit i (some (sid, p.seq))
    have htimg : t.img = _ := (hdone.part State.img fun _ _ _ => rfl).trans himg
    refine ⟨t, w, ht, hdone, ?_, hasked, hslot, htodo, ?_, (hdone.part (·.upk.queue) fun _ _ _ => rfl).trans hqueue⟩
    · rw [htimg]
    · rw [htimg]
      rfl

end Sys2Proof.Machine
end

section
/-! The steps of the shuttle port and of the sync port, the end of a stall and the completion of a step (R223, R246, R252, R257 to
R259, R268, R272). -/

namespace Sys2Proof.Machine

open Sys2Proof

variable {s : State} {th : Nat}

/-! ## Submits, R223 -/

/-- A ring with the bases that a submit record names. -/
def Ring.based (x : Ring) (r : BitVec 256) : Ring :=
  { x with sbase := if rf r 230 230 = 1 then rf r 228 189 else x.sbase
           dbase := if rf r 229 229 = 1 then rf r 188 149 else x.dbase }

theorem submit_of_fits {x : Ring} (hfit : (s.ring (ringNo th (s.recordOf th))).submit (rf (s.recordOf th) 241 231) false = some x) :
    s.submit th = ((s.updRing (ringNo th (s.recordOf th)) (fun _ => x.based (s.recordOf th))).updThread th
      (fun y => { y with unseen := [] })).stepDone th := by
  simp only [State.submit, hfit]
  rfl

theorem submit_of_full (hfull : (s.ring (ringNo th (s.recordOf th))).submit (rf (s.recordOf th) 241 231) false = none) :
    s.submit th = s.stall th .ring := by
  simp only [State.submit, hfull]

@[simp] theorem updThread_ring (s : State) (t : Nat) (f : Thread → Thread) (n : Nat) : (s.updThread t f).ring n = s.ring n := rfl
@[simp] theorem updRing_thread (s : State) (n : Nat) (f : Ring → Ring) (t : Nat) : (s.updRing n f).thread t = s.thread t := rfl

/-- A submit that fits changes its ring and its thread, which has then done its step. -/
theorem submit_runs {x : Ring} (hfit : (s.ring (ringNo th (s.recordOf th))).submit (rf (s.recordOf th) 241 231) false = some x) :
    ((s.submit th).thread th).state = .running ∧ ((s.submit th).thread th).done = true
      ∧ (s.submit th).ring (ringNo th (s.recordOf th)) = x.based (s.recordOf th)
      ∧ (∀ n, n ≠ ringNo th (s.recordOf th) → (s.submit th).ring n = s.ring n) ∧ (∀ u, u ≠ th → (s.submit th).thread u = s.thread u)
      ∧ { s.submit th with rings := s.rings, threads := s.threads } = s := by
  rw [submit_of_fits hfit, State.stepDone]
  refine ⟨by simp, by simp, by simp, fun n hn => ?_, fun u hu => ?_, rfl⟩
  · rw [updThread_ring, updThread_ring, State.updRing_ring_ne _ _ _ _ hn.symm]
  · rw [State.updThread_thread_ne _ _ _ _ hu.symm, State.updThread_thread_ne _ _ _ _ hu.symm, updRing_thread]

theorem execShuttleSubmit_issued (hissue : s.issues th 5 = true) : execShuttleSubmit th s = .next (s.submit th) := by
  rw [execShuttleSubmit, if_pos hissue]

theorem execShuttleSubmitUnstall_fits {x : Ring} (hfit : (s.ring (ringNo th (s.recordOf th))).submit (rf (s.recordOf th) 241 231) false = some x)
    (hstalled : (s.thread th).state = .stalled) (hring : (s.thread th).waits = .ring) (hcatch : (s.thread th).catchUp = false) :
    execShuttleSubmitUnstall th s = .next (s.submit th) := by
  simp [execShuttleSubmitUnstall, hfit, hstalled, hring, hcatch]

/-! ## Signals and fences, R257, R268 -/

theorem execCounterSignal_local (hissue : s.issues th 6 = true) (hlocal : rf (s.recordOf th) 203 203 ≠ 1) :
    execCounterSignal th s = .next ((s.sendSignal
      { who := th, ctx := (s.thread th).ctx, id := rf (s.recordOf th) 247 236, delta := rf (s.recordOf th) 235 204 }).stepDone th) := by
  rw [execCounterSignal, if_pos hissue, State.signalRecord]
  simp only [if_neg hlocal]

/-- Every earlier write of the thread is visible. -/
def State.fenced (s : State) (t : Nat) : State := s.updThread t (fun x => { x with unseen := [] })

theorem stepOnly_fenced (s : State) (th : Nat) : StepOnly th s (s.fenced th) := stepOnly_updThread _ _ _ (fun _ => ⟨rfl, rfl, rfl⟩)

@[simp] theorem fenced_recordOf (s : State) (th : Nat) : (s.fenced th).recordOf th = s.recordOf th := by
  simp [State.recordOf, State.fenced, State.core]

theorem execFence_module (hissue : s.issues th 8 = true) (hscope : rf (s.recordOf th) 247 246 = 0) :
    execFence th s = .next ((s.fenced th).stepDone th) := by
  rw [execFence, if_pos hissue]
  simp only [if_pos hscope]
  rfl

/-! ## Compares, R258, R265, R266 -/

theorem takeLine_eq (s : State) (cluster p expect : Nat) : ∃ lines, s.takeLine cluster p expect = { s with sync := { s.sync with lines := lines } } := by
  unfold State.takeLine
  dsimp only
  split
  · exact ⟨s.sync.lines, rfl⟩
  · split
    · exact ⟨s.sync.lines, rfl⟩
    · exact ⟨_, rfl⟩

/-- The home's table with one compare more, before a wake line is taken for it. -/
def State.tabled (s : State) (p : Nat) (w : Compare) : State :=
  (s.updCounter p (fun c => { c with waiters := c.waiters ++ [w] })).setUsed (homeOf p) (s.usedAt (homeOf p) + 1)

theorem enterCompare_eq (s : State) (p : Nat) (w : Compare) : ∃ lines,
    s.enterCompare p w = { s.tabled p w with sync := { (s.tabled p w).sync with lines := lines } } := by
  unfold State.enterCompare
  dsimp only
  split
  · exact takeLine_eq ..
  · exact ⟨(s.tabled p w).sync.lines, rfl⟩

/-- A compare that its home takes stands last among the counter's waiters. -/
theorem enterCompare_marks (s : State) (p : Nat) (w : Compare) : ((s.enterCompare p w).counter p).waiters = (s.counter p).waiters ++ [w]
    ∧ ((s.enterCompare p w).counter p).value = (s.counter p).value ∧ (s.enterCompare p w).usedAt (homeOf p) = s.usedAt (homeOf p) + 1
    ∧ (∀ q, q ≠ p → (s.enterCompare p w).counter q = s.counter q) ∧ { s.enterCompare p w with sync := s.sync } = s := by
  obtain ⟨lines, h⟩ := enterCompare_eq s p w
  have hcounter (q : Nat) : (s.enterCompare p w).counter q = (s.updCounter p (fun c => { c with waiters := c.waiters ++ [w] })).counter q := by
    rw [h]
    rfl
  have hused : (s.enterCompare p w).usedAt (homeOf p) = (s.tabled p w).usedAt (homeOf p) := by
    rw [h]
    rfl
  refine ⟨by simp [hcounter], by simp [hcounter], hused.trans ?_, fun q hq => by rw [hcounter, State.updCounter_counter_ne _ _ _ _ hq.symm], by rw [h]; rfl⟩
  exact Tab.get_set_same (d := 0) s.sync.used (homeOf p) (s.usedAt (homeOf p) + 1)

/-- A registration, entered or left waiting for an entry, changes the sync controllers and what a trouble event touches, and keeps
the signals on their way. -/
theorem register_leaves (s : State) (c p : Nat) (w : Compare) : ∃ sync co d lo cm ou, s.register c p w = { s with
    sync := sync, life := { s.life with commit := co, storedStamp := d }, logs := lo, comms := cm, out := ou } ∧ sync.signals = s.sync.signals := by
  unfold State.register
  split
  · obtain ⟨lines, h⟩ := enterCompare_eq s p w
    exact ⟨_, s.life.commit, s.life.storedStamp, s.logs, s.comms, s.out, h, rfl⟩
  · dsimp only
    split
    · exact ⟨_, s.life.commit, s.life.storedStamp, s.logs, s.comms, s.out, rfl, rfl⟩
    · obtain ⟨co, d, lo, cm, ou, h, -⟩ := trouble_eq { s with sync := { s.sync with blocked := s.sync.blocked ++ [(p, w)], fullLogged := c :: s.sync.fullLogged } }
        2 18 (locCluster (homeOf p)) 0 c [] (by decide) (by decide)
      exact ⟨_, co, d, lo, cm, _, h, rfl⟩

/-! ## Waits, R258, R259 -/

/-- A thread that notes what it waits for. -/
def State.noteWait (s : State) (t id : Nat) (expect : Int) : State :=
  s.updThread t (fun x => { x with waitId := id, expect := expect, wstat := 0 })

/-- A thread that goes to sleep on a counter. -/
def State.sleep (s : State) (t : Nat) : State := s.updThread t (fun x => { x with state := .sleeping, waits := .counter, done := false })

section
variable {id p : Nat} {e : Int}

@[simp] theorem noteWait_ctx (s : State) (th id : Nat) (e : Int) : ((s.noteWait th id e).thread th).ctx = (s.thread th).ctx := by simp [State.noteWait]

theorem waitOn_of_nonpos (h : e ≤ 0) : s.waitOn th id e = (s.noteWait th id e).stepDone th := by
  rw [State.waitOn]
  simp only [if_pos h]
  rfl

theorem waitOn_of_reached (hpos : 0 < e) (hbound : s.physOf (s.thread th).ctx id = some p) (horphan : (s.counter p).orphaned = false)
    (hreached : e ≤ ((s.counter p).value : Int)) : s.waitOn th id e = (s.noteWait th id e).stepDone th := by
  have hbound' : (s.noteWait th id e).physOf (s.thread th).ctx id = some p := hbound
  have hsame : (s.noteWait th id e).counter p = s.counter p := rfl
  rw [State.noteWait] at hbound' hsame
  simp [State.waitOn, not_le.2 hpos, hbound', hsame, horphan, hreached, State.noteWait]

theorem waitOn_of_low (hpos : 0 < e) (hbound : s.physOf (s.thread th).ctx id = some p) (horphan : (s.counter p).orphaned = false)
    (hlow : ((s.counter p).value : Int) < e) : s.waitOn th id e
      = ((s.noteWait th id e).sleep th).register (s.thread th).ctx p { who := .thread th, expect := e.toNat } := by
  have hbound' : (s.noteWait th id e).physOf (s.thread th).ctx id = some p := hbound
  have hsame : (s.noteWait th id e).counter p = s.counter p := rfl
  rw [State.noteWait] at hbound' hsame
  simp [State.waitOn, not_le.2 hpos, hbound', hsame, horphan, not_le.2 hlow, State.noteWait, State.sleep]

theorem stepOnly_noteWait (s : State) (th id : Nat) (e : Int) : StepOnly th s (s.noteWait th id e) :=
  stepOnly_updThread _ _ _ (fun _ => ⟨rfl, rfl, rfl⟩)

/-- A wait that is met at once has run. -/
theorem noteWait_runs (s : State) (th id : Nat) (e : Int) :
    StepRan s ((s.noteWait th id e).stepDone th) th [] ∧ (((s.noteWait th id e).stepDone th).thread th).wstat = 0 :=
  ⟨(stepOnly_noteWait s th id e).within.stepDone, by simp [State.stepDone, State.noteWait]⟩

/-- A wait on a counter below its expected value, with an entry free, stands in the table and its thread sleeps. -/
theorem waitOn_sleeps (hpos : 0 < e) (hbound : s.physOf (s.thread th).ctx id = some p) (horphan : (s.counter p).orphaned = false)
    (hlow : ((s.counter p).value : Int) < e) (hfree : s.usedAt (homeOf p) < 1024) :
    ((s.waitOn th id e).thread th).state = .sleeping
      ∧ ((s.waitOn th id e).counter p).waiters = (s.counter p).waiters ++ [{ who := .thread th, expect := e.toNat }]
      ∧ ((s.waitOn th id e).counter p).value = (s.counter p).value ∧ (s.waitOn th id e).usedAt (homeOf p) = s.usedAt (homeOf p) + 1
      ∧ (∀ q, q ≠ p → (s.waitOn th id e).counter q = s.counter q) ∧ (∀ u, u ≠ th → (s.waitOn th id e).thread u = s.thread u)
      ∧ { s.waitOn th id e with sync := s.sync, threads := s.threads } = s := by
  have henter : s.waitOn th id e = ((s.noteWait th id e).sleep th).enterCompare p { who := .thread th, expect := e.toNat } := by
    rw [waitOn_of_low hpos hbound horphan hlow]
    exact if_pos hfree
  obtain ⟨hwaiters, hvalue, hused, hother, hrest⟩ := enterCompare_marks ((s.noteWait th id e).sleep th) p { who := .thread th, expect := e.toNat }
  rw [← henter] at hwaiters hvalue hused hother hrest
  have hthread (u : Nat) : (s.waitOn th id e).thread u = ((s.noteWait th id e).sleep th).thread u :=
    (congrArg (fun v : State => v.thread u) hrest :)
  refine ⟨by simp [hthread, State.sleep], hwaiters, hvalue, hused, hother, fun u hu => ?_,
    (congrArg (fun v : State => { v with sync := s.sync, threads := s.threads }) hrest :)⟩
  rw [hthread, State.sleep, State.updThread_thread_ne _ _ _ _ hu.symm, State.noteWait, State.updThread_thread_ne _ _ _ _ hu.symm]

/-- A wait on a bound counter, met or not, leaves its thread at its record, the signals on their way, memory and the pack. -/
theorem waitOn_leaves (hbound : s.physOf (s.thread th).ctx id = some p) (horphan : (s.counter p).orphaned = false) (e : Int) :
    ((s.waitOn th id e).thread th).unseen = (s.thread th).unseen ∧ ((s.waitOn th id e).thread th).pc = (s.thread th).pc
      ∧ (s.waitOn th id e).sync.signals = s.sync.signals ∧ (s.waitOn th id e).mem = s.mem ∧ (s.waitOn th id e).pack = s.pack := by
  have hmet (h : s.waitOn th id e = (s.noteWait th id e).stepDone th) : ((s.waitOn th id e).thread th).unseen = (s.thread th).unseen
      ∧ ((s.waitOn th id e).thread th).pc = (s.thread th).pc ∧ (s.waitOn th id e).sync.signals = s.sync.signals
      ∧ (s.waitOn th id e).mem = s.mem ∧ (s.waitOn th id e).pack = s.pack := by
    rw [h]
    exact ⟨by simp [State.stepDone, State.noteWait], by simp [State.stepDone, State.noteWait], rfl, rfl, rfl⟩
  by_cases hpos : 0 < e
  · by_cases hreached : e ≤ ((s.counter p).value : Int)
    · exact hmet (waitOn_of_reached hpos hbound horphan hreached)
    · rw [waitOn_of_low hpos hbound horphan (not_le.1 hreached)]
      obtain ⟨sync, co, d, lo, cm, ou, h, hsignals⟩ := register_leaves ((s.noteWait th id e).sleep th) (s.thread th).ctx p
        { who := .thread th, expect := e.toNat }
      rw [h]
      have hthread : ((s.noteWait th id e).sleep th).thread th = { s.thread th with
          waitId := id, expect := e, wstat := 0, state := .sleeping, waits := .counter, done := false } := by
        simp [State.sleep, State.noteWait]
      refine ⟨?_, ?_, hsignals, rfl, rfl⟩
      · change (((s.noteWait th id e).sleep th).thread th).unseen = _
        rw [hthread]
      · change (((s.noteWait th id e).sleep th).thread th).pc = _
        rw [hthread]
  · exact hmet (waitOn_of_nonpos (not_lt.1 hpos))

end

theorem execCounterWait_issued (hissue : s.issues th 7 = true) : execCounterWait th s = .next (s.waitOn th (rf (s.recordOf th) 247 236)
    (signed 64 (unsigned 64 (signed 48 (rf (s.recordOf th) 235 188) + (rf (s.recordOf th) 187 172 * (s.thread th).iter : Nat))))) := by
  rw [execCounterWait, if_pos hissue]

/-! ## Barriers within the module, R272 -/

/-- The value of its central counter at which a barrier record goes on. -/
def State.barrierLevel (s : State) (t : Nat) : Nat :=
  rf (s.recordOf t) 235 220 * (rf (s.recordOf t) 219 212 * (s.thread t).iter + rf (s.recordOf t) 211 204)

/-- The signal of a barrier arrive record. -/
def State.arrivalOf (s : State) (t : Nat) : Signal := { who := t, ctx := (s.thread t).ctx, id := rf (s.recordOf t) 247 236, delta := 1 }

theorem arrive_local (hlocal : rf (s.recordOf th) 203 203 ≠ 1) :
    s.arrive th = (s.sendSignal (s.arrivalOf th)).waitOn th (rf (s.recordOf th) 247 236) (s.barrierLevel th) := by
  simp only [State.arrive, State.arriveRecord, if_neg hlocal]
  rfl

theorem execBarrierArrive_local (hissue : s.issues th 9 = true) (hlocal : rf (s.recordOf th) 203 203 ≠ 1) :
    execBarrierArrive th s = .next ((s.fenced th).arrive th) := by
  rw [execBarrierArrive, if_pos hissue]
  simp only [if_neg hlocal]
  rfl

theorem execBarrierArrive_arrives {p : Nat} (hissue : s.issues th 9 = true) (hlocal : rf (s.recordOf th) 203 203 ≠ 1)
    (hbound : s.physOf (s.thread th).ctx (rf (s.recordOf th) 247 236) = some p) (horphan : (s.counter p).orphaned = false) :
    ∃ t, execBarrierArrive th s = .next t ∧ (t.thread th).unseen = [] ∧ (t.thread th).pc = (s.thread th).pc
      ∧ t.sync.signals = s.sync.signals ++ [{ who := th, ctx := (s.thread th).ctx, id := rf (s.recordOf th) 247 236, delta := 1 }]
      ∧ t.mem = s.mem ∧ t.pack = s.pack := by
  have hthread : (s.fenced th).thread th = { s.thread th with unseen := [] } := by simp [State.fenced]
  have hlocal' : rf ((s.fenced th).recordOf th) 203 203 ≠ 1 := by rwa [fenced_recordOf]
  have hbound' : ((s.fenced th).sendSignal ((s.fenced th).arrivalOf th)).physOf
      (((s.fenced th).sendSignal ((s.fenced th).arrivalOf th)).thread th).ctx (rf ((s.fenced th).recordOf th) 247 236) = some p := by
    rw [fenced_recordOf]
    change s.physOf ((s.fenced th).thread th).ctx _ = some p
    rw [hthread]
    exact hbound
  obtain ⟨hunseen, hpc, hsignals, hmem, hpack⟩ := waitOn_leaves hbound' horphan ((s.fenced th).barrierLevel th)
  rw [← arrive_local hlocal'] at hunseen hpc hsignals hmem hpack
  refine ⟨_, execBarrierArrive_local hissue hlocal, hunseen.trans (congrArg Thread.unseen hthread :), hpc.trans (congrArg Thread.pc hthread :),
    hsignals.trans ?_, hmem, hpack⟩
  have harrival : (s.fenced th).arrivalOf th = s.arrivalOf th := by
    simp only [State.arrivalOf, fenced_recordOf, hthread]
  rw [harrival]
  rfl

/-! ## Stalls, R84, R121 -/

theorem execUnitBusyStallEnd_codebook (hstalled : (s.thread th).state = .stalled) (hwaits : (s.thread th).waits = .codebook)
    (hloaded : (s.engine (s.physEngine (th / 16) (mmRec (s.recordOf th)).engine)).cbLoading.contains (mmRec (s.recordOf th)).slot = false) :
    execUnitBusyStallEnd th s = .next (s.updThread th (fun x => { x with state := .ready, waits := .none })) := by
  unfold execUnitBusyStallEnd
  simp only [hstalled, hwaits, hloaded]
  rfl

theorem execUnitBusyStallEnd_planeFile (hstalled : (s.thread th).state = .stalled) (hwaits : (s.thread th).waits = .planeFile)
    (hload : (s.engine (s.panelAt th (s.recordOf th)).1).load = none) :
    execUnitBusyStallEnd th s = .next (s.updThread th (fun x => { x with state := .ready, waits := .none })) := by
  unfold execUnitBusyStallEnd
  simp [hstalled, hwaits, hload]

/-! ## Completion, R251, R254 -/

theorem live_started {c : Ctx} (h : c.live = true) : c.started = true := by
  unfold Ctx.live at h
  unfold Ctx.started
  split at h <;> simp_all

/-- `t` is `s` but for what context `c` holds. -/
def OwnCtx (c : Nat) (s t : State) : Prop := { t with ctxs := s.ctxs } = s ∧ ∀ k, k ≠ c → t.ctx k = s.ctx k

theorem ownCtx_refl (c : Nat) (s : State) : OwnCtx c s s := ⟨rfl, fun _ _ => rfl⟩

theorem OwnCtx.trans {c : Nat} {s t u : State} (h : OwnCtx c s t) (g : OwnCtx c t u) : OwnCtx c s u :=
  ⟨((congrArg (fun v : State => { v with ctxs := s.ctxs }) g.1 :)).trans h.1, fun k hk => (g.2 k hk).trans (h.2 k hk)⟩

theorem ownCtx_updCtx (c : Nat) (s : State) (f : Ctx → Ctx) : OwnCtx c s (s.updCtx c f) :=
  ⟨rfl, fun _ hk => State.updCtx_ctx_ne _ _ _ _ hk.symm⟩

theorem OwnCtx.thread {c : Nat} {s t : State} (h : OwnCtx c s t) (u : Nat) : t.thread u = s.thread u :=
  (congrArg (fun v : State => v.thread u) h.1 :)

theorem OwnCtx.recordOf {c : Nat} {s t : State} (h : OwnCtx c s t) (u : Nat) : t.recordOf u = s.recordOf u :=
  (congrArg (fun v : State => v.recordOf u) h.1 :)

theorem ownCtx_refreshCtx (s : State) (c : Nat) : OwnCtx c s (s.refreshCtx c) := ownCtx_updCtx _ _ _

theorem ownCtx_poisonState (s : State) (c : Nat) : OwnCtx c s (s.poisonState c) := by
  unfold State.poisonState
  split
  · exact ownCtx_updCtx _ _ _
  · exact ownCtx_refl _ _

theorem mem_of_get_ne {α : Type} {d : α} {t : Tab α} {k : Nat} (h : Tab.get d t k ≠ d) : (k, Tab.get d t k) ∈ t := by
  induction t with
  | nil => exact absurd rfl h
  | cons e t ih =>
    obtain ⟨a, v⟩ := e
    by_cases hk : a = k
    · subst hk
      simp [Tab.get]
    · simp only [Tab.get, if_neg hk] at h ⊢
      exact List.mem_cons_of_mem _ (ih h)

/-- A context one of whose threads is Ready is not idle. -/
theorem idle_of_ready {c : Nat} (hstate : (s.thread th).state = .ready) (hctx : (s.thread th).ctx = c) : s.idle c = false := by
  have hmem : (th, s.thread th) ∈ s.threads := by
    refine mem_of_get_ne fun h => ?_
    rw [State.thread, h] at hstate
    exact absurd hstate (by decide)
  have hbound : th ∈ s.threadsOf c := by
    refine List.mem_map.2 ⟨(th, s.thread th), List.mem_filter.2 ⟨hmem, ?_⟩, rfl⟩
    simp [hstate, hctx]
  rw [State.idle, List.all_eq_false]
  exact ⟨th, hbound, by simp [hstate]⟩

theorem settle_of_ready {c : Nat} (hstate : (s.thread th).state = .ready) (hctx : (s.thread th).ctx = c) : s.settle c = s.refreshCtx c := by
  have hidle : (s.refreshCtx c).idle c = false := idle_of_ready (s := s) hstate hctx
  rw [State.settle]
  simp only [if_pos hidle]

theorem skipFrom_of_no_catchUp (h : (s.thread th).catchUp = false) (n : Nat) : s.skipFrom th n = s := by
  cases n with
  | zero => rfl
  | succ n => simp [State.skipFrom, h]

/-- The state of a thread that goes on to its next record. -/
def Thread.goneOn (x : Thread) (since : Nat) : Thread := { x with pc := x.pc + 1, state := .ready, done := false, waits := .none, since := since }

theorem proceed_goes_on (hcatch : (s.thread th).catchUp = false) (hmore : rEnd (s.recordOf th) = false) : ∃ v since,
    OwnCtx (s.thread th).ctx s v ∧ (∀ u, u ≠ th → (s.proceed th).thread u = v.thread u) ∧ (s.proceed th).thread th = (v.thread th).goneOn since
      ∧ { s.proceed th with threads := v.threads } = v := by
  have hmore' : rEnd ((s.updCtx (s.thread th).ctx (fun x => { x with alive := s.life.now })).recordOf th) = false := hmore
  have hown := ownCtx_updCtx (s.thread th).ctx s (fun x => { x with alive := s.life.now })
  have hgo : s.proceed th = (((s.updCtx (s.thread th).ctx (fun x => { x with alive := s.life.now })).updThread th
      (fun x => { x with pc := x.pc + 1 })).readyAt th) := by
    rw [State.proceed]
    simp only [hmore']
    rfl
  generalize s.updCtx (s.thread th).ctx (fun x => { x with alive := s.life.now }) = v at hgo hown
  rw [State.readyAt, skipFrom_of_no_catchUp (by simp [hown.thread, hcatch])] at hgo
  refine ⟨v, (v.updThread th (fun x => { x with pc := x.pc + 1 })).nextSince, hown, fun u hu => ?_, ?_, by rw [hgo]; rfl⟩
  · rw [hgo, State.updThread_thread_ne _ _ _ _ hu.symm, State.updThread_thread_ne _ _ _ _ hu.symm]
  · rw [hgo]
    simp [Thread.goneOn]

theorem execStepComplete_ended (hstate : (s.thread th).state = .running) (hdone : (s.thread th).done = true)
    (hended : (s.ctx (s.thread th).ctx).started = false) (tok : Option TokenOut) : execStepComplete th tok s
      = .next (s.updThread th (fun y => if (s.ctx (s.thread th).ctx).state = .faulted then { y with state := .faulted, done := false, waits := .none } else y.freed)) := by
  simp [execStepComplete, hstate, hdone, hended]

theorem execStepComplete_goes_on (hstate : (s.thread th).state = .running) (hdone : (s.thread th).done = true)
    (hlive : (s.ctx (s.thread th).ctx).live = true) (hcatch : (s.thread th).catchUp = false) (hmore : rEnd (s.recordOf th) = false) :
    ∃ t, execStepComplete th none s = .next t ∧ (t.thread th).state = .ready ∧ (t.thread th).pc = (s.thread th).pc + 1
      ∧ (t.thread th).iter = (s.thread th).iter ∧ (∀ u, u ≠ th → t.thread u = s.thread u) ∧ { t with threads := s.threads, ctxs := s.ctxs } = s
      ∧ ∀ c, c ≠ (s.thread th).ctx → t.ctx c = s.ctx c := by
  have hexec : execStepComplete th none s = .next (((s.poisonState (s.thread th).ctx).proceed th).settle (s.thread th).ctx) := by
    simp [execStepComplete, hstate, hdone, live_started hlive, State.headOutputs]
  have hpoison := ownCtx_poisonState s (s.thread th).ctx
  generalize hc : (s.thread th).ctx = c at hexec hpoison hlive
  obtain ⟨v, since, hown, hother, hself, hrest⟩ := proceed_goes_on (s := s.poisonState c) (th := th) (by rw [hpoison.thread, hcatch])
    (by rw [hpoison.recordOf, hmore])
  rw [hpoison.thread, hc] at hown
  have hv := hpoison.trans hown
  have hready : ((s.poisonState c).proceed th).thread th = (s.thread th).goneOn since := by rw [hself, hv.thread]
  rw [settle_of_ready (by rw [hready]; rfl) (by rw [hready]; exact hc)] at hexec
  have hrefresh := ownCtx_refreshCtx ((s.poisonState c).proceed th) c
  refine ⟨_, hexec, ?_, ?_, ?_, fun u hu => ?_, ?_, fun k hk => ?_⟩
  · rw [hrefresh.thread, hready]; rfl
  · rw [hrefresh.thread, hready]; rfl
  · rw [hrefresh.thread, hready]; rfl
  · rw [hrefresh.thread, hother u hu, hv.thread]
  · calc { ((s.poisonState c).proceed th).refreshCtx c with threads := s.threads, ctxs := s.ctxs }
        = { ({ (s.poisonState c).proceed th with threads := v.threads } : State) with threads := s.threads, ctxs := s.ctxs } := rfl
      _ = { ({ v with ctxs := s.ctxs } : State) with threads := s.threads } := by rw [hrest]
      _ = s := by rw [hv.1]
  · rw [hrefresh.2 k hk]
    exact ((congrArg (fun w : State => w.ctx k) hrest :)).trans (hv.2 k hk)

end Sys2Proof.Machine
end

section
/-! The obligation on the steps of the shuttle port and the sync port, stalls and completion (O13). -/

namespace Sys2Proof.Machine

open Sys2Proof

/-- Settles O13: each step by what it changes; a wait by whether its counter has reached the expected value. -/
theorem syncStepsRun : Obligations.SyncStepsRun := by
  refine ⟨fun c th s x hfit hcmd => ?_, fun th s hissue hfull => ?_, fun th s hissue hlocal => ?_, fun th s e hissue he => ?_,
    fun th s hissue hscope => ?_, fun th s hissue hlocal ⟨p, hbound, horphan⟩ => execBarrierArrive_arrives hissue hlocal hbound horphan,
    fun th s hstalled hend => ?_, fun th s hstate hdone => ⟨fun hended => execStepComplete_ended hstate hdone hended,
      fun hlive => execStepComplete_goes_on hstate hdone hlive⟩⟩
  · refine ⟨s.submit th, ?_, submit_runs hfit⟩
    rcases hcmd with ⟨rfl, hissue⟩ | ⟨rfl, hstalled, hring, hcatch⟩
    · exact execShuttleSubmit_issued hissue
    · exact execShuttleSubmitUnstall_fits hfit hstalled hring hcatch
  · exact (execShuttleSubmit_issued hissue).trans (congrArg _ (submit_of_full hfull))
  · exact ⟨_, execCounterSignal_local hissue hlocal, (stepOnly_refl th _).within.stepDone⟩
  · subst he
    refine ⟨_, execCounterWait_issued hissue, fun hmet => ?_, fun p hpos hbound horphan => ⟨fun hreached => ?_,
      fun hlow hfree => waitOn_sleeps hpos hbound horphan hlow hfree⟩⟩
    · rw [waitOn_of_nonpos hmet]
      exact noteWait_runs ..
    · rw [waitOn_of_reached hpos hbound horphan hreached]
      exact noteWait_runs ..
  · exact ⟨_, execFence_module hissue hscope, (stepOnly_fenced s th).within.stepDone, by simp [State.stepDone, State.fenced]⟩
  · rcases hend with ⟨hwaits, hloaded⟩ | ⟨hwaits, hload⟩
    · exact execUnitBusyStallEnd_codebook hstalled hwaits hloaded
    · exact execUnitBusyStallEnd_planeFile hstalled hwaits hload

end Sys2Proof.Machine
end

section
/-! DESCRIPTOR_START and CHUNK_DONE of a fill (R216, R224, R226, R229, R235). -/

namespace Sys2Proof.Machine

open Sys2Proof

variable {s : State}

/-! ## DESCRIPTOR_START -/

/-- The flight of a ring's head descriptor, before it knows what others have written. -/
def State.headFlight (s : State) (r : Nat) : Flight :=
  { ring := r, desc := (s.ring r).headDesc, sbase := (s.ring r).sbase, dbase := (s.ring r).dbase, ctx := s.descCtx r (s.ring r).headDesc
    skip := (s.ring r).skipped.headD false, moved := if (s.ring r).skipped.headD false then dTotal (s.ring r).headDesc else 0 }

/-- The head descriptor of a ring has left for a channel. -/
def State.launched (s : State) (r ch : Nat) : State :=
  (s.updRing r Ring.started).setChannel ch (s.channel ch ++ [{ s.headFlight r with rivals := s.writtenBefore (s.headFlight r) }])

theorem execDescriptorStart_launches {r ch : Nat} (hcluster : ch / 4 = r / 64) (hready : s.ringReady r = true) (hfirst : s.ringFirst r = true)
    (hon : s.domOn (.clusterCommon (r / 64)) = true)
    (hpower : (s.headFlight r).skip = true ∨ s.descDomains (s.headFlight r).desc = [])
    (herr : (s.headFlight r).skip = true ∨ (s.headFlight r).isFetch = true ∨ s.descErr (s.headFlight r) = 0) :
    execDescriptorStart r { channel := ch } s = .next (s.launched r ch) := by
  have hnone : (if (s.headFlight r).skip then [] else s.descDomains (s.headFlight r).desc) = [] := by
    rcases hpower with hskip | hawake
    · rw [if_pos hskip]
    · rw [hawake, ite_self]
  have hgood : (if (s.headFlight r).skip = true ∨ (s.headFlight r).isFetch = true then 0 else s.descErr (s.headFlight r)) = 0 := by
    rcases herr with hskip | hfetch | hzero
    · rw [if_pos (.inl hskip)]
    · rw [if_pos (.inr hfetch)]
    · rw [hzero, ite_self]
  unfold State.headFlight at hnone hgood
  unfold execDescriptorStart State.launched State.headFlight
  simp only [hcluster, hready, hfirst, hon, if_true, ne_eq, not_true_eq_false, reduceCtorEq, or_self, if_false, List.nil_append, hnone,
    Bool.false_eq_true, hgood]

theorem launched_marks (s : State) (r ch : Nat) :
    (s.launched r ch).channel ch = s.channel ch ++ [{ s.headFlight r with rivals := s.writtenBefore (s.headFlight r) }]
      ∧ (s.launched r ch).ring r = (s.ring r).started ∧ (∀ n, n ≠ r → (s.launched r ch).ring n = s.ring n)
      ∧ (∀ n, n ≠ ch → (s.launched r ch).channel n = s.channel n) ∧ { s.launched r ch with rings := s.rings, channels := s.channels } = s := by
  have hring (n : Nat) : (s.launched r ch).ring n = (s.updRing r Ring.started).ring n := rfl
  refine ⟨State.setChannel_channel_same .., by rw [hring, State.updRing_ring_same], fun n hn => by rw [hring, State.updRing_ring_ne _ _ _ _ hn.symm],
    fun n hn => ?_, rfl⟩
  rw [State.launched, State.setChannel_channel_ne _ _ _ _ hn.symm]
  rfl

theorem execDescriptorStart_fenced {r : Nat} (hfence : dFence (s.ring r).headDesc = true) (hflying : (s.ring r).inflight ≠ 0) (pick : ChannelPick) :
    execDescriptorStart r pick s = .next s := by
  have hwaits : s.ringReady r = false := by simp [State.ringReady, hfence, hflying]
  unfold execDescriptorStart
  simp only [hwaits, true_or, or_true, if_true]

/-! ## What a fill leaves beside the bytes -/

/-- `t` is `s` but for memory, the stamp, the log, the trouble words, the sessions and what leaves the module. -/
def StoredOnly (s t : State) : Prop :=
  { t with mem := s.mem, life := { t.life with commit := s.life.commit, storedStamp := s.life.storedStamp }, logs := s.logs, comms := s.comms, out := s.out } = s

theorem StoredOnly.part {α : Type} {t : State} (h : StoredOnly s t) (g : State → α)
    (hg : ∀ (v : State) (m : Memory) (c d : Nat) (lo : Logs) (co : Comms) (ou : List Out),
      g { v with mem := m, life := { v.life with commit := c, storedStamp := d }, logs := lo, comms := co, out := ou } = g v) : g t = g s :=
  (hg t s.mem s.life.commit s.life.storedStamp s.logs s.comms s.out).symm.trans (congrArg g h)

theorem StoredOnly.trans {t u : State} (h : StoredOnly s t) (g : StoredOnly t u) : StoredOnly s u :=
  (congrArg (fun v : State => { v with
    mem := s.mem, life := { v.life with commit := s.life.commit, storedStamp := s.life.storedStamp }, logs := s.logs, comms := s.comms, out := s.out })
    g :).trans h

theorem StoredOnly.dstAt {t : State} (h : StoredOnly s t) (f : Flight) (p : Nat) : t.dstAt f p = s.dstAt f p :=
  h.part (·.dstAt f p) fun _ _ _ _ _ _ _ => rfl

theorem storedOnly_updMem (s : State) (f : Memory → Memory) : StoredOnly s (s.updMem f) := rfl

theorem homeEvent_leaves (s : State) (sp : Space) (a c : Nat) : StoredOnly s (s.homeEvent sp a c) ∧ (s.homeEvent sp a c).mem = s.mem := by
  obtain ⟨co, d, lo, cm, ou, h, -⟩ := trouble_eq s 2 2 (sp.loc a) (sp.bunit a) c (memDetail a 0 0) (by decide) (by decide)
  rw [State.homeEvent, h]
  exact ⟨rfl, rfl⟩

theorem homeWrite_leaves (s : State) (sp : Space) (a n c : Nat) : StoredOnly s (s.homeWrite sp a n c) ∧ (s.homeWrite sp a n c).mem = s.mem := by
  unfold State.homeWrite
  split
  · exact ⟨rfl, rfl⟩
  · split
    · exact ⟨rfl, rfl⟩
    · exact homeEvent_leaves ..

/-! ## The pieces of a chunk -/

/-- The bytes that a piece fills, of the destination of a flight. -/
def State.takesIn (s : State) (f : Flight) (x : Piece) (sp : Space) (a : Nat) : Prop := sp = (s.dstAt f 0).1 ∧ x.dst ≤ a ∧ a < x.dst + x.n

/-- Filling one piece writes that piece alone. -/
theorem movePiece_fills {f : Flight} (hfill : dMode f.desc = 2) (hrivals : f.rivals = []) (bad : Bool) (x : Piece) :
    StoredOnly s (s.movePiece f bad x)
      ∧ ∀ (sp : Space) (a : Nat), ¬ s.takesIn f x sp a → (s.movePiece f bad x).mem.read sp a = s.mem.read sp a := by
  have heq : s.movePiece f bad x = (s.homeWrite (s.dstAt f 0).1 x.dst x.n f.ctx).updMem
      (fun m => m.store (s.dstAt f 0).1 x.dst (List.replicate x.n 0) false) := by
    simp only [State.movePiece, hfill, hrivals, decide_true, if_true, Bool.not_true, Bool.false_and, Bool.false_eq_true, if_false]
  obtain ⟨honly, hmem⟩ := homeWrite_leaves s (s.dstAt f 0).1 x.dst x.n f.ctx
  rw [heq]
  refine ⟨honly.trans (storedOnly_updMem _ _), fun sp a hout => ?_⟩
  rw [State.updMem_mem_eq, hmem, read_store_outside _ _ (by rwa [List.length_replicate])]

theorem movePieces_fill {f : Flight} (hfill : dMode f.desc = 2) (hrivals : f.rivals = []) (bad : Bool) (l : List Piece) (s : State) :
    StoredOnly s (l.foldl (fun s x => s.movePiece f bad x) s)
      ∧ ∀ (sp : Space) (a : Nat), (∀ x, x ∈ l → ¬ s.takesIn f x sp a) → (l.foldl (fun s x => s.movePiece f bad x) s).mem.read sp a = s.mem.read sp a := by
  induction l generalizing s with
  | nil => exact ⟨rfl, fun _ _ _ => rfl⟩
  | cons x xs ih =>
    obtain ⟨hfirst, hread⟩ := movePiece_fills (s := s) hfill hrivals bad x
    obtain ⟨hrest, hreads⟩ := ih (s.movePiece f bad x)
    refine ⟨hfirst.trans hrest, fun sp a hout => ?_⟩
    rw [List.foldl_cons, hreads sp a fun y hy => ?_, hread sp a (hout x List.mem_cons_self)]
    rw [State.takesIn, hfirst.dstAt]
    exact hout y (List.mem_cons_of_mem _ hy)

/-- Within one element the destination of a flight runs byte by byte. -/
theorem dstAt_add {f : Flight} {p j : Nat} (hwithin : p % dSize f.desc + j < dSize f.desc)
    (hlow : 0 ≤ runAddr (dDaddr f.desc f.dbase) (dSize f.desc) (df f.desc 271 240) p) :
    s.dstAt f (p + j) = ((s.dstAt f 0).1, (s.dstAt f p).2 + j) := by
  have hp : p + j = (p % dSize f.desc + j) + dSize f.desc * (p / dSize f.desc) := by
    have := Nat.mod_add_div p (dSize f.desc)
    omega
  have hpos : 0 < dSize f.desc := by omega
  have hdiv : (p + j) / dSize f.desc = p / dSize f.desc := by
    rw [hp, Nat.add_mul_div_left _ _ hpos, Nat.div_eq_of_lt hwithin, Nat.zero_add]
  have hmod : (p + j) % dSize f.desc = p % dSize f.desc + j := by
    rw [hp, Nat.add_mul_mod_self_left, Nat.mod_eq_of_lt hwithin]
  have hrun : runAddr (dDaddr f.desc f.dbase) (dSize f.desc) (df f.desc 271 240) (p + j)
      = runAddr (dDaddr f.desc f.dbase) (dSize f.desc) (df f.desc 271 240) p + j := by
    rw [runAddr, runAddr, hdiv, hmod, Nat.cast_add, add_assoc]
  simp only [State.dstAt, hrun]
  rw [Int.toNat_add hlow (Int.natCast_nonneg j), Int.toNat_natCast, Nat.add_assoc]

/-- A piece of a run begins at a byte of that run and does not leave its element. -/
theorem pieces_within {f : Flight} {fuel p len : Nat} {x : Piece} (h : x ∈ s.pieces f fuel p len) :
    ∃ q, p ≤ q ∧ q + x.n ≤ p + len ∧ x.dst = (s.dstAt f q).2 ∧ x.n ≤ dSize f.desc - q % dSize f.desc := by
  induction fuel generalizing p len with
  | zero => simp [State.pieces] at h
  | succ fuel ih =>
    rw [State.pieces] at h
    split at h
    · simp at h
    · rcases List.mem_cons.1 h with rfl | hrest
      · refine ⟨p, le_rfl, ?_, rfl, ?_⟩
        · exact Nat.add_le_add_left (min_le_left _ _) _
        · exact (min_le_right _ _).trans (min_le_left _ _)
      · obtain ⟨q, hlo, hhi, hdst, hlen⟩ := ih hrest
        refine ⟨q, by omega, ?_, hdst, hlen⟩
        have := min_le_left len (min (dSize f.desc - p % dSize f.desc) ((s.dstAt f p).1.grain - (s.dstAt f p).2 % (s.dstAt f p).1.grain))
        omega

/-- The pieces of a run take in no byte but those of the run. -/
theorem pieces_takeIn {f : Flight} {fuel p len : Nat} {x : Piece} {sp : Space} {a : Nat}
    (hlow : ∀ q, 0 ≤ runAddr (dDaddr f.desc f.dbase) (dSize f.desc) (df f.desc 271 240) q)
    (hx : x ∈ s.pieces f fuel p len) (ha : s.takesIn f x sp a) : ∃ q, p ≤ q ∧ q < p + len ∧ s.dstAt f q = (sp, a) := by
  obtain ⟨q, hlo, hhi, hdst, hlen⟩ := pieces_within hx
  obtain ⟨rfl, hfrom, hto⟩ := ha
  refine ⟨q + (a - x.dst), by omega, by omega, ?_⟩
  rw [dstAt_add (by omega) (hlow q), ← hdst]
  congr 1
  omega

/-! ## The channel after a chunk -/

theorem get_map_lists {α : Type} (g : α → α) (t : Tab (List α)) (k : Nat) :
    Tab.get [] (t.map (fun c => (c.1, c.2.map g))) k = (Tab.get [] t k).map g := by
  induction t with
  | nil => rfl
  | cons e t ih =>
    by_cases hk : e.1 = k
    · simp [Tab.get, hk]
    · simpa [Tab.get, hk] using ih

theorem noteRivals_length (s : State) (sp : Space) (ps : List Piece) (ch : Nat) : ((s.noteRivals sp ps).channel ch).length = (s.channel ch).length :=
  (congrArg List.length (get_map_lists _ s.channels ch)).trans (List.length_map ..)

theorem rotate_length (l : List Flight) (i : Nat) (f : Flight) : (rotate l i f).length = l.length := by
  have h := List.length_eq_length_filter_add (l := l.set i f) (fun g => decide (g.ring ≠ f.ring))
  rw [List.length_set] at h
  simp only [rotate, List.length_append, h]
  simp

theorem mem_rotate {l : List Flight} {i : Nat} (hi : i < l.length) (f : Flight) : f ∈ rotate l i f := by
  refine List.mem_append_right _ (List.mem_filter.2 ⟨List.mem_iff_getElem.2 ⟨i, ?_, ?_⟩, decide_eq_true rfl⟩)
  · rwa [List.length_set]
  · exact List.getElem_set_self ..

/-- A channel whose flight `i` has moved on to `g`, with what the other flights note of the pieces. -/
def State.movedOn (s : State) (ch i : Nat) (g : Flight) (sp : Space) (ps : List Piece) : State :=
  ((s.setChannel ch ((s.channel ch).eraseIdx i)).noteRivals sp ps).setChannel ch
    (rotate ((((s.setChannel ch ((s.channel ch).eraseIdx i)).noteRivals sp ps).channel ch).insertIdx i g) i g)

theorem movedOn_channel {ch i : Nat} (hi : i < (s.channel ch).length) (g : Flight) (sp : Space) (ps : List Piece) :
    ((s.movedOn ch i g sp ps).channel ch).length = (s.channel ch).length ∧ g ∈ (s.movedOn ch i g sp ps).channel ch := by
  have hrest : (((s.setChannel ch ((s.channel ch).eraseIdx i)).noteRivals sp ps).channel ch).length = (s.channel ch).length - 1 := by
    rw [noteRivals_length, State.setChannel_channel_same, List.length_eraseIdx_of_lt hi]
  have hback : ((((s.setChannel ch ((s.channel ch).eraseIdx i)).noteRivals sp ps).channel ch).insertIdx i g).length = (s.channel ch).length := by
    rw [List.length_insertIdx_of_le_length (by omega), hrest]
    omega
  rw [State.movedOn, State.setChannel_channel_same, rotate_length]
  exact ⟨hback, mem_rotate (hback.symm ▸ hi) g⟩

theorem movedOn_rest (s : State) (ch i : Nat) (g : Flight) (sp : Space) (ps : List Piece) : { s.movedOn ch i g sp ps with channels := s.channels } = s := rfl

/-! ## CHUNK_DONE -/

/-- Bytes of the next chunk of a flight, R224. -/
def Flight.chunk (f : Flight) : Nat := min 4096 (dTotal f.desc - f.moved)

theorem execChunkDone_fill {ch i : Nat} {f : Flight} (hchunk : s.chunkFlight ch = some i) (hf : (s.channel ch)[i]? = some f) (htier : dDtier f.desc ≠ 6)
    (hfill : dMode f.desc = 2) (hfetch : f.isFetch = false) (hon : s.domOn (.clusterCommon (ch / 4)) = true) :
    ∃ g : Flight, g.ring = f.ring ∧ g.desc = f.desc ∧ g.moved = f.moved + f.chunk
      ∧ execChunkDone ch [] s = .next (((s.pieces f f.chunk f.moved f.chunk).foldl (fun s x => s.movePiece f false x) s).movedOn ch i g
        (s.dstAt f 0).1 (s.pieces f f.chunk f.moved f.chunk)) := by
  have hvacate (v : State) (p len : Nat) : v.vacate f p len = v := by simp [State.vacate, hfill]
  have hfound : s.chunkFindings f [] = s := rfl
  refine ⟨{ f with moved := f.moved + f.chunk, outstanding := f.outstanding + 0
                   wfrom := if f.moved = 0 then Tab.get 0 s.pack.wsent (64 * f.ctx + dDunit f.desc / 2 ^ 26) else f.wfrom
                   histRead := f.histRead ++ (s.histTokens f f.moved f.chunk).filter (fun h => !f.histRead.contains h) }, rfl, rfl, rfl, ?_⟩
  unfold execChunkDone
  simp only [hchunk, hf, hon, hfetch, hfound, htier, hvacate, if_false, List.any_nil, Bool.true_eq_false, Bool.false_eq_true]
  rfl

/-- CHUNK_DONE of a fill: one chunk further, and no byte written but the chunk's own. -/
theorem execChunkDone_fills {ch i : Nat} {f : Flight} (hchunk : s.chunkFlight ch = some i) (hf : (s.channel ch)[i]? = some f) (htier : dDtier f.desc ≠ 6)
    (hfill : dMode f.desc = 2) (hrivals : f.rivals = []) (hfetch : f.isFetch = false) (hon : s.domOn (.clusterCommon (ch / 4)) = true)
    (hlow : ∀ p, 0 ≤ runAddr (dDaddr f.desc f.dbase) (dSize f.desc) (df f.desc 271 240) p) :
    ∃ t, execChunkDone ch [] s = .next t ∧ (t.channel ch).length = (s.channel ch).length
      ∧ (∃ g, g ∈ t.channel ch ∧ g.ring = f.ring ∧ g.desc = f.desc ∧ g.moved = f.moved + f.chunk)
      ∧ (∀ (sp : Space) (x : Nat), (∀ p, f.moved ≤ p → p < f.moved + f.chunk → s.dstAt f p ≠ (sp, x)) → t.mem.read sp x = s.mem.read sp x)
      ∧ { t with channels := s.channels, mem := s.mem, life := { t.life with commit := s.life.commit, storedStamp := s.life.storedStamp },
                 logs := s.logs, comms := s.comms, out := s.out } = s := by
  obtain ⟨g, hring, hdesc, hmoved, hexec⟩ := execChunkDone_fill hchunk hf htier hfill hfetch hon
  obtain ⟨honly, hread⟩ := movePieces_fill hfill hrivals false (s.pieces f f.chunk f.moved f.chunk) s
  generalize (s.pieces f f.chunk f.moved f.chunk).foldl (fun s x => s.movePiece f false x) s = u at hexec honly hread
  have hchannel : u.channel ch = s.channel ch := honly.part (·.channel ch) fun _ _ _ _ _ _ _ => rfl
  have hi : i < (u.channel ch).length := hchannel ▸ (List.getElem?_eq_some_iff.1 hf).1
  obtain ⟨hlength, hmem⟩ := movedOn_channel hi g (s.dstAt f 0).1 (s.pieces f f.chunk f.moved f.chunk)
  refine ⟨_, hexec, hlength.trans (congrArg List.length hchannel), ⟨g, hmem, hring, hdesc, hmoved⟩, fun sp a hout => ?_,
    (congrArg (fun v : State => { v with channels := s.channels }) honly :)⟩
  refine hread sp a fun x hx htakes => ?_
  obtain ⟨q, hlo, hhi, hat⟩ := pieces_takeIn hlow hx htakes
  exact hout q hlo hhi hat

end Sys2Proof.Machine
end

section
/-! DESCRIPTOR_COMPLETE (R217, R220, R227, R234), and the obligation on shuttle descriptors. -/

namespace Sys2Proof.Machine

open Sys2Proof

variable {s : State}

/-! ## What the end of a descriptor leaves -/

theorem vacate_eq (s : State) (f : Flight) (p len : Nat) : ∃ m, s.vacate f p len = { s with mem := m } := by
  have hfold {α : Type} (g : State → α → State) (hg : ∀ v x, ∃ m, g v x = { v with mem := m }) (l : List α) (v : State) :
      ∃ m, l.foldl g v = { v with mem := m } := by
    induction l generalizing v with
    | nil => exact ⟨v.mem, rfl⟩
    | cons x xs ih =>
      obtain ⟨m, hm⟩ := hg v x
      obtain ⟨n, hn⟩ := ih (g v x)
      exact ⟨n, by rw [List.foldl_cons, hn, hm]⟩
  unfold State.vacate
  split
  · exact ⟨s.mem, rfl⟩
  · split
    · refine hfold _ (fun v b => ?_) _ _
      split
      · exact ⟨_, rfl⟩
      · exact ⟨v.mem, rfl⟩
    · exact hfold _ (fun v i => ⟨_, rfl⟩) _ _

theorem foldl_sendSignal {α : Type} (g : α → Signal) (l : List α) (s : State) :
    l.foldl (fun s p => s.sendSignal (g p)) s = { s with sync := { s.sync with signals := s.sync.signals ++ l.map g } } := by
  induction l generalizing s with
  | nil => simp
  | cons p ps ih =>
    rw [List.foldl_cons, ih]
    simp [State.sendSignal]

theorem gapRules_eq (s : State) {member : Nat} (h : member ≠ 0) : ∃ io, s.gapRules member = { s with io := io } := by
  have hpart : { s.gapRules member with io := s.io } = s := by
    unfold State.gapRules
    simp only [if_neg h]
    refine each_part (fun v : State => { v with io := s.io }) (fun v n => ?_) _ s
    split
    · split <;> rfl
    · rfl
  exact ⟨(s.gapRules member).io, (congrArg (fun v : State => { v with io := (s.gapRules member).io }) hpart :)⟩

/-- Tokens that were overwritten under a descriptor touch the rules' counts and a context alone. -/
theorem histLost_eq (s : State) (f : Flight) : ∃ io ctxs, s.histLost f = { s with io := io, ctxs := ctxs } := by
  unfold State.histLost
  dsimp only
  split
  · exact ⟨s.io, s.ctxs, rfl⟩
  · obtain ⟨io, h⟩ := gapRules_eq s (member := 1) (by decide)
    rw [h]
    exact ⟨io, _, rfl⟩

/-! ## DESCRIPTOR_COMPLETE -/

/-- A channel that a flight has left, and its ring with one descriptor fewer in flight. -/
def State.landed (s : State) (ch i : Nat) (f : Flight) : State := (s.setChannel ch ((s.channel ch).eraseIdx i)).updRing f.ring Ring.finished

theorem landed_marks (s : State) (ch i : Nat) (f : Flight) : (s.landed ch i f).channel ch = (s.channel ch).eraseIdx i
    ∧ (s.landed ch i f).ring f.ring = (s.ring f.ring).finished ∧ (∀ n, n ≠ f.ring → (s.landed ch i f).ring n = s.ring n) := by
  refine ⟨?_, State.updRing_ring_same .., fun n hn => State.updRing_ring_ne _ _ _ _ hn.symm⟩
  change (s.setChannel ch ((s.channel ch).eraseIdx i)).channel ch = _
  rw [State.setChannel_channel_same]

section
variable {ch i : Nat} {f : Flight} (hfirst : (s.channel ch).findIdx? (fun f => decide (dTotal f.desc ≤ f.moved) && f.outstanding == 0) = some i)
  (hf : (s.channel ch)[i]? = some f)
include hfirst hf

/-- The end of an ordinary descriptor: a transfer to another member vacates its source, the signals are sent, lost tokens are
noted. -/
theorem execDescriptorComplete_signals (hfetch : f.isFetch = false) : ∃ m io ctxs, (dDtier f.desc ≠ 6 → m = s.mem)
    ∧ execDescriptorComplete ch s = .next { s.landed ch i f with
      mem := m, io := io, ctxs := ctxs
      sync := { s.sync with signals := s.sync.signals ++ (dSigs f.desc).map (fun p =>
        { who := word [(1, 13), (ch, 0)], ctx := f.ctx, id := p.1, delta := p.2, from_ := some (f.ring, dTag f.desc) }) } } := by
  have hfreed : ∃ m, (dDtier f.desc ≠ 6 → m = s.mem)
      ∧ (if dDtier f.desc = 6 ∧ f.skip = false then s.vacate f 0 (dTotal f.desc) else s) = { s with mem := m } := by
    split
    · next h =>
      obtain ⟨m, hm⟩ := vacate_eq s f 0 (dTotal f.desc)
      exact ⟨m, fun htier => absurd h.1 htier, hm⟩
    · exact ⟨s.mem, fun _ => rfl, rfl⟩
  obtain ⟨m, hm, hfreed⟩ := hfreed
  obtain ⟨io, ctxs, hlost⟩ := histLost_eq ((dSigs f.desc).foldl (fun s p => s.sendSignal
    { who := word [(1, 13), (ch, 0)], ctx := f.ctx, id := p.1, delta := p.2, from_ := some (f.ring, dTag f.desc) })
    (({ s with mem := m } : State).landed ch i f)) f
  refine ⟨m, io, ctxs, hm, ?_⟩
  rw [foldl_sendSignal] at hlost
  unfold execDescriptorComplete
  simp only [hfirst, hf, hfreed, hfetch, Bool.false_eq_true, if_false, foldl_sendSignal]
  exact congrArg _ hlost

theorem execDescriptorComplete_fetches (hfetch : f.isFetch = true) (htier : dDtier f.desc ≠ 6) :
    execDescriptorComplete ch s = .next ((s.landed ch i f).fetchEnds f) := by
  unfold execDescriptorComplete
  simp only [hfirst, hf, htier, hfetch, false_and, if_false, if_true]
  rfl

end

/-- Settles O16: the state that each command leaves; of a fill, that its pieces lie within the chunk. -/
theorem shuttleDescriptorsMove : Obligations.ShuttleDescriptorsMove := by
  refine ⟨fun r ch s f hcluster hready hfirst hf hon hpower herr => ?_, fun r pick s hfence hflying => execDescriptorStart_fenced hfence hflying pick,
    fun ch i s f hchunk hf htier hfill hrivals hfetch hon hlow => execChunkDone_fills hchunk hf htier hfill hrivals hfetch hon hlow,
    fun ch i s f hfirst hf hfetch => ?_, fun ch i s f hfirst hf hfetch htier => ?_⟩
  · subst hf
    exact ⟨_, execDescriptorStart_launches hcluster hready hfirst hon hpower herr, launched_marks s r ch⟩
  · obtain ⟨m, io, ctxs, hm, hexec⟩ := execDescriptorComplete_signals hfirst hf hfetch
    obtain ⟨hchannel, hring, hrings⟩ := landed_marks s ch i f
    exact ⟨_, hexec, hchannel, hring, hrings, rfl, rfl, hm⟩
  · obtain ⟨hchannel, hring, -⟩ := landed_marks s ch i f
    refine ⟨_, execDescriptorComplete_fetches hfirst hf hfetch htier, hchannel, hring, ?_, rfl⟩
    rw [State.fetchEnds]
    simp only [State.updEngine_engine_same]
    exact List.mem_append_right _ (List.mem_singleton.2 rfl)

end Sys2Proof.Machine
end

section
/-! SPILL_MOVE, SILENT_TIMEOUT and RATE_CHECK (R372, R387). -/

namespace Sys2Proof.Machine

open Sys2Proof

variable {s : State} {n : Nat}

/-! ## A slot that changes -/

theorem Logged.part {α : Type} {u t : State} {bits : List (Nat × Nat)} (h : Logged u t bits) (g : State → α)
    (hg : ∀ (v : State) (c d : Nat) (lo : Logs) (co : Comms) (ou : List Out),
      g { v with life := { v.life with commit := c, storedStamp := d }, logs := lo, comms := co, out := ou } = g v) : g t = g u :=
  (hg t u.life.commit u.life.storedStamp u.logs u.comms u.out).symm.trans (congrArg g h.1)

theorem Logged.slot {u t : State} {bits : List (Nat × Nat)} (h : Logged u t bits) (k : Nat) : t.slot k = u.slot k := h.part (·.slot k) fun _ _ _ _ _ _ => rfl

/-- What a slot feeds follows from its setting. -/
theorem updSlot_consuming {f : Slot → Slot} (hf : (f (s.slot n)).cfg = (s.slot n).cfg) (k : Nat) : (s.updSlot n f).consuming k = s.consuming k := by
  have hcfg : ((s.updSlot n f).slot k).cfg = (s.slot k).cfg := by
    by_cases hk : n = k
    · subst hk
      rw [State.updSlot_slot_same, hf]
    · rw [State.updSlot_slot_ne _ _ _ _ hk]
  simp only [State.consuming, State.inputOf, hcfg]
  rfl

/-- A fault of a slot sets STREAM, or finds it set. -/
theorem slotFault_logged (s : State) (n : Nat) (was : Bool) (f : Slot → Slot) : Logged (s.updSlot n f) (s.slotFault n was f) [(2, 7)] := by
  unfold State.slotFault
  dsimp only
  split
  · next h =>
    refine ⟨rfl, ⟨[], (List.append_nil _).symm⟩, fun v k _ => ?_⟩
    by_cases hvk : v = 2 ∧ k = 7
    · obtain ⟨rfl, rfl⟩ := hvk
      rw [show ((s.updSlot n f).logs.word 2).getLsbD 7 = true from h.2, Bool.true_or]
    · simp [hvk]
  · exact logged_trouble _ 2 7 0 7 0xFF [n] (by decide) (by decide)

theorem slotFault_stream (s : State) (n : Nat) (was : Bool) (f : Slot → Slot) : ((s.slotFault n was f).logs.word 2).getLsbD 7 = true := by
  rw [(slotFault_logged s n was f).2.2 2 7 (by decide)]
  simp

/-! ## SPILL_MOVE, R372 -/

theorem execSpillMove_moves {c : SlotCfg} (hcfg : (s.slot n).cfg = some c) (hfeeds : s.consuming n = true) (hunread : (s.slot n).unread.isSome = true)
    (hready : s.life.phase = .ready) (hfull : 3 * c.cap < 4 * ((s.slot n).high.getD 0 - (s.slot n).unread.getD 0 - (s.slot n).spilled))
    (hroom : (s.slot n).spilled + c.cap / 4 ≤ c.spillCap) :
    execSpillMove n s = .next (s.updSlot n (fun x => { x with spilled := x.spilled + c.cap / 4 })) := by
  unfold execSpillMove
  simp only [hcfg]
  rw [if_pos ⟨hfeeds, hunread, hready, hfull, hroom⟩]

/-! ## SILENT_TIMEOUT, R387 -/

/-- A slot without a valid frame for 100 ms. -/
def State.hushed (s : State) (n : Nat) : State := s.updSlot n (fun x => { x with quiet := true })

theorem execSilentTimeout_eq (hcfg : (s.slot n).cfg.isSome = true) : execSilentTimeout n s
    = if s.consuming n then .next ((s.hushed n).slotFault n ((s.hushed n).slot n).silent (fun x => { x with silent := true })) else .next (s.hushed n) := by
  have hfeeds : (s.hushed n).consuming n = s.consuming n := updSlot_consuming (by rfl) n
  unfold execSilentTimeout
  rw [if_neg (by simpa [Option.isSome_iff_ne_none] using hcfg)]
  change (if (s.hushed n).consuming n then _ else _) = _
  rw [hfeeds]
  rfl

theorem execSilentTimeout_hushes (hcfg : (s.slot n).cfg.isSome = true) : ∃ t, execSilentTimeout n s = .next t ∧ (t.slot n).quiet = true
    ∧ (s.consuming n = true → (t.slot n).silent = true ∧ (t.logs.word 2).getLsbD 7 = true)
    ∧ (s.consuming n = false → (t.slot n).silent = (s.slot n).silent ∧ t.logs = s.logs)
    ∧ (t.slot n).ring = (s.slot n).ring ∧ (∀ k, k ≠ n → t.slot k = s.slot k) ∧ t.mem = s.mem ∧ t.hist = s.hist ∧ t.ctxs = s.ctxs := by
  have hsame : (s.hushed n).slot n = { s.slot n with quiet := true } := State.updSlot_slot_same ..
  have hother (k : Nat) (hk : k ≠ n) : (s.hushed n).slot k = s.slot k := State.updSlot_slot_ne _ _ _ _ hk.symm
  rw [execSilentTimeout_eq hcfg]
  cases hfeeds : s.consuming n with
  | false => exact ⟨_, rfl, by rw [hsame], fun h => absurd h (by decide), fun _ => ⟨by rw [hsame], rfl⟩, by rw [hsame], hother, rfl, rfl, rfl⟩
  | true =>
    have hlog := slotFault_logged (s.hushed n) n ((s.hushed n).slot n).silent (fun x => { x with silent := true })
    refine ⟨_, rfl, ?_, fun _ => ⟨?_, slotFault_stream ..⟩, fun h => absurd h (by decide), ?_, fun k hk => ?_,
      hlog.part State.mem fun _ _ _ _ _ _ => rfl, hlog.part State.hist fun _ _ _ _ _ _ => rfl, hlog.part State.ctxs fun _ _ _ _ _ _ => rfl⟩
    · rw [hlog.slot, State.updSlot_slot_same, hsame]
    · rw [hlog.slot, State.updSlot_slot_same]
    · rw [hlog.slot, State.updSlot_slot_same, hsame]
    · rw [hlog.slot, State.updSlot_slot_ne _ _ _ _ hk.symm, hother k hk]

/-! ## RATE_CHECK, R387 -/

/-- A slot at the end of a second: the rate error of the second, the count begun again, a rate fault where it is consuming. -/
def Slot.rated (x : Slot) (consuming : Bool) : Slot :=
  match x.cfg with
  | none => x
  | some c => { x with ratePpm := (rateError c.nomrate x.rateCount).1, rateCount := 0
                       rateBad := (rateError c.nomrate x.rateCount).2 && consuming, rate := x.rate || ((rateError c.nomrate x.rateCount).2 && consuming) }

theorem rated_of_cfg {x : Slot} {c : SlotCfg} (h : x.cfg = some c) (consuming : Bool) : x.rated consuming
    = { x with ratePpm := (rateError c.nomrate x.rateCount).1, rateCount := 0
               rateBad := (rateError c.nomrate x.rateCount).2 && consuming, rate := x.rate || ((rateError c.nomrate x.rateCount).2 && consuming) } := by
  simp only [Slot.rated, h]

theorem rated_cfg (x : Slot) (consuming : Bool) : (x.rated consuming).cfg = x.cfg := by
  unfold Slot.rated
  split <;> rfl

/-- The slot's rate is off by more than 0.05 % of nominal while it is consuming. -/
def State.offRate (s : State) (n : Nat) : Prop := ∃ c, (s.slot n).cfg = some c ∧ (rateError c.nomrate (s.slot n).rateCount).2 = true ∧ s.consuming n = true

/-- One slot's check: the slot, the others, STREAM, memory, history and contexts. -/
theorem rateSlot_marks (s : State) (n : Nat) : (s.rateSlot n).slot n = (s.slot n).rated (s.consuming n) ∧ (∀ k, k ≠ n → (s.rateSlot n).slot k = s.slot k)
    ∧ (s.offRate n → ((s.rateSlot n).logs.word 2).getLsbD 7 = true)
    ∧ ((s.logs.word 2).getLsbD 7 = true → ((s.rateSlot n).logs.word 2).getLsbD 7 = true)
    ∧ (s.rateSlot n).ing.running = s.ing.running ∧ (s.rateSlot n).img = s.img
    ∧ (s.rateSlot n).mem = s.mem ∧ (s.rateSlot n).hist = s.hist ∧ (s.rateSlot n).ctxs = s.ctxs := by
  cases hcfg : (s.slot n).cfg with
  | none =>
    have hstands : s.rateSlot n = s := by simp only [State.rateSlot, hcfg]
    rw [hstands]
    exact ⟨by simp only [Slot.rated, hcfg], fun _ _ => rfl, fun ⟨c, hc, _⟩ => absurd (hcfg.symm.trans hc) (by simp), id, rfl, rfl, rfl, rfl, rfl⟩
  | some c =>
    cases hfault : (rateError c.nomrate (s.slot n).rateCount).2 && s.consuming n with
    | false =>
      have heq : s.rateSlot n = s.updSlot n (fun x => { x with ratePpm := (rateError c.nomrate (s.slot n).rateCount).1, rateCount := 0, rateBad := false }) := by
        simp only [State.rateSlot, hcfg, hfault]
        rfl
      rw [heq]
      refine ⟨?_, fun k hk => State.updSlot_slot_ne _ _ _ _ hk.symm, fun ⟨d, hd, hoff, hfeeds⟩ => ?_, id, rfl, rfl, rfl, rfl, rfl⟩
      · rw [State.updSlot_slot_same, rated_of_cfg hcfg, hfault, Bool.or_false]
      · cases hcfg.symm.trans hd
        rw [hoff, hfeeds] at hfault
        exact absurd hfault (by decide)
    | true =>
      have heq : ∃ was, s.rateSlot n = (s.updSlot n (fun x => { x with
          ratePpm := (rateError c.nomrate (s.slot n).rateCount).1, rateCount := 0, rateBad := true })).slotFault n was (fun x => { x with rate := true }) := by
        simp only [State.rateSlot, hcfg, hfault]
        exact ⟨_, rfl⟩
      obtain ⟨was, heq⟩ := heq
      have hlog := slotFault_logged (s.updSlot n (fun x => { x with
        ratePpm := (rateError c.nomrate (s.slot n).rateCount).1, rateCount := 0, rateBad := true })) n was (fun x => { x with rate := true })
      have hstream := slotFault_stream (s.updSlot n (fun x => { x with
        ratePpm := (rateError c.nomrate (s.slot n).rateCount).1, rateCount := 0, rateBad := true })) n was (fun x => { x with rate := true })
      rw [← heq] at hlog hstream
      refine ⟨?_, fun k hk => ?_, fun _ => hstream, fun _ => hstream, hlog.part (·.ing.running) fun _ _ _ _ _ _ => rfl,
        hlog.part State.img fun _ _ _ _ _ _ => rfl, hlog.part State.mem fun _ _ _ _ _ _ => rfl, hlog.part State.hist fun _ _ _ _ _ _ => rfl,
        hlog.part State.ctxs fun _ _ _ _ _ _ => rfl⟩
      · rw [hlog.slot, State.updSlot_slot_same, State.updSlot_slot_same, rated_of_cfg hcfg, hfault, Bool.or_true]
      · rw [hlog.slot, State.updSlot_slot_ne _ _ _ _ hk.symm, State.updSlot_slot_ne _ _ _ _ hk.symm]

theorem rateSlot_consuming (s : State) (n k : Nat) : (s.rateSlot n).consuming k = s.consuming k := by
  obtain ⟨hself, hother, -, -, hrunning, himg, -⟩ := rateSlot_marks s n
  have hcfg : ((s.rateSlot n).slot k).cfg = (s.slot k).cfg := by
    by_cases hk : k = n
    · rw [hk, hself, rated_cfg]
    · rw [hother k hk]
  simp only [State.consuming, State.inputOf, State.image, hcfg, hrunning, himg]

theorem rateSlots_marks {l : List Nat} (hl : l.Nodup) (s : State) :
    (∀ n, n ∈ l → ((s.each l State.rateSlot).slot n) = (s.slot n).rated (s.consuming n)) ∧ (∀ n, n ∉ l → (s.each l State.rateSlot).slot n = s.slot n)
      ∧ (((s.logs.word 2).getLsbD 7 = true ∨ ∃ n, n ∈ l ∧ s.offRate n) → ((s.each l State.rateSlot).logs.word 2).getLsbD 7 = true)
      ∧ (s.each l State.rateSlot).mem = s.mem ∧ (s.each l State.rateSlot).hist = s.hist ∧ (s.each l State.rateSlot).ctxs = s.ctxs := by
  induction l generalizing s with
  | nil => exact ⟨fun _ h => absurd h List.not_mem_nil, fun _ _ => rfl, fun h => h.elim id fun ⟨_, hn, _⟩ => absurd hn List.not_mem_nil, rfl, rfl, rfl⟩
  | cons m ms ih =>
    obtain ⟨hm, hms⟩ := List.nodup_cons.1 hl
    obtain ⟨hself, hother, hoff, hkept, -, -, hmem, hhist, hctxs⟩ := rateSlot_marks s m
    obtain ⟨hin, hout, hstream, hmem', hhist', hctxs'⟩ := ih hms (s.rateSlot m)
    refine ⟨fun n hn => ?_, fun n hn => ?_, fun h => hstream ?_, hmem'.trans hmem, hhist'.trans hhist, hctxs'.trans hctxs⟩
    · rcases List.mem_cons.1 hn with rfl | hn
      · exact (hout _ hm).trans hself
      · have hne : n ≠ m := fun h => hm (h ▸ hn)
        exact (hin n hn).trans (by rw [hother n hne, rateSlot_consuming])
    · exact (hout n fun h => hn (List.mem_cons_of_mem _ h)).trans (hother n fun h => hn (h ▸ List.mem_cons_self))
    · rcases h with hset | ⟨n, hn, hbad⟩
      · exact .inl (hkept hset)
      · rcases List.mem_cons.1 hn with rfl | hn
        · exact .inl (hoff hbad)
        · have hne : n ≠ m := fun h => hm (h ▸ hn)
          refine .inr ⟨n, hn, ?_⟩
          rwa [State.offRate, hother n hne, rateSlot_consuming]

theorem execRateCheck_rates (hup : s.portsUp = true) (hslots : (s.ing.slots.map Prod.fst).Nodup) : ∃ t, execRateCheck s = .next t
    ∧ (∀ n c, n ∈ s.ing.slots.map Prod.fst → (s.slot n).cfg = some c → (t.slot n).rateCount = 0 ∧ (t.slot n).ratePpm = (rateError c.nomrate (s.slot n).rateCount).1
        ∧ ((rateError c.nomrate (s.slot n).rateCount).2 = true → s.consuming n = true → (t.slot n).rate = true ∧ (t.logs.word 2).getLsbD 7 = true)
        ∧ (t.slot n).ring = (s.slot n).ring)
    ∧ t.mem = s.mem ∧ t.hist = s.hist ∧ t.ctxs = s.ctxs := by
  obtain ⟨hin, -, hstream, hrest⟩ := rateSlots_marks hslots s
  refine ⟨_, if_pos hup, fun n c hn hcfg => ?_, hrest⟩
  rw [hin n hn, rated_of_cfg hcfg]
  refine ⟨rfl, rfl, fun hoff hfeeds => ⟨?_, hstream (.inr ⟨n, hn, c, hcfg, hoff, hfeeds⟩)⟩, rfl⟩
  rw [hoff, hfeeds]
  exact Bool.or_true _

end Sys2Proof.Machine
end

section
/-! TOKEN_FORM and FILET_FUNCTION_RUN (R211, R213, R214, R376, R377, R384), and the obligation on tokens and slot timers. -/

namespace Sys2Proof.Machine

open Sys2Proof

variable {s : State}

/-! ## An append, R211 to R214 -/

theorem entry_length (h : History) (j : Nat) : (h.entry j).length = 16 := by simp [History.entry]

/-- An append writes the record, the entry of its group and, where a new s0 begins, the entry of the group left over. -/
theorem appendToken_reads {sidx flags run token : Nat} {bytes : List Byte} (hlen : bytes.length ≤ s.hist.width) {sp : Space} {x : Nat}
    (hout : ¬ (sp = .board ∧ ((s.hist.base + s.hist.nextSlot * s.hist.width ≤ x ∧ x < s.hist.base + (s.hist.nextSlot + 1) * s.hist.width)
      ∨ x / 16 = s.hist.nextSlot / 16 ∨ (s.hist.leftover ≠ [] ∧ x / 16 = s.hist.write / 16)))) :
    (s.appendToken sidx flags run token bytes).mem.read sp x = s.mem.read sp x := by
  have hrecord : ¬ (sp = .board ∧ s.hist.base + s.hist.nextSlot * s.hist.width ≤ x ∧ x < s.hist.base + s.hist.nextSlot * s.hist.width + bytes.length) := by
    rintro ⟨hsp, hlo, hhi⟩
    refine hout ⟨hsp, .inl ⟨hlo, ?_⟩⟩
    rw [Nat.add_mul, Nat.one_mul]
    omega
  have hgroup : ¬ (sp = .board ∧ 16 * (s.hist.nextSlot / 16) ≤ x
      ∧ x < 16 * (s.hist.nextSlot / 16) + ((s.hist.append sidx flags run token).entry (s.hist.nextSlot / 16)).length) := by
    rw [entry_length]
    exact fun ⟨hsp, hlo, hhi⟩ => hout ⟨hsp, .inr (.inl (by omega))⟩
  refine (read_store_outside _ _ hgroup).trans ?_
  split
  · exact read_store_outside _ _ hrecord
  · next hleft =>
    have hold : ¬ (sp = .board ∧ 16 * (s.hist.write / 16) ≤ x
        ∧ x < 16 * (s.hist.write / 16) + ((s.hist.append sidx flags run token).entry (s.hist.write / 16)).length) := by
      rw [entry_length]
      exact fun ⟨hsp, hlo, hhi⟩ => hout ⟨hsp, .inr (.inr ⟨hleft, by omega⟩)⟩
    rw [read_store_outside _ _ hold, read_store_outside _ _ hrecord]

/-- The slot of an append. -/
theorem appendToken_slot (s : State) (sidx flags run token : Nat) (bytes : List Byte) :
    (s.appendToken sidx flags run token bytes).hslot s.hist.nextSlot
      = { sidx := sidx, flags := flags % 8, written := true, run := run, no := s.hist.appended, token := token } :=
  Tab.get_set_same ..

theorem holds_of_flags {h : HistSlot} {flags : Nat} (hwritten : h.written = true) (hflags : h.flags = flags % 8) : h.holds = true := by
  simp [HistSlot.holds, hwritten, hflags]

/-! ## What else a token disturbs -/

/-- The state without what forming a token disturbs beside its history and memory: slots, detectors, signals, contexts, and what an
event touches. -/
def State.still (s : State) : State :=
  { s with ing := { s.ing with slots := [], dets := [] }, life := { s.life with commit := 0, storedStamp := 0 }, logs := {}, comms := {}, out := []
           sync := {}, ctxs := [] }

section
variable (s)

@[simp] theorem updSlot_still (n : Nat) (f : Slot → Slot) : (s.updSlot n f).still = s.still := rfl

@[simp] theorem updCtx_still (c : Nat) (f : Ctx → Ctx) : (s.updCtx c f).still = s.still := rfl

@[simp] theorem sendSignal_still (g : Signal) : (s.sendSignal g).still = s.still := rfl

@[simp] theorem trouble_still (w b loc bunit c : Nat) (l : List Nat) : (s.trouble w b loc bunit c l).still = s.still := by
  obtain ⟨co, d, lo, cm, ou, h⟩ := trouble_parts s w b loc bunit c l
  rw [h]
  rfl

@[simp] theorem slotFault_still (n : Nat) (was : Bool) (f : Slot → Slot) : (s.slotFault n was f).still = s.still := by
  unfold State.slotFault
  dsimp only
  split
  · rfl
  · exact trouble_still ..

theorem formInput_still (sidx : Nat) (e : Nat × Input) : (s.formInput sidx e).1.still = s.still := by
  unfold State.formInput
  dsimp only
  split
  · rfl
  · split
    · rw [slotFault_still, updSlot_still]
    · rw [trouble_still, slotFault_still, updSlot_still]

theorem formAll_still (sidx : Nat) (l : List (Nat × Input)) : (s.formAll sidx l).1.still = s.still := by
  induction l generalizing s with
  | nil => rfl
  | cons e es ih => exact (ih _).trans (formInput_still s sidx e)

theorem runDetectors_still (i : Image) (fs : List Formed) : (s.runDetectors i fs).1.still = s.still := by
  unfold State.runDetectors
  suffices h : ∀ (l : List Nat) (a : State × List Nat), (l.foldl _ a).1.still = a.1.still from h _ _
  intro l
  induction l with
  | nil => exact fun _ => rfl
  | cons n ns ih =>
    intro a
    rw [List.foldl_cons, ih]
    split
    · rfl
    · split <;> rfl

@[simp] theorem trigger_still (c n sidx : Nat) (schedule : Bool) : (s.trigger c n sidx schedule).still = s.still := by
  unfold State.trigger
  split
  · rfl
  · dsimp only
    (repeat' split) <;> rfl

theorem signalTokens_still : s.signalTokens.still = s.still := by
  unfold State.signalTokens
  split
  · rfl
  · exact each_part State.still (fun v c => foldl_part State.still (fun w d => sendSignal_still ..) _ v) _ s

theorem countSchedules_still (n sidx : Nat) : (s.countSchedules n sidx).still = s.still := by
  refine each_part State.still (fun v c => ?_) _ s
  dsimp only
  split
  · rw [trigger_still, updCtx_still]
  · rw [updCtx_still]

end

theorem part_of_still {α : Type} {t u : State} (h : t.still = u.still) (g : State → α) (hg : ∀ v : State, g v.still = g v) : g t = g u :=
  (hg t).symm.trans ((congrArg g h).trans (hg u))

/-! ## TOKEN_FORM -/

/-- The run goes on with its next token number. -/
def State.numbered (s : State) : State := { s with ing := { s.ing with nextToken := s.ing.nextToken + 1 } }

/-- On a module of its own a sealed token is appended under the next number of its run. -/
theorem sealToken_still (hsolo : s.solo = true) (hcap : s.hist.cap ≠ 0) (sidx flags : Nat) (bytes : List Byte) :
    (s.sealToken sidx flags bytes).still = (s.numbered.appendToken sidx flags s.ing.run s.ing.nextToken bytes).still := by
  have hseal : s.sealToken sidx flags bytes = s.numbered.takeToken sidx flags s.ing.run s.ing.nextToken bytes := if_pos hsolo
  have hcap' : s.numbered.hist.cap ≠ 0 := hcap
  rw [hseal, State.takeToken, if_neg hcap', countSchedules_still, signalTokens_still]

/-- The next token's first reference sample after origin `o`. -/
def State.nextSidx (s : State) (o : Nat) : Nat := o + s.ing.nextToken * s.tokenSpan

/-- The inputs of a token, formed. -/
def State.formed (s : State) (i : Image) (sidx : Nat) : State × List (Input × Formed) := s.formAll sidx (s.inputsInOrder i)

/-- A token's inputs formed and its detectors run; the contexts that firings trigger. -/
def State.detected (s : State) (i : Image) (sidx : Nat) : State × List Nat :=
  (s.formed i sidx).1.runDetectors i ((s.formed i sidx).2.map Prod.snd)

/-- The flags that a token carries. -/
def State.tokenFlags (s : State) (facts : TokenFacts) (i : Image) (sidx : Nat) : Nat :=
  orFlags ((s.formed i sidx).2.map (fun e => e.2.flags)) ||| (if facts.ue then 2 else 0)

/-- The bytes of a token's record. -/
def State.tokenBytes (s : State) (i : Image) (sidx : Nat) : List Byte :=
  ((s.formed i sidx).2.flatMap (fun e => e.2.bytes)).take (s.detected i sidx).1.hist.width

theorem detected_still (s : State) (i : Image) (sidx : Nat) : (s.detected i sidx).1.still = s.still :=
  (runDetectors_still ..).trans (formAll_still ..)

theorem tokenBytes_length_le (s : State) (i : Image) (sidx : Nat) : (s.tokenBytes i sidx).length ≤ (s.detected i sidx).1.hist.width :=
  List.length_take_le _ _

theorem execTokenForm_forms (facts : TokenFacts) {i : Image} {o : Nat} (himage : s.image = some i) (hs0 : s.ing.s0 = some o) (hfw : s.fwUp = true)
    (hrunning : s.ing.running = true) (hfe : s.ing.feOk = true) (hspan : s.tokenSpan ≠ 0) (hfed : (s.inputsInOrder i).length = i.inputs.length)
    (hsome : s.inputsInOrder i ≠ []) (hfinal : (s.inputsInOrder i).all (s.patchFinal (s.nextSidx o)) = true)
    (hon0 : s.domOn (.clusterCommon 0) = true) (hon1 : s.domOn (.clusterCommon 1) = true) :
    execTokenForm facts s = .next ((s.detected i (s.nextSidx o)).2.foldl
      (fun v c => v.trigger c (s.detected i (s.nextSidx o)).1.hist.appended (s.nextSidx o) false)
      ((s.detected i (s.nextSidx o)).1.sealToken (s.nextSidx o) (s.tokenFlags facts i (s.nextSidx o)) (s.tokenBytes i (s.nextSidx o)))) := by
  rw [State.nextSidx] at hfinal
  unfold execTokenForm
  simp only [himage, hs0, hfw, hrunning, hfe, hspan, hfed, hsome, hfinal, hon0, hon1, Bool.true_eq_false, ne_eq, not_true_eq_false, or_self, if_false,
    Bool.and_self]
  rfl

/-- TOKEN_FORM on a module of its own. -/
theorem execTokenForm_appends (facts : TokenFacts) {i : Image} {o : Nat} (himage : s.image = some i) (hs0 : s.ing.s0 = some o) (hfw : s.fwUp = true)
    (hsolo : s.solo = true) (hrunning : s.ing.running = true) (hfe : s.ing.feOk = true) (hspan : s.tokenSpan ≠ 0)
    (hfed : (s.inputsInOrder i).length = i.inputs.length) (hsome : s.inputsInOrder i ≠ [])
    (hfinal : (s.inputsInOrder i).all (s.patchFinal (o + s.ing.nextToken * s.tokenSpan)) = true)
    (hon0 : s.domOn (.clusterCommon 0) = true) (hon1 : s.domOn (.clusterCommon 1) = true) (hcap : s.hist.cap ≠ 0) :
    ∃ t, execTokenForm facts s = .next t ∧ t.ing.nextToken = s.ing.nextToken + 1 ∧ t.hist.appended = s.hist.appended + 1
      ∧ (t.hslot s.hist.nextSlot).sidx = o + s.ing.nextToken * s.tokenSpan ∧ (t.hslot s.hist.nextSlot).no = s.hist.appended
      ∧ (t.hslot s.hist.nextSlot).token = s.ing.nextToken ∧ (t.hslot s.hist.nextSlot).holds = true
      ∧ t.hist.write = (if s.hist.cap ≤ s.hist.nextSlot + 1 then 0 else s.hist.nextSlot + 1)
      ∧ (∀ (sp : Space) (x : Nat), ¬ (sp = .board ∧ ((s.hist.base + s.hist.nextSlot * s.hist.width ≤ x ∧ x < s.hist.base + (s.hist.nextSlot + 1) * s.hist.width)
            ∨ x / 16 = s.hist.nextSlot / 16 ∨ (s.hist.leftover ≠ [] ∧ x / 16 = s.hist.write / 16))) →
          t.mem.read sp x = s.mem.read sp x)
      ∧ t.threads = s.threads ∧ t.img = s.img ∧ t.opt = s.opt ∧ t.trust = s.trust ∧ t.results = s.results ∧ t.supply = s.supply := by
  have hexec := execTokenForm_forms facts himage hs0 hfw hrunning hfe hspan hfed hsome hfinal hon0 hon1
  have hu := detected_still s i (s.nextSidx o)
  have hlen := tokenBytes_length_le s i (s.nextSidx o)
  generalize (s.detected i (s.nextSidx o)).1 = u at hexec hu hlen
  generalize s.tokenFlags facts i (s.nextSidx o) = flags at hexec
  have hhist : u.hist = s.hist := part_of_still hu State.hist fun _ => rfl
  have hmem : u.mem = s.mem := part_of_still hu State.mem fun _ => rfl
  have hnext : u.ing.nextToken = s.ing.nextToken := part_of_still hu (·.ing.nextToken) fun _ => rfl
  have husolo : u.solo = true := (part_of_still hu State.solo fun _ => rfl).trans hsolo
  have htrig := foldl_part State.still (f := fun v c => v.trigger c u.hist.appended (s.nextSidx o) false)
    (fun v c => trigger_still v c _ _ false) (s.detected i (s.nextSidx o)).2 (u.sealToken (s.nextSidx o) flags (s.tokenBytes i (s.nextSidx o)))
  generalize (s.detected i (s.nextSidx o)).2.foldl (fun v c => v.trigger c u.hist.appended (s.nextSidx o) false)
    (u.sealToken (s.nextSidx o) flags (s.tokenBytes i (s.nextSidx o))) = t at hexec htrig
  have ht := htrig.trans (sealToken_still husolo (hhist ▸ hcap) _ flags (s.tokenBytes i (s.nextSidx o)))
  have hslot : t.hslot s.hist.nextSlot = { sidx := s.nextSidx o, flags := flags % 8, written := true, run := u.ing.run, no := s.hist.appended
                                           token := s.ing.nextToken } := by
    rw [← hhist, ← hnext]
    exact (part_of_still ht (·.hslot u.hist.nextSlot) fun _ => rfl).trans (appendToken_slot u.numbered ..)
  have hthist : t.hist = s.hist.append (s.nextSidx o) flags u.ing.run u.ing.nextToken := by
    rw [← hhist]
    exact part_of_still ht State.hist fun _ => rfl
  have htmem : t.mem = (u.numbered.appendToken (s.nextSidx o) flags u.ing.run u.ing.nextToken (s.tokenBytes i (s.nextSidx o))).mem :=
    part_of_still ht State.mem fun _ => rfl
  have hstands {α : Type} (g : State → α) (hg : ∀ v : State, g v.still = g v)
      (happend : g (u.numbered.appendToken (s.nextSidx o) flags u.ing.run u.ing.nextToken (s.tokenBytes i (s.nextSidx o))) = g u) : g t = g s :=
    (part_of_still ht g hg).trans (happend.trans (part_of_still hu g hg))
  have htnext : t.ing.nextToken = u.ing.nextToken + 1 := part_of_still ht (·.ing.nextToken) fun _ => rfl
  refine ⟨t, hexec, by rw [htnext, hnext], by rw [hthist]; rfl, by rw [hslot]; rfl, by rw [hslot], by rw [hslot],
    holds_of_flags (by rw [hslot]) (by rw [hslot]), by rw [hthist]; rfl, fun sp x hout => ?_,
    hstands State.threads (fun _ => rfl) rfl, hstands State.img (fun _ => rfl) rfl, hstands State.opt (fun _ => rfl) rfl,
    hstands State.trust (fun _ => rfl) rfl, hstands State.results (fun _ => rfl) rfl, hstands State.supply (fun _ => rfl) rfl⟩
  rw [← hhist] at hout
  rw [htmem, ← hmem]
  exact appendToken_reads (s := u.numbered) hlen hout

/-! ## FILET_FUNCTION_RUN, R377 -/

theorem apply_length (f : FiletFn) (xs : List Int) : (f.apply xs).length = xs.length := by
  unfold FiletFn.apply
  dsimp only
  split <;> simp

theorem fieldsAt_length (bs : List Byte) (o k n : Nat) : (fieldsAt bs o k n).length = n := by simp [fieldsAt]

/-- A read of `n` bytes finds a vacant line, or none. -/
def State.sourceEvent (s : State) (sp : Space) (a n c : Nat) : State := if s.mem.anyVacant sp a n then s.homeEvent sp a c else s

theorem sourceEvent_leaves (s : State) (sp : Space) (a n c : Nat) : StoredOnly s (s.sourceEvent sp a n c) ∧ (s.sourceEvent sp a n c).mem = s.mem := by
  unfold State.sourceEvent
  split
  · exact homeEvent_leaves ..
  · exact ⟨rfl, rfl⟩

/-- A custom function reads its source, writes its result and signals. -/
theorem execFiletFunctionRun_eq {k c : Nat} {f : FiletFn} (hf : s.image.bind (fun i => i.functions[k]?) = some f) (hctx : s.filetCtx f = some c)
    (hon : s.domOn (.clusterCommon f.region) = true) : ∃ (u : State) (bytes : List Byte) (bad : Bool), StoredOnly s u ∧ u.mem = s.mem
      ∧ bytes.length = (if f.wide then 2 else 1) * f.elems
      ∧ execFiletFunctionRun k s = .next ((u.updMem (fun m => m.store .cluster (4194304 * f.region + f.dst) bytes bad)).sendSignal
          { who := 5 * 2 ^ 13 + f.region, ctx := c, id := f.outCtr, delta := 1 }) := by
  have hlen (xs : List Int) (w : Nat) : ((f.apply xs).flatMap (fun v => be w (unsigned (8 * w) v))).length = w * xs.length := by
    rw [flatMap_length_const _ (fun _ => be_length _ _), apply_length]
  unfold execFiletFunctionRun
  simp only [hf, hctx, hon, Bool.true_eq_false, if_false]
  obtain ⟨hread, hrmem⟩ := sourceEvent_leaves s .cluster (4194304 * f.region + f.src) ((if f.wide then 2 else 1) * f.elems) c
  obtain ⟨hwrite, hwmem⟩ := homeWrite_leaves (s.sourceEvent .cluster (4194304 * f.region + f.src) ((if f.wide then 2 else 1) * f.elems) c) .cluster (4194304 * f.region + f.dst)
    ((f.apply ((fieldsAt (s.mem.bytes .cluster (4194304 * f.region + f.src) ((if f.wide then 2 else 1) * f.elems)) 0 (if f.wide then 2 else 1) f.elems).map
      (signed (8 * (if f.wide then 2 else 1))))).flatMap (fun v => be (if f.wide then 2 else 1) (unsigned (8 * (if f.wide then 2 else 1)) v))).length c
  refine ⟨_, _, _, hread.trans hwrite, hwmem.trans hrmem, ?_, rfl⟩
  rw [hlen, List.length_map, fieldsAt_length]

theorem execFiletFunctionRun_runs {k c : Nat} {f : FiletFn} (hf : s.image.bind (fun i => i.functions[k]?) = some f) (hctx : s.filetCtx f = some c)
    (hon : s.domOn (.clusterCommon f.region) = true) : ∃ t, execFiletFunctionRun k s = .next t
      ∧ t.sync.signals = s.sync.signals ++ [{ who := 5 * 2 ^ 13 + f.region, ctx := c, id := f.outCtr, delta := 1 }]
      ∧ (∀ (sp : Space) (x : Nat), ¬ (sp = .cluster ∧ 4194304 * f.region + f.dst ≤ x ∧ x < 4194304 * f.region + f.dst + (if f.wide then 2 else 1) * f.elems) →
          t.mem.read sp x = s.mem.read sp x)
      ∧ { t with life := { t.life with commit := s.life.commit, storedStamp := s.life.storedStamp }, logs := s.logs, comms := s.comms, out := s.out,
                 sync := { t.sync with signals := s.sync.signals }, mem := s.mem } = s := by
  obtain ⟨u, bytes, bad, hu, hmem, hlen, hexec⟩ := execFiletFunctionRun_eq hf hctx hon
  have hsignals : u.sync.signals = s.sync.signals := hu.part (·.sync.signals) fun _ _ _ _ _ _ _ => rfl
  refine ⟨_, hexec, congrArg (· ++ _) hsignals, fun sp x hout => ?_,
    (congrArg (fun v : State => { v with sync := { v.sync with signals := s.sync.signals } }) hu :)⟩
  rw [← hlen] at hout
  exact (read_store_outside u.mem bad hout).trans (by rw [hmem])

/-- Settles O19: each event by what it changes; of a token, that only the append writes memory. -/
theorem tokensAndSlotTimersTakeEffect : Obligations.TokensAndSlotTimersTakeEffect :=
  ⟨fun _ _ _ hcfg hfeeds hunread hready hfull hroom => execSpillMove_moves hcfg hfeeds hunread hready hfull hroom,
    fun _ _ hcfg => execSilentTimeout_hushes hcfg, fun _ hup hslots => execRateCheck_rates hup hslots,
    fun facts _ _ _ himage hs0 hfw hsolo hrunning hfe hspan hfed hsome hfinal hon0 hon1 hcap =>
      execTokenForm_appends facts himage hs0 hfw hsolo hrunning hfe hspan hfed hsome hfinal hon0 hon1 hcap,
    fun _ _ _ _ hf hctx hon => execFiletFunctionRun_runs hf hctx hon⟩

end Sys2Proof.Machine
end

section
/-! What a wake changes (R54, R70 to R72, R265): the thread, the list of fired wakes, and the power that the thread asks for. -/

namespace Sys2Proof.Machine

open Sys2Proof

variable (s : State)

/-! ## Asking for power, R69, R71 -/

/-- The parts that a request for power may change. -/
theorem askPower_eq (d : Dom) (c : Nat) : ∃ waiting clks doms ctxs co st lo cm ou, s.askPower d c = { s with
    supply := { s.supply with waiting := waiting }, clks := clks, doms := doms, ctxs := ctxs
    life := { s.life with commit := co, storedStamp := st }, logs := lo, comms := cm, out := s.out ++ ou } := by
  unfold State.askPower
  split
  · exact ⟨s.supply.waiting, s.clks, s.doms, s.ctxs, s.life.commit, s.life.storedStamp, s.logs, s.comms, [], by rw [List.append_nil]⟩
  split
  · unfold State.holdPower
    dsimp only
    obtain ⟨co, st, lo, cm, ou, h⟩ := trouble_parts
      (({ s with supply := { s.supply with waiting := s.supply.waiting ++ [(d, c)] } } : State).updCtx c (fun y => { y with held := true })) 0 9 0 12 c []
    rw [h]
    split
    · exact ⟨_, s.clks, s.doms, _, co, st, lo, cm, ou, rfl⟩
    · split
      · exact ⟨_, s.clks, s.doms, _, co, st, lo, cm, ou, rfl⟩
      · exact ⟨_, s.clks, s.doms, _, co, st, lo, cm, ou, rfl⟩
  · have hcommon : ∃ clks doms, s.wakeDom d = { s with clks := clks, doms := doms } := by
      cases d with
      | coreGroup g => unfold State.wakeDom; dsimp only; split <;> exact ⟨_, _, rfl⟩
      | clusterCommon => exact ⟨_, _, rfl⟩
      | _ => exact ⟨s.clks, _, rfl⟩
    obtain ⟨clks, doms, h⟩ := hcommon
    exact ⟨s.supply.waiting, clks, doms, s.ctxs, s.life.commit, s.life.storedStamp, s.logs, s.comms, [], by rw [h, List.append_nil]⟩

/-- A part of the state that no request for power touches. -/
theorem askPower_part {α : Type} (g : State → α) (d : Dom) (c : Nat)
    (hg : ∀ waiting clks doms ctxs co st lo cm ou, g { s with
      supply := { s.supply with waiting := waiting }, clks := clks, doms := doms, ctxs := ctxs
      life := { s.life with commit := co, storedStamp := st }, logs := lo, comms := cm, out := ou } = g s) : g (s.askPower d c) = g s := by
  obtain ⟨waiting, clks, doms, ctxs, co, st, lo, cm, ou, h⟩ := askPower_eq s d c
  rw [h]
  exact hg ..

@[simp] theorem askPower_threads (d : Dom) (c : Nat) : (s.askPower d c).threads = s.threads :=
  askPower_part s State.threads d c fun _ _ _ _ _ _ _ _ _ => rfl

/-! ## Wakes, R265 -/

@[simp] theorem wakeThread_threads (t w : Nat) : (s.wakeThread t w).threads = (s.updThread t (fun x => { x with wstat := w })).threads :=
  askPower_threads ..

@[simp] theorem wakeThread_sync (t w : Nat) : (s.wakeThread t w).sync = { s.sync with woken := s.sync.woken ++ [t] } := askPower_sync ..

@[simp] theorem wakeThread_pack (t w : Nat) : (s.wakeThread t w).pack = s.pack := askPower_part _ State.pack _ _ fun _ _ _ _ _ _ _ _ _ => rfl

@[simp] theorem wakeThread_mem (t w : Nat) : (s.wakeThread t w).mem = s.mem := askPower_part _ State.mem _ _ fun _ _ _ _ _ _ _ _ _ => rfl

@[simp] theorem wakeThread_hist (t w : Nat) : (s.wakeThread t w).hist = s.hist := askPower_part _ State.hist _ _ fun _ _ _ _ _ _ _ _ _ => rfl

@[simp] theorem wakeThread_rings (t w : Nat) : (s.wakeThread t w).rings = s.rings := askPower_part _ State.rings _ _ fun _ _ _ _ _ _ _ _ _ => rfl

/-- Threads woken in order join the list of fired wakes in that order. -/
theorem each_wakeThread_sync (l : List Nat) : (s.each l (fun v t => v.wakeThread t 0)).sync = { s.sync with woken := s.sync.woken ++ l } := by
  induction l generalizing s with
  | nil => rw [State.each, List.append_nil]
  | cons t ts ih => rw [State.each, ih, wakeThread_sync, List.append_assoc, List.singleton_append]

theorem each_wakeThread_part {α : Type} (g : State → α) (hg : ∀ v t, g (State.wakeThread v t 0) = g v) (l : List Nat) :
    g (s.each l (fun v t => v.wakeThread t 0)) = g s :=
  each_part g hg l s

/-! ## What wakes, notifies and a released barrier change together -/

/-- The state with what wakes, notifies and a released pack barrier change as it is in `s`: threads, the lists of wakes and releases,
the wake lines, the release mirrors, the power asked for, and what an event touches. -/
def State.calmed (t s : State) : State :=
  { t with
    life := { t.life with commit := s.life.commit, storedStamp := s.life.storedStamp }, logs := s.logs, comms := s.comms, out := s.out
    supply := { t.supply with waiting := s.supply.waiting }, clks := s.clks, doms := s.doms, ctxs := s.ctxs, threads := s.threads
    sync := { t.sync with woken := s.sync.woken, lines := s.sync.lines, releases := s.sync.releases }
    pack := { t.pack with ports := s.pack.ports, mirrors := s.pack.mirrors, mirrorWait := s.pack.mirrorWait } }

/-- `t` is `s` but for what wakes, notifies and a released pack barrier change. -/
def Roused (s t : State) : Prop := t.calmed s = s

theorem roused_refl : Roused s s := rfl

variable {s} {t u : State}

theorem Roused.trans (h : Roused s t) (g : Roused t u) : Roused s u := ((congrArg (State.calmed · s) g :)).trans h

/-- A part of the state that looks at nothing of what a wake changes. -/
theorem Roused.part {α : Type} (h : Roused s t) (g : State → α) (hg : ∀ v w : State, g (v.calmed w) = g v) : g t = g s :=
  (hg t s).symm.trans (congrArg g h)

theorem Roused.counter (h : Roused s t) (k : Nat) : t.counter k = s.counter k := h.part (·.counter k) fun _ _ => rfl
theorem Roused.signals (h : Roused s t) : t.sync.signals = s.sync.signals := h.part (·.sync.signals) fun _ _ => rfl
theorem Roused.mem (h : Roused s t) : t.mem = s.mem := h.part State.mem fun _ _ => rfl
theorem Roused.hist (h : Roused s t) : t.hist = s.hist := h.part State.hist fun _ _ => rfl
theorem Roused.img (h : Roused s t) : t.img = s.img := h.part State.img fun _ _ => rfl
theorem Roused.opt (h : Roused s t) : t.opt = s.opt := h.part State.opt fun _ _ => rfl
theorem Roused.tallyFrom (h : Roused s t) : t.pack.tallyFrom = s.pack.tallyFrom := h.part (·.pack.tallyFrom) fun _ _ => rfl
theorem Roused.supply (h : Roused s t) : { t.supply with waiting := s.supply.waiting } = s.supply := (congrArg State.supply h :)

variable (s)

/-- A fold of steps each of which rouses. -/
theorem roused_each {α : Type} {f : State → α → State} (hf : ∀ v n, Roused v (f v n)) (l : List α) : Roused s (s.each l f) := by
  induction l generalizing s with
  | nil => exact roused_refl s
  | cons n ns ih => exact (hf s n).trans (ih _)

theorem roused_askPower (d : Dom) (c : Nat) : Roused s (s.askPower d c) := by
  obtain ⟨waiting, clks, doms, ctxs, co, st, lo, cm, ou, h⟩ := askPower_eq s d c
  rw [h]
  exact rfl

theorem roused_wakeThread (t w : Nat) : Roused s (s.wakeThread t w) := by
  unfold State.wakeThread
  exact Roused.trans (t := { s.updThread t (fun x => { x with wstat := w }) with
    sync := { s.sync with woken := s.sync.woken ++ [t] } }) rfl (roused_askPower _ _ _)

theorem roused_notify (sid op c : Nat) (st : Status) (d : Nat) (l : List Tlv) : Roused s (s.notify sid op c st d l) := by
  obtain ⟨co, ou, h⟩ := notify_eq s sid op c st d l
  rw [h]
  exact rfl

theorem roused_trouble (w b loc unit c : Nat) (l : List Nat) : Roused s (s.trouble w b loc unit c l) := by
  obtain ⟨co, st, lo, cm, ou, h⟩ := trouble_parts s w b loc unit c l
  rw [h]
  exact rfl

theorem roused_of_onPorts (h : OnPorts s t) : Roused s t := (congrArg (State.calmed · s) h.1 :)

end Sys2Proof.Machine
end

section
/-! A signal at its home (R257, R260, R261, R265, R274, R349) and a refused use of a counter (Table 7.17). -/

namespace Sys2Proof.Machine

open Sys2Proof

variable (s : State)

/-! ## Compares, thresholds and barriers that a signal satisfies -/

theorem roused_fireOne (p : Nat) (w : Compare) : Roused s (s.fireOne p w) := by
  unfold State.fireOne
  split
  · split
    · dsimp only
      split
      · exact roused_refl s
      · exact roused_refl s
    · exact roused_wakeThread ..
  · exact roused_refl s

theorem roused_fireAll (p : Nat) (ws : List Compare) : Roused s (s.fireAll p ws) := by
  induction ws generalizing s with
  | nil => exact roused_refl s
  | cons w ws ih =>
    have hfree (v : State) : Roused v (v.freeLines p w.expect) := rfl
    exact ((roused_fireOne s p w).trans (hfree _)).trans (ih _)

theorem roused_thresholdsNotify (p : Nat) (st : Status) (ts : List Threshold) : Roused s (s.thresholdsNotify p st ts) := by
  induction ts generalizing s with
  | nil => exact roused_refl s
  | cons t ts ih => exact (roused_notify s t.sid ..).trans (ih _)

/-- The mirror of a pack barrier at a value, without the waiters that it satisfies. -/
def State.mirrorAt (s : State) (c id v : Nat) : State :=
  { s with pack := { s.pack with
      mirrors := Tab.set 0 s.pack.mirrors (4096 * c + id) v
      mirrorWait := s.pack.mirrorWait.filter (fun m => !decide (m.2.1 = c ∧ m.2.2.1 = id ∧ m.2.2.2 ≤ v)) } }

/-- The threads that a mirror at a value satisfies. -/
def State.mirrorMet (s : State) (c id v : Nat) : List Nat :=
  (s.pack.mirrorWait.filter (fun m => decide (m.2.1 = c ∧ m.2.2.1 = id ∧ m.2.2.2 ≤ v))).map (·.1)

theorem raiseMirror_of_le {c id v : Nat} (h : v ≤ Tab.get 0 s.pack.mirrors (4096 * c + id)) : s.raiseMirror c id v = s := if_pos h

theorem raiseMirror_of_lt {c id v : Nat} (h : Tab.get 0 s.pack.mirrors (4096 * c + id) < v) :
    s.raiseMirror c id v = (s.mirrorAt c id v).each (s.mirrorMet c id v) (fun v t => v.wakeThread t 0) := if_neg (Nat.not_le.mpr h)

theorem roused_raiseMirror (c id v : Nat) : Roused s (s.raiseMirror c id v) := by
  by_cases h : v ≤ Tab.get 0 s.pack.mirrors (4096 * c + id)
  · rw [raiseMirror_of_le s h]
    exact roused_refl s
  · rw [raiseMirror_of_lt s (Nat.not_le.mp h)]
    have hmirror : Roused s (s.mirrorAt c id v) := rfl
    exact hmirror.trans (roused_each _ (fun v t => roused_wakeThread v t 0) _)

theorem roused_releaseBarrier (c id before now : Nat) : Roused s (s.releaseBarrier c id before now) := by
  unfold State.releaseBarrier
  split
  · exact roused_refl s
  · split
    · exact roused_refl s
    · dsimp only
      split
      · exact roused_raiseMirror ..
      · exact (roused_of_onPorts _ (flood_onPorts ..)).trans (roused_raiseMirror ..)

/-! ## The counter that a signal reaches -/

/-- A counter that a signal has reached, without the compares and thresholds that it meets (R257, R261, R274). -/
def Counter.signalled (c : Counter) (who delta : Nat) : Counter :=
  { c.add who delta with
    waiters := c.waiters.filter (fun w => decide ((c.add who delta).value < w.expect))
    thresholds := c.thresholds.filter (fun t => decide ((c.add who delta).value < t.level)) }

/-- The home after a signal, before anything that the signal meets hears of it. -/
def State.signalled (s : State) (p who delta : Nat) : State :=
  (s.updCounter p (fun c => c.signalled who delta)).setUsed (homeOf p)
    (s.usedAt (homeOf p) - ((s.counter p).waiters.filter (fun w => decide (w.expect ≤ ((s.counter p).add who delta).value))).length)

theorem roused_signalAt (p who delta : Nat) : Roused (s.signalled p who delta) (s.signalAt p who delta) := by
  unfold State.signalAt
  exact ((roused_fireAll _ _ _).trans (roused_thresholdsNotify _ _ _ _)).trans (roused_releaseBarrier _ _ _ _ _)

theorem signalAt_counter_same (p who delta : Nat) : (s.signalAt p who delta).counter p = (s.counter p).signalled who delta :=
  ((roused_signalAt s p who delta).counter p).trans (State.updCounter_counter_same s p fun c => c.signalled who delta)

theorem signalAt_counter_ne {p q : Nat} (who delta : Nat) (h : q ≠ p) : (s.signalAt p who delta).counter q = s.counter q :=
  ((roused_signalAt s p who delta).counter q).trans (State.updCounter_counter_ne s p (fun c => c.signalled who delta) q h.symm)

theorem signalAt_signals (p who delta : Nat) : (s.signalAt p who delta).sync.signals = s.sync.signals := (roused_signalAt s p who delta).signals

theorem signalAt_mem (p who delta : Nat) : (s.signalAt p who delta).mem = s.mem := (roused_signalAt s p who delta).mem

theorem signalAt_hist (p who delta : Nat) : (s.signalAt p who delta).hist = s.hist := (roused_signalAt s p who delta).hist

/-! ## A refused use, Table 7.17 -/

/-- The counter that a refused use names, where it names one, with its misuse mark. -/
def State.misused (s : State) (p : Option Nat) : State :=
  match p with
  | some n => s.updCounter n (fun c => { c with misuse := true })
  | none => s

theorem misused_counter (p : Option Nat) (q : Nat) : ((s.misused p).counter q).value = (s.counter q).value
    ∧ ((s.misused p).counter q).waiters = (s.counter q).waiters := by
  cases p with
  | none => exact ⟨rfl, rfl⟩
  | some n =>
    by_cases h : n = q
    · subst h
      simp [State.misused]
    · simp [State.misused, State.updCounter_counter_ne _ _ _ _ h]

theorem misuse_logged (p : Option Nat) (c : Nat) : Logged (s.misused p) (s.misuse p c) [(2, 1)] := logged_trouble _ 2 1 0 0 c [] (by decide) (by decide)

theorem misuse_bit (p : Option Nat) (c : Nat) : ((s.misuse p c).logs.word 2).getLsbD 1 = true := by
  obtain ⟨-, -, hbits⟩ := misuse_logged s p c
  rw [hbits 2 1 (by decide)]
  simp

theorem roused_misuse (p : Option Nat) (c : Nat) : Roused (s.misused p) (s.misuse p c) := roused_trouble ..

theorem misuse_counter (p : Option Nat) (c q : Nat) : ((s.misuse p c).counter q).value = (s.counter q).value
    ∧ ((s.misuse p c).counter q).waiters = (s.counter q).waiters := by
  rw [(roused_misuse s p c).counter]
  exact misused_counter s p q

theorem misuse_marks (c q : Nat) : ((s.misuse (some q) c).counter q).misuse = true := by
  rw [(roused_misuse s (some q) c).counter]
  simp [State.misused]

/-! ## A signal that reaches the home that its id names -/

variable {s} {g : Signal}

theorem applySignal_of_bound {p : Nat} (hbound : s.physOf g.ctx g.id = some p) (horphan : (s.counter p).orphaned = false) :
    s.applySignal g = s.signalAt p g.who g.delta := by
  simp [State.applySignal, hbound, horphan]

/-- No counter hears an id that is unbound or whose counter is orphaned. -/
def State.deaf (s : State) (c id : Nat) : Prop := s.physOf c id = none ∨ ∃ p, s.physOf c id = some p ∧ (s.counter p).orphaned = true

theorem applySignal_of_deaf (hdeaf : s.deaf g.ctx g.id) (hstep : g.from_ = none) : s.applySignal g = s.misuse (s.physOf g.ctx g.id) g.ctx := by
  obtain hnone | ⟨p, hbound, horphan⟩ := hdeaf
  · simp [State.applySignal, hnone, hstep]
  · simp [State.applySignal, hbound, horphan, hstep]

/-- A descriptor's refused signal: its counter's misuse mark and its ring's ERR 3, beside what the event touches. -/
theorem descErr3_leaves (s : State) (ring tag : Nat) (p : Option Nat) (c : Nat) :
    Roused ((s.misused p).updRing ring (fun r => { r with err := 3 })) (s.descErr3 ring tag p c) := by
  obtain ⟨co, st, lo, cm, ou, h, -⟩ := troubleAs_eq ((s.misused p).updRing ring (fun r => { r with err := 3 })) 2 1
    { code := 0x342, ctx := c, detail := descDetail ring tag 3 } (by decide) (by decide)
  have hdesc : s.descErr3 ring tag p c = ((s.misused p).updRing ring (fun r => { r with err := 3 })).troubleAs 2 1
    { code := 0x342, ctx := c, detail := descDetail ring tag 3 } := rfl
  rw [hdesc, h]
  exact rfl

theorem misused_leaves (s : State) (p : Option Nat) : (s.misused p).sync.signals = s.sync.signals ∧ (s.misused p).mem = s.mem ∧ (s.misused p).hist = s.hist := by
  cases p <;> exact ⟨rfl, rfl, rfl⟩

/-- Whether it is heard or not, a signal leaves those that follow it on their way, memory and the history. -/
theorem applySignal_leaves (s : State) (g : Signal) :
    (s.applySignal g).sync.signals = s.sync.signals ∧ (s.applySignal g).mem = s.mem ∧ (s.applySignal g).hist = s.hist := by
  have hmisuse (p : Option Nat) : (s.misuse p g.ctx).sync.signals = s.sync.signals ∧ (s.misuse p g.ctx).mem = s.mem ∧ (s.misuse p g.ctx).hist = s.hist := by
    have h := roused_misuse s p g.ctx
    rw [h.signals, h.mem, h.hist]
    exact misused_leaves s p
  have hdesc (ring tag : Nat) (p : Option Nat) : (s.descErr3 ring tag p g.ctx).sync.signals = s.sync.signals
      ∧ (s.descErr3 ring tag p g.ctx).mem = s.mem ∧ (s.descErr3 ring tag p g.ctx).hist = s.hist := by
    have h := descErr3_leaves s ring tag p g.ctx
    rw [h.signals, h.mem, h.hist]
    exact misused_leaves s p
  unfold State.applySignal
  split
  · split
    · exact hdesc ..
    · exact hmisuse _
  · split
    · split
      · exact hdesc ..
      · exact hmisuse _
    · exact ⟨signalAt_signals .., signalAt_mem .., signalAt_hist ..⟩

end Sys2Proof.Machine
end

section
/-! COUNTER_SIGNAL_APPLY, BARRIER_RELEASE_RECEIPT, WAITER_WAKE and COMPARE_REGISTRATION_RETRY (R257, R258, R260, R265, R266, R272). -/

namespace Sys2Proof.Machine

open Sys2Proof

variable {s : State}

/-! ## COUNTER_SIGNAL_APPLY -/

/-- The way of signals without the k-th. -/
def State.offTheWay (s : State) (k : Nat) : State := { s with sync := { s.sync with signals := s.sync.signals.eraseIdx k } }

theorem execCounterSignalApply_arrives {k : Nat} {g : Signal} (hway : s.sync.signals[k]? = some g)
    (hfirst : (s.sync.signals.take k).any (fun e => decide (e.ctx = g.ctx ∧ e.id = g.id)) = false)
    (hup : ∀ p, s.physOf g.ctx g.id = some p → s.homeUp p = true) : execCounterSignalApply k s = .next ((s.offTheWay k).applySignal g) := by
  have hpower : (s.physOf g.ctx g.id).any (fun p => !s.homeUp p) = false := by
    cases hphys : s.physOf g.ctx g.id with
    | none => rfl
    | some p => simp [hup p hphys]
  unfold execCounterSignalApply
  simp only [hway, hfirst, hpower, Bool.false_eq_true, if_false]
  rfl

theorem signalAt_marks (s : State) (p who delta : Nat) :
    ((s.signalAt p who delta).counter p).value = min ((s.counter p).value + delta) (2 ^ 64 - 1)
      ∧ ((s.signalAt p who delta).counter p).sat = ((s.counter p).sat || decide (2 ^ 64 - 1 < (s.counter p).value + delta))
      ∧ ((s.signalAt p who delta).counter p).lastSig = who ∧ ((s.signalAt p who delta).counter p).lastDelta = min delta (2 ^ 32 - 1)
      ∧ ((s.signalAt p who delta).counter p).overtaken = (s.counter p).overtaken
      ∧ ((s.signalAt p who delta).counter p).waiters
        = (s.counter p).waiters.filter (fun w => decide (((s.signalAt p who delta).counter p).value < w.expect)) := by
  rw [signalAt_counter_same]
  exact ⟨rfl, rfl, rfl, rfl, rfl, rfl⟩

theorem execCounterSignalApply_applies {k : Nat} {g : Signal} (hway : s.sync.signals[k]? = some g)
    (hfirst : (s.sync.signals.take k).any (fun e => decide (e.ctx = g.ctx ∧ e.id = g.id)) = false)
    (hup : ∀ p, s.physOf g.ctx g.id = some p → s.homeUp p = true) :
    ∃ t, exec (.counterSignalApply k) s = .next t ∧ t.sync.signals = s.sync.signals.eraseIdx k ∧ t.mem = s.mem
      ∧ (∀ p, s.physOf g.ctx g.id = some p → (s.counter p).orphaned = false →
          (t.counter p).value = min ((s.counter p).value + g.delta) (2 ^ 64 - 1)
          ∧ (t.counter p).sat = ((s.counter p).sat || decide (2 ^ 64 - 1 < (s.counter p).value + g.delta)) ∧ (t.counter p).lastSig = g.who
          ∧ (t.counter p).waiters = (s.counter p).waiters.filter (fun w => decide ((t.counter p).value < w.expect))
          ∧ ∀ q, q ≠ p → t.counter q = s.counter q)
      ∧ (g.from_ = none → (s.physOf g.ctx g.id = none ∨ ∃ p, s.physOf g.ctx g.id = some p ∧ (s.counter p).orphaned = true) →
          (t.logs.word 2).getLsbD 1 = true ∧ ∀ q, (t.counter q).value = (s.counter q).value ∧ (t.counter q).waiters = (s.counter q).waiters) := by
  obtain ⟨hsignals, hmem, -⟩ := applySignal_leaves (s.offTheWay k) g
  refine ⟨_, execCounterSignalApply_arrives hway hfirst hup, hsignals, hmem, fun p hbound horphan => ?_, fun hstep hdeaf => ?_⟩
  · rw [applySignal_of_bound (s := s.offTheWay k) hbound horphan]
    obtain ⟨hvalue, hsat, hlast, -, -, hwaiters⟩ := signalAt_marks (s.offTheWay k) p g.who g.delta
    exact ⟨hvalue, hsat, hlast, hwaiters, fun q hq => signalAt_counter_ne (s.offTheWay k) g.who g.delta hq⟩
  · rw [applySignal_of_deaf (s := s.offTheWay k) hdeaf hstep]
    exact ⟨misuse_bit .., fun q => misuse_counter (s.offTheWay k) _ _ q⟩

/-! ## BARRIER_RELEASE_RECEIPT, R272 -/

theorem execBarrierReleaseReceipt_wakes {k : Nat} {m : ReleaseMsg} (hway : s.sync.releases[k]? = some m) :
    ∃ t, exec (.barrierReleaseReceipt k) s = .next t ∧ t.sync.releases = s.sync.releases.eraseIdx k
      ∧ t.sync.woken = s.sync.woken ++ s.barrierThreads m ∧ t.sync.counters = s.sync.counters ∧ t.mem = s.mem := by
  have hexec : exec (.barrierReleaseReceipt k) s
      = .next (({ s with sync := { s.sync with releases := s.sync.releases.eraseIdx k } } : State).each (s.barrierThreads m) (fun v t => v.wakeThread t 0)) := by
    change execBarrierReleaseReceipt k s = _
    unfold execBarrierReleaseReceipt
    simp only [hway]
    rfl
  refine ⟨_, hexec, ?_, ?_, ?_, each_wakeThread_part _ State.mem (fun v t => wakeThread_mem v t 0) _⟩
  · rw [each_wakeThread_sync]
  · rw [each_wakeThread_sync]
  · rw [each_wakeThread_sync]

/-! ## WAITER_WAKE, R265 -/

/-- A thread that goes on to its next record is Ready there; its context may be noted as running, and no other thread changes. -/
theorem proceed_settles {th : Nat} (hcatch : (s.thread th).catchUp = false) (hmore : rEnd (s.recordOf th) = false) :
    ((((s.proceed th).settle (s.thread th).ctx)).thread th).state = .ready
      ∧ ((((s.proceed th).settle (s.thread th).ctx)).thread th).pc = (s.thread th).pc + 1
      ∧ (∀ u, u ≠ th → ((s.proceed th).settle (s.thread th).ctx).thread u = s.thread u)
      ∧ { (s.proceed th).settle (s.thread th).ctx with threads := s.threads, ctxs := s.ctxs } = s := by
  obtain ⟨v, since, hown, hother, hself, hrest⟩ := proceed_goes_on hcatch hmore
  have hready : (s.proceed th).thread th = (s.thread th).goneOn since := by rw [hself, hown.thread]
  have hrefresh := ownCtx_refreshCtx (s.proceed th) (s.thread th).ctx
  rw [settle_of_ready (by rw [hready]; rfl) (by rw [hready]; rfl)]
  refine ⟨by rw [hrefresh.thread, hready]; rfl, by rw [hrefresh.thread, hready]; rfl, fun u hu => ?_, ?_⟩
  · rw [hrefresh.thread, hother u hu, hown.thread]
  · exact ((congrArg (fun w : State => { w with threads := s.threads, ctxs := s.ctxs }) hrest :) : _ = _).trans
      ((congrArg (fun w : State => { w with threads := s.threads }) hown.1 :))

theorem execWaiterWake_goes_on {th : Nat} (hwoken : s.sync.woken.contains th = true) (hup : s.coreUp th = true)
    (hstate : (s.thread th).state = .sleeping) (hmet : (s.thread th).wstat = 0) (hcatch : (s.thread th).catchUp = false)
    (hmore : rEnd (s.recordOf th) = false) : ∃ t, exec (.waiterWake th) s = .next t
      ∧ (t.thread th).state = .ready ∧ (t.thread th).pc = (s.thread th).pc + 1 ∧ t.sync.woken = s.sync.woken.filter (· ≠ th)
      ∧ (∀ u, u ≠ th → t.thread u = s.thread u) ∧ { t with threads := s.threads, ctxs := s.ctxs, sync := s.sync } = s := by
  obtain ⟨v, hv⟩ : ∃ v : State, v = { s with sync := { s.sync with woken := s.sync.woken.filter (· ≠ th) } } := ⟨_, rfl⟩
  have hexec : exec (.waiterWake th) s = .next ((v.proceed th).settle (v.thread th).ctx) := by
    change execWaiterWake th s = _
    unfold execWaiterWake
    rw [if_neg (by rw [hwoken, hup]; simp)]
    simp only [hstate, hmet, ne_eq, not_true_eq_false, if_false, if_true, hv]
    rfl
  have hthread (u : Nat) : v.thread u = s.thread u := by rw [hv]; rfl
  have hrecord : v.recordOf th = s.recordOf th := by rw [hv]; rfl
  obtain ⟨hready, hpc, hother, hrest⟩ := proceed_settles (s := v) (th := th) (by rw [hthread, hcatch]) (by rw [hrecord, hmore])
  have hsync : ((v.proceed th).settle (v.thread th).ctx).sync = v.sync := (congrArg State.sync hrest :)
  have hsame : { (v.proceed th).settle (v.thread th).ctx with threads := s.threads, ctxs := s.ctxs, sync := s.sync } = s := by
    rw [hv] at hrest ⊢
    exact (congrArg (fun w : State => { w with sync := s.sync }) hrest :)
  refine ⟨_, hexec, hready, hpc.trans (by rw [hthread]), ?_, fun u hu => (hother u hu).trans (hthread u), hsame⟩
  rw [hsync, hv]

/-! ## COMPARE_REGISTRATION_RETRY, R266 -/

/-- The registrations that wait without the k-th. -/
def State.unblocked (s : State) (k : Nat) : State := { s with sync := { s.sync with blocked := s.sync.blocked.eraseIdx k } }

section
variable {k p : Nat} {w : Compare} (hwaits : s.sync.blocked[k]? = some (p, w)) (hup : s.homeUp p = true) (horphan : (s.counter p).orphaned = false)
include hwaits hup horphan

theorem execCompareRegistrationRetry_enters (hlow : (s.counter p).value < w.expect) (hfree : s.usedAt (homeOf p) < 1024) :
    ∃ t, exec (.compareRegistrationRetry k) s = .next t ∧ t.sync.blocked = s.sync.blocked.eraseIdx k
      ∧ (t.counter p).waiters = (s.counter p).waiters ++ [w] ∧ t.usedAt (homeOf p) = s.usedAt (homeOf p) + 1
      ∧ (∀ q, q ≠ p → t.counter q = s.counter q) ∧ { t with sync := s.sync } = s := by
  have hexec : exec (.compareRegistrationRetry k) s = .next ((s.unblocked k).enterCompare p w) := by
    change execCompareRegistrationRetry k s = _
    unfold execCompareRegistrationRetry
    simp only [hwaits, hup, horphan, Bool.true_eq_false, Bool.false_eq_true, if_false, Nat.not_le.mpr hlow, hfree, if_true]
    rfl
  obtain ⟨hwaiters, -, hused, hother, hrest⟩ := enterCompare_marks (s.unblocked k) p w
  obtain ⟨lines, henter⟩ := enterCompare_eq (s.unblocked k) p w
  refine ⟨_, hexec, ?_, hwaiters, hused, hother, (congrArg (fun v : State => { v with sync := s.sync }) hrest :)⟩
  rw [henter]
  rfl

theorem execCompareRegistrationRetry_wakes {th : Nat} (hwho : w.who = .thread th) (hreached : w.expect ≤ (s.counter p).value) :
    ∃ t, exec (.compareRegistrationRetry k) s = .next t ∧ t.sync.blocked = s.sync.blocked.eraseIdx k
      ∧ t.sync.woken = s.sync.woken ++ [th] ∧ (t.thread th).wstat = 0 ∧ t.sync.counters = s.sync.counters ∧ t.mem = s.mem := by
  have hexec : exec (.compareRegistrationRetry k) s = .next ((s.unblocked k).wakeThread th 0) := by
    change execCompareRegistrationRetry k s = _
    unfold execCompareRegistrationRetry
    simp only [hwaits, hup, horphan, Bool.true_eq_false, Bool.false_eq_true, if_false, hreached, if_true, hwho]
    rfl
  refine ⟨_, hexec, by rw [wakeThread_sync]; rfl, by rw [wakeThread_sync]; rfl, ?_, by rw [wakeThread_sync]; rfl, wakeThread_mem ..⟩
  rw [State.thread, wakeThread_threads]
  change (((s.unblocked k).updThread th (fun x => { x with wstat := 0 })).thread th).wstat = 0
  rw [State.updThread_thread_same]

end

end Sys2Proof.Machine
end

section
/-! WATCHDOG_EXPIRE (R277, R278): what the fault of a context may change, and the obligation on counter events. -/

namespace Sys2Proof.Machine

open Sys2Proof

variable (s : State)

/-! ## What a fault may change -/

/-- The state with what the fault of a context may change as it is in `s`: threads, rings, contexts, counters and barriers, the pack,
the watch schedule, ingest, the power asked for, and what an event touches. -/
def State.unfaulted (t s : State) : State :=
  { t with
    life := { t.life with commit := s.life.commit, storedStamp := s.life.storedStamp }, logs := s.logs, comms := s.comms, out := s.out
    supply := { t.supply with waiting := s.supply.waiting }, clks := s.clks, doms := s.doms, ctxs := s.ctxs, threads := s.threads
    rings := s.rings, sync := s.sync, pack := s.pack, watch := s.watch, ing := s.ing, hist := s.hist }

/-- `t` is `s` but for what the fault of a context may change. -/
def FaultOnly (s t : State) : Prop := t.unfaulted s = s

theorem faultOnly_refl : FaultOnly s s := rfl

variable {s} {t u : State}

theorem FaultOnly.trans (h : FaultOnly s t) (g : FaultOnly t u) : FaultOnly s u := ((congrArg (State.unfaulted · s) g :)).trans h

theorem Roused.faultOnly (h : Roused s t) : FaultOnly s t := (congrArg (State.unfaulted · s) h :)

variable (s)

theorem faultOnly_each {α : Type} {f : State → α → State} (hf : ∀ v n, FaultOnly v (f v n)) (l : List α) : FaultOnly s (s.each l f) := by
  induction l generalizing s with
  | nil => exact faultOnly_refl s
  | cons n ns ih => exact (hf s n).trans (ih _)

theorem faultOnly_sync (y : Sync) : FaultOnly s { s with sync := y } := rfl
theorem faultOnly_updCtx (c : Nat) (f : Ctx → Ctx) : FaultOnly s (s.updCtx c f) := rfl
theorem faultOnly_updThread (t : Nat) (f : Thread → Thread) : FaultOnly s (s.updThread t f) := rfl

theorem roused_orphanWake (p : Nat) (ws : List Compare) : Roused s (s.orphanWake p ws) := by
  induction ws generalizing s with
  | nil => exact roused_refl s
  | cons w ws ih =>
    have hfree (v : State) : Roused v (v.freeLines p w.expect) := rfl
    refine Roused.trans ?_ ((hfree _).trans (ih _))
    split
    · exact roused_wakeThread ..
    · exact roused_refl s

theorem faultOnly_orphan (p : Nat) : FaultOnly s (s.orphan p) := by
  unfold State.orphan
  exact (faultOnly_sync s _).trans ((roused_orphanWake _ _ _).trans (roused_thresholdsNotify _ _ _ _)).faultOnly

theorem faultOnly_withdraw (t : Nat) : FaultOnly s (s.withdraw t) := by
  unfold State.withdraw
  refine FaultOnly.trans (t := s.each _ _) (faultOnly_each s (fun v p => ?_) _) rfl
  dsimp only
  split
  · exact faultOnly_refl v
  · rw [foldl_eq_each]
    exact (faultOnly_sync v _).trans (faultOnly_each _ (fun _ _ => faultOnly_sync _ _) _)

theorem faultOnly_faultThreads (c : Nat) : FaultOnly s (s.faultThreads c) :=
  faultOnly_each s (fun v t => (faultOnly_withdraw v t).trans (faultOnly_updThread _ _ _)) _

theorem faultOnly_unbindRings (c : Nat) : FaultOnly s (s.unbindRings c) := faultOnly_each s (fun _ _ => by exact rfl) _

theorem faultOnly_runsFailed (c cause : Nat) : FaultOnly s (s.runsFailed c cause) := by
  have hfails (v : State) (who : Option (Nat × Nat)) (no : Nat) : FaultOnly v (v.runFailed c who no cause) := by
    obtain ⟨co, ou, h⟩ := complete_eq v who 0x0408 c .watchdog cause [(1, be 4 no)]
    unfold State.runFailed
    rw [h]
    exact rfl
  unfold State.runsFailed
  dsimp only
  split
  · split
    · exact (hfails ..).trans (hfails ..)
    · exact hfails ..
  · split
    · exact hfails ..
    · exact faultOnly_refl s

theorem faultOnly_dropCtx (c cause : Nat) : FaultOnly s (s.dropCtx c cause) := by
  have hleave (v : State) : FaultOnly v (v.leavePass c) := rfl
  unfold State.dropCtx
  exact (((((faultOnly_faultThreads s c).trans (faultOnly_unbindRings _ c)).trans (faultOnly_each _ faultOnly_orphan _)).trans
    (faultOnly_runsFailed _ c cause)).trans (hleave _)).trans (faultOnly_updCtx _ _ _)

theorem faultOnly_syncIngest : FaultOnly s s.syncIngest := by
  unfold State.syncIngest
  (repeat' split) <;> exact rfl

/-- The state of a context at its fault. -/
def Ctx.fails (y : Ctx) (code : Nat) : Ctx := { y with state := .faulted, cause := code, failLogged := false }

/-- A fault before its commit and its record. -/
def State.struck (s : State) (c code : Nat) : State :=
  (((if c = 0 then { s with watch := s.watchLost } else s).dropCtx c code).updCtx c (fun y => y.fails code)).syncIngest

theorem faultOnly_struck (c code : Nat) : FaultOnly s (s.struck c code) := by
  have hwatch : FaultOnly s (if c = 0 then { s with watch := s.watchLost } else s) := by
    split <;> exact rfl
  exact ((hwatch.trans (faultOnly_dropCtx _ c code)).trans (faultOnly_updCtx _ _ _)).trans (faultOnly_syncIngest _)

theorem struck_ctx (c code : Nat) : ((s.struck c code).ctx c).state = .faulted ∧ ((s.struck c code).ctx c).cause = code
    ∧ ((s.struck c code).ctx c).pass = none ∧ ((s.struck c code).ctx c).pend = none := by
  unfold State.struck
  rw [ctx_of_ctxs (syncIngest_ctxs _), State.updCtx_ctx_same, State.dropCtx, State.updCtx_ctx_same]
  exact ⟨rfl, rfl, rfl, rfl⟩

variable {s}

theorem faultCtx_of_no_stop {c : Nat} (hstarted : (s.ctx c).started = true) (hstop : (s.ctx c).stopReq = none) (b code loc : Nat) (l : List Nat) :
    s.faultCtx c b code loc l = (s.struck c code).commit.troubleAs 2 b { code := code, loc := loc, ctx := c, detail := l } := by
  unfold State.faultCtx
  simp only [hstarted, if_true, hstop]
  rfl

/-- The commit of a fault and its record: the FAULT bit is set, and contexts stand. -/
theorem faultEvent_leaves (s : State) (e : LogEv) : (s.commit.troubleAs 2 0 e).ctxs = s.ctxs
    ∧ ((s.commit.troubleAs 2 0 e).logs.word 2).getLsbD 0 = true ∧ FaultOnly s (s.commit.troubleAs 2 0 e) := by
  obtain ⟨co, st, lo, cm, ou, h, hbits⟩ := troubleAs_eq s.commit 2 0 e (by decide) (by decide)
  rw [h]
  exact ⟨rfl, (hbits 2 0 (by decide)).trans (by simp), rfl⟩

/-! ## WATCHDOG_EXPIRE -/

theorem execWatchdogExpire_faults {c : Nat} (hready : s.isReady = true) (hlive : (s.ctx c).live = true) (hbusy : s.idle c = false)
    (htime : (s.ctx c).alive + 1000 * (s.ctx c).wdog ≤ s.life.now) (hstop : (s.ctx c).stopReq = none) :
    ∃ t, exec (.watchdogExpire c) s = .next t ∧ (t.ctx c).state = .faulted ∧ (t.ctx c).cause = 0x300 ∧ (t.ctx c).pass = none
      ∧ (t.ctx c).pend = none ∧ (t.logs.word 2).getLsbD 0 = true ∧ FaultOnly s t := by
  have hexec : exec (.watchdogExpire c) s = .next (s.faultCtx c 0 0x300 0 []) := if_pos ⟨hready, hlive, hbusy, htime⟩
  rw [faultCtx_of_no_stop (live_started hlive) hstop] at hexec
  obtain ⟨hctxs, hbit, honly⟩ := faultEvent_leaves (s.struck c 0x300) { code := 0x300, loc := 0, ctx := c, detail := [] }
  obtain ⟨hstate, hcause, hpass, hpend⟩ := struck_ctx s c 0x300
  rw [← ctx_of_ctxs hctxs] at hstate hcause hpass hpend
  exact ⟨_, hexec, hstate, hcause, hpass, hpend, hbit, (faultOnly_struck s c 0x300).trans honly⟩

/-! ## The obligation -/

/-- Settles O15: a signal by whether its id is heard, a retry by whether its counter is reached, the watchdog by what a fault may change. -/
theorem counterEventsTakeEffect : Obligations.CounterEventsTakeEffect := by
  unfold Obligations.CounterEventsTakeEffect
  refine ⟨fun k s g hway hfirst hup => execCounterSignalApply_applies hway hfirst hup,
    fun k s m hway => execBarrierReleaseReceipt_wakes hway,
    fun th s hwoken hup hstate hmet hcatch _ hmore => execWaiterWake_goes_on hwoken hup hstate hmet hcatch hmore,
    fun k s p w hwaits hup horphan => ⟨fun hlow hfree => execCompareRegistrationRetry_enters hwaits hup horphan hlow hfree,
      fun th hwho hreached => execCompareRegistrationRetry_wakes hwaits hup horphan hwho hreached⟩,
    fun c s hready hlive hbusy htime hstop => ?_⟩
  obtain ⟨t, hexec, hstate, hcause, hpass, hpend, hbit, honly⟩ := execWatchdogExpire_faults hready hlive hbusy htime hstop
  exact ⟨t, hexec, hstate, hcause, hpass, hpend, hbit, (congrArg State.mem honly :), (congrArg State.engines honly :), (congrArg State.supply honly :),
    (congrArg State.img honly :), (congrArg State.opt honly :), (congrArg State.trust honly :), (congrArg State.upk honly :)⟩

end Sys2Proof.Machine
end

section
/-! SIGNAL_FRAME, RELEASE_FRAME, ADVISORY_FRAME and TALLY_FRAME (R257, R329, R331, R338, R349, R350). -/

namespace Sys2Proof.Machine

open Sys2Proof

variable {s u : State} {port : Nat} {h : PackHdr}

/-! ## Frames whose message is whole at once -/

/-- A message in one frame is whole with it. -/
theorem takes_of_one_frame {b : PackBody} (hone : (b.frames h).length = 1) (hu : s.recv port h b = .take u) : s.Takes port h b u := by
  refine ⟨u, hu, ?_⟩
  unfold State.gather
  dsimp only
  rw [if_pos (by rw [List.length_map, hone])]

/-- A message of at most 4,096 bytes goes in one frame. -/
theorem frames_length_of_small {b : PackBody} (hsmall : b.bytes ≤ 4096) : (b.frames h).length = 1 := by
  unfold PackBody.frames
  dsimp only
  have hone : ¬ 4096 < up4 b.bytes := by
    unfold up4
    omega
  rw [if_neg (fun hc => hone hc.2)]
  rfl

theorem onFrame_of_small {b : PackBody} (hsmall : b.bytes ≤ 4096) (hu : s.recv port h b = .take u) (f : State → State) :
    s.onFrame port h b f = .next (f u) :=
  onFrame_of_takes (takes_of_one_frame (frames_length_of_small hsmall) hu) rfl

theorem received_of_recv {b : PackBody} (hu : s.recv port h b = .take u) : Received s u :=
  (congrArg (fun v : State => { v with pack := { v.pack with parts := s.pack.parts } }) (recv_take_onPorts hu).1 :)

theorem Received.physOf (hu : Received s u) (c id : Nat) : u.physOf c id = s.physOf c id := hu.part (·.physOf c id) fun _ _ _ => rfl
theorem Received.counter (hu : Received s u) (p : Nat) : u.counter p = s.counter p := hu.part (·.counter p) fun _ _ _ => rfl
theorem Received.sync (hu : Received s u) : u.sync = s.sync := hu.part State.sync fun _ _ _ => rfl
theorem Received.rings (hu : Received s u) : u.rings = s.rings := hu.part State.rings fun _ _ _ => rfl
theorem Received.io (hu : Received s u) : u.io = s.io := hu.part State.io fun _ _ _ => rfl
theorem Received.wdone (hu : Received s u) : u.pack.wdone = s.pack.wdone := hu.part (·.pack.wdone) fun _ _ _ => rfl
theorem Received.mirrors (hu : Received s u) : u.pack.mirrors = s.pack.mirrors := hu.part (·.pack.mirrors) fun _ _ _ => rfl
theorem Received.mirrorWait (hu : Received s u) : u.pack.mirrorWait = s.pack.mirrorWait := hu.part (·.pack.mirrorWait) fun _ _ _ => rfl
theorem Received.live (hu : Received s u) : u.pack.live = s.pack.live := hu.part (·.pack.live) fun _ _ _ => rfl
theorem Received.tallies (hu : Received s u) : u.pack.tallies = s.pack.tallies := hu.part (·.pack.tallies) fun _ _ _ => rfl
theorem Received.optv (hu : Received s u) : u.optv = s.optv := hu.part State.optv fun _ _ _ => rfl

/-! ## SIGNAL, R329, R331 -/

/-- How many writes of the sender a signal counts that are not done here. -/
def State.behind (s : State) (h : PackHdr) (wsent : Nat) : Nat := (wsent + 2 ^ 32 - Tab.get 0 s.pack.wdone (64 * h.ctx + h.src)) % 2 ^ 32

/-- The signal that a SIGNAL frame carries. -/
def carriedSignal (h : PackHdr) (id delta : Nat) : Signal := { who := 3 * 2 ^ 13 + h.src, ctx := h.ctx, id := id % 4096, delta := delta }

/-- What a SIGNAL does at its home. -/
def State.remoteSignalled (s : State) (h : PackHdr) (id delta : Nat) (fenced : Bool) (wsent : Nat) : State :=
  match s.physOf h.ctx (id % 4096) with
  | some p =>
    if fenced = false ∧ s.behind h wsent ≠ 0 ∧ s.behind h wsent < 2 ^ 31 ∧ (s.counter p).orphaned = false
    then (s.applySignal (carriedSignal h id delta)).overtake p h.src (s.behind h wsent) else s.applySignal (carriedSignal h id delta)
  | none => s.applySignal (carriedSignal h id delta)

theorem execSignalFrame_taken {id delta wsent : Nat} {fenced : Bool} (hu : s.recv port h (.signal id delta fenced wsent) = .take u) :
    exec (.signalFrame port h id delta fenced wsent) s = .next (u.remoteSignalled h id delta fenced wsent) :=
  (onFrame_of_small (Nat.le_of_ble_eq_true rfl) hu _ : execSignalFrame port h id delta fenced wsent s = _)

/-- The counter that a signal has overtaken its data at. -/
theorem roused_overtake (s : State) (p src n : Nat) : Roused (s.updCounter p (fun c => { c with overtaken := true })) (s.overtake p src n) :=
  roused_trouble ..

theorem overtake_leaves (s : State) (p src n : Nat) : (s.overtake p src n).mem = s.mem ∧ (s.overtake p src n).hist = s.hist
    ∧ (s.overtake p src n).counter p = { s.counter p with overtaken := true } ∧ (∀ q, q ≠ p → (s.overtake p src n).counter q = s.counter q)
    ∧ ((s.overtake p src n).logs.word 2).getLsbD 3 = true := by
  have hroused := roused_overtake s p src n
  refine ⟨hroused.mem, hroused.hist, ?_, fun q hq => ?_, ?_⟩
  · rw [hroused.counter, State.updCounter_counter_same]
  · rw [hroused.counter, State.updCounter_counter_ne _ _ _ _ hq.symm]
  · obtain ⟨-, -, hbits⟩ := logged_trouble (s.updCounter p (fun c => { c with overtaken := true })) 2 3 (locCluster (homeOf p)) 0 (s.counter p).owner
      ((be 4 p).map (·.toNat) ++ [src] ++ (be 4 n).map (·.toNat)) (by decide) (by decide)
    exact (hbits 2 3 (by decide)).trans (by simp)

theorem remoteSignalled_leaves (s : State) (h : PackHdr) (id delta : Nat) (fenced : Bool) (wsent : Nat) :
    (s.remoteSignalled h id delta fenced wsent).mem = s.mem ∧ (s.remoteSignalled h id delta fenced wsent).hist = s.hist := by
  obtain ⟨-, hmem, hhist⟩ := applySignal_leaves s (carriedSignal h id delta)
  unfold State.remoteSignalled
  split
  · split
    · obtain ⟨hmem', hhist', -⟩ := overtake_leaves (s.applySignal (carriedSignal h id delta)) _ h.src (s.behind h wsent)
      exact ⟨hmem'.trans hmem, hhist'.trans hhist⟩
    · exact ⟨hmem, hhist⟩
  · exact ⟨hmem, hhist⟩

section
variable {id delta wsent p : Nat} {fenced : Bool} (hbound : s.physOf h.ctx (id % 4096) = some p) (horphan : (s.counter p).orphaned = false)
include hbound horphan

theorem remoteSignalled_of_late (hfence : fenced = false) (hbehind : 0 < s.behind h wsent) (hhalf : s.behind h wsent < 2 ^ 31) :
    s.remoteSignalled h id delta fenced wsent = (s.signalAt p (3 * 2 ^ 13 + h.src) delta).overtake p h.src (s.behind h wsent) := by
  rw [State.remoteSignalled, hbound]
  dsimp only
  rw [if_pos ⟨hfence, Nat.pos_iff_ne_zero.mp hbehind, hhalf, horphan⟩, applySignal_of_bound (g := carriedSignal h id delta) hbound horphan]
  rfl

theorem remoteSignalled_of_timely (htimely : ¬ (fenced = false ∧ s.behind h wsent ≠ 0 ∧ s.behind h wsent < 2 ^ 31)) :
    s.remoteSignalled h id delta fenced wsent = s.signalAt p (3 * 2 ^ 13 + h.src) delta := by
  rw [State.remoteSignalled, hbound]
  dsimp only
  rw [if_neg (fun hc => htimely ⟨hc.1, hc.2.1, hc.2.2.1⟩), applySignal_of_bound (g := carriedSignal h id delta) hbound horphan]
  rfl

theorem remoteSignalled_marks :
    ((s.remoteSignalled h id delta fenced wsent).counter p).value = min ((s.counter p).value + delta) (2 ^ 64 - 1)
      ∧ ((s.remoteSignalled h id delta fenced wsent).counter p).sat = ((s.counter p).sat || decide (2 ^ 64 - 1 < (s.counter p).value + delta))
      ∧ (∀ q, q ≠ p → (s.remoteSignalled h id delta fenced wsent).counter q = s.counter q)
      ∧ (fenced = false → 0 < s.behind h wsent → s.behind h wsent < 2 ^ 31 → ((s.remoteSignalled h id delta fenced wsent).counter p).overtaken = true
        ∧ ((s.remoteSignalled h id delta fenced wsent).logs.word 2).getLsbD 3 = true)
      ∧ ((fenced = true ∨ s.behind h wsent = 0) → ((s.remoteSignalled h id delta fenced wsent).counter p).overtaken = (s.counter p).overtaken) := by
  obtain ⟨hvalue, hsat, -, -, hovertaken, -⟩ := signalAt_marks s p (3 * 2 ^ 13 + h.src) delta
  by_cases hlate : fenced = false ∧ s.behind h wsent ≠ 0 ∧ s.behind h wsent < 2 ^ 31
  · obtain ⟨hfence, hbehind, hhalf⟩ := hlate
    rw [remoteSignalled_of_late hbound horphan hfence (Nat.pos_of_ne_zero hbehind) hhalf]
    obtain ⟨-, -, hself, hother, hbit⟩ := overtake_leaves (s.signalAt p (3 * 2 ^ 13 + h.src) delta) p h.src (s.behind h wsent)
    rw [hself]
    exact ⟨hvalue, hsat, fun q hq => (hother q hq).trans (signalAt_counter_ne s _ _ hq), fun _ _ _ => ⟨rfl, hbit⟩, fun htimely => absurd htimely (by simp [hfence, hbehind])⟩
  · rw [remoteSignalled_of_timely hbound horphan hlate]
    exact ⟨hvalue, hsat, fun q hq => signalAt_counter_ne s _ _ hq,
      fun hfence hbehind hhalf => absurd ⟨hfence, Nat.pos_iff_ne_zero.mp hbehind, hhalf⟩ hlate, fun _ => hovertaken⟩

end

theorem remoteSignalled_of_deaf {id : Nat} (hdeaf : s.deaf h.ctx (id % 4096)) (delta : Nat) (fenced : Bool) (wsent : Nat) :
    s.remoteSignalled h id delta fenced wsent = s.misuse (s.physOf h.ctx (id % 4096)) h.ctx := by
  have happly := applySignal_of_deaf (g := carriedSignal h id delta) hdeaf rfl
  obtain hnone | ⟨p, hbound, horphan⟩ := hdeaf
  · rw [State.remoteSignalled, hnone]
    exact happly.trans (by rw [show s.physOf (carriedSignal h id delta).ctx (carriedSignal h id delta).id = none from hnone]; rfl)
  · rw [State.remoteSignalled, hbound]
    simp only [horphan, Bool.true_eq_false, and_false, if_false]
    exact happly.trans (by rw [show s.physOf (carriedSignal h id delta).ctx (carriedSignal h id delta).id = some p from hbound]; rfl)

theorem execSignalFrame_marks {id delta wsent : Nat} {fenced : Bool} (hu : s.recv port h (.signal id delta fenced wsent) = .take u) :
    ∃ t, exec (.signalFrame port h id delta fenced wsent) s = .next t ∧ t.mem = s.mem ∧ t.hist = s.hist
      ∧ (∀ p, s.physOf h.ctx (id % 4096) = some p → (s.counter p).orphaned = false →
          (t.counter p).value = min ((s.counter p).value + delta) (2 ^ 64 - 1) ∧ (t.counter p).sat = ((s.counter p).sat || decide (2 ^ 64 - 1 < (s.counter p).value + delta))
          ∧ (∀ q, q ≠ p → t.counter q = s.counter q)
          ∧ (fenced = false → 0 < s.behind h wsent → s.behind h wsent < 2 ^ 31 → (t.counter p).overtaken = true ∧ (t.logs.word 2).getLsbD 3 = true)
          ∧ ((fenced = true ∨ s.behind h wsent = 0) → (t.counter p).overtaken = (s.counter p).overtaken))
      ∧ (s.deaf h.ctx (id % 4096) → (t.logs.word 2).getLsbD 1 = true ∧ ∀ q, (t.counter q).value = (s.counter q).value) := by
  have hr := received_of_recv hu
  have hbehind : u.behind h wsent = s.behind h wsent := by rw [State.behind, hr.wdone, State.behind]
  obtain ⟨hmem, hhist⟩ := remoteSignalled_leaves u h id delta fenced wsent
  refine ⟨_, execSignalFrame_taken hu, hmem.trans hr.mem, hhist.trans hr.hist, fun p hbound horphan => ?_, fun hdeaf => ?_⟩
  · have hmarks := remoteSignalled_marks (s := u) (h := h) (id := id) (delta := delta) (wsent := wsent) (p := p) (fenced := fenced)
      (by rw [hr.physOf, hbound]) (by rw [hr.counter, horphan])
    simpa only [hbehind, hr.counter] using hmarks
  · rw [remoteSignalled_of_deaf (s := u) (h := h) (id := id) (by simpa only [State.deaf, hr.physOf, hr.counter] using hdeaf)]
    exact ⟨misuse_bit .., fun q => (misuse_counter u _ _ q).1.trans (by rw [hr.counter])⟩

/-! ## RELEASE, R349 -/

theorem execReleaseFrame_taken {id value : Nat} (hu : s.recv port h (.release id value) = .take u) :
    exec (.releaseFrame port h id value) s = .next (u.raiseMirror h.ctx (id % 4096) value) :=
  (onFrame_of_small (Nat.le_of_ble_eq_true rfl) hu _ : execReleaseFrame port h id value s = _)

theorem execReleaseFrame_copy {id value : Nat} (hu : s.recv port h (.release id value) = .take u)
    (hlow : value ≤ Tab.get 0 s.pack.mirrors (4096 * h.ctx + id % 4096)) : exec (.releaseFrame port h id value) s = .next u := by
  rw [execReleaseFrame_taken hu, raiseMirror_of_le u (by rwa [(received_of_recv hu).mirrors])]

theorem execReleaseFrame_raises {id value : Nat} (hu : s.recv port h (.release id value) = .take u)
    (hhigh : Tab.get 0 s.pack.mirrors (4096 * h.ctx + id % 4096) < value) : ∃ t, exec (.releaseFrame port h id value) s = .next t
      ∧ Tab.get 0 t.pack.mirrors (4096 * h.ctx + id % 4096) = value
      ∧ (∀ k, k ≠ 4096 * h.ctx + id % 4096 → Tab.get 0 t.pack.mirrors k = Tab.get 0 s.pack.mirrors k)
      ∧ t.pack.mirrorWait = s.pack.mirrorWait.filter (fun m => !decide (m.2.1 = h.ctx ∧ m.2.2.1 = id % 4096 ∧ m.2.2.2 ≤ value))
      ∧ t.sync.woken = s.sync.woken ++ (s.pack.mirrorWait.filter (fun m => decide (m.2.1 = h.ctx ∧ m.2.2.1 = id % 4096 ∧ m.2.2.2 ≤ value))).map (·.1)
      ∧ t.sync.counters = s.sync.counters ∧ t.mem = s.mem ∧ t.hist = s.hist ∧ t.rings = s.rings := by
  have hr := received_of_recv hu
  obtain ⟨t, ht⟩ : ∃ t, t = (u.mirrorAt h.ctx (id % 4096) value).each (u.mirrorMet h.ctx (id % 4096) value) (fun v t => v.wakeThread t 0) := ⟨_, rfl⟩
  have hexec : exec (.releaseFrame port h id value) s = .next t := by
    rw [execReleaseFrame_taken hu, raiseMirror_of_lt u (by rwa [hr.mirrors]), ht]
  have hpack : t.pack = (u.mirrorAt h.ctx (id % 4096) value).pack := by
    rw [ht]
    exact each_wakeThread_part _ State.pack (fun v t => wakeThread_pack v t 0) _
  have hsync : t.sync = { u.sync with woken := u.sync.woken ++ u.mirrorMet h.ctx (id % 4096) value } := by
    rw [ht, each_wakeThread_sync]
    rfl
  have hmem : t.mem = u.mem := by
    rw [ht]
    exact each_wakeThread_part _ State.mem (fun v t => wakeThread_mem v t 0) _
  have hhist : t.hist = u.hist := by
    rw [ht]
    exact each_wakeThread_part _ State.hist (fun v t => wakeThread_hist v t 0) _
  have hrings : t.rings = u.rings := by
    rw [ht]
    exact each_wakeThread_part _ State.rings (fun v t => wakeThread_rings v t 0) _
  refine ⟨t, hexec, ?_, fun k hk => ?_, ?_, ?_, ?_, hmem.trans hr.mem, hhist.trans hr.hist, hrings.trans hr.rings⟩
  · rw [hpack]
    exact Tab.get_set_same ..
  · rw [hpack, ← hr.mirrors]
    exact Tab.get_set_ne _ _ _ _ hk.symm
  · rw [hpack, ← hr.mirrorWait]
    rfl
  · rw [hsync, hr.sync, State.mirrorMet, hr.mirrorWait]
  · rw [hsync, hr.sync]

/-! ## ADVISORY, R338 -/

/-- What an advisory of another member leaves of J4. -/
def State.advised (s : State) (pos : Nat) (outputs : BitVec 4) (aseq : Nat) : State :=
  if s.pack.live.testBit pos = true ∧ Tab.get 0 s.io.packSeq pos < aseq then
    ({ s with io := { s.io with packOutputs := Tab.set 0 s.io.packOutputs pos outputs, packSeq := Tab.set 0 s.io.packSeq pos aseq } }).releaseCut
  else s

theorem execAdvisoryFrame_taken {pos aseq sidx : Nat} {outputs : BitVec 4} (hu : s.recv port h (.advisory pos outputs aseq sidx) = .take u) :
    exec (.advisoryFrame port h pos outputs aseq sidx) s = .next (u.advised pos outputs aseq) :=
  (onFrame_of_small (Nat.le_of_ble_eq_true rfl) hu _ : execAdvisoryFrame port h pos outputs aseq sidx s = _)

theorem execAdvisoryFrame_sets {pos aseq sidx : Nat} {outputs : BitVec 4} (hu : s.recv port h (.advisory pos outputs aseq sidx) = .take u)
    (hlive : s.pack.live.testBit pos = true) (hnew : Tab.get 0 s.io.packSeq pos < aseq) :
    ∃ t, exec (.advisoryFrame port h pos outputs aseq sidx) s = .next t
      ∧ Tab.get 0 t.io.packOutputs pos = outputs ∧ Tab.get 0 t.io.packSeq pos = aseq ∧ t.io.cutOff = s.io.cutOff &&& t.asked
      ∧ (∀ q, q ≠ pos → Tab.get 0 t.io.packOutputs q = Tab.get 0 s.io.packOutputs q ∧ Tab.get 0 t.io.packSeq q = Tab.get 0 s.io.packSeq q)
      ∧ t.io.rules = s.io.rules ∧ { t with io := u.io } = u := by
  have hr := received_of_recv hu
  have hexec := execAdvisoryFrame_taken hu
  rw [State.advised, if_pos ⟨by rwa [hr.live], by rwa [hr.io]⟩] at hexec
  rw [← hr.io]
  exact ⟨_, hexec, Tab.get_set_same .., Tab.get_set_same .., rfl,
    fun q hq => ⟨Tab.get_set_ne _ _ _ _ hq.symm, Tab.get_set_ne _ _ _ _ hq.symm⟩, rfl, rfl⟩

theorem execAdvisoryFrame_old {pos aseq sidx : Nat} {outputs : BitVec 4} (hu : s.recv port h (.advisory pos outputs aseq sidx) = .take u)
    (hold : s.pack.live.testBit pos = false ∨ aseq ≤ Tab.get 0 s.io.packSeq pos) :
    exec (.advisoryFrame port h pos outputs aseq sidx) s = .next u := by
  have hr := received_of_recv hu
  rw [execAdvisoryFrame_taken hu, State.advised, hr.live, hr.io, if_neg]
  rintro ⟨hlive, hnew⟩
  obtain hdead | hlow := hold
  · exact absurd hlive (by simp [hdead])
  · exact absurd hnew (Nat.not_lt.mpr hlow)

/-! ## TALLY, R350 -/

/-- A member's tally, kept. -/
def State.tallied (s : State) (pos c id v : Nat) : State :=
  { s with pack := { s.pack with tallyFrom := Tab.set 0 s.pack.tallyFrom (2 ^ 18 * pos + 4096 * c + id) v } }

/-- The sum of the tallies of a pack barrier's counter: this member's own and those of the other live members. -/
def State.tallySum (s : State) (k : Nat) : Nat :=
  Tab.get 0 s.pack.tallies k + ((s.livePos.filter (· ≠ s.optv.ppos)).map (fun q => Tab.get 0 s.pack.tallyFrom (2 ^ 18 * q + k))).sum

theorem execTallyFrame_member {pos c id v : Nat} (hu : s.recv port h (.tally pos [(c, id, v)]) = .take u) (hlead : s.leads = false) :
    exec (.tallyFrame port h pos [(c, id, v)]) s = .next u := by
  refine (onFrame_of_small (Nat.le_of_ble_eq_true rfl) hu _ : execTallyFrame port h pos [(c, id, v)] s = _).trans ?_
  rw [if_pos ((received_of_recv hu).leads.trans hlead)]

theorem execTallyFrame_lead {pos c id v : Nat} (hu : s.recv port h (.tally pos [(c, id, v)]) = .take u) (hlead : s.leads = true) :
    exec (.tallyFrame port h pos [(c, id, v)]) s = .next ((u.tallied pos c (id % 4096) v).tallyCounter c (id % 4096)) := by
  refine (onFrame_of_small (Nat.le_of_ble_eq_true rfl) hu _ : execTallyFrame port h pos [(c, id, v)] s = _).trans ?_
  rw [if_neg (by simp [(received_of_recv hu).leads, hlead])]
  rfl

/-- The counter of a pack barrier that is bound takes the sum; what follows from its release rouses waiters. -/
theorem roused_tallyCounter {c id p : Nat} (hbound : s.physOf c id = some p) :
    Roused (s.updCounter p (fun x => { x with value := s.tallySum (4096 * c + id) })) (s.tallyCounter c id) := by
  have htally : s.tallyCounter c id = (s.updCounter p (fun x => { x with value := s.tallySum (4096 * c + id) })).releaseBarrier c id
      (Tab.get 0 s.pack.mirrors (4096 * c + id)) (s.tallySum (4096 * c + id)) := by
    unfold State.tallyCounter
    simp only [hbound]
    rfl
  rw [htally]
  exact roused_releaseBarrier ..

theorem execTallyFrame_sums {pos c id v p : Nat} (hu : s.recv port h (.tally pos [(c, id, v)]) = .take u) (hlead : s.leads = true)
    (hbound : s.physOf c (id % 4096) = some p) : ∃ t, exec (.tallyFrame port h pos [(c, id, v)]) s = .next t
      ∧ Tab.get 0 t.pack.tallyFrom (2 ^ 18 * pos + 4096 * c + id % 4096) = v
      ∧ (t.counter p).value = Tab.get 0 s.pack.tallies (4096 * c + id % 4096)
          + ((s.livePos.filter (· ≠ s.optv.ppos)).map (fun q => Tab.get 0 t.pack.tallyFrom (2 ^ 18 * q + (4096 * c + id % 4096)))).sum
      ∧ (∀ q, q ≠ p → t.counter q = s.counter q) ∧ t.mem = s.mem ∧ t.hist = s.hist := by
  have hr := received_of_recv hu
  have hbound' : (u.tallied pos c (id % 4096) v).physOf c (id % 4096) = some p := (hr.physOf c (id % 4096)).trans hbound
  have hroused := roused_tallyCounter hbound'
  have hcounter (q : Nat) (hq : q ≠ p) : ((u.tallied pos c (id % 4096) v).tallyCounter c (id % 4096)).counter q = s.counter q := by
    rw [hroused.counter, State.updCounter_counter_ne _ _ _ _ hq.symm]
    exact hr.counter q
  refine ⟨_, execTallyFrame_lead hu hlead, ?_, ?_, hcounter, hroused.mem.trans hr.mem, hroused.hist.trans hr.hist⟩
  · rw [hroused.tallyFrom]
    exact Tab.get_set_same ..
  · rw [hroused.counter, State.updCounter_counter_same, hroused.tallyFrom, ← hr.tallies, ← hr.livePos, ← hr.optv]
    rfl

/-! ## The obligation -/

/-- Settles O46: each frame is one message, whole at once; what it does to the state that its reception leaves. -/
theorem packSignalsReleasesAndTalliesTakeEffect : Obligations.PackSignalsReleasesAndTalliesTakeEffect := by
  unfold Obligations.PackSignalsReleasesAndTalliesTakeEffect
  exact ⟨fun s u port h id delta fenced wsent hu => execSignalFrame_marks hu,
    fun s u port h id value hu => ⟨fun hlow => execReleaseFrame_copy hu hlow, fun hhigh => execReleaseFrame_raises hu hhigh⟩,
    fun s u port h pos outputs aseq sidx hu => ⟨fun hlive hnew => execAdvisoryFrame_sets hu hlive hnew, fun hold => execAdvisoryFrame_old hu hold⟩,
    fun s u port h pos c id v hu => ⟨fun hlead => execTallyFrame_member hu hlead, fun p hlead hbound => execTallyFrame_sums hu hlead hbound⟩⟩

end Sys2Proof.Machine
end

section
/-! What the answer of a session's command leaves (R402 to R405, R411, R421): the session but for its ring, its replies and its record
number, and the state that the command's own rules leave. -/

namespace Sys2Proof.Machine

open Sys2Proof

variable {s v : State} {op sid : Nat} {x : Session} {p : Packet}

/-! ## What lasts of a session -/

/-- A session without the commands that wait, the replies kept and the number of its next record. -/
def Session.lasting (y : Session) : Session := { y with txNext := 0, ring := [], nextSeq := 0, replies := [] }

/-- What lasts of session `sid`, where it is open. -/
def State.lasting (s : State) (sid : Nat) : Option Session := (s.sess sid).map Session.lasting

theorem updSess_lasting (s : State) (sid : Nat) {f : Session → Session} (hf : ∀ y, (f y).lasting = y.lasting) :
    (s.updSess sid f).lasting sid = s.lasting sid := by
  rw [State.lasting, State.updSess_sess_same, Option.map_map, State.lasting]
  exact congrArg (Option.map · _) (funext hf)

theorem answer_lasting (s : State) (sid : Nat) (r : Reply) : (s.answer sid r).lasting sid = s.lasting sid := by
  have hsend : (s.sendReply sid r).lasting sid = s.lasting sid := by
    unfold State.sendReply
    split
    · rfl
    · next x hx =>
      rw [State.lasting, State.setSess_sess_same, State.lasting, hx]
      rfl
  exact (updSess_lasting _ sid (by exact fun _ => rfl)).trans hsend

theorem drainBad_lasting (s : State) (sid n : Nat) : (s.drainBad sid n).lasting sid = s.lasting sid := by
  induction n generalizing s with
  | zero => rfl
  | succ n ih =>
    unfold State.drainBad
    split
    · rfl
    · split
      · rw [ih, answer_lasting]
        exact updSess_lasting _ sid fun _ => rfl
      · rfl

/-! ## The session while its command is in hand -/

/-- The session whose command is in hand. -/
def Session.handed (x : Session) (p : Packet) : Session :=
  { x with ring := x.ring.filter (fun q => q.seq != p.seq), nextSeq := (x.nextSeq + 1) % 2 ^ 32, txNext := x.txNext + 1 }

theorem askedAt_sess (hx : s.sess sid = some x) (l : Life) : (s.askedAt sid p l).sess sid = some (x.handed p) := by
  have hhand : (s.inHand sid p).sess sid = some (x.handed p) := by
    rw [State.inHand, State.updSess_sess_same, State.popCmd, State.updSess_sess_same, hx]
    rfl
  exact hhand

theorem askedAt_sess_ne {n : Nat} (hn : n ≠ sid) (l : Life) : (s.askedAt sid p l).sess n = s.sess n :=
  (State.updSess_sess_ne _ _ _ _ hn.symm).trans (State.updSess_sess_ne s _ _ _ hn.symm)

theorem askedAt_subsOf (hx : s.sess sid = some x) (l : Life) : (s.askedAt sid p l).subsOf sid = s.subsOf sid := by
  rw [State.subsOf, askedAt_sess hx, State.subsOf, hx]
  rfl

theorem askedAt_rest (s : State) (sid : Nat) (p : Packet) : { s.askedAt sid p s.life with comms := s.comms, out := s.out } = s := by
  simp only [State.askedAt, State.inHand, State.popCmd, State.updSess, State.setSess]

/-! ## Answers -/

/-- `t` is `v`, the state that the rules of the command leave, once session `sid` has had the reply `r`. -/
def AnsweredFrom (s v t : State) (sid : Nat) (x : Session) (r : Reply) : Prop :=
  Replied s t sid x r ∧ { t with comms := v.comms, out := v.out } = v ∧ (∀ n, n ≠ sid → t.sess n = v.sess n) ∧ t.lasting sid = v.lasting sid

/-- The reply leaves first, then what the command's later effects send; what lasts of the session is as its rules leave it. -/
theorem answeredFrom_replyAt (s v : State) (sid : Nat) (x : Session) (p : Packet) (r : Reply) :
    AnsweredFrom s v (((s.popCmd sid p).replyAt v sid x.txNext (s.outPort x) r).drainBad sid 16) sid x r := by
  have hown : OwnOnly sid (s.out ++ [.reply sid x.txNext (s.outPort x) r])
      { v with out := s.out ++ [.reply sid x.txNext (s.outPort x) r] ++ v.out.drop s.out.length }
      (((s.popCmd sid p).replyAt v sid x.txNext (s.outPort x) r).drainBad sid 16) :=
    ownOnly_drainBad _ (ownOnly_updSess _ ⟨⟨_, rfl⟩, rfl, rfl, fun _ _ => rfl⟩)
  obtain ⟨⟨more, hout⟩, hrest, -, hothers⟩ := hown
  refine ⟨⟨more, by rw [hout, List.append_assoc]; rfl⟩, congrArg (fun w : State => { w with out := v.out }) hrest, hothers, ?_⟩
  exact (drainBad_lasting ..).trans (updSess_lasting _ sid fun _ => rfl)

/-- The life in which a command's own rules are asked: after its commit where it is of a kind that may change something (R423). -/
def State.askedLife (s : State) (wr : Bool) : Life := if wr then s.commit.life else s.life

/-- The run of a command whose rules leave `w`, or, where it is of a kind that changes nothing, leave the state as they found it. -/
theorem runCmd_asked {wr : Bool} {f : State → Packet → CmdOut} (h : Asks s op sid x p) {r : CmdOut} {w : State}
    (hf : f (s.askedAt sid p (s.askedLife wr)) p = r)
    (hw : (r.st.code < 0x10 ∧ r.next = some w) ∨ (wr = false ∧ r.next = none ∧ w = s.askedAt sid p s.life)) :
    s.runCmd op wr sid f = ((s.popCmd sid p).replyAt w sid x.txNext (s.outPort x)
      (replyOf p r.st r.detail r.tlvs (s.askedLife wr).commit)).drainBad sid 16 := by
  obtain ⟨-, -, -, -, hrefuses⟩ := id h
  unfold State.runCmd
  rw [headOf_asks h]
  dsimp only
  rw [hrefuses]
  cases wr with
  | false =>
    have hf' : f ((s.popCmd sid p).updSess sid (fun y => { y with txNext := y.txNext + 1 })) p = r := hf
    simp only [Bool.false_eq_true, if_false, hf']
    obtain ⟨hst, hnext⟩ | ⟨-, hnext, rfl⟩ := hw
    · simp only [hst, if_true, hnext, Option.isSome_some, and_self]
      rfl
    · simp only [hnext, Option.isSome_none, Bool.false_eq_true, and_false, ite_self]
      rfl
  | true =>
    have hf' : f (((s.popCmd sid p).commit).updSess sid (fun y => { y with txNext := y.txNext + 1 })) p = r := hf
    obtain ⟨hst, hnext⟩ | ⟨hwr, -⟩ := hw
    · simp only [if_true, hf', hst, hnext, Option.isSome_some, and_self]
      rfl
    · exact absurd hwr (by decide)

/-- A command whose rules leave a state. -/
theorem runCmd_done {wr : Bool} {f : State → Packet → CmdOut} {st : Status} {tl : List Tlv} (h : Asks s op sid x p) (hst : st.code < 0x10)
    (hf : f (s.askedAt sid p (s.askedLife wr)) p = { st := st, tlvs := tl, next := some v }) :
    AnsweredFrom s v (s.runCmd op wr sid f) sid x (replyOf p st 0 tl (s.askedLife wr).commit) := by
  rw [runCmd_asked h hf (.inl ⟨hst, rfl⟩)]
  exact answeredFrom_replyAt ..

/-- A command of a kind that changes nothing, whatever its status and values: the session alone changes. -/
theorem runCmd_answers {f : State → Packet → CmdOut} {st : Status} {d : Nat} {tl : List Tlv} (h : Asks s op sid x p)
    (hf : f (s.inHand sid p) p = { st := st, detail := d, tlvs := tl }) :
    Replied s (s.runCmd op false sid f) sid x (replyOf p st d tl s.life.commit)
      ∧ { s.runCmd op false sid f with comms := s.comms, out := s.out } = s ∧ ∀ n, n ≠ sid → (s.runCmd op false sid f).sess n = s.sess n := by
  rw [runCmd_asked (wr := false) h hf (.inr ⟨rfl, rfl, rfl⟩)]
  obtain ⟨hreply, hrest, hothers, -⟩ := answeredFrom_replyAt s (s.askedAt sid p s.life) sid x p (replyOf p st d tl s.life.commit)
  have hstate := congrArg (fun w : State => { w with comms := s.comms, out := s.out }) hrest
  exact ⟨hreply, hstate.trans (askedAt_rest s sid p), fun n hn => (hothers n hn).trans (askedAt_sess_ne hn s.life)⟩

end Sys2Proof.Machine
end

section
/-! RESULT_SUB, RESULT_UNSUB, EVENT_SUB, EVENT_UNSUB, NOTIFY_ACK and CLOSE (R274, R401, R418, R420, R421). -/

namespace Sys2Proof.Machine

open Sys2Proof

variable {s t v : State} {sid : Nat} {x : Session} {p : Packet}

/-! ## What a session takes -/

/-- The role of a session, the contexts whose results it takes, its mask over the trouble words and whether it takes advisories. -/
def Session.takes (y : Session) : Nat × List Nat × Option Nat × Bool := (y.role, y.results, y.events, y.advisories)

/-- What session `sid` takes, where it is open. -/
def State.takesOf (s : State) (sid : Nat) : Option (Nat × List Nat × Option Nat × Bool) := (s.sess sid).map Session.takes

theorem takesOf_of_lasting (h : t.lasting sid = v.lasting sid) : t.takesOf sid = v.takesOf sid := by
  have hmap (w : State) : w.takesOf sid = (w.lasting sid).map Session.takes := by
    rw [State.takesOf, State.lasting, Option.map_map]
    rfl
  rw [hmap, hmap, h]

theorem sess_of_takesOf {a : Nat} {b : List Nat} {c : Option Nat} {d : Bool} (h : t.takesOf sid = some (a, b, c, d)) :
    ∃ y, t.sess sid = some y ∧ y.role = a ∧ y.results = b ∧ y.events = c ∧ y.advisories = d := by
  obtain ⟨y, hy, htakes⟩ := Option.map_eq_some_iff.mp h
  simp only [Session.takes, Prod.mk.injEq] at htakes
  exact ⟨y, hy, htakes⟩

/-- A notify leaves what its session takes. -/
theorem notify_takesOf (s : State) (sid op c : Nat) (st : Status) (d : Nat) (l : List Tlv) : (s.notify sid op c st d l).takesOf sid = s.takesOf sid := by
  unfold State.notify
  split
  · rfl
  · next x hx =>
    split
    · rw [State.takesOf, State.setSess_sess_same, State.takesOf, hx]
      rfl
    · dsimp only
      rw [State.sendNotify, State.setSess_sess_same]
      dsimp only
      rw [State.takesOf, State.setSess_sess_same, State.takesOf, hx]
      rfl

/-- A command of session `sid` that sets what the session takes: the reply has the stamp of its commit, and of the state but its stamp
and what leaves the module nothing else changes. -/
theorem subscription_done {op : Nat} {f : State → Packet → CmdOut} {a : Nat} {b : List Nat} {c : Option Nat} {d : Bool} (h : Asks s op sid x p)
    (hf : f (s.taken sid p) p = { tlvs := [], next := some v }) (hrest : { v with comms := s.comms, out := s.out, life := s.life } = s)
    (hlife : v.life = s.commit.life) (hothers : ∀ n, n ≠ sid → v.sess n = s.sess n) (htakes : v.takesOf sid = some (a, b, c, d)) :
    ∃ y, Replied s (s.runCmd op true sid f) sid x (replyOf p .ok 0 [] (s.life.commit + 1))
      ∧ (s.runCmd op true sid f).sess sid = some y ∧ (y.role = a ∧ y.results = b ∧ y.events = c ∧ y.advisories = d)
      ∧ { s.runCmd op true sid f with comms := s.comms, out := s.out, life := s.life } = s
      ∧ (s.runCmd op true sid f).life.commit = s.life.commit + 1 ∧ ∀ n, n ≠ sid → (s.runCmd op true sid f).sess n = s.sess n := by
  obtain ⟨hreply, hstate, hsess, hlasting⟩ := runCmd_done (wr := true) h (by decide) hf
  obtain ⟨y, hy, hparts⟩ := sess_of_takesOf ((takesOf_of_lasting hlasting).trans htakes)
  have hcommit : (s.runCmd op true sid f).life = s.commit.life := ((congrArg State.life hstate :) : _ = v.life).trans hlife
  exact ⟨y, hreply, hy, hparts, ((congrArg (fun w : State => { w with comms := s.comms, out := s.out, life := s.life }) hstate :) : _ = _).trans hrest,
    by rw [hcommit]; rfl, fun n hn => (hsess n hn).trans (hothers n hn)⟩

/-! ## RESULT_SUB and RESULT_UNSUB, R420 -/

/-- A session that takes the results of a context. -/
def Session.withResults (y : Session) (c : Nat) : Session := { y with results := if y.results.contains c then y.results else y.results ++ [c] }

/-- The held records that a RESULT_SUB asks for. -/
def State.heldFrom (s : State) (p : Packet) : List ResultRec :=
  match p.num? 1 with
  | none => []
  | some n => s.results.filter (fun (r : ResultRec) => decide (r.ctx = p.ctx ∧ n ≤ r.resno))

/-- The state in which the session takes the results of the context that its RESULT_SUB names, told of the held ones that it asks for. -/
def State.subscribed (s : State) (sid : Nat) (p : Packet) : State :=
  (s.heldFrom p).foldl (fun w r => w.resultNotify sid r) (s.updSess sid (fun y => y.withResults p.ctx))

/-- What RESULT_SUB answers. -/
def resultSubAnswer (sid : Nat) (s : State) (p : Packet) : CmdOut :=
  match s.sess sid with
  | none => .read []
  | some x => if x.results.contains p.ctx = false ∧ 64 ≤ s.subsOf sid then .no .noResource else .done (s.subscribed sid p) []

theorem execResultSub_eq : exec (.resultSub sid) s = .next (s.runCmd 0x0502 true sid (resultSubAnswer sid)) := rfl

theorem resultSubAnswer_asked (hx : s.sess sid = some x) (l : Life) : resultSubAnswer sid (s.askedAt sid p l) p
    = if x.results.contains p.ctx = false ∧ 64 ≤ s.subsOf sid then .no .noResource else .done ((s.askedAt sid p l).subscribed sid p) [] := by
  simp only [resultSubAnswer, askedAt_sess hx, askedAt_subsOf hx]
  rfl

/-- What no RESULT notify to the session touches is as the subscription leaves it. -/
theorem subscribed_part {α : Type} (g : State → α) (hg : ∀ w r, g (State.resultNotify w sid r) = g w) :
    g (s.subscribed sid p) = g (s.updSess sid (fun y => y.withResults p.ctx)) :=
  foldl_part g hg _ _

theorem resultNotify_eq (s : State) (sid : Nat) (r : ResultRec) : ∃ co ou, s.resultNotify sid r = { s with comms := co, out := s.out ++ ou } :=
  notify_eq ..

theorem subscribed_life : (s.subscribed sid p).life = s.life := by
  refine (subscribed_part State.life fun w r => ?_).trans rfl
  obtain ⟨co, ou, h⟩ := resultNotify_eq w sid r
  rw [h]

theorem subscribed_rest : { (s.taken sid p).subscribed sid p with comms := s.comms, out := s.out, life := s.life } = s := by
  refine (subscribed_part (fun w : State => { w with comms := s.comms, out := s.out, life := s.life }) fun w r => ?_).trans rfl
  obtain ⟨co, ou, h⟩ := resultNotify_eq w sid r
  rw [h]

theorem subscribed_sess_ne {n : Nat} (hn : n ≠ sid) : (s.subscribed sid p).sess n = s.sess n :=
  (subscribed_part (·.sess n) fun _ _ => notify_sess_ne _ _ _ _ _ hn).trans (State.updSess_sess_ne _ _ _ _ hn.symm)

theorem subscribed_takesOf (hx : s.sess sid = some x) : (s.subscribed sid p).takesOf sid
    = some (x.role, if x.results.contains p.ctx then x.results else x.results ++ [p.ctx], x.events, x.advisories) := by
  refine (subscribed_part (·.takesOf sid) fun w r => notify_takesOf w sid ..).trans ?_
  rw [State.takesOf, State.updSess_sess_same, hx]
  rfl

theorem execResultSub_adds (h : Asks s 0x0502 sid x p) (hroom : x.results.contains p.ctx = true ∨ s.subsOf sid < 64) :
    ∃ t y, exec (.resultSub sid) s = .next t ∧ Replied s t sid x (replyOf p .ok 0 [] (s.life.commit + 1))
      ∧ t.sess sid = some y ∧ y.results = (if x.results.contains p.ctx then x.results else x.results ++ [p.ctx]) ∧ y.role = x.role
      ∧ { t with comms := s.comms, out := s.out, life := s.life } = s ∧ t.life.commit = s.life.commit + 1 ∧ ∀ n, n ≠ sid → t.sess n = s.sess n := by
  obtain ⟨-, hx, -⟩ := id h
  have hfits : ¬ (x.results.contains p.ctx = false ∧ 64 ≤ s.subsOf sid) := by
    rintro ⟨hnew, hfull⟩
    obtain hheld | hfree := hroom
    · exact absurd (hheld.symm.trans hnew) (by decide)
    · exact absurd hfull (Nat.not_le.mpr hfree)
  have hanswer := (resultSubAnswer_asked (p := p) hx s.commit.life).trans (if_neg hfits)
  obtain ⟨y, hreply, hy, ⟨hrole, hresults, -⟩, hstate, hcommit, hsame⟩ := subscription_done h hanswer subscribed_rest subscribed_life
    (fun n hn => (subscribed_sess_ne hn).trans (askedAt_sess_ne hn s.commit.life)) (subscribed_takesOf (askedAt_sess hx s.commit.life))
  exact ⟨_, y, execResultSub_eq, hreply, hy, hresults, hrole, hstate, hcommit, hsame⟩

theorem execResultSub_full (h : Asks s 0x0502 sid x p) (hnew : x.results.contains p.ctx = false) (hfull : 64 ≤ s.subsOf sid) :
    ∃ t, exec (.resultSub sid) s = .next t ∧ Refused s t sid x p .noResource 0 := by
  obtain ⟨-, hx, -⟩ := id h
  exact ⟨_, execResultSub_eq, refused_of_asked h (by decide) fun l => (resultSubAnswer_asked hx l).trans (if_pos ⟨hnew, hfull⟩)⟩

/-- A command that changes what its session takes and nothing besides. -/
theorem execSubscription_updates {op : Nat} {f : State → Packet → CmdOut} {g : Session → Session} {a : Nat} {b : List Nat} {c : Option Nat} {d : Bool}
    (h : Asks s op sid x p) (hf : f (s.taken sid p) p = { tlvs := [], next := some ((s.taken sid p).updSess sid g) })
    (hg : (g (x.handed p)).takes = (a, b, c, d)) :
    ∃ y, Replied s (s.runCmd op true sid f) sid x (replyOf p .ok 0 [] (s.life.commit + 1))
      ∧ (s.runCmd op true sid f).sess sid = some y ∧ (y.role = a ∧ y.results = b ∧ y.events = c ∧ y.advisories = d)
      ∧ { s.runCmd op true sid f with comms := s.comms, out := s.out, life := s.life } = s
      ∧ (s.runCmd op true sid f).life.commit = s.life.commit + 1 ∧ ∀ n, n ≠ sid → (s.runCmd op true sid f).sess n = s.sess n := by
  obtain ⟨-, hx, -⟩ := id h
  refine subscription_done h hf rfl rfl (fun n hn => ?_) ?_
  · exact (State.updSess_sess_ne _ _ _ _ hn.symm).trans (askedAt_sess_ne hn s.commit.life)
  · have hsess : (s.taken sid p).sess sid = some (x.handed p) := askedAt_sess hx s.commit.life
    rw [State.takesOf, State.updSess_sess_same, hsess]
    exact congrArg some hg

theorem execResultUnsub_removes (h : Asks s 0x0503 sid x p) :
    ∃ t y, exec (.resultUnsub sid) s = .next t ∧ Replied s t sid x (replyOf p .ok 0 [] (s.life.commit + 1))
      ∧ t.sess sid = some y ∧ y.results = x.results.filter (· ≠ p.ctx) ∧ y.events = x.events
      ∧ { t with comms := s.comms, out := s.out, life := s.life } = s ∧ t.life.commit = s.life.commit + 1 ∧ ∀ n, n ≠ sid → t.sess n = s.sess n := by
  obtain ⟨y, hreply, hy, ⟨-, hresults, hevents, -⟩, hstate, hcommit, hsame⟩ := execSubscription_updates
    (f := fun s p => .done (s.updSess sid (fun y => { y with results := y.results.filter (· ≠ p.ctx) })) []) h rfl rfl
  exact ⟨_, y, rfl, hreply, hy, hresults, hevents, hstate, hcommit, hsame⟩

/-! ## EVENT_SUB and EVENT_UNSUB, R274, R418 -/

/-- What EVENT_SUB answers. -/
def eventSubAnswer (sid : Nat) (s : State) (p : Packet) : CmdOut :=
  match s.sess sid with
  | none => .read []
  | some x =>
    if p.num 1 &&& maskBits ≠ p.num 1 then .bad p 1
    else if 1 < p.num 2 then .bad p 2
    else if x.events = none ∧ 64 ≤ s.subsOf sid then .no .noResource
    else .done (s.updSess sid (fun x => { x with events := some (p.num 1), advisories := p.num 2 == 1 })) []

theorem execEventSub_eq : exec (.eventSub sid) s = .next (s.runCmd 0x0505 true sid (eventSubAnswer sid)) := rfl

theorem eventSubAnswer_asked (hx : s.sess sid = some x) (l : Life) : eventSubAnswer sid (s.askedAt sid p l) p
    = if p.num 1 &&& maskBits ≠ p.num 1 then .bad p 1
      else if 1 < p.num 2 then .bad p 2
      else if x.events = none ∧ 64 ≤ s.subsOf sid then .no .noResource
      else .done ((s.askedAt sid p l).updSess sid (fun x => { x with events := some (p.num 1), advisories := p.num 2 == 1 })) [] := by
  simp only [eventSubAnswer, askedAt_sess hx, askedAt_subsOf hx]
  rfl

theorem execEventSub_sets (h : Asks s 0x0505 sid x p) (hmask : p.num 1 &&& maskBits = p.num 1) (hflag : p.num 2 ≤ 1)
    (hroom : x.events.isSome = true ∨ s.subsOf sid < 64) :
    ∃ t y, exec (.eventSub sid) s = .next t ∧ Replied s t sid x (replyOf p .ok 0 [] (s.life.commit + 1))
      ∧ t.sess sid = some y ∧ y.events = some (p.num 1) ∧ y.advisories = decide (p.num 2 = 1) ∧ y.results = x.results
      ∧ { t with comms := s.comms, out := s.out, life := s.life } = s ∧ t.life.commit = s.life.commit + 1 ∧ ∀ n, n ≠ sid → t.sess n = s.sess n := by
  obtain ⟨-, hx, -⟩ := id h
  have hfits : ¬ (x.events = none ∧ 64 ≤ s.subsOf sid) := by
    rintro ⟨hnone, hfull⟩
    obtain hsome | hfree := hroom
    · exact absurd hsome (by simp [hnone])
    · exact absurd hfull (Nat.not_le.mpr hfree)
  have hanswer := eventSubAnswer_asked (p := p) hx s.commit.life
  rw [if_neg (not_not.mpr hmask), if_neg (Nat.not_lt.mpr hflag), if_neg hfits] at hanswer
  obtain ⟨y, hreply, hy, ⟨-, hresults, hevents, hadvisories⟩, hstate, hcommit, hsame⟩ := execSubscription_updates h hanswer rfl
  exact ⟨_, y, execEventSub_eq, hreply, hy, hevents, hadvisories, hresults, hstate, hcommit, hsame⟩

theorem execEventSub_mask (h : Asks s 0x0505 sid x p) (hmask : p.num 1 &&& maskBits ≠ p.num 1) :
    ∃ t, exec (.eventSub sid) s = .next t ∧ Refused s t sid x p .badParam (p.off 1) := by
  obtain ⟨-, hx, -⟩ := id h
  exact ⟨_, execEventSub_eq, refused_of_asked h (by decide) fun l => (eventSubAnswer_asked hx l).trans (if_pos hmask)⟩

theorem execEventSub_flag (h : Asks s 0x0505 sid x p) (hmask : p.num 1 &&& maskBits = p.num 1) (hflag : 1 < p.num 2) :
    ∃ t, exec (.eventSub sid) s = .next t ∧ Refused s t sid x p .badParam (p.off 2) := by
  obtain ⟨-, hx, -⟩ := id h
  exact ⟨_, execEventSub_eq, refused_of_asked h (by decide) fun l =>
    (eventSubAnswer_asked hx l).trans ((if_neg (not_not.mpr hmask)).trans (if_pos hflag))⟩

theorem execEventSub_full (h : Asks s 0x0505 sid x p) (hmask : p.num 1 &&& maskBits = p.num 1) (hflag : p.num 2 ≤ 1) (hnone : x.events = none)
    (hfull : 64 ≤ s.subsOf sid) : ∃ t, exec (.eventSub sid) s = .next t ∧ Refused s t sid x p .noResource 0 := by
  obtain ⟨-, hx, -⟩ := id h
  exact ⟨_, execEventSub_eq, refused_of_asked h (by decide) fun l => (eventSubAnswer_asked hx l).trans
    ((if_neg (not_not.mpr hmask)).trans ((if_neg (Nat.not_lt.mpr hflag)).trans (if_pos ⟨hnone, hfull⟩)))⟩

theorem execEventUnsub_clears (h : Asks s 0x0506 sid x p) :
    ∃ t y, exec (.eventUnsub sid) s = .next t ∧ Replied s t sid x (replyOf p .ok 0 [] (s.life.commit + 1)) ∧ t.sess sid = some y ∧ y.events = none
      ∧ y.advisories = false ∧ y.results = x.results ∧ { t with comms := s.comms, out := s.out, life := s.life } = s
      ∧ t.life.commit = s.life.commit + 1 ∧ ∀ n, n ≠ sid → t.sess n = s.sess n := by
  obtain ⟨y, hreply, hy, ⟨-, hresults, hevents, hadvisories⟩, hstate, hcommit, hsame⟩ := execSubscription_updates
    (f := fun s _ => .done (s.updSess sid (fun y => { y with events := none, advisories := false })) []) h rfl rfl
  exact ⟨_, y, rfl, hreply, hy, hevents, hadvisories, hresults, hstate, hcommit, hsame⟩

/-! ## NOTIFY_ACK, R421 -/

/-- A session whose notifies up to a number are acknowledged. -/
def Session.acked (y : Session) (nseq : Nat) : Session :=
  { y with notifies := y.notifies.filter (fun n => decide ((2 ^ 31 : Nat) ≤ (nseq + 2 ^ 32 - n.nseq) % 2 ^ 32)) }

theorem execNotifyAck_removes (h : Asks s 0x0006 sid x p) :
    ∃ t y, exec (.notifyAck sid) s = .next t ∧ Replied s t sid x (replyOf p .ok 0 [] s.life.commit) ∧ t.sess sid = some y
      ∧ y.notifies = x.notifies.filter (fun n => decide ((2 ^ 31 : Nat) ≤ (p.num 1 + 2 ^ 32 - n.nseq) % 2 ^ 32))
      ∧ { t with comms := s.comms, out := s.out } = s ∧ ∀ n, n ≠ sid → t.sess n = s.sess n := by
  obtain ⟨-, hx, -⟩ := id h
  obtain ⟨hreply, hstate, hsess, hlasting⟩ := runCmd_done (wr := false) (v := (s.askedAt sid p s.life).updSess sid (fun y => y.acked (p.num 1)))
    (f := fun s p => .done (s.updSess sid (fun y => y.acked (p.num 1))) []) h (by decide) rfl
  rw [State.lasting, State.lasting, State.updSess_sess_same, askedAt_sess hx] at hlasting
  obtain ⟨y, hy, hkept⟩ := Option.map_eq_some_iff.mp hlasting
  have hrest := congrArg (fun w : State => { w with comms := s.comms, out := s.out }) hstate
  refine ⟨_, y, rfl, hreply, hy, (congrArg Session.notifies hkept :), hrest.trans ?_, fun n hn => (hsess n hn).trans ?_⟩
  · rw [State.updSess, State.setSess]
    exact askedAt_rest s sid p
  · exact (State.updSess_sess_ne _ _ _ _ hn.symm).trans (askedAt_sess_ne hn s.life)

/-! ## CLOSE, R401 -/

theorem each_updCounter_thresholds (f : List Threshold → List Threshold) (hf : ∀ l, f (f l) = f l) (l : List Nat) (s : State) (k : Nat) :
    ((s.each l (fun v p => v.updCounter p (fun c => { c with thresholds := f c.thresholds }))).counter k).thresholds
      = if k ∈ l then f (s.counter k).thresholds else (s.counter k).thresholds := by
  induction l generalizing s with
  | nil => rfl
  | cons n ns ih =>
    rw [State.each, ih]
    by_cases hk : n = k
    · subst hk
      simp [hf]
    · rw [State.updCounter_counter_ne _ _ _ _ hk]
      simp [Ne.symm hk]

/-- No counter has a threshold of a session whose thresholds are dropped. -/
theorem dropThresholds_sid (s : State) (sid k : Nat) {th : Threshold} (hth : th ∈ ((s.dropThresholds sid).counter k).thresholds) : th.sid ≠ sid := by
  have hdrop : ((s.dropThresholds sid).counter k).thresholds = if k ∈ s.sync.counters.map Prod.fst
      then (s.counter k).thresholds.filter (fun t => t.sid ≠ sid) else (s.counter k).thresholds :=
    each_updCounter_thresholds (List.filter (fun t => t.sid ≠ sid)) (by simp) (s.sync.counters.map Prod.fst) s k
  rw [hdrop] at hth
  split at hth
  · simpa using (List.mem_filter.mp hth).2
  · next hout =>
    have hfree : s.counter k = {} := by
      by_contra hne
      exact hout (List.mem_map.mpr ⟨_, mem_of_get_ne hne, rfl⟩)
    rw [hfree] at hth
    exact absurd hth (by simp)

theorem endSession_sid (s : State) {sid : Nat} (cause k : Nat) (hx : s.sess sid = some x) {th : Threshold}
    (hth : th ∈ ((s.endSession sid cause).counter k).thresholds) : th.sid ≠ sid := by
  unfold State.endSession at hth
  rw [hx] at hth
  exact dropThresholds_sid _ sid k hth

theorem execClose_ends (h : Asks s 0x0005 sid x p) :
    ∃ t, exec (.close sid) s = .next t ∧ Replied s t sid x (replyOf p .ok 0 [] (s.life.commit + 1)) ∧ t.sess sid = none
      ∧ (∀ n, n ≠ sid → t.sess n = s.sess n) ∧ (∀ k th, th ∈ (t.counter k).thresholds → th.sid ≠ sid)
      ∧ { t with comms := s.comms, out := s.out, life := s.life, sync := s.sync, ckpt := s.ckpt, ctxs := s.ctxs, img := s.img, upk := s.upk } = s := by
  obtain ⟨-, hx, -⟩ := id h
  have htaken : (s.taken sid p).sess sid = some (x.handed p) := askedAt_sess hx s.commit.life
  obtain ⟨hnone, hothers, hrest⟩ := endSession_ends (s.taken sid p) sid 1
  obtain ⟨hreply, hstate, hsess, hlasting⟩ := runCmd_done (wr := true) (v := (s.taken sid p).endSession sid 1)
    (f := fun s _ => .done (s.endSession sid 1) []) h (by decide) rfl
  rw [State.lasting, State.lasting, hnone] at hlasting
  refine ⟨_, rfl, hreply, by simpa using hlasting, fun n hn => ((hsess n hn).trans (hothers n hn)).trans (askedAt_sess_ne hn s.commit.life),
    fun k th hth => endSession_sid (s.taken sid p) 1 k htaken ?_, ?_⟩
  · rwa [← (congrArg (fun w : State => w.counter k) hstate :)]
  · exact ((congrArg (fun w : State => { w with
      comms := s.comms, out := s.out, life := s.life, sync := s.sync, ckpt := s.ckpt, ctxs := s.ctxs, img := s.img, upk := s.upk }) hstate :) : _ = _).trans
      (congrArg (fun w : State => { w with
        comms := s.comms, out := s.out, life := s.life, sync := s.sync, ckpt := s.ckpt, ctxs := s.ctxs, img := s.img, upk := s.upk }) hrest :)

/-! ## The obligation -/

/-- Settles O27: each command by the session that its rules leave; what lasts of a session passes its reply unchanged. -/
theorem subscriptionCommandsTakeEffect : Obligations.SubscriptionCommandsTakeEffect := by
  unfold Obligations.SubscriptionCommandsTakeEffect
  exact ⟨fun s sid x p h => ⟨fun hroom => execResultSub_adds h hroom, fun hnew hfull => execResultSub_full h hnew hfull⟩,
    fun s sid x p h => execResultUnsub_removes h,
    fun s sid x p h => ⟨fun hmask hflag hroom => execEventSub_sets h hmask hflag hroom, fun hmask => execEventSub_mask h hmask,
      fun hmask hflag => execEventSub_flag h hmask hflag, fun hmask hflag hnone hfull => execEventSub_full h hmask hflag hnone hfull⟩,
    fun s sid x p h => execEventUnsub_clears h, fun s sid x p h => execNotifyAck_removes h, fun s sid x p h => execClose_ends h⟩

end Sys2Proof.Machine
end

section
/-! RESULT_READ, ADVISORY_READ, CTR_READ, CTR_LIST, TROUBLE_READ, LOG_READ, ATTEST, IDENTITY_READ, ANCHOR_READ, OPTION_READ, SESSION_INFO
and KEEPALIVE (R261, R281, R404, R412, R418, R425, R461, R502, R506). -/

namespace Sys2Proof.Machine

open Sys2Proof

variable {s : State} {op sid : Nat} {x : Session} {p : Packet} {f : State → Packet → CmdOut}

/-! ## Commands that change nothing -/

/-- A command of a kind that changes nothing, answered with values. -/
theorem readDone_of_inHand {vs : List (List Byte)} (h : Asks s op sid x p) (hf : f (s.inHand sid p) p = .read vs) :
    ReadDone s (s.runCmd op false sid f) sid x p vs := runCmd_read false f vs h hf (by simp)

/-- A command of a kind that changes nothing, which its own rules refuse. -/
theorem refused_of_inHand {st : Status} {d : Nat} (h : Asks s op sid x p) (hst : ¬ st.code < 0x10) (hf : f (s.inHand sid p) p = { st := st, detail := d }) :
    Refused s (s.runCmd op false sid f) sid x p st d := runCmd_refused false f st d h hst hf (by simp)

/-! ## RESULT_READ, R412 -/

/-- The record that a RESULT_READ names, where it is held. -/
def State.resultAsked (s : State) (p : Packet) : Option ResultRec := s.results.find? (fun r => decide (r.ctx = p.ctx ∧ r.resno = p.num 1))

/-- The TLVs that name the oldest and the newest record held of a context. -/
def State.rangeTlvs (s : State) (c : Nat) : List Tlv := [(2, be 8 (s.heldRange c).1), (3, be 8 (s.heldRange c).2)]

/-- What RESULT_READ answers. -/
def resultReadAnswer (sid : Nat) (s : State) (p : Packet) : CmdOut :=
  match s.resultAsked p with
  | none => { st := .badParam, detail := p.off 1, tlvs := s.rangeTlvs p.ctx }
  | some r =>
    if r.len ≤ p.num 2 then { st := .badParam, detail := p.off 2, tlvs := s.rangeTlvs p.ctx }
    else { st := r.status, tlvs := (1, (r.bytes.drop (p.num 2)).take (s.room sid 24)) :: s.rangeTlvs p.ctx }

theorem execResultRead_eq : exec (.resultRead sid) s = .next (s.runCmd 0x0501 false sid (resultReadAnswer sid)) := rfl

theorem resultReadAnswer_inHand : resultReadAnswer sid (s.inHand sid p) p = resultReadAnswer sid s p := by
  simp only [resultReadAnswer, inHand_room]
  rfl

theorem execResultRead_held (h : Asks s 0x0501 sid x p) {r : ResultRec} (hheld : s.resultAsked p = some r) (hoff : p.num 2 < r.len) :
    ∃ t, exec (.resultRead sid) s = .next t
      ∧ Replied s t sid x (replyOf p r.status 0 ((1, (r.bytes.drop (p.num 2)).take (s.room sid 24)) :: s.rangeTlvs p.ctx) s.life.commit)
      ∧ { t with comms := s.comms, out := s.out } = s ∧ ∀ n, n ≠ sid → t.sess n = s.sess n := by
  have hanswer : resultReadAnswer sid s p = { st := r.status, tlvs := (1, (r.bytes.drop (p.num 2)).take (s.room sid 24)) :: s.rangeTlvs p.ctx } := by
    simp only [resultReadAnswer, hheld, if_neg (Nat.not_le.mpr hoff)]
  exact ⟨_, execResultRead_eq, runCmd_answers h (resultReadAnswer_inHand.trans hanswer)⟩

theorem execResultRead_beyond (h : Asks s 0x0501 sid x p) {r : ResultRec} (hheld : s.resultAsked p = some r) (hoff : r.len ≤ p.num 2) :
    ∃ t, exec (.resultRead sid) s = .next t ∧ Replied s t sid x (replyOf p .badParam (p.off 2) (s.rangeTlvs p.ctx) s.life.commit)
      ∧ { t with comms := s.comms, out := s.out } = s := by
  have hanswer : resultReadAnswer sid s p = { st := .badParam, detail := p.off 2, tlvs := s.rangeTlvs p.ctx } := by
    simp only [resultReadAnswer, hheld, if_pos hoff]
  obtain ⟨hreply, hrest, -⟩ := runCmd_answers h (resultReadAnswer_inHand.trans hanswer)
  exact ⟨_, execResultRead_eq, hreply, hrest⟩

theorem execResultRead_missing (h : Asks s 0x0501 sid x p) (hmissing : s.resultAsked p = none) :
    ∃ t, exec (.resultRead sid) s = .next t ∧ Replied s t sid x (replyOf p .badParam (p.off 1) (s.rangeTlvs p.ctx) s.life.commit)
      ∧ { t with comms := s.comms, out := s.out } = s := by
  have hanswer : resultReadAnswer sid s p = { st := .badParam, detail := p.off 1, tlvs := s.rangeTlvs p.ctx } := by
    simp only [resultReadAnswer, hmissing]
  obtain ⟨hreply, hrest, -⟩ := runCmd_answers h (resultReadAnswer_inHand.trans hanswer)
  exact ⟨_, execResultRead_eq, hreply, hrest⟩

/-! ## CTR_READ, R261, R281 -/

/-- What CTR_READ answers to a local id. -/
def ctrReadLocal (s : State) (p : Packet) (id : Nat) : CmdOut :=
  if 63 < p.ctx then { st := .badParam }
  else if 4095 < id then .bad p 1
  else match s.exportOf p.ctx id with
    | none => .no .notPermitted
    | some k => .read [be 32 (s.inspect k)]

/-- What CTR_READ answers to the number of a physical counter. -/
def ctrReadPhysical (sid : Nat) (s : State) (p : Packet) (k : Nat) : CmdOut :=
  if ((s.sess sid).map (fun (y : Session) => y.role)).getD 0 < 3 then .no .notPermitted
  else if p.ctx ≠ 0xFFFF then { st := .badParam }
  else if 16383 < k then .bad p 2
  else .read [be 32 (s.inspect k)]

/-- What CTR_READ answers. -/
def ctrReadAnswer (sid : Nat) (s : State) (p : Packet) : CmdOut :=
  match p.num? 1, p.num? 2 with
  | some id, none => ctrReadLocal s p id
  | none, some k => ctrReadPhysical sid s p k
  | some _, some _ => .bad p 2
  | none, none => { st := .badParam, detail := p.plen }

theorem execCtrRead_eq : exec (.ctrRead sid) s = .next (s.runCmd 0x0602 false sid (ctrReadAnswer sid)) := rfl

section
variable {id : Nat} (h1 : p.num? 1 = some id) (h2 : p.num? 2 = none) (hctx : p.ctx ≤ 63)
include h1 h2 hctx

theorem ctrReadAnswer_inHand_local (hid : id ≤ 4095) : ctrReadAnswer sid (s.inHand sid p) p
    = match s.exportOf p.ctx id with
      | none => .no .notPermitted
      | some k => .read [be 32 (s.inspect k)] := by
  simp only [ctrReadAnswer, h1, h2, ctrReadLocal, if_neg (Nat.not_lt.mpr hctx), if_neg (Nat.not_lt.mpr hid)]
  rfl

theorem execCtrRead_exported (h : Asks s 0x0602 sid x p) (hid : id ≤ 4095) {k : Nat} (hbound : s.physOf p.ctx id = some k)
    (hexp : s.exported p.ctx id = true) : ∃ t, exec (.ctrRead sid) s = .next t ∧ ReadDone s t sid x p [be 32 (s.inspect k)] := by
  have hexport : s.exportOf p.ctx id = some k := by simp [State.exportOf, hbound, hexp]
  refine ⟨_, execCtrRead_eq, readDone_of_inHand h ?_⟩
  rw [ctrReadAnswer_inHand_local h1 h2 hctx hid, hexport]

theorem execCtrRead_private (h : Asks s 0x0602 sid x p) (hid : id ≤ 4095) (hprivate : s.physOf p.ctx id = none ∨ s.exported p.ctx id = false) :
    ∃ t, exec (.ctrRead sid) s = .next t ∧ Refused s t sid x p .notPermitted 0 := by
  have hexport : s.exportOf p.ctx id = none := by
    unfold State.exportOf
    obtain hfree | hexp := hprivate
    · rw [hfree]
    · split
      · rfl
      · simp [hexp]
  refine ⟨_, execCtrRead_eq, refused_of_inHand h (by decide) ?_⟩
  rw [ctrReadAnswer_inHand_local h1 h2 hctx hid, hexport]
  rfl

theorem execCtrRead_beyond (h : Asks s 0x0602 sid x p) (hid : 4095 < id) :
    ∃ t, exec (.ctrRead sid) s = .next t ∧ Refused s t sid x p .badParam (p.off 1) := by
  refine ⟨_, execCtrRead_eq, refused_of_inHand h (by decide) ?_⟩
  simp only [ctrReadAnswer, h1, h2, ctrReadLocal, if_neg (Nat.not_lt.mpr hctx), if_pos hid]
  rfl

end

section
variable {k : Nat} (h : Asks s 0x0602 sid x p) (h1 : p.num? 1 = none) (h2 : p.num? 2 = some k) (hrole : x.role = 3) (hctx : p.ctx = 0xFFFF)
include h h1 h2 hrole hctx

theorem ctrReadAnswer_inHand_physical : ctrReadAnswer sid (s.inHand sid p) p = if 16383 < k then .bad p 2 else .read [be 32 (s.inspect k)] := by
  obtain ⟨-, hx, -⟩ := h
  have hservice : ¬ (((s.inHand sid p).sess sid).map (fun (y : Session) => y.role)).getD 0 < 3 := by
    rw [inHand_eq_askedAt, askedAt_sess hx]
    exact Nat.not_lt.mpr hrole.ge
  simp only [ctrReadAnswer, h1, h2, ctrReadPhysical, if_neg hservice, if_neg (not_not.mpr hctx)]
  rfl

theorem execCtrRead_physical (hk : k ≤ 16383) : ∃ t, exec (.ctrRead sid) s = .next t ∧ ReadDone s t sid x p [be 32 (s.inspect k)] :=
  ⟨_, execCtrRead_eq, readDone_of_inHand h ((ctrReadAnswer_inHand_physical h h1 h2 hrole hctx).trans (if_neg (Nat.not_lt.mpr hk)))⟩

theorem execCtrRead_no_physical (hk : 16383 < k) : ∃ t, exec (.ctrRead sid) s = .next t ∧ Refused s t sid x p .badParam (p.off 2) :=
  ⟨_, execCtrRead_eq, refused_of_inHand h (by decide) ((ctrReadAnswer_inHand_physical h h1 h2 hrole hctx).trans (if_pos hk))⟩

end

/-! ## Lists, logs, trust and the session -/

theorem execCtrList_answers (h : Asks s 0x0607 sid x p) : ∃ t, exec (.ctrList sid) s = .next t ∧ ReadDone s t sid x p
    [(((s.sync.exports.filter (fun e => decide (e.1 / 4096 = p.ctx))).map (fun e => e.1 % 4096)).flatMap (be 2)).take (s.room sid 0)] := by
  refine ⟨_, rfl, readDone_of_inHand h ?_⟩
  simp only [inHand_room]
  rfl

theorem execLogRead_answers (h : Asks s 0x0903 sid x p) : ∃ t rs, exec (.logRead sid) s = .next t
    ∧ rs = (s.logs.all.filter (fun r => decide (p.num 1 ≤ r.lseq))).take (min ((p.num? 2).getD (s.room sid 24 / 64)) (s.room sid 24 / 64))
    ∧ ReadDone s t sid x p [rs.flatMap LogRec.bytes, be 8 (match rs.getLast? with | some r => r.lseq + 1 | none => max (p.num 1) s.logs.oldest), be 8 s.logs.oldest] := by
  refine ⟨_, _, rfl, rfl, readDone_of_inHand h ?_⟩
  simp only [inHand_room]
  rfl

theorem execAttest_answers (h : Asks s 0x0B01 sid x p) :
    ∃ t, exec (.attest sid) s = .next t ∧ ReadDone s t sid x p [(s.attestReport ((p.val 1).getD [])).take (s.room sid 0)] := by
  refine ⟨_, rfl, readDone_of_inHand h ?_⟩
  simp only [inHand_room]
  rfl

theorem execIdentityRead_answers (h : Asks s 0x0B02 sid x p) (hoff : p.num 1 ≤ Config.identityChain.length) :
    ∃ t, exec (.identityRead sid) s = .next t
      ∧ ReadDone s t sid x p [(Config.identityChain.drop (p.num 1)).take (s.room sid 8), be 4 Config.identityChain.length] := by
  refine ⟨_, rfl, readDone_of_inHand h ((if_neg (Nat.not_lt.mpr hoff)).trans ?_)⟩
  simp only [inHand_room]

theorem execIdentityRead_beyond (h : Asks s 0x0B02 sid x p) (hoff : Config.identityChain.length < p.num 1) :
    ∃ t, exec (.identityRead sid) s = .next t ∧ Refused s t sid x p .badParam (p.off 1) :=
  ⟨_, rfl, refused_of_inHand h (by decide) (if_pos hoff)⟩

theorem execAnchorRead_answers (h : Asks s 0x0B03 sid x p) :
    ∃ t, exec (.anchorRead sid) s = .next t ∧ ReadDone s t sid x p [(s.trust.anchors.flatMap Anchor.entry).take (s.room sid 0)] := by
  refine ⟨_, rfl, readDone_of_inHand h ?_⟩
  simp only [inHand_room]
  rfl

/-- SESSION_INFO gives the number after its own: the command has left the ring. -/
theorem execSessionInfo_answers (h : Asks s 0x0008 sid x p) : ∃ t, exec (.sessionInfo sid) s = .next t
    ∧ ReadDone s t sid x p [be 2 sid, be 1 x.role, be 4 ((x.nextSeq + 1) % 2 ^ 32), be 2 x.notifies.length, be 4 x.nlost] := by
  obtain ⟨-, hx, -⟩ := id h
  refine ⟨_, rfl, readDone_of_inHand h ?_⟩
  rw [inHand_eq_askedAt]
  simp only [askedAt_sess hx]
  rfl

/-! ## The obligation -/

/-- Settles O22: each read by what it answers of the state; what it reads of its own session is that session with the command in hand. -/
theorem readsOfResultsCountersLogTrustAnswer : Obligations.ReadsOfResultsCountersLogTrustAnswer := by
  unfold Obligations.ReadsOfResultsCountersLogTrustAnswer
  intro s sid x p
  refine ⟨fun h => ⟨fun r hheld hoff => execResultRead_held h hheld hoff, fun r hheld hoff => execResultRead_beyond h hheld hoff,
      fun hmissing => execResultRead_missing h hmissing⟩,
    fun h => ⟨_, rfl, readDone_of_inHand h rfl⟩,
    fun h => ⟨fun id h1 h2 hctx hid => ⟨fun k hbound hexp => execCtrRead_exported h1 h2 hctx h hid hbound hexp,
        fun hprivate => execCtrRead_private h1 h2 hctx h hid hprivate⟩,
      fun id h1 h2 hctx hid => execCtrRead_beyond h1 h2 hctx h hid,
      fun k h1 h2 hrole hctx => ⟨fun hk => execCtrRead_physical h h1 h2 hrole hctx hk, fun hk => execCtrRead_no_physical h h1 h2 hrole hctx hk⟩⟩,
    fun h => execCtrList_answers h, fun h => ⟨_, rfl, readDone_of_inHand h rfl⟩, fun h => execLogRead_answers h, fun h => execAttest_answers h,
    fun h => ⟨fun hoff => execIdentityRead_answers h hoff, fun hoff => execIdentityRead_beyond h hoff⟩,
    fun h => execAnchorRead_answers h, fun h => ⟨_, rfl, readDone_of_inHand h rfl⟩, fun h => execSessionInfo_answers h,
    fun h => ⟨_, rfl, readDone_of_inHand h rfl⟩⟩

end Sys2Proof.Machine
end

section
/-! CTR_SIGNAL, CTR_SUB and CTR_UNSUB (R257, R261, R274, R281, R420). -/

namespace Sys2Proof.Machine

open Sys2Proof

variable {s : State} {sid : Nat} {x : Session} {p : Packet}

/-! ## CTR_SIGNAL, R261 -/

/-- What CTR_SIGNAL answers. -/
def ctrSignalAnswer (sid : Nat) (s : State) (p : Packet) : CmdOut :=
  if 4095 < p.num 1 then .bad p 1
  else if p.num 2 = 0 then { st := .badParam, detail := p.off 2, next := some (s.misuse (s.physOf p.ctx (p.num 1)) p.ctx) }
  else match s.exportOf p.ctx (p.num 1) with
    | none => { st := .notPermitted, next := some (s.misuse (s.physOf p.ctx (p.num 1)) p.ctx) }
    | some k =>
      if (s.counter k).orphaned then { st := .orphaned, next := some (s.misuse (some k) p.ctx) }
      else .done (s.signalAt k (sessionId sid) (p.num 2)) []

theorem execCtrSignal_eq : exec (.ctrSignal sid) s = .next (s.runCmd 0x0601 true sid (ctrSignalAnswer sid)) := rfl

/-- A command that is refused as misuse: the counter that it names, where it names one, is marked, and the MISUSE bit is set. -/
theorem misuse_refused {op : Nat} {f : State → Packet → CmdOut} {st : Status} {d : Nat} {q : Option Nat} (h : Asks s op sid x p) (hst : ¬ st.code < 0x10)
    (hf : ∀ l, f (s.askedAt sid p l) p = { st := st, detail := d, next := some ((s.askedAt sid p l).misuse q p.ctx) }) :
    Replied s (s.runCmd op true sid f) sid x (replyOf p st d [] s.life.commit)
      ∧ ((s.runCmd op true sid f).logs.word 2).getLsbD 1 = true
      ∧ (∀ k, q = some k → ((s.runCmd op true sid f).counter k).misuse = true)
      ∧ ∀ j, ((s.runCmd op true sid f).counter j).value = (s.counter j).value := by
  obtain ⟨hreply, hstate, -⟩ := runCmd_refused_next h hst (hf s.life) (congrArg CmdOut.st (hf s.commit.life))
  have hlogs : (s.runCmd op true sid f).logs = ((s.askedAt sid p s.life).misuse q p.ctx).logs := (congrArg State.logs hstate :)
  have hcounter (j : Nat) : (s.runCmd op true sid f).counter j = ((s.askedAt sid p s.life).misuse q p.ctx).counter j :=
    (congrArg (fun w : State => w.counter j) hstate :)
  refine ⟨hreply, by rw [hlogs]; exact misuse_bit .., fun k hk => ?_, fun j => ?_⟩
  · rw [hcounter, hk]
    exact misuse_marks ..
  · rw [hcounter]
    exact (misuse_counter (s.askedAt sid p s.life) q p.ctx j).1

theorem ctrSignalAnswer_asked (hid : p.num 1 ≤ 4095) (hdelta : p.num 2 ≠ 0) (l : Life) : ctrSignalAnswer sid (s.askedAt sid p l) p = match s.exportOf p.ctx (p.num 1) with
    | none => { st := .notPermitted, next := some ((s.askedAt sid p l).misuse (s.physOf p.ctx (p.num 1)) p.ctx) }
    | some k =>
      if (s.counter k).orphaned then { st := .orphaned, next := some ((s.askedAt sid p l).misuse (some k) p.ctx) }
      else .done ((s.askedAt sid p l).signalAt k (sessionId sid) (p.num 2)) [] :=
  (if_neg (Nat.not_lt.mpr hid)).trans (if_neg hdelta)

section
variable (h : Asks s 0x0601 sid x p) (hid : p.num 1 ≤ 4095)
include h hid

theorem execCtrSignal_zero (hzero : p.num 2 = 0) : ∃ t, exec (.ctrSignal sid) s = .next t
    ∧ Replied s t sid x (replyOf p .badParam (p.off 2) [] s.life.commit) ∧ (t.logs.word 2).getLsbD 1 = true
    ∧ ∀ j, (t.counter j).value = (s.counter j).value := by
  obtain ⟨hreply, hbit, -, hvalues⟩ := misuse_refused (f := ctrSignalAnswer sid) (st := .badParam) (q := s.physOf p.ctx (p.num 1)) h (by decide)
    fun l => (if_neg (Nat.not_lt.mpr hid)).trans (if_pos hzero)
  exact ⟨_, execCtrSignal_eq, hreply, hbit, hvalues⟩

variable (hdelta : p.num 2 ≠ 0)
include hdelta

theorem execCtrSignal_private (hexport : s.exportOf p.ctx (p.num 1) = none) : ∃ t, exec (.ctrSignal sid) s = .next t
    ∧ Replied s t sid x (replyOf p .notPermitted 0 [] s.life.commit) ∧ (t.logs.word 2).getLsbD 1 = true
    ∧ (∀ q, s.physOf p.ctx (p.num 1) = some q → (t.counter q).misuse = true) ∧ ∀ j, (t.counter j).value = (s.counter j).value := by
  obtain ⟨hreply, hbit, hmarked, hvalues⟩ := misuse_refused (f := ctrSignalAnswer sid) (st := .notPermitted) (d := 0) (q := s.physOf p.ctx (p.num 1)) h
    (by decide) fun l => by rw [ctrSignalAnswer_asked hid hdelta l, hexport]
  exact ⟨_, execCtrSignal_eq, hreply, hbit, hmarked, hvalues⟩

theorem execCtrSignal_orphaned {k : Nat} (hexport : s.exportOf p.ctx (p.num 1) = some k) (horphan : (s.counter k).orphaned = true) :
    ∃ t, exec (.ctrSignal sid) s = .next t ∧ Replied s t sid x (replyOf p .orphaned 0 [] s.life.commit)
      ∧ (t.counter k).misuse = true ∧ ∀ j, (t.counter j).value = (s.counter j).value := by
  obtain ⟨hreply, -, hmarked, hvalues⟩ := misuse_refused (f := ctrSignalAnswer sid) (st := .orphaned) (d := 0) (q := some k) h (by decide)
    fun l => by rw [ctrSignalAnswer_asked hid hdelta l, hexport]; exact if_pos horphan
  exact ⟨_, execCtrSignal_eq, hreply, hmarked k rfl, hvalues⟩

theorem execCtrSignal_adds {k : Nat} (hexport : s.exportOf p.ctx (p.num 1) = some k) (horphan : (s.counter k).orphaned = false) :
    ∃ t, exec (.ctrSignal sid) s = .next t ∧ Replied s t sid x (replyOf p .ok 0 [] (s.life.commit + 1))
      ∧ (t.counter k).value = min ((s.counter k).value + p.num 2) (2 ^ 64 - 1)
      ∧ (t.counter k).sat = ((s.counter k).sat || decide (2 ^ 64 - 1 < (s.counter k).value + p.num 2))
      ∧ (t.counter k).lastSig = word [(2, 13), (sid, 0)] ∧ (t.counter k).lastDelta = min (p.num 2) (2 ^ 32 - 1)
      ∧ (∀ j, j ≠ k → (t.counter j).value = (s.counter j).value) ∧ t.mem = s.mem ∧ t.hist = s.hist ∧ t.img = s.img ∧ t.opt = s.opt
      ∧ { t.supply with waiting := s.supply.waiting } = s.supply := by
  have hanswer : ctrSignalAnswer sid (s.taken sid p) p = .done ((s.taken sid p).signalAt k (sessionId sid) (p.num 2)) [] := by
    rw [taken_eq_askedAt, ctrSignalAnswer_asked hid hdelta, hexport]
    exact if_neg (by simp [horphan])
  have hdone := writeDone_of_taken (vs := []) h (by decide) hanswer
  have hroused := roused_signalAt (s.taken sid p) k (sessionId sid) (p.num 2)
  obtain ⟨hvalue, hsat, hlast, hlastDelta, -⟩ := signalAt_marks (s.taken sid p) k (sessionId sid) (p.num 2)
  have hcounter (j : Nat) : (s.runCmd 0x0601 true sid (ctrSignalAnswer sid)).counter j
      = ((s.taken sid p).signalAt k (sessionId sid) (p.num 2)).counter j := hdone.part (·.counter j) fun _ _ _ => rfl
  refine ⟨_, execCtrSignal_eq, hdone.1, ?_, ?_, ?_, ?_, fun j hj => ?_, (hdone.part State.mem fun _ _ _ => rfl).trans hroused.mem,
    (hdone.part State.hist fun _ _ _ => rfl).trans hroused.hist, (hdone.part State.img fun _ _ _ => rfl).trans hroused.img,
    (hdone.part State.opt fun _ _ _ => rfl).trans hroused.opt, ?_⟩
  · rw [hcounter]; exact hvalue
  · rw [hcounter]; exact hsat
  · rw [hcounter]; exact hlast
  · rw [hcounter]; exact hlastDelta
  · rw [hcounter, signalAt_counter_ne _ _ _ hj]
    rfl
  · rw [hdone.part State.supply fun _ _ _ => rfl]
    exact hroused.supply

end

/-! ## CTR_SUB and CTR_UNSUB, R274, R420 -/

/-- The threshold that a CTR_SUB asks for. -/
def State.thresholdAsked (s : State) (sid : Nat) (p : Packet) : Threshold := { sid := sid, subId := s.sync.nextSub, level := p.num 2 }

/-- The number of the next threshold is taken. -/
def State.subTaken (s : State) : State := { s with sync := { s.sync with nextSub := (s.sync.nextSub + 1) % 65536 } }

/-- The threshold is armed at a counter, or notified at once where the counter has reached it. -/
def State.thresholdSet (s : State) (k : Nat) (t : Threshold) : State :=
  if t.level ≤ (s.counter k).value then s.subTaken.thresholdNotify k t .ok
  else s.subTaken.updCounter k (fun c => { c with thresholds := c.thresholds ++ [t] })

/-- What CTR_SUB answers. -/
def ctrSubAnswer (sid : Nat) (s : State) (p : Packet) : CmdOut :=
  if 4095 < p.num 1 then .bad p 1
  else match s.exportOf p.ctx (p.num 1) with
    | none => { st := .notPermitted, next := some (s.misuse (s.physOf p.ctx (p.num 1)) p.ctx) }
    | some k =>
      if (s.counter k).orphaned then { st := .orphaned, next := some (s.misuse (some k) p.ctx) }
      else if 64 ≤ s.subsOf sid ∨ 2048 ≤ s.armed (fun _ => true) then .no .noResource
      else .done (s.thresholdSet k (s.thresholdAsked sid p)) [be 2 s.sync.nextSub]

theorem execCtrSub_eq : exec (.ctrSub sid) s = .next (s.runCmd 0x0603 true sid (ctrSubAnswer sid)) := rfl

theorem thresholdSet_leaves (s : State) (k : Nat) (t : Threshold) :
    (s.thresholdSet k t).sync.nextSub = (s.sync.nextSub + 1) % 65536
      ∧ ((s.thresholdSet k t).counter k).thresholds = (if t.level ≤ (s.counter k).value then (s.counter k).thresholds else (s.counter k).thresholds ++ [t])
      ∧ ((s.thresholdSet k t).counter k).value = (s.counter k).value ∧ (∀ j, j ≠ k → (s.thresholdSet k t).counter j = s.counter j)
      ∧ { s.thresholdSet k t with comms := s.comms, out := s.out, sync := s.sync } = s := by
  unfold State.thresholdSet
  split
  · obtain ⟨co, ou, hnotify⟩ := notify_eq s.subTaken t.sid 0x06C0 (s.subTaken.counter k).owner .ok 0
      [(1, be 2 t.subId), (2, be 2 (s.subTaken.counter k).localId), (3, be 8 (s.subTaken.counter k).value)]
    rw [State.thresholdNotify, hnotify]
    exact ⟨rfl, rfl, rfl, fun _ _ => rfl, rfl⟩
  · refine ⟨rfl, ?_, ?_, fun j hj => State.updCounter_counter_ne s.subTaken k _ j hj.symm, rfl⟩
    · rw [State.updCounter_counter_same]
      rfl
    · rw [State.updCounter_counter_same]
      rfl

section
variable {k : Nat} (h : Asks s 0x0603 sid x p) (hid : p.num 1 ≤ 4095) (hexport : s.exportOf p.ctx (p.num 1) = some k)
  (horphan : (s.counter k).orphaned = false)
include h hid hexport horphan

theorem ctrSubAnswer_asked (l : Life) : ctrSubAnswer sid (s.askedAt sid p l) p
    = if 64 ≤ s.subsOf sid ∨ 2048 ≤ s.armed (fun _ => true) then .no .noResource
      else .done ((s.askedAt sid p l).thresholdSet k (s.thresholdAsked sid p)) [be 2 s.sync.nextSub] := by
  obtain ⟨-, hx, -⟩ := h
  have hexport' : (s.askedAt sid p l).exportOf p.ctx (p.num 1) = some k := hexport
  have horphan' : ((s.askedAt sid p l).counter k).orphaned = false := horphan
  simp only [ctrSubAnswer, if_neg (Nat.not_lt.mpr hid), hexport', horphan', Bool.false_eq_true, if_false, askedAt_subsOf hx]
  rfl

theorem execCtrSub_full (hfull : 64 ≤ s.subsOf sid ∨ 2048 ≤ s.armed (fun _ => true)) :
    ∃ t, exec (.ctrSub sid) s = .next t ∧ Refused s t sid x p .noResource 0 :=
  ⟨_, execCtrSub_eq, refused_of_asked h (by decide) fun l => (ctrSubAnswer_asked h hid hexport horphan l).trans (if_pos hfull)⟩

theorem execCtrSub_arms (hsubs : s.subsOf sid < 64) (harmed : s.armed (fun _ => true) < 2048) : ∃ t, exec (.ctrSub sid) s = .next t
    ∧ Replied s t sid x (replyOf p .ok 0 [(1, be 2 s.sync.nextSub)] (s.life.commit + 1)) ∧ t.sync.nextSub = (s.sync.nextSub + 1) % 65536
    ∧ (t.counter k).thresholds = (if p.num 2 ≤ (s.counter k).value then (s.counter k).thresholds
        else (s.counter k).thresholds ++ [{ sid := sid, subId := s.sync.nextSub, level := p.num 2 }])
    ∧ (t.counter k).value = (s.counter k).value ∧ (∀ j, j ≠ k → t.counter j = s.counter j)
    ∧ { t with comms := s.comms, out := s.out, life := s.life, sync := s.sync } = s := by
  have hfits : ¬ (64 ≤ s.subsOf sid ∨ 2048 ≤ s.armed (fun _ => true)) := by omega
  have hdone := writeDone_of_taken (vs := [be 2 s.sync.nextSub]) h (by decide)
    ((ctrSubAnswer_asked h hid hexport horphan s.commit.life).trans (if_neg hfits))
  obtain ⟨hnext, hthresholds, hvalue, hother, hrest⟩ := thresholdSet_leaves (s.taken sid p) k (s.thresholdAsked sid p)
  have hcounter (j : Nat) : (s.runCmd 0x0603 true sid (ctrSubAnswer sid)).counter j
      = ((s.taken sid p).thresholdSet k (s.thresholdAsked sid p)).counter j := hdone.part (·.counter j) fun _ _ _ => rfl
  refine ⟨_, execCtrSub_eq, hdone.1, (hdone.part (·.sync.nextSub) fun _ _ _ => rfl).trans hnext, ?_, ?_, fun j hj => ?_, ?_⟩
  · rw [hcounter]; exact hthresholds
  · rw [hcounter]; exact hvalue
  · rw [hcounter]; exact hother j hj
  · have hstate := congrArg (fun w : State => { w with comms := s.comms, out := s.out, life := s.life, sync := s.sync }) hdone.2
    exact hstate.trans (congrArg (fun w : State => { w with comms := s.comms, out := s.out, life := s.life, sync := s.sync }) hrest :)

end

/-- The session's threshold of a number, at whatever counter. -/
def Threshold.isSub (t : Threshold) (sid n : Nat) : Bool := t.sid == sid && t.subId == n

/-- A counter without a session's threshold of a number. -/
def Counter.unsub (c : Counter) (sid n : Nat) : Counter := { c with thresholds := c.thresholds.filter (fun t => !t.isSub sid n) }

/-- The counter at which a session's threshold of a number is armed. -/
def State.subAt (s : State) (sid n : Nat) : Option (Nat × Counter) := s.sync.counters.find? (fun e => e.2.thresholds.any (·.isSub sid n))

/-- What CTR_UNSUB answers. -/
def ctrUnsubAnswer (sid : Nat) (s : State) (p : Packet) : CmdOut :=
  match s.subAt sid (p.num 1) with
  | none => .bad p 1
  | some (k, _) => .done (s.updCounter k (fun c => c.unsub sid (p.num 1))) []

theorem execCtrUnsub_eq : exec (.ctrUnsub sid) s = .next (s.runCmd 0x0604 true sid (ctrUnsubAnswer sid)) := rfl

theorem execCtrUnsub_removes (h : Asks s 0x0604 sid x p) {k : Nat} {c : Counter} (harmed : s.subAt sid (p.num 1) = some (k, c)) :
    ∃ t, exec (.ctrUnsub sid) s = .next t ∧ WriteDone s t sid x p .ok [] (s.commit.updCounter k (fun c => c.unsub sid (p.num 1))) := by
  have harmed' : (s.taken sid p).subAt sid (p.num 1) = some (k, c) := harmed
  have hanswer : ctrUnsubAnswer sid (s.taken sid p) p = .done ((s.taken sid p).updCounter k (fun c => c.unsub sid (p.num 1))) [] := by
    simp only [ctrUnsubAnswer, harmed']
  exact ⟨_, execCtrUnsub_eq, writeDone_of_taken_as _ h (by decide) hanswer rfl⟩

theorem execCtrUnsub_unknown (h : Asks s 0x0604 sid x p) (hnone : s.subAt sid (p.num 1) = none) :
    ∃ t, exec (.ctrUnsub sid) s = .next t ∧ Refused s t sid x p .badParam (p.off 1) := by
  refine ⟨_, execCtrUnsub_eq, refused_of_asked h (by decide) fun l => ?_⟩
  have hnone' : (s.askedAt sid p l).subAt sid (p.num 1) = none := hnone
  simp only [ctrUnsubAnswer, hnone']
  rfl

end Sys2Proof.Machine
end

section
/-! BIND and CTR_CLEAR (R263, R264, R279, R281), and the obligation on counter commands. -/

namespace Sys2Proof.Machine

open Sys2Proof

variable {s : State} {sid : Nat} {x : Session} {p : Packet}

/-! ## BIND, R264 -/

/-- The id that a BIND names stands for a counter that is not orphaned. -/
def State.idHeld (s : State) (c id : Nat) : Bool := match s.physOf c id with | some q => !(s.counter q).orphaned | none => false

/-- What BIND answers. -/
def bindAnswer (s : State) (p : Packet) : CmdOut :=
  if 4095 < p.num 1 then .bad p 1
  else if 16383 < p.num 2 then .bad p 2
  else if s.idHeld p.ctx (p.num 1) = true ∨ ((s.counter (p.num 2)).bound = true ∧ (s.counter (p.num 2)).orphaned = false) then .no .busy
  else if ((s.counter (p.num 2)).orphaned && decide ((s.counter (p.num 2)).owner = p.ctx)) = false
      ∧ (s.ctx p.ctx).quota.counters ≤ (s.owned p.ctx).length then .no .noResource
  else .done (s.bindTo p.ctx (p.num 1) (p.num 2)) []

theorem execBind_eq : exec (.bind sid) s = .next (s.runCmd 0x0605 true sid bindAnswer) := rfl

theorem setEntry_physOf (s : State) (c id k : Nat) (e : Bool) : (s.setEntry c id (some k) e).physOf c id = some k := by
  simp [State.physOf, State.setEntry]

theorem setEntry_counter (s : State) (c id : Nat) (k : Option Nat) (e : Bool) (j : Nat) : (s.setEntry c id k e).counter j = s.counter j := rfl

/-- A counter that a context takes over from the one that lost it. -/
def Counter.adopted (y : Counter) (c id : Nat) : Counter := { y with owner := c, localId := id, orphaned := false }

theorem bindTo_of_orphaned {c id k : Nat} (horphan : (s.counter k).orphaned = true) : ∃ v : State, (∀ j, v.counter j = s.counter j)
    ∧ s.bindTo c id k = (v.updCounter k (fun y => y.adopted c id)).setEntry c id (some k) (s.counter k).exported := by
  refine ⟨if s.physOf (s.counter k).owner (s.counter k).localId = some k then s.setEntry (s.counter k).owner (s.counter k).localId none false else s,
    fun j => ?_, ?_⟩
  · split <;> rfl
  · unfold State.bindTo
    simp only [horphan, if_true]
    rfl

/-- A counter as a context binds it, R264. -/
def Counter.fresh (c id : Nat) : Counter := { owner := c, localId := id, bound := true }

theorem bindTo_of_free {c id k : Nat} (hfree : (s.counter k).orphaned = false) : s.bindTo c id k
    = ((s.updCounter k (fun _ => Counter.fresh c id)).setEntry c id (some k) false).askPower (.clusterCommon (homeOf k)) c := by
  unfold State.bindTo
  simp only [hfree, Bool.false_eq_true, if_false]
  rfl

theorem bindAnswer_asked (hid : p.num 1 ≤ 4095) (hphys : p.num 2 ≤ 16383) (l : Life) : bindAnswer (s.askedAt sid p l) p
    = if s.idHeld p.ctx (p.num 1) = true ∨ ((s.counter (p.num 2)).bound = true ∧ (s.counter (p.num 2)).orphaned = false) then .no .busy
      else if ((s.counter (p.num 2)).orphaned && decide ((s.counter (p.num 2)).owner = p.ctx)) = false
          ∧ (s.ctx p.ctx).quota.counters ≤ (s.owned p.ctx).length then .no .noResource
      else .done ((s.askedAt sid p l).bindTo p.ctx (p.num 1) (p.num 2)) [] :=
  (if_neg (Nat.not_lt.mpr hid)).trans (if_neg (Nat.not_lt.mpr hphys))

section
variable (h : Asks s 0x0605 sid x p) (hid : p.num 1 ≤ 4095) (hphys : p.num 2 ≤ 16383)
include h hid hphys

theorem execBind_busy (hbound : (s.counter (p.num 2)).bound = true) (horphan : (s.counter (p.num 2)).orphaned = false) :
    ∃ t, exec (.bind sid) s = .next t ∧ Refused s t sid x p .busy 0 :=
  ⟨_, execBind_eq, refused_of_asked h (by decide) fun l => (bindAnswer_asked hid hphys l).trans (if_pos (.inr ⟨hbound, horphan⟩))⟩

variable (hfree : s.physOf p.ctx (p.num 1) = none) (hquota : (s.owned p.ctx).length < (s.ctx p.ctx).quota.counters)
include hfree hquota

/-- A free id, a counter that is not in use and a quota that allows one more. -/
theorem bind_done (hcounter : ¬ ((s.counter (p.num 2)).bound = true ∧ (s.counter (p.num 2)).orphaned = false)) :
    WriteDone s (s.runCmd 0x0605 true sid bindAnswer) sid x p .ok [] ((s.taken sid p).bindTo p.ctx (p.num 1) (p.num 2)) := by
  have hheld : ¬ (s.idHeld p.ctx (p.num 1) = true ∨ ((s.counter (p.num 2)).bound = true ∧ (s.counter (p.num 2)).orphaned = false)) := by
    rintro (hheld | hused)
    · simp [State.idHeld, hfree] at hheld
    · exact hcounter hused
  refine writeDone_of_taken h (by decide) ((bindAnswer_asked hid hphys s.commit.life).trans ((if_neg hheld).trans (if_neg ?_)))
  exact fun hfull => absurd hfull.2 (Nat.not_le.mpr hquota)

theorem execBind_binds (hbound : (s.counter (p.num 2)).bound = false) (horphan : (s.counter (p.num 2)).orphaned = false) :
    ∃ t, exec (.bind sid) s = .next t ∧ Replied s t sid x (replyOf p .ok 0 [] (s.life.commit + 1)) ∧ t.physOf p.ctx (p.num 1) = some (p.num 2)
      ∧ t.counter (p.num 2) = { owner := p.ctx, localId := p.num 1, bound := true } ∧ (∀ j, j ≠ p.num 2 → t.counter j = s.counter j)
      ∧ t.mem = s.mem ∧ t.threads = s.threads := by
  have hdone := bind_done h hid hphys hfree hquota (by simp [hbound])
  rw [bindTo_of_free (s := s.taken sid p) horphan] at hdone
  have hsync : (s.runCmd 0x0605 true sid bindAnswer).sync
      = (((s.taken sid p).updCounter (p.num 2) (fun _ => Counter.fresh p.ctx (p.num 1))).setEntry p.ctx (p.num 1) (some (p.num 2)) false).sync :=
    (hdone.part State.sync fun _ _ _ => rfl).trans (askPower_sync ..)
  have hcounter (j : Nat) : (s.runCmd 0x0605 true sid bindAnswer).counter j
      = ((s.taken sid p).updCounter (p.num 2) (fun _ => Counter.fresh p.ctx (p.num 1))).counter j := by
    rw [State.counter, hsync]
    rfl
  refine ⟨_, execBind_eq, hdone.1, ?_, ?_, fun j hj => ?_, ?_, ?_⟩
  · rw [State.physOf, hsync]
    exact setEntry_physOf ((s.taken sid p).updCounter (p.num 2) (fun _ => Counter.fresh p.ctx (p.num 1))) p.ctx (p.num 1) (p.num 2) false
  · rw [hcounter, State.updCounter_counter_same]
    rfl
  · rw [hcounter, State.updCounter_counter_ne _ _ _ _ hj.symm]
    rfl
  · exact (hdone.part State.mem fun _ _ _ => rfl).trans (roused_askPower ..).mem
  · exact (hdone.part State.threads fun _ _ _ => rfl).trans (askPower_threads ..)

theorem execBind_adopts (horphan : (s.counter (p.num 2)).orphaned = true) :
    ∃ t, exec (.bind sid) s = .next t ∧ Replied s t sid x (replyOf p .ok 0 [] (s.life.commit + 1)) ∧ t.physOf p.ctx (p.num 1) = some (p.num 2)
      ∧ t.counter (p.num 2) = { s.counter (p.num 2) with owner := p.ctx, localId := p.num 1, orphaned := false }
      ∧ ∀ j, j ≠ p.num 2 → t.counter j = s.counter j := by
  have hdone := bind_done h hid hphys hfree hquota (by simp [horphan])
  obtain ⟨v, hv, hbind⟩ := bindTo_of_orphaned (s := s.taken sid p) (c := p.ctx) (id := p.num 1) horphan
  rw [hbind] at hdone
  have hcounter (j : Nat) : (s.runCmd 0x0605 true sid bindAnswer).counter j = (v.updCounter (p.num 2) (fun y => y.adopted p.ctx (p.num 1))).counter j :=
    hdone.part (·.counter j) fun _ _ _ => rfl
  refine ⟨_, execBind_eq, hdone.1, (hdone.part (·.physOf p.ctx (p.num 1)) fun _ _ _ => rfl).trans (setEntry_physOf ..), ?_, fun j hj => ?_⟩
  · rw [hcounter, State.updCounter_counter_same, hv]
    rfl
  · rw [hcounter, State.updCounter_counter_ne _ _ _ _ hj.symm, hv]
    rfl

end

/-! ## CTR_CLEAR, R281 -/

/-- A counter without the flags that a mask names. -/
def Counter.cleared (c : Counter) (mask : Nat) : Counter :=
  { c with sat := c.sat && !mask.testBit 2, overtaken := c.overtaken && !mask.testBit 1, misuse := c.misuse && !mask.testBit 0 }

/-- What CTR_CLEAR answers. -/
def ctrClearAnswer (s : State) (p : Packet) : CmdOut :=
  if 4095 < p.num 1 then .bad p 1
  else if 7 < p.num 2 then .bad p 2
  else match s.exportOf p.ctx (p.num 1) with
    | none => .no .notPermitted
    | some k => .done (s.updCounter k (fun c => c.cleared (p.num 2))) []

theorem execCtrClear_eq : exec (.ctrClear sid) s = .next (s.runCmd 0x0606 true sid ctrClearAnswer) := rfl

theorem ctrClearAnswer_asked (hid : p.num 1 ≤ 4095) (hmask : p.num 2 ≤ 7) (l : Life) : ctrClearAnswer (s.askedAt sid p l) p = match s.exportOf p.ctx (p.num 1) with
    | none => .no .notPermitted
    | some k => .done ((s.askedAt sid p l).updCounter k (fun c => c.cleared (p.num 2))) [] :=
  (if_neg (Nat.not_lt.mpr hid)).trans (if_neg (Nat.not_lt.mpr hmask))

section
variable (h : Asks s 0x0606 sid x p) (hid : p.num 1 ≤ 4095)
include h hid

theorem execCtrClear_mask (hmask : 7 < p.num 2) : ∃ t, exec (.ctrClear sid) s = .next t ∧ Refused s t sid x p .badParam (p.off 2) :=
  ⟨_, execCtrClear_eq, refused_of_asked h (by decide) fun _ => (if_neg (Nat.not_lt.mpr hid)).trans (if_pos hmask)⟩

variable (hmask : p.num 2 ≤ 7)
include hmask

theorem execCtrClear_private (hexport : s.exportOf p.ctx (p.num 1) = none) :
    ∃ t, exec (.ctrClear sid) s = .next t ∧ Refused s t sid x p .notPermitted 0 := by
  refine ⟨_, execCtrClear_eq, refused_of_asked h (by decide) fun l => ?_⟩
  rw [ctrClearAnswer_asked hid hmask, hexport]
  rfl

theorem execCtrClear_clears {k : Nat} (hexport : s.exportOf p.ctx (p.num 1) = some k) : ∃ t, exec (.ctrClear sid) s = .next t
    ∧ WriteDone s t sid x p .ok [] (s.commit.updCounter k (fun c => c.cleared (p.num 2))) ∧ (t.counter k).value = (s.counter k).value := by
  have hanswer : ctrClearAnswer (s.taken sid p) p = .done ((s.taken sid p).updCounter k (fun c => c.cleared (p.num 2))) [] := by
    rw [taken_eq_askedAt, ctrClearAnswer_asked hid hmask, hexport]
  have hdone : WriteDone s (s.runCmd 0x0606 true sid ctrClearAnswer) sid x p .ok [] (s.commit.updCounter k (fun c => c.cleared (p.num 2))) :=
    writeDone_of_taken_as _ h (by decide) hanswer rfl
  refine ⟨_, execCtrClear_eq, hdone, ?_⟩
  rw [hdone.part (·.counter k) fun _ _ _ => rfl, State.updCounter_counter_same]
  rfl

end

/-! ## The obligation -/

/-- Settles O28: each command by its counter: exported or not, orphaned or not, reached or not, in use or not. -/
theorem counterCommandsTakeEffect : Obligations.CounterCommandsTakeEffect := by
  unfold Obligations.CounterCommandsTakeEffect
  exact ⟨fun s sid x p h hid => ⟨fun k hdelta hexport horphan => execCtrSignal_adds h hid hdelta hexport horphan,
      fun hzero => execCtrSignal_zero h hid hzero, fun hdelta hexport => execCtrSignal_private h hid hdelta hexport,
      fun k hdelta hexport horphan => execCtrSignal_orphaned h hid hdelta hexport horphan⟩,
    fun s sid x p k h hid hexport horphan => ⟨fun hfull => execCtrSub_full h hid hexport horphan hfull,
      fun hsubs harmed => execCtrSub_arms h hid hexport horphan hsubs harmed⟩,
    fun s sid x p h => ⟨fun k c harmed => execCtrUnsub_removes h harmed, fun hnone => execCtrUnsub_unknown h hnone⟩,
    fun s sid x p h hid hphys => ⟨fun hused => execBind_busy h hid hphys hused.1 hused.2,
      fun hfree hbound horphan hquota => execBind_binds h hid hphys hfree hquota hbound horphan,
      fun hfree horphan _ hquota => execBind_adopts h hid hphys hfree hquota horphan⟩,
    fun s sid x p h hid => ⟨fun hmask => execCtrClear_mask h hid hmask, fun hmask hexport => execCtrClear_private h hid hmask hexport,
      fun k hmask hexport => execCtrClear_clears h hid hmask hexport⟩⟩

end Sys2Proof.Machine
end

section
/-! OPTION_SET, SERVICE_PORT and OPTION_WRITE_DONE (R304, R485, R486, R504, R556). -/

namespace Sys2Proof.Machine

open Sys2Proof

variable {s : State} {sid : Nat} {x : Session} {p : Packet}

/-! ## What one field may become, R485, R504 -/

theorem optField_mainBud (o : OptCopy) {v : List Byte} (hlen : v.length = 2) (hlow : 60 ≤ ofBytes v) (hhigh : ofBytes v ≤ 410) :
    optField o 172 v = .ok { o with mainBud := ofBytes v } := if_pos ⟨hlen, hlow, hhigh⟩

/-- LOCK is not set back. -/
theorem optField_lock_lowered {o : OptCopy} {v : List Byte} (hback : ofBytes v < o.lock) : optField o 177 v = .error .badParam :=
  if_neg fun ⟨_, _, hle⟩ => absurd hback (Nat.not_lt.mpr hle)

theorem optField_of_other_offset (o : OptCopy) {off : Nat} (v : List Byte) (hoff : off ∉ [145, 172, 174, 177]) :
    optField o off v = .error .notPermitted := by
  simp only [List.mem_cons, List.not_mem_nil, or_false, not_or] at hoff
  obtain ⟨hfall, hmain, hback, hlock⟩ := hoff
  -- the four inequalities meet the side conditions of the equation of the last case
  simp only [optField]

/-! ## The store write of the shadows, R478, R480, R486 -/

/-- An erase intent leaves its record in the store and nothing else. -/
theorem eraseIntent_eq (s : State) (unit phys : Nat) : ∃ store, s.eraseIntent unit phys = { s with store := store } := by
  unfold State.eraseIntent
  split
  · exact ⟨s.store, rfl⟩
  · exact ⟨_, rfl⟩

/-- So does the end of an erase. -/
theorem eraseDone_eq (s : State) (unit phys pulses : Nat) : ∃ store, s.eraseDone unit phys pulses = { s with store := store } := by
  unfold State.eraseDone
  split
  · exact ⟨_, rfl⟩
  · exact ⟨s.store, rfl⟩

/-- The option area once a store write of the shadows has begun: the next SEQ, into the copy that is not the newest. -/
def Options.writeBegun (o : Options) : Options :=
  { o with
    shadow := { o.shadow with seq := o.shadow.seq + 1 }
    writing := some (1 - o.newest, { o.shadow with seq := o.shadow.seq + 1 }), again := false }

theorem startOptWrite_writeBegun (s : State) : ∃ store, s.startOptWrite = { s with opt := s.opt.writeBegun, store := store } :=
  eraseIntent_eq { s with opt := s.opt.writeBegun } 2 (1 - s.opt.newest)

/-- A write of the option area reaches nothing but the option area and the store. -/
theorem writeOption_rest (s : State) (g : OptCopy → OptCopy) : { s.writeOption g with opt := s.opt, store := s.store } = s := by
  cases h : s.opt.writing.isSome with
  | true => rw [writeOption_of_writing h]
  | false =>
    obtain ⟨store, hstart⟩ := startOptWrite_writeBegun { s with opt := { s.opt with shadow := g s.opt.shadow } }
    rw [writeOption_of_not_writing h, hstart]

/-- While a store write is under way, a further one is owed. -/
theorem writeOption_owed (g : OptCopy → OptCopy) (h : s.opt.writing.isSome = true) :
    (s.writeOption g).opt.writing = s.opt.writing ∧ (s.writeOption g).opt.again = true := by
  rw [writeOption_of_writing h]
  exact ⟨rfl, rfl⟩

/-- With none under way, that of the changed shadows begins. -/
theorem writeOption_begun (g : OptCopy → OptCopy) (h : s.opt.writing = none) :
    (s.writeOption g).opt.writing = some (1 - s.opt.newest, (s.writeOption g).opt.shadow) := by
  obtain ⟨store, hstart⟩ := startOptWrite_writeBegun { s with opt := { s.opt with shadow := g s.opt.shadow } }
  rw [writeOption_of_not_writing (by rw [h]; rfl), hstart]
  rfl

/-- Either way a store write is then under way. -/
theorem writeOption_writing_isSome (s : State) (g : OptCopy → OptCopy) : (s.writeOption g).opt.writing.isSome = true := by
  cases h : s.opt.writing with
  | none => rw [writeOption_begun g h]; rfl
  | some w => rw [(writeOption_owed g (by rw [h]; rfl)).1, h]; rfl

/-! ## OPTION_SET, R485 -/

/-- A write of the option area after the command has left its ring is the write after its commit, but for sessions and what leaves. -/
theorem taken_writeOption (s : State) (sid : Nat) (p : Packet) (g : OptCopy → OptCopy) :
    { (s.taken sid p).writeOption g with comms := (s.commit.writeOption g).comms, out := (s.commit.writeOption g).out } = s.commit.writeOption g := by
  have htaken : s.taken sid p = { s.commit with comms := (s.taken sid p).comms, out := (s.taken sid p).out } := rfl
  rw [htaken, writeOption_comms]

section
variable (h : Asks s 0x0C06 sid x p) {v : List Byte} (hv : p.val 2 = some v)
include h hv

theorem execOptionSet_badParam (hfield : optField s.opt.shadow (p.num 1) v = .error .badParam) :
    ∃ t, exec (.optionSet sid) s = .next t ∧ Refused s t sid x p .badParam (p.off 2) := by
  refine ⟨_, rfl, refused_of_asked h (by decide) fun l => ?_⟩
  have hasked : optField (s.askedAt sid p l).opt.shadow (p.num 1) v = .error .badParam := hfield
  simp only [hv, Option.getD_some, hasked, CmdOut.bad]

theorem execOptionSet_notPermitted (hfield : optField s.opt.shadow (p.num 1) v = .error .notPermitted) :
    ∃ t, exec (.optionSet sid) s = .next t ∧ Refused s t sid x p .notPermitted 0 := by
  refine ⟨_, rfl, refused_of_asked h (by decide) fun l => ?_⟩
  have hasked : optField (s.askedAt sid p l).opt.shadow (p.num 1) v = .error .notPermitted := hfield
  simp only [hv, Option.getD_some, hasked, CmdOut.no]

theorem execOptionSet_done {o : OptCopy} (hfield : optField s.opt.shadow (p.num 1) v = .ok o) :
    ∃ t, exec (.optionSet sid) s = .next t ∧ WriteDone s t sid x p .ok [] (s.commit.writeOption (fun _ => o)) := by
  refine ⟨_, rfl, writeDone_of_taken_as ((s.taken sid p).writeOption (fun _ => o)) h (by decide) ?_ (taken_writeOption ..)⟩
  have htaken : optField (s.taken sid p).opt.shadow (p.num 1) v = .ok o := hfield
  simp only [hv, Option.getD_some, htaken]
  rfl

/-- The shadows have the field and a store write is under way: the one that was, with this one owed, or that of these shadows. -/
theorem optionSet_takesEffect {o : OptCopy} (hfield : optField s.opt.shadow (p.num 1) v = .ok o) :
    ∃ t, exec (.optionSet sid) s = .next t ∧ WriteDone s t sid x p .ok [] (s.commit.writeOption (fun _ => o))
      ∧ { t.opt.shadow with seq := o.seq } = o ∧ t.opt.loaded = s.opt.loaded ∧ t.opt.writing.isSome = true
      ∧ (s.opt.writing.isSome = true → t.opt.writing = s.opt.writing ∧ t.opt.again = true)
      ∧ (s.opt.writing = none → t.opt.writing = some (1 - s.opt.newest, t.opt.shadow)) := by
  obtain ⟨t, ht, hdone⟩ := execOptionSet_done h hv hfield
  obtain ⟨hloaded, n, hshadow⟩ := writeOption_opt s.commit (fun _ => o)
  have hopt : t.opt = (s.commit.writeOption (fun _ => o)).opt := hdone.part State.opt fun _ _ _ => rfl
  refine ⟨t, ht, hdone, ?_⟩
  rw [hopt]
  exact ⟨by rw [hshadow], hloaded, writeOption_writing_isSome .., fun hwriting => writeOption_owed (s := s.commit) _ hwriting,
    fun hnone => writeOption_begun (s := s.commit) _ hnone⟩

end

/-! ## SERVICE_PORT, R556 -/

/-- The option shadows with SVCEN set. -/
def OptCopy.withSvcEn (n : Nat) (o : OptCopy) : OptCopy := { o with svcEn := n }

/-- What SERVICE_PORT leaves: SVCEN in the shadows, and a locked Kennel where it is 0. -/
def State.setSvcEn (s : State) (n : Nat) : State :=
  if n = 0 then (s.writeOption (OptCopy.withSvcEn n)).lockKennel else s.writeOption (OptCopy.withSvcEn n)

theorem setSvcEn_opt (s : State) (n : Nat) : (s.setSvcEn n).opt = (s.writeOption (OptCopy.withSvcEn n)).opt := by
  unfold State.setSvcEn
  split <;> rfl

theorem setSvcEn_rest (s : State) (n : Nat) (k : Kennel) :
    { s.setSvcEn n with opt := s.opt, store := s.store, kennel := k } = { s with kennel := k } := by
  have hwrite := congrArg (fun v : State => { v with kennel := k }) (writeOption_rest s (OptCopy.withSvcEn n))
  unfold State.setSvcEn
  split <;> exact hwrite

section
variable (h : Asks s 0x0C07 sid x p)
include h

theorem execServicePort_bad (hbad : 1 < p.num 1) : ∃ t, exec (.servicePort sid) s = .next t ∧ Refused s t sid x p .badParam (p.off 1) :=
  ⟨_, rfl, refused_of_asked h (by decide) fun _ => if_pos hbad⟩

theorem execServicePort_done (hok : p.num 1 ≤ 1) :
    ∃ t, exec (.servicePort sid) s = .next t ∧ WriteDone s t sid x p .ok [] ((s.taken sid p).setSvcEn (p.num 1)) :=
  ⟨_, rfl, writeDone_of_taken h (by decide) (if_neg (Nat.not_lt.mpr hok))⟩

theorem servicePort_takesEffect (hok : p.num 1 ≤ 1) :
    ∃ t, exec (.servicePort sid) s = .next t ∧ Replied s t sid x (replyOf p .ok 0 [] (s.life.commit + 1)) ∧ t.opt.shadow.svcEn = p.num 1
      ∧ t.opt.loaded = s.opt.loaded ∧ t.opt.shadow.lock = s.opt.shadow.lock ∧ (p.num 1 = 0 → t.kennel.state = .locked ∧ t.kennel.challenge = none)
      ∧ (p.num 1 = 1 → t.kennel = s.kennel)
      ∧ { t with comms := s.comms, out := s.out, life := s.life, opt := s.opt, store := s.store, upk := s.upk, kennel := s.kennel } = s := by
  obtain ⟨t, ht, hdone⟩ := execServicePort_done h hok
  have hopt : t.opt = ((s.taken sid p).writeOption (OptCopy.withSvcEn (p.num 1))).opt :=
    (hdone.part State.opt fun _ _ _ => rfl).trans (setSvcEn_opt ..)
  have hkennel : t.kennel = ((s.taken sid p).setSvcEn (p.num 1)).kennel := hdone.part State.kennel fun _ _ _ => rfl
  obtain ⟨hloaded, n, hshadow⟩ := writeOption_opt (s.taken sid p) (OptCopy.withSvcEn (p.num 1))
  refine ⟨t, ht, hdone.1, by rw [hopt, hshadow]; rfl, by rw [hopt, hloaded]; rfl, by rw [hopt, hshadow]; rfl, fun hzero => ?_, fun hone => ?_, ?_⟩
  · rw [hkennel, State.setSvcEn, if_pos hzero]
    exact ⟨rfl, rfl⟩
  · rw [hkennel, State.setSvcEn, if_neg (by omega)]
    exact (congrArg State.kennel (writeOption_rest (s.taken sid p) (OptCopy.withSvcEn (p.num 1))) :)
  · calc { t with comms := s.comms, out := s.out, life := s.life, opt := s.opt, store := s.store, upk := s.upk, kennel := s.kennel }
      _ = { (s.taken sid p).setSvcEn (p.num 1) with
            comms := s.comms, out := s.out, life := s.life, opt := s.opt, store := s.store, upk := s.upk, kennel := s.kennel } :=
        (congrArg (fun v : State =>
          { v with comms := s.comms, out := s.out, life := s.life, opt := s.opt, store := s.store, upk := s.upk, kennel := s.kennel }) hdone.2 :)
      _ = s :=
        (congrArg (fun v : State => { v with comms := s.comms, out := s.out, life := s.life, upk := s.upk })
          (setSvcEn_rest (s.taken sid p) (p.num 1) s.kennel) :)

end

/-! ## OPTION_WRITE_DONE, R486 -/

/-- The option area once the copy that was being written stands in its place. -/
def Options.placed (o : Options) (k : Nat) (v : OptCopy) : Options :=
  { o with
    copy0 := if k = 0 then v else o.copy0
    copy1 := if k = 0 then o.copy1 else v
    newest := k, writing := none, rewrite := false }

theorem placed_copy (o : Options) (k : Nat) (v : OptCopy) : (if k = 0 then (o.placed k v).copy0 else (o.placed k v).copy1) = v := by
  unfold Options.placed
  split <;> rfl

theorem placed_otherCopy (o : Options) (k : Nat) (v : OptCopy) :
    (if k = 0 then (o.placed k v).copy1 else (o.placed k v).copy0) = (if k = 0 then o.copy1 else o.copy0) := by
  unfold Options.placed
  split <;> rfl

/-- The answer that waited for the store is Kennel's affair and leaves the module; nothing else changes. -/
theorem kennelStored_eq (s : State) : ∃ kennel out, s.kennelStored = { s with kennel := kennel, out := out } := by
  unfold State.kennelStored
  split
  · exact ⟨_, _, rfl⟩
  · exact ⟨s.kennel, s.out, rfl⟩

/-- What follows once a written copy stands: the store write that is owed, or the answer that waited. -/
def State.afterOptWrite (s : State) : State := if s.opt.again then s.startOptWrite else s.kennelStored

theorem execOptionWriteDone_eq (pulses : Nat) {k : Nat} {v : OptCopy} (hwriting : s.opt.writing = some (k, v)) :
    exec (.optionWriteDone pulses) s = .next (State.eraseDone { s with opt := s.opt.placed k v } 2 k pulses).afterOptWrite := by
  change execOptionWriteDone pulses s = _
  unfold execOptionWriteDone
  rw [hwriting]
  rfl

theorem execOptionWriteDone_owed (pulses : Nat) {k : Nat} {v : OptCopy} (hwriting : s.opt.writing = some (k, v)) (howed : s.opt.again = true) :
    ∃ store, exec (.optionWriteDone pulses) s = .next { s with opt := (s.opt.placed k v).writeBegun, store := store } := by
  obtain ⟨erased, hdone⟩ := eraseDone_eq { s with opt := s.opt.placed k v } 2 k pulses
  obtain ⟨store, hstart⟩ := startOptWrite_writeBegun { s with opt := s.opt.placed k v, store := erased }
  rw [execOptionWriteDone_eq pulses hwriting, hdone]
  exact ⟨store, congrArg _ ((if_pos howed).trans hstart)⟩

theorem execOptionWriteDone_last (pulses : Nat) {k : Nat} {v : OptCopy} (hwriting : s.opt.writing = some (k, v)) (hlast : s.opt.again = false) :
    ∃ store kennel out, exec (.optionWriteDone pulses) s = .next { s with opt := s.opt.placed k v, store := store, kennel := kennel, out := out } := by
  obtain ⟨store, hdone⟩ := eraseDone_eq { s with opt := s.opt.placed k v } 2 k pulses
  obtain ⟨kennel, out, hstored⟩ := kennelStored_eq { s with opt := s.opt.placed k v, store := store }
  rw [execOptionWriteDone_eq pulses hwriting, hdone]
  exact ⟨store, kennel, out, congrArg _ ((if_neg (ne_true_of_eq_false hlast)).trans hstored)⟩

theorem optionWriteDone_takesEffect (pulses : Nat) {k : Nat} {v : OptCopy} (hwriting : s.opt.writing = some (k, v)) :
    ∃ t, exec (.optionWriteDone pulses) s = .next t
      ∧ t.opt.newest = k ∧ (if k = 0 then t.opt.copy0 else t.opt.copy1) = v ∧ (if k = 0 then t.opt.copy1 else t.opt.copy0) = (if k = 0 then s.opt.copy1 else s.opt.copy0)
      ∧ t.opt.loaded = s.opt.loaded ∧ t.opt.again = false
      ∧ (s.opt.again = false → t.opt.writing = none ∧ t.opt.shadow = s.opt.shadow)
      ∧ (s.opt.again = true → t.opt.writing = some (1 - k, t.opt.shadow) ∧ { t.opt.shadow with seq := s.opt.shadow.seq } = s.opt.shadow)
      ∧ { t with opt := s.opt, kennel := s.kennel, out := s.out, store := s.store, upk := s.upk } = s := by
  cases hagain : s.opt.again with
  | true =>
    obtain ⟨store, ht⟩ := execOptionWriteDone_owed pulses hwriting hagain
    exact ⟨_, ht, rfl, placed_copy .., placed_otherCopy .., rfl, rfl, nofun, fun _ => ⟨rfl, rfl⟩, rfl⟩
  | false =>
    obtain ⟨store, kennel, out, ht⟩ := execOptionWriteDone_last pulses hwriting hagain
    exact ⟨_, ht, rfl, placed_copy .., placed_otherCopy .., rfl, hagain, fun _ => ⟨rfl, rfl⟩, nofun, rfl⟩

/-! ## The obligation -/

/-- Settles O34: each command by what the field or SVCEN may become, and by whether a store write is under way or owed. -/
theorem optionCommandsTakeEffect : Obligations.OptionCommandsTakeEffect := by
  unfold Obligations.OptionCommandsTakeEffect
  refine ⟨fun s sid x p h v hv => ⟨fun o hfield => optionSet_takesEffect h hv hfield, fun _ hlen hlow hhigh => optField_mainBud _ hlen hlow hhigh,
      fun hlock _ hback => execOptionSet_badParam h hv (by rw [hlock]; exact optField_lock_lowered hback),
      fun hoff => execOptionSet_notPermitted h hv (optField_of_other_offset _ _ hoff)⟩,
    fun s sid x p h => ⟨fun hbad => execServicePort_bad h hbad, fun hok => servicePort_takesEffect h hok⟩,
    fun pulses k v s hwriting _ => optionWriteDone_takesEffect pulses hwriting⟩

end Sys2Proof.Machine
end

section
/-! `ctx stop` on the service line, of a watch context whose mandatory part awaits its completion (R297, R563; entry 96 of the assumption
log). -/

namespace Sys2Proof.Machine

open Sys2Proof

/-- A Ready module of its own with an opened Kennel. Its watch context waits with no thread bound, and the mandatory part of its period
is not complete. -/
def watchAwaitingMandatory : State :=
  { life := { phase := .ready }
    kennel := { state := .unlocked }
    ctxs := [(0, { state := .waiting })]
    watch := { mandatory := true } }

/-- The state of the watch context after `ctx stop 0`. -/
def watchAfterStop : Option CState :=
  match exec (.kennelCtxStop 0) watchAwaitingMandatory with
  | .next t => some (t.ctx 0).state
  | _ => none

theorem watchAfterStop_waits : watchAfterStop = some .waiting := by decide +kernel

/-- Refutes O37: a stop of the watch context is owed while its mandatory part awaits completion, also where no thread of the context runs,
while the statement has every idle context Stopped at once. -/
theorem not_kennelChangesTakeEffect : ¬ Obligations.KennelChangesTakeEffect := by
  rintro ⟨hcontexts, -⟩
  obtain ⟨-, -, -, hstop, -⟩ := hcontexts watchAwaitingMandatory 0 (by decide) (by decide) (by decide) (by decide) (by decide) (by decide)
  obtain ⟨t, hexec, hstate, -⟩ := hstop (.inr (.inr ⟨by decide, by decide⟩))
  have hstopped : watchAfterStop = some .stopped := by
    unfold watchAfterStop
    rw [hexec]
    exact congrArg some hstate
  rw [watchAfterStop_waits] at hstopped
  exact absurd hstopped (by decide)

end Sys2Proof.Machine
end

section
/-! An event under a code of its own (R452, R457), and events one after the other. -/

namespace Sys2Proof.Machine

open Sys2Proof

theorem logged_troubleAs (s : State) (w b : Nat) (e : LogEv) (hw : w < 3) (hb : b < 32) : Logged s (s.troubleAs w b e) [(w, b)] := by
  obtain ⟨c, d, lo, co, ou, hevent, hbits⟩ := troubleAs_eq s w b e hw hb
  rw [hevent]
  exact ⟨rfl, ⟨ou, rfl⟩, fun v k hv => by simp [hbits v k hv]⟩

/-- A second event of the same trouble bits. -/
theorem Logged.again {u t v : State} {bits : List (Nat × Nat)} (hfirst : Logged u t bits) (hsecond : Logged t v bits) : Logged u v bits := by
  obtain ⟨hrest, ⟨more, hout⟩, hbits⟩ := hfirst
  obtain ⟨hrest', ⟨more', hout'⟩, hbits'⟩ := hsecond
  refine ⟨?_, ⟨more ++ more', by rw [hout', hout, List.append_assoc]⟩, fun w k hw => ?_⟩
  · rw [← hrest'] at hrest
    exact hrest
  · rw [hbits' w k hw, hbits w k hw, Bool.or_assoc, Bool.or_self]

end Sys2Proof.Machine
end

section
/-! LINK_TRAINED, HELLO_FRAME, IDLE_FRAME, IDLE_SEND, CREDIT_FRAME, CREDIT_RETURN and PACK_FRAME_CRC_FAIL (R317 to R320, R325, R326). -/

namespace Sys2Proof.Machine

open Sys2Proof

variable {s t u : State} {port : Nat} {h : PackHdr}

/-! ## Frames of class 0, and ports with nothing queued -/

/-- Link control leaves at once, with the ACK of the port. -/
theorem sendOn_control (s : State) (port : Nat) (h : PackHdr) {b : PackBody} (hcontrol : b.cls = 0) :
    s.sendOn port h b = s.emit (.frame port { h with len := b.bytes, ack := ((s.pport port).rxSeq + 65535) % 65536 } b) := if_pos hcontrol

theorem drainPort_of_no_queue (hqueue : (s.pport port).queue = []) : s.drainPort port (s.pport port).queue.length = s := by
  rw [hqueue]
  rfl

/-- A change of a port that leaves its queue empty starts no frame. -/
theorem drainPort_updPort {f : PackPort → PackPort} (hqueue : (f (s.pport port)).queue = []) :
    (s.updPort port f).drainPort port ((s.updPort port f).pport port).queue.length = s.updPort port f :=
  drainPort_of_no_queue (by rw [State.updPort_pport_same, hqueue])

theorem takeAck_of_no_queue (ack : Nat) (hqueue : (s.pport port).queue = []) :
    s.takeAck port ack = s.updPort port (fun p => { p with replay := ackDrop ack p.replay }) := drainPort_updPort hqueue

theorem updPort_congr {f g : PackPort → PackPort} (hsame : f (s.pport port) = g (s.pport port)) : s.updPort port f = s.updPort port g := by
  have htab : Tab.upd ({} : PackPort) s.pack.ports port f = Tab.upd {} s.pack.ports port g :=
    congrArg (Tab.set ({} : PackPort) s.pack.ports port) hsame
  rw [State.updPort, htab, State.updPort]

/-! ## Training and HELLO, R317, R318 -/

/-- A port that has trained: a new sequence, no frame held, full credits. -/
def PackPort.trained (p : PackPort) : PackPort :=
  { p with state := 2, txSeq := 0, rxSeq := 0, replay := [], credits := [], owed := [], queue := [] }

theorem sendHello_eq (s : State) (port : Nat) : s.sendHello port
    = (s.updPort port PackPort.trained).emit (.frame port { src := s.optv.ppos, len := 40, ack := 65535 } (s.hello port)) := by
  have hack : ((s.updPort port PackPort.trained).pport port).rxSeq = 0 := by rw [State.updPort_pport_same]; rfl
  have hsend := sendOn_control (s.updPort port PackPort.trained) port (s.hdr 0 0) (b := s.hello port) rfl
  rw [hack] at hsend
  exact hsend

theorem execLinkTrained_sends (hup : s.packUp = true) (hused : portUsed port s.optv.psize = true) (hstate : (s.pport port).state ∈ [1, 4, 5]) :
    exec (.linkTrained port) s = .next (s.sendHello port) :=
  (if_pos ⟨hup, hused, hstate⟩ : execLinkTrained port s = _)

theorem linkTrained_takesEffect (hup : s.packUp = true) (hused : portUsed port s.optv.psize = true) (hstate : (s.pport port).state ∈ [1, 4, 5]) :
    ∃ t, exec (.linkTrained port) s = .next t ∧ OnPort s t port ∧ t.pport port = (s.pport port).trained
      ∧ t.out = s.out ++ [.frame port { src := s.optv.ppos, len := 40, ack := 65535 } (s.hello port)] := by
  refine ⟨_, execLinkTrained_sends hup hused hstate, sendHello_onPort s port, ?_, ?_⟩
  · rw [sendHello_eq]
    exact State.updPort_pport_same ..
  · rw [sendHello_eq]
    rfl

section
variable {packId pos size peer epoch imageId level : Nat} (hup : s.packUp = true) (hused : portUsed port s.optv.psize = true) (hver : h.ver = 1)
  (hstate : (s.pport port).state = 2)
include hup hused hver hstate

theorem execHelloFrame_fits (hfits : s.helloFits port packId pos peer level = true) (hconflict : s.helloConflict port pos = false) :
    exec (.helloFrame port h packId pos size peer epoch imageId level) s
      = .next (s.updPort port (fun p => { p with state := 3, peer := pos, peerPort := peer, imageId := imageId })) := by
  change execHelloFrame port h packId pos size peer epoch imageId level s = _
  unfold execHelloFrame
  dsimp only
  rw [if_neg (by simp [hup, hused, hver, hstate]), if_pos hstate, if_pos ⟨hfits, hconflict⟩]

/-- Trouble that a miswired port raises, and the conflict that the lead logs besides. -/
theorem execHelloFrame_unfit (hunfit : s.helloFits port packId pos peer level = false) :
    ∃ t, exec (.helloFrame port h packId pos size peer epoch imageId level) s = .next t
      ∧ Logged (s.updPort port (fun p => { p with state := 5, peer := pos % 64, peerPort := peer % 4, imageId := imageId })) t [(2, 12)] := by
  have hfirst := logged_trouble (s.updPort port (fun p => { p with state := 5, peer := pos % 64, peerPort := peer % 4, imageId := imageId }))
    2 12 0 6 0xFF [port, pos, size, epoch % 256] (by decide) (by decide)
  change ∃ t, execHelloFrame port h packId pos size peer epoch imageId level s = .next t ∧ _
  unfold execHelloFrame
  dsimp only
  rw [if_neg (by simp [hup, hused, hver, hstate]), if_pos hstate, if_neg (by simp [hunfit])]
  split
  · exact ⟨_, rfl, hfirst.again (logged_troubleAs _ 2 12 _ (by decide) (by decide))⟩
  · exact ⟨_, rfl, hfirst⟩

end

theorem helloFits_iff {packId pos peer level : Nat} : s.helloFits port packId pos peer level = true
    ↔ packId = s.optv.packId ∧ pos = peerPos port s.optv.ppos s.optv.psize ∧ peer = peerPort port ∧ level = s.optv.level :=
  decide_eq_true_iff

theorem helloFits_false_of_or {packId pos peer level : Nat}
    (hunfit : packId ≠ s.optv.packId ∨ pos ≠ peerPos port s.optv.ppos s.optv.psize ∨ peer ≠ peerPort port ∨ level ≠ s.optv.level) :
    s.helloFits port packId pos peer level = false := by
  rw [Bool.eq_false_iff, ne_eq, helloFits_iff]
  tauto

/-! ## IDLE, NAK and CREDIT, R320, R325, R326 -/

section
variable (hup : s.packUp = true) (hlive : s.portLive port = true)
include hup hlive

theorem execIdleFrame_frees {i : Nat} (hver : h.ver = 1) (hqueue : (s.pport port).queue = [])
    (hcovered : (s.pport port).replay.findIdx? (fun r => decide (r.1.lseq = h.ack)) = some i) :
    exec (.idleFrame port h) s = .next (s.updPort port (fun p => { p with replay := p.replay.drop (i + 1) })) := by
  have hdrop : ackDrop h.ack (s.pport port).replay = (s.pport port).replay.drop (i + 1) := by
    unfold ackDrop
    rw [hcovered]
  have hack : s.takeAck port h.ack = s.updPort port (fun p => { p with replay := p.replay.drop (i + 1) }) := by
    rw [takeAck_of_no_queue h.ack hqueue]
    exact updPort_congr (by rw [hdrop])
  rw [← hack]
  exact if_pos ⟨hup, hlive, hver⟩

theorem execIdleSend_sends (hqueue : (s.pport port).queue = []) :
    exec (.idleSend port) s
      = .next { s with out := s.out ++ [.frame port { src := s.optv.ppos, dst := (s.pport port).peer, ack := ((s.pport port).rxSeq + 65535) % 65536 } .idle] } :=
  (if_pos ⟨hup, hlive, by rw [hqueue]; rfl⟩ : execIdleSend port s = .next (s.sendOn port (s.hdr (s.pport port).peer 0) .idle))

theorem execPackFrameCrcFail_naks :
    exec (.packFrameCrcFail port) s
      = .next { s with out := s.out ++ [.frame port { src := s.optv.ppos, dst := (s.pport port).peer, len := 4, ack := ((s.pport port).rxSeq + 65535) % 65536 }
          (.nak (s.pport port).rxSeq)] } :=
  (if_pos ⟨hup, hlive⟩ : execPackFrameCrcFail port s = .next (s.sendOn port (s.hdr (s.pport port).peer 0) (.nak (s.pport port).rxSeq)))

theorem creditReturn_takesEffect (howed : (s.pport port).owed ≠ []) :
    ∃ t, exec (.creditReturn port) s = .next t ∧ OnPort s t port ∧ t.pport port = { s.pport port with owed := [] }
      ∧ t.out = s.out ++ [.frame port { src := s.optv.ppos, dst := (s.pport port).peer, len := 12, ack := ((s.pport port).rxSeq + 65535) % 65536 }
          (.credit ((List.range 6).map (fun i => Tab.get 0 (s.pport port).owed (i + 1))))] := by
  have hpport : (s.updPort port (fun p => { p with owed := [] })).pport port = { s.pport port with owed := [] } := State.updPort_pport_same ..
  refine ⟨_, (if_pos ⟨hup, hlive, howed⟩ : execCreditReturn port s = _), onPort_trans (updPort_onPort s port _) (sendOn_onPort _ port _ _), ?_, ?_⟩
  · rw [sendOn_control _ _ _ rfl]
    exact hpport
  · rw [sendOn_control _ _ _ rfl, hpport]
    rfl

end

/-! ## CREDIT -/

/-- The credits of a port after a CREDIT has named those of the first `n` classes. -/
def creditsAdded (credits : List Nat) (held : Tab Nat) (n : Nat) : Tab Nat :=
  (List.range n).foldl (fun t i => Tab.set (creditMax (i + 1)) t (i + 1) (min (creditMax (i + 1)) (Tab.get (creditMax (i + 1)) t (i + 1) + credits.getD i 0))) held

theorem creditsAdded_succ (credits : List Nat) (held : Tab Nat) (n : Nat) : creditsAdded credits held (n + 1)
    = Tab.set (creditMax (n + 1)) (creditsAdded credits held n) (n + 1)
        (min (creditMax (n + 1)) (Tab.get (creditMax (n + 1)) (creditsAdded credits held n) (n + 1) + credits.getD n 0)) := by
  rw [creditsAdded, List.range_succ, List.foldl_append]
  rfl

/-- A write at one number leaves the others, whatever an unlisted number stands for. -/
theorem get_set_otherDefault {α : Type} [DecidableEq α] (d e : α) (t : Tab α) (k j : Nat) (v : α) (hne : k ≠ j) :
    Tab.get e (Tab.set d t k v) j = Tab.get e t j := by
  unfold Tab.set
  split
  · rw [Tab.get_drop, if_neg hne]
  · rw [Tab.get_put, if_neg hne, Tab.get_drop, if_neg hne]

theorem creditsAdded_get (credits : List Nat) (held : Tab Nat) (n c : Nat) (hc : 1 ≤ c) : Tab.get (creditMax c) (creditsAdded credits held n) c
    = if c ≤ n then min (creditMax c) (Tab.get (creditMax c) held c + credits.getD (c - 1) 0) else Tab.get (creditMax c) held c := by
  induction n with
  | zero => rw [if_neg (by omega)]; rfl
  | succ n ih =>
    rw [creditsAdded_succ]
    by_cases hlast : n + 1 = c
    · subst hlast
      rw [Tab.get_set_same, ih, if_neg (by omega), if_pos (le_refl _)]
      rfl
    · rw [get_set_otherDefault _ _ _ _ _ _ hlast, ih]
      exact if_congr (by omega) rfl rfl

theorem creditFrame_takesEffect (credits : List Nat) (hup : s.packUp = true) (hlive : s.portLive port = true) (hver : h.ver = 1)
    (hqueue : (s.pport port).queue = []) :
    ∃ t, exec (.creditFrame port h credits) s = .next t ∧ OnPort s t port ∧ t.out = s.out ∧ (t.pport port).state = 3 ∧ (t.pport port).txSeq = (s.pport port).txSeq
      ∧ ∀ c, 1 ≤ c → c ≤ 6 → Tab.get (creditMax c) (t.pport port).credits c
        = min (creditMax c) (Tab.get (creditMax c) (s.pport port).credits c + credits.getD (c - 1) 0) := by
  have hexec : exec (.creditFrame port h credits) s
      = .next ((s.updPort port (fun p => { p with replay := ackDrop h.ack p.replay })).updPort port (fun p => { p with credits := creditsAdded credits p.credits 6 })) := by
    change execCreditFrame port h credits s = _
    unfold execCreditFrame
    rw [if_pos ⟨hup, hlive, hver⟩, takeAck_of_no_queue h.ack hqueue]
    exact congrArg Host.Outcome.next (drainPort_updPort (by rw [State.updPort_pport_same]; exact hqueue))
  refine ⟨_, hexec, onPort_trans (updPort_onPort s port _) (updPort_onPort _ port _), rfl, ?_, ?_, fun c hlow hhigh => ?_⟩
  · rw [State.updPort_pport_same, State.updPort_pport_same]
    exact of_decide_eq_true hlive
  · rw [State.updPort_pport_same, State.updPort_pport_same]
  · rw [State.updPort_pport_same, State.updPort_pport_same, creditsAdded_get _ _ _ _ hlow, if_pos hhigh]

/-! ## The obligation -/

/-- Settles O43: each command by what its port is and holds. -/
theorem packLinksTrainAndCarryControl : Obligations.PackLinksTrainAndCarryControl := by
  refine ⟨fun s port hup hused hstate => linkTrained_takesEffect hup hused hstate,
    fun s port h packId pos size peer epoch imageId level hup hused hver hstate => ⟨fun hid hpos hpeer hlevel hconflict => ?_,
      fun hunfit => execHelloFrame_unfit hup hused hver hstate (helloFits_false_of_or hunfit)⟩,
    fun s port h i hup hlive hver hqueue hcovered => execIdleFrame_frees hup hlive hver hqueue hcovered,
    fun s port hup hlive => ⟨execIdleSend_sends hup hlive, execPackFrameCrcFail_naks hup hlive, creditReturn_takesEffect hup hlive⟩,
    fun s port h credits hup hlive hver hqueue => creditFrame_takesEffect credits hup hlive hver hqueue⟩
  exact ⟨_, execHelloFrame_fits hup hused hver hstate (helloFits_iff.mpr ⟨hid, hpos, hpeer, hlevel⟩) hconflict, updPort_onPort s port _, rfl,
    State.updPort_pport_same ..⟩

end Sys2Proof.Machine
end

section
/-! What the close of an interval of a context changes (R135, R142, R143): the clip records and their snapshots, the context's entry,
what the lead holds of snapshots, and what an event and a message touch. -/

namespace Sys2Proof.Machine

open Sys2Proof

/-- The state with what the close of an interval changes as it is in `s`. -/
def State.reopened (t s : State) : State :=
  { t with
    life := { t.life with commit := s.life.commit, storedStamp := s.life.storedStamp }, logs := s.logs, comms := s.comms, out := s.out
    engines := s.engines, cores := s.cores, ctxs := s.ctxs
    pack := { t.pack with ports := s.pack.ports, sent := s.pack.sent, snaps := s.pack.snaps, scaleSend := s.pack.scaleSend } }

/-- `t` is `s` but for what the close of an interval changes. -/
def Closed (s t : State) : Prop := t.reopened s = s

variable (s : State) {t u : State}

theorem closed_refl : Closed s s := rfl

variable {s}

theorem Closed.trans (h : Closed s t) (g : Closed t u) : Closed s u := ((congrArg (State.reopened · s) g :)).trans h

/-- A part of the state that looks at nothing of what the close of an interval changes. -/
theorem Closed.part {α : Type} (h : Closed s t) (g : State → α) (hg : ∀ v w : State, g (v.reopened w) = g v) : g t = g s :=
  (hg t s).symm.trans (congrArg g h)

variable (s)

theorem closed_each {α : Type} {f : State → α → State} (hf : ∀ v n, Closed v (f v n)) (l : List α) : Closed s (s.each l f) := by
  induction l generalizing s with
  | nil => exact closed_refl s
  | cons n ns ih => exact (hf s n).trans (ih _)

theorem closed_updCtx (c : Nat) (f : Ctx → Ctx) : Closed s (s.updCtx c f) := rfl
theorem closed_updClip (c k m n : Nat) (f : ClipRec → ClipRec) : Closed s (s.updClip c k m n f) := rfl
theorem closed_updSnap (c k m n : Nat) (f : ClipRec → ClipRec) : Closed s (s.updSnap c k m n f) := rfl
theorem closed_updEngine (e : Nat) (f : Engine → Engine) : Closed s (s.updEngine e f) := rfl

theorem closed_snaps (sent : List Sent) (snaps : Tab (List (Nat × List UnitStat))) (l : List Nat) :
    Closed s { s with pack := { s.pack with sent := sent, snaps := snaps, scaleSend := l } } := rfl

theorem closed_trouble (w b loc unit c : Nat) (l : List Nat) : Closed s (s.trouble w b loc unit c l) := by
  obtain ⟨co, st, lo, cm, ou, h⟩ := trouble_parts s w b loc unit c l
  rw [h]
  exact rfl

theorem closed_packSend (d c : Nat) (b : PackBody) : Closed s (s.packSend d c b) :=
  (congrArg (State.reopened · s) (packSend_onPorts s d c b).1 :)

theorem closed_setScale (c : Nat) (q : ReqPoint) (k : Nat) (u : UnitScale) : Closed s (s.setScale c q k u) :=
  closed_each s (fun _ _ => closed_updClip ..) _

theorem closed_scaleEvents (q : ReqPoint) (c : Nat) (a b : UnitScale) : Closed s (s.scaleEvents q c a b) := by
  unfold State.scaleEvents
  dsimp only
  split
  · split
    · exact (closed_trouble ..).trans (closed_trouble ..)
    · exact closed_trouble ..
  · split
    · exact closed_trouble ..
    · exact closed_refl s

theorem closed_zeroScales (c : Nat) (m : Member) : Closed s (s.zeroScales c m) := closed_each s (fun _ _ => closed_setScale ..) _

theorem closed_adaptAll (c : Nat) (m : Member) (large events : Bool) (stat : State → ReqPoint → Nat → Nat → UnitStat) :
    Closed s (s.adaptAll c m large events stat) := by
  refine closed_each s (fun v n => ?_) _
  dsimp only
  split
  · exact closed_refl v
  · split
    · exact (closed_setScale ..).trans (closed_scaleEvents ..)
    · exact closed_setScale ..

theorem closed_snapScales (c : Nat) (m : Member) : Closed s (s.snapScales c m) :=
  closed_each s (fun v _ => closed_each v (fun _ _ => closed_updSnap ..) _) _

theorem closed_zeroCounts (c : Nat) (m : Member) : Closed s (s.zeroCounts c m) :=
  closed_each s (fun v _ => closed_each v (fun _ _ => closed_updClip ..) _) _

theorem closed_snapCounts (c : Nat) (m : Member) : Closed s (s.snapCounts c m) :=
  closed_each s (fun v _ => closed_each v (fun _ _ => closed_updSnap ..) _) _

theorem closed_applySnaps (c : Nat) : Closed s (s.applySnaps c) := by
  unfold State.applySnaps
  split
  · dsimp only
    split
    · exact closed_snaps ..
    · exact ((closed_snaps s _ _ _).trans (closed_adaptAll ..)).trans (closed_snapScales ..)
  · exact closed_refl s

theorem closed_noteSnap (c pos : Nat) (u : List UnitStat) : Closed s (s.noteSnap c pos u) := by
  unfold State.noteSnap
  split
  · split
    · split
      · exact closed_adaptAll ..
      · exact closed_refl s
    · exact closed_refl s
  · dsimp only
    split
    · exact (closed_snaps s _ _ _).trans (closed_applySnaps _ c)
    · exact closed_snaps ..

theorem closed_giveSnap (c : Nat) (u : List UnitStat) : Closed s (s.giveSnap c u) := by
  unfold State.giveSnap
  split
  · exact closed_noteSnap ..
  · exact (closed_packSend ..).trans (closed_snaps ..)

theorem closed_closeLocal (c : Nat) (m : Member) : Closed s (s.closeLocal c m) := by
  have hcolumns (v : State) : Closed v (v.closeColumns c) := closed_each v (fun _ _ => closed_updEngine ..) _
  unfold State.closeLocal
  dsimp only
  refine (closed_snapCounts s c m).trans (Closed.trans ?_ ((closed_zeroCounts _ c m).trans ((closed_snapScales _ c m).trans (hcolumns _))))
  split
  · exact (closed_zeroScales ..).trans (closed_updCtx ..)
  · split
    · exact closed_updCtx ..
    · exact (closed_adaptAll ..).trans (closed_updCtx ..)

theorem closed_closeInterval (c : Nat) : Closed s (s.closeInterval c) := by
  unfold State.closeInterval
  split
  · exact closed_refl s
  · dsimp only
    split
    · exact closed_closeLocal ..
    · exact (closed_closeLocal ..).trans (closed_giveSnap ..)

end Sys2Proof.Machine
end

section
/-! What contexts, units, reports, passes and links never touch: the membership of the pack, what WRITE_DONE has covered, the options
and the trust anchors (R312, R330). -/

namespace Sys2Proof.Machine

open Sys2Proof

/-- The membership that this member has adopted, its election, the writes that are covered, options and trust. -/
structure Charter where
  epoch : Nat
  live : Nat
  lead : Nat
  hasLead : Bool
  source : Nat
  standby : Nat
  run : Nat
  detached : Bool
  admitted : Bool
  electing : Bool
  claim : Option (Nat × List Nat)
  lowestClaim : Option Nat
  wacked : Tab Nat
  opt : Options
  trust : Trust

/-- The charter of a member. -/
def State.charter (s : State) : Charter :=
  { epoch := s.pack.epoch, live := s.pack.live, lead := s.pack.lead, hasLead := s.pack.hasLead, source := s.pack.source
    standby := s.pack.standby, run := s.pack.run, detached := s.pack.detached, admitted := s.pack.admitted
    electing := s.pack.electing, claim := s.pack.claim, lowestClaim := s.pack.lowestClaim, wacked := s.pack.wacked
    opt := s.opt, trust := s.trust }

variable (s : State) {t : State}

theorem charter_of_parts (hpack : t.pack = s.pack) (hopt : t.opt = s.opt) (htrust : t.trust = s.trust) : t.charter = s.charter := by
  rw [State.charter, hpack, hopt, htrust, State.charter]

/-! ## Plain updates -/

@[simp] theorem updCtx_charter (c : Nat) (f : Ctx → Ctx) : (s.updCtx c f).charter = s.charter := rfl
@[simp] theorem updThread_charter (t : Nat) (f : Thread → Thread) : (s.updThread t f).charter = s.charter := rfl
@[simp] theorem updRing_charter (r : Nat) (f : Ring → Ring) : (s.updRing r f).charter = s.charter := rfl
@[simp] theorem updCounter_charter (k : Nat) (f : Counter → Counter) : (s.updCounter k f).charter = s.charter := rfl
@[simp] theorem updMem_charter (f : Memory → Memory) : (s.updMem f).charter = s.charter := rfl
@[simp] theorem updSess_charter (n : Nat) (f : Session → Session) : (s.updSess n f).charter = s.charter := rfl
@[simp] theorem updPass_charter (c : Nat) (f : PackPass → PackPass) : (s.updPass c f).charter = s.charter := rfl
@[simp] theorem setPass_charter (c : Nat) (q : Option Pass) : (s.setPass c q).charter = s.charter := rfl
@[simp] theorem setUsed_charter (h n : Nat) : (s.setUsed h n).charter = s.charter := rfl
@[simp] theorem freeLines_charter (k e : Nat) : (s.freeLines k e).charter = s.charter := rfl
@[simp] theorem leavePass_charter (c : Nat) : (s.leavePass c).charter = s.charter := rfl
@[simp] theorem commit_charter : s.commit.charter = s.charter := rfl
@[simp] theorem emit_charter (o : Out) : (s.emit o).charter = s.charter := rfl
@[simp] theorem sendSignal_charter (g : Signal) : (s.sendSignal g).charter = s.charter := rfl
@[simp] theorem stepDone_charter (t : Nat) : (s.stepDone t).charter = s.charter := rfl
@[simp] theorem zeroState_charter (m : Member) : (s.zeroState m).charter = s.charter := rfl
@[simp] theorem placeRing_charter : s.placeRing.charter = s.charter := rfl
@[simp] theorem clearUnfenced_charter (c : Nat) (l : List (Nat × Nat)) : (s.clearUnfenced c l).charter = s.charter := rfl
@[simp] theorem refreshCtx_charter (c : Nat) : (s.refreshCtx c).charter = s.charter := rfl

@[simp] theorem notify_charter (sid op c : Nat) (st : Status) (d : Nat) (l : List Tlv) : (s.notify sid op c st d l).charter = s.charter :=
  charter_of_parts s (by simp) (by simp) (by simp)

@[simp] theorem complete_charter (who : Option (Nat × Nat)) (op c : Nat) (st : Status) (d : Nat) (l : List Tlv) :
    (s.complete who op c st d l).charter = s.charter :=
  charter_of_parts s (by simp) (by simp) (by simp)

@[simp] theorem trouble_charter (w b loc u c : Nat) (l : List Nat) : (s.trouble w b loc u c l).charter = s.charter :=
  charter_of_parts s (by simp) (by simp) (by simp)

@[simp] theorem raise_charter (w b u : Nat) : (s.raise w b u).charter = s.charter := trouble_charter ..

theorem troubleAs_charter {w b : Nat} (e : LogEv) (hw : w < 3) (hb : b < 32) : (s.troubleAs w b e).charter = s.charter := by
  obtain ⟨c, d, lo, co, ou, h, -⟩ := troubleAs_eq s w b e hw hb
  rw [h]
  rfl

/-- What changes ports and what leaves the module keeps the charter. -/
theorem onPorts_charter {s t : State} (h : OnPorts s t) : t.charter = s.charter := (congrArg State.charter h.1 :)

@[simp] theorem packSend_charter (d c : Nat) (b : PackBody) : (s.packSend d c b).charter = s.charter :=
  onPorts_charter (packSend_onPorts s d c b)

@[simp] theorem packSendP_charter (d c : Nat) (p : Bool) (b : PackBody) : (s.packSendP d c p b).charter = s.charter :=
  onPorts_charter (packSendP_onPorts s d c p b)

@[simp] theorem flood_charter (c : Nat) (b : PackBody) : (s.flood c b).charter = s.charter := onPorts_charter (flood_onPorts s c b)

/-- What wakes, notifies and a released barrier change keeps the charter. -/
theorem Roused.charter {s t : State} (h : Roused s t) : t.charter = s.charter := h.part State.charter fun _ _ => rfl

@[simp] theorem askPower_charter (d : Dom) (c : Nat) : (s.askPower d c).charter = s.charter := (roused_askPower s d c).charter

@[simp] theorem releaseBarrier_charter (c id a b : Nat) : (s.releaseBarrier c id a b).charter = s.charter :=
  (roused_releaseBarrier s c id a b).charter

@[simp] theorem syncIngest_charter : s.syncIngest.charter = s.charter := by
  unfold State.syncIngest
  (repeat' split) <;> rfl

@[simp] theorem stopDone_charter (c : Nat) (who : List (Nat × Nat)) : (s.stopDone c who).charter = s.charter :=
  foldl_part State.charter (fun _ _ => complete_charter ..) who s

/-! ## Threads, rings and counters of a context -/

@[simp] theorem orphan_charter (k : Nat) : (s.orphan k).charter = s.charter :=
  (roused_thresholdsNotify _ _ _ _).charter.trans (roused_orphanWake _ _ _).charter

@[simp] theorem orphanAll_charter (c : Nat) : (s.orphanAll c).charter = s.charter :=
  each_part State.charter orphan_charter _ s

@[simp] theorem freeCounter_charter (k : Nat) : (s.freeCounter k).charter = s.charter := by
  unfold State.freeCounter
  dsimp only
  split <;> rfl

@[simp] theorem endCounter_charter (c k : Nat) : (s.endCounter c k).charter = s.charter := by
  unfold State.endCounter
  dsimp only
  split <;> simp

@[simp] theorem endCounters_charter (c : Nat) : (s.endCounters c).charter = s.charter :=
  (each_part State.charter (fun v k => endCounter_charter v c k) _ _).trans (foldl_part State.charter (fun _ _ => trouble_charter ..) _ s)

@[simp] theorem withdraw_charter (t : Nat) : (s.withdraw t).charter = s.charter := by
  refine each_part State.charter (fun v k => ?_) (s.sync.counters.map Prod.fst) s
  dsimp only
  split
  · rfl
  · exact foldl_part State.charter (fun _ _ => by rfl) _ _

@[simp] theorem freeThreads_charter (c : Nat) : (s.freeThreads c).charter = s.charter :=
  each_part State.charter (fun v t => by exact withdraw_charter v t) _ s

@[simp] theorem faultThreads_charter (c : Nat) : (s.faultThreads c).charter = s.charter :=
  each_part State.charter (fun v t => by exact withdraw_charter v t) _ s

@[simp] theorem unbindRings_charter (c : Nat) : (s.unbindRings c).charter = s.charter :=
  each_part State.charter (fun _ _ => by rfl) _ s

@[simp] theorem dropSchedule_charter (c : Nat) : (s.dropSchedule c).charter = s.charter := by
  unfold State.dropSchedule
  split <;> rfl

@[simp] theorem endCtx_charter (c : Nat) : (s.endCtx c).charter = s.charter := by
  simp [endCtx_eq]

@[simp] theorem stopNow_charter (c : Nat) : (s.stopNow c).charter = s.charter := by
  simp [State.stopNow]

@[simp] theorem runsFailed_charter (c k : Nat) : (s.runsFailed c k).charter = s.charter := by
  unfold State.runsFailed State.runFailed
  dsimp only
  (repeat' split) <;> simp

@[simp] theorem dropCtx_charter (c k : Nat) : (s.dropCtx c k).charter = s.charter := by
  simp [State.dropCtx]

theorem faultCtx_charter {b : Nat} (c code loc : Nat) (l : List Nat) (hb : b < 32) : (s.faultCtx c b code loc l).charter = s.charter := by
  have hfault (v : State) (e : LogEv) (f : Ctx → Ctx) :
      (((v.dropCtx c code).updCtx c f).syncIngest.commit.troubleAs 2 b e).charter = v.charter := by
    rw [troubleAs_charter _ _ (by decide) hb, commit_charter, syncIngest_charter, updCtx_charter, dropCtx_charter]
  have hwatch (d : Prop) [Decidable d] : (if d then { s with watch := s.watchLost } else s).charter = s.charter := by
    split <;> rfl
  unfold State.faultCtx
  dsimp only
  split
  · split
    · exact (hfault _ _ _).trans (hwatch _)
    · exact (stopNow_charter _ c).trans ((hfault _ _ _).trans (hwatch _))
  · rfl

/-! ## The start of a context -/

theorem bindCounter_charter {c : Nat} {d : CtrDecl} {s t : State} (h : s.bindCounter c d = some t) : t.charter = s.charter := by
  obtain ⟨k, -, rfl⟩ := Option.map_eq_some_iff.mp h
  exact askPower_charter ..

theorem bindCounters_charter {c : Nat} {ds : List CtrDecl} {s t : State} (h : s.bindCounters c ds = some t) : t.charter = s.charter := by
  induction ds generalizing s with
  | nil => rw [← Option.some.inj h]
  | cons d ds ih =>
    obtain ⟨u, hu, hrest⟩ := Option.bind_eq_some_iff.mp h
    exact (ih hrest).trans (bindCounter_charter hu)

theorem bindCtx_charter {c : Nat} {i : Image} {m : Member} {s t : State} (h : s.bindCtx c i m = some t) : t.charter = s.charter := by
  unfold State.bindCtx at h
  dsimp only at h
  split_ifs at h
  obtain ⟨u, hu, rfl⟩ := Option.map_eq_some_iff.mp h
  rw [updCtx_charter]
  refine (each_part State.charter (fun v k => ?_) _ _).trans ((each_part State.charter (fun v k => ?_) _ u).trans ((bindCounters_charter hu).trans ?_))
  · split <;> rfl
  · exact askPower_charter ..
  · exact (unbindRings_charter _ c).trans (freeThreads_charter s c)

@[simp] theorem begin_charter (c : Nat) (m : Member) : (s.begin c m).charter = s.charter := by
  refine (syncIngest_charter _).trans ?_
  split <;> rfl

@[simp] theorem shedCtx_charter (c : Nat) : (s.shedCtx c).charter = s.charter := by
  unfold State.shedCtx
  dsimp only
  split
  · exact trouble_charter ..
  · exact trouble_charter ..

@[simp] theorem startCtx_charter (c : Nat) : (s.startCtx c).2.charter = s.charter := by
  obtain ⟨st, -, h⟩ | ⟨i, m, -, -, h⟩ | ⟨i, m, v, -, hbind, h⟩ := startCtx_cases s c
  · rw [h]
  · rw [h]
  · have hv : v.charter = s.charter := (bindCtx_charter hbind).trans rfl
    rw [h]
    split <;> simp [hv]

/-! ## The close of an interval -/

@[simp] theorem closeInterval_charter (c : Nat) : (s.closeInterval c).charter = s.charter :=
  (closed_closeInterval s c).part State.charter fun _ _ => rfl

@[simp] theorem setScale_charter (c : Nat) (q : ReqPoint) (k : Nat) (u : UnitScale) : (s.setScale c q k u).charter = s.charter :=
  (closed_setScale s c q k u).part State.charter fun _ _ => rfl

@[simp] theorem setUnits_charter (c : Nat) (m : Member) (l : List UnitScale) : (s.setUnits c m l).charter = s.charter := by
  refine each_part State.charter (fun v u => ?_) l s
  split
  · exact setScale_charter ..
  · rfl

/-! ## Records -/

@[simp] theorem issueOne_charter (r : ResultRec) : (s.issueOne r).charter = s.charter := by
  refine each_part State.charter (fun v n => ?_) _ _
  split
  · split
    · exact notify_charter ..
    · rfl
  · rfl

@[simp] theorem issueTroubles_charter (rs : List ResultRec) : (s.issueTroubles rs).charter = s.charter := by
  unfold State.issueTroubles
  refine (foldl_part State.charter (fun v r => ?_) rs _).trans ?_
  · split
    · exact trouble_charter ..
    · rfl
  · split
    · exact raise_charter ..
    · rfl

@[simp] theorem sendRecord_charter (r : ResultRec) : (s.sendRecord r).charter = s.charter := packSend_charter ..

@[simp] theorem issue_charter (rs : List ResultRec) : (s.issue rs).charter = s.charter := by
  unfold State.issue
  split
  · rfl
  · split
    · rw [issueTroubles_charter]
      exact foldl_part State.charter issueOne_charter rs s.commit
    · exact foldl_part State.charter sendRecord_charter rs s

@[simp] theorem leadTake_charter (pos n : Nat) (r : ResultRec) : (s.leadTake pos n r).charter = s.charter := by
  unfold State.leadTake
  (repeat' split) <;> simp

@[simp] theorem sendShare_charter (r : ResultRec) : (s.sendShare r).charter = s.charter := by
  unfold State.sendShare
  split <;> simp

@[simp] theorem issueSeg_charter (c : Nat) (r : ResultRec) : (s.issueSeg c r).charter = s.charter := by
  unfold State.issueSeg
  (repeat' split) <;> simp

@[simp] theorem endPass_charter (c : Nat) : (s.endPass c).charter = s.charter := by
  unfold State.endPass
  (repeat' split) <;> simp

@[simp] theorem finishBack_charter (c : Nat) : (s.finishBack c).charter = s.charter := by
  unfold State.finishBack
  split <;> simp

@[simp] theorem cutPass_charter (c : Nat) : (s.cutPass c).charter = s.charter := by
  unfold State.cutPass
  split <;> simp

@[simp] theorem stopAtCommit_charter (c : Nat) : (s.stopAtCommit c).charter = s.charter := by
  unfold State.stopAtCommit
  dsimp only
  rw [stopDone_charter, endCtx_charter]
  (repeat' split) <;> simp

@[simp] theorem askStop_charter (c : Nat) (who : List (Nat × Nat)) : (s.askStop c who).charter = s.charter := by
  unfold State.askStop
  dsimp only
  (repeat' split) <;> simp

/-! ## Passes of the pack -/

@[simp] theorem sendScan_charter (c q d l : Nat) (hole : Bool) (m : ScanMsg) : (s.sendScan c q d l hole m).charter = s.charter := by
  unfold State.sendScan
  dsimp only
  split
  · rfl
  · split
    · rfl
    · exact packSendP_charter ..

theorem sendOnce_charter (c q l ty : Nat) {f : State → State} (hf : ∀ v, (f v).charter = v.charter) : (s.sendOnce c q l ty f).charter = s.charter := by
  unfold State.sendOnce
  split
  · rfl
  · dsimp only
    split
    · rfl
    · exact hf _

@[simp] theorem sendOnce_sendScan_charter (c q l ty to_ : Nat) (hole : Bool) (m : ScanMsg) :
    (s.sendOnce c q l ty (fun v => v.sendScan c q to_ l hole m)).charter = s.charter :=
  sendOnce_charter _ _ _ _ _ fun _ => sendScan_charter ..

@[simp] theorem sendOnce_sendScans_charter (c q l ty : Nat) (ts : List Nat) (hole : Bool) (m : ScanMsg) :
    (s.sendOnce c q l ty (fun v => ts.foldl (fun v to_ => v.sendScan c q to_ l hole m) v)).charter = s.charter :=
  sendOnce_charter _ _ _ _ _ fun v => foldl_part State.charter (fun w to_ => sendScan_charter w c q to_ l hole m) ts v

/-- The messages of a layer go out from a state that they are not computed in. -/
@[simp] theorem scanLayer_charter (c q : Nat) (v : State) (l : Nat) : (s.scanLayer c q v l).charter = v.charter := by
  have hhalo (v : State) (p : PackPass) : (s.scanHalo c q v p l).charter = v.charter := by
    unfold State.scanHalo
    (repeat' split) <;> simp
  have hprefix (v : State) (p : PackPass) : (s.scanPrefix c q v p l).charter = v.charter := by
    unfold State.scanPrefix
    (repeat' split) <;> simp
  have hsuffix (v : State) (p : PackPass) : (s.scanSuffix c q v p l).charter = v.charter := by
    unfold State.scanSuffix
    (repeat' split) <;> simp
  have hcolumn (v : State) (p : PackPass) : (s.scanColumn c q v p l).charter = v.charter := by
    unfold State.scanColumn
    dsimp only
    (repeat' split) <;> simp
  unfold State.scanLayer
  split
  · rfl
  · rw [hcolumn, hsuffix, hprefix, hhalo]

@[simp] theorem scanOn_charter (c n : Nat) : (s.scanOn c n).charter = s.charter := by
  have hslot (v : State) (q : Nat) : ((List.range (v.passLayers c)).foldl (fun w l => w.scanLayer c q w l) v).charter = v.charter :=
    foldl_part State.charter (fun w l => scanLayer_charter w c q w l) _ v
  induction n generalizing s with
  | zero => rfl
  | succ n ih =>
    unfold State.scanOn
    split
    · rfl
    · rw [ih]
      exact foldl_part State.charter hslot _ s

@[simp] theorem flushSlot_charter (c q : Nat) : (s.flushSlot c q).charter = s.charter := by
  unfold State.flushSlot
  split
  · rfl
  · exact foldl_part State.charter (fun v r => sendShare_charter v r) _ _

@[simp] theorem trySwapAt_charter : s.trySwapAt.charter = s.charter := by
  unfold State.trySwapAt
  split
  · split
    · rfl
    · exact flood_charter ..
  · rfl

@[simp] theorem tryPassOver_charter (c : Nat) : (s.tryPassOver c).charter = s.charter := by
  unfold State.tryPassOver
  split
  · rfl
  · split
    · rfl
    · rw [trySwapAt_charter, leavePass_charter]
      (repeat' split) <;> simp

@[simp] theorem leadDone_charter (c pass pos n : Nat) : (s.leadDone c pass pos n).charter = s.charter := by
  unfold State.leadDone
  (repeat' split) <;> simp

@[simp] theorem sayDone_charter (c : Nat) : (s.sayDone c).charter = s.charter := by
  unfold State.sayDone
  dsimp only
  (repeat' split) <;> simp

@[simp] theorem tryDone_charter (c : Nat) : (s.tryDone c).charter = s.charter := by
  unfold State.tryDone
  (repeat' split) <;> simp

@[simp] theorem restartScan_charter (c : Nat) : (s.restartScan c).charter = s.charter := by
  unfold State.restartScan
  dsimp only
  rw [tryPassOver_charter, tryDone_charter, scanOn_charter]
  split
  · exact foldl_part State.charter (fun v q => flushSlot_charter v c q) _ _
  · rfl

@[simp] theorem passesNewEpoch_charter : s.passesNewEpoch.charter = s.charter :=
  foldl_part State.charter restartScan_charter _ _

/-! ## A change of lead -/

@[simp] theorem endLead_charter (n : Nat) : (s.endLead n).charter = s.charter := by
  refine each_part State.charter (fun v sid => ?_) _ s
  split
  · split <;> simp
  · rfl

@[simp] theorem sendKept_charter : s.sendKept.charter = s.charter := foldl_part State.charter (fun _ _ => packSend_charter ..) _ s

@[simp] theorem sendTallies_charter : s.sendTallies.charter = s.charter := foldl_part State.charter (fun _ _ => packSend_charter ..) _ s

@[simp] theorem tallyCounter_charter (c id : Nat) : (s.tallyCounter c id).charter = s.charter := by
  have hbound (d : CtrDecl) : (match s.physOf c id with | some _ => s | none => (s.bindCounter c d).getD s).charter = s.charter := by
    split
    · rfl
    · cases h : s.bindCounter c d with
      | none => rfl
      | some v => exact bindCounter_charter h
  unfold State.tallyCounter
  dsimp only
  split
  · exact hbound _
  · rw [releaseBarrier_charter, updCounter_charter]
    exact hbound _

@[simp] theorem leadMoved_charter (was : Bool) (m : Membership) : (s.leadMoved was m).charter = s.charter := by
  unfold State.leadMoved
  dsimp only
  split
  · split
    · rfl
    · refine (foldl_part State.charter (fun _ _ => leadDone_charter ..) _ _).trans ?_
      refine (foldl_part State.charter (fun _ _ => tallyCounter_charter ..) _ _).trans ?_
      exact foldl_part State.charter (fun _ _ => leadTake_charter ..) _ _
  · refine (foldl_part State.charter (fun _ _ => packSend_charter ..) _ _).trans ?_
    rw [sendKept_charter, sendTallies_charter]
    split <;> simp

/-! ## The roles -/

@[simp] theorem putState_charter (m : Member) (l : List Byte) (p : Bool) : (s.putState m l p).charter = s.charter := rfl

@[simp] theorem startWith_charter (m : HandoverMsg) (sidx : Nat) : (s.startWith m sidx).charter = s.charter := by
  have hwith (v : State) (i : Io) (w : Watch) : ({ v with io := i, watch := w } : State).charter = v.charter := rfl
  unfold State.startWith
  split
  · rfl
  · dsimp only
    split
    · rfl
    · rw [hwith, updCtx_charter]
      (repeat' split) <;> simp

@[simp] theorem newRun_charter : s.newRun.charter = s.charter := by
  unfold State.newRun
  split <;> rfl

@[simp] theorem takeRole_charter : s.takeRole.charter = s.charter := by
  have hover (v : State) (h : Option HandoverRun) : ({ v with pack := { v.pack with handover := h } } : State).charter = v.charter := rfl
  unfold State.takeRole
  dsimp only
  rw [hover]
  (repeat' split) <;> simp

@[simp] theorem resumeRole_charter : s.resumeRole.charter = s.charter := by
  unfold State.resumeRole
  split <;> simp

@[simp] theorem countSchedules_charter (n sidx : Nat) : (s.countSchedules n sidx).charter = s.charter := by
  refine each_part State.charter (fun v c => ?_) _ s
  dsimp only
  split
  · unfold State.trigger
    dsimp only
    (repeat' split) <;> rfl
  · rfl

@[simp] theorem signalTokens_charter : s.signalTokens.charter = s.charter := by
  unfold State.signalTokens
  split
  · rfl
  · exact each_part State.charter (fun v _ => foldl_part State.charter (fun _ _ => by rfl) _ v) _ s

@[simp] theorem takeToken_charter (sidx f r n : Nat) (l : List Byte) : (s.takeToken sidx f r n l).charter = s.charter := by
  unfold State.takeToken
  split
  · rfl
  · rw [countSchedules_charter, signalTokens_charter]
    rfl

@[simp] theorem resendTokens_charter : s.resendTokens.charter = s.charter := by
  unfold State.resendTokens
  split
  · exact foldl_part State.charter (fun _ _ => takeToken_charter ..) _ s
  · exact foldl_part State.charter (fun _ _ => packSend_charter ..) _ s

@[simp] theorem promote_charter : s.promote.charter = s.charter := by
  unfold State.promote
  split <;> rfl

@[simp] theorem followRoles_charter (before : Pack) : (s.followRoles before).charter = s.charter := by
  have hpromoted (me : Nat) : (if s.pack.source = me ∧ before.admitted = true ∧ before.source ≠ me then s.promote else s).charter = s.charter := by
    split <;> simp
  have hfilled (v : State) (me : Nat) : (if v.pack.fill = me ∧ before.fill ≠ me then (if before.gave.isSome then v.resumeRole else v.takeRole)
      else if v.pack.fill ≠ me ∧ before.fill = me ∧ (v.ctx 0).holds = true then v.endCtx 0 else v).charter = v.charter := by
    (repeat' split) <;> simp
  have hresent (v : State) (me : Nat) : (if v.pack.source = me ∧ before.fill ≠ v.pack.fill then v.resendTokens else v).charter = v.charter := by
    split <;> simp
  have hover (v : State) (me : Nat) : (match v.pack.handover with
      | some h => if h.to_ = v.pack.fill ∧ h.to_ ≠ me then { v with pack := { v.pack with handover := none } } else v
      | none => v).charter = v.charter := by
    (repeat' split) <;> rfl
  unfold State.followRoles
  exact (hover _ _).trans ((hresent _ _).trans ((hfilled _ _).trans (hpromoted _)))

@[simp] theorem followRun_charter : s.followRun.charter = s.charter := by
  have hwatch : (if s.pack.fill ≠ s.optv.ppos then s
      else if s.pack.run % 2 = 1 then (match (s.ctx 0).state with | .free | .stopped => (s.startCtx 0).2 | _ => s)
      else if (s.ctx 0).holds = true ∧ (s.ctx 0).stopReq.isNone = true then s.askStop 0 [] else s).charter = s.charter := by
    (repeat' split) <;> simp
  have hinspect (v : State) (me : Nat) : (if v.pack.lead ≠ me ∧ v.pack.run / 2 % 2 = 0 then
      ((v.ctxs.filter (fun e => decide (e.1 ≠ 0) && e.2.holds && e.2.stopReq.isNone)).map Prod.fst).foldl (fun v c => v.askStop c []) v
      else v).charter = v.charter := by
    split
    · exact foldl_part State.charter (fun _ _ => askStop_charter ..) _ v
    · rfl
  exact (hinspect _ _).trans hwatch

end Sys2Proof.Machine
end

section
/-! The membership that a member adopts, and the lead's next epoch (R312, R313, R354, R355). -/

namespace Sys2Proof.Machine

open Sys2Proof

/-- The charter of a member that is live in a membership. -/
def Charter.adopted (k : Charter) (m : Membership) : Charter :=
  { k with
    epoch := m.epoch, live := m.live, lead := m.lead, hasLead := true, source := m.source, standby := m.standby, run := m.run
    detached := false, admitted := true, electing := false, claim := none, lowestClaim := none }

variable {s : State}

@[simp] theorem joinPack_charter (s : State) : s.joinPack.charter = s.charter := by
  have hclear : s.clearIndex.charter = s.charter := foldl_part State.charter (fun _ _ => updMem_charter ..) _ s
  unfold State.joinPack
  split
  · rfl
  · exact congrArg (fun k : Charter => { s.charter with opt := k.opt, trust := k.trust }) hclear

theorem setMembership_charter (s : State) (m : Membership) : (s.setMembership m).charter = s.charter.adopted m := rfl

theorem adopt_charter {m : Membership} (hlive : m.live.testBit s.optv.ppos = true) : (s.adopt m).charter = s.charter.adopted m := by
  have hjoined : (if s.pack.admitted = false ∨ s.pack.detached = true then s.joinPack else s).charter = s.charter := by
    split <;> simp
  have hpasses (v : State) : (if s.pack.epoch < m.epoch then v.passesNewEpoch else v).charter = v.charter := by
    split <;> simp
  have hmoved (v : State) (was : Bool) : (if s.pack.lead ≠ m.lead ∨ s.pack.hasLead = false ∨ s.pack.admitted = false then v.leadMoved was m
      else v).charter = v.charter := by
    split <;> simp
  unfold State.adopt
  rw [if_neg (by simp [hlive])]
  dsimp only
  rw [syncIngest_charter, followRun_charter, followRoles_charter, hmoved, hpasses, setMembership_charter, hjoined]

/-- The bits of a list of positions are those of its members. -/
theorem testBit_bitsOf (l : List Nat) (k : Nat) : (bitsOf l).testBit k = l.contains k := by
  have hfrom (a : Nat) : (l.foldl (fun a p => a ||| 2 ^ p) a).testBit k = (a.testBit k || l.contains k) := by
    induction l generalizing a with
    | nil => simp
    | cons p ps ih => simp [ih, Nat.testBit_or, Nat.testBit_two_pow, Bool.or_assoc, eq_comm]
  simpa [bitsOf] using hfrom 0

@[simp] theorem sendLeadHb_charter (s : State) : s.sendLeadHb.charter = s.charter := flood_charter ..

/-- The next epoch has the quorum that makes it as its live members, and its lowest position leads. -/
theorem newEpoch_charter {epoch : Nat} {live : List Nat} (fill : Option Nat) (hquorum : quorumOf s.optv.psize live = true)
    (hme : s.optv.ppos ∈ live) : ∃ source standby run, (s.newEpoch epoch live fill).charter
      = { s.charter with
          epoch := epoch, live := bitsOf live, lead := live.foldl min (live.headD 0), hasLead := true, source := source, standby := standby
          run := run, detached := false, admitted := true, electing := false, claim := none, lowestClaim := none } := by
  have hlost (l : List Nat) : (l.foldl (fun v p => v.trouble 2 10 0 6 0xFF [p]) s).charter = s.charter :=
    foldl_part State.charter (fun _ _ => trouble_charter ..) l s
  have hposition (l : List Nat) : (l.foldl (fun v p => v.trouble 2 10 0 6 0xFF [p]) s).optv = s.optv :=
    congrArg (fun k : Charter => k.opt.loaded) (hlost l)
  unfold State.newEpoch
  rw [if_neg (by simp [hquorum])]
  dsimp only
  rw [sendLeadHb_charter, adopt_charter (by rw [hposition, testBit_bitsOf]; simpa using hme), hlost]
  exact ⟨_, _, _, rfl⟩

end Sys2Proof.Machine
end

section
/-! Elections and detachment: LEAD_LOSS_TIMEOUT, CLAIM_DELAY_EXPIRE, LEAD_CLAIM, CLAIM_QUORUM_TIMEOUT, CLAIM_REPEAT and DETACH_TIMEOUT
(R313, R314). -/

namespace Sys2Proof.Machine

open Sys2Proof

variable {s u : State}

/-! ## Elections, R313 -/

theorem execClaimDelayExpire_claims (hup : s.packUp = true) (helecting : s.pack.electing = true) (hclaim : s.pack.claim = none)
    (hlowest : s.mayClaim = true) : exec .claimDelayExpire s = .next s.claimNow := if_pos ⟨hup, helecting, hclaim, hlowest⟩

theorem mayClaim_iff : s.mayClaim = true ↔ ∀ p, s.pack.lowestClaim = some p → s.optv.ppos ≤ p := by
  unfold State.mayClaim
  cases s.pack.lowestClaim <;> simp

theorem execClaimDelayExpire_waits {p : Nat} (hlowest : s.pack.lowestClaim = some p) (hp : p < s.optv.ppos) :
    exec .claimDelayExpire s = .next s := by
  refine if_neg fun ⟨_, _, _, hmay⟩ => ?_
  have hle := mayClaim_iff.mp hmay p hlowest
  omega

theorem execClaimRepeat_waits {p : Nat} (hlowest : s.pack.lowestClaim = some p) (hp : p < s.optv.ppos) :
    exec .claimRepeat s = .next s := by
  refine if_neg fun ⟨_, _, _, hown⟩ => ?_
  rw [hlowest] at hown
  cases hown
  omega

/-- What a member that answers a claim says of itself: it does not depend on the claim. -/
theorem sendMemberHb_received (hu : Received s u) (pos : Nat) :
    ({ u with pack := { u.pack with lowestClaim := some pos, claim := none } } : State).sendMemberHb pos pos
      = ({ u with pack := { u.pack with lowestClaim := some pos, claim := none } } : State).packSend pos 0
          (.memberHb s.pack.epoch s.optv.ppos s.hbFlags ((List.range 4).map (fun p => (u.pport p).state)) pos (s.newest.map (·.sidx)) s.pack.rseq) := by
  have hflags : u.hbFlags = s.hbFlags := hu.part State.hbFlags fun _ _ _ => rfl
  have hnewest : u.newest = s.newest := hu.part State.newest fun _ _ _ => rfl
  have hrseq : u.pack.rseq = s.pack.rseq := hu.part (·.pack.rseq) fun _ _ _ => rfl
  rw [← hu.epoch, ← hu.optv, ← hflags, ← hnewest, ← hrseq]
  rfl

variable {port : Nat} {h : PackHdr} {epoch pos : Nat}

theorem leadClaim_bytes (epoch pos : Nat) : (PackBody.leadClaim epoch pos).bytes ≤ 4096 := by
  simp [PackBody.bytes]

/-- A claim of a lower position is known, or the epoch claimed is over. -/
def State.claimStale (s : State) (epoch pos : Nat) : Prop :=
  (match s.pack.lowestClaim with | some p => decide (pos ≤ p) | none => true) = false ∨ epoch ≤ s.pack.epoch

theorem claimStale_iff : s.claimStale epoch pos ↔ epoch ≤ s.pack.epoch ∨ ∃ p, s.pack.lowestClaim = some p ∧ p < pos := by
  unfold State.claimStale
  cases s.pack.lowestClaim <;> simp [or_comm]

theorem Received.claimStale (hu : Received s u) : u.claimStale epoch pos = s.claimStale epoch pos :=
  hu.part (·.claimStale epoch pos) fun _ _ _ => rfl

theorem execLeadClaim_ignored (hu : s.recv port h (.leadClaim epoch pos) = .take u) (hstale : s.claimStale epoch pos) :
    exec (.leadClaim port h epoch pos) s = .next u := by
  rw [← (received_of_recv hu).claimStale] at hstale
  show execLeadClaim port h epoch pos s = _
  unfold execLeadClaim
  rw [onFrame_of_small (leadClaim_bytes epoch pos) hu]
  exact congrArg Host.Outcome.next (if_pos hstale)

theorem execLeadClaim_answered (hu : s.recv port h (.leadClaim epoch pos) = .take u) (hfresh : ¬ s.claimStale epoch pos) :
    exec (.leadClaim port h epoch pos) s
      = .next (({ u with pack := { u.pack with lowestClaim := some pos, claim := none } } : State).sendMemberHb pos pos) := by
  rw [← (received_of_recv hu).claimStale] at hfresh
  show execLeadClaim port h epoch pos s = _
  unfold execLeadClaim
  rw [onFrame_of_small (leadClaim_bytes epoch pos) hu]
  exact congrArg Host.Outcome.next (if_neg hfresh)

theorem execClaimQuorumTimeout_fails {e : Nat} {answers : List Nat} (hup : s.packUp = true) (hclaim : s.pack.claim = some (e, answers))
    (hquorum : quorumOf s.optv.psize (s.optv.ppos :: answers) = false) :
    exec .claimQuorumTimeout s = .next { s with pack := { s.pack with claim := none } } := by
  show execClaimQuorumTimeout s = _
  unfold execClaimQuorumTimeout
  simp only [hclaim, hup, hquorum]
  rfl

theorem execClaimQuorumTimeout_leads {e : Nat} {answers : List Nat} (hup : s.packUp = true) (hclaim : s.pack.claim = some (e, answers))
    (hquorum : quorumOf s.optv.psize (s.optv.ppos :: answers) = true) :
    exec .claimQuorumTimeout s = .next (s.newEpoch e ((List.range s.optv.psize).filter (fun p =>
      decide (p = s.optv.ppos) || ((answers.contains p || (s.pack.live.testBit p && decide (p ≠ s.pack.lead)))
        && (s.pack.live.testBit p || decide (s.imageOf p = s.imageId))))) none) := by
  show execClaimQuorumTimeout s = _
  unfold execClaimQuorumTimeout
  simp only [hclaim, hup, hquorum]
  rfl

/-! ## The start of a watch context leaves the pack's state and the pack's trouble bits, R314 -/

/-- The pack's state but for the waiters on release mirrors and the failed writes, and trouble word 2. -/
def State.berth (s : State) : Pack × BitVec 32 := ({ s.pack with mirrorWait := [], failedWrites := [] }, s.logs.word 2)

theorem troubleAs_word_ne (s : State) {w b v : Nat} (e : LogEv) (hw : w < 3) (hb : b < 32) (hv : v < 3) (hne : v ≠ w) :
    (s.troubleAs w b e).logs.word v = s.logs.word v := by
  obtain ⟨c, d, lo, co, ou, h, hbits⟩ := troubleAs_eq s w b e hw hb
  rw [h]
  refine BitVec.eq_of_getLsbD_eq fun k _ => ?_
  simp [hbits v k hv, hne]

theorem trouble_berth (s : State) {b : Nat} (loc unit c : Nat) (l : List Nat) (hb : b < 32) : (s.trouble 0 b loc unit c l).berth = s.berth := by
  unfold State.berth
  rw [State.trouble_pack, State.trouble, troubleAs_word_ne _ _ (by decide) hb (by decide) (by decide)]

@[simp] theorem holdPower_berth (s : State) (d : Dom) (c : Nat) : (s.holdPower d c).berth = s.berth := by
  have hheld : ((({ s with supply := { s.supply with waiting := s.supply.waiting ++ [(d, c)] } } : State).updCtx c
      (fun y => { y with held := true })).trouble 0 9 0 12 c []).berth = s.berth := trouble_berth _ _ _ _ _ (by decide)
  unfold State.holdPower
  dsimp only
  split
  · exact hheld
  · split
    · exact hheld
    · exact hheld

@[simp] theorem askPower_berth (s : State) (d : Dom) (c : Nat) : (s.askPower d c).berth = s.berth := by
  have hwoken : (s.wakeDom d).berth = s.berth := by
    cases d with
    | coreGroup g => unfold State.wakeDom; dsimp only; split <;> rfl
    | _ => rfl
  unfold State.askPower
  split
  · rfl
  · split
    · exact holdPower_berth ..
    · exact hwoken

@[simp] theorem withdraw_berth (s : State) (t : Nat) : (s.withdraw t).berth = s.berth := by
  refine each_part State.berth (fun v k => ?_) (s.sync.counters.map Prod.fst) s
  dsimp only
  split
  · rfl
  · exact foldl_part State.berth (fun _ _ => by rfl) _ _

theorem bindCtx_berth {c : Nat} {i : Image} {m : Member} {s t : State} (h : s.bindCtx c i m = some t) : t.berth = s.berth := by
  have hcounters {ds : List CtrDecl} {s t : State} (h : s.bindCounters c ds = some t) : t.berth = s.berth := by
    induction ds generalizing s with
    | nil => rw [← Option.some.inj h]
    | cons d ds ih =>
      obtain ⟨u, hu, hrest⟩ := Option.bind_eq_some_iff.mp h
      obtain ⟨k, -, rfl⟩ := Option.map_eq_some_iff.mp hu
      exact (ih hrest).trans (askPower_berth ..)
  have hrings (v : State) : (v.unbindRings c).berth = v.berth := each_part State.berth (fun _ _ => by rfl) _ v
  have hthreads (v : State) : (v.freeThreads c).berth = v.berth := each_part State.berth (fun w k => by exact withdraw_berth w k) _ v
  unfold State.bindCtx at h
  dsimp only at h
  split_ifs at h
  obtain ⟨u, hu, rfl⟩ := Option.map_eq_some_iff.mp h
  refine (each_part State.berth (fun v k => ?_) (List.range (i.ringsFor c).length) _).trans
    ((each_part State.berth (fun v k => ?_) _ u).trans ((hcounters hu).trans ?_))
  · split <;> rfl
  · exact askPower_berth ..
  · exact (hrings _).trans (hthreads s)

@[simp] theorem syncIngest_berth (s : State) : s.syncIngest.berth = s.berth := by
  unfold State.syncIngest
  (repeat' split) <;> rfl

@[simp] theorem startCtx_berth (s : State) (c : Nat) : (s.startCtx c).2.berth = s.berth := by
  have hbegun (v : State) (m : Member) : (v.begin c m).berth = v.berth := by
    refine (syncIngest_berth _).trans ?_
    split <;> rfl
  have hshed (v : State) : (v.shedCtx c).berth = v.berth := by
    unfold State.shedCtx
    dsimp only
    split
    · exact trouble_berth _ _ _ _ _ (by decide)
    · exact trouble_berth _ _ _ _ _ (by decide)
  obtain ⟨st, -, h⟩ | ⟨i, m, -, -, h⟩ | ⟨i, m, v, -, hbind, h⟩ := startCtx_cases s c
  · rw [h]
  · rw [h]
  · have hv : v.berth = s.berth := (bindCtx_berth hbind).trans rfl
    rw [h]
    split <;> simp [hbegun, hshed, hv]

@[simp] theorem startCtx_vault (s : State) (c : Nat) : (s.startCtx c).2.vault = s.vault := by
  have hbegun (v : State) (m : Member) : (v.begin c m).vault = v.vault := by
    refine (syncIngest_vault _).trans ?_
    split <;> rfl
  have hshed (v : State) : (v.shedCtx c).vault = v.vault := by
    unfold State.shedCtx
    dsimp only
    split
    · exact (troubleAs_vault _ _ (by decide) (by decide)).trans rfl
    · exact (troubleAs_vault _ _ (by decide) (by decide)).trans rfl
  obtain ⟨st, -, h⟩ | ⟨i, m, -, -, h⟩ | ⟨i, m, v, -, hbind, h⟩ := startCtx_cases s c
  · rw [h]
  · rw [h]
  · have hv : v.vault = s.vault := (bindCtx_vault hbind).trans rfl
    rw [h]
    split <;> simp [hbegun, hshed, hv]

/-! ## Detachment, R314 -/

/-- A detached source fills: nothing else of the pack's state changes, and images, options, results and trust stay. -/
theorem sourceAlone_kept (s : State) : s.sourceAlone.berth
      = ({ s.pack with mirrorWait := [], failedWrites := [], fill := if s.pack.source = s.optv.ppos then s.optv.ppos else s.pack.fill }, s.logs.word 2)
    ∧ s.sourceAlone.vault = s.vault := by
  have hrestored (v : State) (m : Member) (k : Ckpt) : (v.restoreWatch m k).berth = v.berth ∧ (v.restoreWatch m k).vault = v.vault := ⟨rfl, rfl⟩
  unfold State.sourceAlone
  split
  · have hfilling : ({ s with pack := { s.pack with fill := s.optv.ppos } } : State).berth
        = ({ s.pack with mirrorWait := [], failedWrites := [], fill := s.optv.ppos }, s.logs.word 2) := rfl
    have hvault : ({ s with pack := { s.pack with fill := s.optv.ppos } } : State).vault = s.vault := rfl
    unfold State.fillAlone
    dsimp only
    split
    · exact ⟨hfilling, hvault⟩
    split
    · exact ⟨hfilling, hvault⟩
    split
    · split
      · exact ⟨(startCtx_berth ..).trans hfilling, (startCtx_vault ..).trans hvault⟩
      · exact ⟨(hrestored ..).1.trans ((startCtx_berth ..).trans hfilling), (hrestored ..).2.trans ((startCtx_vault ..).trans hvault)⟩
    · exact ⟨(startCtx_berth ..).trans hfilling, (startCtx_vault ..).trans hvault⟩
  · exact ⟨rfl, rfl⟩

/-- A member that is cut off knows no live member and runs no pass. -/
theorem cutOff_pack (s : State) : s.cutOff.pack
    = { s.pack with passes := [], claim := none, handover := none, took := none, gave := none, detached := true, live := 0 } := by
  have hpasses (l : List Nat) : (l.foldl (fun v c => v.setPass c none) s).pack = s.pack := foldl_part State.pack (fun _ _ => by rfl) l s
  unfold State.cutOff State.leaveAll
  dsimp only
  rw [hpasses]

theorem cutOff_vault (s : State) : s.cutOff.vault = s.vault :=
  (foldl_part State.vault (f := fun v c => v.setPass c none) (fun _ _ => by rfl) _ s :)

theorem cutOff_mem (s : State) : s.cutOff.mem = s.mem :=
  (foldl_part State.mem (f := fun v c => v.setPass c none) (fun _ _ => by rfl) _ s :)

theorem syncIngest_mem (s : State) : s.syncIngest.mem = s.mem := (parts_of_fixtures (fixtures_of_standing (syncIngest_standing s))).1

theorem execDetachTimeout_detaches (hup : s.packUp = true) (hdetached : s.pack.detached = false)
    (hlost : s.pack.hasLead = false ∨ s.pack.admitted = false) : ∃ t, exec .detachTimeout s = .next t
      ∧ t.pack.detached = true ∧ t.pack.live = 0 ∧ t.pack.passes = [] ∧ t.pack.claim = none ∧ t.pack.handover = none ∧ t.pack.admitted = false
      ∧ (t.logs.word 2).getLsbD 9 = true ∧ (s.pack.source ≠ s.optv.ppos → t.pack.fill = s.pack.fill ∧ t.mem = s.mem)
      ∧ (s.pack.source = s.optv.ppos → t.pack.fill = s.optv.ppos) ∧ t.results = s.results ∧ t.img = s.img ∧ t.opt = s.opt ∧ t.trust = s.trust := by
  have hpack : (s.cutOff.raise 2 9 6).pack = _ := (State.raise_pack ..).trans (cutOff_pack s)
  have hvault : (s.cutOff.raise 2 9 6).vault = s.vault := (troubleAs_vault _ _ (by decide) (by decide)).trans (cutOff_vault s)
  have hposition : (s.cutOff.raise 2 9 6).optv = s.optv := congrArg (fun k : Images × Options × _ => k.2.1.loaded) hvault
  have hbit : ((s.cutOff.raise 2 9 6).logs.word 2).getLsbD 9 = true := by
    rw [State.raise_word _ _ _ _ _ _ (by decide) (by decide) (by decide)]
    simp
  obtain ⟨halone, hkept⟩ := sourceAlone_kept (s.cutOff.raise 2 9 6)
  have hberth := (syncIngest_berth ({ (s.cutOff.raise 2 9 6).sourceAlone with
    pack := { (s.cutOff.raise 2 9 6).sourceAlone.pack with admitted := false } })).trans
      (congrArg (fun k : Pack × BitVec 32 => ({ k.1 with admitted := false }, k.2)) halone)
  rw [hpack, hposition] at hberth
  have hword : ((s.cutOff.raise 2 9 6).sourceAlone.notAdmitted).logs.word 2 = _ := congrArg Prod.snd hberth
  obtain ⟨himg, hopt, htrust, hresults, -, -⟩ := parts_of_vault
    ((syncIngest_vault ({ (s.cutOff.raise 2 9 6).sourceAlone with
      pack := { (s.cutOff.raise 2 9 6).sourceAlone.pack with admitted := false } })).trans (hkept.trans hvault))
  have hfill : ((s.cutOff.raise 2 9 6).sourceAlone.notAdmitted).pack.fill = if s.pack.source = s.optv.ppos then s.optv.ppos else s.pack.fill :=
    congrArg (fun k => k.1.fill) hberth
  refine ⟨_, if_pos ⟨hup, hdetached, hlost⟩, congrArg (fun k => k.1.detached) hberth, congrArg (fun k => k.1.live) hberth,
    congrArg (fun k => k.1.passes) hberth, congrArg (fun k => k.1.claim) hberth, congrArg (fun k => k.1.handover) hberth,
    congrArg (fun k => k.1.admitted) hberth, by rw [hword]; exact hbit, fun hother => ⟨hfill.trans (if_neg hother), ?_⟩,
    fun hown => hfill.trans (if_pos hown), hresults, himg, hopt, htrust⟩
  have hsame : (s.cutOff.raise 2 9 6).sourceAlone = s.cutOff.raise 2 9 6 := if_neg (by rw [hpack, hposition]; exact hother)
  refine (syncIngest_mem _).trans ?_
  rw [hsame]
  exact (State.raise_mem ..).trans (cutOff_mem s)

/-- Settles O49: an epoch that is opened has the membership of its quorum, because nothing that follows from adopting a membership touches
the charter; a start of the watch context leaves the pack's state. -/
theorem leadsAreElectedAndMembersDetach : Obligations.LeadsAreElectedAndMembersDetach := by
  unfold Obligations.LeadsAreElectedAndMembersDetach
  refine ⟨fun s hup hleads helecting => if_pos ⟨hup, hleads, helecting⟩, fun s hup helecting hclaim => ⟨fun hlow => ?_, fun p hlowest hp => ?_, fun hown => ?_⟩,
    fun s u port h epoch pos hu => ⟨fun hold => execLeadClaim_ignored hu (claimStale_iff.mpr hold), fun hepoch hlow => ?_⟩,
    fun s e answers hup hclaim => ⟨execClaimQuorumTimeout_fails hup hclaim, fun l hanswered hpos hl hquorum => ?_⟩,
    fun s hup hdetached hlost => execDetachTimeout_detaches hup hdetached hlost⟩
  · exact execClaimDelayExpire_claims hup helecting hclaim (mayClaim_iff.mpr hlow)
  · exact ⟨execClaimDelayExpire_waits hlowest hp, execClaimRepeat_waits hlowest hp⟩
  · have hmay : s.mayClaim = true := mayClaim_iff.mpr fun p hp => by
      rw [hown] at hp
      cases hp
      exact le_rfl
    rw [execClaimDelayExpire_claims hup helecting hclaim hmay]
    exact if_pos ⟨hup, helecting, hclaim, hown⟩
  · have hfresh : ¬ s.claimStale epoch pos := by
      rintro hstale
      obtain hle | ⟨p, hp, hlt⟩ := claimStale_iff.mp hstale
      · omega
      · exact absurd (hlow p hp) (by omega)
    rw [execLeadClaim_answered hu hfresh, sendMemberHb_received (received_of_recv hu)]
  · subst hl
    obtain ⟨source, standby, run, hcharter⟩ := newEpoch_charter (s := s) (epoch := e) none hquorum (by simp [hpos])
    exact ⟨_, execClaimQuorumTimeout_leads hup hclaim hanswered, congrArg Charter.epoch hcharter, congrArg Charter.live hcharter,
      congrArg Charter.hasLead hcharter, congrArg Charter.lead hcharter, congrArg Charter.claim hcharter, congrArg Charter.electing hcharter,
      congrArg Charter.admitted hcharter, congrArg Charter.opt hcharter, congrArg Charter.trust hcharter⟩

end Sys2Proof.Machine
end

section
/-! A step goes on after its pack fence, and its context settles (R272, R329, R330, R335): what that leaves as it was. -/

namespace Sys2Proof.Machine

open Sys2Proof

variable (s : State) {t : State}

/-! ## Charter, memory and results stand -/

/-- The charter, and what the end of a context leaves as it was. -/
def State.steady (s : State) : Charter × ((Memory × Images × Options × Supply) × List ResultRec) := (s.charter, s.standing)

theorem steady_of (hcharter : t.charter = s.charter) (hstanding : t.standing = s.standing) : t.steady = s.steady := Prod.ext hcharter hstanding

theorem troubleAs_standing {w b : Nat} (e : LogEv) (hw : w < 3) (hb : b < 32) : (s.troubleAs w b e).standing = s.standing := by
  obtain ⟨c, d, lo, co, ou, h, -⟩ := troubleAs_eq s w b e hw hb
  rw [h]
  rfl

theorem faultCtx_standing {b : Nat} (c code loc : Nat) (l : List Nat) (hb : b < 32) : (s.faultCtx c b code loc l).standing = s.standing := by
  have hfault (v : State) (e : LogEv) (f : Ctx → Ctx) :
      (((v.dropCtx c code).updCtx c f).syncIngest.commit.troubleAs 2 b e).standing = v.standing := by
    rw [troubleAs_standing _ _ (by decide) hb, commit_standing, syncIngest_standing, updCtx_standing, dropCtx_standing]
  have hwatch (d : Prop) [Decidable d] : (if d then { s with watch := s.watchLost } else s).standing = s.standing := by
    split <;> rfl
  have hstop (v : State) : (v.stopNow c).standing = v.standing := by
    simp [State.stopNow]
  unfold State.faultCtx
  dsimp only
  split
  · split
    · exact (hfault _ _ _).trans (hwatch _)
    · exact (hstop _).trans ((hfault _ _ _).trans (hwatch _))
  · rfl

@[simp] theorem updThread_steady (k : Nat) (f : Thread → Thread) : (s.updThread k f).steady = s.steady := rfl
@[simp] theorem updCtx_steady (c : Nat) (f : Ctx → Ctx) : (s.updCtx c f).steady = s.steady := rfl
@[simp] theorem stepDone_steady (k : Nat) : (s.stepDone k).steady = s.steady := rfl
@[simp] theorem sendSignal_steady (g : Signal) : (s.sendSignal g).steady = s.steady := rfl
@[simp] theorem clearUnfenced_steady (c : Nat) (l : List (Nat × Nat)) : (s.clearUnfenced c l).steady = s.steady := rfl
@[simp] theorem refreshCtx_steady (c : Nat) : (s.refreshCtx c).steady = s.steady := rfl

@[simp] theorem trouble_steady (w b loc u c : Nat) (l : List Nat) : (s.trouble w b loc u c l).steady = s.steady :=
  steady_of s (trouble_charter ..) (trouble_standing ..)

@[simp] theorem packSend_steady (d c : Nat) (b : PackBody) : (s.packSend d c b).steady = s.steady :=
  steady_of s (packSend_charter ..) (packSend_standing ..)

@[simp] theorem closeInterval_steady (c : Nat) : (s.closeInterval c).steady = s.steady :=
  steady_of s (closeInterval_charter ..) (closeInterval_standing ..)

theorem faultCtx_steady {b : Nat} (c code loc : Nat) (l : List Nat) (hb : b < 32) : (s.faultCtx c b code loc l).steady = s.steady :=
  steady_of s (faultCtx_charter s c code loc l hb) (faultCtx_standing s c code loc l hb)

/-! ## The arrival at a barrier -/

@[simp] theorem remoteSignal_steady (k c id delta d : Nat) (fenced : Bool) : (s.remoteSignal k c id delta d fenced).steady = s.steady := by
  unfold State.remoteSignal
  split <;> simp

@[simp] theorem arriveRecord_steady (k : Nat) (r : BitVec 256) (fenced : Bool) : (s.arriveRecord k r fenced).steady = s.steady := by
  unfold State.arriveRecord
  dsimp only
  split
  · exact (remoteSignal_steady ..).trans rfl
  · rfl

@[simp] theorem refuseWait_steady (k : Nat) : (s.refuseWait k).steady = s.steady := by
  unfold State.refuseWait
  exact (faultCtx_steady _ _ _ _ _ (by decide)).trans (trouble_steady ..)

@[simp] theorem orphanedWait_steady (k : Nat) : (s.orphanedWait k).steady = s.steady := by
  unfold State.orphanedWait
  dsimp only
  split
  · rfl
  · exact (faultCtx_steady _ _ _ _ _ (by decide)).trans rfl

@[simp] theorem register_steady (c p : Nat) (w : Compare) : (s.register c p w).steady = s.steady := by
  have hline (v : State) (cl q e : Nat) : (v.takeLine cl q e).steady = v.steady := by
    unfold State.takeLine
    dsimp only
    (repeat' split) <;> rfl
  unfold State.register
  split
  · unfold State.enterCompare
    dsimp only
    split
    · exact (hline ..).trans rfl
    · rfl
  · dsimp only
    split
    · rfl
    · exact (trouble_steady ..).trans rfl

@[simp] theorem waitOn_steady (k id : Nat) (n : Int) : (s.waitOn k id n).steady = s.steady := by
  unfold State.waitOn
  dsimp only
  (repeat' split) <;> simp

@[simp] theorem arrive_steady (k : Nat) : (s.arrive k).steady = s.steady := by
  have hmirror (v : State) (l : List (Nat × Nat × Nat × Nat)) : ({ v with pack := { v.pack with mirrorWait := l } } : State).steady = v.steady := rfl
  unfold State.arrive
  dsimp only
  split
  · split
    · simp
    · rw [hmirror, updThread_steady, arriveRecord_steady, clearUnfenced_steady]
  · simp

@[simp] theorem afterFence_steady (k : Nat) : (s.afterFence k).steady = s.steady := by
  unfold State.afterFence
  dsimp only
  split <;> simp

/-! ## The context settles -/

@[simp] theorem tryHandover_steady : s.tryHandover.steady = s.steady := by
  have hend (v : State) (c : Nat) : (v.endCtx c).steady = v.steady := steady_of v (endCtx_charter ..) (endCtx_standing ..)
  have hsend (v : State) (d c : Nat) (p : Bool) (b : PackBody) : (v.packSendP d c p b).steady = v.steady :=
    steady_of v (packSendP_charter ..) (onPorts_standing (packSendP_onPorts v d c p b))
  have hgiven (v : State) (d : Nat) (g : Option Nat) (l : List Sent) (h : Option HandoverRun) :
      ({ v with pack := { v.pack with fill := d, gave := g, sent := l, handover := h } } : State).steady = v.steady := rfl
  unfold State.tryHandover
  split
  · rfl
  · split
    · rfl
    · dsimp only
      rw [hend, hgiven, hsend, closeInterval_steady]

@[simp] theorem iterEnd_steady (c : Nat) : (s.iterEnd c).steady = s.steady := by
  unfold State.iterEnd
  dsimp only
  split <;> simp

@[simp] theorem settle_steady (c : Nat) : (s.settle c).steady = s.steady := by
  unfold State.settle
  dsimp only
  (repeat' split) <;> simp

/-! ## A step in progress goes on undisturbed -/

/-- State, completion and wait of a thread. -/
def State.progress (s : State) (k : Nat) : TState × Bool × TWait := ((s.thread k).state, (s.thread k).done, (s.thread k).waits)

theorem progress_of_threads (h : t.threads = s.threads) (k : Nat) : t.progress k = s.progress k := by
  rw [State.progress, State.thread, h]
  rfl

theorem wakeThread_progress (k j w : Nat) : (s.wakeThread j w).progress k = s.progress k := by
  refine (progress_of_threads (s.updThread j (fun x => { x with wstat := w })) (wakeThread_threads ..) k).trans ?_
  unfold State.progress
  by_cases hjk : j = k
  · subst hjk
    simp
  · rw [State.updThread_thread_ne _ _ _ _ hjk]

theorem orphan_progress (k p : Nat) : (s.orphan p).progress k = s.progress k := by
  have hwake (v : State) (ws : List Compare) : (v.orphanWake p ws).progress k = v.progress k := by
    induction ws generalizing v with
    | nil => rfl
    | cons w ws ih =>
      rw [State.orphanWake, ih]
      refine (progress_of_threads _ (by rfl) k).trans ?_
      split
      · exact wakeThread_progress ..
      · rfl
  have hnotify (v : State) (st : Status) (ts : List Threshold) : (v.thresholdsNotify p st ts).threads = v.threads := by
    induction ts generalizing v with
    | nil => rfl
    | cons t ts ih => rw [State.thresholdsNotify, ih, State.thresholdNotify, State.notify_threads]
  unfold State.orphan
  exact (progress_of_threads _ (hnotify ..) k).trans (hwake _ _)

theorem endCounters_progress (k c : Nat) : (s.endCounters c).progress k = s.progress k := by
  have hfree (v : State) (p : Nat) : (v.freeCounter p).threads = v.threads := by
    unfold State.freeCounter
    dsimp only
    split <;> rfl
  have hcounter (v : State) (p : Nat) : (v.endCounter c p).progress k = v.progress k := by
    unfold State.endCounter
    dsimp only
    split
    · exact progress_of_threads _ (hfree ..) k
    · exact (progress_of_threads _ (State.trouble_threads ..) k).trans (orphan_progress v k p)
  refine (each_part (State.progress · k) hcounter _ _).trans ?_
  exact progress_of_threads _ (foldl_part State.threads (fun _ _ => State.trouble_threads ..) _ s) k

theorem withdraw_threads (j : Nat) : (s.withdraw j).threads = s.threads := by
  refine each_part State.threads (fun v k => ?_) (s.sync.counters.map Prod.fst) s
  dsimp only
  split
  · rfl
  · exact foldl_part State.threads (fun _ _ => by rfl) _ _

variable {s}

/-- The end of a context does not reach a thread that is not bound to it. -/
theorem endCtx_progress {k c : Nat} (hbound : k ∉ s.threadsOf c) (hfaulted : k ∉ s.faultedOf c) : (s.endCtx c).progress k = s.progress k := by
  have hfreed (l : List Nat) (hl : k ∉ l) (v : State) : (v.each l (fun w j => (w.withdraw j).updThread j Thread.freed)).progress k = v.progress k := by
    induction l generalizing v with
    | nil => rfl
    | cons j js ih =>
      obtain ⟨hj, hjs⟩ := not_or.mp (fun h => hl (List.mem_cons.mpr h))
      refine (ih hjs _).trans (Eq.trans ?_ (progress_of_threads v (withdraw_threads v j) k))
      unfold State.progress
      rw [State.updThread_thread_ne _ _ _ _ (Ne.symm hj)]
  have hrings (v : State) : (v.unbindRings c).threads = v.threads := each_part State.threads (fun _ _ => by rfl) _ v
  have hrest (v : State) : (((v.updCtx c Ctx.stop).dropSchedule c).syncIngest).threads = v.threads := by
    unfold State.syncIngest State.dropSchedule
    (repeat' split) <;> rfl
  rw [endCtx_eq, progress_of_threads _ (hrest _), endCounters_progress, progress_of_threads _ (hrings _)]
  exact hfreed _ (by simp [hbound, hfaulted]) s

theorem closeInterval_threads (s : State) (c : Nat) : (s.closeInterval c).threads = s.threads :=
  (closed_closeInterval s c).part State.threads fun _ _ => rfl

theorem tryHandover_progress {k : Nat} (hbound : k ∉ s.threadsOf 0) (hfaulted : k ∉ s.faultedOf 0) : s.tryHandover.progress k = s.progress k := by
  have hsent (d : Nat) (p : Bool) (b : PackBody) : ((s.closeInterval 0).packSendP d 0 p b).threads = s.threads :=
    ((congrArg State.threads (packSendP_onPorts (s.closeInterval 0) d 0 p b).1 :)).trans (closeInterval_threads s 0)
  have hended (v : State) (hv : v.threads = s.threads) : (v.endCtx 0).progress k = s.progress k := by
    refine (endCtx_progress ?_ ?_).trans (progress_of_threads s hv k)
    · rwa [State.threadsOf, hv]
    · rwa [State.faultedOf, hv]
  unfold State.tryHandover
  split
  · rfl
  · split
    · rfl
    · exact hended _ (hsent _ _ _)

/-- A thread whose table entry is its only one goes on with a step in progress, whatever context settles. -/
theorem settle_progress {k : Nat} (honly : ∀ x, (k, x) ∈ s.threads → x = s.thread k) (hrunning : (s.thread k).state = .running) (c : Nat) :
    (s.settle c).progress k = s.progress k := by
  have hmem : (k, s.thread k) ∈ s.threads := by
    refine mem_of_get_ne fun h => ?_
    rw [State.thread, h] at hrunning
    exact absurd hrunning (by decide)
  by_cases hctx : (s.thread k).ctx = c
  · have hbusy : (s.refreshCtx c).idle c = false := by
      have hbound : k ∈ s.threadsOf c := List.mem_map.2 ⟨(k, s.thread k), List.mem_filter.2 ⟨hmem, by simp [hrunning, hctx]⟩, rfl⟩
      show s.idle c = false
      rw [State.idle, List.all_eq_false]
      exact ⟨k, hbound, by simp [hrunning]⟩
    unfold State.settle
    dsimp only
    rw [if_pos hbusy]
    rfl
  · have hbound : k ∉ s.threadsOf c := by
      simp only [State.threadsOf, List.mem_map, List.mem_filter, not_exists]
      rintro ⟨j, x⟩ ⟨⟨hx, hin⟩, rfl⟩
      rw [honly x hx] at hin
      simp [hctx] at hin
    have hfaulted : k ∉ s.faultedOf c := by
      simp only [State.faultedOf, List.mem_map, List.mem_filter, not_exists]
      rintro ⟨j, x⟩ ⟨⟨hx, hin⟩, rfl⟩
      rw [honly x hx] at hin
      simp [hctx] at hin
    have hiter (v : State) : (v.iterEnd c).threads = v.threads := by
      unfold State.iterEnd
      dsimp only
      split
      · exact closeInterval_threads _ c
      · rfl
    unfold State.settle
    dsimp only
    split
    · rfl
    · split
      · next hzero =>
        subst hzero
        exact tryHandover_progress (s := s.refreshCtx 0) hbound hfaulted
      · split
        · exact progress_of_threads _ (hiter _) k
        · rfl

end Sys2Proof.Machine
end

section
/-! WRITE_FRAME, WRITE_DONE and REMOTE_WRITE_TIMEOUT (R328, R330, R331). -/

namespace Sys2Proof.Machine

open Sys2Proof

variable {s u : State} {port : Nat} {h : PackHdr}

/-! ## WRITE, R328 -/

theorem read_writes_inside (m : Memory) {sp : Space} {a i : Nat} {bs : List Byte} {b : Byte} (hb : bs[i]? = some b) :
    (m.writes sp a bs).read sp (a + i) = b := by
  induction bs generalizing m a i with
  | nil => simp at hb
  | cons c bs ih =>
    rw [Memory.writes]
    cases i with
    | zero =>
      rw [List.getElem?_cons_zero] at hb
      rw [read_writes_outside _ (by omega), Memory.read_write, if_pos (by simp)]
      exact Option.some.inj hb
    | succ i =>
      rw [List.getElem?_cons_succ] at hb
      rw [← ih (m.write sp a c) (a := a + 1) hb]
      congr 1
      omega

theorem read_store_inside (m : Memory) {sp : Space} {a i : Nat} {bs : List Byte} {b : Byte} (p : Bool) (hb : bs[i]? = some b) :
    (m.store sp a bs p).read sp (a + i) = b := by
  rw [Memory.store, Memory.read_unlist, Memory.read_marks, read_writes_inside m hb]

/-- The data of a WRITE is stored, and its sender's count of writes done rises. -/
def State.written (s : State) (h : PackHdr) (data : List Byte) : State :=
  { s with
    mem := s.mem.store .board h.addr data h.poison
    pack := { s.pack with wdone := Tab.upd 0 s.pack.wdone (64 * h.ctx + h.src) (fun n => (n + 1) % 2 ^ 32) } }

/-- A WRITE is one frame, whatever its length: its class is not split. -/
theorem onFrame_write {data : List Byte} (hu : s.recv port h (.write data) = .take u) (f : State → State) :
    s.onFrame port h (.write data) f = .next (f u) := by
  have hone : ((PackBody.write data).frames h).length = 1 := by
    have hclass : ¬ (((PackBody.write data).cls = 4 ∨ (PackBody.write data).cls = 6) ∧ 4096 < up4 (PackBody.write data).bytes) := by
      rintro ⟨hsplit, -⟩
      exact absurd hsplit (by simp [PackBody.cls])
    unfold PackBody.frames
    dsimp only
    rw [if_neg hclass]
    rfl
  exact onFrame_of_takes (takes_of_one_frame hone hu) rfl

theorem execWriteFrame_stores {data : List Byte} (hu : s.recv port h (.write data) = .take u) (hin : u.inBuffers h.addr data.length = true) :
    exec (.writeFrame port h data) s = .next ((u.written h data).packSend h.src h.ctx (.writeDone 1)) := by
  show execWriteFrame port h data s = _
  unfold execWriteFrame
  rw [onFrame_write hu]
  exact congrArg Host.Outcome.next (if_pos hin)

theorem execWriteFrame_drops {data : List Byte} (hu : s.recv port h (.write data) = .take u) (hout : u.inBuffers h.addr data.length = false) :
    ∃ t, exec (.writeFrame port h data) s = .next t ∧ Logged u t [] := by
  refine ⟨_, ?_, logged_log u { code := Config.bootCode 2, bunit := 6, ctx := h.ctx, detail := (be 8 h.addr).map (·.toNat) ++ [h.src] }⟩
  show execWriteFrame port h data s = _
  unfold execWriteFrame
  rw [onFrame_write hu]
  exact congrArg Host.Outcome.next (if_neg (by simp [hout]))

theorem execWriteFrame_takesEffect {data : List Byte} (hu : s.recv port h (.write data) = .take u) (hin : u.inBuffers h.addr data.length = true) :
    ∃ v t : State, exec (.writeFrame port h data) s = .next t ∧ t = v.packSend h.src h.ctx (.writeDone 1)
      ∧ Tab.get 0 t.pack.wdone (64 * h.ctx + h.src) = (Tab.get 0 s.pack.wdone (64 * h.ctx + h.src) + 1) % 2 ^ 32
      ∧ (∀ k, k ≠ 64 * h.ctx + h.src → Tab.get 0 t.pack.wdone k = Tab.get 0 s.pack.wdone k)
      ∧ (∀ i b, data[i]? = some b → t.mem.read .board (h.addr + i) = b)
      ∧ (∀ sp a, (sp ≠ .board ∨ a < h.addr ∨ h.addr + data.length ≤ a) → t.mem.read sp a = s.mem.read sp a)
      ∧ { v with mem := u.mem, pack := { v.pack with wdone := u.pack.wdone } } = u ∧ { t with mem := s.mem, pack := s.pack, out := s.out } = s := by
  have hreceived := received_of_recv hu
  have hsent := (packSend_onPorts (u.written h data) h.src h.ctx (.writeDone 1)).1
  have hdone : ((u.written h data).packSend h.src h.ctx (.writeDone 1)).pack.wdone = (u.written h data).pack.wdone := (congrArg (·.pack.wdone) hsent :)
  have hmem : ((u.written h data).packSend h.src h.ctx (.writeDone 1)).mem = (u.written h data).mem := (congrArg State.mem hsent :)
  refine ⟨u.written h data, _, execWriteFrame_stores hu hin, rfl, ?_, fun k hk => ?_, fun i b hb => ?_, fun sp a ha => ?_, rfl, ?_⟩
  · rw [hdone, State.written, Tab.get_upd_same, hreceived.wdone]
  · rw [hdone, State.written, Tab.get_upd_ne _ _ _ _ hk.symm, hreceived.wdone]
  · rw [hmem]
    exact read_store_inside u.mem h.poison hb
  · rw [hmem, ← hreceived.mem]
    refine read_store_outside u.mem h.poison ?_
    rintro ⟨rfl, hlo, hhi⟩
    obtain hsp | hlt | hge := ha
    · exact hsp rfl
    · omega
    · omega
  · have hrest : ({ (u.written h data).packSend h.src h.ctx (.writeDone 1) with mem := s.mem, pack := s.pack, out := s.out } : State)
        = { u with mem := s.mem, pack := s.pack, out := s.out } := (congrArg (fun v : State => { v with mem := s.mem, pack := s.pack, out := s.out }) hsent :)
    exact hrest.trans ((congrArg (fun v : State => { v with mem := s.mem, pack := s.pack, out := s.out }) (recv_take_onPorts hu).1 :))

/-! ## Descriptors whose writes are complete, R330 -/

/-- A descriptor of the context that writes to the member. -/
def Flight.writesTo (f : Flight) (c dst : Nat) : Prop := f.ctx = c ∧ dDtier f.desc = 6 ∧ dDunit f.desc / 2 ^ 26 = dst

/-- `g` is descriptor `f` with at most `n` of its writes complete, none where it does not write to the member for the context. -/
def Credited (c dst n : Nat) (f g : Flight) : Prop :=
  { g with outstanding := f.outstanding } = f ∧ g.outstanding ≤ f.outstanding ∧ f.outstanding ≤ g.outstanding + n ∧ (¬ f.writesTo c dst → g = f)

variable {c dst n m : Nat} {f g k : Flight}

theorem credited_refl (c dst n : Nat) (f : Flight) : Credited c dst n f f := ⟨rfl, le_rfl, Nat.le_add_right _ _, fun _ => rfl⟩

theorem Credited.mono (hle : n ≤ m) (hg : Credited c dst n f g) : Credited c dst m f g := by
  obtain ⟨hsame, hle', hmost, hother⟩ := hg
  exact ⟨hsame, hle', by omega, hother⟩

theorem Credited.trans (hg : Credited c dst n f g) (hk : Credited c dst m g k) : Credited c dst (n + m) f k := by
  obtain ⟨hsame, hle, hmost, hother⟩ := hg
  obtain ⟨hsame', hle', hmost', hother'⟩ := hk
  refine ⟨(congrArg (fun x : Flight => { x with outstanding := f.outstanding }) hsame').trans hsame, by omega, by omega, fun hf => ?_⟩
  obtain rfl := hother hf
  exact hother' hf

/-- A list of descriptors of which at most `n` writes have been completed. -/
def CreditedAll (c dst n : Nat) (l l' : List Flight) : Prop := ∀ (i : Nat) (f : Flight), l[i]? = some f → ∃ g, l'[i]? = some g ∧ Credited c dst n f g

theorem CreditedAll.trans {l l' l'' : List Flight} (h : CreditedAll c dst n l l') (h' : CreditedAll c dst m l' l'') : CreditedAll c dst (n + m) l l'' := by
  intro i f hf
  obtain ⟨g, hg, hfg⟩ := h i f hf
  obtain ⟨k, hk, hgk⟩ := h' i g hg
  exact ⟨k, hk, hfg.trans hgk⟩

/-- What is left of the count, and what the descriptors have taken of it. -/
theorem creditFlights_credits (c dst n : Nat) (l : List Flight) :
    (creditFlights c dst n l).2 ≤ n ∧ CreditedAll c dst (n - (creditFlights c dst n l).2) l (creditFlights c dst n l).1 := by
  induction l generalizing n with
  | nil => exact ⟨le_rfl, fun i f hf => by simp at hf⟩
  | cons e es ih =>
    obtain ⟨k, hk, hmatch⟩ : ∃ k, k = (if e.ctx = c ∧ dDtier e.desc = 6 ∧ dDunit e.desc / 2 ^ 26 = dst then min n e.outstanding else 0)
        ∧ (¬ e.writesTo c dst → k = 0) := ⟨_, rfl, fun hno => if_neg hno⟩
    have hkn : k ≤ n ∧ k ≤ e.outstanding := by
      rw [hk]
      split <;> omega
    obtain ⟨hleft, hrest⟩ := ih (n - k)
    have heq : creditFlights c dst n (e :: es)
        = ({ e with outstanding := e.outstanding - k } :: (creditFlights c dst (n - k) es).1, (creditFlights c dst (n - k) es).2) := by
      rw [hk]
      rfl
    rw [heq]
    refine ⟨by dsimp only; omega, fun i f hf => ?_⟩
    cases i with
    | zero =>
      obtain rfl : e = f := Option.some.inj hf
      refine ⟨_, rfl, rfl, by dsimp only; omega, by dsimp only; omega, fun hno => ?_⟩
      rw [hmatch hno]
      rfl
    | succ i =>
      obtain ⟨g, hg, hfg⟩ := hrest i f hf
      exact ⟨g, hg, hfg.mono (by dsimp only; omega)⟩

/-- Completing writes over some channels changes descriptors and nothing else, and completes no more writes than there are. -/
theorem writesDone_credits (s : State) (c dst : Nat) (chs : List Nat) (n : Nat) :
    { s.writesDone c dst chs n with channels := s.channels } = s ∧ ∀ ch, CreditedAll c dst n (s.channel ch) ((s.writesDone c dst chs n).channel ch) := by
  induction chs generalizing s n with
  | nil => exact ⟨rfl, fun ch i f hf => ⟨f, hf, credited_refl c dst n f⟩⟩
  | cons d ds ih =>
    obtain ⟨hleft, hhead⟩ := creditFlights_credits c dst n (s.channel d)
    obtain ⟨hframe, htail⟩ := ih (s.setChannel d (creditFlights c dst n (s.channel d)).1) (creditFlights c dst n (s.channel d)).2
    refine ⟨((congrArg (fun v : State => { v with channels := s.channels }) hframe :)), fun ch => ?_⟩
    by_cases hch : d = ch
    · subst hch
      have hall := htail d
      rw [State.setChannel_channel_same] at hall
      have htotal := hhead.trans hall
      rwa [Nat.sub_add_cancel hleft] at htotal
    · have hall := htail ch
      rw [State.setChannel_channel_ne _ _ _ _ hch] at hall
      intro i f hf
      obtain ⟨g, hg, hfg⟩ := hall i f hf
      exact ⟨g, hg, hfg.mono hleft⟩

/-! ## WRITE_DONE, R328, R330 -/

/-- A WRITE_DONE before any fence completes. -/
def State.acked (s : State) (h : PackHdr) (n : Nat) : State :=
  let s1 := s.writesDone h.ctx h.src (s.channels.map Prod.fst) n
  { s1 with pack := { s1.pack with
      wacked := Tab.upd 0 s1.pack.wacked (64 * h.ctx + h.src) (fun a => min (Tab.get 0 s1.pack.wsent (64 * h.ctx + h.src)) (a + n)) } }

/-- The steps whose pack fence is complete. -/
def State.unfenced (s : State) (c : Nat) : List Nat := (s.fencing c).filter (fun t => !s.writesOpen (s.thread t).fence)

/-- Steps go on after their fences, and the context settles. -/
def State.goOn (s : State) (c : Nat) (l : List Nat) : State := l.foldl (fun v t => (v.afterFence t).settle c) s

theorem execWriteDone_eq {n : Nat} (hu : s.recv port h (.writeDone n) = .take u) :
    exec (.writeDone port h n) s = .next ((u.acked h n).goOn h.ctx ((u.acked h n).unfenced h.ctx)) := by
  show execWriteDone port h n s = _
  unfold execWriteDone
  rw [onFrame_of_small (by simp [PackBody.bytes]) hu]
  rfl

theorem acked_frame (u : State) (h : PackHdr) (n : Nat) :
    { u.acked h n with channels := u.channels, pack := { (u.acked h n).pack with wacked := u.pack.wacked } } = u :=
  (congrArg (fun v : State => { v with pack := { v.pack with wacked := u.pack.wacked } }) (writesDone_credits u h.ctx h.src (u.channels.map Prod.fst) n).1 :)

theorem acked_threads (u : State) (h : PackHdr) (n : Nat) : (u.acked h n).threads = u.threads := (congrArg State.threads (acked_frame u h n) :)

theorem acked_wacked (u : State) (h : PackHdr) (n : Nat) : (u.acked h n).pack.wacked
    = Tab.upd 0 u.pack.wacked (64 * h.ctx + h.src) (fun a => min (Tab.get 0 u.pack.wsent (64 * h.ctx + h.src)) (a + n)) := by
  have hpack : (u.writesDone h.ctx h.src (u.channels.map Prod.fst) n).pack = u.pack :=
    (congrArg State.pack (writesDone_credits u h.ctx h.src (u.channels.map Prod.fst) n).1 :)
  unfold State.acked
  dsimp only
  rw [hpack]

theorem goOn_steady (s : State) (c : Nat) (l : List Nat) : (s.goOn c l).steady = s.steady :=
  foldl_part State.steady (fun v t => (settle_steady _ c).trans (afterFence_steady v t)) l s

theorem fencing_of_threads {s t : State} (hthreads : t.threads = s.threads) (c : Nat) : t.fencing c = s.fencing c := by
  rw [State.fencing, hthreads]
  rfl

theorem writesOpen_of_wacked {s t : State} (hwacked : t.pack.wacked = s.pack.wacked) (l : List (Nat × Nat)) : t.writesOpen l = s.writesOpen l := by
  rw [State.writesOpen, hwacked]
  rfl

/-- After a change of a thread its table entry is the only one. -/
theorem mem_updThread {k : Nat} {x : Thread} {f : Thread → Thread} (hx : (k, x) ∈ (s.updThread k f).threads) : x = (s.updThread k f).thread k := by
  have hdrop (t : Tab Thread) : ∀ y, (k, y) ∉ Tab.drop t k := by
    induction t with
    | nil => exact fun y hy => absurd hy (by simp [Tab.drop])
    | cons e t ih =>
      intro y hy
      rw [Tab.drop] at hy
      split at hy
      · exact ih y hy
      · next hne =>
        obtain heq | hin := List.mem_cons.mp hy
        · exact hne (congrArg Prod.fst heq).symm
        · exact ih y hin
  have hput (t : Tab Thread) (v : Thread) (ht : ∀ y, (k, y) ∉ t) : ∀ y, (k, y) ∈ Tab.put t k v → y = v := by
    induction t with
    | nil => simp [Tab.put]
    | cons e t ih =>
      intro y hy
      rw [Tab.put] at hy
      obtain ⟨hhead, htail⟩ : (k, y) ≠ e ∧ (k, y) ∉ t := by simpa using ht y
      split at hy
      · obtain heq | hin := List.mem_cons.mp hy
        · exact absurd heq hhead
        · exact ih (fun z hz => ht z (List.mem_cons_of_mem _ hz)) y hin
      · obtain heq | hin := List.mem_cons.mp hy
        · exact congrArg Prod.snd heq
        · exact absurd hin (ht y)
  rw [State.updThread_thread_same]
  change (k, x) ∈ Tab.set {} s.threads k (f (s.thread k)) at hx
  unfold Tab.set at hx
  split at hx
  · exact absurd hx (hdrop _ x)
  · exact hput _ _ (hdrop _) x hx

/-- A step that is no barrier arrive is done with its fence, whatever context settles after it. -/
theorem afterFence_settle {k : Nat} (hkind : rKind (s.recordOf k) ≠ 9) (c : Nat) :
    (((s.afterFence k).settle c).thread k).state = .running ∧ (((s.afterFence k).settle c).thread k).done = true
      ∧ (((s.afterFence k).settle c).thread k).waits = .none := by
  have hrecord : (s.updThread k (fun x => { x with unseen := [] })).recordOf k = s.recordOf k := by
    unfold State.recordOf
    rw [State.updThread_thread_same]
    rfl
  obtain ⟨v, hdone⟩ : ∃ v : State, s.afterFence k = v.stepDone k := by
    unfold State.afterFence
    dsimp only
    rw [hrecord, if_neg hkind]
    exact ⟨_, rfl⟩
  have hthread : (v.stepDone k).thread k = { v.thread k with state := .running, done := true, waits := .none, emulated := false } :=
    State.updThread_thread_same ..
  have hkept := settle_progress (s := v.stepDone k) (k := k) (fun x hx => mem_updThread hx) (by rw [hthread]) c
  rw [hdone]
  simp only [State.progress, hthread, Prod.mk.injEq] at hkept
  exact hkept

theorem execWriteDone_takesEffect {n : Nat} (hu : s.recv port h (.writeDone n) = .take u) : ∃ t, exec (.writeDone port h n) s = .next t
    ∧ Tab.get 0 t.pack.wacked (64 * h.ctx + h.src) = min (Tab.get 0 s.pack.wsent (64 * h.ctx + h.src)) (Tab.get 0 s.pack.wacked (64 * h.ctx + h.src) + n)
    ∧ (∀ k, k ≠ 64 * h.ctx + h.src → Tab.get 0 t.pack.wacked k = Tab.get 0 s.pack.wacked k)
    ∧ (s.fencing h.ctx = [] → t = u.acked h n)
    ∧ (∀ (th : Nat) (v : State), s.fencing h.ctx = [th] → v.pack = { u.pack with wacked := t.pack.wacked } → rKind (s.recordOf th) ≠ 9 →
        (v.writesOpen (s.thread th).fence = true → t.thread th = s.thread th)
        ∧ (v.writesOpen (s.thread th).fence = false → (t.thread th).state = .running ∧ (t.thread th).done = true ∧ (t.thread th).waits = .none))
    ∧ t.mem = s.mem ∧ t.results = s.results := by
  have hreceived := received_of_recv hu
  have hthreads : (u.acked h n).threads = s.threads := (acked_threads u h n).trans (hreceived.part State.threads fun _ _ _ => rfl)
  have hthread (k : Nat) : (u.acked h n).thread k = s.thread k := by rw [State.thread, hthreads]; rfl
  have hcores : (u.acked h n).cores = s.cores :=
    ((congrArg State.cores (acked_frame u h n) :)).trans (hreceived.part State.cores fun _ _ _ => rfl)
  have hsteady := goOn_steady (u.acked h n) h.ctx ((u.acked h n).unfenced h.ctx)
  have hwacked : ((u.acked h n).goOn h.ctx ((u.acked h n).unfenced h.ctx)).pack.wacked = (u.acked h n).pack.wacked := congrArg (fun x => x.1.wacked) hsteady
  have hsame : u.pack.wacked = s.pack.wacked := hreceived.part (·.pack.wacked) fun _ _ _ => rfl
  refine ⟨_, execWriteDone_eq hu, ?_, fun k hk => ?_, fun hnone => ?_, fun th v hone hv hkind => ?_, ?_, ?_⟩
  · rw [hwacked, acked_wacked, Tab.get_upd_same, hsame, show u.pack.wsent = s.pack.wsent from hreceived.part (·.pack.wsent) fun _ _ _ => rfl]
  · rw [hwacked, acked_wacked, Tab.get_upd_ne _ _ _ _ hk.symm, hsame]
  · rw [State.unfenced, fencing_of_threads hthreads, hnone]
    rfl
  · have hopen : v.writesOpen (s.thread th).fence = (u.acked h n).writesOpen ((u.acked h n).thread th).fence := by
      rw [hthread]
      exact writesOpen_of_wacked ((congrArg Pack.wacked hv).trans hwacked) _
    have hfences : (u.acked h n).unfenced h.ctx = [th].filter (fun k => !(u.acked h n).writesOpen ((u.acked h n).thread k).fence) := by
      rw [State.unfenced, fencing_of_threads hthreads, hone]
    refine ⟨fun hwaits => ?_, fun hcovered => ?_⟩
    · rw [hopen] at hwaits
      rw [hfences, List.filter_singleton, hwaits]
      exact hthread th
    · rw [hopen] at hcovered
      have hrecord : (u.acked h n).recordOf th = s.recordOf th := by
        rw [State.recordOf, State.core, hcores, hthread]
        rfl
      rw [hfences, List.filter_singleton, hcovered]
      exact afterFence_settle (by rwa [hrecord]) h.ctx
  · have hmem : (u.acked h n).mem = u.mem := (congrArg State.mem (acked_frame u h n) :)
    exact (congrArg (fun x => x.2.1.1) hsteady).trans (hmem.trans hreceived.mem)
  · have hresults : (u.acked h n).results = u.results := (congrArg State.results (acked_frame u h n) :)
    exact (congrArg (fun x => x.2.2) hsteady).trans (hresults.trans hreceived.results)

/-- The only descriptor takes as much of the count as it has writes under way. -/
theorem acked_single {ch : Nat} {f : Flight} (n : Nat) (hchannels : u.channels = [(ch, [f])]) (hf : f.writesTo h.ctx h.src) :
    (u.acked h n).channel ch = [{ f with outstanding := f.outstanding - n }] := by
  have hchannel : u.channel ch = [f] := by simp [State.channel, hchannels, Tab.get]
  have hcredit : (creditFlights h.ctx h.src n [f]).1 = [{ f with outstanding := f.outstanding - n }] := by
    have hleft : f.outstanding - min n f.outstanding = f.outstanding - n := by omega
    unfold creditFlights
    dsimp only
    rw [if_pos (show f.ctx = h.ctx ∧ dDtier f.desc = 6 ∧ dDunit f.desc / 2 ^ 26 = h.src from hf), hleft]
    rfl
  have hdone : (u.acked h n).channel ch = (u.setChannel ch (creditFlights h.ctx h.src n (u.channel ch)).1).channel ch := by
    unfold State.acked
    rw [hchannels]
    rfl
  rw [hdone, State.setChannel_channel_same, hchannel, hcredit]

/-! ## REMOTE_WRITE_TIMEOUT, R330 -/

/-- The descriptor whose writes time out has left its channel, and its writes count as covered. -/
def State.timedOut (s : State) (ch i : Nat) (f : Flight) : State :=
  let s1 := (s.setChannel ch ((s.channel ch).eraseIdx i)).updRing f.ring (fun x => { x with inflight := x.inflight - 1 })
  { s1 with pack := { s1.pack with wacked := Tab.upd 0 s1.pack.wacked (64 * f.ctx + dDunit f.desc / 2 ^ 26) (· + f.outstanding) } }

/-- The ring of a failed write is halted with ERR 4, and a pack fence of its context fails from now on. -/
def State.haltedWrite (s : State) (f : Flight) : State :=
  let s1 := s.updRing f.ring (fun x => { x with state := 2, err := 4 })
  { s1 with pack := { s1.pack with failedWrites := if s1.pack.failedWrites.contains f.ctx then s1.pack.failedWrites else s1.pack.failedWrites ++ [f.ctx] } }

/-- A pack fence of the descriptor's context waits for one of its writes. -/
def State.fencesOver (s : State) (f : Flight) : Bool :=
  (s.fencing f.ctx).any (fun t => decide (f.wfrom < Tab.get 0 (s.thread t).fence (64 * f.ctx + dDunit f.desc / 2 ^ 26)))

variable {ch i : Nat}

/-- The state in which the writes of a descriptor have failed, before the event. -/
def State.failedWrite (s : State) (ch i : Nat) (f : Flight) : State := (s.timedOut ch i f).haltedWrite f

theorem failedWrite_keeps (s : State) (ch i : Nat) (f : Flight) : (s.failedWrite ch i f).mem = s.mem ∧ (s.failedWrite ch i f).threads = s.threads
    ∧ (s.failedWrite ch i f).ctxs = s.ctxs ∧ (s.failedWrite ch i f).sync = s.sync ∧ (s.failedWrite ch i f).hist = s.hist := by
  dsimp only [State.failedWrite, State.haltedWrite, State.timedOut, State.updRing, State.setChannel]
  exact ⟨rfl, rfl, rfl, rfl, rfl⟩

theorem failedWrite_channel (s : State) (ch i : Nat) (f : Flight) (k : Nat) :
    (s.failedWrite ch i f).channel k = (s.setChannel ch ((s.channel ch).eraseIdx i)).channel k := by
  dsimp only [State.failedWrite, State.haltedWrite, State.timedOut, State.updRing, State.setChannel, State.channel]

theorem failedWrite_ring (s : State) (ch i : Nat) (f : Flight) (r : Nat) : (s.failedWrite ch i f).ring r
    = ((s.updRing f.ring (fun x => { x with inflight := x.inflight - 1 })).updRing f.ring (fun x => { x with state := 2, err := 4 })).ring r := by
  dsimp only [State.failedWrite, State.haltedWrite, State.timedOut, State.updRing, State.setChannel, State.ring]

theorem failedWrite_wacked (s : State) (ch i : Nat) (f : Flight) : (s.failedWrite ch i f).pack.wacked
    = Tab.upd 0 s.pack.wacked (64 * f.ctx + dDunit f.desc / 2 ^ 26) (· + f.outstanding) := by
  dsimp only [State.failedWrite, State.haltedWrite, State.timedOut, State.updRing, State.setChannel]

theorem fencesOver_of_threads {s t : State} (hthreads : t.threads = s.threads) (f : Flight) : t.fencesOver f = s.fencesOver f := by
  unfold State.fencesOver State.fencing State.thread
  rw [hthreads]

theorem mem_failedWrites (s : State) (f : Flight) : f.ctx ∈ (s.haltedWrite f).pack.failedWrites := by
  unfold State.haltedWrite
  dsimp only
  split
  · next hin => simpa using hin
  · simp

/-- The event of a failed write: the FAULT bit is set, and nothing changes but what an event touches. -/
theorem descFails_logged (s : State) (ch i : Nat) (f : Flight) :
    Logged (s.failedWrite ch i f) ((s.timedOut ch i f).descFails f.ring f.ctx (dTag f.desc) 4) [(2, 0)] :=
  logged_troubleAs _ 2 0 _ (by decide) (by decide)

/-- A timeout fails the writes of the first descriptor that has some under way; a pack fence that covers one of them then fails. -/
theorem execRemoteWriteTimeout_eq (hfirst : (s.channel ch).findIdx? (fun f => decide (0 < f.outstanding)) = some i) (hf : (s.channel ch)[i]? = some f) :
    ∃ t, Logged (s.failedWrite ch i f) t [(2, 0)]
      ∧ exec (.remoteWriteTimeout ch) s = .next (if s.fencesOver f then t.fenceFails f.ctx else t) := by
  have hlogged := descFails_logged s ch i f
  have hexec : exec (.remoteWriteTimeout ch) s = .next (if ((s.timedOut ch i f).descFails f.ring f.ctx (dTag f.desc) 4).fencesOver f
      then ((s.timedOut ch i f).descFails f.ring f.ctx (dTag f.desc) 4).fenceFails f.ctx
      else (s.timedOut ch i f).descFails f.ring f.ctx (dTag f.desc) 4) := by
    show execRemoteWriteTimeout ch s = _
    unfold execRemoteWriteTimeout
    rw [hfirst]
    dsimp only
    rw [hf]
    exact (apply_ite Host.Outcome.next _ _ _).symm
  generalize (s.timedOut ch i f).descFails f.ring f.ctx (dTag f.desc) 4 = t at hlogged hexec
  have hthreads : t.threads = (s.failedWrite ch i f).threads := hlogged.part State.threads fun _ _ _ _ _ _ => rfl
  obtain ⟨-, hkept, -⟩ := failedWrite_keeps s ch i f
  rw [fencesOver_of_threads (hthreads.trans hkept)] at hexec
  exact ⟨t, hlogged, hexec⟩

theorem execRemoteWriteTimeout_halts (hfirst : (s.channel ch).findIdx? (fun f => decide (0 < f.outstanding)) = some i) (hf : (s.channel ch)[i]? = some f)
    (hclear : s.fencesOver f = false) : ∃ t, exec (.remoteWriteTimeout ch) s = .next t
      ∧ t.channel ch = (s.channel ch).eraseIdx i ∧ (∀ k, k ≠ ch → t.channel k = s.channel k) ∧ (t.ring f.ring).state = 2 ∧ (t.ring f.ring).err = 4
      ∧ (t.ring f.ring).inflight = (s.ring f.ring).inflight - 1 ∧ (∀ r, r ≠ f.ring → t.ring r = s.ring r) ∧ f.ctx ∈ t.pack.failedWrites
      ∧ Tab.get 0 t.pack.wacked (64 * f.ctx + dDunit f.desc / 2 ^ 26) = Tab.get 0 s.pack.wacked (64 * f.ctx + dDunit f.desc / 2 ^ 26) + f.outstanding
      ∧ (t.logs.word 2).getLsbD 0 = true ∧ t.mem = s.mem ∧ t.threads = s.threads ∧ t.ctxs = s.ctxs ∧ t.sync = s.sync ∧ t.hist = s.hist := by
  obtain ⟨t, hlogged, hexec⟩ := execRemoteWriteTimeout_eq hfirst hf
  obtain ⟨hmem, hthreads, hctxs, hsync, hhist⟩ := failedWrite_keeps s ch i f
  rw [hclear] at hexec
  have hchannel (k : Nat) : t.channel k = (s.setChannel ch ((s.channel ch).eraseIdx i)).channel k :=
    (hlogged.part (·.channel k) fun _ _ _ _ _ _ => rfl).trans (failedWrite_channel s ch i f k)
  have hring (r : Nat) := (hlogged.part (·.ring r) fun _ _ _ _ _ _ => rfl).trans (failedWrite_ring s ch i f r)
  have hown : t.ring f.ring = { s.ring f.ring with inflight := (s.ring f.ring).inflight - 1, state := 2, err := 4 } := by
    rw [hring, State.updRing_ring_same, State.updRing_ring_same]
  have hpack : t.pack = (s.failedWrite ch i f).pack := hlogged.part State.pack fun _ _ _ _ _ _ => rfl
  refine ⟨t, hexec, (hchannel ch).trans (State.setChannel_channel_same ..), fun k hk => (hchannel k).trans (State.setChannel_channel_ne _ _ _ _ hk.symm),
    by rw [hown], by rw [hown], by rw [hown], fun r hr => ?_, ?_, ?_, ?_, (hlogged.part State.mem fun _ _ _ _ _ _ => rfl).trans hmem,
    (hlogged.part State.threads fun _ _ _ _ _ _ => rfl).trans hthreads, (hlogged.part State.ctxs fun _ _ _ _ _ _ => rfl).trans hctxs,
    (hlogged.part State.sync fun _ _ _ _ _ _ => rfl).trans hsync, (hlogged.part State.hist fun _ _ _ _ _ _ => rfl).trans hhist⟩
  · rw [hring, State.updRing_ring_ne _ _ _ _ hr.symm, State.updRing_ring_ne _ _ _ _ hr.symm]
  · rw [hpack]
    exact mem_failedWrites ..
  · rw [hpack, failedWrite_wacked, Tab.get_upd_same]
  · obtain ⟨-, -, hbits⟩ := hlogged
    rw [hbits 2 0 (by decide)]
    simp

theorem execRemoteWriteTimeout_faults (hfirst : (s.channel ch).findIdx? (fun f => decide (0 < f.outstanding)) = some i) (hf : (s.channel ch)[i]? = some f)
    (hover : s.fencesOver f = true) (hstarted : (s.ctx f.ctx).started = true) (hstop : (s.ctx f.ctx).stopReq = none) :
    ∃ t, exec (.remoteWriteTimeout ch) s = .next t ∧ (t.ctx f.ctx).state = .faulted ∧ (t.ctx f.ctx).cause = 0x340
      ∧ (t.logs.word 2).getLsbD 0 = true ∧ t.mem = s.mem := by
  obtain ⟨t, hlogged, hexec⟩ := execRemoteWriteTimeout_eq hfirst hf
  obtain ⟨hmem, -, hctxs, -, -⟩ := failedWrite_keeps s ch i f
  have hctx : t.ctx f.ctx = s.ctx f.ctx := ctx_of_ctxs ((hlogged.part State.ctxs fun _ _ _ _ _ _ => rfl).trans hctxs) f.ctx
  have hbefore : t.mem = s.mem := (hlogged.part State.mem fun _ _ _ _ _ _ => rfl).trans hmem
  rw [hover, if_pos rfl, State.fenceFails, faultCtx_of_no_stop (by rwa [hctx]) (by rwa [hctx])] at hexec
  obtain ⟨hafter, hbit, honly⟩ := faultEvent_leaves (t.struck f.ctx 0x340) { code := 0x340, loc := 0, ctx := f.ctx, detail := [] }
  obtain ⟨hstate, hcause, -, -⟩ := struck_ctx t f.ctx 0x340
  rw [← ctx_of_ctxs hafter] at hstate hcause
  exact ⟨_, hexec, hstate, hcause, hbit, ((congrArg State.mem ((faultOnly_struck t f.ctx 0x340).trans honly) :)).trans hbefore⟩

/-! ## The obligation -/

/-- Settles O45: writes by the bytes that a store changes; WRITE_DONE by what its count takes from the descriptors and by what a step that
goes on after its fence leaves alone; a timeout by whether a pack fence covers the failed writes. -/
theorem remoteWritesAreDoneOrTimeOut : Obligations.RemoteWritesAreDoneOrTimeOut := by
  unfold Obligations.RemoteWritesAreDoneOrTimeOut
  refine ⟨fun s u port h data hu => ⟨execWriteFrame_takesEffect hu, execWriteFrame_drops hu⟩, fun s u port h n hu => ?_,
    fun s ch i f hfirst hf => ⟨fun hclear => ?_, fun th hth hlt hstarted hstop => ?_⟩⟩
  · obtain ⟨t, hexec, hacked, hothers, hnone, hfences, hmem, hresults⟩ := execWriteDone_takesEffect hu
    have hchannels : u.channels = s.channels := (received_of_recv hu).part State.channels fun _ _ _ => rfl
    have hchannel (k : Nat) : u.channel k = s.channel k := by rw [State.channel, hchannels]; rfl
    refine ⟨t, hexec, hacked, hothers, fun hempty => ?_, hfences, hmem, hresults⟩
    obtain rfl := hnone hempty
    refine ⟨by rw [← hchannels]; exact acked_frame u h n, fun ch i f hf => ?_, fun ch f hone hctx htier hunit => ?_⟩
    · rw [← hchannel] at hf
      obtain ⟨g, hg, hsame, hle, hmost, hother⟩ := (writesDone_credits u h.ctx h.src (u.channels.map Prod.fst) n).2 ch i f hf
      refine ⟨g, hg, hsame, hle, hmost, fun hno => hother ?_⟩
      rintro ⟨hctx, htier, hunit⟩
      obtain hne | hne | hne := hno
      · exact hne hctx
      · exact hne htier
      · exact hne hunit
    · exact acked_single n (hchannels.trans hone) ⟨hctx, htier, hunit⟩
  · refine execRemoteWriteTimeout_halts hfirst hf (List.any_eq_false.mpr fun th hth => ?_)
    have hle := hclear th hth
    simp only [decide_eq_true_eq]
    omega
  · exact execRemoteWriteTimeout_faults hfirst hf (List.any_eq_true.mpr ⟨th, hth, decide_eq_true hlt⟩) hstarted hstop

end Sys2Proof.Machine
end

section
/-! LEAD_HB at a member whose watch context it starts beyond the budget in force (R71, R309, R364). -/

namespace Sys2Proof.Machine

open Sys2Proof

/-! ## What a start does to the supplies -/

theorem overBudget_of_shared {s : State} (h : s.inForce < s.supply.sharedDraw) (d : Dom) : s.overBudget d = true := by
  unfold State.overBudget State.projected
  refine decide_eq_true ?_
  omega

/-- A power-up beyond the budget waits. -/
theorem askPower_waits {s : State} {d : Dom} (c : Nat) (hoff : s.dom d = .off) (hwaiting : s.supply.waiting = [])
    (hover : s.inForce < s.supply.sharedDraw) : (s.askPower d c).supply.waiting = [(d, c)] := by
  have hheld : (s.holdPower d c).supply = { s.supply with waiting := s.supply.waiting ++ [(d, c)] } := by
    unfold State.holdPower
    dsimp only
    (repeat' split) <;> simp
  unfold State.askPower
  rw [if_neg (by simp [hoff, hwaiting]), if_pos (overBudget_of_shared hover d), hheld, hwaiting]
  rfl

/-- What a start changes of the supplies it changes in binding. -/
theorem startCtx_supply {s v : State} {c : Nat} {i : Image} {m : Member} (htests : s.startTests c = .ok (i, m))
    (hbind : (s.budgetedFor c m).bindCtx c i m = some v) : (s.startCtx c).2.supply = v.supply := by
  have hbegun : (v.begin c m).supply = v.supply := by
    unfold State.begin State.syncIngest
    dsimp only
    (repeat' split) <;> rfl
  have hshed : ((v.begin c m).shedCtx c).supply = v.supply := by
    unfold State.shedCtx
    dsimp only
    split <;> simp [hbegun]
  rw [startCtx_eq, htests]
  simp only [hbind]
  split
  · exact hbegun
  · exact hshed

/-! ## The member and the frame -/

/-- An image whose watch member has one thread. -/
def oneThread : Image := { watch := some { quota := { threads := 1 } }, programs := [{ thread := 0 }] }

/-- An admitted member at position 0 of a pack of two, with a shared draw beyond its budget. It fills, and its watch context is Free. -/
def overBudgetMember : State :=
  { life := { phase := .ready }
    opt := { loaded := { psize := 2 } }
    supply := { sharedDraw := 10000 }
    img := { good := true, active := some 0, slot0 := { state := 1, image := some oneThread } }
    pack := { ports := [(0, { state := 3, peer := 1 })], admitted := true, hasLead := true, lead := 1 } }

/-- The header of a frame of position 1. -/
def fromLead : PackHdr := { src := 1 }

/-- LEAD_HB of the next epoch, whose RUN byte has the watch context and an inspect context started. -/
def nextLeadHb : PackBody := .leadHb 1 1 0 1 none 3 [] 2 3 []

/-- The membership that it carries. -/
def nextMembership : Membership := { epoch := 1, lead := 1, fill := 0, source := 1, standby := 0xFF, live := 3, run := 3 }

/-- The member as it has received the frame. -/
def frameTaken : State := (overBudgetMember.recv 0 fromLead nextLeadHb).after

theorem recv_nextLeadHb : overBudgetMember.recv 0 fromLead nextLeadHb = .take frameTaken := rfl

/-- The link map and the issued records are taken. -/
def frameHeard : State :=
  { frameTaken with pack := { frameTaken.pack with
      linkMap := (List.range 64).foldl (fun t p => Tab.set 0 t p (([] : List Nat).getD p 0)) []
      issued := (List.range 64).foldl (fun t p => Tab.set 0 t p (([] : List Nat).getD p 0)) [] } }

theorem exec_nextLeadHb : exec (.leadHb 0 fromLead 1 1 0 1 none 3 [] 2 3 []) overBudgetMember = .next (frameHeard.adopt nextMembership) := by
  show execLeadHb 0 fromLead 1 1 0 1 none 3 [] 2 3 [] overBudgetMember = _
  unfold execLeadHb
  rw [← nextLeadHb, onFrame_of_small (by decide) recv_nextLeadHb]
  refine congrArg Host.Outcome.next (if_neg ?_)
  decide +kernel

/-- The member in the new epoch, before it does what the RUN byte asks. -/
def inNextEpoch : State := ((frameHeard.setMembership nextMembership).passesNewEpoch).followRoles frameHeard.pack

theorem adopt_nextMembership : frameHeard.adopt nextMembership = inNextEpoch.followRun.syncIngest := rfl

/-- The RUN byte asks that the watch context starts, and nothing else. -/
theorem followRun_starts : inNextEpoch.followRun = (inNextEpoch.startCtx 0).2 := by
  have hrun : (inNextEpoch.startCtx 0).2.pack.run = 3 :=
    (congrArg Charter.run (startCtx_charter inNextEpoch 0)).trans (by decide +kernel)
  have hstart : inNextEpoch.followRun = (if (inNextEpoch.startCtx 0).2.pack.lead ≠ inNextEpoch.optv.ppos ∧ (inNextEpoch.startCtx 0).2.pack.run / 2 % 2 = 0
      then (((inNextEpoch.startCtx 0).2.ctxs.filter (fun e => decide (e.1 ≠ 0) && e.2.holds && e.2.stopReq.isNone)).map Prod.fst).foldl
        (fun v c => v.askStop c []) (inNextEpoch.startCtx 0).2
      else (inNextEpoch.startCtx 0).2) := rfl
  rw [hstart, hrun]
  exact if_neg fun ⟨_, hnone⟩ => absurd hnone (by decide)

/-- The member's watch context before its thread is bound. -/
def beforeThread : State :=
  (((inNextEpoch.budgetedFor 0 { quota := { threads := 1 } }).unbound 0).updThread 0 (fun x => { x.freed with state := .boundary, ctx := 0 }))

theorem bindCtx_oneThread : (inNextEpoch.budgetedFor 0 { quota := { threads := 1 } }).bindCtx 0 oneThread { quota := { threads := 1 } }
    = some ((beforeThread.askPower (.coreGroup 0) 0).updCtx 0 (fun y => { y with buffers := 0 })) := rfl

theorem startTests_oneThread : inNextEpoch.startTests 0 = .ok (oneThread, { quota := { threads := 1 } }) := rfl

/-- The power-up of the thread's core group waits. -/
theorem startCtx_waits : (inNextEpoch.startCtx 0).2.supply.waiting = [(.coreGroup 0, 0)] := by
  rw [startCtx_supply startTests_oneThread bindCtx_oneThread]
  exact askPower_waits 0 (by decide +kernel) (by decide +kernel) (by decide +kernel)

theorem syncIngest_supply (s : State) : s.syncIngest.supply = s.supply := by
  unfold State.syncIngest
  (repeat' split) <;> rfl

/-- Refutes O48: the RUN byte of a LEAD_HB starts the watch context of the filling module, and a power-up beyond the budget then waits in the
supplies, which the statement has unchanged. -/
theorem not_membershipsAreHeardAndAdopted : ¬ Obligations.MembershipsAreHeardAndAdopted := by
  rintro ⟨-, -, -, hleadHb, -⟩
  obtain ⟨-, hadopts, -⟩ := hleadHb overBudgetMember frameTaken 0 fromLead 1 1 0 1 none 3 [] 2 3 [] recv_nextLeadHb
  obtain ⟨t, hexec, -, -, -, -, -, -, -, -, -, -, -, -, -, hsupply⟩ := hadopts (by decide) (by decide)
  rw [exec_nextLeadHb, adopt_nextMembership, followRun_starts] at hexec
  have hwaits : t.supply.waiting = [(.coreGroup 0, 0)] := by
    rw [← Host.Outcome.next.inj hexec, syncIngest_supply, startCtx_waits]
  rw [hsupply] at hwaits
  exact absurd hwaits (by decide)

end Sys2Proof.Machine
end

section
/-! SLOT_SET, SLOT_FREE, PORT_SET and STREAM_CLEAR (R358, R360 to R362, R373, R388, R389, R392). -/

namespace Sys2Proof.Machine

open Sys2Proof

variable {s t u : State} {sid : Nat} {x : Session} {p : Packet} {c : SlotCfg} {co : Comms} {ou : List Out}

/-! ## What the rules of these commands look at -/

@[simp] theorem askedAt_consuming (s : State) (sid : Nat) (p : Packet) (l : Life) (n : Nat) : (s.askedAt sid p l).consuming n = s.consuming n := rfl
@[simp] theorem askedAt_slotClash (s : State) (sid : Nat) (p : Packet) (l : Life) (n : Nat) (c : SlotCfg) :
    (s.askedAt sid p l).slotClash n c = s.slotClash n c := rfl
@[simp] theorem configChanged_slot (s : State) (n : Nat) : s.configChanged.slot n = s.slot n := rfl
@[simp] theorem commit_slot (s : State) (n : Nat) : s.commit.slot n = s.slot n := rfl
@[simp] theorem askPower_slot (s : State) (d : Dom) (c n : Nat) : (s.askPower d c).slot n = s.slot n :=
  askPower_part s (·.slot n) d c fun _ _ _ _ _ _ _ _ _ => rfl

theorem WriteDone.slot {st : Status} {vs : List (List Byte)} (h : WriteDone s t sid x p st vs u) (n : Nat) : t.slot n = u.slot n :=
  h.part (·.slot n) fun _ _ _ => rfl

/-- The slot that a command changed, and every other slot. -/
theorem WriteDone.slots {st : Status} {vs : List (List Byte)} {n : Nat} {f : Slot → Slot} (h : WriteDone s t sid x p st vs u)
    (hu : ∀ k, u.slot k = (s.commit.updSlot n f).slot k) : t.slot n = f (s.slot n) ∧ ∀ k, k ≠ n → t.slot k = s.slot k := by
  refine ⟨?_, fun k hk => ?_⟩
  · rw [h.slot, hu, State.updSlot_slot_same, commit_slot]
  · rw [h.slot, hu, State.updSlot_slot_ne _ _ _ _ hk.symm, commit_slot]

/-! ## A request for power looks at neither sessions nor what has left the module -/

/-- The state with other sessions, and with other things that have left the module. -/
def State.told (s : State) (co : Comms) (ou : List Out) : State := { s with comms := co, out := ou }

theorem told_back (s : State) (co : Comms) (ou : List Out) : (s.told co ou).told s.comms s.out = s := rfl

theorem taken_eq_told (s : State) (sid : Nat) (p : Packet) : s.taken sid p = s.commit.told (s.taken sid p).comms (s.taken sid p).out := rfl

theorem logLimited_told (s : State) (e : LogEv) (tb : Option (Nat × Nat)) (co : Comms) (ou : List Out) :
    (s.told co ou).logLimited e tb = (s.logLimited e tb).told co ou := by
  have htold : Tab.get 0 (s.told co ou).logs.written e.key = Tab.get 0 s.logs.written e.key := rfl
  unfold State.logLimited
  rw [htold]
  split <;> rfl

/-- The record of an event of trouble bit `b` of word `w`, with its commit, and the bit. -/
def State.troubleSet (s : State) (w b : Nat) (e : LogEv) : State :=
  { s.commit.putLog (s.commit.mkLog e (some (w, b))) with
    logs := (s.commit.putLog (s.commit.mkLog e (some (w, b)))).logs.setWord w ((s.commit.putLog (s.commit.mkLog e (some (w, b)))).logs.word w ||| (1#32 <<< b)) }

theorem troubleAs_of_set {w b : Nat} (e : LogEv) (hset : (s.logs.word w).getLsbD b = true) : s.troubleAs w b e = s.logLimited e (some (w, b)) := if_pos hset

theorem troubleAs_of_not_set {w b : Nat} (e : LogEv) (hset : ¬ (s.logs.word w).getLsbD b = true) :
    s.troubleAs w b e = (s.troubleSet w b e).eventNotify w b (s.commit.mkLog e (some (w, b))) := if_neg hset

theorem troubleAs_told (s : State) (w b : Nat) (e : LogEv) (co : Comms) (ou : List Out) :
    ∃ co' ou', (s.told co ou).troubleAs w b e = (s.troubleAs w b e).told co' ou' := by
  by_cases hset : (s.logs.word w).getLsbD b = true
  · refine ⟨co, ou, ?_⟩
    rw [troubleAs_of_set e hset, ← logLimited_told]
    exact troubleAs_of_set (s := s.told co ou) e hset
  · obtain ⟨co₁, ou₁, h₁⟩ := eventNotify_eq (s.troubleSet w b e) w b (s.commit.mkLog e (some (w, b)))
    obtain ⟨co₂, ou₂, h₂⟩ := eventNotify_eq ((s.told co ou).troubleSet w b e) w b ((s.told co ou).commit.mkLog e (some (w, b)))
    refine ⟨co₂, ou ++ ou₂, ?_⟩
    rw [troubleAs_of_not_set e hset, troubleAs_of_not_set (s := s.told co ou) e hset, h₁, h₂]
    rfl

/-- The power-up waits, its context is held, and HELD is set. -/
def State.powerHeld (s : State) (d : Dom) (c : Nat) : State :=
  (({ s with supply := { s.supply with waiting := s.supply.waiting ++ [(d, c)] } } : State).updCtx c (fun y => { y with held := true })).trouble 0 9 0 12 c []

/-- The inspect context that a held power-up sheds, where there is one. -/
def State.shedFor (s : State) (c : Nat) : Option Nat :=
  (firstBy s.shedBefore (s.liveInspects.filter (fun k => decide (k ≠ c)))).filter (fun k => decide (s.prioOf k < s.prioOf c))

theorem holdPower_eq (s : State) (d : Dom) (c : Nat) : s.holdPower d c
    = ((s.powerHeld d c).shedFor c).elim (s.powerHeld d c) (fun k => (s.powerHeld d c).updCtx k (fun y => { y with shedQ := true })) := by
  change (match firstBy (s.powerHeld d c).shedBefore ((s.powerHeld d c).liveInspects.filter (fun k => decide (k ≠ c))) with
    | none => s.powerHeld d c
    | some k => if (s.powerHeld d c).prioOf k < (s.powerHeld d c).prioOf c then (s.powerHeld d c).updCtx k (fun y => { y with shedQ := true }) else s.powerHeld d c) = _
  rw [State.shedFor]
  cases firstBy (s.powerHeld d c).shedBefore ((s.powerHeld d c).liveInspects.filter (fun k => decide (k ≠ c))) with
  | none => rfl
  | some k => by_cases hprio : (s.powerHeld d c).prioOf k < (s.powerHeld d c).prioOf c <;> simp [Option.filter_some, hprio]

theorem holdPower_told (s : State) (d : Dom) (c : Nat) (co : Comms) (ou : List Out) :
    ∃ co' ou', (s.told co ou).holdPower d c = (s.holdPower d c).told co' ou' := by
  obtain ⟨co', ou', hheld⟩ := troubleAs_told (({ s with supply := { s.supply with waiting := s.supply.waiting ++ [(d, c)] } } : State).updCtx c
    (fun y => { y with held := true })) 0 9 { code := bitCode 0 9, loc := 0, bunit := 12, ctx := c, detail := [] } co ou
  have hheld : (s.told co ou).powerHeld d c = (s.powerHeld d c).told co' ou' := hheld
  have hshed : ((s.powerHeld d c).told co' ou').shedFor c = (s.powerHeld d c).shedFor c := rfl
  refine ⟨co', ou', ?_⟩
  rw [holdPower_eq, holdPower_eq, hheld, hshed]
  cases (s.powerHeld d c).shedFor c <;> rfl

theorem wakeDom_told (s : State) (d : Dom) (co : Comms) (ou : List Out) : (s.told co ou).wakeDom d = (s.wakeDom d).told co ou := by
  cases d with
  | coreGroup g =>
    have hdom : ((s.told co ou).startPlls (g / 16)).dom (.clusterCommon (g / 2)) = (s.startPlls (g / 16)).dom (.clusterCommon (g / 2)) := rfl
    unfold State.wakeDom
    dsimp only
    rw [hdom]
    split <;> rfl
  | _ => rfl

theorem askPower_told (s : State) (d : Dom) (c : Nat) (co : Comms) (ou : List Out) :
    ∃ co' ou', (s.told co ou).askPower d c = (s.askPower d c).told co' ou' := by
  by_cases hasked : s.dom d ≠ .off ∨ s.supply.waiting.any (fun w => decide (w.1 = d)) = true
  · exact ⟨co, ou, (if_pos hasked).trans (congrArg (State.told · co ou) (if_pos hasked).symm)⟩
  · rw [show s.askPower d c = if s.overBudget d then s.holdPower d c else s.wakeDom d from if_neg hasked,
      show (s.told co ou).askPower d c = if s.overBudget d then (s.told co ou).holdPower d c else (s.told co ou).wakeDom d from if_neg hasked]
    cases s.overBudget d with
    | true => exact holdPower_told s d c co ou
    | false => exact ⟨co, ou, wakeDom_told s d co ou⟩

/-! ## SLOT_SET, R360 to R362, R373 -/

/-- The state with a slot as SLOT_SET sets it. -/
def State.slotAs (s : State) (n : Nat) (c : SlotCfg) : State :=
  ((s.updSlot n (fun _ => { cfg := some c })).askPower .streamIngress 0).configChanged

theorem slotAs_told (s : State) (n : Nat) (c : SlotCfg) (co : Comms) (ou : List Out) : ∃ co' ou', (s.told co ou).slotAs n c = (s.slotAs n c).told co' ou' := by
  obtain ⟨co', ou', h⟩ := askPower_told (s.updSlot n (fun _ => { cfg := some c })) .streamIngress 0 co ou
  exact ⟨co', ou', congrArg State.configChanged h⟩

theorem execSlotSet_outOfRange {ty : Nat} (h : Asks s 0x0301 sid x p) (hasked : slotAsked p = .error ty) :
    ∃ t, execSlotSet sid s = .next t ∧ Refused s t sid x p .badParam (p.off ty) :=
  ⟨_, rfl, refused_of_asked h (by decide) fun _ => by simp only [hasked, CmdOut.bad]⟩

theorem execSlotSet_busy (h : Asks s 0x0301 sid x p) (hasked : slotAsked p = .ok c) (hfeeds : s.consuming (p.num 1) = true) :
    ∃ t, execSlotSet sid s = .next t ∧ Refused s t sid x p .busy 0 :=
  ⟨_, rfl, refused_of_asked h (by decide) fun _ => by simp only [hasked, askedAt_consuming, hfeeds, if_true, CmdOut.no]⟩

theorem execSlotSet_clash {ty : Nat} (h : Asks s 0x0301 sid x p) (hasked : slotAsked p = .ok c) (hfeeds : s.consuming (p.num 1) = false)
    (hclash : s.slotClash (p.num 1) c = some ty) : ∃ t, execSlotSet sid s = .next t ∧ Refused s t sid x p .badParam (p.off ty) :=
  ⟨_, rfl, refused_of_asked h (by decide) fun _ => by
    simp only [hasked, askedAt_consuming, hfeeds, Bool.false_eq_true, if_false, askedAt_slotClash, hclash, CmdOut.bad]⟩

theorem execSlotSet_done (h : Asks s 0x0301 sid x p) (hasked : slotAsked p = .ok c) (hfeeds : s.consuming (p.num 1) = false)
    (hclash : s.slotClash (p.num 1) c = none) : ∃ t, execSlotSet sid s = .next t ∧ WriteDone s t sid x p .ok [] (s.commit.slotAs (p.num 1) c) := by
  refine ⟨_, rfl, writeDone_of_taken_as ((s.taken sid p).slotAs (p.num 1) c) h (by decide) ?_ ?_⟩
  · rw [taken_eq_askedAt]
    simp only [hasked, askedAt_consuming, hfeeds, Bool.false_eq_true, if_false, askedAt_slotClash, hclash]
    rfl
  · obtain ⟨co, ou, htold⟩ := slotAs_told s.commit (p.num 1) c (s.taken sid p).comms (s.taken sid p).out
    rw [taken_eq_told, htold]
    exact told_back _ co ou

theorem execSlotSet_sets (h : Asks s 0x0301 sid x p) (hasked : slotAsked p = .ok c) (hfeeds : s.consuming (p.num 1) = false)
    (hclash : s.slotClash (p.num 1) c = none) : ∃ t, execSlotSet sid s = .next t ∧ WriteDone s t sid x p .ok [] (s.commit.slotAs (p.num 1) c)
      ∧ t.slot (p.num 1) = { cfg := some c } ∧ ∀ k, k ≠ p.num 1 → t.slot k = s.slot k := by
  obtain ⟨t, ht, hdone⟩ := execSlotSet_done h hasked hfeeds hclash
  exact ⟨t, ht, hdone, hdone.slots (f := fun _ => { cfg := some c }) fun k => by simp [State.slotAs]⟩

/-! ## SLOT_FREE -/

theorem execSlotFree_outOfRange (h : Asks s 0x0303 sid x p) (hslot : 31 < p.num 1) :
    ∃ t, execSlotFree sid s = .next t ∧ Refused s t sid x p .badParam (p.off 1) :=
  ⟨_, rfl, refused_of_asked h (by decide) fun _ => if_pos hslot⟩

theorem execSlotFree_busy (h : Asks s 0x0303 sid x p) (hslot : p.num 1 ≤ 31) (hfeeds : s.consuming (p.num 1) = true) :
    ∃ t, execSlotFree sid s = .next t ∧ Refused s t sid x p .busy 0 :=
  ⟨_, rfl, refused_of_asked h (by decide) fun _ => (if_neg (Nat.not_lt.2 hslot)).trans (if_pos hfeeds)⟩

theorem execSlotFree_done (h : Asks s 0x0303 sid x p) (hslot : p.num 1 ≤ 31) (hfeeds : s.consuming (p.num 1) = false) :
    ∃ t, execSlotFree sid s = .next t ∧ WriteDone s t sid x p .ok [] ((s.commit.updSlot (p.num 1) (fun _ => {})).configChanged) := by
  have hstands : ¬ (s.taken sid p).consuming (p.num 1) = true := by rw [taken_eq_askedAt, askedAt_consuming, hfeeds]; decide
  exact ⟨_, rfl, writeDone_of_taken_as ((s.taken sid p).updSlot (p.num 1) (fun _ => {})).configChanged h (by decide)
    ((if_neg (Nat.not_lt.2 hslot)).trans (if_neg hstands)) rfl⟩

theorem execSlotFree_frees (h : Asks s 0x0303 sid x p) (hslot : p.num 1 ≤ 31) (hfeeds : s.consuming (p.num 1) = false) :
    ∃ t, execSlotFree sid s = .next t ∧ WriteDone s t sid x p .ok [] ((s.commit.updSlot (p.num 1) (fun _ => {})).configChanged)
      ∧ t.slot (p.num 1) = {} ∧ ∀ k, k ≠ p.num 1 → t.slot k = s.slot k := by
  obtain ⟨t, ht, hdone⟩ := execSlotFree_done h hslot hfeeds
  exact ⟨t, ht, hdone, hdone.slots (f := fun _ => {}) fun k => configChanged_slot ..⟩

/-! ## PORT_SET, R358, R392 -/

theorem joinGroups_eq (s : State) (port : Nat) : ∃ ou, s.joinGroups port = { s with out := ou } := by
  unfold State.joinGroups
  split
  · exact ⟨_, rfl⟩
  · exact ⟨s.out, rfl⟩

/-- PORT_SET writes the option area; a join of groups only leaves the module. -/
theorem setPort_eq (s : State) (port : Nat) (ts : List Tlv) : ∃ ou, s.setPort port ts = { s.writeOption (fun o => o.setPort port ts) with out := ou } := by
  unfold State.setPort
  dsimp only
  split
  · exact joinGroups_eq ..
  · exact ⟨_, rfl⟩

theorem setPort_told (s : State) (port : Nat) (ts : List Tlv) (co : Comms) (ou : List Out) :
    ∃ co' ou', (s.told co ou).setPort port ts = (s.setPort port ts).told co' ou' := by
  obtain ⟨ou₁, h₁⟩ := setPort_eq s port ts
  obtain ⟨ou₂, h₂⟩ := setPort_eq (s.told co ou) port ts
  refine ⟨co, ou₂, ?_⟩
  rw [h₁, h₂, State.told, writeOption_comms]
  rfl

/-- The settings of the ports after PORT_SET. -/
theorem setPort_ports (o : OptCopy) (port : Nat) (ts : List Tlv) : (o.setPort port ts).ports = Tab.upd {} o.ports port (fun c => ts.foldl PortCfg.put c) := by
  unfold OptCopy.setPort
  dsimp only
  split <;> rfl

theorem setPort_opt (s : State) (port : Nat) (ts : List Tlv) : (s.setPort port ts).opt.loaded = s.opt.loaded
    ∧ (s.setPort port ts).opt.shadow.ports = Tab.upd {} s.opt.shadow.ports port (fun c => ts.foldl PortCfg.put c) := by
  obtain ⟨ou, h⟩ := setPort_eq s port ts
  obtain ⟨hloaded, n, hshadow⟩ := writeOption_opt s (fun o => o.setPort port ts)
  rw [h]
  exact ⟨hloaded, (congrArg OptCopy.ports hshadow).trans (setPort_ports ..)⟩

theorem execPortSet_outOfRange (h : Asks s 0x0304 sid x p) (hport : 5 < p.num 1) :
    ∃ t, execPortSet sid s = .next t ∧ Refused s t sid x p .badParam (p.off 1) :=
  ⟨_, rfl, refused_of_asked h (by decide) fun _ => if_pos hport⟩

theorem execPortSet_badField {f : Tlv} (h : Asks s 0x0304 sid x p) (hport : p.num 1 ≤ 5)
    (hbad : p.tlvs.find? (fun t => !portFieldOk (p.num 1) t.1 t.2) = some f) :
    ∃ t, execPortSet sid s = .next t ∧ Refused s t sid x p .badParam (p.off f.1) :=
  ⟨_, rfl, refused_of_asked h (by decide) fun _ => by simp only [hbad, if_neg (Nat.not_lt.2 hport), CmdOut.bad]⟩

theorem execPortSet_done (h : Asks s 0x0304 sid x p) (hport : p.num 1 ≤ 5) (hok : p.tlvs.find? (fun t => !portFieldOk (p.num 1) t.1 t.2) = none) :
    ∃ t, execPortSet sid s = .next t ∧ WriteDone s t sid x p .ok [] (s.commit.setPort (p.num 1) p.tlvs) := by
  refine ⟨_, rfl, writeDone_of_taken_as ((s.taken sid p).setPort (p.num 1) p.tlvs) h (by decide) ?_ ?_⟩
  · simp only [hok, if_neg (Nat.not_lt.2 hport)]
    rfl
  · obtain ⟨co, ou, htold⟩ := setPort_told s.commit (p.num 1) p.tlvs (s.taken sid p).comms (s.taken sid p).out
    rw [taken_eq_told, htold]
    exact told_back _ co ou

theorem execPortSet_sets (h : Asks s 0x0304 sid x p) (hport : p.num 1 ≤ 5) (hok : p.tlvs.find? (fun t => !portFieldOk (p.num 1) t.1 t.2) = none) :
    ∃ t, execPortSet sid s = .next t ∧ WriteDone s t sid x p .ok [] (s.commit.setPort (p.num 1) p.tlvs)
      ∧ Tab.get {} t.opt.shadow.ports (p.num 1) = p.tlvs.foldl PortCfg.put (Tab.get {} s.opt.shadow.ports (p.num 1))
      ∧ (∀ k, k ≠ p.num 1 → Tab.get {} t.opt.shadow.ports k = Tab.get {} s.opt.shadow.ports k) ∧ t.opt.loaded = s.opt.loaded := by
  obtain ⟨t, ht, hdone⟩ := execPortSet_done h hport hok
  have hopt := hdone.part State.opt fun _ _ _ => rfl
  obtain ⟨hloaded, hports⟩ := setPort_opt s.commit (p.num 1) p.tlvs
  refine ⟨t, ht, hdone, ?_⟩
  rw [hopt, hports, hloaded]
  exact ⟨Tab.get_upd_same .., fun k hk => Tab.get_upd_ne _ _ _ _ hk.symm, rfl⟩

/-! ## STREAM_CLEAR, R388, R389 -/

theorem clear_gap (y : Slot) (m : Nat) : (y.clear m).gap = (y.gap && !m.testBit 39) := rfl
theorem clear_frames (y : Slot) (m : Nat) : (y.clear m).frames = if m.testBit 8 then 0 else y.frames := rfl

theorem execStreamClear_outOfRange (h : Asks s 0x0307 sid x p) (hslot : 31 < p.num 1) :
    ∃ t, execStreamClear sid s = .next t ∧ Refused s t sid x p .badParam (p.off 1) :=
  ⟨_, rfl, refused_of_asked h (by decide) fun _ => if_pos hslot⟩

theorem execStreamClear_reserved (h : Asks s 0x0307 sid x p) (hslot : p.num 1 ≤ 31) (hmask : p.num 2 &&& 0x1FF000003FF ≠ p.num 2) :
    ∃ t, execStreamClear sid s = .next t ∧ Refused s t sid x p .badParam (p.off 2) :=
  ⟨_, rfl, refused_of_asked h (by decide) fun _ => (if_neg (Nat.not_lt.2 hslot)).trans (if_pos hmask)⟩

theorem execStreamClear_done (h : Asks s 0x0307 sid x p) (hslot : p.num 1 ≤ 31) (hmask : p.num 2 &&& 0x1FF000003FF = p.num 2) :
    ∃ t, execStreamClear sid s = .next t
      ∧ WriteDone s t sid x p .ok [be 8 ((s.updSlot (p.num 1) (fun y => y.clear (p.num 2))).slotWord (p.num 1))]
        (s.commit.updSlot (p.num 1) (fun y => y.clear (p.num 2))) :=
  ⟨_, rfl, writeDone_of_taken_as ((s.taken sid p).updSlot (p.num 1) (fun y => y.clear (p.num 2))) h (by decide)
    ((if_neg (Nat.not_lt.2 hslot)).trans (if_neg (not_not_intro hmask))) rfl⟩

theorem execStreamClear_clears (h : Asks s 0x0307 sid x p) (hslot : p.num 1 ≤ 31) (hmask : p.num 2 &&& 0x1FF000003FF = p.num 2) :
    ∃ t, execStreamClear sid s = .next t
      ∧ WriteDone s t sid x p .ok [be 8 ((s.updSlot (p.num 1) (fun y => y.clear (p.num 2))).slotWord (p.num 1))]
        (s.commit.updSlot (p.num 1) (fun y => y.clear (p.num 2)))
      ∧ t.slot (p.num 1) = (s.slot (p.num 1)).clear (p.num 2) ∧ ∀ k, k ≠ p.num 1 → t.slot k = s.slot k := by
  obtain ⟨t, ht, hdone⟩ := execStreamClear_done h hslot hmask
  exact ⟨t, ht, hdone, hdone.slots (f := fun y => y.clear (p.num 2)) fun _ => rfl⟩

/-- Settles O24: each command by the rule that refuses it or the state that its own rules leave. -/
theorem streamSettingsTakeEffect : Obligations.StreamSettingsTakeEffect := by
  refine ⟨fun s sid x p h => ⟨fun c => execSlotSet_sets h, fun ty => execSlotSet_outOfRange h, fun c => execSlotSet_busy h, fun c ty => execSlotSet_clash h⟩,
    fun s sid x p h => ⟨execSlotFree_frees h, execSlotFree_busy h, execSlotFree_outOfRange h⟩,
    fun s sid x p h => ⟨execPortSet_sets h, fun hport f => execPortSet_badField h hport, execPortSet_outOfRange h⟩,
    fun s sid x p h => ⟨fun hslot hmask => ?_, execStreamClear_reserved h, execStreamClear_outOfRange h⟩⟩
  obtain ⟨t, ht, hdone, hcleared, hothers⟩ := execStreamClear_clears h hslot hmask
  refine ⟨t, ht, hdone, ?_⟩
  rw [hcleared, clear_gap, clear_frames]
  exact ⟨fun hgap => by simp [hgap], fun hgap => by simp [hgap], fun hframes => by simp [hframes], fun hframes => by simp [hframes], rfl, rfl, hothers⟩

end Sys2Proof.Machine
end

section
/-! STREAM_FRAME, SAMPLED_VALUES_FRAME, ARP_REQUEST, NEIGHBOR_DISCOVERY and ECHO_REQUEST (R357, R358, R360, R365 to R371). -/

namespace Sys2Proof.Machine

open Sys2Proof

variable {s t u : State} {n idx : Nat} {c : SlotCfg} {vals : List (Int × Nat)}

/-! ## What an event of one slot leaves -/

/-- Every slot but `n` stands, and the rest of the state but for what an event touches. -/
def SlotOnly (n : Nat) (s t : State) : Prop :=
  (∀ k, k ≠ n → t.slot k = s.slot k)
    ∧ { t with life := { t.life with commit := s.life.commit, storedStamp := s.life.storedStamp }, logs := s.logs, comms := s.comms
               out := s.out, ing := { t.ing with slots := s.ing.slots } } = s

theorem SlotOnly.refl (n : Nat) (s : State) : SlotOnly n s s := ⟨fun _ _ => rfl, rfl⟩

theorem SlotOnly.trans (hst : SlotOnly n s t) (htu : SlotOnly n t u) : SlotOnly n s u := by
  obtain ⟨hslots, hrest⟩ := hst
  obtain ⟨hslots', hrest'⟩ := htu
  refine ⟨fun k hk => (hslots' k hk).trans (hslots k hk), ?_⟩
  exact (congrArg (fun v : State => { v with
    life := { v.life with commit := s.life.commit, storedStamp := s.life.storedStamp }, logs := s.logs, comms := s.comms
    out := s.out, ing := { v.ing with slots := s.ing.slots } }) hrest').trans hrest

theorem slotOnly_updSlot (s : State) (n : Nat) (f : Slot → Slot) : SlotOnly n s (s.updSlot n f) :=
  ⟨fun _ hk => State.updSlot_slot_ne _ _ _ _ hk.symm, rfl⟩

theorem slotOnly_slotFault (s : State) (n : Nat) (was : Bool) (f : Slot → Slot) : SlotOnly n s (s.slotFault n was f) := by
  have hlog := slotFault_logged s n was f
  refine (slotOnly_updSlot s n f).trans ⟨fun k _ => hlog.slot k, ?_⟩
  exact congrArg (fun v : State => { v with ing := { v.ing with slots := (s.updSlot n f).ing.slots } }) hlog.1

/-- A slot without its fault marks, the count of the running second and what sampled values keep: filing looks at none of them. -/
def Slot.bare (x : Slot) : Slot :=
  { x with quiet := false, rateCount := 0, qual := false, late := false, dup := false, svIndex := none, clamp := 0 }

/-- Slot `n` has other marks, and nothing else has changed but for what an event touches. -/
def Marked (n : Nat) (s t : State) : Prop := SlotOnly n s t ∧ (t.slot n).bare = (s.slot n).bare

theorem Marked.refl (n : Nat) (s : State) : Marked n s s := ⟨.refl n s, rfl⟩

theorem Marked.trans (hst : Marked n s t) (htu : Marked n t u) : Marked n s u := ⟨hst.1.trans htu.1, htu.2.trans hst.2⟩

theorem marked_updSlot {f : Slot → Slot} (hf : ∀ y, (f y).bare = y.bare) (s : State) (n : Nat) : Marked n s (s.updSlot n f) :=
  ⟨slotOnly_updSlot s n f, by rw [State.updSlot_slot_same, hf]⟩

theorem marked_slotFault {f : Slot → Slot} (hf : ∀ y, (f y).bare = y.bare) (s : State) (n : Nat) (was : Bool) : Marked n s (s.slotFault n was f) :=
  ⟨slotOnly_slotFault s n was f, by rw [(slotFault_logged s n was f).slot, State.updSlot_slot_same, hf]⟩

/-- What a slot holds beside its marks. -/
theorem Marked.part {α : Type} (h : Marked n s t) (g : Slot → α) (hg : ∀ y, g y.bare = g y) : g (t.slot n) = g (s.slot n) :=
  (hg _).symm.trans ((congrArg g h.2).trans (hg _))

/-- Marks change neither what a slot feeds nor the room that it has. -/
theorem Marked.consuming (h : Marked n s t) : t.consuming n = s.consuming n := by
  have hcfg : (t.slot n).cfg = (s.slot n).cfg := h.part Slot.cfg fun _ => rfl
  have hrunning : t.ing.running = s.ing.running := congrArg (·.ing.running) h.1.2
  have himage : t.image = s.image := (congrArg State.image h.1.2 :)
  simp only [State.consuming, State.inputOf, hcfg, hrunning, himage]

theorem HasRoom.marked {len : Nat} (hroom : HasRoom s n c idx len) (h : Marked n s t) : HasRoom t n c idx len := by
  have hs0 : t.ing.s0 = s.ing.s0 := congrArg (·.ing.s0) h.1.2
  have hcfg : (t.slot n).cfg = (s.slot n).cfg := h.part Slot.cfg fun _ => rfl
  have hunread : (t.slot n).unread = (s.slot n).unread := h.part Slot.unread fun _ => rfl
  have hspilled : (t.slot n).spilled = (s.slot n).spilled := h.part Slot.spilled fun _ => rfl
  have hring : (t.slot n).ring = (s.slot n).ring := h.part Slot.ring fun _ => rfl
  rw [HasRoom, hcfg, hunread, hspilled, hring, h.consuming, hs0]
  exact hroom

/-- A slot that took samples after its marks changed took them, and so did one whose marks changed after. -/
theorem TookSamples.after_marked (h : Marked n s t) (htook : TookSamples t u n idx vals) : TookSamples s u n idx vals := by
  obtain ⟨hin, hout, hframes, hlate, hdup, hunread, hcfg, hslots, hrest⟩ := htook
  obtain ⟨hslots', hrest'⟩ := h.1.trans ⟨hslots, hrest⟩
  rw [h.part Slot.frames fun _ => rfl] at hframes
  rw [h.part Slot.lateSmp fun _ => rfl] at hlate
  rw [h.part Slot.dupSmp fun _ => rfl] at hdup
  rw [h.part Slot.unread fun _ => rfl] at hunread
  rw [h.part Slot.cfg fun _ => rfl] at hcfg
  rw [h.part Slot.ring fun _ => rfl] at hout
  exact ⟨hin, hout, hframes, hlate, hdup, hunread, hcfg, hslots', hrest'⟩

theorem TookSamples.then_marked (htook : TookSamples s t n idx vals) (h : Marked n t u) : TookSamples s u n idx vals := by
  obtain ⟨hin, hout, hframes, hlate, hdup, hunread, hcfg, hslots, hrest⟩ := htook
  obtain ⟨hslots', hrest'⟩ := SlotOnly.trans ⟨hslots, hrest⟩ h.1
  have hring : (u.slot n).ring = (t.slot n).ring := h.part Slot.ring fun _ => rfl
  refine ⟨fun i v hv => ?_, fun j hj => ?_, (h.part Slot.frames fun _ => rfl).trans hframes, (h.part Slot.lateSmp fun _ => rfl).trans hlate,
    (h.part Slot.dupSmp fun _ => rfl).trans hdup, (h.part Slot.unread fun _ => rfl).trans hunread, (h.part Slot.cfg fun _ => rfl).trans hcfg, hslots', hrest'⟩
  · rw [hring, hin i v hv]
  · rw [hring, hout j hj]

/-! ## Filing into a ring with room, R370, R387 -/

/-- A ring with values from an index on. -/
def filedRing (r : Tab (Int × Nat)) (idx : Nat) (vals : List (Int × Nat)) (m : Nat) : Tab (Int × Nat) :=
  (List.range m).foldl (fun t i => Tab.put t (idx + i) (vals.getD i (0, 0))) r

theorem filedRing_get (r : Tab (Int × Nat)) (idx : Nat) (vals : List (Int × Nat)) (m j : Nat) :
    Tab.get (0, 4) (filedRing r idx vals m) j = if idx ≤ j ∧ j < idx + m then vals.getD (j - idx) (0, 0) else Tab.get (0, 4) r j := by
  induction m with
  | zero => rw [if_neg (by omega)]; rfl
  | succ m ih =>
    have hput : filedRing r idx vals (m + 1) = Tab.put (filedRing r idx vals m) (idx + m) (vals.getD m (0, 0)) := by
      simp [filedRing, List.range_succ]
    rw [hput, Tab.get_put, ih]
    by_cases hlast : idx + m = j
    · subst hlast
      rw [if_pos rfl, if_pos (by omega), Nat.add_sub_cancel_left]
    · rw [if_neg hlast]
      exact if_congr (by omega) rfl rfl

/-- Samples none of which lies below the unread index or is held already are all stored, and none is counted late or twice. -/
theorem file_fresh {x : Slot} {u : Nat} (hu : u ≤ idx) (hfree : ∀ i, i < vals.length → (Tab.get (0, 4) x.ring (idx + i)).2 = 4) :
    (x.file u idx vals).ring = filedRing x.ring idx vals vals.length ∧ (x.file u idx vals).lateSmp = satAdd 32 x.lateSmp 0
      ∧ (x.file u idx vals).dupSmp = satAdd 32 x.dupSmp 0 := by
  have hlate : (List.range vals.length).filter (fun i => decide (idx + i < u)) = [] :=
    List.filter_eq_nil_iff.2 fun i _ => by simp; omega
  have hfresh : (List.range vals.length).filter (fun i => decide (u ≤ idx + i) && (Tab.get (0, 4) x.ring (idx + i)).2 == 4) = List.range vals.length :=
    List.filter_eq_self.2 fun i hi => by simp [hfree i (List.mem_range.1 hi), Nat.le_add_right_of_le hu]
  simp only [Slot.file, hlate, hfresh, List.length_nil, List.length_range, Nat.sub_zero, Nat.sub_self, and_true]
  rfl

/-- The frame's samples in slot `n`, before the faults that its counts may show. -/
def State.tookFrame (s : State) (n port u idx : Nat) (vals : List (Int × Nat)) : State :=
  s.updSlot n (fun _ => ((s.slot n).file u idx vals).accepted port idx vals.length)

theorem tookFrame_slot (s : State) (n port u idx : Nat) (vals : List (Int × Nat)) :
    (s.tookFrame n port u idx vals).slot n = ((s.slot n).file u idx vals).accepted port idx vals.length := State.updSlot_slot_same ..

theorem tookFrame_only (s : State) (n port u idx : Nat) (vals : List (Int × Nat)) : SlotOnly n s (s.tookFrame n port u idx vals) := slotOnly_updSlot ..

theorem accepted_ring (y : Slot) (port idx len : Nat) : (y.accepted port idx len).ring = y.ring := rfl
theorem accepted_counts (y : Slot) (port idx len : Nat) : (y.accepted port idx len).frames = satAdd 32 y.frames 1
    ∧ (y.accepted port idx len).lateSmp = y.lateSmp ∧ (y.accepted port idx len).dupSmp = y.dupSmp
    ∧ (y.accepted port idx len).unread = y.unread ∧ (y.accepted port idx len).cfg = y.cfg := ⟨rfl, rfl, rfl, rfl, rfl⟩
theorem file_kept (x : Slot) (u idx : Nat) (vals : List (Int × Nat)) : (x.file u idx vals).frames = x.frames
    ∧ (x.file u idx vals).unread = x.unread ∧ (x.file u idx vals).cfg = x.cfg := ⟨rfl, rfl, rfl⟩

theorem tookFrame_takes {port u : Nat} (hu : u ≤ idx) (hfree : ∀ i, i < vals.length → (Tab.get (0, 4) (s.slot n).ring (idx + i)).2 = 4) :
    TookSamples s (s.tookFrame n port u idx vals) n idx vals := by
  obtain ⟨hring, hlate, hdup⟩ := file_fresh hu hfree
  obtain ⟨hframes, hunread, hcfg⟩ := file_kept (s.slot n) u idx vals
  obtain ⟨hframes', hlate', hdup', hunread', hcfg'⟩ := accepted_counts ((s.slot n).file u idx vals) port idx vals.length
  obtain ⟨hslots, hrest⟩ := tookFrame_only s n port u idx vals
  have hget (j : Nat) : Tab.get (0, 4) ((s.tookFrame n port u idx vals).slot n).ring j
      = if idx ≤ j ∧ j < idx + vals.length then vals.getD (j - idx) (0, 0) else Tab.get (0, 4) (s.slot n).ring j := by
    rw [tookFrame_slot, accepted_ring, hring, filedRing_get]
  refine ⟨fun i v hv => ?_, fun j hj => ?_, ?_, ?_, ?_, ?_, ?_, hslots, hrest⟩
  · obtain ⟨hi, -⟩ := List.getElem?_eq_some_iff.1 hv
    rw [hget, if_pos (by omega), Nat.add_sub_cancel_left, List.getD_eq_getElem?_getD, hv, Option.getD_some]
  · rw [hget, if_neg (by omega)]
  · rw [tookFrame_slot, hframes', hframes]
  · rw [tookFrame_slot, hlate', hlate]
  · rw [tookFrame_slot, hdup', hdup]
  · rw [tookFrame_slot, hunread', hunread]
  · rw [tookFrame_slot, hcfg', hcfg]

theorem Marked.fault_if (h : Marked n s t) (b : Prop) [Decidable b] (was : Bool) {f : Slot → Slot} (hf : ∀ y, (f y).bare = y.bare) :
    Marked n s (if b then t.slotFault n was f else t) := by
  split
  · exact h.trans (marked_slotFault hf t n was)
  · exact h

/-- The faults of a slot that was `x` and, with its frame filed, is `y`. -/
def State.countFaults (s : State) (n : Nat) (x y : Slot) : State :=
  let s2 := if y.lateSmp ≠ x.lateSmp then s.slotFault n x.late (fun x => { x with late := true }) else s
  if y.dupSmp ≠ x.dupSmp then s2.slotFault n x.dup (fun x => { x with dup := true }) else s2

theorem filed_eq (s : State) (n port u idx : Nat) (vals : List (Int × Nat)) : s.filed n port u idx vals
    = (s.tookFrame n port u idx vals).countFaults n (s.slot n) (((s.slot n).file u idx vals).accepted port idx vals.length) := rfl

/-- These faults change marks only. -/
theorem countFaults_marks (s : State) (n : Nat) (x y : Slot) : Marked n s (s.countFaults n x y) :=
  ((Marked.refl n s).fault_if (f := fun x => { x with late := true }) _ _ fun _ => rfl).fault_if (f := fun x => { x with dup := true }) _ _ fun _ => rfl

/-- A valid frame is heard: the slot is quiet no more, its samples count for the second, and a questionable one marks QUAL. -/
def State.heardFrame (s : State) (n : Nat) (vals : List (Int × Nat)) : State :=
  let s0 := s.updSlot n (fun x => { x with quiet := false, rateCount := x.rateCount + vals.length })
  if vals.any (fun v => decide (v.2 % 2 = 1)) then
    (if s0.consuming n then s0.slotFault n (s0.slot n).qual (fun x => { x with qual := true }) else s0.updSlot n (fun x => { x with qual := true }))
  else s0

theorem heardFrame_marks (s : State) (n : Nat) (vals : List (Int × Nat)) : Marked n s (s.heardFrame n vals) := by
  unfold State.heardFrame
  refine (marked_updSlot (f := fun x => { x with quiet := false, rateCount := x.rateCount + vals.length }) (fun _ => rfl) s n).trans ?_
  dsimp only
  split
  · split
    · exact marked_slotFault (f := fun x => { x with qual := true }) (fun _ => rfl) ..
    · exact marked_updSlot (f := fun x => { x with qual := true }) (fun _ => rfl) ..
  · exact .refl ..

theorem fileFrame_of_room {port u : Nat} (hroom : HasRoom s n c idx vals.length) (hu : (s.slot n).unread = some u) :
    s.fileFrame n port idx vals false = (s.heardFrame n vals).filed n port u idx vals := by
  have hmarks := heardFrame_marks s n vals
  have hu' : ((s.heardFrame n vals).slot n).unread = some u := (hmarks.part Slot.unread fun _ => rfl).trans hu
  obtain ⟨-, -, hfeeds, hs0, ⟨w, hw, hlow, hhigh, hfits⟩, -⟩ := hroom.marked hmarks
  obtain rfl : u = w := Option.some.inj (hu'.symm.trans hw)
  obtain ⟨o, ho⟩ := Option.isSome_iff_exists.1 hs0
  obtain ⟨hcfg, hstart, -⟩ := hroom
  have hquiet : s.startArrival n c = s := if_neg (by simp [hstart])
  unfold State.fileFrame
  simp only [hcfg, hquiet]
  change (if (s.heardFrame n vals).consuming n = false then _ else match (s.heardFrame n vals).ing.s0, ((s.heardFrame n vals).slot n).unread with
    | some _, some u => if false = true ∨ u + c.cap < idx ∨ idx + (s.heardFrame n vals).ownRw n c.rw < u then _
      else if u + ((s.heardFrame n vals).slot n).spilled + c.cap < idx + vals.length then _ else (s.heardFrame n vals).filed n port u idx vals
    | _, _ => _) = _
  rw [hfeeds, hu', ho, if_neg (by decide)]
  dsimp only
  rw [if_neg (by simp; omega), if_neg (by omega)]

/-- A valid frame of a consuming slot with room is filed. -/
theorem fileFrame_takes (port : Nat) (hroom : HasRoom s n c idx vals.length) : TookSamples s (s.fileFrame n port idx vals false) n idx vals := by
  have hmarks := heardFrame_marks s n vals
  obtain ⟨-, -, -, -, ⟨u, hu, hlow, -⟩, hfree⟩ := hroom.marked hmarks
  rw [fileFrame_of_room hroom ((hmarks.part Slot.unread fun _ => rfl).symm.trans hu)]
  exact .after_marked hmarks (filed_eq .. ▸ (tookFrame_takes hlow hfree).then_marked (countFaults_marks ..))

/-! ## STREAM_FRAME, R357, R360, R365, R366 -/

theorem execStreamFrame_files {p : Nat} {f : StreamFrame} (hpower : s.portPower p = true) (hport : p < 4)
    (htakes : portTakes (s.portCfg p) f.env true = .take) (hslot : s.slotOf p f = some n) (hgood : f.good c = true)
    (hroom : HasRoom s n c f.sidx f.samples.length) : ∃ t, execStreamFrame p f s = .next t
      ∧ TookSamples s t n f.sidx (f.samples.map (fun v => (v, (if f.flags.testBit 1 then 1 else 0) + (if f.ue then 2 else 0)))) := by
  have hcfg := hroom.1
  refine ⟨_, ?_, fileFrame_takes p (c := c) (by rw [List.length_map]; exact hroom)⟩
  unfold execStreamFrame
  rw [if_neg (by simp [hpower, hport])]
  simp only [htakes, hslot, hcfg, hgood, if_true]

/-! ## SAMPLED_VALUES_FRAME, R367 to R369 -/

/-- An operation over a list that acts at one of its elements only. -/
theorem each_of_only {α : Type} {l : List α} {f : State → α → State} {a : α} (hl : l.Nodup) (ha : a ∈ l) (hbefore : ∀ b, b ≠ a → f s b = s)
    (hafter : ∀ b, b ≠ a → f (f s a) b = f s a) : s.each l f = f s a := by
  have hstands {v : State} (hv : ∀ b, b ≠ a → f v b = v) : ∀ m : List α, a ∉ m → v.each m f = v := by
    intro m hm
    induction m with
    | nil => rfl
    | cons b m ih =>
      rw [State.each, hv b fun h => hm (h ▸ List.mem_cons_self), ih fun h => hm (List.mem_cons_of_mem _ h)]
  induction l with
  | nil => exact absurd ha List.not_mem_nil
  | cons b l ih =>
    obtain ⟨hb, hl⟩ := List.nodup_cons.1 hl
    rcases List.mem_cons.1 ha with rfl | ha
    · exact hstands hafter l hb
    · rw [State.each, hbefore b fun h => hb (h ▸ ha), ih hl ha]

section
variable {p m conf elem : Nat} {f : SvFrame} {a : Asdu} {v : Int} {q : BitVec 32}

/-- What slot `m` does with an ASDU that arrives at port `p`. -/
def State.meetAsdu (s : State) (p : Nat) (f : SvFrame) (a : Asdu) (m : Nat) : State :=
  match (s.slot m).cfg with
  | none => s
  | some c =>
    match c.source with
    | .frame .. => s
    | .sv dmac appid conf elem svid =>
      if c.ports.testBit p = true ∧ dmac = f.dmac ∧ appid = f.appid ∧ svid = a.svid then
        (if f.security = true ∨ f.asdus.length < 1 ∨ 8 < f.asdus.length ∨ 24 < a.elements.length then s.badFrame m else s.takeAsdu m p f a c conf elem)
      else s

theorem takeAsdus_single (s : State) (p : Nat) (f : SvFrame) (a : Asdu) :
    s.takeAsdus p f [a] = s.each (s.ing.slots.map Prod.fst) (fun v m => v.meetAsdu p f a m) := rfl

/-- A slot of another source does nothing with it. -/
theorem meetAsdu_of_other (h : ∀ d cf el, (s.slot m).cfg = some d → d.source ≠ .sv f.dmac f.appid cf el a.svid) : s.meetAsdu p f a m = s := by
  unfold State.meetAsdu
  split
  · rfl
  · next d hd =>
    split
    · rfl
    · next dmac appid cf el svid hsource =>
      refine if_neg fun ⟨_, hdmac, happid, hsvid⟩ => h d cf el hd ?_
      rw [hsource, hdmac, happid, hsvid]

theorem meetAsdu_of_source (hcfg : (s.slot n).cfg = some c) (hsource : c.source = .sv f.dmac f.appid conf elem a.svid) (hp : c.ports.testBit p = true)
    (hsec : f.security = false) (hone : f.asdus = [a]) (hlen : a.elements.length ≤ 24) : s.meetAsdu p f a n = s.takeAsdu n p f a c conf elem := by
  unfold State.meetAsdu
  simp only [hcfg, hsource, hp, and_self, if_true]
  exact if_neg (by simp [hsec, hone]; omega)

/-- The slot after an element with count `cnt`, whose index is `idx`. -/
def Slot.indexed (x : Slot) (cnt idx : Nat) : Slot :=
  { x with svIndex := match x.svIndex with
      | some (p, i) => if idx < i then some (p, i) else some (cnt, idx)
      | none => some (cnt, idx) }

/-- A value that was saturated is counted. -/
def State.clamped (s : State) (n : Nat) (sat : Bool) : State := if sat then s.updSlot n (fun x => { x with clamp := satAdd 32 x.clamp 1 }) else s

theorem clamped_marks (s : State) (n : Nat) (sat : Bool) : Marked n s (s.clamped n sat) := by
  cases sat with
  | true => exact marked_updSlot (f := fun x => { x with clamp := satAdd 32 x.clamp 1 }) (fun _ => rfl) s n
  | false => exact .refl ..

/-- A good element whose count is no jump is filed as one sample: its value, shifted and saturated. -/
theorem takeAsdu_of_good (hconf : a.confRev = conf) (hrate : a.smpRate = none ∨ a.smpRate = some c.nomrate) (helem : a.elements[elem]? = some (v, q))
    (hsim : f.simulate = false) (htest : qTest q = false) (hvalid : qInvalid q = false)
    (hstep : svStep (s.slot n).svIndex c.wrap (s.ownRw n c.rw) a.smpCnt = (idx, false)) : s.takeAsdu n p f a c conf elem
      = ((s.updSlot n (·.indexed a.smpCnt idx)).clamped n (svValue c.shift v).2).fileFrame n p idx
          [((svValue c.shift v).1, if qDoubt q then 1 else 0)] false := by
  unfold State.takeAsdu
  rcases hrate with h | h <;>
    simp only [hconf, h, helem, hsim, htest, hstep, hvalid, ne_eq, not_true_eq_false, decide_false, Bool.false_eq_true, or_self, if_false, Bool.false_and] <;> rfl

/-- A good element of a slot with room, one sample after the last. -/
theorem takeAsdu_takes (hconf : a.confRev = conf) (hrate : a.smpRate = none ∨ a.smpRate = some c.nomrate) (helem : a.elements[elem]? = some (v, q))
    (hsim : f.simulate = false) (htest : qTest q = false) (hvalid : qInvalid q = false)
    (hstep : svStep (s.slot n).svIndex c.wrap (s.ownRw n c.rw) a.smpCnt = (idx, false)) (hroom : HasRoom s n c idx 1) :
    TookSamples s (s.takeAsdu n p f a c conf elem) n idx [(clampInt (-8388608) 8388607 (v / (2 ^ c.shift : Nat)), if qDoubt q then 1 else 0)] := by
  have hmarks : Marked n s ((s.updSlot n (·.indexed a.smpCnt idx)).clamped n (svValue c.shift v).2) :=
    (marked_updSlot (f := (·.indexed a.smpCnt idx)) (fun _ => rfl) s n).trans (clamped_marks ..)
  rw [takeAsdu_of_good hconf hrate helem hsim htest hvalid hstep]
  exact .after_marked hmarks (fileFrame_takes p (hroom.marked hmarks))

theorem execSampledValuesFrame_files (hpower : s.portPower p = true) (hport : p < 4) (htakes : portTakes (s.portCfg p) f.env false = .take)
    (hether : f.env.ethertype = 0x88BA) (hone : f.asdus = [a]) (hslots : (s.ing.slots.map Prod.fst).Nodup) (hn : n ∈ s.ing.slots.map Prod.fst)
    (hothers : ∀ m d cf el, m ≠ n → (s.slot m).cfg = some d → d.source ≠ .sv f.dmac f.appid cf el a.svid)
    (hmeets : TookSamples s (s.meetAsdu p f a n) n idx vals) : ∃ t, execSampledValuesFrame p f s = .next t ∧ TookSamples s t n idx vals := by
  obtain ⟨-, -, -, -, -, -, -, hstand, -⟩ := id hmeets
  refine ⟨_, ?_, hmeets⟩
  have honly : s.takeAsdus p f [a] = s.meetAsdu p f a n := by
    rw [takeAsdus_single]
    refine each_of_only hslots hn (fun m hm => meetAsdu_of_other fun d cf el => hothers m d cf el hm) fun m hm => meetAsdu_of_other fun d cf el hd => ?_
    rw [hstand m hm] at hd
    exact hothers m d cf el hm hd
  unfold execSampledValuesFrame
  rw [if_neg (by simp [hpower, hport])]
  simp only [htakes, hether, if_true, hone, honly]

end

/-! ## What a port answers, R358 -/

theorem execArpRequest_eq (p addr : Nat) (s : State) : execArpRequest p addr s
    = .next (if s.hasAddr p false addr then { s with out := s.out ++ [.arpReply p addr] } else s) := by
  cases h : s.hasAddr p false addr <;> simp [execArpRequest, h, State.emit]

theorem execNeighborDiscovery_eq (p addr : Nat) (s : State) : execNeighborDiscovery p addr s
    = .next (if s.hasAddr p true addr then { s with out := s.out ++ [.neighborReply p addr] } else s) := by
  cases h : s.hasAddr p true addr <;> simp [execNeighborDiscovery, h, State.emit]

theorem execEchoRequest_eq (p : Nat) (v6 : Bool) (addr : Nat) (data : List Byte) (s : State) : execEchoRequest p v6 addr data s
    = .next (if s.hasAddr p v6 addr then { s with out := s.out ++ [.echoReply p v6 addr data] } else s) := by
  cases h : s.hasAddr p v6 addr <;> simp [execEchoRequest, h, State.emit]

/-- Settles O18: a frame changes marks and files its samples; of several slots only the one whose source an ASDU names takes it. The layout
of the quality word is assumption 27, and the link-local address of a port assumption 84. -/
theorem streamFramesAreFiled : Obligations.StreamFramesAreFiled := by
  refine ⟨fun p f s n c hpower hport htakes hslot hgood hroom => execStreamFrame_files hpower hport htakes hslot hgood hroom,
    fun p f a s n c conf elem idx v q hpower hport htakes hether hsec hsim hone hlen hslots hn hp hsource hconf hrate helem htest hvalid hothers hstep hroom => ?_,
    fun p addr data v6 s => ?_⟩
  · refine execSampledValuesFrame_files hpower hport htakes hether hone hslots hn hothers ?_
    rw [meetAsdu_of_source hroom.1 hsource hp hsec hone hlen]
    exact takeAsdu_takes hconf hrate helem hsim htest hvalid hstep hroom
  · have harp : exec (.arpRequest p addr) s = _ := execArpRequest_eq p addr s
    have hneighbor : exec (.neighborDiscovery p addr) s = _ := execNeighborDiscovery_eq p addr s
    have hecho : exec (.echoRequest p v6 addr data) s = _ := execEchoRequest_eq p v6 addr data s
    refine ⟨fun h => ?_, fun h => ?_, fun h => ?_, fun h => ?_, fun h => ?_, fun h => ?_⟩ <;> simp [harp, hneighbor, hecho, h]

end Sys2Proof.Machine
end

section
/-! No step moves the commit stamp, the power-on count or a sequence number back (R187, R423, R424, R457, R477, R490). -/

namespace Sys2Proof.Machine

open Sys2Proof

variable {q : List Instr} {m : Marks}

/-- Every command keeps the marks: each one's own lemma, under its meaning. -/
theorem exec_kept (c : Instr) (s : State) (hk : Kept q m s) : KeptOut q m (exec c s) := by
  cases c <;> simp [exec, hk]

/-- Time that passes with no command waiting moves none of these numbers. -/
theorem tick_kept (s : State) (hk : Kept q m s) : Kept q m s.tick := by
  unfold State.tick
  split
  · exact hk
  · exact hk

theorem step_cons {c : Instr} {rest : List Instr} {s : State} (h : s.pending = c :: rest) : step s = exec c { s with pending := rest } := by
  unfold step
  rw [h]

theorem step_nil {s : State} (h : s.pending = []) : step s = .next s.tick := by
  unfold step
  rw [h]

/-- The command at the front leaves the queue, and the marks are kept. -/
theorem kept_tail {c : Instr} {rest : List Instr} {s : State} (hk : Kept (c :: rest) m s) : Kept rest m { s with pending := rest } := by
  obtain ⟨-, hnumbers⟩ := hk
  exact ⟨rfl, hnumbers⟩

/-- Settles O4: each command keeps the marks, and a step is a command on the queue's rest or a tick. -/
theorem numbersNeverMoveBack : Obligations.NumbersNeverMoveBack := by
  refine ⟨fun c s t m hk ht => exec_kept c s hk t ht, fun s t m hk ht => ?_⟩
  cases hq : s.pending with
  | nil =>
    rw [hq] at hk
    obtain rfl := Host.Outcome.next.inj ((step_nil hq).symm.trans ht)
    exact tick_kept s hk
  | cons c rest =>
    rw [hq] at hk
    rw [step_cons hq] at ht
    exact exec_kept c _ (kept_tail hk) t ht

/-- Settles O2: a step takes the front of the queue. -/
theorem stepRunsTheFrontCommand : Obligations.StepRunsTheFrontCommand := fun _ _ _ => step_cons rfl

/-- Settles O3: a step with an empty queue is a tick. -/
theorem idleStepCountsTime : Obligations.IdleStepCountsTime := by
  intro s hq
  rw [step_nil hq]
  exact ⟨fun hpower => by rw [State.tick, if_neg hpower], fun hpower => by rw [State.tick, if_pos hpower]⟩

end Sys2Proof.Machine
end

section
/-! A store of bytes (R433, R434), and a command that role, form, boot state or lead refuses (R400, R403, R404, R416, R487). -/

namespace Sys2Proof.Machine

open Sys2Proof

/-- Settles O6: a store is a write of its bytes in order, and poison marks and the poison list are no bytes. -/
theorem storeWritesItsBytesAlone : Obligations.StoreWritesItsBytesAlone := by
  intro m sp a bs poison
  refine ⟨fun i hi => read_store_inside m poison ?_, fun sq x hout => read_store_outside m poison hout, Memory.wf_store m sp a bs poison⟩
  rw [List.getD_eq_getElem?_getD, List.getElem?_eq_getElem hi, Option.getD_some]

/-- Settles O59: every one of these commands goes the one way in which a session's command is executed, and there the order of refusals is
role, form, boot state, lead (assumption 20). -/
theorem refusedCommandsChangeNothing : Obligations.RefusedCommandsChangeNothing := by
  refine ⟨fun c op sid s x p st d hc hports hsess hhead hop hrefuses => ?_, fun s x p row hrow => ?_⟩
  · have hrun : ∃ wr f, exec c s = .next (s.runCmd op wr sid f) := by
      simp only [List.mem_cons, Prod.mk.injEq, List.not_mem_nil, or_false] at hc
      repeat (rcases hc with ⟨rfl, rfl⟩ | hc; · exact ⟨_, _, rfl⟩)
      obtain ⟨rfl, rfl⟩ := hc
      exact ⟨_, _, rfl⟩
    obtain ⟨wr, f, hexec⟩ := hrun
    exact ⟨_, hexec, runCmd_refuses wr f st d hports hsess hhead hop hrefuses⟩
  · refine ⟨fun hrole => ?_, fun d hrole hform => ?_, fun hrole hform hboot hread hgroup => ?_, fun hrole hform hready hlead hother => ?_⟩
    · simp [State.refuses, hrow, hrole]
    · simp [State.refuses, hrow, hrole.not_gt, hform]
    · simp [State.refuses, hrow, hrole.not_gt, hform, hboot, hread, hgroup]
    · simp [State.refuses, hrow, hrole.not_gt, hform, hready, hlead, hother]

end Sys2Proof.Machine
end

section
/-! A line of Kennel and its answer (R556, R557, R561 to R564), and the reads of Table 17.1. -/

namespace Sys2Proof.Machine

open Sys2Proof

variable {s : State}

/-! ## The state in which a line is read -/

/-- A line ends Rest and takes the characters held, and touches nothing else. -/
theorem heard_eq (s : State) : ∃ ph pl dm, s.heard = { s with
    life := { s.life with phase := ph }, plls := pl, doms := dm, kennel := { s.kennel with held := 0 } } := by
  unfold State.heard State.wake
  split
  · exact ⟨_, _, _, rfl⟩
  · exact ⟨s.life.phase, s.plls, s.doms, rfl⟩

/-- What does not read the phase, the PLLs, the domains and Kennel's line buffer is the same once a line is read. -/
theorem heard_part {α : Type} (g : State → α) (hg : ∀ ph pl dm h, g { s with
    life := { s.life with phase := ph }, plls := pl, doms := dm, kennel := { s.kennel with held := h } } = g s) : g s.heard = g s := by
  obtain ⟨ph, pl, dm, h⟩ := heard_eq s
  rw [h]
  exact hg ph pl dm 0

@[simp] theorem heard_commit (s : State) : s.heard.life.commit = s.life.commit := heard_part (·.life.commit) fun _ _ _ _ => rfl
@[simp] theorem heard_kennelState (s : State) : s.heard.kennel.state = s.kennel.state := heard_part (·.kennel.state) fun _ _ _ _ => rfl
@[simp] theorem heard_trust (s : State) : s.heard.trust = s.trust := heard_part State.trust fun _ _ _ _ => rfl
@[simp] theorem heard_opt (s : State) : s.heard.opt = s.opt := heard_part State.opt fun _ _ _ _ => rfl
@[simp] theorem heard_logs (s : State) : s.heard.logs = s.logs := heard_part State.logs fun _ _ _ _ => rfl

/-- While the boot code serves, the module lies in the boot state, and firmware answers no line. -/
theorem bootHeld_of_kennelBoot (h : s.kennelBoot = true) : s.life.phase = .bootHeld := by
  unfold State.kennelBoot at h
  simp only [Bool.and_eq_true, decide_eq_true_eq] at h
  exact h.2.1

theorem kennelUp_of_kennelBoot (h : s.kennelBoot = true) : s.kennelUp = false := by
  simp [State.kennelUp, State.portsUp, State.fwUp, bootHeld_of_kennelBoot h]

theorem kennelBoot_of_kennelUp (h : s.kennelUp = true) : s.kennelBoot = false := by
  cases hboot : s.kennelBoot with
  | false => rfl
  | true => rw [kennelUp_of_kennelBoot hboot] at h; exact absurd h (by decide)

/-- There is no Rest to end in the boot state. -/
theorem heard_of_kennelBoot (h : s.kennelBoot = true) : s.heard = s.takeHeld := by
  rw [State.heard, State.wake, if_neg (by rw [bootHeld_of_kennelBoot h]; decide)]

/-! ## Answers -/

/-- A command whose rules leave no state is answered with its status and its lines. -/
theorem kennelRun_says {f : State → KOut} {st : Status} {lines : List (List (String × Nat))} (h : f s = { st := st, lines := lines }) :
    s.kennelRun none f = s.kennelSay s.life.commit lines st := by
  unfold State.kennelRun
  simp only [h]
  split <;> rfl

/-- A command that is refused before and after its commit. -/
theorem kennelRun_refuses {wr : Option Nat} {f : State → KOut} {st : Status} (hst : ¬ st.code < 0x10)
    (hcommit : ∀ k, wr = some k → (f (s.kennelCommit k)).st = st) (h : f s = { st := st }) : s.kennelRun wr f = s.kennelSay s.life.commit [] st := by
  unfold State.kennelRun
  cases wr with
  | none => simp only [h, hst, if_false, Option.getD_none]
  | some k => simp only [hcommit k rfl, h, hst, if_false, Option.getD_none]

/-- A command that changes Kennel alone makes no commit. -/
theorem kennelRun_changes {f : State → KOut} {lines : List (List (String × Nat))} {t : State} (h : f s = { lines := lines, next := some t }) :
    s.kennelRun none f = t.kennelSay s.life.commit lines .ok := by
  unfold State.kennelRun
  simp only [h]
  rfl

theorem kennelBoth_runs {need : KNeed} {wr : Option Nat} {f : State → KOut} (hup : s.kennelUp = true) (hneed : s.heard.kennel.permits need = true) :
    s.kennelBoth need wr f = .next (s.heard.kennelRun wr f) := by
  unfold State.kennelBoth
  rw [if_pos (.inl hup)]
  exact if_neg (ne_false_of_eq_true hneed)

theorem kennelCmd_runs {need : KNeed} {op : Nat} {wr : Option Nat} {f : State → KOut} (hup : s.kennelUp = true)
    (hneed : s.heard.kennel.permits need = true) (hbars : s.heard.kennelBars op = none) :
    s.kennelCmd need op wr f = .next (s.heard.kennelRun wr f) := by
  have hheard : s.wake.takeHeld = s.heard := rfl
  simp only [State.kennelCmd, hup, if_true, hheard, hneed, Bool.true_eq_false, if_false, hbars]

/-- An opened Kennel permits what needs it opened. -/
theorem permits_opened {k : Kennel} (h : k.state ≠ .locked) : k.permits .opened = true := decide_eq_true h

/-- Nothing bars a read: it changes nothing, and no lead is asked. -/
theorem kennelBars_read (s : State) : s.kennelBars 0x0102 = none := by
  unfold State.kennelBars
  rw [if_neg (by simp [isRead])]
  rfl

section
variable (hup : s.kennelUp = true) (hopen : s.kennel.state ≠ .locked)
include hup hopen

/-- A read of an opened Kennel. -/
theorem kennelRead_says {f : State → KOut} {st : Status} {lines : List (List (String × Nat))} (h : f s.heard = { st := st, lines := lines }) :
    s.kennelRead f = .next (s.heard.kennelSay s.life.commit lines st) := by
  have hneed : s.heard.kennel.permits .opened = true := permits_opened (by rwa [heard_kennelState])
  rw [State.kennelRead, kennelCmd_runs hup hneed (kennelBars_read _), kennelRun_says h, heard_commit]

theorem kennelRead_refuses {f : State → KOut} (h : f s.heard = .bad) : ∃ t, s.kennelRead f = .next t ∧ KennelRefused s t .badParam :=
  ⟨_, kennelRead_says hup hopen h, rfl⟩

end

/-! ## The reads of Table 17.1 -/

theorem execKennelStatus_says (hup : s.kennelUp = true) (hopen : s.kennel.state ≠ .locked) : exec .kennelStatus s = .next (s.heard.kennelSay s.life.commit
    [[("WORD0", s.logs.word0.toNat), ("WORD1", s.logs.word1.toNat), ("WORD2", s.logs.word2.toNat),
      ("FEED", s.feedNo), ("INFORCE", s.inForce / 10), ("DRAW", s.supply.draw), ("TMAX", unsigned 16 s.tmax)],
      fieldsOf (healthByte s.heard.hsense s.heard.healthy s.io.inputs) [("HSENSE", 5, 5), ("HEALTHY", 4, 4), ("INPUTS", 3, 0)]] .ok) := by
  have hfeed : s.heard.feedNo = s.feedNo := heard_part State.feedNo fun _ _ _ _ => rfl
  have hforce : s.heard.inForce = s.inForce := heard_part State.inForce fun _ _ _ _ => rfl
  have hsupply : s.heard.supply = s.supply := heard_part State.supply fun _ _ _ _ => rfl
  have htmax : s.heard.tmax = s.tmax := heard_part State.tmax fun _ _ _ _ => rfl
  have hio : s.heard.io = s.io := heard_part State.io fun _ _ _ _ => rfl
  exact kennelRead_says hup hopen (by rw [heard_logs, hfeed, hforce, hsupply, htmax, hio])

theorem inspect_heard (k : Nat) : s.heard.inspect k = s.inspect k := heard_part (·.inspect k) fun _ _ _ _ => rfl

theorem physOf_heard (c id : Nat) : s.heard.physOf c id = s.physOf c id := heard_part (·.physOf c id) fun _ _ _ _ => rfl

/-- Settles O35: each read by its lines in the state in which the line is read, which are those of the state before it. The names of
the fields are assumption 97, a bad argument for an id that is not bound assumption 39. -/
theorem kennelReadsAnswer : Obligations.KennelReadsAnswer := by
  intro s hup hopen
  refine ⟨execKennelStatus_says hup hopen, fun first count hcount => ?_, fun first count hcount => ?_, ?_, fun c hc => ?_, fun c hc => ⟨?_, ?_⟩, fun c hc => ?_,
    fun c id k hc hid hk => ?_, fun c id hbad => ?_, fun k hk => ?_, fun k hk => ?_, fun loc => ⟨fun h => ?_, fun h => ?_, fun h => ?_, fun h => ?_, fun h => ?_, fun h => ?_⟩, ?_,
    fun k hk => ?_, fun k hk => ?_, ?_, ?_, fun n hn => ?_, fun n hn => ?_, ?_, fun block arg bs h => ?_, fun block arg h => ?_⟩
  · refine kennelRead_says hup hopen ?_
    rw [if_neg (Nat.not_lt.mpr hcount), heard_logs]
    cases first <;> rfl
  · exact kennelRead_refuses hup hopen (if_pos hcount)
  · exact kennelRead_says hup hopen (by rw [heard_part State.ctxLine fun _ _ _ _ => rfl])
  · exact kennelRead_says hup hopen ((if_neg (Nat.not_lt.mpr hc)).trans (by rw [heard_part State.ctxLine fun _ _ _ _ => rfl]))
  · exact kennelRead_refuses hup hopen (if_pos hc)
  · exact kennelRead_refuses hup hopen (if_pos hc)
  · refine kennelRead_says hup hopen ((if_neg (Nat.not_lt.mpr hc)).trans ?_)
    rw [heard_part State.waitLine fun _ _ _ _ => rfl, heard_part State.thread fun _ _ _ _ => rfl, heard_part State.threadsOf fun _ _ _ _ => rfl]
  · refine kennelRead_says hup hopen ((if_neg (by omega)).trans ?_)
    simp only [physOf_heard, hk, inspect_heard]
  · refine kennelRead_refuses hup hopen ?_
    rcases hbad with hc | hid | hnone
    · exact if_pos (.inl hc)
    · exact if_pos (.inr hid)
    · simp only [physOf_heard, hnone, ite_self]
  · exact kennelRead_says hup hopen ((if_neg (Nat.not_lt.mpr hk)).trans (by rw [inspect_heard]))
  · exact kennelRead_refuses hup hopen (if_pos hk)
  · exact kennelRead_says hup hopen ((if_neg (ne_false_of_eq_true h)).trans (by rw [heard_part State.threadWord fun _ _ _ _ => rfl]))
  · exact kennelRead_refuses hup hopen (if_pos h)
  · exact kennelRead_says hup hopen ((if_neg (ne_false_of_eq_true h)).trans (by rw [heard_part State.ring fun _ _ _ _ => rfl]))
  · exact kennelRead_refuses hup hopen (if_pos h)
  · refine kennelRead_says hup hopen ((if_neg (ne_false_of_eq_true h)).trans ?_)
    rw [heard_part State.panel fun _ _ _ _ => rfl, heard_part State.planeWord fun _ _ _ _ => rfl]
  · exact kennelRead_refuses hup hopen (if_pos h)
  · exact kennelRead_says hup hopen (by rw [heard_part State.wearLine fun _ _ _ _ => rfl])
  · exact kennelRead_says hup hopen ((if_neg (Nat.not_lt.mpr hk)).trans (by rw [heard_part State.wearLine fun _ _ _ _ => rfl]))
  · exact kennelRead_refuses hup hopen (if_pos hk)
  · exact kennelRead_says hup hopen (by rw [heard_part State.packLines fun _ _ _ _ => rfl])
  · exact kennelRead_says hup hopen (by rw [heard_part State.storeLines fun _ _ _ _ => rfl])
  · exact kennelRead_says hup hopen ((if_neg (Nat.not_lt.mpr hn)).trans (by rw [heard_part State.slot fun _ _ _ _ => rfl]))
  · exact kennelRead_refuses hup hopen (if_pos hn)
  · exact kennelRead_says hup hopen (by rw [heard_part State.upkeepLines fun _ _ _ _ => rfl])
  · exact kennelRead_says hup hopen (by simp only [h])
  · exact kennelRead_refuses hup hopen (by simp only [h])

end Sys2Proof.Machine
end

section
/-! Kennel locked, unlocked and in service mode (R556 to R559), the boot subset (R567), and what LOCK and SVCEN refuse (R556, R560). -/

namespace Sys2Proof.Machine

open Sys2Proof

variable {s t : State}

/-! ## What an answer leaves -/

/-- The lines of an answer leave last, where nothing has left since the line was read. -/
theorem answered_say (hout : t.out = s.out) (hlost : t.kennel.lost = s.kennel.lost) (stamp : Nat) (lines : List (List (String × Nat))) (st : Status) :
    Answered s (t.kennelSay stamp lines st) stamp lines st := by
  refine ⟨⟨[], ?_⟩, rfl⟩
  rw [List.append_nil, ← hlost, ← hout]
  rfl

@[simp] theorem heard_out (s : State) : s.heard.out = s.out := heard_part State.out fun _ _ _ _ => rfl
@[simp] theorem heard_lost (s : State) : s.heard.kennel.lost = s.kennel.lost := heard_part (·.kennel.lost) fun _ _ _ _ => rfl
@[simp] theorem heard_lockout (s : State) : s.heard.kennel.lockout = s.kennel.lockout := heard_part (·.kennel.lockout) fun _ _ _ _ => rfl
@[simp] theorem heard_fails (s : State) : s.heard.kennel.fails = s.kennel.fails := heard_part (·.kennel.fails) fun _ _ _ _ => rfl
@[simp] theorem heard_challenge (s : State) : s.heard.kennel.challenge = s.kennel.challenge := heard_part (·.kennel.challenge) fun _ _ _ _ => rfl
@[simp] theorem heard_mem (s : State) : s.heard.mem = s.mem := heard_part State.mem fun _ _ _ _ => rfl
@[simp] theorem heard_comms (s : State) : s.heard.comms = s.comms := heard_part State.comms fun _ _ _ _ => rfl
@[simp] theorem heard_draws (s : State) : s.heard.draws = s.draws := heard_part State.draws fun _ _ _ _ => rfl
@[simp] theorem heard_img (s : State) : s.heard.img = s.img := heard_part State.img fun _ _ _ _ => rfl

/-! ## Kennel unlocks, and a response fails -/

/-- Kennel once a response has failed; the third failure in a row locks `unlock` out (R559). -/
def Kennel.failed (k : Kennel) : Kennel :=
  { k with
    challenge := none
    fails := if 3 ≤ k.fails + 1 then 0 else k.fails + 1
    lockout := k.lockout || decide (3 ≤ k.fails + 1) }

theorem unlockKennel_eq (s : State) : ∃ c d lo, s.unlockKennel = { s with
    kennel := { s.kennel with state := .unlocked, challenge := none, fails := 0 }
    life := { s.life with unlockedOnce := true, commit := c, storedStamp := d }, logs := lo } := by
  obtain ⟨c, d, lo, h, -⟩ := log_eq ({ s with
    kennel := { s.kennel with state := .unlocked, challenge := none, fails := 0 }, life := { s.life with unlockedOnce := true } })
    { code := Config.bootCode 3, bunit := 1 }
  exact ⟨c, d, lo, h⟩

theorem kennelFails_eq (s : State) : ∃ c d lo, s.kennelFails = { s with
    kennel := s.kennel.failed, life := { s.life with commit := c, storedStamp := d }, logs := lo } := by
  obtain ⟨c, d, lo, hlog, -⟩ := log_eq ({ s with kennel := { s.kennel with challenge := none, fails := s.kennel.fails + 1 } })
    { code := Config.bootCode 4, bunit := 1 }
  unfold State.kennelFails Kennel.failed
  rw [hlog]
  by_cases hthird : 3 ≤ s.kennel.fails + 1
  · obtain ⟨c, d, lo, hlock, -⟩ := log_eq ({ s with
      kennel := { s.kennel with challenge := none, fails := 0, lockout := true }
      life := { s.life with commit := c, storedStamp := d }, logs := lo }) { code := Config.bootCode 5, bunit := 1 }
    refine ⟨c, d, lo, (if_pos hthird).trans (hlock.trans ?_)⟩
    simp [hthird]
  · refine ⟨c, d, lo, (if_neg hthird).trans ?_⟩
    simp [hthird]

/-- The response unlocks: it arrives within 5 min, from an accepted client anchor of role Service, with a good signature (R558). -/
def State.goodResponse (s : State) (chain : Chain) (sigOk fresh : Bool) : Bool :=
  match s.acceptsChain chain with
  | some a => fresh && sigOk && decide (a.role = 3)
  | none => false

theorem goodResponse_of {chain : Chain} {sigOk fresh : Bool} {a : Anchor} (ha : s.acceptsChain chain = some a) (hfresh : fresh = true)
    (hsig : sigOk = true) (hrole : a.role = 3) : s.goodResponse chain sigOk fresh = true := by
  simp [State.goodResponse, ha, hfresh, hsig, hrole]

theorem not_goodResponse_of {chain : Chain} {sigOk fresh : Bool}
    (h : s.acceptsChain chain = none ∨ fresh = false ∨ sigOk = false ∨ ∀ a, s.acceptsChain chain = some a → a.role ≠ 3) :
    s.goodResponse chain sigOk fresh = false := by
  unfold State.goodResponse
  cases ha : s.acceptsChain chain with
  | none => rfl
  | some a =>
    rcases h with hnone | hfresh | hsig | hrole
    · rw [ha] at hnone
      exact absurd hnone nofun
    · simp [hfresh]
    · simp [hsig]
    · simp [hrole a ha]

section
variable (hup : s.kennelUp = true)
include hup

theorem execKennelUnlock_refused (h : s.kennel.state ≠ .locked ∨ s.kennel.lockout = true) :
    ∃ t, exec .kennelUnlock s = .next t ∧ KennelRefused s t .notPermitted := by
  have hheard : s.wake.takeHeld = s.heard := rfl
  refine ⟨_, ?_, rfl⟩
  change execKennelUnlock s = _
  simp only [execKennelUnlock, hup, true_or, if_true, hheard, heard_kennelState, heard_lockout, h, heard_commit]

theorem execKennelUnlock_unlocks (hlocked : s.kennel.state = .locked) (hlockout : s.kennel.lockout = false) (hlock : s.opt.shadow.lock = 0) :
    exec .kennelUnlock s = .next (s.heard.unlockKennel.kennelSay s.heard.unlockKennel.life.commit [] .ok) := by
  have hheard : s.wake.takeHeld = s.heard := rfl
  change execKennelUnlock s = _
  simp [execKennelUnlock, hup, hheard, hlocked, hlockout, hlock]

theorem execKennelUnlock_challenges (hlocked : s.kennel.state = .locked) (hlockout : s.kennel.lockout = false) (hlock : s.opt.shadow.lock ≠ 0) :
    exec .kennelUnlock s = .next (({ s.heard with
      draws := s.draws + 1
      kennel := { s.heard.kennel with challenge := some (Config.random s.draws % 2 ^ 256, true), lost := false } }).emit
        (.challenge (Config.random s.draws % 2 ^ 256) s.kennel.lost)) := by
  have hheard : s.wake.takeHeld = s.heard := rfl
  change execKennelUnlock s = _
  simp [execKennelUnlock, hup, hheard, hlocked, hlockout, hlock]

theorem execKennelChallengeResponse_eq (chain : Chain) (sigOk : Bool) {n : Nat} {fresh : Bool} (hout : s.kennel.challenge = some (n, fresh)) :
    exec (.kennelChallengeResponse chain sigOk) s = .next (if s.goodResponse chain sigOk fresh
      then s.heard.unlockKennel.kennelSay s.heard.unlockKennel.life.commit [] .ok
      else s.heard.kennelFails.kennelSay s.heard.kennelFails.life.commit [] .notPermitted) := by
  have hheard : s.wake.takeHeld = s.heard := rfl
  have hchain : s.heard.acceptsChain chain = s.acceptsChain chain := heard_part (·.acceptsChain chain) fun _ _ _ _ => rfl
  change execKennelChallengeResponse chain sigOk s = _
  unfold execKennelChallengeResponse State.goodResponse
  rw [if_pos (.inl hup), hout]
  simp only [hheard, hchain]
  cases s.acceptsChain chain with
  | none => rfl
  | some a => cases hgood : (fresh && sigOk && decide (a.role = 3)) <;> simp only [hgood, Bool.false_eq_true, if_false, if_true]

end

/-- An unlocked Kennel, its answer and what stands. -/
theorem unlockKennel_answers (s : State) :
    ∀ t, t = s.heard.unlockKennel.kennelSay s.heard.unlockKennel.life.commit [] .ok → t.kennel.state = .unlocked ∧ t.kennel.challenge = none
      ∧ t.kennel.fails = 0 ∧ t.life.unlockedOnce = true ∧ Answered s t t.life.commit [] .ok
      ∧ t.opt = s.opt ∧ t.trust = s.trust ∧ t.mem = s.mem ∧ t.comms = s.comms := by
  rintro t rfl
  obtain ⟨c, d, lo, h⟩ := unlockKennel_eq s.heard
  rw [h]
  exact ⟨rfl, rfl, rfl, rfl, answered_say (heard_out s) (heard_lost s) .., heard_opt s, heard_trust s, heard_mem s, heard_comms s⟩

/-- A failed response, its answer and what stands. -/
theorem kennelFails_answers (s : State) :
    ∀ t, t = s.heard.kennelFails.kennelSay s.heard.kennelFails.life.commit [] .notPermitted → t.kennel.state = s.kennel.state ∧ t.kennel.challenge = none
      ∧ (s.kennel.fails < 2 → t.kennel.fails = s.kennel.fails + 1 ∧ t.kennel.lockout = s.kennel.lockout ∧ Answered s t t.life.commit [] .notPermitted)
      ∧ (2 ≤ s.kennel.fails → t.kennel.fails = 0 ∧ t.kennel.lockout = true ∧ Answered s t t.life.commit [] .notPermitted) := by
  rintro t rfl
  obtain ⟨c, d, lo, h⟩ := kennelFails_eq s.heard
  rw [h]
  have hanswered := answered_say (s := s) (t := { s.heard with
    kennel := s.heard.kennel.failed, life := { s.heard.life with commit := c, storedStamp := d }, logs := lo }) (heard_out s) (heard_lost s) c [] .notPermitted
  refine ⟨heard_kennelState s, rfl, fun hfew => ⟨?_, ?_, hanswered⟩, fun hmany => ⟨?_, ?_, hanswered⟩⟩
  · have hnot : ¬ 3 ≤ s.kennel.fails + 1 := by omega
    simp [State.kennelSay, State.emit, Kennel.failed, hnot]
  · have hnot : ¬ 3 ≤ s.kennel.fails + 1 := by omega
    simp [State.kennelSay, State.emit, Kennel.failed, hnot]
  · have hthird : 3 ≤ s.kennel.fails + 1 := by omega
    simp [State.kennelSay, State.emit, Kennel.failed, hthird]
  · have hthird : 3 ≤ s.kennel.fails + 1 := by omega
    simp [State.kennelSay, State.emit, Kennel.failed, hthird]

/-! ## `lock`, `service on`, `service off` -/

/-- Kennel in another state, with its line buffer as read. -/
def State.kennelTo (s : State) (k : KState) : State := { s with kennel := { s.kennel with state := k } }

theorem kennelTo_answers (k : KState) : Answered s ((s.heard.kennelTo k).kennelSay s.life.commit [] .ok) s.life.commit [] .ok :=
  answered_say (t := s.heard.kennelTo k) (heard_out s) (heard_lost s) ..

section
variable (hup : s.kennelUp = true)
include hup

theorem execKennelLock_locks (hopen : s.kennel.state ≠ .locked) :
    exec .kennelLock s = .next (s.heard.lockKennel.kennelSay s.life.commit [] .ok) := by
  have hneed : s.heard.kennel.permits .opened = true := permits_opened (by rwa [heard_kennelState])
  change execKennelLock s = _
  rw [execKennelLock, kennelBoot_of_kennelUp hup, if_neg Bool.false_ne_true, kennelBoth_runs hup hneed, kennelRun_changes rfl, heard_commit]

theorem execKennelServiceOn_opens (hopen : s.kennel.state ≠ .locked) :
    exec .kennelServiceOn s = .next ((s.heard.kennelTo .service).kennelSay s.life.commit [] .ok) := by
  have hneed : s.heard.kennel.permits .opened = true := permits_opened (by rwa [heard_kennelState])
  change execKennelServiceOn s = _
  rw [execKennelServiceOn, if_pos hup, kennelBoth_runs hup hneed, kennelRun_changes rfl, heard_commit]
  rfl

theorem execKennelServiceOff_closes (hservice : s.kennel.state = .service) :
    exec .kennelServiceOff s = .next ((s.heard.kennelTo .unlocked).kennelSay s.life.commit [] .ok) := by
  have hneed : s.heard.kennel.permits .service = true := decide_eq_true (by rwa [heard_kennelState])
  change execKennelServiceOff s = _
  rw [execKennelServiceOff, if_pos hup, kennelBoth_runs hup hneed, kennelRun_changes rfl, heard_commit]
  rfl

/-- `help`, `info` and an unknown line are answered in every state of Kennel. -/
theorem kennelBoth_says {f : State → KOut} {st : Status} {lines : List (List (String × Nat))} (h : f s.heard = { st := st, lines := lines }) :
    s.kennelBoth .any none f = .next (s.heard.kennelSay s.life.commit lines st) := by
  rw [kennelBoth_runs hup rfl, kennelRun_says h, heard_commit]

theorem execKennelInfo_says : exec .kennelInfo s = .next (s.heard.kennelSay s.life.commit
    [[("ORDER", ofBytes (textOf s.optv.order)), ("SERIAL", ofBytes (textOf s.optv.serial)),
      ("LEVEL", s.optv.level), ("FWVER", s.life.fwver), ("BANK", s.life.bank), ("POC", s.life.poc), ("MAC", s.optv.mac), ("IMAGEID", s.imageId),
      ("LOCK", s.opt.shadow.lock), ("SVCEN", s.opt.shadow.svcEn)]] .ok) := by
  have hopt : s.heard.optv = s.optv := heard_part State.optv fun _ _ _ _ => rfl
  have hver : s.heard.life.fwver = s.life.fwver := heard_part (·.life.fwver) fun _ _ _ _ => rfl
  have hbank : s.heard.life.bank = s.life.bank := heard_part (·.life.bank) fun _ _ _ _ => rfl
  have hpoc : s.heard.life.poc = s.life.poc := heard_part (·.life.poc) fun _ _ _ _ => rfl
  have himage : s.heard.imageId = s.imageId := heard_part State.imageId fun _ _ _ _ => rfl
  exact kennelBoth_says hup (by rw [hopt, hver, hbank, hpoc, himage, heard_opt])

end

/-- Settles O36: each line by what it makes of Kennel. The names of the fields are assumption 97, the locks and challenges assumption
98. -/
theorem kennelUnlocksAndLocks : Obligations.KennelUnlocksAndLocks := by
  refine ⟨fun s hup => ⟨kennelBoth_says hup rfl, execKennelInfo_says hup, ⟨_, kennelBoth_says hup rfl, rfl⟩, execKennelUnlock_refused hup,
    fun hlocked hlockout hlock => ?_, fun hlocked hlockout hlock => ?_, fun chain sigOk fresh n hout => ⟨fun a ha hfresh hsig hrole => ?_, fun hbad => ?_⟩,
    execKennelLock_locks hup, if_pos (.inl hup), fun hopen => ?_, fun hservice => ?_, fun n => if_pos (.inl hup)⟩,
    fun s n h => ?_, fun s => rfl⟩
  · exact ⟨_, execKennelUnlock_unlocks hup hlocked hlockout hlock, unlockKennel_answers s _ rfl⟩
  · refine ⟨_, _, execKennelUnlock_challenges hup hlocked hlockout hlock, rfl, ?_, rfl, rfl, ?_, heard_trust s⟩
    · exact (heard_kennelState s).trans hlocked
    · exact congrArg (· ++ _) (heard_out s)
  · refine ⟨_, (execKennelChallengeResponse_eq hup chain sigOk hout).trans (congrArg _ (if_pos (goodResponse_of ha hfresh hsig hrole))), ?_⟩
    obtain ⟨hstate, hchallenge, hfails, -, hanswered, -⟩ := unlockKennel_answers s _ rfl
    exact ⟨hstate, hchallenge, hfails, hanswered⟩
  · exact ⟨_, (execKennelChallengeResponse_eq hup chain sigOk hout).trans (congrArg _ (if_neg (ne_true_of_eq_false (not_goodResponse_of hbad)))),
      kennelFails_answers s _ rfl⟩
  · exact ⟨_, execKennelServiceOn_opens hup hopen, rfl, kennelTo_answers _, heard_opt s, heard_mem s⟩
  · exact ⟨_, execKennelServiceOff_closes hup hservice, rfl, kennelTo_answers _, heard_opt s, heard_mem s⟩
  · change execKennelChallengeExpire s = _
    simp only [execKennelChallengeExpire, h]

end Sys2Proof.Machine
end

section
/-! The boot subset (R567), and what LOCK and SVCEN refuse (R556, R560). -/

namespace Sys2Proof.Machine

open Sys2Proof

variable {s t : State}

/-! ## Firmware banks -/

@[simp] theorem setBank_bank_same (s : State) (b state : Nat) (fw : Firmware) : (s.setBank b state fw).img.bank b = (state, fw) := by
  unfold State.setBank Images.bank
  by_cases hb : b = 0
  · subst hb; rfl
  · simp only [hb, if_false]; rfl

theorem setBank_bank_other (s : State) {b : Nat} (hb : b ≤ 1) (state : Nat) (fw : Firmware) :
    (s.setBank b state fw).img.bank (1 - b) = s.img.bank (1 - b) := by
  obtain rfl | rfl : b = 0 ∨ b = 1 := by omega
  · rfl
  · rfl

/-- A bank changes with its record in the store, and nothing else. -/
theorem setBank_rest (s : State) (b state : Nat) (fw : Firmware) : { s.setBank b state fw with img := s.img, store := s.store } = s := rfl

/-! ## The boot code's answers, R567 -/

/-- A command of Kennel that changes something is one commit with its record. -/
theorem kennelCommit_eq (s : State) (k : Nat) : ∃ d lo, s.kennelCommit k = { s with
    life := { s.life with commit := s.life.commit + 1, storedStamp := d }, logs := lo } := by
  unfold State.kennelCommit State.kennelRec
  dsimp only
  split <;> exact ⟨_, _, rfl⟩

/-- What `fwload` leaves: the container stands in its bank where it passes every check, and the bank is empty where it does not. -/
def State.fwLoaded (s : State) (bank : Nat) (fw : Firmware) (st : Status) : State :=
  if st = .ok then (s.kennelCommit 6).setBank bank 1 fw else (s.kennelCommit 6).setBank bank 0 {}

theorem fwLoaded_bank_ok (s : State) (bank : Nat) (fw : Firmware) {st : Status} (h : st = .ok) : (s.fwLoaded bank fw st).img.bank bank = (1, fw) := by
  rw [State.fwLoaded, if_pos h, setBank_bank_same]

theorem fwLoaded_bank_bad (s : State) (bank : Nat) (fw : Firmware) {st : Status} (h : st ≠ .ok) : (s.fwLoaded bank fw st).img.bank bank = (0, {}) := by
  rw [State.fwLoaded, if_neg h, setBank_bank_same]

theorem fwLoaded_rest (s : State) (bank : Nat) (fw : Firmware) (st : Status) :
    { s.fwLoaded bank fw st with img := s.img, store := s.store } = { s.kennelCommit 6 with img := s.img, store := s.store } := by
  unfold State.fwLoaded
  split <;> rfl

theorem fwLoaded_bank_other (s : State) {bank : Nat} (hbank : bank ≤ 1) (fw : Firmware) (st : Status) :
    (s.fwLoaded bank fw st).img.bank (1 - bank) = s.img.bank (1 - bank) := by
  obtain ⟨d, lo, hcommit⟩ := kennelCommit_eq s 6
  unfold State.fwLoaded
  split <;> rw [setBank_bank_other _ hbank, hcommit]

/-- The answer of `fwload` is the check's. -/
def State.fwAnswered (s : State) (bank : Nat) (got : FwReceived) : State :=
  let st := got.container.verdict s.optv.level s.opt.shadow.fwCtr
  (s.fwLoaded bank got.container st).kennelSay (s.fwLoaded bank got.container st).life.commit [] st

theorem exec_kennelBootlog (s : State) :
    exec .kennelBootlog s = s.kennelBootCmd .any (fun s => s.kennelSay s.life.commit (s.logs.staged.map LogRec.line) .ok) := rfl

theorem exec_kennelFwload (bank : Nat) (got : FwReceived) (s : State) : exec (.kennelFwload bank got) s
    = s.kennelBootCmd .opened (fun s => if 1 < bank then s.kennelSay s.life.commit [] .badParam else s.fwAnswered bank got) := rfl

theorem exec_kennelBootbank (bank : Nat) (s : State) : exec (.kennelBootbank bank) s = s.kennelBootCmd .opened (fun s =>
    if 1 < bank then s.kennelSay s.life.commit [] .badParam else s.bootOption (fun o => { o with bootBank := bank })) := rfl

theorem exec_kennelBootfall (v : Nat) (s : State) : exec (.kennelBootfall v) s = s.kennelBootCmd .opened (fun s =>
    if 1 < v then s.kennelSay s.life.commit [] .badParam else s.bootOption (fun o => { o with bootFall := v })) := rfl

/-- A field of the option shadows that the boot code changes; its answer is owed until the store has it. -/
theorem bootOption_owes (s : State) (g : OptCopy → OptCopy) : ∃ n, (s.heard.bootOption g).opt.shadow = { g s.opt.shadow with seq := n }
    ∧ (s.heard.bootOption g).kennel.owes = true ∧ (s.heard.bootOption g).opt.writing.isSome = true ∧ (s.heard.bootOption g).out = s.out
    ∧ (s.heard.bootOption g).opt.loaded = s.opt.loaded := by
  obtain ⟨d, lo, hcommit⟩ := kennelCommit_eq s.heard 6
  obtain ⟨hloaded, n, hshadow⟩ := writeOption_opt (s.heard.kennelCommit 6) g
  have hopt : (s.heard.kennelCommit 6).opt = s.opt := by rw [hcommit]; exact heard_opt s
  have hout : (s.heard.kennelCommit 6).out = s.out := by rw [hcommit]; exact heard_out s
  rw [hopt] at hloaded hshadow
  exact ⟨n, hshadow, rfl, writeOption_writing_isSome .., (congrArg State.out (writeOption_rest (s.heard.kennelCommit 6) g) :).trans hout, hloaded⟩

section
variable (hboot : s.kennelBoot = true)
include hboot

theorem kennelBootCmd_runs {need : KNeed} {f : State → State} (hneed : s.heard.kennel.permits need = true) :
    s.kennelBootCmd need f = .next (f s.heard) := by
  have hheard := heard_of_kennelBoot hboot
  rw [hheard] at hneed ⊢
  simp only [State.kennelBootCmd, hboot, if_true, hneed, Bool.true_eq_false, if_false]

theorem kennelBootCmd_locked {f : State → State} (hlocked : s.kennel.state = .locked) :
    ∃ t, s.kennelBootCmd .opened f = .next t ∧ KennelRefused s t .notPermitted := by
  have hheard := heard_of_kennelBoot hboot
  have hneed : s.takeHeld.kennel.permits .opened = false := decide_eq_false (not_not.mpr hlocked)
  refine ⟨s.takeHeld.kennelSay s.life.commit [] .notPermitted, ?_, ?_⟩
  · simp only [State.kennelBootCmd, hboot, if_true, hneed]
    rfl
  · rw [KennelRefused, hheard]

/-- A command of the firmware's subset alone. -/
theorem kennelCmd_boot (need : KNeed) (op : Nat) (wr : Option Nat) (f : State → KOut) :
    ∃ t, s.kennelCmd need op wr f = .next t ∧ KennelRefused s t .notPermitted := by
  refine ⟨s.takeHeld.kennelSay s.life.commit [] .notPermitted, ?_, ?_⟩
  · simp only [State.kennelCmd, kennelUp_of_kennelBoot hboot, hboot, Bool.false_eq_true, if_false, if_true]
  · rw [KennelRefused, heard_of_kennelBoot hboot]

theorem execKennelBootlog_lists : exec .kennelBootlog s = .next (s.heard.kennelSay s.life.commit (s.logs.staged.map LogRec.line) .ok) := by
  rw [exec_kennelBootlog, kennelBootCmd_runs hboot rfl, heard_commit, heard_logs]

theorem execKennelRestart_cold : ∃ t, exec (.kennelRestart 1) s = .next t ∧ t.life.phase = .halted ∧ t.life.due = some .cold ∧ t.mem = s.mem
    ∧ Answered s t (s.life.commit + 1) [] .ok := by
  obtain ⟨d, lo, hcommit⟩ := kennelCommit_eq s.takeHeld 6
  have hanswered := answered_say (s := s) (t := s.takeHeld.kennelCommit 6) (by rw [hcommit]; rfl) (by rw [hcommit]; rfl) (s.life.commit + 1) [] .ok
  change ∃ t, execKennelRestart 1 s = .next t ∧ _
  simp only [execKennelRestart, hboot, if_true]
  rw [hcommit] at hanswered ⊢
  exact ⟨_, rfl, rfl, rfl, rfl, hanswered⟩

theorem execKennelRestart_warm : ∃ t, exec (.kennelRestart 0) s = .next t ∧ KennelRefused s t .notPermitted := by
  refine ⟨s.takeHeld.kennelSay s.life.commit [] .notPermitted, ?_, by rw [KennelRefused, heard_of_kennelBoot hboot]⟩
  change execKennelRestart 0 s = _
  simp [execKennelRestart, hboot]

section
variable (hopen : s.kennel.state ≠ .locked)
include hopen

theorem opened_runs (f : State → State) : s.kennelBootCmd .opened f = .next (f s.heard) :=
  kennelBootCmd_runs hboot (permits_opened (by rwa [heard_kennelState]))

/-- A bank or a value above 1. -/
theorem kennelBootCmd_bad {f : State → State} {n : Nat} (hn : 1 < n) :
    ∃ t, s.kennelBootCmd .opened (fun s => if 1 < n then s.kennelSay s.life.commit [] .badParam else f s) = .next t ∧ KennelRefused s t .badParam :=
  ⟨_, (opened_runs hboot hopen _).trans (congrArg _ (if_pos hn)), by rw [KennelRefused, heard_commit]⟩

theorem execKennelFwload_loads {bank : Nat} (hbank : bank ≤ 1) (got : FwReceived) : ∃ t, exec (.kennelFwload bank got) s = .next t
    ∧ (got.container.verdict s.optv.level s.opt.shadow.fwCtr = .ok → t.img.bank bank = (1, got.container))
    ∧ (got.container.verdict s.optv.level s.opt.shadow.fwCtr ≠ .ok → t.img.bank bank = (0, {}))
    ∧ t.img.bank (1 - bank) = s.img.bank (1 - bank) ∧ Answered s t (s.life.commit + 1) [] (got.container.verdict s.optv.level s.opt.shadow.fwCtr)
    ∧ t.life.phase = s.life.phase ∧ t.opt = s.opt ∧ t.trust = s.trust ∧ t.mem = s.mem := by
  have hheard := heard_of_kennelBoot hboot
  obtain ⟨d, lo, hcommit⟩ := kennelCommit_eq s.takeHeld 6
  generalize hst : got.container.verdict s.optv.level s.opt.shadow.fwCtr = st
  have hrun : exec (.kennelFwload bank got) s = .next ((s.takeHeld.fwLoaded bank got.container st).kennelSay
      (s.takeHeld.fwLoaded bank got.container st).life.commit [] st) := by
    have hverdict : got.container.verdict s.takeHeld.optv.level s.takeHeld.opt.shadow.fwCtr = st := hst
    rw [exec_kennelFwload, opened_runs hboot hopen, if_neg (Nat.not_lt.mpr hbank), hheard]
    simp only [State.fwAnswered, hverdict]
  have hrest := fwLoaded_rest s.takeHeld bank got.container st
  rw [hcommit] at hrest
  have hstamp : (s.takeHeld.fwLoaded bank got.container st).life.commit = s.life.commit + 1 := (congrArg (·.life.commit) hrest :)
  rw [hstamp] at hrun
  exact ⟨_, hrun, fwLoaded_bank_ok _ _ _, fwLoaded_bank_bad _ _ _, fwLoaded_bank_other _ hbank _ _,
    answered_say (congrArg State.out hrest :) (congrArg (·.kennel.lost) hrest :) .., (congrArg (·.life.phase) hrest :), (congrArg State.opt hrest :),
    (congrArg State.trust hrest :), (congrArg State.mem hrest :)⟩

end

end

/-- With firmware running, a line of the boot subset alone is no command. -/
theorem kennelBootCmd_unknown (hup : s.kennelUp = true) (need : KNeed) (f : State → State) :
    ∃ t, s.kennelBootCmd need f = .next t ∧ KennelRefused s t .badOpcode := by
  refine ⟨_, ?_, rfl⟩
  simp only [State.kennelBootCmd, kennelBoot_of_kennelUp hup, hup, Bool.false_eq_true, if_false, if_true]
  rfl

/-- Settles O38: the lines of the boot subset with the boot code serving it, and with firmware running. What `fwload` and `restart`
make of it are assumptions 99 and 100. -/
theorem bootCodeServesTheBootSubset : Obligations.BootCodeServesTheBootSubset := by
  refine ⟨fun s hboot => ⟨execKennelBootlog_lists hboot, fun bank got hlocked => ?_,
      fun hopen => ⟨fun bank got hbank => execKennelFwload_loads hboot hopen hbank got, fun bank hbank => ⟨?_, ?_⟩, fun bank got hbank => ?_⟩,
      execKennelRestart_cold hboot, execKennelRestart_warm hboot, kennelCmd_boot hboot _ _ _ _⟩,
    fun s hup => ⟨?_, fun bank got => ?_⟩⟩
  · rw [exec_kennelFwload, exec_kennelBootbank, exec_kennelBootfall]
    exact ⟨kennelBootCmd_locked hboot hlocked, kennelBootCmd_locked hboot hlocked, kennelBootCmd_locked hboot hlocked⟩
  · obtain ⟨n, hshadow, howes, hwriting, hout, hloaded⟩ := bootOption_owes s (fun o => { o with bootBank := bank })
    rw [exec_kennelBootbank, opened_runs hboot hopen, if_neg (Nat.not_lt.mpr hbank)]
    exact ⟨_, rfl, by rw [hshadow], howes, hwriting, hout, hloaded⟩
  · obtain ⟨n, hshadow, howes, hwriting, hout, -⟩ := bootOption_owes s (fun o => { o with bootFall := bank })
    rw [exec_kennelBootfall, opened_runs hboot hopen, if_neg (Nat.not_lt.mpr hbank)]
    exact ⟨_, rfl, by rw [hshadow], howes, hwriting, hout⟩
  · rw [exec_kennelFwload, exec_kennelBootbank, exec_kennelBootfall]
    exact ⟨kennelBootCmd_bad hboot hopen hbank, kennelBootCmd_bad hboot hopen hbank, kennelBootCmd_bad hboot hopen hbank⟩
  · rw [exec_kennelBootlog]
    exact kennelBootCmd_unknown hup _ _
  · rw [exec_kennelFwload, exec_kennelBootbank, exec_kennelBootfall]
    exact ⟨kennelBootCmd_unknown hup _ _, kennelBootCmd_unknown hup _ _, kennelBootCmd_unknown hup _ _⟩

/-! ## The last client anchor of role Service, R560 -/

/-- It is not removed while LOCK is 1. -/
theorem anchorRemove_lastService {index : Nat} {a : Anchor} (hlock : s.opt.shadow.lock = 1)
    (hfind : s.trust.anchors.find? (fun b => b.index == index) = some a) (hkind : a.kind = 0) (hrole : a.role = 3)
    (hlast : (s.trust.anchors.filter (fun b => decide (b.kind = 0 ∧ b.role = 3))).length ≤ 1) : s.anchorRemove index = .error .notPermitted := by
  have hfixed : (decide (a.kind = 0 ∧ a.role = 3) && decide (s.opt.shadow.lock = 1)
      && decide ((s.trust.anchors.filter (fun b => decide (b.kind = 0 ∧ b.role = 3))).length ≤ 1)) = true := by
    rw [decide_eq_true ⟨hkind, hrole⟩, decide_eq_true hlock, decide_eq_true hlast]
    rfl
  simp only [State.anchorRemove, hfind, hfixed, Bool.or_true, if_true]

/-- A change in service mode that its rules refuse as not permitted: it is so answered too where Kennel's state or the lead bars it. -/
theorem kennelSet_notPermitted (hup : s.kennelUp = true) (hready : s.isReady = true) {op : Nat} {f : State → KOut}
    (hcommit : ∀ k, (f (s.heard.kennelCommit k)).st = .notPermitted) (h : f s.heard = { st := .notPermitted }) :
    ∃ t, s.kennelSet op f = .next t ∧ KennelRefused s t .notPermitted := by
  refine ⟨_, ?_, rfl⟩
  have hheard : s.wake.takeHeld = s.heard := rfl
  have hrun : s.heard.kennelRun (some 6) f = s.heard.kennelSay s.life.commit [] .notPermitted := by
    rw [kennelRun_refuses (by decide) (fun k _ => hcommit k) h, heard_commit]
  have hbars : s.heard.kennelBars op = none ∨ s.heard.kennelBars op = some .notPermitted := by
    have hready' : s.heard.isReady = true := by
      unfold State.heard State.wake
      split
      · rfl
      · exact hready
    unfold State.kennelBars
    rw [if_neg (by simp [hready'])]
    split
    · split
      · exact .inr rfl
      · exact .inl rfl
    · exact .inl rfl
  cases hneed : s.heard.kennel.permits .service with
  | false => simp only [State.kennelSet, State.kennelCmd, hup, if_true, hheard, hneed, heard_commit]
  | true =>
    rcases hbars with hbars | hbars
    · rw [State.kennelSet, kennelCmd_runs hup hneed hbars, hrun]
    · simp only [State.kennelSet, State.kennelCmd, hup, if_true, hheard, hneed, Bool.true_eq_false, if_false, hbars, heard_commit]

/-- Settles O39. -/
theorem lastServiceAnchorStaysWhileLocked : Obligations.LastServiceAnchorStaysWhileLocked := by
  intro s a index hlock hfind hkind hrole hlast
  refine ⟨fun sid x p h hindex => ⟨_, rfl, refused_of_asked h (by decide) fun l => ?_⟩, fun hup hready => kennelSet_notPermitted hup hready (fun k => ?_) ?_⟩
  · have hasked : (s.askedAt sid p l).anchorRemove (p.num 1) = .error .notPermitted := anchorRemove_lastService hlock (hindex ▸ hfind) hkind hrole hlast
    simp only [hasked, CmdOut.no]
  · obtain ⟨d, lo, hcommit⟩ := kennelCommit_eq s.heard k
    have hkept : (s.heard.kennelCommit k).anchorRemove index = .error .notPermitted := by
      rw [hcommit]
      exact anchorRemove_lastService (by rwa [heard_opt]) (by rwa [heard_trust]) hkind hrole (by rwa [heard_trust])
    simp only [hkept]
  · have hkept : s.heard.anchorRemove index = .error .notPermitted :=
      anchorRemove_lastService (by rwa [heard_opt]) (by rwa [heard_trust]) hkind hrole (by rwa [heard_trust])
    simp only [hkept]

/-! ## SVCEN, R556 -/

section
variable (hup : s.kennelUp = false) (hboot : s.kennelBoot = false)
include hup hboot

theorem kennelCmd_silent (need : KNeed) (op : Nat) (wr : Option Nat) (f : State → KOut) : s.kennelCmd need op wr f = .next s := by
  simp only [State.kennelCmd, hup, hboot, Bool.false_eq_true, if_false]

theorem kennelBoth_silent (need : KNeed) (wr : Option Nat) (f : State → KOut) : s.kennelBoth need wr f = .next s := by
  simp only [State.kennelBoth, hup, hboot, Bool.false_eq_true, or_self, if_false]

theorem kennelBootCmd_silent (need : KNeed) (f : State → State) : s.kennelBootCmd need f = .next s := by
  simp only [State.kennelBootCmd, hup, hboot, Bool.false_eq_true, if_false]

/-- A Kennel that answers neither from the firmware nor from the boot code does nothing with a line. -/
theorem exec_line_silent {i : Instr} (hline : isLine i = true) : exec i s = .next s := by
  have hnone : ¬ (s.kennelUp = true ∨ s.kennelBoot = true) := by simp [hup, hboot]
  cases i with
  | kennelHelp | kennelInfo | kennelUnknownCommand => exact kennelBoth_silent hup hboot _ _ _
  | kennelLock => exact kennelBoth_silent hup hboot _ _ _
  | kennelUnlock => exact if_neg hnone
  | kennelChallengeResponse => exact if_neg hnone
  | serviceLineCharacter => exact if_neg hnone
  | kennelServiceOn => exact (if_neg (ne_true_of_eq_false hup)).trans (kennelCmd_silent hup hboot _ _ _ _)
  | kennelServiceOff => exact (if_neg (ne_true_of_eq_false hup)).trans (kennelCmd_silent hup hboot _ _ _ _)
  | kennelRestart => exact (if_neg (ne_true_of_eq_false hboot)).trans (kennelCmd_silent hup hboot _ _ _ _)
  | kennelBootlog => exact (exec_kennelBootlog ..).trans (kennelBootCmd_silent hup hboot _ _)
  | kennelFwload => exact (exec_kennelFwload ..).trans (kennelBootCmd_silent hup hboot _ _)
  | kennelBootbank => exact (exec_kennelBootbank ..).trans (kennelBootCmd_silent hup hboot _ _)
  | kennelBootfall => exact (exec_kennelBootfall ..).trans (kennelBootCmd_silent hup hboot _ _)
  | kennelStatus | kennelPack | kennelStore | kennelUpkeep | kennelAnchorList => exact kennelCmd_silent hup hboot _ _ _ _
  | kennelCtx _ | kennelWaits _ | kennelCtrp _ | kennelThread _ | kennelRing _ | kennelPlanes _ | kennelWear _ | kennelStream _ | kennelCtxStart _
  | kennelCtxStop _ | kennelCtxReset _ | kennelAnchorRemove _ | kennelLockSet _ => exact kennelCmd_silent hup hboot _ _ _ _
  | kennelLog _ _ | kennelCtr _ _ | kennelRaw _ _ | kennelPortSet _ _ | kennelOptionSet _ _ | kennelTroubleClear _ _ | kennelRetire _ _ =>
    exact kennelCmd_silent hup hboot _ _ _ _
  | kennelAnchorAdd _ _ _ => exact kennelCmd_silent hup hboot _ _ _ _
  | kennelPackSet _ _ _ _ _ => exact kennelCmd_silent hup hboot _ _ _ _
  | _ => cases hline

end

/-- With SVCEN not 1, Kennel answers neither from the firmware nor from the boot code. -/
theorem kennel_silent_of_svcEn (h : s.opt.shadow.svcEn ≠ 1) : s.kennelUp = false ∧ s.kennelBoot = false := by
  simp [State.kennelUp, State.kennelBoot, h]

/-- Settles O40. -/
theorem servicePortSilencesKennel : Obligations.ServicePortSilencesKennel := by
  refine ⟨fun i s hline hsvc => ?_, rfl, fun s sid x p h hok => ?_⟩
  · obtain ⟨hup, hboot⟩ := kennel_silent_of_svcEn hsvc
    exact exec_line_silent hup hboot hline
  · obtain ⟨t, ht, hreply, hsvc, -, -, hlocked, -⟩ := servicePort_takesEffect h hok
    refine ⟨t, ht, hreply, hsvc, fun hzero => ?_⟩
    obtain ⟨hup, hboot⟩ := kennel_silent_of_svcEn (s := t) (by omega)
    exact ⟨(hlocked hzero).1, hup, hboot, fun i hline => exec_line_silent hup hboot hline⟩

end Sys2Proof.Machine
end

section
/-! FEED_EXCURSION, FEED_AVAILABLE, FEED_OUT, MAIN_RETURN_QUALIFIED, LAST_GASP_END and HOLDUP_MEASURE (R514 to R523). -/

namespace Sys2Proof.Machine

open Sys2Proof

variable {s : State} {f g : FeedId}

/-! ## One feed -/

@[simp] theorem updFeed_feed_same (s : State) (f : FeedId) (h : Feed → Feed) : (s.updFeed f h).feed f = h (s.feed f) := by
  cases f <;> rfl

theorem updFeed_feed_ne (s : State) (hne : g ≠ f) (h : Feed → Feed) : (s.updFeed f h).feed g = s.feed g :=
  match f, g, hne with
  | .main, .main, hne => absurd rfl hne
  | .backup, .backup, hne => absurd rfl hne
  | .main, .backup, _ => rfl
  | .backup, .main, _ => rfl

theorem updFeed_rest (s : State) (f : FeedId) (h : Feed → Feed) : { s.updFeed f h with supply := s.supply } = s := by
  cases f <;> rfl

@[simp] theorem updFeed_life (s : State) (f : FeedId) (h : Feed → Feed) : (s.updFeed f h).life = s.life := by
  cases f <;> rfl

@[simp] theorem updFeed_active (s : State) (f : FeedId) (h : Feed → Feed) : (s.updFeed f h).supply.active = s.supply.active := by
  cases f <;> rfl

/-- A feed is a part of the supply. -/
theorem feed_of_supply {t : State} (hmain : t.supply.main = s.supply.main) (hbackup : t.supply.backup = s.supply.backup) (f : FeedId) :
    t.feed f = s.feed f := by
  cases f
  · exact hmain
  · exact hbackup

theorem powered_ne (h : s.powered = true) : s.powered ≠ false := ne_false_of_eq_true h

/-! ## FEED_EXCURSION and FEED_AVAILABLE, R514, R517 -/

/-- A feed whose voltage is now `mv`: what R514 makes of it on a powered module. -/
def Feed.excursion (x : Feed) (f : FeedId) (d2 : Bool) (mv : Int) : Feed :=
  let beyond := !inside (feedOut f d2) mv
  let keep := x.avail && (inside (feedRange f d2) mv || beyond)
  { x with mv := mv, outTimer := beyond, out := x.out && beyond, avail := keep, availTimer := inside (feedRange f d2) mv && !keep }

theorem execFeedExcursion_eq (hpow : s.powered = true) (f : FeedId) (mv : Int) : ∃ r, exec (.feedExcursion f mv) s = .next
    { s.updFeed f (fun x => x.excursion f s.optv.isD2 mv) with
      supply := { (s.updFeed f (fun x => x.excursion f s.optv.isD2 mv)).supply with returnTimer := r } } :=
  ⟨_, if_neg (powered_ne hpow)⟩

theorem execFeedExcursion_keeps (hpow : s.powered = true) (f : FeedId) (mv : Int) : ∃ t, exec (.feedExcursion f mv) s = .next t
    ∧ t.feed f = (s.feed f).excursion f s.optv.isD2 mv ∧ (∀ g, g ≠ f → t.feed g = s.feed g) ∧ { t with supply := s.supply } = s := by
  obtain ⟨r, h⟩ := execFeedExcursion_eq hpow f mv
  have hfeed (g : FeedId) := feed_of_supply (s := s.updFeed f (fun x => x.excursion f s.optv.isD2 mv)) (t := { s.updFeed f (fun x => x.excursion f s.optv.isD2 mv) with
      supply := { (s.updFeed f (fun x => x.excursion f s.optv.isD2 mv)).supply with returnTimer := r } }) rfl rfl g
  exact ⟨_, h, (hfeed f).trans (updFeed_feed_same ..), fun g hg => (hfeed g).trans (updFeed_feed_ne s hg _), updFeed_rest s f _⟩

theorem execFeedAvailable_avail (hpow : s.powered = true) (htimer : (s.feed f).availTimer = true) : ∃ t, exec (.feedAvailable f) s = .next t
    ∧ t.feed f = { s.feed f with avail := true, availTimer := false } ∧ (∀ g, g ≠ f → t.feed g = s.feed g) ∧ { t with supply := s.supply } = s :=
  ⟨_, if_pos ⟨hpow, htimer⟩, updFeed_feed_same .., fun _ hg => updFeed_feed_ne s hg _, updFeed_rest ..⟩

/-! ## FEED_OUT, R514, R516, R517, R521 -/

/-- The feed is out and not available, and its trouble bit is set. -/
def State.feedLost (s : State) (f : FeedId) : State := (s.updFeed f (fun x => { x with out := true, avail := false })).raise 0 (feedBit f) 12

/-- A trouble event touches no feed. -/
@[simp] theorem raise_feed (s : State) (w b bunit : Nat) (g : FeedId) : (s.raise w b bunit).feed g = s.feed g :=
  feed_of_supply (by rw [State.raise_supply]) (by rw [State.raise_supply]) g

theorem feedLost_feed (s : State) (f : FeedId) : ((s.feedLost f).feed f).out = true ∧ ((s.feedLost f).feed f).avail = false := by
  have hfeed : (s.feedLost f).feed f = { s.feed f with out := true, avail := false } := by
    rw [State.feedLost, raise_feed, updFeed_feed_same]
  rw [hfeed]
  exact ⟨rfl, rfl⟩

theorem feedBit_lt (f : FeedId) : feedBit f < 32 := by cases f <;> decide

theorem feedLost_logged (s : State) (f : FeedId) :
    Logged (s.updFeed f (fun x => { x with out := true, avail := false })) (s.feedLost f) [(0, feedBit f)] :=
  logged_raise _ 0 _ 12 (by decide) (feedBit_lt f)

theorem feedLost_word (s : State) (f : FeedId) : ((s.feedLost f).logs.word 0).getLsbD (feedBit f) = true := by
  rw [State.feedLost, State.raise_word _ _ _ _ _ _ (by decide) (feedBit_lt f) (by decide)]
  simp

@[simp] theorem feedLost_phase (s : State) (f : FeedId) : (s.feedLost f).life.phase = s.life.phase := by simp [State.feedLost]

@[simp] theorem feedLost_active (s : State) (f : FeedId) : (s.feedLost f).supply.active = s.supply.active := by simp [State.feedLost]

/-- What follows on a feed that is in use: a transfer, a return or a last gasp. -/
def State.afterLoss (s : State) (f : FeedId) : State :=
  match f with
  | .main => if s.supply.backup.avail then s.transfer else s.lastGasp
  | .backup => if inside (34000, 80000) s.supply.main.mv then s.backToMain else s.lastGasp

theorem execFeedOut_eq (hpow : s.powered = true) (htimer : (s.feed f).outTimer = true) (hout : (s.feed f).out = false) : exec (.feedOut f) s
    = .next (if s.life.phase = .lastGasp ∨ s.supply.active ≠ some f then s.feedLost f else (s.feedLost f).afterLoss f) := by
  change execFeedOut f s = _
  unfold execFeedOut
  rw [if_neg (by simp [hpow, htimer, hout])]
  change (if (s.feedLost f).life.phase = .lastGasp ∨ (s.feedLost f).supply.active ≠ some f then _ else _) = _
  rw [feedLost_phase, feedLost_active]
  split
  · rfl
  · cases f <;> rfl

/-- Neither a transfer, nor a return, nor a last gasp touches a feed or takes a trouble bit back. -/
theorem afterLoss_keeps (s : State) (f g : FeedId) : (s.afterLoss f).feed g = s.feed g
    ∧ ∀ v k, v < 3 → (s.logs.word v).getLsbD k = true → ((s.afterLoss f).logs.word v).getLsbD k = true := by
  have htransfer : s.transfer.feed g = s.feed g ∧ ∀ v k, v < 3 → (s.logs.word v).getLsbD k = true → (s.transfer.logs.word v).getLsbD k = true := by
    obtain ⟨c, d, lo, co, ou, cu, rt, rn, h, hword⟩ := transfer_eq s
    rw [h]
    exact ⟨feed_of_supply rfl rfl g, fun v k hv hbit => by simp only [hword v k hv, hbit, Bool.true_or]⟩
  have hreturn : s.backToMain.feed g = s.feed g ∧ ∀ v k, v < 3 → (s.logs.word v).getLsbD k = true → (s.backToMain.logs.word v).getLsbD k = true := by
    obtain ⟨c, d, lo, cu, rt, h, hword⟩ := backToMain_eq s
    rw [h]
    exact ⟨feed_of_supply rfl rfl g, fun v k _ hbit => by simp only [hword v, hbit]⟩
  have hgasp : s.lastGasp.feed g = s.feed g ∧ ∀ v k, v < 3 → (s.logs.word v).getLsbD k = true → (s.lastGasp.logs.word v).getLsbD k = true := by
    obtain ⟨c, d, st, ns, gk, h⟩ := lastGasp_eq s
    rw [h]
    exact ⟨feed_of_supply rfl rfl g, fun v k _ hbit => hbit⟩
  unfold State.afterLoss
  cases f
  · simp only
    split
    · exact htransfer
    · exact hgasp
  · simp only
    split
    · exact hreturn
    · exact hgasp

theorem transfer_uses (s : State) : s.transfer.supply.active = some .backup ∧ (s.transfer.logs.word 0).getLsbD 1 = true
    ∧ s.transfer.life.phase = s.life.phase := by
  obtain ⟨c, d, lo, co, ou, cu, rt, rn, h, hword⟩ := transfer_eq s
  rw [h]
  exact ⟨rfl, by simp [hword 0 1 (by decide)], rfl⟩

theorem backToMain_uses (s : State) : s.backToMain.supply.active = some .main ∧ s.backToMain.life.phase = s.life.phase := by
  obtain ⟨c, d, lo, cu, rt, h, -⟩ := backToMain_eq s
  rw [h]
  exact ⟨rfl, rfl⟩

theorem lastGasp_phase (s : State) : s.lastGasp.life.phase = .lastGasp := by
  obtain ⟨c, d, st, ns, gk, h⟩ := lastGasp_eq s
  rw [h]

/-- The other feed stands while one is lost. -/
theorem feedLost_other (s : State) (hne : g ≠ f) : (s.feedLost f).feed g = s.feed g := by
  rw [State.feedLost, raise_feed, updFeed_feed_ne s hne]

theorem main_lost_transfers (havail : s.supply.backup.avail = true) : (s.feedLost .main).afterLoss .main = (s.feedLost .main).transfer := by
  have hbackup : ((s.feedLost .main).feed .backup).avail = true := by rw [feedLost_other s (by decide)]; exact havail
  exact if_pos hbackup

theorem main_lost_gasps (havail : s.supply.backup.avail = false) : (s.feedLost .main).afterLoss .main = (s.feedLost .main).lastGasp := by
  have hbackup : ((s.feedLost .main).feed .backup).avail = false := by rw [feedLost_other s (by decide)]; exact havail
  exact if_neg (ne_true_of_eq_false hbackup)

theorem backup_lost_mv (s : State) : (s.feedLost .backup).supply.main.mv = s.supply.main.mv :=
  congrArg Feed.mv (feedLost_other s (f := .backup) (g := .main) (by decide))

theorem backup_lost_returns (hlow : 34000 ≤ s.supply.main.mv) (hhigh : s.supply.main.mv ≤ 80000) :
    (s.feedLost .backup).afterLoss .backup = (s.feedLost .backup).backToMain := by
  refine if_pos ?_
  rw [backup_lost_mv]
  simp [inside, hlow, hhigh]

theorem backup_lost_gasps (hout : s.supply.main.mv < 34000 ∨ 80000 < s.supply.main.mv) :
    (s.feedLost .backup).afterLoss .backup = (s.feedLost .backup).lastGasp := by
  refine if_neg ?_
  rw [backup_lost_mv]
  simp only [inside, Bool.and_eq_true, decide_eq_true_eq]
  omega

/-- FEED_OUT on a feed that is not in use, or in a last gasp, sets its bit; on the feed in use more follows. -/
theorem execFeedOut_cases (hpow : s.powered = true) (htimer : (s.feed f).outTimer = true) (hout : (s.feed f).out = false) :
    ∃ t, exec (.feedOut f) s = .next t ∧ (t.feed f).out = true ∧ (t.feed f).avail = false ∧ (t.logs.word 0).getLsbD (feedBit f) = true
      ∧ ((s.supply.active ≠ some f ∨ s.life.phase = .lastGasp) → t = s.feedLost f)
      ∧ (s.supply.active = some f → s.life.phase ≠ .lastGasp → t = (s.feedLost f).afterLoss f) := by
  obtain ⟨hisOut, hnotAvail⟩ := feedLost_feed s f
  rw [execFeedOut_eq hpow htimer hout]
  by_cases hidle : s.life.phase = .lastGasp ∨ s.supply.active ≠ some f
  · rw [if_pos hidle]
    refine ⟨_, rfl, hisOut, hnotAvail, feedLost_word s f, fun _ => rfl, fun hactive hphase => ?_⟩
    exact absurd hidle (by simp [hactive, hphase])
  · rw [if_neg hidle]
    obtain ⟨hfeed, hword⟩ := afterLoss_keeps (s.feedLost f) f f
    refine ⟨_, rfl, by rw [hfeed, hisOut], by rw [hfeed, hnotAvail], hword 0 _ (by decide) (feedLost_word s f), fun h => ?_, fun _ _ => rfl⟩
    exact absurd h.symm hidle

/-! ## LAST_GASP_END, R522, R523 -/

/-- A table changed entry by entry, at a number whose value the change leaves. -/
theorem get_map_of_kept {α : Type} {d : α} (h : Nat × α → α) (t : Tab α) {k : Nat} (hk : ∀ v, h (k, v) = v) :
    Tab.get d (t.map fun e => (e.1, h e)) k = Tab.get d t k := by
  induction t with
  | nil => rfl
  | cons e t ih =>
    obtain ⟨a, v⟩ := e
    by_cases ha : a = k
    · subst ha
      simp [Tab.get, hk]
    · simpa [Tab.get, ha] using ih

/-- A block that holds no logical block has no program under way that could be cut off. -/
theorem cutPrograms_page {b : Nat} (h : s.store.holds b = none) : Tab.get {} s.cutPrograms.store.pages b = Tab.get {} s.store.pages b := by
  unfold State.cutPrograms
  exact get_map_of_kept _ s.store.pages fun v => by simp [h]

theorem execLastGaspEnd_ends (hgasp : s.life.phase = .lastGasp) : exec .lastGaspEnd s = .next (if s.anyFeed = false then s.powerGone
    else if s.life.cause = .converter ∧ 3 ≤ s.recentFaults then { s with life := { s.life with phase := .bootHeld } }
    else { s with life := { s.life with phase := .halted, due := some .cold, cause := .none } }) := by
  change execLastGaspEnd s = _
  unfold execLastGaspEnd
  rw [if_neg (not_not.mpr hgasp)]
  split
  · rfl
  · split <;> rfl

/-! ## HOLDUP_MEASURE, R520 -/

theorem execHoldupMeasure_measures (hpow : s.powered = true) (mj : Nat) : ∃ t, exec (.holdupMeasure mj) s = .next t ∧ t.supply.holdupMj = mj
    ∧ (mj < 4920 → (t.logs.word 0).getLsbD 4 = true) ∧ (4920 ≤ mj → t.logs = s.logs)
    ∧ { t with supply := s.supply, life := s.life, logs := s.logs, comms := s.comms, out := s.out } = s := by
  change ∃ t, execHoldupMeasure mj s = .next t ∧ _
  unfold execHoldupMeasure
  simp only [if_neg (powered_ne hpow), cutFrom_eq]
  by_cases hlow : mj < 4920
  · rw [if_pos hlow]
    obtain ⟨c, d, lo, co, ou, h, hword⟩ := raise_eq { s with supply := { s.supply with
      holdupMj := mj, cutting := s.supply.cutting || decide (State.inForce { s with supply := { s.supply with holdupMj := mj } } < s.inForce) } }
      0 4 12 (by decide) (by decide)
    rw [h]
    exact ⟨_, rfl, rfl, fun _ => by simp [hword 0 4 (by decide)], fun h => absurd hlow h.not_gt, rfl⟩
  · rw [if_neg hlow]
    refine ⟨_, rfl, ?_⟩
    split
    · exact ⟨rfl, fun h => absurd h hlow, fun _ => rfl, rfl⟩
    · exact ⟨rfl, fun h => absurd h hlow, fun _ => rfl, rfl⟩

/-- Settles O7. That a dip beyond the thresholds leaves a feed available until it is out is assumption 122, the hour of the converter
faults assumption 106, and which programs a loss of power cuts off assumption 82. -/
theorem feedEventsTakeEffect : Obligations.FeedEventsTakeEffect := by
  refine ⟨fun f mv s hpow => ?_, fun f s hpow htimer => execFeedAvailable_avail hpow htimer, fun f s hpow htimer hout => ?_,
    fun s hpow hactive htimer hphase => ?_, fun s hgasp => ?_, fun mj s hpow => execHoldupMeasure_measures hpow mj⟩
  · obtain ⟨t, ht, hfeed, hothers, hrest⟩ := execFeedExcursion_keeps hpow f mv
    refine ⟨t, ht, ?_⟩
    rw [hfeed]
    exact ⟨rfl, rfl, rfl, rfl, rfl, hothers, hrest⟩
  · obtain ⟨t, ht, hisOut, hnotAvail, hword, hidle, huse⟩ := execFeedOut_cases hpow htimer hout
    refine ⟨t, ht, hisOut, hnotAvail, hword, fun h => ?_, fun hactive hphase => ⟨?_, ?_, ?_, ?_⟩⟩
    · rw [hidle h]
      exact feedLost_logged s f
    · rintro rfl havail
      rw [huse hactive hphase, main_lost_transfers havail, ← feedLost_phase s .main]
      exact transfer_uses _
    · rintro rfl havail
      rw [huse hactive hphase, main_lost_gasps havail]
      exact lastGasp_phase _
    · rintro rfl hlow hhigh
      rw [huse hactive hphase, backup_lost_returns hlow hhigh, ← feedLost_phase s .backup]
      exact backToMain_uses _
    · rintro rfl hmain
      rw [huse hactive hphase, backup_lost_gasps hmain]
      exact lastGasp_phase _
  · obtain ⟨c, d, lo, cu, rt, h, -⟩ := backToMain_eq s
    refine ⟨_, if_pos ⟨hpow, hactive, htimer, hphase⟩, ?_⟩
    rw [h]
    exact ⟨rfl, rfl, feed_of_supply rfl rfl, rfl⟩
  · refine ⟨_, execLastGaspEnd_ends hgasp, fun hnone => ?_, fun hany hcause hfaults => ?_, fun hany hother => ?_, fun hany => ?_⟩
    · rw [if_pos hnone]
      exact ⟨rfl, rfl, rfl, rfl, rfl, fun b hb => cutPrograms_page hb, rfl⟩
    · rw [if_neg (by simp [hany]), if_pos ⟨hcause, hfaults⟩]
    · rw [if_neg (by simp [hany]), if_neg (fun ⟨hcause, hfaults⟩ => hother.elim (· hcause) hfaults.not_gt)]
    · rw [if_neg (by simp [hany])]
      split <;> rfl

end Sys2Proof.Machine
end

section
/-! OUTPUT_SENSE_MISMATCH, OUTPUT_OVERCURRENT, HEALTH_SENSE_MISMATCH and INPUT_SAMPLE (R544 to R548). -/

namespace Sys2Proof.Machine

open Sys2Proof

variable {s : State} {io : Io} {n m : Nat}

/-! ## Inputs, R546 -/

/-- Input `n`: its last reading, its debounced value, and the samples in a row that have read otherwise. -/
def Io.lane (io : Io) (n : Nat) : Bool × Bool × Nat := (io.raw.getLsbD n, io.inputs.getLsbD n, io.runs.getD n 0)

/-- One sample of an input: the tenth in a row that reads otherwise changes it. -/
def sampleLane (l : Bool × Bool × Nat) (mv : Int) : Bool × Bool × Nat :=
  let r := inputRead l.1 mv
  if r = l.2.1 then (r, l.2.1, 0) else if 10 ≤ l.2.2 + 1 then (r, r, 0) else (r, l.2.1, l.2.2 + 1)

/-- A word with one bit written. -/
def putBit (w : BitVec 4) (n : Nat) (b : Bool) : BitVec 4 := if b then w ||| (1#4 <<< n) else w &&& ~~~ (1#4 <<< n)

theorem getLsbD_one_shiftLeft (hm : m < 4) : (1#4 <<< n).getLsbD m = decide (n = m) := by
  rw [BitVec.getLsbD_shiftLeft, BitVec.getLsbD_one]
  by_cases h : n = m
  · subst h; simp [hm]
  · by_cases hlt : m < n
    · simp [h, hlt]
    · have hpos : m - n ≠ 0 := by omega
      simp [h, hpos]

theorem putBit_same (w : BitVec 4) (hn : n < 4) (b : Bool) : (putBit w n b).getLsbD n = b := by
  unfold putBit
  split
  · next h => rw [BitVec.getLsbD_or, getLsbD_one_shiftLeft hn, h]; simp
  · next h => rw [BitVec.getLsbD_and, BitVec.getLsbD_not, getLsbD_one_shiftLeft hn, Bool.eq_false_iff.mpr h]; simp

theorem putBit_ne (w : BitVec 4) (hm : m < 4) (hne : n ≠ m) (b : Bool) : (putBit w n b).getLsbD m = w.getLsbD m := by
  unfold putBit
  split
  · rw [BitVec.getLsbD_or, getLsbD_one_shiftLeft hm, decide_eq_false hne, Bool.or_false]
  · rw [BitVec.getLsbD_and, BitVec.getLsbD_not, getLsbD_one_shiftLeft hm, decide_eq_false hne]; simp [hm]

/-- A sample writes the three things of its input. -/
theorem sampleInput_eq (io : Io) (n : Nat) (mv : Int) : io.sampleInput n mv = { io with
    raw := putBit io.raw n (sampleLane (io.lane n) mv).1
    inputs := if (sampleLane (io.lane n) mv).2.1 = io.inputs.getLsbD n then io.inputs else putBit io.inputs n (sampleLane (io.lane n) mv).2.1
    runs := io.runs.set n (sampleLane (io.lane n) mv).2.2 } := by
  unfold Io.sampleInput sampleLane Io.lane
  dsimp only
  by_cases hsame : inputRead (io.raw.getLsbD n) mv = io.inputs.getLsbD n
  · rw [if_pos hsame, if_pos hsame]
    simp [putBit]
  · rw [if_neg hsame, if_neg hsame]
    by_cases hten : 10 ≤ io.runs.getD n 0 + 1
    · rw [if_pos hten, if_pos hten]
      simp only [hsame, if_false]
      rfl
    · rw [if_neg hten, if_neg hten]
      simp [putBit]

theorem sampleInput_lane_same (hn : n < 4) (hruns : io.runs.length = 4) (mv : Int) : (io.sampleInput n mv).lane n = sampleLane (io.lane n) mv := by
  rw [sampleInput_eq]
  generalize sampleLane (io.lane n) mv = l
  obtain ⟨r, v, k⟩ := l
  unfold Io.lane
  refine Prod.ext (putBit_same _ hn r) (Prod.ext ?_ ?_)
  · dsimp only
    split
    · next h => exact h.symm
    · exact putBit_same _ hn v
  · simp [List.getD_eq_getElem?_getD, hruns, hn]

theorem sampleInput_lane_ne (hm : m < 4) (hne : n ≠ m) (mv : Int) : (io.sampleInput n mv).lane m = io.lane m := by
  rw [sampleInput_eq]
  unfold Io.lane
  refine Prod.ext (putBit_ne _ hm hne _) (Prod.ext ?_ ?_)
  · dsimp only
    split
    · rfl
    · exact putBit_ne _ hm hne _
  · simp [List.getD_eq_getElem?_getD, List.getElem?_set_ne hne]

theorem sampleInput_runs_length (io : Io) (n : Nat) (mv : Int) : (io.sampleInput n mv).runs.length = io.runs.length := by
  rw [sampleInput_eq]
  exact List.length_set

/-- The inputs of a list, sampled in turn. -/
def Io.sampled (io : Io) (mv : List Int) (ns : List Nat) : Io := ns.foldl (fun io n => io.sampleInput n (mv.getD n 0)) io

theorem sampled_eq (io : Io) (mv : List Int) (ns : List Nat) : ∃ inputs raw runs, io.sampled mv ns = { io with inputs := inputs, raw := raw, runs := runs } := by
  induction ns generalizing io with
  | nil => exact ⟨_, _, _, rfl⟩
  | cons n ns ih =>
    obtain ⟨inputs, raw, runs, h⟩ := ih (io.sampleInput n (mv.getD n 0))
    exact ⟨inputs, raw, runs, h.trans (by rw [sampleInput_eq])⟩

theorem sampled_lane_of_notMem (mv : List Int) {ns : List Nat} (hm : m < 4) (hnot : m ∉ ns) : (io.sampled mv ns).lane m = io.lane m := by
  induction ns generalizing io with
  | nil => rfl
  | cons n ns ih =>
    rw [List.mem_cons, not_or] at hnot
    exact (ih hnot.2).trans (sampleInput_lane_ne hm (Ne.symm hnot.1) _)

/-- Each input of the list is sampled once. -/
theorem sampled_lane (mv : List Int) {ns : List Nat} (hnodup : ns.Nodup) (hm : m < 4) (hmem : m ∈ ns) (hruns : io.runs.length = 4) :
    (io.sampled mv ns).lane m = sampleLane (io.lane m) (mv.getD m 0) := by
  induction ns generalizing io with
  | nil => exact absurd hmem List.not_mem_nil
  | cons n ns ih =>
    obtain ⟨hnot, hnodup⟩ := List.nodup_cons.mp hnodup
    have hruns' : (io.sampleInput n (mv.getD n 0)).runs.length = 4 := (sampleInput_runs_length ..).trans hruns
    rcases List.mem_cons.mp hmem with rfl | hmem
    · exact (sampled_lane_of_notMem mv hm hnot).trans (sampleInput_lane_same hm hruns _)
    · have hne : n ≠ m := fun h => hnot (h ▸ hmem)
      exact (ih hnodup hmem hruns').trans (by rw [sampleInput_lane_ne hm hne])

/-! ## Outputs, R544, R545 -/

/-- Outputs follow the asked ones less those that are cut off, while the module is Ready; an event changes neither. -/
theorem cutOff_outputs (hready : s.isReady = true) (w : BitVec 4) (l : List Nat) :
    (State.trouble { s with io := { s.io with cutOff := w } } 0 13 0 13 0xFF l).outputs = s.asked &&& ~~~ w := by
  obtain ⟨c, d, lo, co, ou, h⟩ := trouble_parts { s with io := { s.io with cutOff := w } } 0 13 0 13 0xFF l
  rw [h]
  exact if_pos hready

theorem isReady_of_output (h : s.outputs.getLsbD n = true) : s.isReady = true := by
  unfold State.outputs at h
  split at h
  · next hready => exact hready
  · simp at h

theorem outputs_of_ready (h : s.isReady = true) : s.outputs = s.asked &&& ~~~ s.io.cutOff := if_pos h

theorem execOutputOvercurrent_cuts (hn : n < 4) (hon : s.outputs.getLsbD n = true) : ∃ t, exec (.outputOvercurrent n) s = .next t
    ∧ t.outputs.getLsbD n = false ∧ (∀ m, m < 4 → m ≠ n → t.outputs.getLsbD m = s.outputs.getLsbD m)
    ∧ Logged { s with io := { s.io with cutOff := s.io.cutOff ||| (1#4 <<< n) } } t [(0, 13)] := by
  have hready := isReady_of_output hon
  have hbit (m : Nat) (hm : m < 4) : (s.asked &&& ~~~ (s.io.cutOff ||| (1#4 <<< n))).getLsbD m = (s.outputs.getLsbD m && !decide (n = m)) := by
    rw [outputs_of_ready hready, BitVec.getLsbD_and, BitVec.getLsbD_and, BitVec.getLsbD_not, BitVec.getLsbD_not, BitVec.getLsbD_or, getLsbD_one_shiftLeft hm]
    simp [hm, Bool.and_assoc]
  refine ⟨_, if_pos ⟨hn, hon⟩, ?_, fun m hm hne => ?_, logged_trouble _ 0 13 _ _ _ _ (by decide) (by decide)⟩
  · rw [cutOff_outputs hready, hbit n hn]
    simp
  · rw [cutOff_outputs hready, hbit m hm, decide_eq_false hne.symm, Bool.not_false, Bool.and_true]

/-- What a sample that leaves lane `l` finds from lane `k`, in the words of R546. -/
theorem sampleLane_cases (k : Bool × Bool × Nat) (mv : Int) {l : Bool × Bool × Nat} (h : l = sampleLane k mv) :
    (18000 < mv → l.1 = true) ∧ (mv < 10000 → l.1 = false) ∧ (10000 ≤ mv → mv ≤ 18000 → l.1 = k.1) ∧ (l.1 = k.2.1 → l.2.1 = k.2.1 ∧ l.2.2 = 0)
      ∧ (l.1 ≠ k.2.1 → k.2.2 < 9 → l.2.1 = k.2.1 ∧ l.2.2 = k.2.2 + 1) ∧ (l.1 ≠ k.2.1 → 9 ≤ k.2.2 → l.2.1 = l.1 ∧ l.2.2 = 0) := by
  have hread : l.1 = inputRead k.1 mv := by
    rw [h]
    unfold sampleLane
    dsimp only
    split_ifs <;> rfl
  refine ⟨fun hhigh => ?_, fun hlow => ?_, fun hge hle => ?_, fun hsame => ?_, fun hother hfew => ?_, fun hother hten => ?_⟩
  · rw [hread, inputRead, if_pos hhigh]
  · rw [hread, inputRead, if_neg (by omega), if_pos hlow]
  · rw [hread, inputRead, if_neg (by omega), if_neg (by omega)]
  · rw [h, sampleLane, if_pos (hread ▸ hsame)]
    exact ⟨rfl, rfl⟩
  · rw [h, sampleLane, if_neg (hread ▸ hother), if_neg (by omega)]
    exact ⟨rfl, rfl⟩
  · rw [h, sampleLane, if_neg (hread ▸ hother), if_pos (by omega)]
    exact ⟨rfl, rfl⟩

/-- Settles O58. What a sample at exactly 10 V or 18 V reads, and the ten samples in a row, are the model's reading of R546 (entry 55 of the
assumption log). -/
theorem pinsAreSensedAndSampled : Obligations.PinsAreSensedAndSampled := by
  refine ⟨fun s n hpow hn => ⟨_, if_pos ⟨hn, hpow⟩, logged_trouble _ 0 13 _ _ _ _ (by decide) (by decide)⟩,
    fun s n hn => ⟨execOutputOvercurrent_cuts hn, fun hoff => if_neg fun h => absurd h.2 (ne_true_of_eq_false hoff)⟩,
    fun s hpow => ⟨_, if_pos hpow, logged_raise _ 0 13 13 (by decide) (by decide)⟩, fun s mv hpow hruns => ?_⟩
  obtain ⟨inputs, raw, runs, hrest⟩ := sampled_eq s.io mv (List.range 4)
  have hexec : exec (.inputSample mv) s = .next { s with io := s.io.sampled mv (List.range 4) } := if_pos hpow
  refine ⟨_, hexec, rfl, by rw [hrest], fun n hn => ?_⟩
  exact sampleLane_cases (s.io.lane n) _ (sampled_lane mv List.nodup_range hn (List.mem_range.mpr hn) hruns)

end Sys2Proof.Machine
end

section
/-! LOG_RATE_SECOND_END (R452, R457) on a port table that lists a port twice. -/

namespace Sys2Proof.Machine

open Sys2Proof

/-- A Ready module whose port table lists port 0 twice. The first entry, the one a lookup finds, holds a replay of this second. -/
def portListedTwice : State :=
  { life := { phase := .ready }
    pack := { ports := [(0, { replays := 1 }), (0, { txSeq := 1 })] } }

/-- The next sequence number to send on port 0 after LOG_RATE_SECOND_END. -/
def txSeqAfterSecond : Option Nat :=
  match exec .logRateSecondEnd portListedTwice with
  | .next t => some (t.pport 0).txSeq
  | _ => none

theorem txSeqAfterSecond_moves : txSeqAfterSecond = some 1 := by decide +kernel

/-- Refutes O57: the end of the second sets REPLAYS of a port to 0 by taking its first entry out of the table, for the entry is then the default one
(entry 55 of the assumption log). Where the table lists the port twice, as the statement allows, the second entry then speaks for the port,
with a send sequence number of its own. -/
theorem not_logAndLevelEventsTakeEffect : ¬ Obligations.LogAndLevelEventsTakeEffect := by
  rintro ⟨-, hsecond, -⟩
  obtain ⟨t, hexec, -, -, -, -, hports, -⟩ := hsecond portListedTwice (by decide)
  obtain ⟨-, -, htx⟩ := hports 0
  have hkept : txSeqAfterSecond = some 0 := by
    unfold txSeqAfterSecond
    rw [hexec]
    exact congrArg some htx
  rw [txSeqAfterSecond_moves] at hkept
  exact absurd hkept (by decide)

end Sys2Proof.Machine
end

section
/-! PATROL_SCRUB_READ, SCRUB_PASS_END, SCRUB_DEADLINE and WEIGHT_REFETCH_DONE (R430 to R449). -/

namespace Sys2Proof.Machine

open Sys2Proof

variable {s t u : State} {f : EccFinding} {m : Memory} {bits : List (Nat × Nat)}

/-! ## A finding: memory changes, and events of trouble bits -/

/-- `t` is `s` with memory `m`, the upkeep area perhaps marked for a write, and what events of `bits` leave. -/
def FoundAs (s t : State) (m : Memory) (bits : List (Nat × Nat)) : Prop := ∃ upk, Logged { s with mem := m, upk := upk } t bits

theorem Logged.withMem (h : Logged u t bits) (m : Memory) (k : Upkeep) : Logged { u with mem := m, upk := k } { t with mem := m, upk := k } bits := by
  obtain ⟨hrest, hout, hbits⟩ := h
  exact ⟨congrArg (fun v : State => { v with mem := m, upk := k }) hrest, hout, hbits⟩

theorem Logged.andThen {v : State} {more : List (Nat × Nat)} (hfirst : Logged u t bits) (hsecond : Logged t v more) : Logged u v (bits ++ more) := by
  obtain ⟨hrest, ⟨out, hout⟩, hbits⟩ := hfirst
  obtain ⟨hrest', ⟨out', hout'⟩, hbits'⟩ := hsecond
  refine ⟨?_, ⟨out ++ out', by rw [hout', hout, List.append_assoc]⟩, fun w k hw => ?_⟩
  · rw [← hrest'] at hrest
    exact hrest
  · rw [hbits' w k hw, hbits w k hw]
    simp [Bool.or_assoc]

theorem Logged.atMem (h : Logged u t bits) (m : Memory) : Logged { u with mem := m } { t with mem := m } bits := by
  obtain ⟨hrest, hout, hbits⟩ := h
  exact ⟨congrArg (fun v : State => { v with mem := m }) hrest, hout, hbits⟩

theorem FoundAs.refl (s : State) : FoundAs s s s.mem [] := ⟨s.upk, logged_refl s⟩

theorem FoundAs.trouble (h : FoundAs s t m bits) {w b : Nat} (hw : w < 3) (hb : b < 32) (loc bunit ctx : Nat) (l : List Nat) :
    FoundAs s (t.trouble w b loc bunit ctx l) m (bits ++ [(w, b)]) := by
  obtain ⟨upk, h⟩ := h
  exact ⟨upk, h.andThen (logged_trouble t w b loc bunit ctx l hw hb)⟩

theorem FoundAs.withMem (h : FoundAs s t m bits) (n : Memory) (k : Upkeep) : FoundAs s { t with mem := n, upk := k } n bits := by
  obtain ⟨upk, h⟩ := h
  exact ⟨k, h.withMem n k⟩

theorem FoundAs.mem (h : FoundAs s t m bits) : t.mem = m := by
  obtain ⟨upk, h⟩ := h
  exact h.part State.mem fun _ _ _ _ _ _ => rfl

theorem FoundAs.rest (h : FoundAs s t m bits) : t.threads = s.threads ∧ t.ctxs = s.ctxs ∧ t.hist = s.hist ∧ t.rings = s.rings := by
  obtain ⟨upk, h⟩ := h
  exact ⟨h.part State.threads fun _ _ _ _ _ _ => rfl, h.part State.ctxs fun _ _ _ _ _ _ => rfl, h.part State.hist fun _ _ _ _ _ _ => rfl,
    h.part State.rings fun _ _ _ _ _ _ => rfl⟩

theorem FoundAs.bit (h : FoundAs s t m bits) {v k : Nat} (hv : v < 3) (hmem : (v, k) ∈ bits) : (t.logs.word v).getLsbD k = true := by
  obtain ⟨upk, -, -, hbits⟩ := h
  rw [hbits v k hv, decide_eq_true hmem, Bool.or_true]

/-- The state with a finding of the scrubber counted. -/
def State.counted (s : State) (f : EccFinding) : State := { s with mem := { s.mem with findings := s.mem.findings.set f.cls (s.mem.findings.getD f.cls 0 + 1) } }

theorem counted_found (s : State) (f : EccFinding) : FoundAs s (s.counted f) (s.counted f).mem [] := (FoundAs.refl s).withMem _ s.upk

/-! ## Corrected symbols -/

/-- `n` is `m` but for the counts of corrected symbols and the devices marked erased. -/
def OnlyCounts (m n : Memory) : Prop := ∃ corrected blocks erased, n = { m with corrected := corrected, scrubBlocks := blocks, erased := erased }

theorem OnlyCounts.cells {m n : Memory} (h : OnlyCounts m n) : n.findings = m.findings ∧ n.poison = m.poison ∧ ∀ sp a, n.read sp a = m.read sp a := by
  obtain ⟨corrected, blocks, erased, rfl⟩ := h
  exact ⟨rfl, rfl, fun _ _ => rfl⟩

theorem markErased_found (h : FoundAs s t m bits) (a dev : Nat) : ∃ n more, FoundAs s (t.markErased a dev) n (bits ++ more) ∧ OnlyCounts m n := by
  have hmem := h.mem
  unfold State.markErased
  dsimp only
  split
  · exact ⟨m, [], by rwa [List.append_nil], _, _, _, rfl⟩
  · exact ⟨_, [(1, 1)], (h.withMem _ _).trouble (by decide) (by decide) .., _, _, _, by rw [hmem]⟩

/-- The counts of a corrected symbol that the scrubber met. -/
def State.symbolCounted (s : State) (a dev : Nat) : State :=
  let k := 10 * (a / 256 % 4) + dev
  { s with mem := { s.mem with
      corrected := Tab.upd 0 s.mem.corrected k (· + 1)
      scrubBlocks := Tab.upd [] s.mem.scrubBlocks k (fun l => if l.contains (a / 4096) then l else l ++ [a / 4096]) } }

theorem countSymbol_eq (s : State) (a dev : Nat) : s.countSymbol a dev true = s.symbolCounted a dev ∨ s.countSymbol a dev true = (s.symbolCounted a dev).markErased a dev := by
  unfold State.countSymbol
  simp only [Bool.true_eq_false, if_false]
  split
  · exact .inr rfl
  · exact .inl rfl

theorem countSymbol_found (h : FoundAs s t m bits) (a dev : Nat) : ∃ n more, FoundAs s (t.countSymbol a dev true) n (bits ++ more) ∧ OnlyCounts m n := by
  have hcounted : FoundAs s (t.symbolCounted a dev) (t.symbolCounted a dev).mem bits := h.withMem _ t.upk
  have honly : OnlyCounts m (t.symbolCounted a dev).mem := ⟨_, _, m.erased, by rw [← h.mem]; rfl⟩
  rcases countSymbol_eq t a dev with heq | heq
  · exact ⟨_, [], by rwa [heq, List.append_nil], honly⟩
  · obtain ⟨n, more, hfound, corrected, blocks, erased, hn⟩ := markErased_found hcounted a dev
    obtain ⟨_, _, _, hm⟩ := honly
    exact ⟨n, more, heq ▸ hfound, corrected, blocks, erased, by rw [hn, hm]⟩

/-! ## What each class of a finding leaves -/

theorem eccFinding_corrected (s : State) (hboard : f.space = .board) (hcls : f.cls = 1 ∨ f.cls = 2) :
    ∃ n more, FoundAs s (s.eccFinding f none) n ((1, 0) :: more) ∧ OnlyCounts (s.counted f).mem n := by
  have heq : s.eccFinding f none
      = ((s.counted f).trouble 1 0 (f.space.loc f.addr) (f.space.bunit f.addr) 0xFF (memDetail f.addr f.device f.cls)).countSymbol f.addr f.device true := by
    unfold State.eccFinding State.counted
    rw [if_pos hboard]
    rcases hcls with h | h <;> rw [h] <;> rfl
  rw [heq]
  exact countSymbol_found ((counted_found s f).trouble (by decide) (by decide) ..) f.addr f.device

/-- The state with a finding counted and its word poisoned. -/
def State.poisoned (s : State) (f : EccFinding) : State := (s.counted f).updMem (fun m => m.setPoison f.space f.addr true)

theorem poisoned_found (s : State) (f : EccFinding) : FoundAs s (s.poisoned f) (s.poisoned f).mem [] := (FoundAs.refl s).withMem _ s.upk

theorem eccFinding_word (s : State) (hboard : f.space ≠ .board) (hcls : f.cls = 1) : FoundAs s (s.eccFinding f none) (s.counted f).mem [(1, 4)] := by
  have heq : s.eccFinding f none = (s.counted f).trouble 1 4 (f.space.loc f.addr) (f.space.bunit f.addr) 0xFF (memDetail f.addr f.device 1) := by
    unfold State.eccFinding State.counted
    rw [if_neg hboard, hcls]
    rfl
  rw [heq]
  exact (counted_found s f).trouble (by decide) (by decide) ..

theorem eccFinding_wordLost (s : State) (hboard : f.space ≠ .board) (hcls : f.cls = 3) : FoundAs s (s.eccFinding f none) (s.poisoned f).mem [(1, 5)] := by
  have heq : s.eccFinding f none = (s.poisoned f).trouble 1 5 (f.space.loc f.addr) (f.space.bunit f.addr) 0xFF (memDetail f.addr f.device 3) := by
    unfold State.eccFinding State.poisoned State.counted
    rw [if_neg hboard, hcls]
    rfl
  rw [heq]
  exact (poisoned_found s f).trouble (by decide) (by decide) ..

/-- A parity failure: both bits of R432. -/
theorem eccFinding_parity (s : State) (hboard : f.space = .board) (hcls : f.cls = 5) : FoundAs s (s.eccFinding f none) (s.counted f).mem [(1, 3), (1, 2)] := by
  have heq : s.eccFinding f none = ((s.counted f).trouble 1 3 (f.space.loc f.addr) (f.space.bunit f.addr) 0xFF (memDetail f.addr f.device 5)).trouble 1 2
      (f.space.loc f.addr) (f.space.bunit f.addr) 0xFF (memDetail f.addr f.device 5) := by
    unfold State.eccFinding State.counted
    rw [if_pos hboard, hcls]
    rfl
  rw [heq]
  exact ((counted_found s f).trouble (by decide) (by decide) ..).trouble (by decide) (by decide) ..

/-- Every other finding is only counted. -/
theorem eccFinding_good (s : State) (hcls : f.cls ≠ 1 ∧ f.cls ≠ 3) (hboard : f.space = .board → f.cls ≠ 2 ∧ f.cls ≠ 5) : s.eccFinding f none = s.counted f := by
  obtain ⟨h1, h3⟩ := hcls
  unfold State.eccFinding
  dsimp only
  split
  · next hb =>
    obtain ⟨h2, h5⟩ := hboard hb
    split
    · rfl
    · next h => exact absurd h h1
    · next h => exact absurd h h2
    · next h => exact absurd h h3
    · next h => exact absurd h h5
    · rfl
  · split
    · next h => exact absurd h h1
    · next h => exact absurd h h3
    · rfl

/-- The pages or words whose weight data is read again, with one more. -/
def refetchWith (l : List (Bool × Nat)) (w : Bool × Nat) : List (Bool × Nat) := if w ∈ l then l else l ++ [w]

theorem weightUe_found (h : FoundAs s t m bits) (a : Nat) :
    FoundAs s (t.weightUe .board a none) { m with refetch := refetchWith m.refetch (true, a / 4096) } (bits ++ [(1, 10)]) := by
  have hevent := h.trouble (w := 1) (b := 10) (by decide) (by decide) (Space.board.loc a) (Space.board.bunit a) 0xFF (memDetail a 0 3)
  have hmem := hevent.mem
  unfold State.weightUe refetchWith
  dsimp only [Option.getD_none]
  rw [if_pos rfl, hmem]
  by_cases hin : (true, a / 4096) ∈ m.refetch
  · rw [if_pos (List.contains_iff_mem.mpr hin), if_pos hin]
    exact hevent
  · rw [if_neg (fun h => hin (List.contains_iff_mem.mp h)), if_neg hin]
    exact hevent.withMem _ _

theorem eccFinding_beatLost (s : State) (hboard : f.space = .board) (hcls : f.cls = 3) :
    ∃ refetch more, FoundAs s (s.eccFinding f none) { (s.poisoned f).mem with refetch := refetch } ((1, 2) :: more)
      ∧ (s.inImage f.addr = true ∨ inAway f.addr = true → refetch = refetchWith s.mem.refetch (true, f.addr / 4096) ∧ (1, 10) ∈ more) := by
  have hevent := (poisoned_found s f).trouble (w := 1) (b := 2) (by decide) (by decide) (f.space.loc f.addr) (f.space.bunit f.addr) 0xFF (memDetail f.addr f.device 3)
  have heq : s.eccFinding f none = if s.inImage f.addr || inAway f.addr then
        ((s.poisoned f).trouble 1 2 (f.space.loc f.addr) (f.space.bunit f.addr) 0xFF (memDetail f.addr f.device 3)).weightUe .board f.addr none
      else (s.poisoned f).trouble 1 2 (f.space.loc f.addr) (f.space.bunit f.addr) 0xFF (memDetail f.addr f.device 3) := by
    unfold State.eccFinding State.poisoned State.counted
    rw [if_pos hboard, hcls, hboard]
    rfl
  rw [heq]
  split
  · exact ⟨_, _, weightUe_found hevent f.addr, fun _ => ⟨rfl, List.mem_singleton.mpr rfl⟩⟩
  · next hno => exact ⟨_, [], hevent, fun hyes => absurd (by rwa [Bool.or_eq_true]) hno⟩

/-- Whatever the class, the finding is counted and no stored byte changes. -/
theorem eccFinding_found (s : State) (f : EccFinding) : ∃ m bits, FoundAs s (s.eccFinding f none) m bits
    ∧ m.findings = (s.counted f).mem.findings ∧ ∀ sp a, m.read sp a = s.mem.read sp a := by
  by_cases hboard : f.space = .board
  · by_cases hcorrected : f.cls = 1 ∨ f.cls = 2
    · obtain ⟨m, more, hfound, hcounts⟩ := eccFinding_corrected s hboard hcorrected
      obtain ⟨hfindings, -, hread⟩ := hcounts.cells
      exact ⟨m, _, hfound, hfindings, hread⟩
    by_cases hlost : f.cls = 3
    · obtain ⟨refetch, more, hfound, -⟩ := eccFinding_beatLost s hboard hlost
      exact ⟨_, _, hfound, rfl, fun _ _ => rfl⟩
    by_cases hparity : f.cls = 5
    · exact ⟨_, _, eccFinding_parity s hboard hparity, rfl, fun _ _ => rfl⟩
    · rw [eccFinding_good s ⟨fun h => hcorrected (.inl h), hlost⟩ fun _ => ⟨fun h => hcorrected (.inr h), hparity⟩]
      exact ⟨_, _, counted_found s f, rfl, fun _ _ => rfl⟩
  · by_cases hword : f.cls = 1
    · exact ⟨_, _, eccFinding_word s hboard hword, rfl, fun _ _ => rfl⟩
    by_cases hlost : f.cls = 3
    · exact ⟨_, _, eccFinding_wordLost s hboard hlost, rfl, fun _ _ => rfl⟩
    · rw [eccFinding_good s ⟨hword, hlost⟩ fun h => absurd h hboard]
      exact ⟨_, _, counted_found s f, rfl, fun _ _ => rfl⟩

/-! ## A page that moves to a spare, R446, R449 -/

theorem cleanPage_poison (m : Memory) {n a : Nat} (ha : a / 4096 = n) : Tab.get false (m.cleanPage n).poison (poisonKey .board a) = false := by
  have hfilter := Tab.get_filter (d := false) (fun k => !(decide (k % 5 = 4) && decide (k / 5 / 256 = n))) m.poison (poisonKey .board a)
  have hkey : poisonKey .board a = 5 * (a / 16) + 4 := rfl
  have hgone : (!(decide (poisonKey .board a % 5 = 4) && decide (poisonKey .board a / 5 / 256 = n))) = false := by
    rw [hkey, decide_eq_true (by omega), decide_eq_true (by omega)]
    rfl
  rw [hgone, if_neg Bool.false_ne_true] at hfilter
  exact hfilter

theorem remapBits_low (hlow : 3072 ≤ s.mem.spares) : (s.remapBits.logs.word 1).getLsbD 11 = true := by
  have hraise (v : State) (k : Nat) (hk : k < 32) (h : 11 = k ∨ (v.logs.word 1).getLsbD 11 = true) : ((v.raise 1 k 1).logs.word 1).getLsbD 11 = true := by
    obtain ⟨-, -, hbits⟩ := logged_raise v 1 k 1 (by decide) hk
    rcases h with rfl | h
    · rw [hbits 1 11 (by decide)]; simp
    · rw [hbits 1 11 (by decide), h, Bool.true_or]
  unfold State.remapBits State.remapUsed
  rw [if_pos hlow]
  dsimp only
  split
  · exact hraise _ 12 (by decide) (.inr (hraise s 11 (by decide) (.inl rfl)))
  · exact hraise s 11 (by decide) (.inl rfl)

theorem retirePage_low {a : Nat} (hspare : s.mem.spares < 4096) (hlow : 3072 ≤ s.mem.spares + 1) : ((s.retirePage a).logs.word 1).getLsbD 11 = true := by
  unfold State.retirePage
  rw [if_neg (Nat.not_le.mpr hspare)]
  refine remapBits_low ?_
  rw [State.log_mem]
  exact hlow

theorem retirePage_mem {a : Nat} (hspare : s.mem.spares < 4096) :
    (s.retirePage a).mem = { s.mem with remap := Tab.set 0 s.mem.remap (a / 4096) (s.mem.spares + 1), spares := s.mem.spares + 1 } := by
  unfold State.retirePage
  rw [if_neg (Nat.not_le.mpr hspare)]
  dsimp only
  rw [(remapBits_mem _).1, State.log_mem]

/-! ## The commands -/

theorem wake_parts (s : State) : ∃ life plls doms, s.wake = { s with life := life, plls := plls, doms := doms } := by
  unfold State.wake
  split
  · exact ⟨_, _, _, rfl⟩
  · exact ⟨_, _, _, rfl⟩

theorem execPatrolScrubRead_reads (hfw : s.fwUp = true) (hvalid : f.space ≠ .board ∨ s.mem.clear (f.addr / 4096) = false) :
    exec (.patrolScrubRead f) s = .next (s.wake.eccFinding f none) := by
  refine if_neg fun h => ?_
  rcases h with hdown | ⟨hboard, hclear⟩
  · exact absurd hfw (ne_true_of_eq_false hdown)
  · rcases hvalid with hother | hset
    · exact hother hboard
    · exact absurd hclear (ne_true_of_eq_false hset)

@[simp] theorem wake_mem (s : State) : s.wake.mem = s.mem := by
  obtain ⟨life, plls, doms, hw⟩ := wake_parts s
  rw [hw]

@[simp] theorem wake_image (s : State) : s.wake.image = s.image := by
  obtain ⟨life, plls, doms, hw⟩ := wake_parts s
  rw [hw]
  rfl

theorem execScrubPassEnd_ends (hfw : s.fwUp = true) : ∃ t, exec .scrubPassEnd s = .next t ∧ t.mem.findings = [0, 0, 0, 0, 0, 0] ∧ t.mem.scrubBlocks = []
    ∧ t.mem.scrubLate = false
    ∧ Logged { s.wake with mem := { s.mem with findings := [0, 0, 0, 0, 0, 0], scrubBlocks := [], scrubLate := false } } t [] := by
  have hlogged := (logged_log s.wake { code := 0x0005, detail := (0 :: s.wake.mem.findings.drop 1).flatMap (fun n => (be 2 (min n 65535)).map (·.toNat)) }).atMem
    { s.mem with findings := [0, 0, 0, 0, 0, 0], scrubBlocks := [], scrubLate := false }
  refine ⟨_, if_neg (ne_false_of_eq_true hfw), ?_⟩
  dsimp only
  rw [State.log_mem, wake_mem]
  rw [wake_mem] at hlogged
  exact ⟨rfl, rfl, rfl, hlogged⟩

theorem execScrubDeadline_late (hfw : s.fwUp = true) :
    ∃ t, exec .scrubDeadline s = .next t ∧ Logged { s.wake with mem := { s.mem with scrubLate := true } } t [(1, 13)] := by
  refine ⟨_, if_neg (ne_false_of_eq_true hfw), ?_⟩
  rw [wake_mem]
  exact logged_raise _ 1 13 1 (by decide) (by decide)

/-! ## Weight data read again -/

/-- The state with Rest ended and the oldest refetch taken from the list. -/
def State.refetched (s : State) (more : List (Bool × Nat)) : State := { s.wake with mem := { s.mem with refetch := more } }

section
variable {board : Bool} {n : Nat} {more : List (Bool × Nat)} (hfw : s.fwUp = true) (hold : s.mem.refetch = (board, n) :: more)
include hfw hold

theorem execWeightRefetchDone_eq (goldenOk : Bool) : exec (.weightRefetchDone goldenOk) s
    = if goldenOk = false then .next ({ s.refetched more with mem := { (s.refetched more).mem with goldenBad := true } }.raise 1 19 9)
      else if board then
        if 4096 ≤ s.mem.spares then .next (s.refetched more)
        else .next ({ s.refetched more with mem := (s.refetched more).mem.cleanPage n }.retirePage (4096 * n))
      else .next ((s.refetched more).reloadWord n) := by
  change execWeightRefetchDone goldenOk s = _
  unfold execWeightRefetchDone State.refetched
  rw [hold]
  dsimp only
  rw [if_neg (ne_false_of_eq_true hfw), wake_mem]

theorem execWeightRefetchDone_bad : ∃ t, exec (.weightRefetchDone false) s = .next t
    ∧ Logged { s.refetched more with mem := { (s.refetched more).mem with goldenBad := true } } t [(1, 19)] :=
  ⟨_, (execWeightRefetchDone_eq hfw hold false).trans (if_pos rfl), logged_raise _ 1 19 9 (by decide) (by decide)⟩

theorem execWeightRefetchDone_good : exec (.weightRefetchDone true) s
    = if board then
        if 4096 ≤ s.mem.spares then .next (s.refetched more)
        else .next ({ s.refetched more with mem := (s.refetched more).mem.cleanPage n }.retirePage (4096 * n))
      else .next ((s.refetched more).reloadWord n) := execWeightRefetchDone_eq hfw hold true

theorem execWeightRefetchDone_page (hboard : board = true) (hspare : s.mem.spares < 4096) : ∃ t, exec (.weightRefetchDone true) s = .next t ∧ t.mem.refetch = more
    ∧ Tab.get 0 t.mem.remap n = s.mem.spares + 1 ∧ t.mem.spares = s.mem.spares + 1 ∧ (∀ p, p ≠ n → Tab.get 0 t.mem.remap p = Tab.get 0 s.mem.remap p)
    ∧ (∀ a, a / 4096 = n → Tab.get false t.mem.poison (poisonKey .board a) = false) ∧ (∀ (sp : Space) (a : Nat), t.mem.read sp a = s.mem.read sp a)
    ∧ (3072 ≤ s.mem.spares + 1 → (t.logs.word 1).getLsbD 11 = true) := by
  have hpage : 4096 * n / 4096 = n := Nat.mul_div_cancel_left n (by decide)
  have hmem := retirePage_mem (s := { s.refetched more with mem := (s.refetched more).mem.cleanPage n }) (a := 4096 * n) hspare
  rw [hpage] at hmem
  refine ⟨_, (execWeightRefetchDone_good hfw hold).trans ((if_pos hboard).trans (if_neg (Nat.not_le.mpr hspare))), ?_⟩
  rw [hmem]
  exact ⟨rfl, Tab.get_set_same s.mem.remap n (s.mem.spares + 1), rfl, fun p hp => Tab.get_set_ne (d := 0) s.mem.remap n p (s.mem.spares + 1) (Ne.symm hp), fun a ha => cleanPage_poison _ ha, fun _ _ => rfl,
    fun hlow => retirePage_low hspare hlow⟩

end

theorem reloadWord_some {i : Image} (himage : s.image = some i) (n : Nat) : s.reloadWord n = s.putFiles ((s.filesOf i (fun _ => true)).filter (fun f =>
    (List.range f.2.2.length).any (fun j => decide (poisonKey f.1 (f.2.1 + j) = n)))) := by
  unfold State.reloadWord
  rw [himage]

theorem reloadWord_none (himage : s.image = none) (n : Nat) : s.reloadWord n = s := by
  unfold State.reloadWord
  rw [himage]

theorem refetched_image (s : State) (more : List (Bool × Nat)) : (s.refetched more).image = s.image := wake_image s

/-! ## The obligation -/

theorem patrolScrubRead_finds (hfw : s.fwUp = true) (hvalid : f.space ≠ .board ∨ s.mem.clear (f.addr / 4096) = false) : ∃ t, exec (.patrolScrubRead f) s = .next t
    ∧ t.mem.findings = s.mem.findings.set f.cls (s.mem.findings.getD f.cls 0 + 1) ∧ (∀ (sp : Space) (a : Nat), t.mem.read sp a = s.mem.read sp a)
    ∧ t.threads = s.threads ∧ t.ctxs = s.ctxs ∧ t.hist = s.hist ∧ t.rings = s.rings
    ∧ (f.cls = 0 → t.logs = s.logs ∧ t.mem.poison = s.mem.poison)
    ∧ (f.space = .board → (f.cls = 1 ∨ f.cls = 2) → (t.logs.word 1).getLsbD 0 = true ∧ t.mem.poison = s.mem.poison)
    ∧ (f.space = .board → f.cls = 3 → (t.logs.word 1).getLsbD 2 = true ∧ Tab.get false t.mem.poison (poisonKey .board f.addr) = true)
    ∧ (f.space ≠ .board → f.cls = 1 → (t.logs.word 1).getLsbD 4 = true ∧ t.mem.poison = s.mem.poison)
    ∧ (f.space ≠ .board → f.cls = 3 → (t.logs.word 1).getLsbD 5 = true ∧ Tab.get false t.mem.poison (poisonKey f.space f.addr) = true)
    ∧ (f.space = .board → f.cls = 3 → (s.inImage f.addr = true ∨ inAway f.addr = true) →
        (t.logs.word 1).getLsbD 10 = true
        ∧ t.mem.refetch = (if (true, f.addr / 4096) ∈ s.mem.refetch then s.mem.refetch else s.mem.refetch ++ [(true, f.addr / 4096)])) := by
  obtain ⟨life, plls, doms, hw⟩ := wake_parts s
  have hpoisoned (v : State) : Tab.get false (v.poisoned f).mem.poison (poisonKey f.space f.addr) = true := Tab.get_set_same v.mem.poison _ true
  refine ⟨_, execPatrolScrubRead_reads hfw hvalid, ?_⟩
  rw [hw]
  generalize hv : ({ s with life := life, plls := plls, doms := doms } : State) = v
  obtain ⟨m, bits, hfound, hfindings, hread⟩ := eccFinding_found v f
  obtain ⟨hthreads, hctxs, hhist, hrings⟩ := hfound.rest
  have hm := hfound.mem
  subst hv
  refine ⟨by rw [hm, hfindings]; rfl, fun sp a => by rw [hm]; exact hread sp a, hthreads, hctxs, hhist, hrings, fun hgood => ?_, fun hboard hcls => ?_,
    fun hboard hcls => ?_, fun hboard hcls => ?_, fun hboard hcls => ?_, fun hboard hcls hweight => ?_⟩
  · rw [eccFinding_good _ (by omega) (by omega)]
    exact ⟨rfl, rfl⟩
  · obtain ⟨n, more, hfound, hcounts⟩ := eccFinding_corrected { s with life := life, plls := plls, doms := doms } hboard hcls
    exact ⟨hfound.bit (by decide) List.mem_cons_self, by rw [hfound.mem]; exact hcounts.cells.2.1⟩
  · obtain ⟨refetch, more, hfound, -⟩ := eccFinding_beatLost { s with life := life, plls := plls, doms := doms } hboard hcls
    exact ⟨hfound.bit (by decide) List.mem_cons_self, by rw [hfound.mem, ← hboard]; exact hpoisoned _⟩
  · have hfound := eccFinding_word { s with life := life, plls := plls, doms := doms } hboard hcls
    exact ⟨hfound.bit (by decide) List.mem_cons_self, by rw [hfound.mem]; rfl⟩
  · have hfound := eccFinding_wordLost { s with life := life, plls := plls, doms := doms } hboard hcls
    exact ⟨hfound.bit (by decide) List.mem_cons_self, by rw [hfound.mem]; exact hpoisoned _⟩
  · obtain ⟨refetch, more, hfound, hrefetch⟩ := eccFinding_beatLost { s with life := life, plls := plls, doms := doms } hboard hcls
    obtain ⟨rfl, hbit⟩ := hrefetch hweight
    exact ⟨hfound.bit (by decide) (List.mem_cons_of_mem _ hbit), by rw [hfound.mem]; rfl⟩

/-- Settles O55: a finding by its class, a refetch by what it is of. -/
theorem scrubFindsAndRepairs : Obligations.ScrubFindsAndRepairs := by
  refine ⟨fun s f hfw => ⟨fun hboard hclear => if_pos (.inr ⟨hboard, hclear⟩), fun hvalid => patrolScrubRead_finds hfw hvalid⟩,
    fun s hfw => ⟨execScrubPassEnd_ends hfw, execScrubDeadline_late hfw⟩, ?_, fun s b hnone => ?_⟩
  · rintro s v board n more hfw hold rfl
    refine ⟨execWeightRefetchDone_bad hfw hold, fun i hsram himage => ?_, fun hsram himage => ?_, fun hboard hfull => ?_, execWeightRefetchDone_page hfw hold⟩
    · rw [execWeightRefetchDone_good hfw hold, if_neg (ne_true_of_eq_false hsram), reloadWord_some ((refetched_image s more).trans himage)]
      rfl
    · rw [execWeightRefetchDone_good hfw hold, if_neg (ne_true_of_eq_false hsram), reloadWord_none ((refetched_image s more).trans himage)]
      rfl
    · rw [execWeightRefetchDone_good hfw hold, if_pos hboard, if_pos hfull]
      rfl
  · change execWeightRefetchDone b s = _
    unfold execWeightRefetchDone
    rw [hnone]

end Sys2Proof.Machine
end

section
/-! The store's own operations: what they leave of the state and of the store (R465, R471, R478, R481, R482). -/

namespace Sys2Proof.Machine

open Sys2Proof

variable {s t u : State} {b l to_ : Nat}

/-! ## Journal, map, pages and areas rewritten -/

/-- `t` is `s` but for the store's journal, map, pages and area records. -/
def Rewritten (s t : State) : Prop := ∃ journal next map recs pages area,
  t = { s with store := { s.store with journal := journal, nextSeq := next, map := map, mapRecs := recs, pages := pages, area := area } }

theorem Rewritten.refl (s : State) : Rewritten s s := ⟨_, _, _, _, _, _, rfl⟩

theorem Rewritten.trans (hst : Rewritten s t) (htu : Rewritten t u) : Rewritten s u := by
  obtain ⟨_, _, _, _, _, _, rfl⟩ := hst
  obtain ⟨_, _, _, _, _, _, rfl⟩ := htu
  exact ⟨_, _, _, _, _, _, rfl⟩

@[simp] theorem storeRec_map (s : State) (r : SRec) : (s.storeRec r).store.map = s.store.map := by
  unfold State.storeRec
  dsimp only

theorem storeRec_journal (s : State) (r : SRec) : (s.storeRec r).store.journal
    = (s.store.journal ++ [{ r with seq := s.store.nextSeq, poc := s.life.poc }]).drop ((s.store.journal ++ [{ r with seq := s.store.nextSeq, poc := s.life.poc }]).length - 1024) := by
  unfold State.storeRec
  dsimp only

theorem storeRec_rewritten (s : State) (r : SRec) : Rewritten s (s.storeRec r) := ⟨_, _, _, _, _, _, rfl⟩

theorem areaRec_rewritten (s : State) (r : SRec) : Rewritten s (s.areaRec r) := ⟨_, _, _, _, _, _, rfl⟩

/-- A map record, before the full copy that may follow it. -/
def State.mapped (s : State) (l b : Nat) : State :=
  { s with store := { s.store with map := Tab.set 0 s.store.map l (if b = l + 16 then 0 else b), mapRecs := s.store.mapRecs + 1 } }

theorem mapBlock_eq (s : State) (l b : Nat) : s.mapBlock l b = s.mapped l b ∨ ∃ r, s.mapBlock l b = (s.mapped l b).areaRec r := by
  unfold State.mapBlock
  dsimp only
  split
  · exact .inr ⟨_, rfl⟩
  · exact .inl rfl

theorem mapBlock_rewritten (s : State) (l b : Nat) : Rewritten s (s.mapBlock l b) := by
  have hmapped : Rewritten s (s.mapped l b) := ⟨_, _, _, _, _, _, rfl⟩
  rcases mapBlock_eq s l b with h | ⟨r, h⟩
  · exact h ▸ hmapped
  · exact h ▸ hmapped.trans (areaRec_rewritten ..)

theorem mapBlock_map (s : State) (l b : Nat) : (s.mapBlock l b).store.map = Tab.set 0 s.store.map l (if b = l + 16 then 0 else b) := by
  rcases mapBlock_eq s l b with h | ⟨r, h⟩ <;> rw [h] <;> rfl

theorem mapBlock_journal (s : State) (l b : Nat) : (s.mapBlock l b).store.journal = s.store.journal := by
  rcases mapBlock_eq s l b with h | ⟨r, h⟩ <;> rw [h] <;> rfl

theorem mainOf_eq (t : Store) (l : Nat) : t.mainOf l = if Tab.get 0 t.map l = 0 then l + 16 else Tab.get 0 t.map l := by
  unfold Store.mainOf
  split
  · next h => rw [if_pos h]
  · next h => rw [if_neg h]

theorem mainOf_of_map {t : Store} {m : Tab Nat} (hmap : t.map = Tab.set 0 m l (if b = l + 16 then 0 else b)) (hb : b ≠ 0) : t.mainOf l = b := by
  rw [mainOf_eq, hmap, Tab.get_set_same]
  by_cases hhome : b = l + 16
  · rw [if_pos hhome, if_pos rfl, hhome]
  · rw [if_neg hhome, if_neg hb]

/-! ## Relocations -/

/-- The record that a relocation begins with. -/
def State.moveRec (s : State) (l to_ : Nat) : SRec := { kind := 0x23, unit := 0, phys := to_, logical := l, arg := s.store.mainOf l }

/-- A relocation after its begin record and the copy of the pages. -/
def State.copied (s : State) (l to_ : Nat) : State :=
  { s.storeRec (s.moveRec l to_) with store := { (s.storeRec (s.moveRec l to_)).store with
    pages := Tab.set {} (s.storeRec (s.moveRec l to_)).store.pages to_ (Tab.get {} (s.storeRec (s.moveRec l to_)).store.pages (s.store.mainOf l)) } }

theorem relocate_eq (s : State) (l to_ : Nat) : s.relocate l to_ = ((s.copied l to_).mapBlock l to_).storeRec { s.moveRec l to_ with kind := 0x24 } := rfl

theorem copied_journal (s : State) (l to_ : Nat) : (s.copied l to_).store.journal = (s.storeRec (s.moveRec l to_)).store.journal := by
  unfold State.copied
  dsimp only

theorem copied_map (s : State) (l to_ : Nat) : (s.copied l to_).store.map = s.store.map := by
  unfold State.copied
  dsimp only
  rw [storeRec_map]

theorem copied_rewritten (s : State) (l to_ : Nat) : Rewritten s (s.copied l to_) := by
  unfold State.copied
  obtain ⟨_, _, _, _, _, _, h⟩ := storeRec_rewritten s (s.moveRec l to_)
  rw [h]
  exact ⟨_, _, _, _, _, _, rfl⟩

theorem relocate_rewritten (s : State) (l to_ : Nat) : Rewritten s (s.relocate l to_) := by
  rw [relocate_eq]
  exact (copied_rewritten ..).trans ((mapBlock_rewritten ..).trans (storeRec_rewritten ..))

theorem relocate_map (s : State) (l to_ : Nat) : (s.relocate l to_).store.map = Tab.set 0 s.store.map l (if to_ = l + 16 then 0 else to_) := by
  rw [relocate_eq, storeRec_map, mapBlock_map, copied_map]

theorem eraseIntent_rewritten (s : State) (unit phys : Nat) : Rewritten s (s.eraseIntent unit phys) := by
  unfold State.eraseIntent
  split
  · exact Rewritten.refl s
  · exact storeRec_rewritten ..

theorem eraseIntent_map (s : State) (unit phys : Nat) : (s.eraseIntent unit phys).store.map = s.store.map := by
  unfold State.eraseIntent
  split
  · rfl
  · exact storeRec_map ..

theorem eraseIntent_of_erasing {unit phys : Nat} (h : s.store.erasing unit phys = true) : s.eraseIntent unit phys = s := if_pos h

theorem moveBlock_rewritten (s : State) (l to_ : Nat) : Rewritten s (s.moveBlock l to_) := (relocate_rewritten ..).trans (eraseIntent_rewritten ..)

theorem moveBlock_map (s : State) (l to_ : Nat) : (s.moveBlock l to_).store.map = Tab.set 0 s.store.map l (if to_ = l + 16 then 0 else to_) := by
  unfold State.moveBlock
  rw [eraseIntent_map, relocate_map]

theorem levelWear_rewritten (s : State) (plane : Nat) : Rewritten s (s.levelWear plane) := by
  unfold State.levelWear
  split
  · exact Rewritten.refl s
  · split
    · split
      · exact Rewritten.refl s
      · exact moveBlock_rewritten ..
    · exact Rewritten.refl s

/-- A spare is a main block: its number is not 0. -/
theorem ne_zero_of_spare {t : Store} {plane sp : Nat} (h : sp ∈ t.spares plane) : sp ≠ 0 := by
  have hmay : sp ∈ t.mayBeSpare plane := (List.mem_filter.mp h).1
  have hsome := (List.mem_filter.mp hmay).1
  simp only [List.mem_append, List.mem_map, List.mem_range] at hsome
  rcases hsome with (⟨i, -, rfl⟩ | ⟨i, -, rfl⟩) | ⟨e, -, rfl⟩ <;> omega

/-! ## The newest journal records -/

/-- A record of the journal with at most `k` records after it. -/
def Recent (k : Nat) (r : SRec) (journal : List SRec) : Prop := ∃ before after, journal = before ++ r :: after ∧ after.length ≤ k

theorem Recent.mem {k : Nat} {r : SRec} {journal : List SRec} (h : Recent k r journal) : r ∈ journal := by
  obtain ⟨before, after, rfl, -⟩ := h
  simp

/-- Of a ring of 1,024 records, one that is followed by fewer stays. -/
theorem recent_drop {k : Nat} {r : SRec} {journal : List SRec} (h : Recent k r journal) (hk : k < 1024) : Recent k r (journal.drop (journal.length - 1024)) := by
  obtain ⟨before, after, rfl, hafter⟩ := h
  refine ⟨_, after, List.drop_append_of_le_length ?_, hafter⟩
  rw [List.length_append, List.length_cons]
  omega

theorem storeRec_newest (s : State) (x : SRec) : Recent 0 { x with seq := s.store.nextSeq, poc := s.life.poc } (s.storeRec x).store.journal := by
  rw [storeRec_journal]
  exact recent_drop ⟨s.store.journal, [], rfl, Nat.le_refl 0⟩ (by decide)

theorem storeRec_recent {k : Nat} {r : SRec} (h : Recent k r s.store.journal) (hk : k < 1023) (x : SRec) : Recent (k + 1) r (s.storeRec x).store.journal := by
  obtain ⟨before, after, hjournal, hafter⟩ := h
  rw [storeRec_journal]
  refine recent_drop ⟨before, after ++ [{ x with seq := s.store.nextSeq, poc := s.life.poc }], ?_, ?_⟩ (by omega)
  · rw [hjournal, List.append_assoc, List.cons_append]
  · rw [List.length_append, List.length_singleton]
    omega

theorem moveBlock_recent {r : SRec} (h : Recent 0 r s.store.journal) (l to_ : Nat) : r ∈ (s.moveBlock l to_).store.journal := by
  have hbegun := storeRec_recent h (by decide) (s.moveRec l to_)
  have hmoved : Recent 2 r (s.relocate l to_).store.journal := by
    rw [relocate_eq]
    refine storeRec_recent ?_ (by decide) _
    rw [mapBlock_journal, copied_journal]
    exact hbegun
  unfold State.moveBlock State.eraseIntent
  split
  · exact hmoved.mem
  · exact (storeRec_recent hmoved (by decide) _).mem

theorem levelWear_recent {r : SRec} (h : Recent 0 r s.store.journal) (plane : Nat) : r ∈ (s.levelWear plane).store.journal := by
  unfold State.levelWear
  split
  · exact h.mem
  · split
    · split
      · exact h.mem
      · exact moveBlock_recent h ..
    · exact h.mem

/-! ## Refreshes, R482 -/

/-- `t` is `s` but for the store's journal, map, pages, areas and refreshes. -/
def Refreshed (s t : State) : Prop := ∃ refresh done, Rewritten { s with store := { s.store with refresh := refresh, refreshes := done } } t

theorem Rewritten.refreshed (h : Rewritten s t) : Refreshed s t := ⟨s.store.refresh, s.store.refreshes, h⟩

theorem Refreshed.trans (hst : Refreshed s t) (htu : Refreshed t u) : Refreshed s u := by
  obtain ⟨_, _, _, _, _, _, _, _, rfl⟩ := hst
  obtain ⟨_, _, _, _, _, _, _, _, rfl⟩ := htu
  exact ⟨_, _, _, _, _, _, _, _, rfl⟩

/-- What runRefresh does with one block. -/
def State.refreshOne (s : State) (b : Nat) : State :=
  match s.store.holds b, s.store.spares (planeOf b) with
  | some l, sp :: _ =>
    if s.openBlock l then s
    else { s.moveBlock l sp with store := { (s.moveBlock l sp).store with
      refresh := (s.moveBlock l sp).store.refresh.filter (· ≠ b), refreshes := (s.moveBlock l sp).store.refreshes + 1 } }
  | none, _ => { s with store := { s.store with refresh := s.store.refresh.filter (· ≠ b) } }
  | _, [] => s

theorem runRefresh_eq (s : State) : s.runRefresh = s.store.refresh.foldl State.refreshOne s := rfl

theorem refreshOne_refreshed (s : State) (b : Nat) : Refreshed s (s.refreshOne b) := by
  unfold State.refreshOne
  split
  · split
    · exact (Rewritten.refl s).refreshed
    · obtain ⟨_, _, _, _, _, _, h⟩ := moveBlock_rewritten s _ _
      rw [h]
      exact ⟨_, _, _, _, _, _, _, _, rfl⟩
  · exact ⟨_, _, Rewritten.refl _⟩
  · exact (Rewritten.refl s).refreshed

theorem foldl_refreshOne_refreshed (l : List Nat) (s : State) : Refreshed s (l.foldl State.refreshOne s) := by
  induction l generalizing s with
  | nil => exact (Rewritten.refl s).refreshed
  | cons b l ih => exact (refreshOne_refreshed s b).trans (ih _)

theorem runRefresh_refreshed (s : State) : Refreshed s s.runRefresh := by
  rw [runRefresh_eq]
  exact foldl_refreshOne_refreshed ..

end Sys2Proof.Machine
end

section
/-! STORE_PROGRAM_DONE, STORE_ERASE_DONE, STORE_READ and STORE_PATROL_READ (R437, R447, R469 to R482). -/

namespace Sys2Proof.Machine

open Sys2Proof

variable {s t u : State} {b l n : Nat}

/-! ## What a failed write leaves alone -/

/-- `t` has the memory, the history and the retired blocks of `s`, and every trouble bit that `s` has. -/
def Upholds (s t : State) : Prop :=
  t.mem = s.mem ∧ t.hist = s.hist ∧ t.store.retired = s.store.retired
    ∧ ∀ v k, v < 3 → (s.logs.word v).getLsbD k = true → (t.logs.word v).getLsbD k = true

theorem Upholds.trans (hst : Upholds s t) (htu : Upholds t u) : Upholds s u := by
  obtain ⟨hmem, hhist, hretired, hbits⟩ := hst
  obtain ⟨hmem', hhist', hretired', hbits'⟩ := htu
  exact ⟨hmem'.trans hmem, hhist'.trans hhist, hretired'.trans hretired, fun v k hv h => hbits' v k hv (hbits v k hv h)⟩

/-- The parts that `Upholds` speaks of. -/
def State.upheld (s : State) : Memory × History × List Nat × Logs := (s.mem, s.hist, s.store.retired, s.logs)

theorem upholds_of_upheld (h : t.upheld = s.upheld) : Upholds s t := by
  unfold State.upheld at h
  simp only [Prod.mk.injEq] at h
  obtain ⟨hmem, hhist, hretired, hlogs⟩ := h
  exact ⟨hmem, hhist, hretired, fun v k _ h => hlogs ▸ h⟩

theorem Logged.upholds {bits : List (Nat × Nat)} (h : Logged s t bits) : Upholds s t := by
  obtain ⟨-, -, hbits⟩ := id h
  exact ⟨h.part State.mem fun _ _ _ _ _ _ => rfl, h.part State.hist fun _ _ _ _ _ _ => rfl, h.part (·.store.retired) fun _ _ _ _ _ _ => rfl,
    fun v k hv hs => by rw [hbits v k hv, hs, Bool.true_or]⟩

theorem complete_upheld (s : State) (who : Option (Nat × Nat)) (opcode ctx : Nat) (st : Status) (d : Nat) (tlvs : List Tlv) :
    (s.complete who opcode ctx st d tlvs).upheld = s.upheld := by
  obtain ⟨co, ou, h⟩ := complete_eq s who opcode ctx st d tlvs
  rw [h]
  rfl

theorem dropThresholds_upheld (s : State) (sid : Nat) : (s.dropThresholds sid).upheld = s.upheld := by
  unfold State.dropThresholds
  refine each_part State.upheld (fun v p => ?_) _ s
  rfl

theorem endSession_upheld (s : State) (sid cause : Nat) : (s.endSession sid cause).upheld = s.upheld := by
  unfold State.endSession
  split
  · rfl
  · change State.upheld (State.dropThresholds _ sid) = _
    rw [dropThresholds_upheld]
    split
    · rfl
    · obtain ⟨co, ou, h⟩ := notify_eq s sid 0x00C0 0xFFFF .ok cause []
      rw [h]
      rfl

theorem endSessions_upheld (s : State) (cause : Nat) : (s.endSessions cause).upheld = s.upheld :=
  each_part State.upheld (fun v n => endSession_upheld v n cause) s.sids s

theorem takeCkpt_upheld (s : State) : s.takeCkpt.upheld = s.upheld := by
  unfold State.takeCkpt
  split <;> rfl

theorem endCkpt_false_upholds (s : State) (c : Ckpt) : Upholds s (s.endCkpt c false) :=
  (upholds_of_upheld (t := { s with ckpt := { s.ckpt with staging := none } }) rfl).trans (logged_raise _ 2 15 9 (by decide) (by decide)).upholds

theorem execCheckpointStored_false_upholds (s : State) : ∃ t, execCheckpointStored false s = .next t ∧ Upholds s t := by
  unfold execCheckpointStored
  split
  · exact ⟨s, rfl, upholds_of_upheld rfl⟩
  · next c _ =>
    have hend := endCkpt_false_upholds s c
    dsimp only
    split
    · split
      · exact ⟨_, rfl, hend⟩
      · exact ⟨_, rfl, hend.trans (upholds_of_upheld (takeCkpt_upheld _))⟩
    · have hcompleted : State.upheld (s.ckpt.asked.foldl (fun s a => s.complete (some a) 0x0A06 0xFFFF .storeFail 0 [])
          { s.endCkpt c false with ckpt := { (s.endCkpt c false).ckpt with asked := [] } }) = (s.endCkpt c false).upheld :=
        foldl_part State.upheld (fun v a => complete_upheld v (some a) ..) _ _
      split
      · exact ⟨_, rfl, hend.trans (upholds_of_upheld hcompleted)⟩
      · exact ⟨_, rfl, hend.trans (upholds_of_upheld ((endSessions_upheld _ 5).trans hcompleted))⟩

theorem writeFails_upholds (s : State) (l : Nat) : Upholds s (s.writeFails l) := by
  unfold State.writeFails
  dsimp only
  split
  · split
    · exact upholds_of_upheld (complete_upheld ..)
    · exact upholds_of_upheld rfl
  · split
    · split
      · exact upholds_of_upheld (complete_upheld ..)
      · exact upholds_of_upheld rfl
    · split
      · split
        · obtain ⟨t, hexec, ht⟩ := execCheckpointStored_false_upholds s
          rw [hexec]
          exact ht
        · exact upholds_of_upheld rfl
      · exact upholds_of_upheld rfl

/-! ## A block that fails -/

/-- A main block on the list of retired ones, with the record of it. -/
def State.markRetired (s : State) (b : Nat) (held : Option Nat) (spare : Nat) : State :=
  { s with store := { s.store with retired := s.store.retired ++ [b] } }.storeRec { kind := 0x25, unit := 0, phys := b, logical := held.getD 0xFFFF, arg := spare }

theorem markRetired_retired (s : State) (b : Nat) (held : Option Nat) (spare : Nat) : b ∈ (s.markRetired b held spare).store.retired := by
  have h : (s.markRetired b held spare).store.retired = s.store.retired ++ [b] := by
    unfold State.markRetired State.storeRec
    dsimp only
  rw [h]
  simp

theorem markRetired_parts (s : State) (b : Nat) (held : Option Nat) (spare : Nat) : (s.markRetired b held spare).store.map = s.store.map
    ∧ (s.markRetired b held spare).mem = s.mem ∧ (s.markRetired b held spare).hist = s.hist ∧ (s.markRetired b held spare).img = s.img
    ∧ (s.markRetired b held spare).logs = s.logs := by
  unfold State.markRetired State.storeRec
  exact ⟨rfl, rfl, rfl, rfl, rfl⟩

section
variable (hin : s.store.retired.contains b = false)
include hin

theorem retireBlock_of_empty (hheld : s.store.holds b = none) : s.retireBlock b = s.markRetired b none 0xFFFF := by
  unfold State.retireBlock
  rw [if_neg (ne_true_of_eq_false hin)]
  dsimp only
  rw [hheld]
  rfl

theorem retireBlock_to_spare {sp : Nat} {rest : List Nat} (hheld : s.store.holds b = some l) (hspare : s.store.spares (planeOf b) = sp :: rest) :
    s.retireBlock b = (s.relocate l sp).markRetired b (some l) sp := by
  unfold State.retireBlock
  rw [if_neg (ne_true_of_eq_false hin)]
  dsimp only
  rw [hheld, hspare]
  rfl

end

/-- Block `b` is retired in `t`; memory, history and the trouble bits of `s` stand. -/
def Retires (s : State) (b : Nat) (t : State) : Prop :=
  b ∈ t.store.retired ∧ t.mem = s.mem ∧ t.hist = s.hist ∧ ∀ v k, v < 3 → (s.logs.word v).getLsbD k = true → (t.logs.word v).getLsbD k = true

theorem Retires.of_upholds (h : Upholds s t) (htu : Retires t b u) : Retires s b u := by
  obtain ⟨hmem, hhist, -, hbits⟩ := h
  obtain ⟨hretired, hmem', hhist', hbits'⟩ := htu
  exact ⟨hretired, hmem'.trans hmem, hhist'.trans hhist, fun v k hv h => hbits' v k hv (hbits v k hv h)⟩

theorem Retires.then (hst : Retires s b t) (h : Upholds t u) : Retires s b u := by
  obtain ⟨hretired, hmem, hhist, hbits⟩ := hst
  obtain ⟨hmem', hhist', hretired', hbits'⟩ := h
  exact ⟨hretired' ▸ hretired, hmem'.trans hmem, hhist'.trans hhist, fun v k hv h => hbits' v k hv (hbits v k hv h)⟩

theorem markRetired_retires (s : State) (b : Nat) (held : Option Nat) (spare : Nat) : Retires s b (s.markRetired b held spare) := by
  obtain ⟨-, hmem, hhist, -, hlogs⟩ := markRetired_parts s b held spare
  exact ⟨markRetired_retired .., hmem, hhist, fun v k _ h => by rwa [hlogs]⟩

theorem Rewritten.upholds (h : Rewritten s t) : Upholds s t := by
  obtain ⟨_, _, _, _, _, _, rfl⟩ := h
  exact upholds_of_upheld rfl

/-- The block of a reserved logical block is given up for what a failed block held (R471). -/
def State.giveUp (s : State) (v : Nat) : State :=
  { s with store := { s.store with givenUp := s.store.givenUp ++ [v], map := Tab.set 0 s.store.map v 0 } }

theorem retireBlock_without_spare (hin : s.store.retired.contains b = false) (hheld : s.store.holds b = some l) (hspare : s.store.spares (planeOf b) = []) :
    (∃ v, s.retireBlock b = (s.giveUp v).markRetired b (some l) 0xFFFF)
      ∨ (∃ v, s.retireBlock b = ((s.giveUp v).relocate l (s.store.mainOf v)).markRetired b (some l) (s.store.mainOf v))
      ∨ s.retireBlock b = (s.markRetired b (some l) 0xFFFF).writeFails l := by
  unfold State.retireBlock
  rw [if_neg (ne_true_of_eq_false hin)]
  dsimp only
  rw [hheld, hspare]
  dsimp only
  split
  · next v _ =>
    split
    · exact .inl ⟨v, rfl⟩
    · exact .inr (.inl ⟨v, rfl⟩)
  · exact .inr (.inr rfl)

theorem retireBlock_retires (hin : s.store.retired.contains b = false) : Retires s b (s.retireBlock b) := by
  have hgive (v : Nat) : Upholds s (s.giveUp v) := upholds_of_upheld rfl
  cases hheld : s.store.holds b with
  | none =>
    rw [retireBlock_of_empty hin hheld]
    exact markRetired_retires ..
  | some l =>
    cases hspare : s.store.spares (planeOf b) with
    | cons sp rest =>
      rw [retireBlock_to_spare hin hheld hspare]
      exact .of_upholds (relocate_rewritten ..).upholds (markRetired_retires ..)
    | nil =>
      rcases retireBlock_without_spare hin hheld hspare with ⟨v, h⟩ | ⟨v, h⟩ | h
      · rw [h]
        exact .of_upholds (hgive v) (markRetired_retires ..)
      · rw [h]
        exact .of_upholds ((hgive v).trans (relocate_rewritten ..).upholds) (markRetired_retires ..)
      · rw [h]
        exact (markRetired_retires ..).then (writeFails_upholds ..)

/-- A failed program or erase sets its bit and retires the block. -/
theorem blockFails_retires (hin : s.store.retired.contains b = false) : Retires s b (s.blockFails b) ∧ ((s.blockFails b).logs.word 1).getLsbD 8 = true := by
  have hevent := logged_trouble s 1 8 0 9 0xFF ((be 2 b).map (·.toNat)) (by decide) (by decide)
  have hin' : (s.trouble 1 8 0 9 0xFF ((be 2 b).map (·.toNat))).store.retired.contains b = false := by rwa [State.trouble_store]
  have hretires := retireBlock_retires hin'
  obtain ⟨-, -, -, hkept⟩ := hretires
  obtain ⟨-, -, hbits⟩ := id hevent
  exact ⟨.of_upholds hevent.upholds (retireBlock_retires hin'), hkept 1 8 (by decide) (by rw [hbits 1 8 (by decide)]; simp)⟩

/-! ## Programs and erases -/

theorem wake_store (s : State) : s.wake.store = s.store := by
  obtain ⟨life, plls, doms, hw⟩ := wake_parts s
  rw [hw]

theorem blockFails_to_spare {sp : Nat} {rest : List Nat} (hin : s.store.retired.contains b = false) (hheld : s.store.holds b = some l)
    (hspare : s.store.spares (planeOf b) = sp :: rest) : (s.blockFails b).store.mainOf l = sp ∧ (s.blockFails b).img = s.img := by
  have hsp : sp ≠ 0 := ne_zero_of_spare (hspare ▸ List.mem_cons_self)
  unfold State.blockFails
  generalize hv : s.trouble 1 8 0 9 0xFF ((be 2 b).map (·.toNat)) = v
  have hstore : v.store = s.store := by rw [← hv, State.trouble_store]
  have himg : v.img = s.img := by rw [← hv, State.trouble_img]
  rw [retireBlock_to_spare (hstore ▸ hin) (hstore ▸ hheld) (hstore ▸ hspare)]
  obtain ⟨hmap, -, -, himg', -⟩ := markRetired_parts (v.relocate l sp) b (some l) sp
  refine ⟨mainOf_of_map (hmap.trans (relocate_map v l sp)) hsp, himg'.trans ?_⟩
  obtain ⟨_, _, _, _, _, _, h⟩ := relocate_rewritten v l sp
  rw [h]
  exact himg

theorem blockFails_of_empty (hin : s.store.retired.contains b = false) (hheld : s.store.holds b = none) :
    (s.blockFails b).store.map = s.store.map ∧ (s.blockFails b).img = s.img := by
  unfold State.blockFails
  generalize hv : s.trouble 1 8 0 9 0xFF ((be 2 b).map (·.toNat)) = v
  have hstore : v.store = s.store := by rw [← hv, State.trouble_store]
  have himg : v.img = s.img := by rw [← hv, State.trouble_img]
  rw [retireBlock_of_empty (hstore ▸ hin) (hstore ▸ hheld)]
  obtain ⟨hmap, -, -, himg', -⟩ := markRetired_parts v b none 0xFFFF
  exact ⟨hmap.trans (hstore ▸ rfl), himg'.trans himg⟩

/-- The next page of a main block stands. -/
def State.pageStands (s : State) (b : Nat) (oneBit : Bool) : State :=
  { s.wake with store := { s.wake.store with
    pages := Tab.set {} s.wake.store.pages b { Tab.get {} s.store.pages b with count := (Tab.get {} s.store.pages b).count + 1, oneBit := oneBit } } }

section
variable (hup : s.storeUp = true) (hmain : isMain b = true) (hroom : (Tab.get {} s.store.pages b).full = false)
include hup hmain hroom

theorem programDone_goes : ¬ (s.storeUp = false ∨ isMain b = false ∨ (Tab.get {} s.store.pages b).full = true) := by
  rw [hup, hmain, hroom]
  decide

theorem execStoreProgramDone_verified : ∃ oneBit, exec (.storeProgramDone b true) s = .next (s.pageStands b oneBit) :=
  ⟨_, (if_neg (programDone_goes hup hmain hroom)).trans (if_pos rfl)⟩

theorem execStoreProgramDone_failed : exec (.storeProgramDone b false) s = .next (s.wake.blockFails b) :=
  (if_neg (programDone_goes hup hmain hroom)).trans (if_neg Bool.false_ne_true)

end

theorem pageStands_page (s : State) (b : Nat) (oneBit : Bool) : (Tab.get {} (s.pageStands b oneBit).store.pages b).count = (Tab.get {} s.store.pages b).count + 1
    ∧ (∀ k, k ≠ b → Tab.get {} (s.pageStands b oneBit).store.pages k = Tab.get {} s.store.pages k)
    ∧ { s.pageStands b oneBit with store := { (s.pageStands b oneBit).store with pages := s.store.pages } } = s.wake := by
  obtain ⟨life, plls, doms, hw⟩ := wake_parts s
  unfold State.pageStands
  rw [hw]
  exact ⟨by rw [Tab.get_set_same], fun k hk => by rw [Tab.get_set_ne _ _ _ _ (Ne.symm hk)], rfl⟩

theorem wake_rest (s : State) : s.wake.mem = s.mem ∧ s.wake.hist = s.hist ∧ s.wake.img = s.img ∧ s.wake.store = s.store ∧ s.wake.logs = s.logs := by
  obtain ⟨life, plls, doms, hw⟩ := wake_parts s
  rw [hw]
  exact ⟨rfl, rfl, rfl, rfl, rfl⟩

theorem wake_blockFails (hin : s.store.retired.contains b = false) : ((s.wake.blockFails b).logs.word 1).getLsbD 8 = true ∧ b ∈ (s.wake.blockFails b).store.retired
    ∧ (s.wake.blockFails b).mem = s.mem ∧ (s.wake.blockFails b).hist = s.hist := by
  obtain ⟨hmem, hhist, -, hstore, -⟩ := wake_rest s
  obtain ⟨⟨hretired, hmem', hhist', -⟩, hbit⟩ := blockFails_retires (s := s.wake) (b := b) (by rwa [hstore])
  exact ⟨hbit, hretired, hmem'.trans hmem, hhist'.trans hhist⟩

/-- The count of a unit's erases, one higher; no page of a main block stands. -/
def State.eraseCounted (s : State) (unit phys : Nat) : State :=
  { s with store := { s.store with
      erases := Tab.upd 0 s.store.erases (65536 * unit + phys) (· + 1)
      pages := if unit = 0 then Tab.set {} s.store.pages phys {} else s.store.pages } }

theorem eraseDone_of_open {unit phys : Nat} (hopen : s.store.erasing unit phys = true) (pulses : Nat) :
    s.eraseDone unit phys pulses = (s.eraseCounted unit phys).storeRec { kind := 0x22, unit := unit, phys := phys, arg := pulses } := if_pos hopen

theorem storeRec_erases (s : State) (r : SRec) : (s.storeRec r).store.erases = s.store.erases := by
  obtain ⟨_, _, _, _, _, _, h⟩ := storeRec_rewritten s r
  rw [h]

theorem eraseDone_count {unit phys : Nat} (hopen : s.store.erasing unit phys = true) (pulses : Nat) :
    (s.eraseDone unit phys pulses).store.eraseCount unit phys = s.store.eraseCount unit phys + 1 := by
  unfold Store.eraseCount
  rw [eraseDone_of_open hopen, storeRec_erases]
  exact Tab.get_upd_same (d := 0) s.store.erases (65536 * unit + phys) (· + 1)

theorem eraseDone_newest {unit phys : Nat} (hopen : s.store.erasing unit phys = true) (pulses : Nat) : Recent 0
    { kind := 0x22, unit := unit, phys := phys, arg := pulses, seq := s.store.nextSeq, poc := s.life.poc } (s.eraseDone unit phys pulses).store.journal := by
  rw [eraseDone_of_open hopen]
  exact storeRec_newest (s.eraseCounted unit phys) _

theorem Recent.getLast {r : SRec} {journal : List SRec} (h : Recent 0 r journal) : journal.getLast? = some r := by
  obtain ⟨before, after, rfl, hafter⟩ := h
  rw [List.length_eq_zero_iff.mp (Nat.le_zero.mp hafter)]
  exact List.getLast?_concat

theorem Refreshed.parts (h : Refreshed s t) : t.store.erases = s.store.erases ∧ t.mem = s.mem ∧ t.img = s.img ∧ t.store.patrol = s.store.patrol ∧ t.logs = s.logs := by
  obtain ⟨_, _, _, _, _, _, _, _, rfl⟩ := h
  exact ⟨rfl, rfl, rfl, rfl, rfl⟩

theorem Rewritten.refresh (h : Rewritten s t) : t.store.refresh = s.store.refresh := by
  obtain ⟨_, _, _, _, _, _, rfl⟩ := h
  rfl

theorem runRefresh_of_none (h : s.store.refresh = []) : s.runRefresh = s := by
  rw [runRefresh_eq, h]
  rfl

section
variable {unit phys : Nat} (hup : s.storeUp = true) (hopen : s.store.erasing unit phys = true)
include hup hopen

theorem execStoreEraseDone_eq (verified : Bool) (pulses : Nat) : exec (.storeEraseDone unit phys verified pulses) s
    = if verified then .next (if unit = 0 then ((s.wake.eraseDone unit phys pulses).levelWear (planeOf phys)).runRefresh else s.wake.eraseDone unit phys pulses)
      else if unit = 0 then .next (s.wake.blockFails phys)
      else .next (s.wake.trouble 1 8 0 9 0xFF ((be 2 phys).map (·.toNat))) := by
  have hgoes : ¬ (s.storeUp = false ∨ (s.store.erasing unit phys = false ∧ (unit ≠ 0 ∨ isMain phys = false ∨ s.mayErase phys = false))) := by
    rw [hup, hopen]
    simp
  have hintent : s.wake.eraseIntent unit phys = s.wake := eraseIntent_of_erasing (by rwa [wake_store])
  change execStoreEraseDone unit phys verified pulses s = _
  unfold execStoreEraseDone
  rw [if_neg hgoes]
  dsimp only
  rw [hintent]

theorem eraseDone_unit (hunit : unit ≠ 0) (pulses : Nat) : ∃ t, exec (.storeEraseDone unit phys true pulses) s = .next t
    ∧ t.store.eraseCount unit phys = s.store.eraseCount unit phys + 1
    ∧ (∃ r, t.store.journal.getLast? = some r ∧ r.kind = 0x22 ∧ r.unit = unit ∧ r.phys = phys ∧ r.arg = pulses) ∧ { t with store := s.store } = s.wake := by
  have hopen' : s.wake.store.erasing unit phys = true := by rwa [wake_store]
  refine ⟨_, (execStoreEraseDone_eq hup hopen true pulses).trans ((if_pos rfl).trans (congrArg _ (if_neg hunit))), ?_,
    ⟨_, (eraseDone_newest hopen' pulses).getLast, rfl, rfl, rfl, rfl⟩, ?_⟩
  · rw [eraseDone_count hopen', wake_store]
  · obtain ⟨store, h⟩ := eraseDone_eq s.wake unit phys pulses
    rw [h, ← wake_store s]

theorem eraseDone_main (hunit : unit = 0) (pulses : Nat) : ∃ t, exec (.storeEraseDone unit phys true pulses) s = .next t
    ∧ t.store.eraseCount 0 phys = s.store.eraseCount 0 phys + 1
    ∧ (s.store.refresh = [] → ∃ r, r ∈ t.store.journal ∧ r.kind = 0x22 ∧ r.phys = phys ∧ r.seq = s.store.nextSeq) ∧ t.mem = s.mem ∧ t.img = s.img := by
  subst hunit
  obtain ⟨hmem, -, himg, hstore, -⟩ := wake_rest s
  have hopen' : s.wake.store.erasing 0 phys = true := by rwa [hstore]
  have hlevel := levelWear_rewritten (s.wake.eraseDone 0 phys pulses) (planeOf phys)
  obtain ⟨store, hdone⟩ := eraseDone_eq s.wake 0 phys pulses
  obtain ⟨herases, hmem', himg', -, -⟩ := (hlevel.refreshed.trans (runRefresh_refreshed _)).parts
  refine ⟨_, (execStoreEraseDone_eq hup hopen true pulses).trans ((if_pos rfl).trans (congrArg _ (if_pos rfl))), ?_, fun hnone => ?_, ?_, ?_⟩
  · have hcount := eraseDone_count hopen' pulses
    rw [hstore] at hcount
    unfold Store.eraseCount at hcount ⊢
    rw [herases, hcount]
  · have hquiet : ((s.wake.eraseDone 0 phys pulses).levelWear (planeOf phys)).store.refresh = [] := by
      rw [hlevel.refresh, eraseDone_of_open hopen', (storeRec_rewritten ..).refresh]
      exact (congrArg Store.refresh hstore).trans hnone
    rw [runRefresh_of_none hquiet]
    exact ⟨_, levelWear_recent (eraseDone_newest hopen' pulses) _, rfl, rfl, congrArg Store.nextSeq hstore⟩
  · rw [hmem', hdone, ← hmem]
  · rw [himg', hdone, ← himg]

end

/-! ## Reads -/

/-- A block asks for a refresh. -/
def State.askRefresh (s : State) (b : Nat) : State :=
  if s.store.refresh.contains b then s else { s with store := { s.store with refresh := s.store.refresh ++ [b] } }

theorem sectorRead_good (hn : n ≤ 24) : s.sectorRead b n = s := if_pos hn

theorem sectorRead_corrected (hlow : 24 < n) (hhigh : n ≤ 40) :
    s.sectorRead b n = ((s.trouble 1 6 0 9 0xFF ((be 2 b).map (·.toNat))).askRefresh b).runRefresh :=
  (if_neg (Nat.not_le.mpr hlow)).trans (if_pos hhigh)

theorem askRefresh_refreshed (s : State) (b : Nat) : Refreshed s (s.askRefresh b) := by
  unfold State.askRefresh
  split
  · exact (Rewritten.refl s).refreshed
  · exact ⟨_, _, Rewritten.refl _⟩

/-- Both that ask for a refresh and those that run leave the bit that was set. -/
theorem sectorRead_corrected_parts (hlow : 24 < n) (hhigh : n ≤ 40) : ((s.sectorRead b n).logs.word 1).getLsbD 6 = true
    ∧ (s.sectorRead b n).mem = s.mem ∧ (s.sectorRead b n).img = s.img ∧ (s.sectorRead b n).store.patrol = s.store.patrol := by
  obtain ⟨-, -, hbits⟩ := logged_trouble s 1 6 0 9 0xFF ((be 2 b).map (·.toNat)) (by decide) (by decide)
  have hrefreshed := (askRefresh_refreshed (s.trouble 1 6 0 9 0xFF ((be 2 b).map (·.toNat))) b).trans (runRefresh_refreshed _)
  obtain ⟨-, hmem, himg, hpatrol, hlogs⟩ := hrefreshed.parts
  rw [sectorRead_corrected hlow hhigh, hlogs, hmem, himg, hpatrol, hbits 1 6 (by decide)]
  simp

/-- A block that asks alone is the one that is refreshed, as the map stood. -/
theorem sectorRead_corrected_alone (hlow : 24 < n) (hhigh : n ≤ 40) (hnone : s.store.refresh = []) :
    ∃ v : State, s.sectorRead b n = v.refreshOne b ∧ v.store = { s.store with refresh := [b] } ∧ ∀ l, v.openBlock l = s.openBlock l := by
  obtain ⟨c, d, lo, co, ou, h⟩ := trouble_parts s 1 6 0 9 0xFF ((be 2 b).map (·.toNat))
  rw [sectorRead_corrected hlow hhigh, h]
  unfold State.askRefresh
  rw [if_neg (by rw [hnone]; exact Bool.false_ne_true), runRefresh_eq]
  dsimp only
  rw [hnone]
  exact ⟨_, rfl, rfl, fun _ => rfl⟩

theorem refreshOne_moves {sp : Nat} {rest : List Nat} (hask : s.store.refresh = [b]) (hheld : s.store.holds b = some l)
    (hspare : s.store.spares (planeOf b) = sp :: rest) (hclosed : s.openBlock l = false) :
    (s.refreshOne b).store.mainOf l = sp ∧ (s.refreshOne b).store.refresh = [] ∧ (s.refreshOne b).store.refreshes = s.store.refreshes + 1 := by
  have hmain : (s.moveBlock l sp).store.mainOf l = sp := mainOf_of_map (moveBlock_map s l sp) (ne_zero_of_spare (hspare ▸ List.mem_cons_self))
  obtain ⟨_, _, _, _, _, _, hmoved⟩ := moveBlock_rewritten s l sp
  unfold State.refreshOne
  rw [hheld, hspare]
  dsimp only
  rw [if_neg (ne_true_of_eq_false hclosed), hmoved]
  rw [hmoved] at hmain
  exact ⟨hmain, by rw [hask]; simp, rfl⟩

theorem refreshOne_waits (hheld : s.store.holds b = some l) (hwait : s.store.spares (planeOf b) = [] ∨ s.openBlock l = true) : s.refreshOne b = s := by
  unfold State.refreshOne
  rw [hheld]
  rcases hwait with hspare | hopen
  · rw [hspare]
  · cases s.store.spares (planeOf b) with
    | nil => rfl
    | cons sp rest => exact if_pos hopen

theorem holds_of_refresh (t : Store) (l : List Nat) : ({ t with refresh := l } : Store).holds = t.holds := rfl

theorem spares_of_refresh (t : Store) (l : List Nat) : ({ t with refresh := l } : Store).spares = t.spares := rfl

theorem sectorRead_refreshes {sp : Nat} {rest : List Nat} (hlow : 24 < n) (hhigh : n ≤ 40) (hnone : s.store.refresh = []) (hheld : s.store.holds b = some l)
    (hspare : s.store.spares (planeOf b) = sp :: rest) (hclosed : s.openBlock l = false) :
    (s.sectorRead b n).store.mainOf l = sp ∧ (s.sectorRead b n).store.refresh = [] ∧ (s.sectorRead b n).store.refreshes = s.store.refreshes + 1 := by
  obtain ⟨v, heq, hstore, hopen⟩ := sectorRead_corrected_alone (b := b) hlow hhigh hnone
  obtain ⟨hmain, hrefresh, hdone⟩ := refreshOne_moves (s := v) (b := b) (l := l) (sp := sp) (rest := rest) (by rw [hstore]) (by rwa [hstore, holds_of_refresh])
    (by rwa [hstore, spares_of_refresh]) (by rwa [hopen])
  rw [heq]
  exact ⟨hmain, hrefresh, by rw [hdone, hstore]⟩

theorem sectorRead_waits (hlow : 24 < n) (hhigh : n ≤ 40) (hnone : s.store.refresh = []) (hheld : s.store.holds b = some l)
    (hwait : s.store.spares (planeOf b) = [] ∨ s.openBlock l = true) : (s.sectorRead b n).store.refresh = [b] ∧ (s.sectorRead b n).store.map = s.store.map := by
  obtain ⟨v, heq, hstore, hopen⟩ := sectorRead_corrected_alone (b := b) hlow hhigh hnone
  rw [heq, refreshOne_waits (by rwa [hstore, holds_of_refresh]) (by rwa [hstore, spares_of_refresh, hopen]), hstore]
  exact ⟨rfl, rfl⟩

/-- The event of a sector that stays uncorrectable. -/
def State.sectorLost (s : State) (b : Nat) : State := s.trouble 1 7 0 9 0xFF ((be 2 b).map (·.toNat))

/-- The golden copy of weight data is known to be bad. -/
def State.goldenLost (s : State) : State := { s with mem := { s.mem with goldenBad := true } }.raise 1 19 9

theorem sectorLost_logged (s : State) (b : Nat) : Logged s (s.sectorLost b) [(1, 7)] := logged_trouble _ 1 7 _ _ _ _ (by decide) (by decide)

theorem goldenLost_logged (s : State) : Logged { s with mem := { s.mem with goldenBad := true } } s.goldenLost [(1, 19)] :=
  logged_raise _ 1 19 9 (by decide) (by decide)

section
variable (hlost : 40 < n)
include hlost

theorem sectorRead_lost_empty (hheld : s.store.holds b = none) : s.sectorRead b n = s.sectorLost b := by
  unfold State.sectorRead
  rw [if_neg (by omega), if_neg (by omega)]
  dsimp only
  rw [State.trouble_store, hheld]
  rfl

/-- Of a block of the slot in force, the golden copy is bad. -/
theorem sectorRead_lost_golden {a : Nat} (hheld : s.store.holds b = some l) (hactive : s.img.active = some a) (hslot : inSlot a l = true) :
    s.sectorRead b n = (s.sectorLost b).goldenLost := by
  unfold State.sectorRead
  rw [if_neg (by omega), if_neg (by omega)]
  have hheld' : (s.trouble 1 7 0 9 0xFF ((be 2 b).map (·.toNat))).store.holds b = some l := by rwa [State.trouble_store]
  have hactive' : (s.trouble 1 7 0 9 0xFF ((be 2 b).map (·.toNat))).img.active = some a := by rwa [State.trouble_img]
  dsimp only
  rw [hheld', hactive']
  dsimp only
  rw [if_pos hslot]
  rfl

theorem sectorRead_lost_cases : s.sectorRead b n = s.sectorLost b ∨ s.sectorRead b n = (s.sectorLost b).goldenLost ∨ s.sectorRead b n = (s.sectorLost b).swapFails := by
  unfold State.sectorRead
  rw [if_neg (by omega), if_neg (by omega)]
  unfold State.sectorLost
  generalize s.trouble 1 7 0 9 0xFF ((be 2 b).map (·.toNat)) = v
  dsimp only
  cases v.store.holds b with
  | none => exact .inl rfl
  | some l =>
    dsimp only
    exact (ite_eq_or_eq _ _ _).elim (fun h => .inr (.inl h)) fun h => (ite_eq_or_eq _ _ _).elim (fun h' => .inr (.inr (h.trans h'))) fun h' => .inl (h.trans h')

end

theorem swapFails_parts (s : State) : s.swapFails.store = s.store ∧ s.swapFails.logs = s.logs := by
  unfold State.swapFails
  split
  · exact ⟨rfl, rfl⟩
  · dsimp only
    generalize hwho : State.complete _ _ _ _ _ _ _ = t
    obtain ⟨co, ou, h⟩ := complete_eq _ _ _ _ _ _ _
    rw [h] at hwho
    rw [← hwho]
    exact ⟨rfl, rfl⟩

theorem sectorRead_lost_parts (hlost : 40 < n) : ((s.sectorRead b n).logs.word 1).getLsbD 7 = true ∧ (s.sectorRead b n).store = s.store := by
  obtain ⟨-, -, hbits⟩ := id (sectorLost_logged s b)
  have hbit : ((s.sectorLost b).logs.word 1).getLsbD 7 = true := by
    rw [hbits 1 7 (by decide)]
    simp
  have hstore : (s.sectorLost b).store = s.store := State.trouble_store ..
  rcases sectorRead_lost_cases (s := s) (b := b) hlost with h | h | h
  · rw [h]
    exact ⟨hbit, hstore⟩
  · obtain ⟨-, -, hbits'⟩ := id (goldenLost_logged (s.sectorLost b))
    rw [h]
    exact ⟨by rw [hbits' 1 7 (by decide), hbit, Bool.true_or], ((goldenLost_logged (s.sectorLost b)).part State.store fun _ _ _ _ _ _ => rfl).trans hstore⟩
  · obtain ⟨hstore', hlogs⟩ := swapFails_parts (s.sectorLost b)
    rw [h, hstore', hlogs]
    exact ⟨hbit, hstore⟩

theorem goldenLost_parts (s : State) : s.goldenLost.mem.goldenBad = true ∧ (s.goldenLost.logs.word 1).getLsbD 19 = true := by
  have hlogged := goldenLost_logged s
  obtain ⟨-, -, hbits⟩ := id hlogged
  refine ⟨hlogged.part (·.mem.goldenBad) fun _ _ _ _ _ _ => rfl, ?_⟩
  rw [hbits 1 19 (by decide)]
  simp

section
variable (hup : s.storeUp = true) (hmain : isMain b = true)
include hup hmain

theorem storeRead_goes : ¬ (s.storeUp = false ∨ isMain b = false) := by
  rw [hup, hmain]
  decide

theorem execStoreRead_eq (n : Nat) : exec (.storeRead b n) s = .next (s.wake.sectorRead b n) := if_neg (storeRead_goes hup hmain)

end

/-- A block of the weekly pass is counted. -/
def State.patrolled (s : State) : State :=
  { s with store := if s.store.patrol + 1 = 16375 then { s.store with patrol := 0, lastFull := s.life.now } else { s.store with patrol := s.store.patrol + 1 } }

theorem execStorePatrolRead_eq (hup : s.storeUp = true) (hmain : isMain b = true) (n : Nat) :
    exec (.storePatrolRead b n) s = .next (s.wake.sectorRead b n).patrolled := if_neg (storeRead_goes hup hmain)

theorem patrolled_patrol (s : State) : s.patrolled.store.patrol = if s.store.patrol + 1 = 16375 then 0 else s.store.patrol + 1 := by
  unfold State.patrolled
  dsimp only
  split <;> rfl

theorem wake_now (s : State) : s.wake.life.now = s.life.now := by
  unfold State.wake
  split <;> rfl

theorem wake_openBlock (s : State) (l : Nat) : s.wake.openBlock l = s.openBlock l := by
  obtain ⟨life, plls, doms, hw⟩ := wake_parts s
  rw [hw]
  rfl

/-! ## The obligation -/

theorem storeProgramDone_takesEffect (hup : s.storeUp = true) (hmain : isMain b = true) :
    ((Tab.get {} s.store.pages b).full = true → ∀ ok, exec (.storeProgramDone b ok) s = .next s)
    ∧ ((Tab.get {} s.store.pages b).full = false → ∃ t, exec (.storeProgramDone b true) s = .next t
      ∧ (Tab.get {} t.store.pages b).count = (Tab.get {} s.store.pages b).count + 1
      ∧ (∀ k, k ≠ b → Tab.get {} t.store.pages k = Tab.get {} s.store.pages k) ∧ { t with store := { t.store with pages := s.store.pages } } = s.wake)
    ∧ ((Tab.get {} s.store.pages b).full = false → s.store.retired.contains b = false → ∃ t, exec (.storeProgramDone b false) s = .next t
      ∧ (t.logs.word 1).getLsbD 8 = true ∧ b ∈ t.store.retired ∧ t.mem = s.mem ∧ t.hist = s.hist
      ∧ (∀ l sp rest, s.store.holds b = some l → s.store.spares (planeOf b) = sp :: rest → t.store.mainOf l = sp ∧ t.img = s.img)
      ∧ (s.store.holds b = none → t.store.map = s.store.map ∧ t.img = s.img)) := by
  obtain ⟨-, -, himg, hstore, -⟩ := wake_rest s
  refine ⟨fun hfull ok => if_pos (.inr (.inr hfull)), fun hroom => ?_, fun hroom hin => ?_⟩
  · obtain ⟨oneBit, hexec⟩ := execStoreProgramDone_verified hup hmain hroom
    exact ⟨_, hexec, pageStands_page s b oneBit⟩
  · obtain ⟨hbit, hretired, hmem, hhist⟩ := wake_blockFails hin
    have hin' : s.wake.store.retired.contains b = false := by rwa [hstore]
    refine ⟨_, execStoreProgramDone_failed hup hmain hroom, hbit, hretired, hmem, hhist, fun l sp rest hheld hspare => ?_, fun hheld => ?_⟩
    · obtain ⟨hmoved, himg'⟩ := blockFails_to_spare hin' (hstore ▸ hheld) (hstore ▸ hspare)
      exact ⟨hmoved, himg'.trans himg⟩
    · obtain ⟨hmap, himg'⟩ := blockFails_of_empty hin' (hstore ▸ hheld)
      exact ⟨hmap.trans (congrArg Store.map hstore), himg'.trans himg⟩

theorem storeRead_corrected (hup : s.storeUp = true) (hmain : isMain b = true) (hlow : 24 < n) (hhigh : n ≤ 40) : ∃ t, exec (.storeRead b n) s = .next t
    ∧ (t.logs.word 1).getLsbD 6 = true ∧ t.mem = s.mem ∧ t.img = s.img
    ∧ (∀ l sp rest, s.store.refresh = [] → s.store.holds b = some l → s.store.spares (planeOf b) = sp :: rest → s.openBlock l = false →
        t.store.mainOf l = sp ∧ t.store.refresh = [] ∧ t.store.refreshes = s.store.refreshes + 1)
    ∧ (∀ l, s.store.refresh = [] → s.store.holds b = some l → (s.store.spares (planeOf b) = [] ∨ s.openBlock l = true) →
        t.store.refresh = [b] ∧ t.store.map = s.store.map) := by
  obtain ⟨hmem, -, himg, hstore, -⟩ := wake_rest s
  obtain ⟨hbit, hmem', himg', -⟩ := sectorRead_corrected_parts (s := s.wake) (b := b) hlow hhigh
  refine ⟨_, execStoreRead_eq hup hmain n, hbit, hmem'.trans hmem, himg'.trans himg, fun l sp rest hnone hheld hspare hclosed => ?_, fun l hnone hheld hwait => ?_⟩
  · have hmoved := sectorRead_refreshes (s := s.wake) hlow hhigh (by rwa [hstore]) (hstore ▸ hheld) (hstore ▸ hspare) (by rwa [wake_openBlock])
    rwa [hstore] at hmoved
  · have hwaits := sectorRead_waits (s := s.wake) hlow hhigh (by rwa [hstore]) (hstore ▸ hheld) (by rwa [hstore, wake_openBlock])
    rwa [hstore] at hwaits

theorem storeRead_lost (hup : s.storeUp = true) (hmain : isMain b = true) (hlost : 40 < n) : ∃ t, exec (.storeRead b n) s = .next t
    ∧ (t.logs.word 1).getLsbD 7 = true ∧ (s.img.swap = none → t.store = s.store)
    ∧ (∀ l a, s.store.holds b = some l → s.img.active = some a → inSlot a l = true → t.mem.goldenBad = true ∧ (t.logs.word 1).getLsbD 19 = true)
    ∧ (s.store.holds b = none → Logged s.wake t [(1, 7)]) := by
  obtain ⟨-, -, himg, hstore, -⟩ := wake_rest s
  obtain ⟨hbit, hstore'⟩ := sectorRead_lost_parts (s := s.wake) (b := b) hlost
  refine ⟨_, execStoreRead_eq hup hmain n, hbit, fun _ => hstore'.trans hstore, fun l a hheld hactive hslot => ?_, fun hheld => ?_⟩
  · rw [sectorRead_lost_golden hlost (hstore ▸ hheld) (himg ▸ hactive) hslot]
    exact goldenLost_parts _
  · rw [sectorRead_lost_empty hlost (hstore ▸ hheld)]
    exact sectorLost_logged ..

theorem storePatrolRead_counts (hup : s.storeUp = true) (hmain : isMain b = true) (hlow : 24 < n) : ∃ t, exec (.storePatrolRead b n) s = .next t
    ∧ t.store.patrol = (if s.store.patrol + 1 = 16375 then 0 else s.store.patrol + 1) ∧ (t.logs.word 1).getLsbD (if n ≤ 40 then 6 else 7) = true := by
  obtain ⟨-, -, -, hstore, -⟩ := wake_rest s
  have hread : (s.wake.sectorRead b n).store.patrol = s.store.patrol ∧ ((s.wake.sectorRead b n).logs.word 1).getLsbD (if n ≤ 40 then 6 else 7) = true := by
    by_cases hhigh : n ≤ 40
    · obtain ⟨hbit, -, -, hpatrol⟩ := sectorRead_corrected_parts (s := s.wake) (b := b) hlow hhigh
      rw [if_pos hhigh]
      exact ⟨hpatrol.trans (congrArg Store.patrol hstore), hbit⟩
    · obtain ⟨hbit, hstore'⟩ := sectorRead_lost_parts (s := s.wake) (b := b) (Nat.lt_of_not_le hhigh)
      rw [if_neg hhigh]
      exact ⟨congrArg Store.patrol (hstore'.trans hstore), hbit⟩
  obtain ⟨hpatrol, hbit⟩ := hread
  exact ⟨_, execStorePatrolRead_eq hup hmain n, by rw [patrolled_patrol, hpatrol], hbit⟩

theorem storePatrolRead_good (hup : s.storeUp = true) (hmain : isMain b = true) (hn : n ≤ 24) : exec (.storePatrolRead b n) s = .next { s.wake with
    store := if s.store.patrol + 1 = 16375 then { s.store with patrol := 0, lastFull := s.life.now } else { s.store with patrol := s.store.patrol + 1 } } := by
  rw [execStorePatrolRead_eq hup hmain, sectorRead_good hn, State.patrolled, wake_store, wake_now]

/-- Settles O56: a program or erase by whether it verifies, a read by its bit errors. That a program of a full block does nothing and the
lowest spare is taken is the model's choice (entries 53 and 54 of the assumption log). -/
theorem storeOperationsTakeEffect : Obligations.StoreOperationsTakeEffect := by
  refine ⟨fun s b hup hmain => storeProgramDone_takesEffect hup hmain, fun s unit phys n hup hopen => ⟨fun hunit => eraseDone_unit hup hopen hunit n,
      fun hunit => eraseDone_main hup hopen hunit n, fun hunit hin => ?_, fun hunit => ?_⟩,
    fun s b n hup hmain => ⟨fun hn => ?_, fun hlow hhigh => storeRead_corrected hup hmain hlow hhigh, fun hlost => storeRead_lost hup hmain hlost,
      fun hn hmore => ?_, fun hn hlast => ?_, fun hlow => storePatrolRead_counts hup hmain hlow⟩⟩
  · obtain ⟨hbit, hretired, hmem, -⟩ := wake_blockFails hin
    exact ⟨_, (execStoreEraseDone_eq hup hopen false n).trans ((if_neg Bool.false_ne_true).trans (if_pos hunit)), hbit, hretired, hmem⟩
  · exact ⟨_, (execStoreEraseDone_eq hup hopen false n).trans ((if_neg Bool.false_ne_true).trans (if_neg hunit)), logged_trouble _ 1 8 _ _ _ _ (by decide) (by decide)⟩
  · rw [execStoreRead_eq hup hmain, sectorRead_good hn]
  · rw [storePatrolRead_good hup hmain hn, if_neg hmore]
  · rw [storePatrolRead_good hup hmain hn, if_pos hlast]

end Sys2Proof.Machine
end

section
/-! CONFIG_CHECKPOINT_TIMER and CHECKPOINT_STORED (R424, R442, R473, R507). -/

namespace Sys2Proof.Machine

open Sys2Proof

variable {s t u : State} {c : Ckpt}

/-! ## Every session ends -/

/-- What the end of a session leaves as it was (R401). -/
def SessionsRest (s t : State) : Prop :=
  { t with comms := s.comms, out := s.out, sync := s.sync, ckpt := s.ckpt, ctxs := s.ctxs, img := s.img, upk := s.upk } = s

theorem SessionsRest.trans (hst : SessionsRest s t) (htu : SessionsRest t u) : SessionsRest s u := by
  unfold SessionsRest at *
  rw [← htu] at hst
  exact hst

/-- Sessions ended one after the other: those of the list are gone, and the others stand. -/
theorem each_endSession (l : List Nat) (s : State) (cause : Nat) : (∀ n, (s.each l (fun v k => v.endSession k cause)).sess n = if n ∈ l then none else s.sess n)
    ∧ SessionsRest s (s.each l (fun v k => v.endSession k cause)) := by
  induction l generalizing s with
  | nil => exact ⟨fun n => rfl, rfl⟩
  | cons k l ih =>
    obtain ⟨hends, hothers, hrest⟩ := endSession_ends s k cause
    obtain ⟨hsess, hrest'⟩ := ih (s.endSession k cause)
    refine ⟨fun n => (hsess n).trans ?_, SessionsRest.trans hrest hrest'⟩
    by_cases hn : n = k
    · rw [hn, hends, if_pos List.mem_cons_self, ite_self]
    · rw [hothers n hn]
      exact if_congr (by simp [hn]) rfl rfl

theorem mem_sids_of_sess {n : Nat} (h : s.sess n ≠ none) : n ∈ s.sids := List.mem_map_of_mem (f := Prod.fst) (mem_of_get_ne h)

theorem endSessions_ends (s : State) (cause : Nat) : (∀ n, (s.endSessions cause).sess n = none) ∧ SessionsRest s (s.endSessions cause) := by
  obtain ⟨hsess, hrest⟩ := each_endSession s.sids s cause
  refine ⟨fun n => (hsess n).trans ?_, hrest⟩
  split
  · rfl
  · next hout => exact not_not.mp fun h => hout (mem_sids_of_sess h)

/-- Where nobody waits for a checkpoint, the end of a session leaves the checkpoint state as it was. -/
theorem endSession_ckpt (hasked : s.ckpt.asked = []) (sid cause : Nat) : (s.endSession sid cause).ckpt = s.ckpt := by
  unfold State.endSession
  split
  · rfl
  · have hnotified : (if cause = 0 then s else s.notify sid 0x00C0 0xFFFF .ok cause []).ckpt = s.ckpt := by
      split
      · rfl
      · exact State.notify_ckpt ..
    obtain ⟨sync, hdrop⟩ := dropThresholds_eq (if cause = 0 then s else s.notify sid 0x00C0 0xFFFF .ok cause []) sid
    dsimp only
    rw [hdrop]
    unfold State.forget State.setSess
    dsimp only
    rw [hnotified, hasked]
    exact congrArg (fun a => { s.ckpt with asked := a }) hasked.symm

theorem endSessions_ckpt (hasked : s.ckpt.asked = []) (cause : Nat) : (s.endSessions cause).ckpt = s.ckpt := by
  unfold State.endSessions
  generalize s.sids = l
  induction l generalizing s with
  | nil => rfl
  | cons k l ih =>
    have hckpt := endSession_ckpt hasked k cause
    exact (ih (by rw [hckpt, hasked])).trans hckpt

/-! ## The write of a checkpoint ends -/

/-- The completions of a checkpoint: the state but for the sessions and what leaves the module. -/
theorem completeAll_eq (asked : List (Nat × Nat)) (st : Status) (s : State) :
    ∃ co ou, asked.foldl (fun s a => s.complete (some a) 0x0A06 0xFFFF st 0 []) s = { s with comms := co, out := ou } := by
  induction asked generalizing s with
  | nil => exact ⟨_, _, rfl⟩
  | cons a asked ih =>
    obtain ⟨co, ou, h⟩ := complete_eq s (some a) 0x0A06 0xFFFF st 0 []
    obtain ⟨co', ou', h'⟩ := ih (s.complete (some a) 0x0A06 0xFFFF st 0 [])
    exact ⟨co', ou', h'.trans (by rw [h])⟩

/-- A staged checkpoint in force, with the upkeep tables (R188). -/
def State.ckptEntered (s : State) (c : Ckpt) (store : Store) (upk : Upkeep) : State :=
  { s with
    ckpt := { s.ckpt with staging := none, inForce := some c, set := 1 - s.ckpt.set }
    life := { s.life with storedStamp := max s.life.storedStamp c.stamp }
    store := store
    upk := upk }

theorem endCkpt_stored (s : State) (c : Ckpt) : ∃ store upk, s.endCkpt c true = s.ckptEntered c store upk := ⟨_, _, rfl⟩

/-- A write that failed. -/
def State.ckptFailed (s : State) : State := { s with ckpt := { s.ckpt with staging := none } }.raise 2 15 9

/-- A commanded restart begins: every session ends and the module halts. -/
def State.haltFor (s : State) (k : RestartKind) : State :=
  { s.endSessions 5 with ckpt := { (s.endSessions 5).ckpt with restart := none }, life := { (s.endSessions 5).life with phase := .halted, due := some k } }

/-- The commanded restart, where there is one. -/
def State.restartNow (s : State) : State :=
  match s.ckpt.restart with
  | none => s
  | some k => s.haltFor k

/-- What follows the end of a write with `s` as it is then: a later checkpoint, or the completions and a commanded restart. -/
def State.afterCkpt (s : State) (asked : List (Nat × Nat)) (st : Status) : State :=
  if s.ckpt.due then (if s.watchRuns then s else s.takeCkpt)
  else (asked.foldl (fun (s : State) a => s.complete (some a) 0x0A06 0xFFFF st 0 []) { s with ckpt := { s.ckpt with asked := [] } }).restartNow

theorem execCheckpointStored_staged (hstaged : s.ckpt.staging = some c) (stored : Bool) :
    exec (.checkpointStored stored) s = .next ((s.endCkpt c stored).afterCkpt s.ckpt.asked (if stored then .ok else .storeFail)) := by
  change execCheckpointStored stored s = _
  unfold execCheckpointStored State.afterCkpt State.restartNow
  rw [hstaged]
  dsimp only
  split
  · rfl
  · generalize List.foldl _ _ s.ckpt.asked = v
    cases v.ckpt.restart <;> rfl

theorem takeCkpt_eq (s : State) : ∃ staging due timer, s.takeCkpt = { s with ckpt := { s.ckpt with staging := staging, due := due, timer := timer } } := by
  unfold State.takeCkpt
  split <;> exact ⟨_, _, _, rfl⟩

/-- A later checkpoint that is due leaves everything else for it. -/
theorem afterCkpt_due (hdue : s.ckpt.due = true) (asked : List (Nat × Nat)) (st : Status) :
    ∃ staging due timer, s.afterCkpt asked st = { s with ckpt := { s.ckpt with staging := staging, due := due, timer := timer } } := by
  unfold State.afterCkpt
  rw [if_pos hdue]
  split
  · exact ⟨_, _, _, rfl⟩
  · exact takeCkpt_eq s

theorem afterCkpt_done (hdue : s.ckpt.due = false) (hrestart : s.ckpt.restart = none) (asked : List (Nat × Nat)) (st : Status) :
    ∃ co ou, s.afterCkpt asked st = { s with ckpt := { s.ckpt with asked := [] }, comms := co, out := ou } := by
  obtain ⟨co, ou, h⟩ := completeAll_eq asked st { s with ckpt := { s.ckpt with asked := [] } }
  unfold State.afterCkpt State.restartNow
  rw [if_neg (ne_true_of_eq_false hdue), h, hrestart]
  exact ⟨co, ou, rfl⟩

theorem haltFor_ends (hasked : s.ckpt.asked = []) (k : RestartKind) : (∀ n, (s.haltFor k).sess n = none)
    ∧ SessionsRest { s with life := { s.life with phase := .halted, due := some k } } (s.haltFor k) ∧ (s.haltFor k).ckpt = { s.ckpt with restart := none } := by
  obtain ⟨hsess, hrest⟩ := endSessions_ends s 5
  refine ⟨hsess, ?_, congrArg (fun c : Ckpts => { c with restart := none }) (endSessions_ckpt hasked 5)⟩
  exact (congrArg (fun v : State => { v with life := { v.life with phase := .halted, due := some k } }) hrest :)

theorem afterCkpt_restart {k : RestartKind} (hdue : s.ckpt.due = false) (hrestart : s.ckpt.restart = some k) (asked : List (Nat × Nat)) (st : Status) :
    (∀ n, (s.afterCkpt asked st).sess n = none)
      ∧ SessionsRest { s with life := { s.life with phase := .halted, due := some k } } (s.afterCkpt asked st)
      ∧ (s.afterCkpt asked st).ckpt = { s.ckpt with asked := [], restart := none } := by
  obtain ⟨co, ou, h⟩ := completeAll_eq asked st { s with ckpt := { s.ckpt with asked := [] } }
  have hafter : s.afterCkpt asked st = State.haltFor { s with ckpt := { s.ckpt with asked := [] }, comms := co, out := ou } k := by
    unfold State.afterCkpt State.restartNow
    rw [if_neg (ne_true_of_eq_false hdue), h, hrestart]
  rw [hafter]
  obtain ⟨hsess, hrest, hckpt⟩ := haltFor_ends (s := { s with ckpt := { s.ckpt with asked := [] }, comms := co, out := ou }) rfl k
  exact ⟨hsess, (congrArg (fun v : State => { v with comms := s.comms, out := s.out, ckpt := s.ckpt }) hrest :), hckpt⟩

/-! ## The obligation -/

theorem configCheckpointTimer_takesEffect (htimer : s.ckpt.timer = true) :
    (s.watchRuns = true → exec .configCheckpointTimer s = .next { s with ckpt := { s.ckpt with due := true } })
    ∧ (s.watchRuns = false → s.statePoisoned 0 = false → s.ckpt.staging = none →
        exec .configCheckpointTimer s = .next { s with ckpt := { s.ckpt with staging := some s.ckptNow, due := false, timer := false } })
    ∧ (s.watchRuns = false → (s.statePoisoned 0 = true ∨ s.ckpt.staging.isSome = true) → exec .configCheckpointTimer s = .next { s with ckpt := { s.ckpt with due := true } }) := by
  have hexec : exec .configCheckpointTimer s = .next s.askCkpt := if_pos htimer
  rw [hexec, State.askCkpt]
  refine ⟨fun hruns => by rw [if_pos hruns], fun hidle hclean hfree => ?_, fun hidle hkept => ?_⟩
  · rw [if_neg (ne_true_of_eq_false hidle), State.takeCkpt, if_neg (by simp [hclean, hfree])]
  · rw [if_neg (ne_true_of_eq_false hidle), State.takeCkpt, if_pos hkept]

/-- What a checkpoint's end leaves as it was, whatever follows it. -/
def State.ledger (s : State) : Memory × History × Options × Trust × List ResultRec × Logs := (s.mem, s.hist, s.opt, s.trust, s.results, s.logs)

theorem SessionsRest.ledger (h : SessionsRest s t) : t.ledger = s.ledger := by
  unfold SessionsRest at h
  exact (congrArg State.ledger h :)

theorem SessionsRest.life (h : SessionsRest s t) : t.life = s.life := by
  unfold SessionsRest at h
  exact (congrArg State.life h :)

theorem parts_of_ledger (h : t.ledger = s.ledger) : t.mem = s.mem ∧ t.hist = s.hist ∧ t.opt = s.opt ∧ t.trust = s.trust ∧ t.results = s.results ∧ t.logs = s.logs := by
  simpa only [State.ledger, Prod.mk.injEq] using h

/-- What the end of the write leaves in force stays so, whatever follows. -/
theorem afterCkpt_keeps (s : State) (asked : List (Nat × Nat)) (st : Status) : (s.afterCkpt asked st).ckpt.inForce = s.ckpt.inForce
    ∧ (s.afterCkpt asked st).ckpt.set = s.ckpt.set ∧ (s.afterCkpt asked st).life.storedStamp = s.life.storedStamp ∧ (s.afterCkpt asked st).ledger = s.ledger := by
  cases hdue : s.ckpt.due with
  | true =>
    obtain ⟨staging, due, timer, h⟩ := afterCkpt_due hdue asked st
    rw [h]
    exact ⟨rfl, rfl, rfl, rfl⟩
  | false =>
    cases hrestart : s.ckpt.restart with
    | none =>
      obtain ⟨co, ou, h⟩ := afterCkpt_done hdue hrestart asked st
      rw [h]
      exact ⟨rfl, rfl, rfl, rfl⟩
    | some k =>
      obtain ⟨-, hrest, hckpt⟩ := afterCkpt_restart hdue hrestart asked st
      rw [hckpt, hrest.life, hrest.ledger]
      exact ⟨rfl, rfl, rfl, rfl⟩

/-- With no later checkpoint due nothing is owed any more. -/
theorem afterCkpt_settles (hdue : s.ckpt.due = false) (asked : List (Nat × Nat)) (st : Status) :
    (s.afterCkpt asked st).ckpt = { s.ckpt with asked := [], restart := none } := by
  cases hrestart : s.ckpt.restart with
  | none =>
    obtain ⟨co, ou, h⟩ := afterCkpt_done hdue hrestart asked st
    rw [h, ← hrestart]
  | some k =>
    obtain ⟨-, -, hckpt⟩ := afterCkpt_restart hdue hrestart asked st
    exact hckpt

theorem checkpointStored_inForce (hstaged : s.ckpt.staging = some c) : ∃ t, exec (.checkpointStored true) s = .next t
    ∧ t.ckpt.inForce = some c ∧ t.ckpt.set = 1 - s.ckpt.set ∧ t.life.storedStamp = max s.life.storedStamp c.stamp
    ∧ (s.ckpt.due = false → t.ckpt.staging = none ∧ t.ckpt.asked = [] ∧ t.ckpt.restart = none)
    ∧ (∀ k, s.ckpt.due = false → s.ckpt.restart = some k → t.life.phase = .halted ∧ t.life.due = some k ∧ ∀ n, t.sess n = none)
    ∧ (s.ckpt.due = false → s.ckpt.restart = none → t.life.phase = s.life.phase)
    ∧ t.mem = s.mem ∧ t.hist = s.hist ∧ t.opt = s.opt ∧ t.trust = s.trust ∧ t.results = s.results ∧ t.logs = s.logs := by
  obtain ⟨store, upk, hend⟩ := endCkpt_stored s c
  obtain ⟨hforce, hset, hstamp, hledger⟩ := afterCkpt_keeps (s.ckptEntered c store upk) s.ckpt.asked .ok
  refine ⟨_, (execCheckpointStored_staged hstaged true).trans (hend ▸ rfl), hforce, hset, hstamp, fun hdue => ?_, fun k hdue hrestart => ?_, fun hdue hrestart => ?_,
    parts_of_ledger hledger⟩
  · rw [afterCkpt_settles (s := s.ckptEntered c store upk) hdue]
    exact ⟨rfl, rfl, rfl⟩
  · obtain ⟨hsess, hrest, -⟩ := afterCkpt_restart (s := s.ckptEntered c store upk) hdue hrestart s.ckpt.asked .ok
    exact ⟨congrArg Life.phase hrest.life, congrArg Life.due hrest.life, hsess⟩
  · obtain ⟨co, ou, h⟩ := afterCkpt_done (s := s.ckptEntered c store upk) hdue hrestart s.ckpt.asked .ok
    rw [h]
    rfl

theorem checkpointStored_failed (hstaged : s.ckpt.staging = some c) (hdue : s.ckpt.due = false) : ∃ t, exec (.checkpointStored false) s = .next t
    ∧ t.ckpt.inForce = s.ckpt.inForce ∧ t.ckpt.set = s.ckpt.set ∧ t.ckpt.staging = none ∧ t.ckpt.asked = [] ∧ (t.logs.word 2).getLsbD 15 = true
    ∧ t.mem = s.mem ∧ t.hist = s.hist ∧ t.opt = s.opt ∧ t.trust = s.trust ∧ t.results = s.results := by
  have hexec : exec (.checkpointStored false) s = .next (s.ckptFailed.afterCkpt s.ckpt.asked .storeFail) := execCheckpointStored_staged hstaged false
  have hlogged : Logged { s with ckpt := { s.ckpt with staging := none } } s.ckptFailed [(2, 15)] := logged_raise _ 2 15 9 (by decide) (by decide)
  obtain ⟨-, -, hbits⟩ := id hlogged
  have hckpt : s.ckptFailed.ckpt = { s.ckpt with staging := none } := hlogged.part State.ckpt fun _ _ _ _ _ _ => rfl
  obtain ⟨-, -, -, hledger⟩ := afterCkpt_keeps s.ckptFailed s.ckpt.asked .storeFail
  obtain ⟨hmem, hhist, hopt, htrust, hresults, hlogs⟩ := parts_of_ledger hledger
  have hsettled := afterCkpt_settles (s := s.ckptFailed) (by rw [hckpt]; exact hdue) s.ckpt.asked .storeFail
  refine ⟨_, hexec, by rw [hsettled, hckpt], by rw [hsettled, hckpt], by rw [hsettled, hckpt], by rw [hsettled], ?_,
    hmem.trans (hlogged.part State.mem fun _ _ _ _ _ _ => rfl), hhist.trans (hlogged.part State.hist fun _ _ _ _ _ _ => rfl),
    hopt.trans (hlogged.part State.opt fun _ _ _ _ _ _ => rfl), htrust.trans (hlogged.part State.trust fun _ _ _ _ _ _ => rfl),
    hresults.trans (hlogged.part State.results fun _ _ _ _ _ _ => rfl)⟩
  rw [hlogs, hbits 2 15 (by decide)]
  simp

/-- Settles O32: the timer by whether the watch context runs, the end of a write by what follows it. -/
theorem checkpointsAreStored : Obligations.CheckpointsAreStored :=
  ⟨fun _ htimer => configCheckpointTimer_takesEffect htimer, fun _ _ hstaged => checkpointStored_inForce hstaged,
    fun _ _ hstaged hdue => checkpointStored_failed hstaged hdue⟩

end Sys2Proof.Machine
end

section
/-! ANCHOR_ADD, ANCHOR_REMOVE, DENY_ADD, FW_BEGIN, FW_END, FIRMWARE_VALIDATION_DONE and FW_ACTIVATE (R407, R493, R500 to R504). -/

namespace Sys2Proof.Machine

open Sys2Proof

variable {s t v : State} {sid n : Nat} {x : Session} {p : Packet}

/-! ## Sessions that a test picks end -/

/-- Session `k` ends where the test picks it. -/
def State.endPicked (cause : Nat) (pick : Session → Bool) (s : State) (k : Nat) : State :=
  match s.sess k with
  | some x => if pick x then s.endSession k cause else s
  | none => s

theorem endWhere_eq (s : State) (cause : Nat) (pick : Session → Bool) : s.endWhere cause pick = s.each s.sids (State.endPicked cause pick) := rfl

theorem endPicked_ends (s : State) (cause : Nat) (pick : Session → Bool) (k : Nat) :
    (s.endPicked cause pick k).sess k = (s.sess k).filter (fun x => !pick x) ∧ (∀ n, n ≠ k → (s.endPicked cause pick k).sess n = s.sess n)
      ∧ SessionsRest s (s.endPicked cause pick k) := by
  unfold State.endPicked
  split
  · next x hx =>
    split
    · next hpick =>
      obtain ⟨hends, hothers, hrest⟩ := endSession_ends s k cause
      exact ⟨by rw [hends, hx]; simp [Option.filter, hpick], hothers, hrest⟩
    · next hpick => exact ⟨by rw [hx]; simp [Option.filter, hpick], fun _ _ => rfl, rfl⟩
  · next hx => exact ⟨by rw [hx]; rfl, fun _ _ => rfl, rfl⟩

theorem each_endPicked (l : List Nat) (s : State) (cause : Nat) (pick : Session → Bool) :
    (∀ n, (s.each l (State.endPicked cause pick)).sess n = if n ∈ l then (s.sess n).filter (fun x => !pick x) else s.sess n)
      ∧ SessionsRest s (s.each l (State.endPicked cause pick)) := by
  induction l generalizing s with
  | nil => exact ⟨fun _ => rfl, rfl⟩
  | cons k l ih =>
    obtain ⟨hends, hothers, hrest⟩ := endPicked_ends s cause pick k
    obtain ⟨hsess, hrest'⟩ := ih (s.endPicked cause pick k)
    refine ⟨fun n => (hsess n).trans ?_, SessionsRest.trans hrest hrest'⟩
    by_cases hn : n = k
    · rw [hn, hends, if_pos List.mem_cons_self, Option.filter_filter]
      simp
    · rw [hothers n hn]
      exact if_congr (by simp [hn]) rfl rfl

/-- No session that the test picks is left, and nothing else of the module has changed. -/
theorem endWhere_ends (s : State) (cause : Nat) (pick : Session → Bool) :
    (∀ n y, (s.endWhere cause pick).sess n = some y → pick y = false) ∧ SessionsRest s (s.endWhere cause pick) := by
  obtain ⟨hsess, hrest⟩ := each_endPicked s.sids s cause pick
  refine ⟨fun n y hy => ?_, hrest⟩
  rw [endWhere_eq, hsess] at hy
  split at hy
  · simpa using (Option.filter_eq_some_iff.mp hy).2
  · next hout =>
    have hnone : s.sess n = none := not_not.mp fun h => hout (mem_sids_of_sess h)
    rw [hnone] at hy
    exact absurd hy (by simp)

/-! ## ANCHOR_ADD, R502 -/

theorem mem_insertAnchor (a b : Anchor) (l : List Anchor) : b ∈ insertAnchor a l ↔ b = a ∨ b ∈ l := by
  induction l with
  | nil => simp [insertAnchor]
  | cons c l ih =>
    unfold insertAnchor
    split
    · simp only [List.mem_cons, ih]
      tauto
    · simp

/-- The anchor that ANCHOR_ADD makes. -/
def Trust.newAnchor (t : Trust) (p : Packet) (cert : List Byte) : Anchor :=
  { index := t.freeIndex, kind := p.num 1, role := if p.num 1 = 0 then (p.num? 2).getD 0 else 0, cert := cert }

section
variable {cert : List Byte} (hcert : cert ≠ []) (hkind : p.num 1 ≤ 2) (hrole : (p.num? 2).getD 0 ≤ 3) (hgiven : p.num 1 = 0 → (p.num? 2).isSome = true)
include hcert hkind hrole hgiven

/-- The form of the command is good. -/
theorem anchorAdd_formed : ¬ (2 < p.num 1 ∨ 3 < (p.num? 2).getD 0 ∨ (p.num 1 = 0 ∧ p.num? 2 = none) ∨ cert = []) := by
  rintro (hkind' | hrole' | ⟨hzero, hnone⟩ | hempty)
  · omega
  · omega
  · exact absurd (hgiven hzero) (by simp [hnone])
  · exact hcert hempty

theorem anchorAdd_locked (u : State) (htwo : p.num 1 = 2) (hlock : u.opt.shadow.lock = 1) : u.anchorAdd (p.num 1) (p.num? 2) cert = .error .notPermitted :=
  (if_neg (anchorAdd_formed hcert hkind hrole hgiven)).trans (if_pos ⟨htwo, hlock⟩)

theorem anchorAdd_full (u : State) (hfree : p.num 1 ≠ 2 ∨ u.opt.shadow.lock ≠ 1) (hfull : anchorMax (p.num 1) ≤ (u.trust.ofKind (p.num 1)).length) :
    u.anchorAdd (p.num 1) (p.num? 2) cert = .error .noResource :=
  (if_neg (anchorAdd_formed hcert hkind hrole hgiven)).trans ((if_neg (by tauto)).trans (if_pos hfull))

theorem anchorAdd_adds (u : State) (hfree : p.num 1 ≠ 2 ∨ u.opt.shadow.lock ≠ 1) (hroom : (u.trust.ofKind (p.num 1)).length < anchorMax (p.num 1)) :
    u.anchorAdd (p.num 1) (p.num? 2) cert = .ok (u.trust.freeIndex, u.setTrust { u.trust with anchors := insertAnchor (u.trust.newAnchor p cert) u.trust.anchors }) :=
  (if_neg (anchorAdd_formed hcert hkind hrole hgiven)).trans ((if_neg (by tauto)).trans (if_neg (Nat.not_le.mpr hroom)))

end

/-- A change of the trust area by a command: its parts once the command is answered. -/
theorem setTrust_done {st : Status} {vs : List (List Byte)} {tr : Trust} (h : WriteDone s t sid x p st vs ((s.taken sid p).setTrust tr)) :
    t.trust = tr ∧ t.life.measures = s.life.measures.set 3 tr.digest ∧ { t with comms := s.comms, out := s.out, life := s.life, trust := s.trust } = s := by
  obtain ⟨-, hstate⟩ := id h
  refine ⟨h.part State.trust fun _ _ _ => rfl, h.part (·.life.measures) fun _ _ _ => rfl, ?_⟩
  exact (congrArg (fun v : State => { v with comms := s.comms, out := s.out, life := s.life, trust := s.trust }) hstate :)

theorem anchorAdd_takesEffect (h : Asks s 0x0B04 sid x p) {cert : List Byte} (hv : p.val 3 = some cert) (hcert : cert ≠ []) (hkind : p.num 1 ≤ 2)
    (hrole : (p.num? 2).getD 0 ≤ 3) (hgiven : p.num 1 = 0 → (p.num? 2).isSome = true) (hfree : p.num 1 ≠ 2 ∨ s.opt.shadow.lock ≠ 1)
    (hroom : (s.trust.ofKind (p.num 1)).length < anchorMax (p.num 1)) : ∃ t a, exec (.anchorAdd sid) s = .next t
      ∧ Replied s t sid x (replyOf p .ok 0 [(1, be 1 s.trust.freeIndex)] (s.life.commit + 1))
      ∧ a = { index := s.trust.freeIndex, kind := p.num 1, role := if p.num 1 = 0 then (p.num? 2).getD 0 else 0, cert := cert }
      ∧ t.trust = { s.trust with anchors := insertAnchor a s.trust.anchors } ∧ a ∈ t.trust.anchors ∧ (∀ b, b ∈ s.trust.anchors → b ∈ t.trust.anchors)
      ∧ t.life.measures = s.life.measures.set 3 t.trust.digest ∧ { t with comms := s.comms, out := s.out, life := s.life, trust := s.trust } = s := by
  obtain ⟨t, hexec, hdone⟩ : ∃ t, exec (.anchorAdd sid) s = .next t ∧ WriteDone s t sid x p .ok [be 1 s.trust.freeIndex]
      ((s.taken sid p).setTrust { s.trust with anchors := insertAnchor (s.trust.newAnchor p cert) s.trust.anchors }) := by
    refine ⟨_, rfl, writeDone_of_taken h (by decide) ?_⟩
    have hadds := anchorAdd_adds hcert hkind hrole hgiven (s.taken sid p) hfree hroom
    simp only [hv, Option.getD_some, hadds]
    rfl
  obtain ⟨htrust, hmeasures, hrest⟩ := setTrust_done hdone
  refine ⟨t, s.trust.newAnchor p cert, hexec, hdone.1, rfl, htrust, ?_, fun b hb => ?_, by rw [hmeasures, htrust], hrest⟩
  · rw [htrust]
    exact (mem_insertAnchor ..).mpr (.inl rfl)
  · rw [htrust]
    exact (mem_insertAnchor ..).mpr (.inr hb)

theorem execAnchorAdd_refused (h : Asks s 0x0B04 sid x p) {cert : List Byte} (hv : p.val 3 = some cert) {st : Status} (hst : ¬ st.code < 0x10) (hform : st ≠ .badParam)
    (hadd : ∀ l, (s.askedAt sid p l).anchorAdd (p.num 1) (p.num? 2) cert = .error st) : ∃ t, exec (.anchorAdd sid) s = .next t ∧ Refused s t sid x p st 0 := by
  refine ⟨_, rfl, refused_of_asked h hst fun l => ?_⟩
  simp only [hv, Option.getD_some, hadd]
  cases st with
  | badParam => exact absurd rfl hform
  | _ => rfl

/-! ## ANCHOR_REMOVE, R502, R560 -/

section
variable {index : Nat} {a : Anchor} (hfind : s.trust.anchors.find? (fun a => a.index == index) = some a)
include hfind

theorem anchorRemove_lastImage (hkind : a.kind = 1) (hlast : (s.trust.ofKind 1).length ≤ 1) : s.anchorRemove index = .error .notPermitted := by
  have hfixed : (decide (a.kind = 1) && decide ((s.trust.ofKind 1).length ≤ 1)) = true := by simp [hkind, hlast]
  simp only [State.anchorRemove, hfind, hfixed, Bool.true_or, if_true]

theorem anchorRemove_firmware (hkind : a.kind = 2) (hlock : s.opt.shadow.lock = 1) : s.anchorRemove index = .error .notPermitted := by
  have hfixed : (decide (a.kind = 2) && decide (s.opt.shadow.lock = 1)) = true := by simp [hkind, hlock]
  simp only [State.anchorRemove, hfind, hfixed, Bool.or_true, Bool.true_or, if_true]

/-- What is left once anchor `index` is out: without it, and without the sessions that rest on it. -/
theorem anchorRemove_removes (hfree : (a.kind = 1 ∧ 1 < (s.trust.ofKind 1).length) ∨ (a.kind = 2 ∧ s.opt.shadow.lock ≠ 1) ∨ (a.kind = 0 ∧ a.role ≠ 3)
    ∨ (a.kind = 0 ∧ s.opt.shadow.lock ≠ 1)) : ∃ v, s.anchorRemove index = .ok v
      ∧ SessionsRest (s.setTrust { s.trust with anchors := s.trust.anchors.filter (fun b => b.index != index) }) v
      ∧ ∀ n y, v.sess n = some y → a.kind = 0 → y.anchor ≠ index := by
  have hnotFixed : (decide (a.kind = 1) && decide ((s.trust.ofKind 1).length ≤ 1) || decide (a.kind = 2) && decide (s.opt.shadow.lock = 1)
      || decide (a.kind = 0 ∧ a.role = 3) && decide (s.opt.shadow.lock = 1)
        && decide ((s.trust.anchors.filter (fun b => decide (b.kind = 0 ∧ b.role = 3))).length ≤ 1)) = false := by
    rcases hfree with ⟨hkind, hmore⟩ | ⟨hkind, hlock⟩ | ⟨hkind, hrole⟩ | ⟨hkind, hlock⟩
    · simp [hkind, hmore]
    · simp [hkind, hlock]
    · simp [hkind, hrole]
    · simp [hkind, hlock]
  obtain ⟨hpicked, hrest⟩ := endWhere_ends (s.setTrust { s.trust with anchors := s.trust.anchors.filter (fun b => b.index != index) }) 3 (fun x => x.anchor == index)
  simp only [State.anchorRemove, hfind, hnotFixed, Bool.false_eq_true, if_false]
  by_cases hclient : a.kind = 0
  · rw [if_pos hclient]
    exact ⟨_, rfl, hrest, fun n y hy _ => by simpa using hpicked n y hy⟩
  · rw [if_neg hclient]
    exact ⟨_, rfl, rfl, fun n y _ h => absurd h hclient⟩

end

/-- A change of the trust area with sessions ended by it, once the command is answered. -/
theorem trustChanged (h : AnsweredFrom s v t sid x (replyOf p .ok 0 [] (s.life.commit + 1))) {tr : Trust} (hv : SessionsRest ((s.taken sid p).setTrust tr) v) :
    t.trust = tr ∧ t.life.measures = s.life.measures.set 3 tr.digest ∧ (∀ n, n ≠ sid → t.sess n = v.sess n) ∧ t.opt = s.opt ∧ t.mem = s.mem ∧ t.logs = s.logs := by
  obtain ⟨-, hstate, hothers, -⟩ := h
  obtain ⟨hmem, -, hopt, htrust, -, hlogs⟩ := parts_of_ledger hv.ledger
  exact ⟨(congrArg State.trust hstate).trans htrust, (congrArg (·.life.measures) hstate).trans (congrArg Life.measures hv.life), hothers,
    (congrArg State.opt hstate).trans hopt, (congrArg State.mem hstate).trans hmem, (congrArg State.logs hstate).trans hlogs⟩

theorem anchorRemove_takesEffect (h : Asks s 0x0B05 sid x p) {a : Anchor} (hfind : s.trust.anchors.find? (fun a => a.index == p.num 1) = some a)
    (hfree : (a.kind = 1 ∧ 1 < (s.trust.ofKind 1).length) ∨ (a.kind = 2 ∧ s.opt.shadow.lock ≠ 1) ∨ (a.kind = 0 ∧ a.role ≠ 3)
      ∨ (a.kind = 0 ∧ s.opt.shadow.lock ≠ 1)) : ∃ t, exec (.anchorRemove sid) s = .next t ∧ Replied s t sid x (replyOf p .ok 0 [] (s.life.commit + 1))
      ∧ t.trust = { s.trust with anchors := s.trust.anchors.filter (fun b => b.index != p.num 1) } ∧ t.life.measures = s.life.measures.set 3 t.trust.digest
      ∧ (∀ n y, t.sess n = some y → a.kind = 0 → n ≠ sid → y.anchor ≠ p.num 1) ∧ t.opt = s.opt ∧ t.mem = s.mem ∧ t.logs = s.logs := by
  obtain ⟨v, hremove, hrest, hsess⟩ := anchorRemove_removes (s := s.taken sid p) hfind hfree
  obtain ⟨t, hexec, hdone⟩ : ∃ t, exec (.anchorRemove sid) s = .next t ∧ AnsweredFrom s v t sid x (replyOf p .ok 0 [] (s.life.commit + 1)) := by
    refine ⟨_, rfl, runCmd_done (wr := true) h (by decide) ?_⟩
    have hasked : (s.askedAt sid p (s.askedLife true)).anchorRemove (p.num 1) = .ok v := hremove
    simp only [hasked]
    rfl
  obtain ⟨htrust, hmeasures, hothers, hopt, hmem, hlogs⟩ := trustChanged hdone hrest
  refine ⟨t, hexec, hdone.1, htrust, by rw [hmeasures, htrust], fun n y hy hkind hn => hsess n y ((hothers n hn).symm.trans hy) hkind, hopt, hmem, hlogs⟩

theorem execAnchorRemove_refused (h : Asks s 0x0B05 sid x p) (hremove : ∀ l, (s.askedAt sid p l).anchorRemove (p.num 1) = .error .notPermitted) :
    ∃ t, exec (.anchorRemove sid) s = .next t ∧ Refused s t sid x p .notPermitted 0 :=
  ⟨_, rfl, refused_of_asked h (by decide) fun l => by simp only [hremove, CmdOut.no]⟩

theorem execAnchorRemove_unknown (h : Asks s 0x0B05 sid x p) (hfind : s.trust.anchors.find? (fun a => a.index == p.num 1) = none) :
    ∃ t, exec (.anchorRemove sid) s = .next t ∧ Refused s t sid x p .badParam (p.off 1) := by
  refine ⟨_, rfl, refused_of_asked h (by decide) fun l => ?_⟩
  have hasked : (s.askedAt sid p l).trust.anchors.find? (fun a => a.index == p.num 1) = none := hfind
  simp only [State.anchorRemove, hasked, CmdOut.bad]

/-! ## DENY_ADD, R503 -/

section
variable (h : Asks s 0x0B06 sid x p) {serial : List Byte} (hv : p.val 1 = some serial)
include h hv

theorem execDenyAdd_bad (hlen : serial.length < 1 ∨ 20 < serial.length) : ∃ t, exec (.denyAdd sid) s = .next t ∧ Refused s t sid x p .badParam (p.off 1) := by
  refine ⟨_, rfl, refused_of_asked h (by decide) fun l => ?_⟩
  rw [hv, Option.getD_some]
  exact if_pos hlen

variable (hmin : 1 ≤ serial.length) (hmax : serial.length ≤ 20)
include hmin hmax

theorem execDenyAdd_known (hknown : s.trust.deny.contains serial = true) : ∃ t, exec (.denyAdd sid) s = .next t ∧ ReadDone s t sid x p [] := by
  refine ⟨_, rfl, readDone_of_asked h fun l => ?_⟩
  rw [hv, Option.getD_some]
  exact (if_neg (by omega)).trans (if_pos hknown)

variable (hnew : s.trust.deny.contains serial = false)
include hnew

theorem execDenyAdd_full (hfull : 256 ≤ s.trust.deny.length) : ∃ t, exec (.denyAdd sid) s = .next t ∧ Refused s t sid x p .noResource 0 := by
  refine ⟨_, rfl, refused_of_asked h (by decide) fun l => ?_⟩
  rw [hv, Option.getD_some]
  exact (if_neg (by omega)).trans ((if_neg (ne_true_of_eq_false hnew)).trans (if_pos hfull))

theorem denyAdd_takesEffect (hroom : s.trust.deny.length < 256) : ∃ t, exec (.denyAdd sid) s = .next t
    ∧ Replied s t sid x (replyOf p .ok 0 [] (s.life.commit + 1)) ∧ t.trust = { s.trust with deny := s.trust.deny ++ [serial] }
    ∧ t.life.measures = s.life.measures.set 3 t.trust.digest ∧ (∀ k y, t.sess k = some y → k ≠ sid → y.serials.contains serial = false) ∧ t.opt = s.opt ∧ t.mem = s.mem := by
  obtain ⟨hpicked, hrest⟩ := endWhere_ends ((s.taken sid p).setTrust { s.trust with deny := s.trust.deny ++ [serial] }) 4 (fun x => x.serials.contains serial)
  obtain ⟨t, hexec, hdone⟩ : ∃ t, exec (.denyAdd sid) s = .next t ∧ AnsweredFrom s
      (((s.taken sid p).setTrust { s.trust with deny := s.trust.deny ++ [serial] }).endWhere 4 (fun x => x.serials.contains serial)) t sid x
      (replyOf p .ok 0 [] (s.life.commit + 1)) := by
    refine ⟨_, rfl, runCmd_done (wr := true) h (by decide) ?_⟩
    rw [hv, Option.getD_some]
    exact (if_neg (by omega)).trans ((if_neg (ne_true_of_eq_false hnew)).trans (if_neg (Nat.not_le.mpr hroom)))
  obtain ⟨htrust, hmeasures, hothers, hopt, hmem, -⟩ := trustChanged hdone hrest
  exact ⟨t, hexec, hdone.1, htrust, by rw [hmeasures, htrust], fun k y hy hk => hpicked k y ((hothers k hk).symm.trans hy), hopt, hmem⟩

end

/-! ## FW_BEGIN and FW_END, R407, R493 -/

section
variable (h : Asks s 0x0C01 sid x p)
include h

theorem execFwBegin_long (hlong : 2 ^ 26 < p.num 1) : ∃ t, exec (.fwBegin sid) s = .next t ∧ Refused s t sid x p .noResource 0 :=
  ⟨_, rfl, refused_of_asked h (by decide) fun _ => if_pos hlong⟩

theorem execFwBegin_empty (hzero : p.num 1 = 0) : ∃ t, exec (.fwBegin sid) s = .next t ∧ Refused s t sid x p .badParam (p.off 1) :=
  ⟨_, rfl, refused_of_asked h (by decide) fun _ => (if_neg (by rw [hzero]; decide)).trans (if_pos hzero)⟩

/-- The transfer that FW_BEGIN opens. -/
def State.fwBegun (s : State) (len : Nat) : State :=
  { s.setBank (1 - s.life.bank) 2 {} with img := { (s.setBank (1 - s.life.bank) 2 {}).img with
      lastXfer := s.img.lastXfer + 1, fwBytes := [], fwXfer := some { no := s.img.lastXfer + 1, length := len, chunk := Config.chunkSize } } }

theorem fwBegin_takesEffect (hmin : 1 ≤ p.num 1) (hmax : p.num 1 ≤ 2 ^ 26) (hbank : s.life.bank ≤ 1) : ∃ t, exec (.fwBegin sid) s = .next t
    ∧ Replied s t sid x (replyOf p .ok 0 [(1, be 4 (s.img.lastXfer + 1)), (2, be 4 Config.chunkSize), (3, be 1 (1 - s.life.bank))] (s.life.commit + 1))
    ∧ t.img.fwXfer = some { no := s.img.lastXfer + 1, length := p.num 1, chunk := Config.chunkSize } ∧ t.img.fwBytes = [] ∧ (t.img.bank (1 - s.life.bank)).1 = 2
    ∧ t.img.bank s.life.bank = s.img.bank s.life.bank ∧ t.img.xfer = s.img.xfer ∧ { t with comms := s.comms, out := s.out, life := s.life, img := s.img, store := s.store } = s := by
  obtain ⟨t, hexec, hdone⟩ : ∃ t, exec (.fwBegin sid) s = .next t
      ∧ WriteDone s t sid x p .ok [be 4 (s.img.lastXfer + 1), be 4 Config.chunkSize, be 1 (1 - s.life.bank)] ((s.taken sid p).fwBegun (p.num 1)) :=
    ⟨_, rfl, writeDone_of_taken h (by decide) ((if_neg (Nat.not_lt.mpr hmax)).trans (if_neg (by omega)))⟩
  have himg : t.img = ((s.taken sid p).fwBegun (p.num 1)).img := hdone.part State.img fun _ _ _ => rfl
  have hbanks (b : Nat) : ((s.taken sid p).fwBegun (p.num 1)).img.bank b = ((s.taken sid p).setBank (1 - s.life.bank) 2 {}).img.bank b := rfl
  have hother := setBank_bank_other (s.taken sid p) (b := 1 - s.life.bank) (by omega) 2 {}
  rw [show 1 - (1 - s.life.bank) = s.life.bank by omega] at hother
  refine ⟨t, hexec, hdone.1, by rw [himg]; rfl, by rw [himg]; rfl, ?_, ?_, ?_, ?_⟩
  · rw [himg, hbanks, setBank_bank_same]
  · rw [himg, hbanks, hother]
    rfl
  · rw [himg]
    unfold State.fwBegun State.setBank
    dsimp only
    split <;> rfl
  · exact (congrArg (fun v : State => { v with comms := s.comms, out := s.out, life := s.life, img := s.img, store := s.store }) hdone.2 :)

end

section
variable (h : Asks s 0x0C02 sid x p)
include h

theorem execFwEnd_busy (hbusy : s.img.fwXfer = none ∨ (s.img.fwXfer.bind (·.ending)).isSome = true) :
    ∃ t, exec (.fwEnd sid) s = .next t ∧ Refused s t sid x p .busy 0 := by
  refine ⟨_, rfl, refused_of_asked h (by decide) fun l => ?_⟩
  have himg : (s.askedAt sid p l).img = s.img := rfl
  dsimp only
  rw [himg]
  cases hxfer : s.img.fwXfer with
  | none => rfl
  | some f =>
    rw [hxfer] at hbusy
    exact if_pos (hbusy.resolve_left (by simp))

variable {f : Xfer} (hxfer : s.img.fwXfer = some f) (hopen : f.ending = none)
include hxfer hopen

theorem execFwEnd_missing (hmissing : f.missing ≠ top 64) : ∃ t, exec (.fwEnd sid) s = .next t ∧ ReadDone s t sid x p [be 8 f.missing] := by
  refine ⟨_, rfl, readDone_of_asked h fun l => ?_⟩
  have himg : (s.askedAt sid p l).img = s.img := rfl
  dsimp only
  rw [himg, hxfer]
  exact (if_neg (by rw [hopen]; exact Bool.false_ne_true)).trans (if_pos hmissing)

theorem execFwEnd_accepted (hwhole : f.missing = top 64) : ∃ t, exec (.fwEnd sid) s = .next t
    ∧ WriteDone s t sid x p .accepted [be 8 (top 64)] { s.commit with img := { s.img with fwXfer := some { f with ending := some (sid, p.seq), digest := p.num 1 } } } := by
  refine ⟨_, rfl, writeDone_of_taken_as { s.taken sid p with img := { s.img with fwXfer := some { f with ending := some (sid, p.seq), digest := p.num 1 } } } h (by decide) ?_ rfl⟩
  have himg : (s.taken sid p).img = s.img := rfl
  dsimp only
  rw [himg, hxfer]
  exact (if_neg (by rw [hopen]; exact Bool.false_ne_true)).trans (if_neg (not_not.mpr hwhole))

end

/-! ## FIRMWARE_VALIDATION_DONE and FW_ACTIVATE, R493 -/

/-- The end of a transfer, before its completion: the bank is valid where the status is OK, and empty where it is not. -/
def State.fwEnded (s : State) (fw : Firmware) (st : Status) : State :=
  if st = .ok then State.setBank { s.commit with img := { s.commit.img with fwXfer := none, fwBytes := [] } } (1 - s.life.bank) 1 fw
  else State.setBank { s.commit with img := { s.commit.img with fwXfer := none, fwBytes := [] } } (1 - s.life.bank) 0 {}

theorem fwEnded_eq (s : State) (fw : Firmware) (st : Status) : s.fwEnded fw st
    = State.setBank { s.commit with img := { s.commit.img with fwXfer := none, fwBytes := [] } } (1 - s.life.bank) (if st = .ok then 1 else 0) (if st = .ok then fw else {}) := by
  unfold State.fwEnded
  split <;> rfl

theorem fwEnded_parts (s : State) (hbank : s.life.bank ≤ 1) (fw : Firmware) (st : Status) : (s.fwEnded fw st).img.fwXfer = none
    ∧ (s.fwEnded fw st).life.commit = s.life.commit + 1 ∧ (s.fwEnded fw st).img.bank s.life.bank = s.img.bank s.life.bank
    ∧ (s.fwEnded fw st).img.bank (1 - s.life.bank) = (if st = .ok then 1 else 0, if st = .ok then fw else {})
    ∧ { s.fwEnded fw st with img := s.img, store := s.store, life := s.life } = s := by
  have hother := setBank_bank_other { s.commit with img := { s.commit.img with fwXfer := none, fwBytes := [] } } (b := 1 - s.life.bank) (by omega)
    (if st = .ok then 1 else 0) (if st = .ok then fw else {})
  rw [show 1 - (1 - s.life.bank) = s.life.bank by omega] at hother
  rw [fwEnded_eq]
  refine ⟨?_, rfl, hother, setBank_bank_same .., rfl⟩
  unfold State.setBank
  dsimp only
  split <;> rfl

theorem execFirmwareValidationDone_ends {f : Xfer} {who : Nat × Nat} (given : Firmware) (hup : s.fwUp = true) (hxfer : s.img.fwXfer = some f) (hwho : f.ending = some who) :
    exec (.firmwareValidationDone given) s = .next ((s.fwEnded (readFirmware s.img.fwBytes f.length f.digest given)
      (if f.failed then .storeFail else (readFirmware s.img.fwBytes f.length f.digest given).verdict s.optv.level s.opt.shadow.fwCtr)).complete (some who) 0x0C02 0xFFFF
      (if f.failed then .storeFail else (readFirmware s.img.fwBytes f.length f.digest given).verdict s.optv.level s.opt.shadow.fwCtr) 0 [(1, be 8 (top 64))]) := by
  change execFirmwareValidationDone given s = _
  unfold execFirmwareValidationDone
  rw [hxfer]
  dsimp only
  rw [hwho]
  exact if_neg (ne_false_of_eq_true hup)

theorem firmwareValidationDone_takesEffect {f : Xfer} {who : Nat × Nat} {fw : Firmware} (given : Firmware) (hup : s.fwUp = true) (hxfer : s.img.fwXfer = some f)
    (hwho : f.ending = some who) (hbank : s.life.bank ≤ 1) (hfw : fw = readFirmware s.img.fwBytes f.length f.digest given) :
    ∃ t, exec (.firmwareValidationDone given) s = .next t ∧ t.img.fwXfer = none ∧ t.life.commit = s.life.commit + 1 ∧ t.img.bank s.life.bank = s.img.bank s.life.bank
      ∧ (f.failed = false → fw.verdict s.optv.level s.opt.shadow.fwCtr = .ok → t.img.bank (1 - s.life.bank) = (1, fw))
      ∧ ((f.failed = true ∨ fw.verdict s.optv.level s.opt.shadow.fwCtr ≠ .ok) → t.img.bank (1 - s.life.bank) = (0, {}))
      ∧ { t with img := s.img, comms := s.comms, out := s.out, store := s.store, life := s.life } = s := by
  subst hfw
  generalize hst : (if f.failed then Status.storeFail else (readFirmware s.img.fwBytes f.length f.digest given).verdict s.optv.level s.opt.shadow.fwCtr) = st
  have hexec := execFirmwareValidationDone_ends given hup hxfer hwho
  rw [hst] at hexec
  obtain ⟨co, ou, hcomplete⟩ := complete_eq (s.fwEnded (readFirmware s.img.fwBytes f.length f.digest given) st) (some who) 0x0C02 0xFFFF st 0 [(1, be 8 (top 64))]
  obtain ⟨hnone, hcommit, hkept, hloaded, hrest⟩ := fwEnded_parts s hbank (readFirmware s.img.fwBytes f.length f.digest given) st
  rw [hcomplete] at hexec
  refine ⟨_, hexec, hnone, hcommit, hkept, fun hgood hverdict => ?_, fun hbad => ?_, ?_⟩
  · have hok : st = .ok := by rw [← hst, if_neg (ne_true_of_eq_false hgood), hverdict]
    rw [if_pos hok, if_pos hok] at hloaded
    exact hloaded
  · have hfail : st ≠ .ok := by
      rw [← hst]
      rcases hbad with hfailed | hverdict
      · rw [if_pos hfailed]
        decide
      · split
        · decide
        · exact hverdict
    rw [if_neg hfail, if_neg hfail] at hloaded
    exact hloaded
  · exact (congrArg (fun v : State => { v with comms := s.comms, out := s.out }) hrest :)

section
variable (h : Asks s 0x0C03 sid x p)
include h

theorem execFwActivate_bad (hbad : 1 < p.num 1 ∨ (s.img.bank (p.num 1)).1 ≠ 1) : ∃ t, exec (.fwActivate sid) s = .next t ∧ Refused s t sid x p .badParam (p.off 1) :=
  ⟨_, rfl, refused_of_asked h (by decide) fun _ => if_pos hbad⟩

theorem fwActivate_takesEffect (hlow : p.num 1 ≤ 1) (hvalid : (s.img.bank (p.num 1)).1 = 1) : ∃ t, exec (.fwActivate sid) s = .next t
    ∧ WriteDone s t sid x p .ok [] (s.commit.writeOption (fun o => { o with bootBank := p.num 1 })) ∧ t.opt.shadow.bootBank = p.num 1 ∧ t.life.bank = s.life.bank := by
  obtain ⟨t, hexec, hdone⟩ : ∃ t, exec (.fwActivate sid) s = .next t
      ∧ WriteDone s t sid x p .ok [] (s.commit.writeOption (fun o => { o with bootBank := p.num 1 })) :=
    ⟨_, rfl, writeDone_of_taken_as ((s.taken sid p).writeOption (fun o => { o with bootBank := p.num 1 })) h (by decide)
      (if_neg (not_or.mpr ⟨Nat.not_lt.mpr hlow, not_not.mpr hvalid⟩)) (taken_writeOption ..)⟩
  obtain ⟨-, n, hshadow⟩ := writeOption_opt s.commit (fun o => { o with bootBank := p.num 1 })
  refine ⟨t, hexec, hdone, ?_, ?_⟩
  · rw [(hdone.part State.opt fun _ _ _ => rfl : t.opt = _), hshadow]
  · exact (hdone.part State.life fun _ _ _ => rfl : t.life = _) ▸ (congrArg (·.life.bank) (writeOption_rest s.commit (fun o => { o with bootBank := p.num 1 })) :)

end

/-! ## The obligation -/

/-- Settles O33: each command by what its own rules refuse and what they let through. The lowest free index and NO_RESOURCE for an image of more than
64 MiB are the model's reading (entry 45 of the assumption log), BAD_PARAM for LENGTH 0 its choice (entry 39). -/
theorem trustAndFirmwareCommandsTakeEffect : Obligations.TrustAndFirmwareCommandsTakeEffect := by
  refine ⟨fun s sid x p h cert hv hcert hkind hrole hgiven => ⟨anchorAdd_takesEffect h hv hcert hkind hrole hgiven,
      fun htwo hlock => execAnchorAdd_refused h hv (by decide) (by decide) fun l => anchorAdd_locked hcert hkind hrole hgiven _ htwo hlock,
      fun hfree hfull => execAnchorAdd_refused h hv (by decide) (by decide) fun l => anchorAdd_full hcert hkind hrole hgiven _ hfree hfull⟩,
    fun s sid x p h => ⟨execAnchorRemove_unknown h, fun a hfind => ⟨fun hkind hlast => execAnchorRemove_refused h fun l => anchorRemove_lastImage hfind hkind hlast,
      fun hkind hlock => execAnchorRemove_refused h fun l => anchorRemove_firmware hfind hkind hlock, anchorRemove_takesEffect h hfind⟩⟩,
    fun s sid x p h serial hv => ⟨execDenyAdd_bad h hv, execDenyAdd_known h hv, execDenyAdd_full h hv, denyAdd_takesEffect h hv⟩,
    fun s sid x p h => ⟨execFwBegin_long h, execFwBegin_empty h, fwBegin_takesEffect h⟩,
    fun s sid x p h => ⟨execFwEnd_busy h, fun f hxfer hopen => execFwEnd_missing h hxfer hopen, fun f hxfer hopen => execFwEnd_accepted h hxfer hopen⟩,
    fun given fw s f who hup hxfer hwho hbank hfw => firmwareValidationDone_takesEffect given hup hxfer hwho hbank hfw,
    fun s sid x p h => ⟨execFwActivate_bad h, fwActivate_takesEffect h⟩⟩

end Sys2Proof.Machine
end

section
/-! COLD_START with a stored stamp above the commit stamp (R424, R490, R494). -/

namespace Sys2Proof.Machine

open Sys2Proof

variable {s u : State} {b : BootFacts}

/-! ## What a record adds to the commit stamp -/

theorem logLimited_commit_le (s : State) (e : LogEv) (tb : Option (Nat × Nat)) : (s.logLimited e tb).life.commit ≤ s.life.commit + 1 := by
  unfold State.logLimited
  split
  · exact Nat.le_refl _
  · exact Nat.le_succ _

theorem eventNotify_life (s : State) (w b : Nat) (r : LogRec) : (s.eventNotify w b r).life = s.life := by
  unfold State.eventNotify
  refine each_part State.life (fun v sid => ?_) _ s
  split
  · rfl
  · split
    · exact State.notify_life ..
    · rfl

theorem raise_commit_le (s : State) (w b bunit : Nat) : (s.raise w b bunit).life.commit ≤ s.life.commit + 1 := by
  unfold State.raise State.trouble State.troubleAs
  split
  · exact logLimited_commit_le ..
  · dsimp only
    rw [eventNotify_life]
    exact Nat.le_refl _

theorem bootLog_commit_le (s : State) (cold last : Bool) : (s.bootLog cold last).life.commit ≤ s.life.commit + 2 := by
  have hgasp : s.copyGasp.life = s.life := by
    unfold State.copyGasp
    dsimp only
    split <;> rfl
  unfold State.bootLog
  refine (logLimited_commit_le ..).trans (Nat.succ_le_succ ?_)
  split
  · exact Nat.succ_le_succ (Nat.le_of_eq (congrArg Life.commit hgasp))
  · exact (Nat.le_of_eq (congrArg Life.commit hgasp)).trans (Nat.le_succ _)

theorem startTroubles_commit_le (s : State) : s.startTroubles.life.commit ≤ s.life.commit + 4 := by
  have hraise (v : State) (c : Prop) [Decidable c] (w k m : Nat) : (if c then v.raise w k m else v).life.commit ≤ v.life.commit + 1 := by
    split
    · exact raise_commit_le ..
    · exact Nat.le_succ _
  unfold State.startTroubles
  dsimp only
  exact (hraise ..).trans (Nat.succ_le_succ ((hraise ..).trans (Nat.succ_le_succ ((hraise ..).trans (Nat.succ_le_succ (hraise ..))))))

/-! ## What the log of a start leaves -/

/-- What a start's later steps read of the state: upkeep, images, checkpoints. -/
def State.carried (s : State) : Upkeep × Images × Ckpts := (s.upk, s.img, s.ckpt)

theorem log_carried (s : State) (e : LogEv) : (s.log e).carried = s.carried := by simp only [State.carried, State.log_upk, State.log_img, State.log_ckpt]

theorem raise_carried (s : State) (w b m : Nat) : (s.raise w b m).carried = s.carried := by
  simp only [State.carried, State.raise_upk, State.raise_img, State.raise_ckpt]

theorem bootLog_carried (s : State) (cold last : Bool) : (s.bootLog cold last).carried = s.carried := by
  have hgasp : s.copyGasp.carried = s.carried := by
    unfold State.copyGasp
    dsimp only
    split <;> rfl
  unfold State.bootLog
  refine (log_carried ..).trans ?_
  split
  · exact hgasp
  · exact hgasp

theorem startTroubles_carried (s : State) : s.startTroubles.carried = s.carried := by
  have hraise (v : State) (c : Prop) [Decidable c] (w k m : Nat) : (if c then v.raise w k m else v).carried = v.carried := by
    split
    · exact raise_carried ..
    · rfl
  unfold State.startTroubles
  dsimp only
  rw [hraise, hraise, hraise, hraise]

/-! ## Nothing kept: the later steps of a start make no commit -/

/-- No plane, panel or journal record is kept, no image is in force and there is no checkpoint. -/
def Bare (c : Upkeep × Images × Ckpts) : Prop :=
  c.1.planes = [] ∧ c.1.panels = [] ∧ c.1.cells = [] ∧ c.1.journal = [] ∧ c.2.1.active = none ∧ c.2.2.inForce = none ∧ c.2.2.gasp = none

theorem syncIngest_life (s : State) : s.syncIngest.life = s.life := by
  unfold State.syncIngest
  split
  · rfl
  · split
    · rfl
    · rfl

section
variable (hbare : Bare s.carried)
include hbare

theorem image_of_bare : s.image = none := by
  obtain ⟨-, -, -, -, hactive, -, -⟩ := hbare
  have hactive : s.img.active = none := hactive
  unfold State.image
  rw [hactive, ite_self]

theorem oldHomes_of_bare : s.oldHomes = [] := by
  unfold State.oldHomes
  rw [image_of_bare hbare]

theorem replay_of_bare : s.replay = s := by
  obtain ⟨hplanes, hpanels, -, hjournal, -, -, -⟩ := hbare
  have hmaps : s.mapPlanes = s := by
    have hplanes : s.upk.planes = [] := hplanes
    have hpanels : s.upk.panels = [] := hpanels
    unfold State.mapPlanes
    simp [hplanes, hpanels, State.each]
  have hjournal : s.upk.journal = [] := hjournal
  have hplan : s.recoverReplan = s := by
    unfold State.recoverReplan
    rw [hjournal]
    rfl
  unfold State.replay
  simp [hjournal, hmaps, hplan, planesOf]

theorem loadImage_of_bare (b : BootFacts) (cold : Bool) : s.loadImage b cold = { s with img := { s.img with good := true, codesBad := false } } := by
  obtain ⟨-, -, -, -, hactive, -, -⟩ := hbare
  have hactive : s.img.active = none := hactive
  unfold State.loadImage State.bootImage
  rw [hactive]

theorem recoverSwap_of_bare : s.recoverSwap = s := by
  unfold State.recoverSwap
  rw [oldHomes_of_bare hbare]
  rfl

theorem checkArrays_of_bare (hreads : b.reads = []) (cold : Bool) : s.checkArrays b cold = { s with upk := { s.upk with postponed := [] } } := by
  obtain ⟨hplanes, hpanels, hcells, -, -, -, -⟩ := hbare
  have hplanes : s.upk.planes = [] := hplanes
  have hpanels : s.upk.panels = [] := hpanels
  have hcells : s.upk.cells = [] := hcells
  unfold State.checkArrays State.homesAway State.usedPlanes State.blankPlanes
  simp [hplanes, hpanels, hcells, hreads]

theorem becomeReady_of_bare (b : BootFacts) : (s.becomeReady b true).life.commit = s.life.commit := by
  obtain ⟨-, -, -, -, -, hforce, hgasp⟩ := id hbare
  have hforce : s.ckpt.inForce = none := hforce
  have hgasp : s.ckpt.gasp = none := hgasp
  have hpoint : s.restorePoint b true = none := by
    unfold State.restorePoint State.candidates
    simp [hforce, hgasp]
  have hjoin (v : State) (port : Nat) : (v.joinGroups port).life = v.life := by
    unfold State.joinGroups
    split <;> rfl
  unfold State.becomeReady
  dsimp only
  rw [hforce]
  dsimp only
  rw [hpoint]
  dsimp only
  rw [foldl_part State.life hjoin, syncIngest_life]
  rfl

end

/-- A cold start from the end of step 6's stamp on. -/
def State.comesUp (s : State) (b : BootFacts) (last : Bool) : State :=
  (((((s.bootLog true last).startTroubles.replay).loadImage b true).recoverSwap.checkArrays b true).becomeReady b true).lateCheck b true

theorem comesUp_commit_le (hbare : Bare s.carried) (hreads : b.reads = []) (last : Bool) : (s.comesUp b last).life.commit ≤ s.life.commit + 6 := by
  have hlogged : (s.bootLog true last).startTroubles.carried = s.carried := (startTroubles_carried _).trans (bootLog_carried ..)
  have hcommit : (s.bootLog true last).startTroubles.life.commit ≤ s.life.commit + 6 :=
    (startTroubles_commit_le _).trans (Nat.add_le_add_right (bootLog_commit_le ..) 4)
  have hbare' : Bare (s.bootLog true last).startTroubles.carried := hlogged ▸ hbare
  unfold State.comesUp
  generalize (s.bootLog true last).startTroubles = v at hcommit hbare'
  have hloaded : Bare (State.carried { v with img := { v.img with good := true, codesBad := false } }) := hbare'
  have hchecked : Bare (State.carried { v with img := { v.img with good := true, codesBad := false }, upk := { v.upk with postponed := [] } }) := hbare'
  rw [replay_of_bare hbare', loadImage_of_bare hbare', recoverSwap_of_bare hloaded, checkArrays_of_bare hloaded hreads]
  have hlate (w : State) : w.lateCheck b true = w := if_pos (.inl rfl)
  rw [hlate, becomeReady_of_bare hchecked]
  exact hcommit

/-! ## A bank that boots -/

/-- A start that has come to a bank: its firmware runs and the stamp is resumed. -/
def State.firmwareRuns (s : State) (n : Nat) (fall kept : Bool) : State := (State.bootFirmware { s with plls := pllsLocked } n fall).resumeStamp kept

theorem bootOn_boots {n : Nat} {fall : Bool} (htcxo : b.tcxoOk = true) (hplls : s.bootPllsFail b = false)
    (hbank : State.bootBank { s with plls := pllsLocked } b = some (n, fall)) (kept : Bool) : (s.bootOn b true kept).life.commit
      = ((s.firmwareRuns n fall kept).comesUp b (State.newestGasp { s with plls := pllsLocked })).life.commit := by
  unfold State.bootOn
  rw [if_neg (ne_false_of_eq_true htcxo), if_neg (by rw [hplls]; simp)]
  dsimp only
  rw [hbank]
  rfl

/-! ## The counterexample -/

/-- A module without power whose bank 1 alone holds firmware. Its stored stamp is far above its commit stamp, which is about to enter a new block
of 2^31. -/
def stampAhead : State :=
  { life := { phase := .unpowered, commit := 2 ^ 31 - 1, storedStamp := 2 ^ 40 }
    img := { bank0 := (0, {}), bank1 := (1, {}) } }

/-- What its cold start finds: both feeds in range, nothing amiss. -/
def nothingAmiss : BootFacts := { backupMv := 110000 }

/-- The option area as that start finds it. -/
def optionsFound : Options := { stampAhead.opt with loaded := stampAhead.opt.copy0, shadow := stampAhead.opt.copy0 }

/-- The state that the reset leaves. -/
def stampAheadReset : State :=
  let s := (stampAhead.startFeeds nothingAmiss).resetTo optionsFound nothingAmiss true false
  { s with supply := { s.supply with mainBudget := optionsFound.loaded.mainBud, backupBudget := optionsFound.loaded.backBud } }

theorem optionsFound_atReset : stampAhead.opt.atReset nothingAmiss = some optionsFound := by decide +kernel

theorem stampAhead_due : stampAhead.coldDue nothingAmiss = true := by decide +kernel

theorem stampAheadReset_locks : ((stampAhead.startFeeds nothingAmiss).resetTo optionsFound nothingAmiss true false).bootPllsFail nothingAmiss = false := by decide +kernel

theorem stampAhead_boots : ({ stampAhead with opt := optionsFound } : State).bootBank nothingAmiss = some (1, true) := by decide +kernel

theorem execColdStart_stampAhead : exec (.coldStart nothingAmiss) stampAhead = .next (stampAheadReset.bootOn nothingAmiss true false) := by
  have hdue := stampAhead_due
  change execColdStart nothingAmiss stampAhead = _
  unfold execColdStart State.startFrom
  rw [if_neg (ne_false_of_eq_true hdue)]
  have hoptions : (stampAhead.startFeeds nothingAmiss).opt.atReset nothingAmiss = some optionsFound := optionsFound_atReset
  rw [hoptions]
  rfl

/-- The record of the fallback takes the stamp into the new block, and what is stored is then this stamp. -/
theorem firmwareRuns_commit : (stampAheadReset.firmwareRuns 1 true false).life.commit = 2 ^ 31 + 2 ^ 32 := by decide +kernel

theorem firmwareRuns_bare : Bare (stampAheadReset.firmwareRuns 1 true false).carried := by
  unfold Bare
  decide +kernel

theorem coldStart_commit_le : (stampAheadReset.bootOn nothingAmiss true false).life.commit ≤ 2 ^ 31 + 2 ^ 32 + 6 := by
  rw [bootOn_boots (n := 1) (fall := true) rfl (by decide +kernel) (by decide +kernel), ← firmwareRuns_commit]
  exact comesUp_commit_le firmwareRuns_bare rfl _

/-- Refutes O10: a record of a commit whose low 31 bits are 0 stores that stamp whatever was stored. Where the stored stamp lies above the commit
stamp, as the statement allows, the record of a boot from the fallback bank lowers it before the start resumes the stamp from it. -/
theorem not_startsTakeEffect : ¬ Obligations.StartsTakeEffect := by
  rintro ⟨hcold, -⟩
  obtain ⟨t, hexec, -, -, -, hstamp⟩ := hcold nothingAmiss stampAhead optionsFound 1 true stampAhead_due optionsFound_atReset rfl stampAheadReset_locks stampAhead_boots
  obtain rfl : stampAheadReset.bootOn nothingAmiss true false = t := Host.Outcome.next.inj (execColdStart_stampAhead.symm.trans hexec)
  have hlow := coldStart_commit_le
  have hstored : stampAhead.life.storedStamp = 2 ^ 40 := rfl
  omega

end Sys2Proof.Machine
end
